-- ==== Sys2Proof/Word.lean ====
section
/-!
DEFINITION. The plain words of the model: bytes, 32-bit and 64-bit words, and the canonical finite map.
-/
namespace Sys2Proof

/-- One byte. -/
abbrev Byte := BitVec 8

/-- A register word (R9). -/
abbrev Word32 := BitVec 32

/-- A Tenon general register or a counter (R15). -/
abbrev Word64 := BitVec 64

/-- A sparse map from a number to a value: pairs of strictly rising keys, none equal to what an unlisted
key reads as.
The operations are in Machine/Ops.lean. -/
abbrev Tab (α : Type) := List (Nat × α)

end Sys2Proof
end

