-- ==== Sys2Proof/Syntax.lean ====
section
/-!
DEFINITION. The commands of the block: one constructor for each row of spec/opcode_table.json, with its operands.
-/
namespace Sys2Proof

/-! ### Operand types -/

/-- A job that QMGR has fetched (R437, R439): its queue and the entries of its chain, each of 32 bytes. -/
structure Job where
  /-- Global queue number of its submission queue. -/
  q : Nat
  /-- The queue's sequence number of the job, by which the model names it. -/
  seq : Nat
  /-- Submission head just after the job's LAST entry (R440). -/
  sqHead : Nat
  entries : List (List Byte)
  deriving DecidableEq, Repr

/-- What a device request to host memory was made for (R425). -/
inductive ReqKind where
  /-- A read of the submission ring of queue q. -/
  | ringRead (q : Fin 4096)
  /-- A write to the ring or write-back block of queue q. -/
  | ringWrite (q : Fin 4096)
  /-- A host read of the DMA job running on a Purlin channel, and the byte of its total that it serves. -/
  | dmaBeat (ch : Fin 28) (pos : BitVec 32)
  /-- A read or write of the free list of a Peg pool. -/
  | poolList (x : Fin 64)
  /-- Any other request. -/
  | other
  deriving DecidableEq, Repr

/-- A window of fault registers (R601, R607). -/
inductive FWin where
  | glob | hif | qmgr | peg | purlin
  | port (n : Fin 128)
  | pipe (p : Fin 8)
  | ridge | esch | joist | thyme
  | dmc (s : Fin 4)
  | mint | gauge | scribe | sec | boot
  /-- The window of function f: the HIF window for the owner function (R422). -/
  | fn (f : Fin 256)
  deriving DecidableEq, Repr

/-- What a port's physical layer has counted (R577): FEC codewords corrected and not correctable, and fragments rejected for
their SMD. -/
structure PhyCounts where
  corrected : BitVec 16 := 0
  uncorrectable : BitVec 16 := 0
  smd : BitVec 16 := 0
  deriving DecidableEq, Repr

/-- What Mint reads at the start of an evaluation (R549): 64 sensors in 1/16 °C, none for a missed conversion, and the
powers of eight rails in 1/8 W, none for a failed monitor. -/
structure MintReading where
  sensors : List (Option (BitVec 16))
  rails : List (Option (BitVec 16))
  deriving DecidableEq, Repr

/-- What comes over JTAG in the SEC data register (R617): a request for a nonce, or a response with its scope, public
key (97 bytes) and signature (96 bytes). -/
inductive SecReq where
  | challenge
  | response (scope : BitVec 32) (key sig : List Byte)
  deriving DecidableEq, Repr

/-- A TAP instruction (R616). Engine e is t of pipeline p at 64p + t, or service engine v at 512 + v. -/
inductive JtagOp where
  | bypass | idcode | sample | extest
  | halt (e : Fin 528)
  | resume (e : Fin 528)
  | step (e : Fin 528)
  | readReg (e : Fin 528) (r : Fin 16)
  /-- A word of the active or the other bank of an engine's control store. -/
  | readStore (e : Fin 528) (other : Bool) (w : BitVec 14)
  deriving DecidableEq, Repr

/-- A field of PCIe configuration space that host software writes (R408, R411, R420, R424). -/
inductive CfgSet where
  /-- Memory Space Enable, Bus Master Enable, MSI-X Enable, MSI-X Function Mask, and VF Enable of a PF. -/
  | mse (b : Bool)
  | bme (b : Bool)
  | msixEn (b : Bool)
  | fnMask (b : Bool)
  | vfEn (b : Bool)
  /-- Completion timeout value and Completion Timeout Disable of Device Control 2. -/
  | cto (v : Fin 16)
  | ctoDis (b : Bool)
  /-- Max Payload Size and Max Read Request Size of Device Control (R407). -/
  | mps (v : Fin 8)
  | mrrs (v : Fin 8)
  /-- Word i of the BARs, or of the VF BARs of a PF's SR-IOV capability (R413). -/
  | bar (i : Fin 6) (v : Word32)
  | vfBar (i : Fin 6) (v : Word32)
  /-- ASPM L1 of a PF's Link Control: enabled, its idle link enters L1 (R407, R420). -/
  | aspmL1 (b : Bool)
  deriving DecidableEq, Repr

/-- PCIe capabilities that R407 says of (R407). -/
inductive PcieCap where
  | ari | srIov | msix | msi | intx | aer | flr | ats | pri | pasid
  deriving DecidableEq, Repr

/-- A field of PCIe configuration space that the spec gives and that host software reads (R1, R407, R409, R410, R413, R418):
identifiers, the SR-IOV capability, the BARs, what a function supports, and the settings of `CfgSet`. -/
inductive CfgGet where
  | vendorId | deviceId
  | initialVfs | totalVfs | vfOffset | vfStride
  | bar (i : Fin 6)
  | vfBar (i : Fin 6)
  | cap (c : PcieCap)
  | maxSpeed | maxWidth | flit | mpsSupported | tag10 | tag14 | aspmSupport | ctoRanges | ctoDisSupported | msixSize
  | mse | bme | msixEn | fnMask | vfEn | cto | ctoDis | mps | mrrs | aspmL1
  deriving DecidableEq, Repr

/-- A non-posted host request to a function (R408): a read of `len` bytes of a BAR, or an access to configuration
space. -/
inductive HostReq where
  | read (bar : Fin 6) (off : BitVec 24) (len : BitVec 13)
  /-- A read at an address on the function's link, which the BARs of that link's functions decode (R408, R413). -/
  | readAt (addr : BitVec 64) (len : BitVec 13)
  | cfgRead (g : CfgGet)
  | cfgWrite (c : CfgSet)
  deriving DecidableEq, Repr

/-- A command: one constructor for each row of the table, in its order; a row that takes a job carries the job. -/
inductive Instr where
  /-- REGISTER_WRITE (R12). -/
  | registerWrite (f : Fin 256) (bar : Fin 6) (off : BitVec 24) (v : Word32)
  /-- MISALIGNED_ACCESS (R9). -/
  | misalignedAccess (f : Fin 256) (bar2 : Bool) (write : Bool) (off : BitVec 24) (len : BitVec 13)
  /-- PAIR_LO_READ (R10). -/
  | pairLoRead (f : Fin 256) (bar4 : Bool) (off : BitVec 24)
  /-- PAIR_HI_READ (R10). -/
  | pairHiRead (f : Fin 256) (bar4 : Bool) (off : BitVec 24)
  /-- PAIR_LO_WRITE (R10). -/
  | pairLoWrite (f : Fin 256) (off : BitVec 24) (v : Word32)
  /-- PAIR_HI_WRITE (R10). -/
  | pairHiWrite (f : Fin 256) (off : BitVec 24) (v : Word32)
  /-- NOW_NS_READ (R361). -/
  | nowNsRead (f : Fin 256)
  /-- TOD_RX_READ (R380). -/
  | todRxRead (f : Fin 256)
  /-- OVF_CLEAR (R599). -/
  | ovfClear (w : Fin 18) (v : Word32)
  /-- STEP_FLAG_CLEAR (R403). -/
  | stepFlagClear
  /-- FAULT_STATUS_CLEAR (R602). -/
  | faultStatusClear (w : FWin) (v : Word32)
  /-- FAULT_FIRST_CLEAR (R603). -/
  | faultFirstClear (w : FWin)
  /-- FAULT_MASK_WRITE (R604). -/
  | faultMaskWrite (w : FWin) (v : Word32)
  /-- FAULT_SEV_WRITE (R606). -/
  | faultSevWrite (w : FWin) (hi : Bool) (v : Word32)
  /-- FAULT_INJECT_WRITE (R614). -/
  | faultInjectWrite (w : FWin) (v : Word32)
  /-- DUP_INJECT_WRITE (R614). -/
  | dupInjectWrite (w : FWin)
  /-- SAFE_CAUSE_CLEAR (R609). -/
  | safeCauseClear
  /-- WARM_RESET_KEY_WRITE (R628). -/
  | warmResetKeyWrite (v : Word32)
  /-- ADMIN_CTL_ENABLE (R465). -/
  | adminCtlEnable (f : Fin 256)
  /-- ADMIN_CTL_DISABLE (R465). -/
  | adminCtlDisable (f : Fin 256)
  /-- SQ_TAIL_DOORBELL (R438). -/
  | sqTailDoorbell (f : Fin 256) (i : Fin 512) (v : Word32)
  /-- CQ_HEAD_DOORBELL (R443). -/
  | cqHeadDoorbell (f : Fin 256) (i : Fin 512) (v : Word32)
  /-- JOB_FETCH (R441). -/
  | jobFetch
  /-- UNDEFINED_OPCODE_JOB (R466). -/
  | undefinedOpcodeJob (j : Job)
  /-- COMPLETION_WRITE (R446). -/
  | completionWrite (c : Fin 4096)
  /-- NOTICE_POST (R450). -/
  | noticePost (q : Fin 4096)
  /-- COALESCE_TIMER_EXPIRY (R452). -/
  | coalesceTimerExpiry (q : Fin 4096)
  /-- QUEUE_STOP_DONE (R460). -/
  | queueStopDone (q : Fin 4096)
  /-- QUEUE_CREATE (R468). -/
  | queueCreate (j : Job)
  /-- QUEUE_DESTROY (R460). -/
  | queueDestroy (j : Job)
  /-- QUEUE_QUERY (R470). -/
  | queueQuery (j : Job)
  /-- QUEUE_COALESCE (R452). -/
  | queueCoalesce (j : Job)
  /-- ECHO (R467). -/
  | echo (j : Job)
  /-- INJECT_FRAME (R459). -/
  | injectFrame (j : Job)
  /-- PUNT_FRAME_WRITE (R455). -/
  | puntFrameWrite (p : Fin 4096)
  /-- EVENT_RECORD_POST (R454). -/
  | eventRecordPost (q : Fin 4096) (r : List Byte)
  /-- ASSIGN_RESOURCES (R428). -/
  | assignResources (j : Job)
  /-- RESOURCE_QUERY (R430). -/
  | resourceQuery (j : Job)
  /-- HIF_SETUP (R431). -/
  | hifSetup (j : Job)
  /-- PCIE_LINK_UP (R406). -/
  | pcieLinkUp (j : Fin 4) (rate : Fin 7) (width : Fin 17) (flit : Bool)
  /-- LINK_RECOVERY (R423). -/
  | linkRecovery (j : Fin 4) (us : Word32)
  /-- RETRY_US_EXPIRY (R423). -/
  | retryUsExpiry (j : Fin 4)
  /-- PCIE_HOT_RESET (R412). -/
  | pcieHotReset (j : Fin 4) (hot : Bool)
  /-- FUNCTION_LEVEL_RESET (R412). -/
  | functionLevelReset (f : Fin 256)
  /-- FUNCTION_RESET_DONE (R412). -/
  | functionResetDone (f : Fin 256)
  /-- MMIO_REQUEST (R408). -/
  | mmioRequest (f : Fin 256) (r : HostReq)
  /-- COMPLETION_ARRIVAL (R425). -/
  | completionArrival (f : Fin 256) (tag : BitVec 14)
  /-- CPL_TIMER_EXPIRY (R425). -/
  | cplTimerExpiry (f : Fin 256) (k : ReqKind) (tag : BitVec 14) (outside : Bool)
  /-- MSIX_PENDING_SEND (R420). -/
  | msixPendingSend (f : Fin 256) (i : Fin 576)
  /-- PORT_CONFIG (R76). -/
  | portConfig (j : Job)
  /-- PORT_ENABLE (R48). -/
  | portEnable (j : Job)
  /-- PORT_QUERY (R76). -/
  | portQuery (j : Job)
  /-- PORT_CAL (R72). -/
  | portCal (j : Job)
  /-- PORT_PFC_SET (R76). -/
  | portPfcSet (j : Job)
  /-- PORT_PREEMPT_SET (R61). -/
  | portPreemptSet (j : Job)
  /-- PORT_GCL_LOAD (R67). -/
  | portGclLoad (j : Job)
  /-- PORT_GCL_QUERY (R76). -/
  | portGclQuery (j : Job)
  /-- PORT_EEE_SET (R50). -/
  | portEeeSet (j : Job)
  /-- PORT_EXPRESS_SET (R69). -/
  | portExpressSet (j : Job)
  /-- PORT_DOMAIN_SET (R339). -/
  | portDomainSet (j : Job)
  /-- AN_RESOLVED (R48). -/
  | anResolved (n : Fin 128) (common : Bool) (fec : Fin 16) (pause : Fin 4)
  /-- AN_TIMER_EXPIRY (R48). -/
  | anTimerExpiry (n : Fin 128)
  /-- TRAINING_RECEIVER_READY (R48). -/
  | trainingReceiverReady (n : Fin 128)
  /-- LT_MAX_WAIT_EXPIRY (R48). -/
  | ltMaxWaitExpiry (n : Fin 128) (lane : BitVec 8)
  /-- ALIGNMENT_ACHIEVED (R48). -/
  | alignmentAchieved (n : Fin 128)
  /-- LINK_LOSS (R48). -/
  | linkLoss (n : Fin 128) (cause : Word32)
  /-- VAR_MEASURED (R72). -/
  | varMeasured (n : Fin 128) (rx : Word32) (tx : Word32)
  /-- LPI_TIMER_EXPIRY (R50). -/
  | lpiTimerExpiry (n : Fin 128)
  /-- TW_SYS_TX_EXPIRY (R51). -/
  | twSysTxExpiry (n : Fin 128)
  /-- PFC_FRAME_SEND (R56). -/
  | pfcFrameSend (n : Fin 128)
  /-- PFC_REFRESH_EXPIRY (R57). -/
  | pfcRefreshExpiry (n : Fin 128) (j : Fin 8)
  /-- RX_PFC_FRAME (R58). -/
  | rxPfcFrame (n : Fin 128) (vec : BitVec 8) (times : List (BitVec 16))
  /-- RX_PAUSE_FRAME (R57). -/
  | rxPauseFrame (n : Fin 128) (quanta : BitVec 16)
  /-- RX_MAC_CONTROL_FRAME (R59). -/
  | rxMacControlFrame (n : Fin 128)
  /-- RX_PAUSE_TIMER_EXPIRY (R58). -/
  | rxPauseTimerExpiry (n : Fin 128) (j : Option (Fin 8))
  /-- VERIFY_TIME_EXPIRY (R63). -/
  | verifyTimeExpiry (n : Fin 128)
  /-- VERIFY_SUCCEEDED (R63). -/
  | verifySucceeded (n : Fin 128) (frag : Fin 4)
  /-- GCL_CHANGE_TIME (R67). -/
  | gclChangeTime (n : Fin 128)
  /-- GCL_ENTRY_BOUNDARY (R66). -/
  | gclEntryBoundary (n : Fin 128)
  /-- RX_FRAME (R47). -/
  | rxFrame (n : Fin 128) (mac : Fin 2) (total : BitVec 15) (bytes : List Byte) (last : Bool) (fcs : Word32) (aborted : Bool) (broken : Bool) (frags : BitVec 8) (phy : PhyCounts) (svc : Option (Fin 8 × Fin 16))
  /-- SLOT_GRANT (R23). -/
  | slotGrant (p : Fin 8) (ecc0 ecc1 : Fin 3)
  /-- PACKET_ENTRY (R80). -/
  | packetEntry (p : Fin 8) (ecc shadow : Fin 3)
  /-- PARSE_RESULT_DELIVERY (R80). -/
  | parseResultDelivery (p : Fin 8)
  /-- TRUSS_GRAPH_LOAD (R98). -/
  | trussGraphLoad (j : Job)
  /-- TRUSS_SHADOW_WRITTEN (R98). -/
  | trussShadowWritten (p : Fin 8)
  /-- TRUSS_GRAPH_SWAP (R99). -/
  | trussGraphSwap (j : Job)
  /-- TRUSS_DRAIN_END (R99). -/
  | trussDrainEnd (p : Fin 8)
  /-- TRUSS_GRAPH_READ (R102). -/
  | trussGraphRead (j : Job)
  /-- MORTISE_SEARCH (R128). -/
  | mortiseSearch (j : Job)
  /-- MORTISE_SEARCH_RESULT (R131). -/
  | mortiseSearchResult (p : Fin 8)
  /-- FLOOR_CREDIT_EARN (R132). -/
  | floorCreditEarn (p : Fin 8)
  /-- MORTISE_PROFILE_SET (R134). -/
  | mortiseProfileSet (j : Job)
  /-- MORTISE_PORT_SET (R115). -/
  | mortisePortSet (j : Job)
  /-- MORTISE_READ (R134). -/
  | mortiseRead (j : Job)
  /-- MORTISE_SCRUB_SET (R123). -/
  | mortiseScrubSet (j : Job)
  /-- SCRUB_PERIOD_EXPIRY (R123). -/
  | scrubPeriodExpiry (p : Fin 8)
  /-- SCRUB_CHECK (R125). -/
  | scrubCheck (p : Fin 8) (ecc : Fin 3)
  /-- EM_BUCKET_READ_RETURN (R161). -/
  | emBucketReadReturn (p : Fin 8) (i : Nat) (ok : Bool)
  /-- LOOKUP_RESULTS_READY (R210). -/
  | lookupResultsReady (p : Fin 8) (i : Nat)
  /-- LEARN_APPLY (R150). -/
  | learnApply (p : Fin 8)
  /-- NOTICE_APPLY (R152). -/
  | noticeApply (p : Fin 8)
  /-- LEARN_MOVE_DELETE (R153). -/
  | learnMoveDelete (p : Fin 8)
  /-- LEARN_NOTICE_POST (R155). -/
  | learnNoticePost (p : Fin 8)
  /-- AGE_TICK (R146). -/
  | ageTick (p : Fin 8)
  /-- AGEING_VISIT (R156). -/
  | ageingVisit (p : Fin 8) (k : Fin 262152)
  /-- REFRESH_NOTICE_APPLY (R156). -/
  | refreshNoticeApply (p : Fin 8)
  /-- SPILL_CNT_RECOUNT (R160). -/
  | spillCntRecount (b : BitVec 24)
  /-- EM_MOVE_REMOVE (R164). -/
  | emMoveRemove
  /-- TABLE_SETUP_PROFILE (R177). -/
  | tableSetupProfile (j : Job)
  /-- TABLE_SETUP_PORT (R177). -/
  | tableSetupPort (j : Job)
  /-- TABLE_SETUP_LEARN_AGE (R177). -/
  | tableSetupLearnAge (j : Job)
  /-- TABLE_SETUP_LEARN_SEEDS (R142). -/
  | tableSetupLearnSeeds (j : Job)
  /-- TABLE_SETUP_EM_SEEDS (R142). -/
  | tableSetupEmSeeds (j : Job)
  /-- TABLE_SETUP_EVENT_Q (R155). -/
  | tableSetupEventQ (j : Job)
  /-- TABLE_LOOKUP (R176). -/
  | tableLookup (j : Job)
  /-- TABLE_DUMP (R177). -/
  | tableDump (j : Job)
  /-- UPD_INSERT (R188). -/
  | updInsert (j : Job)
  /-- UPD_MODIFY (R188). -/
  | updModify (j : Job)
  /-- UPD_DELETE (R188). -/
  | updDelete (j : Job)
  /-- UPD_MOVE (R188). -/
  | updMove (j : Job)
  /-- BATCH_OPEN (R194). -/
  | batchOpen (j : Job)
  /-- BATCH_COMMIT (R198). -/
  | batchCommit (j : Job)
  /-- BATCH_ABORT (R202). -/
  | batchAbort (j : Job)
  /-- UPDATE_SETUP (R206). -/
  | updateSetup (j : Job)
  /-- TABLE_WRITE_LAND (R190). -/
  | tableWriteLand (p : Fin 8)
  /-- STEAL_WAIT_EXPIRY (R23). -/
  | stealWaitExpiry (p : Fin 8) (arb : Bool)
  /-- STEAL_GAP_EXPIRY (R191). -/
  | stealGapExpiry (p : Fin 8)
  /-- BATCH_DRAIN_START (R199). -/
  | batchDrainStart (n : BitVec 16)
  /-- GROUP_PARITY_FLIP (R199). -/
  | groupParityFlip (p : Fin 8)
  /-- BATCH_DRAIN_END (R198). -/
  | batchDrainEnd (n : BitVec 16)
  /-- NORMALISATION_WRITE (R195). -/
  | normalisationWrite (p : Fin 8)
  /-- ABORT_UNDO_DONE (R198). -/
  | abortUndoDone (n : BitVec 16)
  /-- DRAIN_WARN_EXPIRY (R201). -/
  | drainWarnExpiry (p : Fin 8)
  /-- TENON_DISPATCH (R210). -/
  | tenonDispatch (p : Fin 8)
  /-- NOP (R256): the word of engine t of pipeline p. In this row and those of the other operations, p = 8 is the service
  cluster (R243). -/
  | nop (p : Fin 9) (t : Fin 64)
  /-- MOV (R256). -/
  | mov (p : Fin 9) (t : Fin 64)
  /-- ADD (R256). -/
  | add (p : Fin 9) (t : Fin 64)
  /-- SUB (R256). -/
  | sub (p : Fin 9) (t : Fin 64)
  /-- AND (R256). -/
  | and (p : Fin 9) (t : Fin 64)
  /-- OR (R256). -/
  | or (p : Fin 9) (t : Fin 64)
  /-- XOR (R256). -/
  | xor (p : Fin 9) (t : Fin 64)
  /-- SHL (R256). -/
  | shl (p : Fin 9) (t : Fin 64)
  /-- SHR (R256). -/
  | shr (p : Fin 9) (t : Fin 64)
  /-- SAR (R256). -/
  | sar (p : Fin 9) (t : Fin 64)
  /-- ROL (R256). -/
  | rol (p : Fin 9) (t : Fin 64)
  /-- MUL (R256). -/
  | mul (p : Fin 9) (t : Fin 64)
  /-- CMP (R256). -/
  | cmp (p : Fin 9) (t : Fin 64)
  /-- TST (R256). -/
  | tst (p : Fin 9) (t : Fin 64)
  /-- EXT (R256). -/
  | ext (p : Fin 9) (t : Fin 64)
  /-- INS (R256). -/
  | ins (p : Fin 9) (t : Fin 64)
  /-- CRC (R256). -/
  | crc (p : Fin 9) (t : Fin 64)
  /-- CSUM (R256). -/
  | csum (p : Fin 9) (t : Fin 64)
  /-- LD (R252). -/
  | ld (p : Fin 9) (t : Fin 64)
  /-- ST (R252). -/
  | st (p : Fin 9) (t : Fin 64)
  /-- MOVB (R256). -/
  | movb (p : Fin 9) (t : Fin 64)
  /-- SRD (R256). -/
  | srd (p : Fin 9) (t : Fin 64)
  /-- SWR (R256). -/
  | swr (p : Fin 9) (t : Fin 64)
  /-- SADD (R256). -/
  | sadd (p : Fin 9) (t : Fin 64)
  /-- SCAS (R256). -/
  | scas (p : Fin 9) (t : Fin 64)
  /-- DRD (R257). -/
  | drd (p : Fin 9) (t : Fin 64)
  /-- DWR (R257). -/
  | dwr (p : Fin 9) (t : Fin 64)
  /-- LKP (R258). -/
  | lkp (p : Fin 9) (t : Fin 64)
  /-- MTR (R259). -/
  | mtr (p : Fin 9) (t : Fin 64)
  /-- CLONE (R230). -/
  | clone (p : Fin 9) (t : Fin 64)
  /-- BR (R256). -/
  | br (p : Fin 9) (t : Fin 64)
  /-- BRR (R256). -/
  | brr (p : Fin 9) (t : Fin 64)
  /-- CALL (R256). -/
  | call (p : Fin 9) (t : Fin 64)
  /-- END (R221). -/
  | endFrame (p : Fin 9) (t : Fin 64)
  /-- RTN (R234). -/
  | rtn (p : Fin 9) (t : Fin 64)
  /-- TIME (R256). -/
  | time (p : Fin 9) (t : Fin 64)
  /-- LOOKUP_COMPLETE (R222). -/
  | lookupComplete (p : Fin 8) (t : Fin 64) (bad : Fin 4)
  /-- METER_VERDICT (R329). -/
  | meterVerdict
  /-- CELLS_RESERVED (R230). -/
  | cellsReserved (p : Fin 8) (t : Fin 64)
  /-- STATE_ACCESS_COMPLETE (R226). -/
  | stateAccessComplete (p : Fin 8) (ecc : Fin 3)
  /-- DRAM_ACCESS_COMPLETE (R227). -/
  | dramAccessComplete (p : Fin 8) (t : Fin 64) (ok : Bool)
  /-- WAIT_TIMER_EXPIRY (R255). -/
  | waitTimerExpiry (p : Fin 9) (t : Fin 64)
  /-- WINDOW_BYTE_ARRIVAL (R217). -/
  | windowByteArrival (p : Fin 8) (t : Fin 64)
  /-- ROUTINE_LIMIT_REACHED (R224). -/
  | routineLimitReached (p : Fin 8) (t : Fin 64)
  /-- FRAME_BAD_INTERRUPT (R232). -/
  | frameBadInterrupt (p : Fin 8) (t : Fin 64)
  /-- ENGINE_PARK (R236). -/
  | enginePark (p : Fin 8) (t : Fin 64)
  /-- ENGINE_UNPARK (R236). -/
  | engineUnpark (p : Fin 8) (t : Fin 64)
  /-- TENON_CS_LOAD (R239). -/
  | tenonCsLoad (j : Job)
  /-- TENON_SHADOW_WRITTEN (R239). -/
  | tenonShadowWritten (p : Fin 8)
  /-- TENON_CS_SWAP (R239). -/
  | tenonCsSwap (j : Job)
  /-- TENON_DRAIN_END (R239). -/
  | tenonDrainEnd (p : Fin 8)
  /-- TENON_CS_READ (R264). -/
  | tenonCsRead (j : Job)
  /-- TENON_SETUP (R265). -/
  | tenonSetup (j : Job)
  /-- TENON_STATE_READ (R266). -/
  | tenonStateRead (j : Job)
  /-- TENON_STATE_WRITE (R266). -/
  | tenonStateWrite (j : Job)
  /-- CS_SCRUB_PASS (R241). -/
  | csScrubPass (p : Fin 8) (k : Fin 4)
  /-- SVC_HEARTBEAT (R245). -/
  | svcHeartbeat (v : Fin 16)
  /-- SVC_HEARTBEAT_TIMEOUT (R245). -/
  | svcHeartbeatTimeout (v : Fin 16)
  /-- ESCH_DECISION (R315). -/
  | eschDecision (n : Fin 141) (m : Fin 2)
  /-- TX_FRAME_START (R320). -/
  | txFrameStart (n : Fin 141) (m : Fin 2)
  /-- TX_FRAME_END (R366). -/
  | txFrameEnd (n : Fin 141) (m : Fin 2)
  /-- LAUNCH_TIME_ARRIVAL (R324). -/
  | launchTimeArrival (q : BitVec 16)
  /-- WD_EXPIRY (R280). -/
  | wdExpiry (n : Fin 141) (c : Fin 16)
  /-- WD_RESTORE_EXPIRY (R281). -/
  | wdRestoreExpiry (n : Fin 141) (c : Fin 16)
  /-- MCAST_HOLD_EXPIRY (R297). -/
  | mcastHoldExpiry (q : BitVec 16) (k : Nat)
  /-- SPILL_WRITE_CONFIRM (R282). -/
  | spillWriteConfirm (q : BitVec 16)
  /-- REFILL_READ_RETURN (R283). -/
  | refillReadReturn (q : BitVec 16) (ok : Bool)
  /-- CELL_AUDIT (R298). -/
  | cellAudit (begins : Bool) (lost : List (Fin 524288 × Fin 141 × Fin 16)) (doubled : List (Fin 524288))
  /-- RIDGE_POOL_SET (R301). -/
  | ridgePoolSet (j : Job)
  /-- RIDGE_PAIR_SET (R301). -/
  | ridgePairSet (j : Job)
  /-- RIDGE_PORT_SET (R301). -/
  | ridgePortSet (j : Job)
  /-- RIDGE_DSCP_SET (R301). -/
  | ridgeDscpSet (j : Job)
  /-- RIDGE_SAMPLER_SET (R292). -/
  | ridgeSamplerSet (j : Job)
  /-- RIDGE_MCAST_SET (R295). -/
  | ridgeMcastSet (j : Job)
  /-- RIDGE_DEEP_SET (R282). -/
  | ridgeDeepSet (j : Job)
  /-- RIDGE_QUERY (R303). -/
  | ridgeQuery (j : Job)
  /-- ESCH_PORT_SET (R332). -/
  | eschPortSet (j : Job)
  /-- ESCH_NODE_SET (R333). -/
  | eschNodeSet (j : Job)
  /-- ESCH_QUEUE_SET (R333). -/
  | eschQueueSet (j : Job)
  /-- ESCH_QUERY (R334). -/
  | eschQuery (j : Job)
  /-- METER_SET (R331). -/
  | meterSet (j : Job)
  /-- METER_QUERY (R334). -/
  | meterQuery (j : Job)
  /-- RX_RETX_FRAME (R348). -/
  | rxRetxFrame (n : Fin 128) (bytes : List Byte) (fcs : Word32)
  /-- RX_ACK (R349). -/
  | rxAck (n : Fin 128) (k : BitVec 12)
  /-- RX_NAK (R349). -/
  | rxNak (n : Fin 128) (k : BitVec 12)
  /-- RX_RESYNC (R348). -/
  | rxResync (n : Fin 128) (k : BitVec 12)
  /-- RETX_TIMEOUT_EXPIRY (R349). -/
  | retxTimeoutExpiry (n : Fin 128) (receiver : Bool)
  /-- JOIST_SETUP (R352). -/
  | joistSetup (j : Job)
  /-- JOIST_ROUTE_SET (R352). -/
  | joistRouteSet (j : Job)
  /-- JOIST_ROUTE_QUERY (R352). -/
  | joistRouteQuery (j : Job)
  /-- JOIST_PORT_QUERY (R352). -/
  | joistPortQuery (j : Job)
  /-- TIME_BUS_BROADCAST (R35). -/
  | timeBusBroadcast
  /-- THYME_ADJUST_RATE (R358). -/
  | thymeAdjustRate (j : Job)
  /-- THYME_ADJUST_SLEW (R359). -/
  | thymeAdjustSlew (j : Job)
  /-- THYME_ADJUST_STEP (R391). -/
  | thymeAdjustStep (j : Job)
  /-- THYME_ADJUST_SET (R358). -/
  | thymeAdjustSet (j : Job)
  /-- THYME_ADJUST_SET_AT_PPS (R358). -/
  | thymeAdjustSetAtPps (j : Job)
  /-- THYME_PULSE_SET (R373). -/
  | thymePulseSet (j : Job)
  /-- THYME_IO_SET (R375). -/
  | thymeIoSet (j : Job)
  /-- THYME_PORT_SET (R385). -/
  | thymePortSet (j : Job)
  /-- THYME_DPLL_SET (R381). -/
  | thymeDpllSet (j : Job)
  /-- THYME_TOD_SEND (R379). -/
  | thymeTodSend (j : Job)
  /-- TOD_TRANSMIT_START (R379). -/
  | todTransmitStart
  /-- TOD_TRANSMIT_DONE (R379). -/
  | todTransmitDone
  /-- PULSE_EDGE (R372). -/
  | pulseEdge (i : Fin 8)
  /-- PPS_OUT_EDGE (R378). -/
  | ppsOutEdge
  /-- CAPTURE_EDGE (R376). -/
  | captureEdge (x : Fin 4) (rising : Bool)
  /-- PPS_IN_EDGE (R377). -/
  | ppsInEdge (rising : Bool)
  /-- PPS_IN_TIMEOUT (R377). -/
  | ppsInTimeout
  /-- TOD_RX_BYTE (R380). -/
  | todRxByte (b : Byte)
  /-- TOD_RX_IDLE (R380). -/
  | todRxIdle
  /-- REF10M_PRESENCE_CHANGE (R665). -/
  | ref10mPresenceChange (present : Bool) (off : BitVec 32)
  /-- CANDIDATE_DISQUALIFIED (R382). -/
  | candidateDisqualified (j : Fin 4)
  /-- WTR_EXPIRY (R382). -/
  | wtrExpiry (j : Fin 4) (ppb : BitVec 32)
  /-- DPLL_LOCK_ACHIEVED (R383). -/
  | dpllLockAchieved (d : BitVec 32)
  /-- HOLD_CTL_MODE (R389). -/
  | holdCtlMode (j : Job)
  /-- REPORT_ACQUIRE (R393). -/
  | reportAcquire (j : Job)
  /-- REPORT_LOCKED (R393). -/
  | reportLocked (j : Job)
  /-- REPORT_LOST (R393). -/
  | reportLost (j : Job)
  /-- REPORT_CHANGE (R393). -/
  | reportChange (j : Job)
  /-- REPORT_ALIVE (R393). -/
  | reportAlive (j : Job)
  /-- REPORT_FORGET (R393). -/
  | reportForget (j : Job)
  /-- HOLD_CTL_LIMITS (R402). -/
  | holdCtlLimits (j : Job)
  /-- HOLD_CTL_TABLE_LOAD (R402). -/
  | holdCtlTableLoad (j : Job)
  /-- THYME_HOLD_QUERY (R402). -/
  | thymeHoldQuery (j : Job)
  /-- MASTER_TIMER_EXPIRY (R394). -/
  | masterTimerExpiry
  /-- HOLD_SECOND (R398). -/
  | holdSecond
  /-- TSENSE_SAMPLE (R400). -/
  | tsenseSample (v : BitVec 16)
  /-- PEG_POOL_CREATE (R491). -/
  | pegPoolCreate (j : Job)
  /-- PEG_POOL_DESTROY (R476). -/
  | pegPoolDestroy (j : Job)
  /-- PEG_RESERVE (R482). -/
  | pegReserve (j : Job)
  /-- PEG_ALLOC (R484). -/
  | pegAlloc (j : Job)
  /-- PEG_FREE (R485). -/
  | pegFree (j : Job)
  /-- PEG_AUDIT (R487). -/
  | pegAudit (j : Job)
  /-- PEG_AUDIT_DONE (R489). -/
  | pegAuditDone
  /-- PEG_QUERY (R490). -/
  | pegQuery (j : Job)
  /-- PUNT_BUFFER_GRANT (R481). -/
  | puntBufferGrant (x : Fin 64)
  /-- DMA_COPY (R500). -/
  | dmaCopy (j : Job)
  /-- DMA_JOB_COMPLETE (R505). -/
  | dmaJobComplete (ch : Fin 28)
  /-- DMA_BEAT_FAILURE (R508). -/
  | dmaBeatFailure (ch : Fin 28) (cause : Fin 7) (pos : Word32) (late : Bool)
  /-- LATE_ERROR (R510). -/
  | lateError (ch : Fin 28) (tag : BitVec 16)
  /-- PURLIN_CHANNEL_SET (R513). -/
  | purlinChannelSet (j : Job)
  /-- CHANNEL_STOP (R512). -/
  | channelStop (j : Job)
  /-- CHANNEL_STOPPED (R512). -/
  | channelStopped (ch : Fin 28)
  /-- CHANNEL_RESUME (R512). -/
  | channelResume (j : Job)
  /-- CHANNEL_FLUSH (R512). -/
  | channelFlush (j : Job)
  /-- CHANNEL_POLICY (R511). -/
  | channelPolicy (j : Job)
  /-- PURLIN_QUERY (R513). -/
  | purlinQuery (j : Job)
  /-- DMC_REQUEST_ARRIVAL (R522). -/
  | dmcRequestArrival (port : Fin 13) (a : BitVec 36) (len : Fin 129) (write : Bool)
  /-- DMC_COMMAND_ISSUE (R524). -/
  | dmcCommandIssue (x : Fin 4) (c : Fin 32)
  /-- DMC_READ_RETURN (R532). -/
  | dmcReadReturn (x : Fin 4) (c : Fin 32) (ecc : Fin 3)
  /-- CRC_ERROR (R533). -/
  | crcError (x : Fin 4) (c : Fin 32)
  /-- REFRESH_DUE (R528). -/
  | refreshDue (x : Fin 4) (c : Fin 32)
  /-- DMC_TEMP_SAMPLE (R527). -/
  | dmcTempSample (x : Fin 4) (t : BitVec 16)
  /-- PD_TIMER_EXPIRY (R531). -/
  | pdTimerExpiry (x : Fin 4) (c : Fin 32)
  /-- PATROL_SCRUB_PASS (R534). -/
  | patrolScrubPass (x : Fin 4) (off : BitVec 34) (ecc : Fin 3)
  /-- RETRAIN_ROUND_DUE (R537). -/
  | retrainRoundDue
  /-- RETRAIN_STEP_START (R537). -/
  | retrainStepStart (x : Fin 4)
  /-- RETRAIN_STEP_DONE (R537). -/
  | retrainStepDone (x : Fin 4) (c : Fin 32) (ok : Bool)
  /-- STACK_FREQ_CHANGE_START (R539). -/
  | stackFreqChangeStart (x : Fin 4)
  /-- STACK_FREQ_CHANGE_DONE (R539). -/
  | stackFreqChangeDone (x : Fin 4)
  /-- STACK_HOT_EXIT (R541). -/
  | stackHotExit (x : Fin 4)
  /-- BOOT_TRAINING_DONE (R536). -/
  | bootTrainingDone (good : BitVec 4)
  /-- DMC_SETUP (R544). -/
  | dmcSetup (j : Job)
  /-- DMC_PORT_SET (R544). -/
  | dmcPortSet (j : Job)
  /-- DMC_MAP_SET (R545). -/
  | dmcMapSet (j : Job)
  /-- DMC_FREQ_SET (R538). -/
  | dmcFreqSet (j : Job)
  /-- DMC_RETRAIN (R545). -/
  | dmcRetrain (j : Job)
  /-- MINT_EVALUATE (R554). -/
  | mintEvaluate (r : MintReading)
  /-- CLOCK_SWITCH (R561). -/
  | clockSwitch
  /-- AVS_SETPOINT_ACK (R654). -/
  | avsSetpointAck
  /-- AVS_ACK_TIMEOUT (R656). -/
  | avsAckTimeout
  /-- THERMTRIP_ASSERT (R566). -/
  | thermtripAssert
  /-- THERMTRIP_LATCH_CLEAR (R661). -/
  | thermtripLatchClear
  /-- MINT_SETUP (R568). -/
  | mintSetup (j : Job)
  /-- MINT_ACT_SET (R559). -/
  | mintActSet (j : Job)
  /-- MINT_FLOOR_SET (R559). -/
  | mintFloorSet (j : Job)
  /-- MINT_HOLD (R569). -/
  | mintHold (j : Job)
  /-- MINT_QUERY (R568). -/
  | mintQuery (j : Job)
  /-- BW_SUBWINDOW_END (R585). -/
  | bwSubwindowEnd (n : Fin 128)
  /-- GAUGE_DUMP_DUE (R589). -/
  | gaugeDumpDue
  /-- GAUGE_DUMP_DONE (R588). -/
  | gaugeDumpDone (ok : Bool)
  /-- GAUGE_PC_SET (R579). -/
  | gaugePcSet (j : Job)
  /-- GAUGE_CLEAR (R575). -/
  | gaugeClear (j : Job)
  /-- GAUGE_BW_SET (R584). -/
  | gaugeBwSet (j : Job)
  /-- GAUGE_DUMP_SET (R586). -/
  | gaugeDumpSet (j : Job)
  /-- GAUGE_SAMPLE_READ (R582). -/
  | gaugeSampleRead (j : Job)
  /-- SCRIBE_EVENT_ARRIVAL (R593). -/
  | scribeEventArrival (code : BitVec 16) (source : BitVec 15) (firmware : Bool) (p0 : Word32) (p1 : Word32) (p2 : Word32)
  /-- SCRIBE_RATE_SECOND (R594). -/
  | scribeRateSecond
  /-- SCRIBE_MIRROR_REPOST (R597). -/
  | scribeMirrorRepost (r : Fin 9)
  /-- SCRIBE_READ (R596). -/
  | scribeRead (j : Job)
  /-- SCRIBE_CLEAR (R596). -/
  | scribeClear (j : Job)
  /-- SCRIBE_RATE_SET (R594). -/
  | scribeRateSet (j : Job)
  /-- SCRIBE_MIRROR_SET (R597). -/
  | scribeMirrorSet (j : Job)
  /-- SCRIBE_SETUP (R595). -/
  | scribeSetup (j : Job)
  /-- FAULT_OCCURRENCE (R602). -/
  | faultOccurrence (w : FWin) (mask : Word32) (live : Word32) (ended : Word32) (info : List (Fin 32 × Word32))
  /-- FAULT_COPY_MISCOMPARE (R608). -/
  | faultCopyMiscompare (w : FWin)
  /-- SAFE_REACHED (R610). -/
  | safeReached
  /-- FAULT_FN_MASK (R618). -/
  | faultFnMask (j : Job)
  /-- SAFE_ENTER (R609). -/
  | safeEnter (j : Job)
  /-- SEC_CHALLENGE (R617). -/
  | secChallenge (j : Job)
  /-- SEC_RESPONSE (R617). -/
  | secResponse (j : Job)
  /-- JTAG_SEC_RESPONSE (R617). -/
  | jtagSecResponse (x : SecReq)
  /-- NONCE_EXPIRY (R617). -/
  | nonceExpiry
  /-- SEC_LOCK (R616). -/
  | secLock (j : Job)
  /-- SEC_FUSE_REVOKE (R618). -/
  | secFuseRevoke (j : Job)
  /-- SEC_FUSE_FLOOR (R618). -/
  | secFuseFloor (j : Job)
  /-- SEC_QUERY (R618). -/
  | secQuery (j : Job)
  /-- POR_N_ASSERT (R627). -/
  | porNAssert
  /-- POR_N_RELEASE (R631). -/
  | porNRelease (bifur : Fin 4) (owner : Fin 4) (osc : Fin 4) (smb : Fin 8) (oscGood : Bool)
  /-- WARM_RST_N_ASSERT (R628). -/
  | warmRstNAssert
  /-- WARM_RST_N_RELEASE (R629). -/
  | warmRstNRelease
  /-- PERST_N_ASSERT (R625). -/
  | perstNAssert (j : Fin 4)
  /-- PERST_N_RELEASE (R636). -/
  | perstNRelease (j : Fin 4)
  /-- FLASH_COPY_CHECKED (R635). -/
  | flashCopyChecked (g : List Byte) (retries : Fin 4)
  /-- MEM_INIT_DONE (R632). -/
  | memInitDone
  /-- SERDES_CALIB_DONE (R632). -/
  | serdesCalibDone (failed : BitVec 128)
  /-- EM_CLEAR_DONE (R631). -/
  | emClearDone
  /-- SMB_REG_ADDR (R639): target address, data, and the PEC where the master sends one. -/
  | smbRegAddr (dst : BitVec 7) (v : Word32) (pec : Option Byte)
  /-- SMB_REG_READ (R639). -/
  | smbRegRead (dst : BitVec 7)
  /-- SMB_DEV_VECTORS (R639). -/
  | smbDevVectors (dst : BitVec 7)
  /-- SMB_WARM_RESET (R639). -/
  | smbWarmReset (dst : BitVec 7) (v : Byte) (pec : Option Byte)
  /-- LOW_POWER_IDLE_RECEIVED (R50). -/
  | lowPowerIdleReceived (n : Fin 128) (enter : Bool)
  /-- CANDIDATE_QUALIFIED (R382). -/
  | candidateQualified (j : Fin 4) (ppb : BitVec 32)
  /-- THYME_PLL_LOCK (R624). -/
  | thymePllLock
  /-- JTAG_DEBUG_ACCESS (R616). -/
  | jtagDebugAccess (x : JtagOp)
  deriving DecidableEq, Repr

end Sys2Proof
end

