-- ==== Sys2Proof/Machine/Codes.lean ====
section
/-!
DEFINITION. Completion status codes and event codes (R14), as the chapters' code tables give them.
-/
namespace Sys2Proof.Machine

/-- Status MODE_INVALID (ch. 02). -/
def St.MODE_INVALID : Nat := 0x0501
/-- Status LANE_IN_USE (ch. 02). -/
def St.LANE_IN_USE : Nat := 0x0502
/-- Status FEC_INVALID (ch. 02). -/
def St.FEC_INVALID : Nat := 0x0503
/-- Status EXPRESS_CONFLICT (ch. 02). -/
def St.EXPRESS_CONFLICT : Nat := 0x0504
/-- Status GCL_INVALID (ch. 02). -/
def St.GCL_INVALID : Nat := 0x0505
/-- Status CAL_RANGE (ch. 02). -/
def St.CAL_RANGE : Nat := 0x0506
/-- Status PORT_DOWN (ch. 02). -/
def St.PORT_DOWN : Nat := 0x0507
/-- Status PORT_INVALID (ch. 02). -/
def St.PORT_INVALID : Nat := 0x0508
/-- Event LINK_UP (ch. 02). -/
def Ev.LINK_UP : Nat := 0x0520
/-- Event LINK_DOWN (ch. 02). -/
def Ev.LINK_DOWN : Nat := 0x0521
/-- Event AN_FAILED (ch. 02). -/
def Ev.AN_FAILED : Nat := 0x0522
/-- Event LT_FAILED (ch. 02). -/
def Ev.LT_FAILED : Nat := 0x0523
/-- Event VERIFY_FAILED (ch. 02). -/
def Ev.VERIFY_FAILED : Nat := 0x0524
/-- Event GCL_CHANGED (ch. 02). -/
def Ev.GCL_CHANGED : Nat := 0x0525
/-- Event CAL_DONE (ch. 02). -/
def Ev.CAL_DONE : Nat := 0x0526
/-- Status GRAPH_INVALID (ch. 03). -/
def St.GRAPH_INVALID : Nat := 0x0601
/-- Status NO_SHADOW (ch. 03). -/
def St.NO_SHADOW : Nat := 0x0602
/-- Event GRAPH_LOADED (ch. 03). -/
def Ev.GRAPH_LOADED : Nat := 0x0620
/-- Event GRAPH_SWAPPED (ch. 03). -/
def Ev.GRAPH_SWAPPED : Nat := 0x0621
/-- Event SLOW_PATH (ch. 03). -/
def Ev.SLOW_PATH : Nat := 0x0622
/-- Status RANGE_INVALID (ch. 04). -/
def St.RANGE_INVALID : Nat := 0x0701
/-- Status ENTRY_LIVE (ch. 04). -/
def St.ENTRY_LIVE : Nat := 0x0702
/-- Status INDEX_RANGE (ch. 04). -/
def St.INDEX_RANGE : Nat := 0x0703
/-- Status KEY_WIDTH (ch. 04). -/
def St.KEY_WIDTH : Nat := 0x0704
/-- Status SOFT_ERROR (ch. 04). -/
def St.SOFT_ERROR : Nat := 0x0705
/-- Status PROFILE_INVALID (ch. 04). -/
def St.PROFILE_INVALID : Nat := 0x0706
/-- Event ENTRY_REPAIRED (ch. 04). -/
def Ev.ENTRY_REPAIRED : Nat := 0x0720
/-- Event SHADOW_UNCORRECTABLE (ch. 04). -/
def Ev.SHADOW_UNCORRECTABLE : Nat := 0x0721
/-- Event SCRUB_LATE (ch. 04). -/
def Ev.SCRUB_LATE : Nat := 0x0722
/-- Status TABLE_FULL (ch. 05). -/
def St.TABLE_FULL : Nat := 0x0801
/-- Status QUOTA_EXCEEDED (ch. 05). -/
def St.QUOTA_EXCEEDED : Nat := 0x0802
/-- Status PIN_FULL (ch. 05). -/
def St.PIN_FULL : Nat := 0x0803
/-- Status PREFIX_INVALID (ch. 05). -/
def St.PREFIX_INVALID : Nat := 0x0804
/-- Status SETUP_INVALID (ch. 05). -/
def St.SETUP_INVALID : Nat := 0x0805
/-- Status SEED_BUSY (ch. 05). -/
def St.SEED_BUSY : Nat := 0x0806
/-- Status NH_RANGE (ch. 05). -/
def St.NH_RANGE : Nat := 0x0807
/-- Status TABLE_OFFLINE (ch. 05). -/
def St.TABLE_OFFLINE : Nat := 0x0808
/-- Event STATION_FLAP (ch. 05). -/
def Ev.STATION_FLAP : Nat := 0x0820
/-- Event LEARN_FULL (ch. 05). -/
def Ev.LEARN_FULL : Nat := 0x0821
/-- Event STASH_HIGH (ch. 05). -/
def Ev.STASH_HIGH : Nat := 0x0822
/-- Event LOCK_RELEASED (ch. 05). -/
def Ev.LOCK_RELEASED : Nat := 0x0823
/-- Event NOTICE_LOST (ch. 05). -/
def Ev.NOTICE_LOST : Nat := 0x0824
/-- Status UPDATE_INVALID (ch. 06). -/
def St.UPDATE_INVALID : Nat := 0x0901
/-- Status EXISTS (ch. 06). -/
def St.EXISTS : Nat := 0x0902
/-- Status NOT_FOUND (ch. 06). -/
def St.NOT_FOUND : Nat := 0x0903
/-- Status ENTRY_CHANGING (ch. 06). -/
def St.ENTRY_CHANGING : Nat := 0x0904
/-- Status INDEX_LIVE (ch. 06). -/
def St.INDEX_LIVE : Nat := 0x0905
/-- Status BATCH_BUSY (ch. 06). -/
def St.BATCH_BUSY : Nat := 0x0906
/-- Status BATCH_STATE (ch. 06). -/
def St.BATCH_STATE : Nat := 0x0907
/-- Status BATCH_FULL (ch. 06). -/
def St.BATCH_FULL : Nat := 0x0908
/-- Status BATCH_MASK (ch. 06). -/
def St.BATCH_MASK : Nat := 0x0909
/-- Status NO_BATCH (ch. 06). -/
def St.NO_BATCH : Nat := 0x090A
/-- Event BATCH_COMMITTED (ch. 06). -/
def Ev.BATCH_COMMITTED : Nat := 0x0920
/-- Event BATCH_ABORTED (ch. 06). -/
def Ev.BATCH_ABORTED : Nat := 0x0921
/-- Event DRAIN_SLOW (ch. 06). -/
def Ev.DRAIN_SLOW : Nat := 0x0922
/-- Status CS_NO_SHADOW (ch. 07). -/
def St.CS_NO_SHADOW : Nat := 0x0A01
/-- Event TRAP_UNHANDLED (ch. 07). -/
def Ev.TRAP_UNHANDLED : Nat := 0x0A20
/-- Event TRAP_DOUBLE (ch. 07). -/
def Ev.TRAP_DOUBLE : Nat := 0x0A21
/-- Event CS_SWAPPED (ch. 07). -/
def Ev.CS_SWAPPED : Nat := 0x0A22
/-- Event SVC_STALL (ch. 07). -/
def Ev.SVC_STALL : Nat := 0x0A23
/-- Status CS_INVALID (ch. 08). -/
def St.CS_INVALID : Nat := 0x0A02
/-- Status REGION_INVALID (ch. 08). -/
def St.REGION_INVALID : Nat := 0x0A03
/-- Status STATE_RANGE (ch. 08). -/
def St.STATE_RANGE : Nat := 0x0A04
/-- Event CS_LOADED (ch. 08). -/
def Ev.CS_LOADED : Nat := 0x0A24
/-- Status POOL_NEGATIVE (ch. 09). -/
def St.POOL_NEGATIVE : Nat := 0x0B01
/-- Status RIDGE_INVALID (ch. 09). -/
def St.RIDGE_INVALID : Nat := 0x0B02
/-- Status MCAST_FULL (ch. 09). -/
def St.MCAST_FULL : Nat := 0x0B03
/-- Event HEADROOM_DROP (ch. 09). -/
def Ev.HEADROOM_DROP : Nat := 0x0B20
/-- Event PFC_STORM (ch. 09). -/
def Ev.PFC_STORM : Nat := 0x0B21
/-- Event PFC_STORM_END (ch. 09). -/
def Ev.PFC_STORM_END : Nat := 0x0B22
/-- Event MCAST_HOLD_DROP (ch. 09). -/
def Ev.MCAST_HOLD_DROP : Nat := 0x0B23
/-- Event BAD_FRAME_FORWARDED (ch. 09). -/
def Ev.BAD_FRAME_FORWARDED : Nat := 0x0B24
/-- Event CELL_LEAK (ch. 09). -/
def Ev.CELL_LEAK : Nat := 0x0B25
/-- Event DEEP_STALLED (ch. 09). -/
def Ev.DEEP_STALLED : Nat := 0x0B26
/-- Event DEEP_RESUMED (ch. 09). -/
def Ev.DEEP_RESUMED : Nat := 0x0B27
/-- Status ESCH_INVALID (ch. 10). -/
def St.ESCH_INVALID : Nat := 0x0C01
/-- Status ESCH_BUSY (ch. 10). -/
def St.ESCH_BUSY : Nat := 0x0C02
/-- Status METER_INVALID (ch. 10). -/
def St.METER_INVALID : Nat := 0x0C03
/-- Status JOIST_INVALID (ch. 11). -/
def St.JOIST_INVALID : Nat := 0x0D01
/-- Status JOIST_BUSY (ch. 11). -/
def St.JOIST_BUSY : Nat := 0x0D02
/-- Event RETX_FAILED (ch. 11). -/
def Ev.RETX_FAILED : Nat := 0x0D20
/-- Event DUP_DEVICE (ch. 11). -/
def Ev.DUP_DEVICE : Nat := 0x0D21
/-- Status THYME_INVALID (ch. 12). -/
def St.THYME_INVALID : Nat := 0x0E01
/-- Status THYME_STATE (ch. 12). -/
def St.THYME_STATE : Nat := 0x0E02
/-- Status PULSE_LATE (ch. 12). -/
def St.PULSE_LATE : Nat := 0x0E03
/-- Status THYME_BUSY (ch. 12). -/
def St.THYME_BUSY : Nat := 0x0E04
/-- Event TS_LOST (ch. 12). -/
def Ev.TS_LOST : Nat := 0x0E20
/-- Event PULSE_SKIPPED (ch. 12). -/
def Ev.PULSE_SKIPPED : Nat := 0x0E21
/-- Event SLEW_DONE (ch. 12). -/
def Ev.SLEW_DONE : Nat := 0x0E22
/-- Event PPS_IN_LOST (ch. 12). -/
def Ev.PPS_IN_LOST : Nat := 0x0E23
/-- Event PPS_IN_RESTORED (ch. 12). -/
def Ev.PPS_IN_RESTORED : Nat := 0x0E24
/-- Event DPLL_STATE (ch. 12). -/
def Ev.DPLL_STATE : Nat := 0x0E25
/-- Event RCLK_SQUELCH (ch. 12). -/
def Ev.RCLK_SQUELCH : Nat := 0x0E26
/-- Event TIME_CHANGED (ch. 12). -/
def Ev.TIME_CHANGED : Nat := 0x0E27
/-- Status STEP_REFUSED (ch. 13). -/
def St.STEP_REFUSED : Nat := 0x0E10
/-- Status SLEW_LIMIT (ch. 13). -/
def St.SLEW_LIMIT : Nat := 0x0E11
/-- Status HOLD_ACTIVE (ch. 13). -/
def St.HOLD_ACTIVE : Nat := 0x0E12
/-- Status HOLD_INVALID (ch. 13). -/
def St.HOLD_INVALID : Nat := 0x0E13
/-- Event HOLD_STATE (ch. 13). -/
def Ev.HOLD_STATE : Nat := 0x0E30
/-- Event MODE_CHANGED (ch. 13). -/
def Ev.MODE_CHANGED : Nat := 0x0E31
/-- Event STEP_FLAGGED (ch. 13). -/
def Ev.STEP_FLAGGED : Nat := 0x0E32
/-- Event TSENSE_FAULT (ch. 13). -/
def Ev.TSENSE_FAULT : Nat := 0x0E33
/-- Status RESOURCE_INVALID (ch. 14). -/
def St.RESOURCE_INVALID : Nat := 0x0101
/-- Status RESOURCE_BUSY (ch. 14). -/
def St.RESOURCE_BUSY : Nat := 0x0102
/-- Status RESOURCE_LIMIT (ch. 14). -/
def St.RESOURCE_LIMIT : Nat := 0x0103
/-- Status FUNC_INVALID (ch. 14). -/
def St.FUNC_INVALID : Nat := 0x0104
/-- Event HOST_LINK_UP (ch. 14). -/
def Ev.HOST_LINK_UP : Nat := 0x0120
/-- Event HOST_LINK_DOWN (ch. 14). -/
def Ev.HOST_LINK_DOWN : Nat := 0x0121
/-- Event CPL_TIMEOUT (ch. 14). -/
def Ev.CPL_TIMEOUT : Nat := 0x0122
/-- Event LINK_RECOVERY (ch. 14). -/
def Ev.LINK_RECOVERY : Nat := 0x0123
/-- Event FUNCTION_RESET (ch. 14). -/
def Ev.FUNCTION_RESET : Nat := 0x0124
/-- Event RESOURCE_ASSIGNED (ch. 14). -/
def Ev.RESOURCE_ASSIGNED : Nat := 0x0125
/-- Status SUCCESS (ch. 15). -/
def St.SUCCESS : Nat := 0x0000
/-- Status DEFERRED (ch. 15). -/
def St.DEFERRED : Nat := 0x0001
/-- Status ZERO_LENGTH (ch. 15). -/
def St.ZERO_LENGTH : Nat := 0x0002
/-- Status OVERLAP (ch. 15). -/
def St.OVERLAP : Nat := 0x0003
/-- Status BEAT_ERROR (ch. 15). -/
def St.BEAT_ERROR : Nat := 0x0004
/-- Status POOL_EMPTY (ch. 15). -/
def St.POOL_EMPTY : Nat := 0x0005
/-- Status NO_CREDIT (ch. 15). -/
def St.NO_CREDIT : Nat := 0x0006
/-- Status NOT_OWNER (ch. 15). -/
def St.NOT_OWNER : Nat := 0x0007
/-- Status BAD_OPCODE (ch. 15). -/
def St.BAD_OPCODE : Nat := 0x0008
/-- Status MASK_INVALID (ch. 15). -/
def St.MASK_INVALID : Nat := 0x0009
/-- Status QUEUE_INVALID (ch. 15). -/
def St.QUEUE_INVALID : Nat := 0x0201
/-- Status QUEUE_BUSY (ch. 15). -/
def St.QUEUE_BUSY : Nat := 0x0202
/-- Status QUOTA_FULL (ch. 15). -/
def St.QUOTA_FULL : Nat := 0x0203
/-- Status QUEUE_FAILED (ch. 15). -/
def St.QUEUE_FAILED : Nat := 0x0204
/-- Status INJECT_INVALID (ch. 15). -/
def St.INJECT_INVALID : Nat := 0x0205
/-- Event QUEUE_ERROR (ch. 15). -/
def Ev.QUEUE_ERROR : Nat := 0x0220
/-- Status POOL_INVALID (ch. 16). -/
def St.POOL_INVALID : Nat := 0x0301
/-- Status PEG_BUSY (ch. 16). -/
def St.PEG_BUSY : Nat := 0x0302
/-- Status PEG_RANGE (ch. 16). -/
def St.PEG_RANGE : Nat := 0x0303
/-- Status PEG_ACCOUNT (ch. 16). -/
def St.PEG_ACCOUNT : Nat := 0x0304
/-- Status PEG_OFFLINE (ch. 16). -/
def St.PEG_OFFLINE : Nat := 0x0305
/-- Status RESERVE_LIMIT (ch. 16). -/
def St.RESERVE_LIMIT : Nat := 0x0306
/-- Event POOL_CORRUPT (ch. 16). -/
def Ev.POOL_CORRUPT : Nat := 0x0320
/-- Event POOL_AUDIT (ch. 16). -/
def Ev.POOL_AUDIT : Nat := 0x0321
/-- Event POOL_MISMATCH (ch. 16). -/
def Ev.POOL_MISMATCH : Nat := 0x0322
/-- Status PURLIN_INVALID (ch. 17). -/
def St.PURLIN_INVALID : Nat := 0x0401
/-- Status LENGTH_MISMATCH (ch. 17). -/
def St.LENGTH_MISMATCH : Nat := 0x0402
/-- Status ACCESS_DENIED (ch. 17). -/
def St.ACCESS_DENIED : Nat := 0x0403
/-- Status TRANSFER_ERROR (ch. 17). -/
def St.TRANSFER_ERROR : Nat := 0x0404
/-- Status PURLIN_OFFLINE (ch. 17). -/
def St.PURLIN_OFFLINE : Nat := 0x0405
/-- Status DESC_NOT_OWNED (ch. 17). -/
def St.DESC_NOT_OWNED : Nat := 0x0406
/-- Status CANCELLED (ch. 17). -/
def St.CANCELLED : Nat := 0x0407
/-- Status PURLIN_STATE (ch. 17). -/
def St.PURLIN_STATE : Nat := 0x0408
/-- Status PURLIN_BUSY (ch. 17). -/
def St.PURLIN_BUSY : Nat := 0x0409
/-- Event CHANNEL_HALTED (ch. 17). -/
def Ev.CHANNEL_HALTED : Nat := 0x0420
/-- Event LATE_ERROR (ch. 17). -/
def Ev.LATE_ERROR : Nat := 0x0421
/-- Status DMC_INVALID (ch. 18). -/
def St.DMC_INVALID : Nat := 0x0F01
/-- Status DMC_BUSY (ch. 18). -/
def St.DMC_BUSY : Nat := 0x0F02
/-- Event STACK_STATE (ch. 18). -/
def Ev.STACK_STATE : Nat := 0x0F20
/-- Event FREQ_CHANGED (ch. 18). -/
def Ev.FREQ_CHANGED : Nat := 0x0F21
/-- Event URGENT_REFRESH (ch. 18). -/
def Ev.URGENT_REFRESH : Nat := 0x0F22
/-- Event TARGET_MISSED (ch. 18). -/
def Ev.TARGET_MISSED : Nat := 0x0F23
/-- Event CRC_RETRY_FAILED (ch. 18). -/
def Ev.CRC_RETRY_FAILED : Nat := 0x0F24
/-- Event ECC_UNCORRECTABLE (ch. 18). -/
def Ev.ECC_UNCORRECTABLE : Nat := 0x0F25
/-- Status MINT_INVALID (ch. 19). -/
def St.MINT_INVALID : Nat := 0x1001
/-- Event MINT_STATE (ch. 19). -/
def Ev.MINT_STATE : Nat := 0x1020
/-- Event SENSOR_FAULT (ch. 19). -/
def Ev.SENSOR_FAULT : Nat := 0x1021
/-- Event CLOCK_CHANGED (ch. 19). -/
def Ev.CLOCK_CHANGED : Nat := 0x1022
/-- Status GAUGE_INVALID (ch. 20). -/
def St.GAUGE_INVALID : Nat := 0x1101
/-- Status SCRIBE_INVALID (ch. 20). -/
def St.SCRIBE_INVALID : Nat := 0x1201
/-- Status SCRIBE_STALE (ch. 20). -/
def St.SCRIBE_STALE : Nat := 0x1202
/-- Event LOG_FULL (ch. 20). -/
def Ev.LOG_FULL : Nat := 0x1220
/-- Status SAFE_STATE (ch. 21). -/
def St.SAFE_STATE : Nat := 0x0010
/-- Event SAFE_ENTERED (ch. 21). -/
def Ev.SAFE_ENTERED : Nat := 0x0020
/-- Status SEC_STATE (ch. 21). -/
def St.SEC_STATE : Nat := 0x1301
/-- Status SIG_INVALID (ch. 21). -/
def St.SIG_INVALID : Nat := 0x1302
/-- Status NONCE_EXPIRED (ch. 21). -/
def St.NONCE_EXPIRED : Nat := 0x1303
/-- Status SEC_LOCKOUT (ch. 21). -/
def St.SEC_LOCKOUT : Nat := 0x1304
/-- Event LIFECYCLE_LOCKED (ch. 21). -/
def Ev.LIFECYCLE_LOCKED : Nat := 0x1320
/-- Event DEBUG_REOPENED (ch. 21). -/
def Ev.DEBUG_REOPENED : Nat := 0x1321
/-- Event DEBUG_FAILED (ch. 21). -/
def Ev.DEBUG_FAILED : Nat := 0x1322
/-- Event FW_REJECTED (ch. 21). -/
def Ev.FW_REJECTED : Nat := 0x1420
/-- Status NOT_READY (ch. 22). -/
def St.NOT_READY : Nat := 0x1401
/-- Event DEV_STATE (ch. 22). -/
def Ev.DEV_STATE : Nat := 0x1421

end Sys2Proof.Machine
end

