-- ==== Sys2Proof/Config.lean ====
section
/-!
DEFINITION. What an implementation fixes and the spec leaves open: opaque constants with no body.
-/
namespace Sys2Proof.Config

/-- A value the spec leaves open, of any width, read at a counter of the state (log entry 4). -/
opaque freeValue : (w : Nat) → Nat → BitVec w

/-- The SHA-384 digest of a byte string, as 48 bytes (R615, R617; log entry 5). -/
opaque sha384 : List Byte → List Byte

/-- Whether an ECDSA P-384 signature (r then s, 48 bytes each) verifies under an uncompressed public key over a
SHA-384 digest (R615, R617; log entry 5). -/
opaque ecdsaVerify : (key : List Byte) → (digest : List Byte) → (sig : List Byte) → Bool

/-- The fused VDD_CORE target for a core clock (true for 1.2 GHz) and a junction temperature in 1/16 °C, as a number of
5 mV steps above 650 mV (R622, R655; log entry 32). -/
opaque avsTarget : Bool → Int → Nat

/-- Whether a quotient of the time counter's arithmetic that is not whole is rounded up: `a / b` (R355; log entry 30). -/
opaque roundsUp : (a : Int) → (b : Nat) → Bool

/-- Tw_sys_tx, in ns, that the EEE clause of a mode gives (R51; log entry 201). -/
opaque twSysTx : Nat → Nat

/-- A byte of stacked DRAM that a reset of the device has left undefined, by its key (R628; log entry 8). -/
opaque dramAfterReset : Nat → Byte

end Sys2Proof.Config
end

