-- ==== Sys2Proof/Machine/State.lean ====
section
/-!
DEFINITION. The machine's state: every register, memory, queue, mode and pin the spec gives the block, as plain data.
A structure's default field values are its reset values.
-/
namespace Sys2Proof.Machine

/-! ### Host links, functions and queues (ch. 14, 15) -/

/-- A host link beside its registers in HIF (R406, R423). -/
structure LinkSt where
  /-- Up since its first entry into L0 after training (R406). -/
  up : Bool := false
  /-- Data Link Layer active: the link counts its time outside L0 (R423). -/
  dlActive : Bool := false
  /-- PERST_N of the link is low (R625). -/
  perst : Bool := true
  /-- Training started by a released PERST_N (R636). -/
  training : Bool := false
  /-- ASPM L1 is enabled, and the link is in L1 (R407, R420). -/
  aspm : Bool := false
  l1 : Bool := false
  /-- Completion timers held while the link is outside L0 (R425): function, kind and tag of each request. -/
  heldTimers : List (Nat × ReqKind × Nat) := []
  deriving DecidableEq, Repr

/-- What PCIe configuration sets in a function (R407, R408, R411, R420, R424). -/
structure FnSt where
  /-- Memory Space Enable (R408). -/
  mse : Bool := false
  /-- Bus Master Enable (R420). -/
  bme : Bool := false
  /-- MSI-X Enable (R420). -/
  msixEn : Bool := false
  /-- MSI-X Function Mask (R420). -/
  fnMask : Bool := false
  /-- VF Enable of a PF (R411). -/
  vfEn : Bool := false
  /-- Completion timeout value of Device Control 2 (R424). -/
  cto : Nat := 0
  /-- Completion Timeout Disable (R424). -/
  ctoDis : Bool := false
  /-- Max Payload Size and Max Read Request Size as Device Control codes them (R407). -/
  mps : Nat := 0
  mrrs : Nat := 2
  /-- Words of the BARs and, of a PF, of the VF BARs of its SR-IOV capability, as written (R413). -/
  bars : Tab Nat := []
  vfBars : Tab Nat := []
  /-- A reset in progress and its cause (R412): 0 FLR, 1 hot reset, 2 link down, 3 parent PF. -/
  resetting : Option Nat := none
  /-- Run-time queue quota (R427), for a function whose quota has been set. -/
  quota : Option Nat := none
  deriving DecidableEq, Repr

/-- State of a queue (R460), coded as ADMIN_STATUS `STATE` codes it. -/
inductive QState where
  | absent | active | error | stopping
  deriving DecidableEq, Repr

/-- Types of queue (R434). -/
inductive QType where
  | admin | inject | punt | update | search | dma | event | completion
  deriving DecidableEq, Repr

/-- One queue, run-time or admin (R434 to R470). -/
structure Queue where
  st : QState := .absent
  /-- ERR_CAUSE (R461); 5 for a refused admin set-up (R465). -/
  cause : Nat := 0
  typ : QType := .admin
  fn : Nat := 0
  /-- Index within the function (R435). -/
  idx : Nat := 0
  base : Nat := 0
  size : Nat := 0
  /-- Device head of a submission ring, or the last head doorbell of a device-written one (R438, R443). -/
  head : Nat := 0
  /-- Last tail doorbell of a submission ring, or the device tail of a device-written one. -/
  tail : Nat := 0
  /-- PHASE that the next completion write carries (R446). -/
  phase : Bool := true
  /-- Bound or notify completion queue index, as created (R468). -/
  cq : Nat := 0
  /-- CREDIT_MIN as created (R449), or CLASS_MASK of a PUNT queue. -/
  creditMin : Nat := 0
  /-- TC of an INJECT queue, CHANNEL of a DMA queue (R468). -/
  tc : Nat := 0
  /-- Peg pool of a PUNT queue (R468). -/
  pool : Nat := 0
  /-- Write-back block of a PUNT or EVENT queue (R453). -/
  wb : Nat := 0
  /-- Entries written and not released (R449). -/
  written : Nat := 0
  /-- Records lost since creation (R453). -/
  lost : Nat := 0
  coalUs : Nat := 0
  coalCount : Nat := 0
  /-- Entries written since the last assertion of the vector (R452). -/
  unsig : Nat := 0
  /-- Jobs fetched whose completion is not yet written, oldest first: the credits held (R449). -/
  jobs : List Job := []
  /-- Sequence number of the next fetched job: the model's name for a job. -/
  nextSeq : Nat := 0
  /-- QUEUE_DESTROY jobs that wait for this queue to become ABSENT (R460, R469). -/
  destroyers : List Job := []
  /-- A Peg buffer drawn for the next frame of a PUNT queue (R677), and the frame whose write has begun: its egress
  queue and order. -/
  drawn : Option Nat := none
  punting : Option (Nat × Nat) := none
  /-- The queue has work and waits for a credit (R449). -/
  paused : Bool := false
  /-- Admin queue: base, size, released index and tail of its completion ring (R464). -/
  cbase : Nat := 0
  csize : Nat := 0
  chead : Nat := 0
  ctail : Nat := 0
  deriving DecidableEq, Repr

/-- A completion reported to QMGR and not yet written (R445, R451). -/
structure Compl where
  q : Nat := 0
  seq : Nat := 0
  tag : Nat := 0
  status : Nat := 0
  /-- Bytes 8 to 14. -/
  result : List Byte := []
  sqHead : Nat := 0
  intr : Bool := false
  deriving DecidableEq, Repr

/-- A notice that has not been written yet (R450): the submission queue that entered ERROR and its completion queue, by global
number, the cause and the submission head. -/
structure Notice where
  q : Nat
  cq : Nat
  cause : Nat
  head : Nat
  deriving DecidableEq, Repr

/-- HIF and QMGR beside their registers. -/
structure HostIf where
  links : Tab LinkSt := []
  fns : Tab FnSt := []
  queues : Tab Queue := []
  /-- Completions reported and not written, oldest first (R451). -/
  done : List Compl := []
  /-- Jobs that their block has taken: queue and sequence number. -/
  started : List (Nat × Nat) := []
  /-- Function whose queue QMGR served last, and each function's index served last (R441). -/
  lastFn : Nat := 0
  lastIdx : Tab Nat := []
  /-- Notices that have not been written, oldest first: they outlast the queue that they report (R450). -/
  notices : List Notice := []
  /-- Read latch of each function and BAR, at key 8f + BAR (R10). -/
  latch : Tab Word32 := []
  /-- Seconds and fraction that a read of NOW_NS latched for function f (R361). -/
  timeLatch : Tab (Nat × Nat) := []
  /-- _LO writes held, at the register's key of the window of the writing function (R10). -/
  heldLo : Tab (Option Word32) := []
  /-- Device vectors asserted, bit d (R419). -/
  devVec : Nat := 0
  /-- Functions whose fault window asserts its interrupt (R604): non-owner functions. -/
  fnIntr : Tab Bool := []
  /-- Device requests whose timer has fired and whose completion has not come (R425): link j's tag t at j * 2^14 + t. -/
  expired : List Nat := []
  /-- Holder of front port n, of meter m, of pool x where it is not the owner function (R427, R428). -/
  portOwner : Tab (Option Nat) := []
  meterOwner : Tab (Option Nat) := []
  poolOwner : Tab (Option Nat) := []
  /-- Gauge page granted to BAR4 slot s of function f, at key 16f + s (R417). -/
  pageSlot : Tab (Option Nat) := []
  deriving DecidableEq, Repr

/-! ### Scribe and Gauge (ch. 20) -/

/-- One Scribe record (R590). -/
structure Rec where
  seq : Nat := 0
  ns : Nat := 0
  sec : Nat := 0
  code : Nat := 0
  source : Nat := 0
  firmware : Bool := false
  rep : Nat := 0
  suppressed : Bool := false
  p0 : Nat := 0
  p1 : Nat := 0
  p2 : Nat := 0
  /-- A word of the record is uncorrectable: it reads with SEQ 0xFFFF_FFFF (R600). -/
  lost : Bool := false
  deriving DecidableEq, Repr

/-- One recorder beside its registers (R591 to R597). -/
structure Recorder where
  /-- Records of the log, newest first. -/
  log : List Rec := []
  /-- Records made this second by rate entry (R594). -/
  rate : Tab Nat := []
  /-- Whether the next record of a rate entry carries SUPPRESSED (R594). -/
  supNext : Tab Bool := []
  /-- The last record as folded since it was posted, the sequence number of the record posted last, and the time of the
  last repost in ns (R597). -/
  folded : Option Rec := none
  posted : Nat := 0
  repostAt : Option Nat := none
  deriving DecidableEq, Repr

/-- One precise-sample mark (R582). -/
structure SampleMark where
  ctr : Nat := 0
  /-- Engine of the marked packet; none while the next dispatch is awaited. -/
  engine : Option Nat := none
  upc : Nat := 0
  waited : Nat := 0
  cond : Nat := 0
  /-- The record names the routine's last word (R583). -/
  atEnd : Bool := true
  deriving DecidableEq, Repr

/-- A dump being written (R586 to R588). -/
structure Dump where
  seq : Nat := 0
  /-- SKIPPED of its header. -/
  skipped : Nat := 0
  /-- Where it goes, and its page mask. -/
  addr : Nat := 0
  mask : Nat := 0
  deriving DecidableEq, Repr

/-- Gauge beside its registers (R573 to R589). -/
structure Gauge where
  /-- Fixed and programmable counters: slot x of page k at key 512k + x (R573). -/
  slots : Tab Nat := []
  /-- The management-clock cycle of the last increments, and what it has added to each slot (R575). -/
  cycle : Nat := 0
  fresh : Tab Nat := []
  /-- The management-clock cycle of the last GAUGE_PC_SET that armed a counter, and the counters armed in it (R581). -/
  armedAt : Option Nat := none
  armedNow : List Nat := []
  /-- Sample records held by a pipeline, oldest first (R582). -/
  samples : Tab (List (List Byte)) := []
  /-- Open marks of a pipeline (R582). -/
  marks : Tab (List SampleMark) := []
  /-- Bytes of the last sub-windows of port n, receive at 2n and transmit at 2n + 1, newest first (R585). -/
  sub : Tab (List Nat) := []
  /-- Bytes counted in the current sub-window. -/
  cur : Tab Nat := []
  /-- Window of port n used by the running sub-windows (R585). -/
  bwUsed : Tab Nat := []
  /-- Periodic dumps: page mask, base, buffers (R586). -/
  dumpMask : Nat := 0
  dumpBase : Nat := 0
  /-- A dump is being written (R588). -/
  dumping : Option Dump := none
  dumpNext : Nat := 1
  skipped : Nat := 0
  deriving DecidableEq, Repr

/-- Scribe beside its registers. -/
structure Scribe where
  recs : Tab Recorder := []
  deriving DecidableEq, Repr

/-! ### Time (ch. 12, 13) -/

/-- The time counter (R355): seconds, nanoseconds, and the 48 bits below: `FRAC` and the 32 that software cannot see. -/
structure Clock where
  sec : Nat := 0
  ns : Nat := 0
  sub : Nat := 0
  /-- Nanoseconds since reset, which no adjustment changes: the model's measure of waits (log entry 2). -/
  up : Nat := 0
  deriving DecidableEq, Repr

/-- An accepted adjustment that waits for the next broadcast (R358, R360). -/
inductive Adj where
  /-- `FREQ_ADJ`. -/
  | rate (v : Int)
  /-- Offset in 1/65,536 ns and rate in ppb. -/
  | slew (off : Int) (ppb : Nat)
  | step (off : Int)
  /-- The time in 1/65,536 ns. -/
  | set (t : Nat)
  /-- Seconds, and `up` at the 1PPS_IN edge in 1/8 ns, less IN_COMP. -/
  | setAtPps (sec : Nat) (edge : Int)
  deriving DecidableEq, Repr

/-- A running slew: offset and remainder in the counter's unit, its rate, and when it began (R359). -/
structure SlewSt where
  off : Int := 0
  left : Int := 0
  ppb : Nat := 0
  start : Nat := 0
  deriving DecidableEq, Repr

/-- A pulse output beside its registers (R371 to R374). -/
structure PulseSt where
  /-- Next pulse, and whether the pulse before it is in progress. -/
  next : Nat := 0
  high : Bool := false
  /-- The first pulse after the last one emitted, or after those that the setting passed over (R373, R374). -/
  first : Nat := 0
  /-- A setting that waits for the trailing edge: its seven words and its first pulse. -/
  later : Option (List Word32 × Nat) := none
  deriving DecidableEq, Repr

/-- A ToD send (R379). -/
structure TodSt where
  job : Job
  bytes : List Byte := []
  sec : Nat := 0
  started : Bool := false
  deriving DecidableEq, Repr

/-- Thyme beside its registers and the counter. -/
structure Thyme where
  /-- Function that set TS_Q of port n (R386). -/
  tsFn : Tab Nat := []
  /-- Capture records lost on queue q since the last delivered one (R368). -/
  lostRun : Tab Nat := []
  /-- Adjustments for the next broadcast, in order of completion (R360). -/
  adj : List Adj := []
  slew : Option SlewSt := none
  /-- What the slew adds over the present broadcast interval (R359). -/
  gain : Int := 0
  /-- The DPLL's offset d as it counts in the present broadcast interval, in 1/1,024 ppb (R36, R357). -/
  offD : Int := 0
  /-- Sum of FREQ_ADJ + s over the cycles of the present second, in 2^-48 of 1/1,024 ppb, and their number (R398). -/
  accSum : Int := 0
  accN : Nat := 0
  pulses : Tab PulseSt := []
  /-- `up` at the last captured edge of input x, 4 being 1PPS_IN (R376). -/
  lastCap : Tab (Option Nat) := []
  /-- Time of the last 1PPS_IN second edge in 1/256 ns, the edges in a row 1 s apart, and an armed SET_AT_PPS (R358, R377). -/
  ppsLast : Option Nat := none
  ppsRun : Nat := 0
  ppsArm : Option Nat := none
  /-- ToD receive FIFO, the open message's start and length, and the send (R379, R380). -/
  todRx : List Byte := []
  todMsg : Option (Nat × Nat) := none
  todTx : Option TodSt := none
  /-- Qualified candidates of the DPLL, and squelched RCLK outputs (R382, R384). -/
  qualified : List Nat := []
  squelched : List Nat := []
  /-- Candidates in their wait to restore, and `up` at the DPLL's last lock (R382, R383). -/
  waits : List Nat := []
  lockedAt : Nat := 0
  /-- End of the last pulse of 1PPS_OUT, in 1/8 ns of the counter (R378). -/
  ppsEnd : Int := 0
  /-- The rate window, newest first: sample and temperature (R398). -/
  window : List (Int × Int) := []
  /-- OSC_TSENSE: good readings in a row, the last ten of them, newest first, each with its time, and the last good T (R398,
  R400). -/
  tsRun : Nat := 0
  tsNow : List (Nat × Int) := []
  tsGood : Option Int := none
  deriving DecidableEq, Repr

/-! ### Device, fuses, security and package (ch. 21, 22, 23) -/

/-- A fused firmware key slot (R615). -/
structure KeySlot where
  /-- SHA-384 of the slot's key; none while the slot is not programmed. -/
  hash : Option (List Byte) := none
  revoked : Bool := false
  deriving DecidableEq, Repr

/-- The fuses (R142, R72, R615 to R618); their blank values are log entry 9. -/
structure Fuses where
  /-- The lock fuse of the debug lifecycle (R616). -/
  locked : Bool := false
  /-- The 16-byte device identifier SEC.UID (R617). -/
  uid : List Byte := List.replicate 16 0
  /-- SHA-384 of the owner's debug key (R617). -/
  ownerHash : List Byte := []
  slots : Tab KeySlot := []
  /-- The anti-rollback floor, a count of blown bits (R615). -/
  floor : Nat := 0
  /-- Seeds by register offset within PIPE[p] (R142, R178). -/
  seeds : Tab Nat := []
  /-- RX_FIXED and TX_FIXED of port n at 2n and 2n + 1 (R72). -/
  fixed : Tab Nat := []
  deriving DecidableEq, Repr

/-- Security state beside SEC.STATUS (R616, R617). -/
structure SecSt where
  /-- The live nonce, 32 bytes. -/
  nonce : Option (List Byte) := none
  /-- Time in ns at which it was issued (R617). -/
  nonceAt : Nat := 0
  deriving DecidableEq, Repr

/-- Mint beside its registers (R549 to R564). -/
structure Mint where
  /-- Sensors and monitors that have failed, monitor r as 64 + r, and a failed sensor's good readings in a row (R551). -/
  failed : List Nat := []
  goodRun : Tab Nat := []
  /-- Sample powers, newest first, at most 16 (R549). -/
  powers : List Nat := []
  /-- Evaluations in a row with p above 1.1 CAP, and with the relaxed p above the relaxed threshold (R552, R553). -/
  overRuns : Nat := 0
  overRelaxed : Nat := 0
  /-- Evaluations in a row that have derived a lower state (R553). -/
  lower : Nat := 0
  /-- The stack step (R563). -/
  stackStep : Nat := 0
  /-- MINT_HOLD jobs that wait for the next evaluation (R568). -/
  holds : List Job := []
  /-- Evaluations made in each state (R578). -/
  evals : Tab Nat := []
  /-- CLOCK_LOW of the action set that the last evaluation wrote (R554, R561). -/
  wantLow : Bool := false
  /-- Time of the last clock switch in ns, and the core cycles counted up to it (R4, R655). -/
  switchedAt : Nat := 0
  ccBase : Nat := 0
  deriving DecidableEq, Repr

/-- Device state beside the GLOBAL and BOOT registers. -/
structure DevSt where
  /-- POR_N is low: device state COLD (R625, R627). -/
  cold : Bool := false
  /-- WARM_RST_N is low (R625). -/
  warmPin : Bool := false
  /-- The device state before the warm reset whose release is awaited (R629, R631). -/
  prior : Nat := 0
  /-- The safe-state line has been distributed (R610 step 2). -/
  safeLine : Bool := false
  /-- Cause of the episode for SAFE_ENTERED: kind, block * 256 + instance, source (R610, R619). -/
  safeKind : Nat := 0
  safeBlock : Nat := 0
  safeSrc : Nat := 0
  /-- Work of BOOTED that has ended (R632): memory initialisation, SerDes calibration, DRAM training. -/
  memInit : Bool := false
  serdes : Bool := false
  dramTrained : Bool := false
  /-- Functions whose ENABLE write of FUSED is held until BOOTED (R637). -/
  heldEnable : List Nat := []
  fuses : Fuses := {}
  /-- The fuse shadow that a warm reset keeps (R627, R628). -/
  sec : SecSt := {}
  /-- REG_ADDR of the SMBus target (R639). -/
  smbAddr : Nat := 0
  /-- SMB_ADDR strap: the target answers at 0x58 + SMB_ADDR (R626, R639). -/
  smbStrap : Nat := 0
  /-- The THERMTRIP latch (R566, R661). -/
  thermtrip : Bool := false
  /-- VDD_CORE setpoint in effect and the one whose acknowledgement is awaited, in mV (R654 to R656). -/
  avs : Nat := 750
  avsPending : Option Nat := none
  /-- Time of the last setpoint write and of the last acknowledgement in ns, whether the last write went unacknowledged,
  and whether a clock change still wants a setpoint (R654 to R656). -/
  avsAt : Option Nat := none
  avsAckAt : Option Nat := none
  avsRetry : Bool := false
  avsClock : Bool := false
  /-- JTAG has halted engine t of pipeline p, at key 64p + t, or service engine v, at 512 + v (R616); of these, the
  engines that may issue one word (single-step). -/
  halted : List Nat := []
  stepping : List Nat := []
  /-- The service control store: the microwords of the running firmware image (R243, R634). -/
  svcStore : List Byte := []
  /-- Lanes that failed SerDes calibration, each by the port of its position (R42, R632). -/
  laneBad : List Nat := []
  /-- Bits of RW1C and ST registers that events have set in one management-clock cycle, by register, and that cycle
  (R13, R602). -/
  freshBits : Tab Nat := []
  freshAt : Nat := 0
  deriving DecidableEq, Repr

/-! ### Peg (ch. 16) -/

/-- A pool beside its registers (R477, R478, R481). -/
structure PoolSt where
  /-- Cached free addresses, most recently freed first. -/
  cache : List Nat := []
  /-- Head of the threaded list and the number of its buffers. -/
  head : Nat := 0xFFFFFFFFFFFFFFFF
  len : Nat := 0
  /-- Head and length of the list an audit has detached (R487). -/
  offHead : Nat := 0xFFFFFFFFFFFFFFFF
  offLen : Nat := 0
  /-- PUNT queues whose request waits, oldest first (R481, R483). -/
  waiting : List Nat := []
  deriving DecidableEq, Repr

/-- The audit that runs (R487): what step 1 marks. -/
structure AuditSt where
  pool : Nat := 0
  job : Job
  held : Nat := 0
  deriving DecidableEq, Repr

/-- Peg beside its registers. -/
structure Peg where
  pools : Tab PoolSt := []
  audit : Option AuditSt := none
  deriving DecidableEq, Repr

/-! ### Purlin (ch. 17) -/

/-- A channel beside its registers (R496, R505, R512). -/
structure ChanSt where
  /-- The running job, and the bytes it has issued. -/
  running : Option Job := none
  issued : Nat := 0
  /-- Source bytes as the running job reads them: the intermediate buffer of R502. -/
  buffer : List Byte := []
  /-- STOP jobs that wait (R512). -/
  stops : List Job := []
  /-- Resumed with jobs held: fetching resumes when they have run (R512). -/
  resuming : Bool := false
  deriving DecidableEq, Repr

/-! ### Stacked DRAM controller (ch. 18) -/

/-- A request at the DMC (R522 to R526). -/
structure DmcReq where
  port : Nat := 0
  addr : Nat := 0
  len : Nat := 64
  write : Bool := false
  /-- Time of arrival and the port's target then, in ns (R522, R545). -/
  arrival : Nat := 0
  target : Nat := 0
  /-- Retries made under R533, and the time of the first CRC error. -/
  tries : Nat := 0
  firstErr : Nat := 0
  /-- A case of R526 other than demand has held the request. -/
  excused : Bool := false
  deriving DecidableEq, Repr

/-- A pseudo-channel beside its register (R524 to R533). -/
structure PCh where
  /-- Queued requests, in arrival order, at most 64. -/
  queue : List DmcReq := []
  /-- Requests that wait in their ports, oldest first (R523). -/
  waiting : List DmcReq := []
  /-- Requests issued and not completed, oldest first. -/
  flight : List DmcReq := []
  /-- Open row of bank b (R524). -/
  rows : Tab (Option Nat) := []
  /-- Urgent refreshes to issue (R528, R529). -/
  urgent : Nat := 0
  /-- The retraining step follows a give-up (R533, R541). -/
  afterGiveUp : Bool := false
  /-- Time at which the pseudo-channel powered down (R531). -/
  pdSince : Nat := 0
  /-- The demand since the pseudo-channel last held no request (R526): when it began, and the bytes requested. -/
  busyFrom : Nat := 0
  demand : Nat := 0
  deriving DecidableEq, Repr

/-- A port's misses of the last second, newest first, each with its time and its wait, and the time of the last TARGET_MISSED
(R548). -/
structure MissSt where
  recent : List (Nat × Nat) := []
  last : Option Nat := none
  deriving DecidableEq, Repr

/-- DMC beside its registers. -/
structure Dmc where
  /-- Pseudo-channel c of stack s, at key 32s + c. -/
  pch : Tab PCh := []
  misses : Tab MissSt := []
  /-- A change of the effective step is not yet recorded (R538): the step before it, its source (0 host, 1 Mint), the
  stacks that must still take it, and the DMC_FREQ_SET jobs that wait. -/
  pendingFreq : Bool := false
  oldStep : Nat := 0
  source : Nat := 0
  changing : List Nat := []
  freqJobs : List Job := []
  /-- Step to which a stack in CHANGING goes. -/
  target : Tab Nat := []
  /-- Next pseudo-channel of a stack's retraining round (R537). -/
  nextPc : Tab Nat := []
  /-- Stacks whose retraining step's results are discarded, as a change fell due in it (R540). -/
  discard : List Nat := []
  /-- Stacks whose retraining round fell due under Mint's deferral and waits, and stacks whose running round no deferral holds
  (R537, R545). -/
  overdue : List Nat := []
  forced : List Nat := []
  /-- Stacks whose sensor has been sampled since reset. -/
  sampled : List Nat := []
  /-- Power-down time of a stack in ns. -/
  pdNs : Tab Nat := []
  deriving DecidableEq, Repr

/-! ### Frames, ports, Ridge, ESCH, meters and Joist (ch. 2, 9, 10, 11) -/

/-- A timestamp in units of 1/256 ns, with its calibrated flag (R71, R74, R362). -/
structure Stamp where
  t : Nat := 0
  cal : Bool := false
  deriving DecidableEq, Repr

/-- What the egress does to a frame's PTP header (R219, R363). -/
structure Ptp where
  act : Nat := 0
  residence : Bool := false
  tag : Nat := 0
  /-- Frame offset of the PTP header and of the UDP header, where they were found. -/
  off : Option Nat := none
  l4 : Option Nat := none
  deriving DecidableEq, Repr

/-- A frame that Ridge holds (R268, R269). -/
structure Frame where
  /-- Frame bytes without FCS: as received, and from END as rewritten. -/
  bytes : List Byte := []
  /-- Frame bytes as received (R293). -/
  recv : List Byte := []
  /-- The last byte has been received. -/
  ended : Bool := false
  /-- Found bad (R290): 1 FCS, 2 aborted, 3 over MAX_FRAME, 4 headroom drop. -/
  bad : Nat := 0
  /-- Ingress port and class of the pass, and the pair charged (R271). -/
  inPort : Nat := 0
  inTc : Nat := 0
  pairPort : Nat := 0
  pairTc : Nat := 0
  /-- Cells held, and from where: 0 the pair, 1 the mirror pool, 2 the deep pool, 3 a frame given over to DRAM. -/
  cells : Nat := 0
  store : Nat := 0
  /-- Those cells, each as 16,384 * bank + index (R268). -/
  held : List Nat := []
  /-- Copies queued, in transmission or kept for link retransmit (R295, R346). -/
  refs : Nat := 0
  /-- END has handed the frame to Ridge (R269). -/
  admitted : Bool := false
  rx : Option Stamp := none
  injected : Bool := false
  /-- Received on the preemptable MAC of a port with active preemption (R288), or on an express port (R289). -/
  preempted : Bool := false
  expressIn : Bool := false
  pass : Nat := 0
  sysport : Nat := 0
  hash : Nat := 0
  user : List Byte := List.replicate 32 0
  outTc : Nat := 0
  ctDis : Bool := false
  code : Nat := 0
  /-- The system port of `DEST`; none for a frame that no routine sent (R341). -/
  dest : Option Nat := none
  ptp : Ptp := {}
  /-- Samplers that END offered the frame to (R292). -/
  mirrors : List Nat := []
  /-- Rx and Tenon offers have been counted. -/
  offered : Bool := false
  /-- The length, without FCS, that a frame still being received will have. -/
  total : Nat := 0
  /-- The frame whose cells this one shares: a multicast copy sent to a recirculation port (R271, R295). -/
  parent : Option Nat := none
  /-- Frame bytes below 192 that had not arrived at END: index as received, and place in `bytes` (R217). -/
  missing : List (Nat × Nat) := []
  /-- END has rewritten the frame (R216). -/
  rewritten : Bool := false
  /-- Its length as received, once its reception has ended, however it ended (R229). -/
  rxLen : Option Nat := none
  deriving DecidableEq, Repr

/-- A frame's place on an egress queue. -/
structure Copy where
  frame : Nat := 0
  /-- Order of admission, and the time of it in ns (R287, R297). -/
  order : Nat := 0
  time : Nat := 0
  /-- Multicast group, and the member's COPY_ID (R295, R303). -/
  group : Option Nat := none
  copyId : Nat := 0
  /-- HOLD_US of the group at the frame's admission (R295, R297). -/
  holdUs : Nat := 0
  sample : Bool := false
  /-- Launch instant, in 1/256 ns of the time counter (R324). -/
  launch : Option Nat := none
  /-- The launch instant has arrived (R324). -/
  due : Bool := false
  /-- The frame cuts through (R288, R289). -/
  cut : Bool := false
  deriving DecidableEq, Repr

/-- The frames of an egress queue, and its deep fields (R282 to R286, R301). -/
structure EgQ where
  head : List Copy := []
  /-- The DRAM part, oldest first; true once the DMC has confirmed the write. -/
  dram : List (Copy × Bool) := []
  tail : List Copy := []
  /-- Multicast copies and mirror samples. -/
  mc : List Copy := []
  deep : Bool := false
  stack : Nat := 0
  spillOn : Nat := 0
  refill : Nat := 0
  limit : Nat := 0
  /-- Time at which the queue stalled (R285). -/
  stalled : Option Nat := none
  deriving DecidableEq, Repr

/-- A multicast group (R295). -/
structure McGroup where
  /-- Port and COPY_ID of each member. -/
  members : List (Nat × Nat) := []
  holdUs : Nat := 1000
  prune : Bool := false
  deriving DecidableEq, Repr

/-- A storm of a port and class: frames dropped in it (R280, R281). -/
structure Storm where
  dropped : Nat := 0
  deriving DecidableEq, Repr

/-- The free cells of a bank of the cell memory (R268): those freed, the latest first, and those from `fresh` on, which
have never been used. -/
structure Bank where
  freed : List Nat := []
  fresh : Nat := 0
  deriving DecidableEq, Repr

/-- Ridge beside its registers. -/
structure Ridge where
  banks : Tab Bank := []
  /-- The core cycle of the last cell write, the banks written in it, and F at its start (R268, R275). -/
  cellAt : Nat := 0
  wrote : List Nat := []
  cycleF : Int := 497664
  /-- The reserve of head cells of each pipeline (R270). -/
  heads : Tab (List Nat) := []
  /-- Cells that have changed state during the running audit (R298). -/
  touched : List Nat := []
  frames : Tab Frame := []
  nextFrame : Nat := 0
  order : Nat := 0
  queues : Tab EgQ := []
  groups : Tab McGroup := []
  /-- Count of sampler i since its last sample (R292). -/
  offers : Tab Nat := []
  storms : Tab Storm := []
  /-- Cells that a failure has lost from the free list, with the pair of each tag, to which they stay charged, and those that
  the last audit found neither free nor in use (R299). -/
  leaked : List (Nat × Nat × Nat) := []
  suspects : List Nat := []
  deriving DecidableEq, Repr

/-- A frame that a MAC is sending (R320, R366). -/
structure Sending where
  q : Nat := 0
  copy : Copy := {}
  /-- Transmit timestamp (R71). -/
  stamp : Stamp := {}
  /-- An express frame has interrupted it (R61). -/
  fragmented : Bool := false
  /-- Link sequence, for a frame under link retransmit (R346), and whether this is a resend (R366). -/
  seq : Option Nat := none
  resend : Bool := false
  deriving DecidableEq, Repr

/-- A gate control list (R65, R66). -/
structure Gcl where
  base : Nat := 0
  cycle : Nat := 0
  ext : Nat := 0
  init : Nat := 0
  /-- GATES, OP and INTERVAL of each entry. -/
  entries : List (Nat × Nat × Nat) := []
  /-- The image as loaded. -/
  image : List Byte := []
  deriving DecidableEq, Repr

/-- A frame being received on one of a port's MACs. -/
structure Receiving where
  frame : Nat := 0
  /-- Discarded: its remaining bytes are not written. -/
  drop : Bool := false
  len : Nat := 0
  /-- Under link retransmit: it enters the pipeline when it has been accepted (R348). -/
  retx : Bool := false
  /-- Learn request that the last byte will issue: key and port (R147). -/
  learn : Option (List Byte × Nat) := none
  /-- Lengths that meters charged for the frame so far (R229). -/
  charges : List Nat := []
  /-- Clones that share the frame's remaining bytes (R230). -/
  also : List Nat := []
  /-- CRC of the bytes so far, the destination address (0 individual, 1 group, 2 broadcast), and whether the frame has
  passed MAX_FRAME. -/
  crc : Word32 := 0xFFFFFFFF#32
  addr : Nat := 0
  long : Bool := false
  /-- EtherType 0x8808, or a link control frame of a domain port (R59, R340): consumed when it ends. -/
  control : Bool := false
  /-- MAX_FRAME, PAUSE_MODE and PFC_RX_EN when the frame began: a command takes effect at the next one (R77). -/
  maxFrame : Nat := 0
  pauseMode : Nat := 0
  pfcEn : Nat := 0
  /-- SEQ of a frame under link retransmit that is discarded as DUP_DEVICE, yet accepted by the link (R338, R348). -/
  dup : Option Nat := none
  deriving DecidableEq, Repr

/-- Settings of a port command for the transmit direction: PORT_PREEMPT_SET, PORT_EEE_SET and PORT_EXPRESS_SET (R77). -/
inductive PortSet where
  | preempt (en dis frag time tc : Nat)
  | eee (en timer tw : Nat)
  | express (on : Nat)
  deriving DecidableEq, Repr

/-- A front port beside its registers (ch. 2). -/
structure PortSt where
  /-- The copy that a decision has chosen, by its queue and its order of admission (R318), and the frame in transmission, on
  the express MAC (0) and the preemptable MAC (1). -/
  chosen : Tab (Option (Nat × Nat)) := []
  sending : Tab (Option Sending) := []
  receiving : Tab (Option Receiving) := []
  /-- Priorities held by a received pause, bit j; a PAUSE frame holds every class (R58). -/
  rxPaused : Nat := 0
  rxPauseAll : Bool := false
  /-- Priorities for which XOFF was last sent, and those whose change waits to be sent (R56, R57). -/
  sentXoff : Nat := 0
  changed : Nat := 0
  /-- Priorities whose refresh is due and waits for the MAC (R57). -/
  refresh : Nat := 0
  /-- Wake in progress (R51). -/
  waking : Bool := false
  /-- Verify attempts made (R63). -/
  attempts : Nat := 0
  /-- Operational and pending lists, the pending change time, and the entry that is active (R66, R67). -/
  gcl : Option Gcl := none
  gclStart : Nat := 0
  pending : Option Gcl := none
  change : Nat := 0
  entry : Nat := 0
  gates : Nat := 0xFFFF
  /-- Set-And-Hold-MAC holds the preemptable MAC (R68). -/
  hold : Bool := false
  /-- DISABLE or restart waits for the end of the frame in progress (R48, R77). -/
  restart : Bool := false
  /-- Settings of completed commands that take effect at the next frame boundary of the transmit direction (R77). -/
  later : List PortSet := []
  /-- Pause abilities that the last negotiation resolved: bit 0 to send, bit 1 to honour (R48, R49). -/
  pauseAble : Nat := 0
  /-- Link control frames that wait for the express MAC or for the wake: KIND and SEQ (R347). -/
  links : List (Nat × Nat) := []
  /-- A VAR measurement runs (R72). -/
  measuring : Bool := false
  /-- The partner's ADD_FRAG_SIZE, once verification has learned it (R62). -/
  txFrag : Option Nat := none
  deriving DecidableEq, Repr

/-- A shaper bucket, in 1/256 byte, with the time of its last refill and the part of a unit it has not credited
(R325). -/
structure Bucket where
  tokens : Int := 0
  time : Nat := 0
  frac : Nat := 0
  deriving DecidableEq, Repr

/-- The 32-byte node record (R309), as fields. -/
structure Node where
  parent : Nat := 0
  level : Nat := 0
  cmtFirst : Bool := false
  cirEn : Bool := false
  pirEn : Bool := false
  enable : Bool := false
  express : Bool := false
  heat : Nat := 0
  tc : Nat := 0
  weight : Nat := 1
  adj : Int := 0
  cir : Nat := 0
  pir : Nat := 0
  cbs : Nat := 0
  pbs : Nat := 0
  deriving DecidableEq, Repr

/-- State of a node: its buckets and its deficit (R316, R325). -/
structure NodeSt where
  cb : Bucket := {}
  pb : Bucket := {}
  deficit : Int := 0
  deriving DecidableEq, Repr

/-- ESCH beside its registers.
Nodes are keyed by kind and number: 0 group, 1 subgroup, 2 queue, 3 port, at key kind * 65536 + number. -/
structure Esch where
  nodes : Tab Node := []
  states : Tab NodeSt := []
  /-- The child that holds the turn, by parent, level and kind, and whether it has become ineligible since (R316). -/
  turns : Tab (Option (Nat × Bool)) := []
  /-- Since when a heat class is masked, for its time slot (R578). -/
  maskedAt : Tab (Option Nat) := []
  deriving DecidableEq, Repr

/-- A meter (R328, R331). -/
structure Meter where
  mode : Nat := 0
  aware : Bool := false
  coupled : Bool := false
  adj : Int := 0
  cir : Nat := 0
  pir : Nat := 0
  cbs : Nat := 0
  pbs : Nat := 0
  tc : Bucket := {}
  tp : Bucket := {}
  green : Nat := 0
  yellow : Nat := 0
  red : Nat := 0
  deriving DecidableEq, Repr

/-- A domain port's link retransmit beside its registers (R346 to R349). -/
structure JoistPort where
  /-- Kept frames, oldest first: SEQ, and the frame's copy and queue. -/
  kept : List (Nat × Sending) := []
  /-- Kept frames that wait to be sent again (R349). -/
  resend : List (Nat × Sending) := []
  tries : Nat := 0
  /-- NAK sent and not yet answered (R348). -/
  nakSent : Bool := false
  deriving DecidableEq, Repr

/-- Joist beside its registers. -/
structure Joist where
  /-- Route record of a device: member count and four ports (R343, R352). -/
  routes : Tab (List Nat) := []
  ports : Tab JoistPort := []
  deriving DecidableEq, Repr


/-! ### Pipelines (ch. 1, 3 to 8) -/

/-- A graph load that a pipeline has taken (R98). -/
structure GraphLoad where
  job : Job
  image : List Byte := []
  mask : Nat := 0
  deriving DecidableEq, Repr

/-- An EM lookup that reads buckets in DRAM (R161, R164, R167). -/
structure EmWait where
  /-- Key bytes 0 to 20. -/
  key : List Byte := []
  /-- Number of the lookup, by which a move of R164 waits for it. -/
  id : Nat := 0
  /-- The second bucket is being read. -/
  second : Bool := false
  /-- A write to a bucket was issued after its read: the fill is discarded (R167). -/
  stale : Bool := false
  deriving DecidableEq, Repr

/-- Results of a packet's table lookups (R175). -/
structure Look where
  srcHit : Bool := false
  srcLearn : Bool := false
  srcLocked : Bool := false
  srcPort : Nat := 0
  dstHit : Bool := false
  dstStatic : Bool := false
  dstPort : Nat := 0
  lpmHit : Bool := false
  lpmLen : Nat := 0
  lpmNh : Nat := 0
  lpmOp : Nat := 0
  emHit : Bool := false
  emWhere : Nat := 3
  emOff : Bool := false
  emNh : Nat := 0
  emOp : Nat := 0
  emData : Nat := 0
  nhValid : Bool := false
  nhNested : Bool := false
  nhIndex : Nat := 0
  nhEntry : List Byte := []
  opcode : Nat := 0
  opcodeSrc : Nat := 7
  deriving DecidableEq, Repr

/-- A packet between its entry into Truss and its dispatch (R80 to R175). -/
structure Packet where
  frame : Nat := 0
  /-- Parity and graph bank of the entry cycle (R84, R99). -/
  epoch : Nat := 0
  bank : Nat := 0
  /-- Parse result, 112 bytes (R91). -/
  parse : List Byte := []
  /-- 0 in Truss, 1 its lookups under way, 2 ready for dispatch. -/
  stage : Nat := 0
  /-- Mortise result, 16 bytes (R116), and the table results. -/
  mortise : List Byte := []
  look : Look := {}
  /-- Table profile in use, and the hash of its EM extractors (R137, R173). -/
  profile : Option Nat := none
  ecmp : Nat := 0
  em : Option EmWait := none
  /-- Words 0 and 1 of the table profile, as they stood in the packet's slot (R138). -/
  word0 : Nat := 0
  word1 : Nat := 0
  /-- Key and port of the learn that the packet requests (R147). -/
  learn : Option (List Byte × Nat) := none
  /-- First records designated IPv4 or IPv6, UDP and PTP: start, length, and 1 for IPv6 (R92, R220). -/
  l3 : Option (Nat × Nat × Nat) := none
  l4 : Option (Nat × Nat) := none
  ptp : Option Nat := none
  /-- Time of entry in ns. -/
  entered : Nat := 0
  deriving DecidableEq, Repr

/-! ### Tenon (ch. 7, 8) -/

/-- A request of a routine (R223, R254). -/
inductive ReqOp where
  | lookup (table : Nat) (key : List Byte)
  | meter (m len colour : Nat) (writes : Bool)
  | cells (clone : Nat)
  | stRead (i : Nat)
  | stWrite (i : Nat) (v : Word64)
  | stAdd (i : Nat) (v : Word64)
  | stSwap (i : Nat) (old v : Word64)
  | dRead (addr r : Nat)
  | dWrite (addr r : Nat) (v : Word64)
  /-- A word of a host's span of state memory (R266). -/
  | hostRead (i : Nat) (job : Job)
  | hostWrite (i : Nat) (v : Word64) (job : Job)
  deriving DecidableEq, Repr

/-- A request that has not completed, or that has failed and awaits the word that waits on it (R226, R227). -/
structure Req where
  pipe : Nat := 0
  engine : Nat := 0
  /-- Routine that issued it, and its issue number within its kind (R223). -/
  routine : Nat := 0
  num : Nat := 0
  op : ReqOp := .cells 0
  /-- Destination registers, pending until it completes (R254). -/
  regs : List Nat := []
  /-- Lookups: the packet's parity, whether the slot has been taken, and what it found (R225). -/
  epoch : Nat := 0
  slotted : Bool := false
  found : Option (List Byte) := none
  /-- Number of an EM lookup that reads buckets (R164). -/
  emId : Option Nat := none
  /-- Trap cause and detail of a failed access. -/
  failed : Option (Nat × Nat) := none
  deriving DecidableEq, Repr

/-- A clone under way: its copy of the window and metadata, and its head cells once reserved (R230). -/
structure CloneSt where
  win : Tab (Option Byte) := []
  md : List Byte := []
  cells : Option (List Nat) := none
  deriving DecidableEq, Repr

/-- An engine and the packet that it holds (R209, R214 to R219). -/
structure Engine where
  busy : Bool := false
  frame : Nat := 0
  /-- Number of the routine, for its requests, and of its dispatch, for R213. -/
  routine : Nat := 0
  bank : Nat := 0
  opcode : Nat := 0
  epoch : Nat := 0
  entered : Nat := 0
  learn : Option (List Byte × Nat) := none
  ptp : Option Nat := none
  upc : Nat := 0
  limit : Nat := 0
  /-- General registers by number. -/
  g : Tab Word64 := []
  z : Bool := false
  n : Bool := false
  c : Bool := false
  v : Bool := false
  /-- Window bytes that the routine has written; the others hold frame bytes (R216, R217). -/
  win : Tab (Option Byte) := []
  /-- L at dispatch (R216). -/
  len : Nat := 0
  md : List Byte := []
  /-- Metadata as at dispatch (R221). -/
  md0 : List Byte := []
  result : List Byte := []
  trap : List Byte := []
  /-- Cause of the handler that runs, 0 for none, and cycles of the LIMIT handler (R234). -/
  handler : Nat := 0
  own : Nat := 0
  cycles : Nat := 0
  /-- Condition awaited, since when, and whether the timer has counted down (R222, R255). -/
  wait : Nat := 0
  since : Nat := 0
  timed : Bool := false
  /-- Requests issued by kind (R223). -/
  issued : Tab Nat := []
  clones : List CloneSt := []
  /-- The FRAME_BAD interrupt has been delivered. -/
  badSeen : Bool := false
  /-- Powered down by R236. -/
  parked : Bool := false
  deriving DecidableEq, Repr

/-- A frame that END hands to Ridge, with its destination (R221). -/
structure Hand where
  frame : Nat := 0
  kind : Nat := 0
  dest : Nat := 0
  queue : Option Nat := none
  deriving DecidableEq, Repr

/-- A packet whose routine has ended and that waits for earlier packets of its pair (R213). -/
structure Held where
  routine : Nat := 0
  port : Nat := 0
  tc : Nat := 0
  hands : List Hand := []
  deriving DecidableEq, Repr

/-- Tenon beside its engines: requests in the order issued, and the next routine's number. -/
structure Tenon where
  reqs : List Req := []
  next : Nat := 0
  deriving DecidableEq, Repr

/-- A journal entry: the copy of an identity that is live in the next parity only (fresh), or in the current one
only (R195, R196). -/
structure JEntry where
  table : Nat := 0
  mask : Nat := 0
  ident : List Byte := []
  fresh : Bool := false
  deriving DecidableEq, Repr

/-- What a table write does when it lands. -/
inductive WOp where
  /-- A record at a position. -/
  | put (pos : Nat) (rec : List Byte)
  /-- Copies of an identity with one liveness get another; 0 frees them. -/
  | live (ident : List Byte) (old new : Nat)
  /-- The tail of a wide pair into the staging register, and then the pair (R119). -/
  | stage (rec : List Byte)
  | pair (pos : Nat) (head : List Byte)
  /-- Mortise entry copied with its liveness set (R188, R195). -/
  | copy (src dst v : Nat)
  /-- The slot of an EM write of a key (R167), or of a stash write (R163). -/
  | em (key : List Byte)
  | stash (pos : Nat) (rec : List Byte)
  /-- A slot in which a table shared with another pipeline does not change. -/
  | slot
  /-- Normalisation or undo of a journal entry (R195, R202). -/
  | norm (e : JEntry)
  | undo (e : JEntry)
  /-- Learning entry moved: its copy, and the deletion of the old one in a later slot (R153). -/
  | lcopy (src dst : Nat)
  | ldel (src dst : Nat)
  /-- Ageing: an entry freed, a lock released, MOVES cleared (R151, R156). -/
  | age (pos : Nat)
  | unlock (pos : Nat)
  | still (pos : Nat)
  deriving DecidableEq, Repr

/-- A table write of one pipeline. -/
structure Write where
  table : Nat := 0
  op : WOp := .slot
  /-- The UPDATE job it belongs to. -/
  job : Option Job := none
  deriving DecidableEq, Repr

/-- A write presented to the slot arbiter: its place in the order of presentations, STEAL_GAP as it then stood, and
whether its wait has expired (R23, R190, R206). -/
structure Shown where
  write : Write := {}
  order : Nat := 0
  gap : Nat := 0
  expired : Bool := false
  deriving DecidableEq, Repr

/-- A claimant that has been granted a slot (R23). -/
inductive Grant where
  | packet (frame : Nat)
  /-- The write of the update unit, of the learn arbiter, or a repair of Mortise. -/
  | unit
  | arbiter
  | repair
  deriving DecidableEq, Repr

/-- A request at a learn arbiter (R149). -/
inductive LearnReq where
  /-- A local learn: key and port. -/
  | own (key : List Byte) (port : Nat)
  /-- A notice: key, port and the pipeline it comes from. -/
  | notice (key : List Byte) (port origin : Nat)
  /-- A write of the ageing sweep to a position that holds a key. -/
  | sweep (key : List Byte) (op : WOp)
  /-- A host's update of the table. -/
  | host (job : Job)
  deriving DecidableEq, Repr

/-- A way of a front cache (R166); no copy marks a negative entry. DESIGN CHOICE (log entry 233): the two copies of a key
that a batch changes share one way. -/
structure CacheWay where
  key : List Byte := []
  copies : List (List Byte) := []
  pinned : Bool := false
  /-- Order of its last hit. -/
  used : Nat := 0
  deriving DecidableEq, Repr

/-- A host search that waits for its slot, or for its result to be delivered (R128 to R132). -/
structure Search where
  job : Job
  /-- It has taken its slot: it counts as work in flight (R200). -/
  served : Bool := false
  status : Nat := 0
  result : List Byte := []
  epoch : Nat := 0
  deriving DecidableEq, Repr

/-- A pipeline beside its registers. -/
structure Pipe where
  /-- Frames that wait for a search slot, oldest first (R23). -/
  waiting : List Nat := []
  /-- Slots granted in the cycle and not yet used. -/
  granted : List Grant := []
  /-- Graph images of bank 0 and bank 1; none where a bank holds no graph (R98). -/
  graph0 : List Byte := []
  graph1 : List Byte := []
  load : Option GraphLoad := none
  /-- Packets between entry and dispatch, in entry order. -/
  packets : List Packet := []
  /-- Mortise: array and shadow by entry index, entries with a bad shadow, the staging register (R108, R119, R122,
  R125). -/
  array : Tab (List Byte) := []
  shadow : Tab (List Byte) := []
  badShadow : List Nat := []
  staging : List Byte := []
  /-- Entries whose repair waits for a slot, with its cause (R125, R126). -/
  repairs : List (Nat × Nat) := []
  /-- Entries that the scrubber skipped, the main run of the pass has ended, a period ended during it (R123, R124). -/
  skipped : List Nat := []
  scrubTail : Bool := false
  scrubLate : Bool := false
  /-- Searches that wait, results to deliver, and the queue served last (R132). -/
  searches : List Search := []
  results : List Search := []
  lastSearch : Nat := 0
  /-- Learning table by position: 65,536w + i in sub-table w, 262,144 + k in the stash (R145). -/
  learn : Tab (List Byte) := []
  /-- Requests at the learn arbiter, oldest first, and its writes under way (R149). -/
  arbQ : List LearnReq := []
  arbWrites : List Write := []
  arbShown : Option Shown := none
  /-- Refresh notices received, and learn-notice records to post with their tenant (R155, R156). -/
  refreshes : List (List Byte) := []
  posts : List (Nat × List Byte) := []
  /-- Ageing tick count (R146), and the ticks for which the deferred sweep may still pause (R157). -/
  tick : Nat := 0
  agePaused : Nat := 0
  /-- Learns lost since the last LEARN_FULL (R179). -/
  learnsLost : Nat := 0
  /-- EM stash copy and front cache by set (R163, R166). -/
  emStash : Tab (List Byte) := []
  cache : Tab (List CacheWay) := []
  cacheUse : Nat := 0
  /-- Routes of the pair, held in its even pipeline (R170). -/
  lpm : Tab (List Byte) := []
  /-- Next-hop table (R172). -/
  nexthop : Tab (List Byte) := []
  /-- Update unit: writes to come, the one presented, rank 1 withheld (R190, R191), writes presented so far, and the
  UPDATE queue served last (R187). -/
  unit : List Write := []
  shown : Option Shown := none
  gap : Bool := false
  shows : Nat := 0
  lastUpd : Nat := 0
  /-- Normalisation writes to come (R195). -/
  norm : List JEntry := []
  /-- Time of the parity flip of the running drain, and whether DRAIN_SLOW has been recorded (R199, R201). -/
  flipped : Option Nat := none
  warned : Bool := false
  /-- Tenon: engines by number, packets that wait to be handed over, the count of dispatched packets (R213, R219). -/
  engines : Tab Engine := []
  held : List Held := []
  pktId : Nat := 0
  /-- Engines that Mint wants parked (R236). -/
  parkGoal : Nat := 0
  /-- Control-store images of bank 0 and bank 1, and a load under way (R238, R239). -/
  store0 : List Byte := []
  store1 : List Byte := []
  storeLoad : Option GraphLoad := none
  /-- State memory by word (R226). -/
  stateMem : Tab Word64 := []
  deriving DecidableEq, Repr

/-- A step of an EM update: one bucket or stash write, and its slots in the eight pipelines (R163, R164, R167). -/
inductive EmStep where
  /-- An entry written at a position. -/
  | put (pos : Nat) (rec : List Byte)
  /-- Copies of a key with one liveness get another. -/
  | live (key : List Byte) (old new : Nat)
  /-- Step 1 of R164, and its step 3, which waits for earlier lookups. -/
  | move (src dst : Nat)
  | moved (src dst : Nat)
  /-- SPILL_CNT of a key's first bucket raised for it; SPILL_CNT of a bucket lowered. -/
  | raise (key : List Byte)
  | lower (bucket : Nat)
  /-- The update's last write has landed: its job completes. -/
  | done (job : Job)
  /-- Stash entries are placed in a bucket that gained a free slot (R165). -/
  | place (bucket : Nat)
  deriving DecidableEq, Repr

/-- The EM table beside its buckets, which stacked DRAM holds (R158, R519). -/
structure Em where
  steps : List EmStep := []
  /-- Lookups that a move waits for, once its first write has landed (R164). -/
  waitFor : Option (List Nat) := none
  nextLookup : Nat := 0
  /-- Entries in use by tenant, and the pinned keys (R166, R174). -/
  used : Tab Nat := []
  pinned : List (List Byte) := []
  /-- Journal entries whose copies in buckets have been normalised, while stash copies have not (R195, R197). -/
  normed : List JEntry := []
  deriving DecidableEq, Repr

/-- An epoch batch (R194 to R198). -/
structure Batch where
  num : Nat := 0
  fn : Nat := 0
  mask : Nat := 0
  /-- 1 OPEN, 2 COMMITTING, 3 DRAINING, 4 ABORTING. -/
  st : Nat := 1
  journal : List JEntry := []
  /-- It holds EM updates (R204). -/
  em : Bool := false
  /-- The BATCH_COMMIT or BATCH_ABORT that waits, the cause of an abort (R208), and whether its undo writes have been
  given (R202). -/
  job : Option Job := none
  cause : Nat := 0
  undoing : Bool := false
  deriving DecidableEq, Repr

/-- Epoch batches of the device. -/
structure Upd where
  batches : List Batch := []
  next : Nat := 1
  deriving DecidableEq, Repr


/-! ### The machine -/

/-- What the device emits, newest first in `State.out` (log entry 3). -/
inductive Output where
  /-- An MSI-X message of entry i of function f (R418). -/
  | msix (f i : Nat)
  /-- The answer to a read of a BAR: function, BAR, offset and data (R9). -/
  | readData (f bar off : Nat) (v : BitVec 64)
  /-- The answers to a read and to a write of configuration space (R408). -/
  | config (f : Nat) (v : Nat)
  | configDone (f : Nat)
  /-- Unsupported Request (R408). -/
  | unsupported (f : Nat)
  /-- A frame starts on port n, with its bytes from destination address to FCS. -/
  | frame (n : Nat) (bytes : List Byte)
  /-- The abilities that port n advertises in auto-negotiation: its one mode, and PAUSE_MODE (R49). -/
  | advert (n mode pause : Nat)
  /-- A MAC Control frame, or a joist control frame, starts on port n. -/
  | control (n : Nat) (bytes : List Byte)
  /-- A pin or pulse output changes: its name's code and value (ch. 12, 23). -/
  | pin (name : Nat) (v : Nat)
  /-- An edge of TOUT0 to TOUT7, or 1PPS_OUT (8), to a level, and its instant at the ball in 1/8 ns (R372, R378). -/
  | edge (name v : Nat) (at8 : Int)
  /-- A VDD_CORE setpoint written over AVSBus, in mV (R654). -/
  | avs (mv : Nat)
  /-- Bytes start on TOD_TX (R379). -/
  | tod (bytes : List Byte)
  /-- Bytes returned over SMBus (R639). -/
  | smbus (bytes : List Byte)
  /-- An answer over JTAG (R616). -/
  | jtag (bytes : List Byte)
  /-- AER reports a Completion Timeout of function f (R425). -/
  | aer (f : Nat)
  deriving DecidableEq, Repr

/-- Why a run stops.
No meaning raises it: every detected error of this hardware has an effect the spec gives (log entry 6).
Safe: it is a stop the hardware does not make. -/
inductive Fault where
  /-- Never raised. -/
  | none
  deriving DecidableEq, Repr

/-- Why a command has no meaning. -/
inductive Refusal where
  /-- Raised by an arm of exec that has no meaning yet. Safe: the run stops where the hardware goes on. -/
  | notModelled (mnemonic : String)
  deriving DecidableEq, Repr

/-- The whole machine. -/
structure State where
  /-- Commands waiting, oldest first: the model's own field, asked of a block. -/
  pending : List Instr := []
  /-- Registers at their window's address, where they differ from their reset word (R19). -/
  regs : Tab Word32 := []
  host : HostIf := {}
  scribe : Scribe := {}
  gauge : Gauge := {}
  clock : Clock := {}
  dev : DevSt := {}
  mint : Mint := {}
  peg : Peg := {}
  chans : Tab ChanSt := []
  dmc : Dmc := {}
  thyme : Thyme := {}
  ridge : Ridge := {}
  ports : Tab PortSt := []
  esch : Esch := {}
  meters : Tab Meter := []
  joist : Joist := {}
  pipes : Tab Pipe := []
  tenon : Tenon := {}
  em : Em := {}
  upd : Upd := {}
  /-- Host memories, link j's byte at address a under key j * 2^64 + a. -/
  hostMem : List Host.Cell := []
  /-- Stacked DRAM (R515), by device address, above 2^66 for every reset since State.reset. -/
  dram : List Host.Cell := []
  /-- Emitted outputs, newest first: the model's own field (log entry 3). -/
  out : List Output := []
  /-- The counter at which free values are read: the model's own field (log entry 4). -/
  freeCtr : Nat := 0
  /-- Resets of the device, each of which leaves stacked DRAM undefined (R628): the model's own field (log entry 8). -/
  wipes : Nat := 0
  deriving DecidableEq, Repr

/-- The machine right after a cold reset with every strap 0: POR_N has risen, and the device has entered FUSED (R12,
R625 to R640; log entries 7, 8, 9 and 11).
The registers listed are those that report the straps (link 0 present and owner, its 252 VFs, and the bases of the
absent PFs: R406, R410), the held message of device vector 39, the recorder's DEV_STATE record and PHASE 1 (R631). -/
def State.reset : State :=
  { regs := [(0x10100, 0x80000000#32), (0x10108, 0x000400FC#32), (0x10118, 0x01000000#32),
             (0x10128, 0x01000000#32), (0x10138, 0x01000000#32), (0x17044, 0x80#32), (0x820000, 1#32),
             (0x820008, 2#32), (0x850000, 0x20000000#32)],
    scribe := { recs := [(0, { log := [{ seq := 1, code := 0x1421, p1 := 1 }] })] } }

end Sys2Proof.Machine
end

