-- ==== Sys2Proof/Machine/RegMap.lean ====
section
/-!
DEFINITION. The register map: where each named register field of the spec lies in its window.
One constant for each field of the register tables of spec/00 to spec/23, named BLOCK_REGISTER_FIELD;
an instanced register's constant is its instance 0, and the index's stride is added to the base.
-/
namespace Sys2Proof.Machine

/-- A register field: byte offset of its register in the block's window, most and least significant bit (R7).
A field with `hi` above 31 spans the pair _LO at `off` and _HI at `off + 4` (R10). -/
structure Fld where
  off : Nat
  hi  : Nat
  lo  : Nat
  deriving DecidableEq, Repr

/-- Number of bits of a field. -/
def Fld.width (f : Fld) : Nat := f.hi + 1 - f.lo

/-! ### Window bases (R19, R20) -/

/-- GLOBAL window (R19). -/
def wGlobal : Nat := 0x000000
/-- HIF window (R19). -/
def wHif : Nat := 0x010000
/-- QMGR window (R19). -/
def wQmgr : Nat := 0x020000
/-- PEG window (R19). -/
def wPeg : Nat := 0x030000
/-- PURLIN window (R19). -/
def wPurlin : Nat := 0x040000
/-- PORT[n] window (R19). -/
def wPort (n : Nat) : Nat := 0x100000 + n * 0x1000
/-- PIPE[p] window (R19, R20). -/
def wPipe (p : Nat) : Nat := 0x200000 + p * 0x40000
/-- RIDGE window (R19). -/
def wRidge : Nat := 0x400000
/-- ESCH window (R19). -/
def wEsch : Nat := 0x500000
/-- JOIST window (R19). -/
def wJoist : Nat := 0x600000
/-- THYME window (R19). -/
def wThyme : Nat := 0x610000
/-- DMC[s] window (R19). -/
def wDmc (s : Nat) : Nat := 0x700000 + s * 0x10000
/-- MINT window (R19). -/
def wMint : Nat := 0x800000
/-- GAUGE window (R19). -/
def wGauge : Nat := 0x810000
/-- SCRIBE window (R19). -/
def wScribe : Nat := 0x820000
/-- SEC window (R19). -/
def wSec : Nat := 0x840000
/-- BOOT window (R19). -/
def wBoot : Nat := 0x850000
/-- The register key space of the window of a non-owner function f (R414); keys above BAR0's 16 MiB are the model's. -/
def wFn (f : Nat) : Nat := 0x1000000 * (f + 1)

namespace Reg


/-! Fields of 00_scope.md (R1). -/

def GLOBAL_ID_PART_NUM : Fld := ⟨0x0, 31, 16⟩
def GLOBAL_ID_REV : Fld := ⟨0x0, 15, 8⟩

/-! Fields of 02_ports_and_lanes.md (R75). -/

def PORT_CFG_ENABLE : Fld := ⟨0x0, 31, 31⟩
def PORT_CFG_EXPRESS : Fld := ⟨0x0, 30, 30⟩
def PORT_CFG_DOMAIN : Fld := ⟨0x0, 29, 29⟩
def PORT_CFG_EEE_EN : Fld := ⟨0x0, 28, 28⟩
def PORT_CFG_PREEMPT_EN : Fld := ⟨0x0, 27, 27⟩
def PORT_CFG_PAUSE_MODE : Fld := ⟨0x0, 26, 25⟩
def PORT_CFG_AN_EN : Fld := ⟨0x0, 24, 24⟩
def PORT_CFG_LT_EN : Fld := ⟨0x0, 23, 23⟩
def PORT_CFG_LOOPBACK : Fld := ⟨0x0, 22, 20⟩
def PORT_CFG_FEC : Fld := ⟨0x0, 19, 16⟩
def PORT_CFG_MODE : Fld := ⟨0x0, 15, 8⟩
def PORT_STATUS_LINK_STATE : Fld := ⟨0x4, 31, 29⟩
def PORT_STATUS_CAL_DONE : Fld := ⟨0x4, 28, 28⟩
def PORT_STATUS_FEC_RESOLVED : Fld := ⟨0x4, 27, 24⟩
def PORT_STATUS_VERIFY_STATUS : Fld := ⟨0x4, 23, 21⟩
def PORT_STATUS_PREEMPT_ACTIVE : Fld := ⟨0x4, 20, 20⟩
def PORT_STATUS_LPI_TX : Fld := ⟨0x4, 19, 19⟩
def PORT_STATUS_LPI_RX : Fld := ⟨0x4, 18, 18⟩
def PORT_STATUS_GCL_ACTIVE : Fld := ⟨0x4, 17, 17⟩
def PORT_STATUS_GCL_PENDING : Fld := ⟨0x4, 16, 16⟩
def PORT_STATUS_PFC_RX_PAUSED : Fld := ⟨0x4, 15, 0⟩
def PORT_FRAME_MAX_FRAME : Fld := ⟨0x8, 14, 0⟩
def PORT_MAC_ADDR_LO_MAC_ADDR : Fld := ⟨0xC, 31, 0⟩
def PORT_MAC_ADDR_HI_MAC_ADDR : Fld := ⟨0x10, 15, 0⟩
def PORT_PFC_CFG_PFC_RX_EN : Fld := ⟨0x14, 15, 8⟩
def PORT_PFC_CFG_PFC_TX_EN : Fld := ⟨0x14, 7, 0⟩
def PORT_PFC_QUANTA_QUANTA : Fld := ⟨0x20, 15, 0⟩
def PORT_PREEMPT_EXPRESS_TC : Fld := ⟨0x40, 31, 16⟩
def PORT_PREEMPT_VERIFY_DIS : Fld := ⟨0x40, 8, 8⟩
def PORT_PREEMPT_VERIFY_TIME : Fld := ⟨0x40, 7, 0⟩
def PORT_EEE_TW_SYS_TX : Fld := ⟨0x44, 31, 16⟩
def PORT_EEE_LPI_TIMER : Fld := ⟨0x44, 15, 0⟩
def PORT_PREEMPT_FRAG_ADD_FRAG_SIZE : Fld := ⟨0x48, 1, 0⟩
def PORT_CAL_DELAY : Fld := ⟨0x80, 31, 0⟩

/-! Fields of 03_truss_parse_graph.md (R103). -/

def PIPE_TRUSS_STATUS_ACTIVE_VALID : Fld := ⟨0x0, 31, 31⟩
def PIPE_TRUSS_STATUS_SHADOW_VALID : Fld := ⟨0x0, 30, 30⟩
def PIPE_TRUSS_STATUS_ACTIVE_BANK : Fld := ⟨0x0, 29, 29⟩
def PIPE_TRUSS_STATUS_DRAINING : Fld := ⟨0x0, 28, 28⟩
def PIPE_TRUSS_STATUS_LOAD_BUSY : Fld := ⟨0x0, 27, 27⟩
def PIPE_TRUSS_STATUS_ACTIVE_GRAPH_ID : Fld := ⟨0x0, 15, 0⟩
def PIPE_TRUSS_SHADOW_SHADOW_GRAPH_ID : Fld := ⟨0x4, 15, 0⟩
def PIPE_TRUSS_DESIG_IPV6_ID : Fld := ⟨0x8, 31, 24⟩
def PIPE_TRUSS_DESIG_IPV4_ID : Fld := ⟨0x8, 23, 16⟩
def PIPE_TRUSS_DESIG_UDP_ID : Fld := ⟨0x8, 15, 8⟩
def PIPE_TRUSS_DESIG_PTP_ID : Fld := ⟨0x8, 7, 0⟩
def PIPE_TRUSS_DESIG2_JOIST_ID : Fld := ⟨0xC, 7, 0⟩
def PIPE_TRUSS_PORT_WINDOW : Fld := ⟨0x100, 12, 8⟩
def PIPE_TRUSS_PORT_ROOT : Fld := ⟨0x100, 7, 0⟩
def PIPE_TRUSS_SLOW_EVENT : Fld := ⟨0x200, 16, 16⟩
def PIPE_TRUSS_SLOW_OPCODE : Fld := ⟨0x200, 15, 8⟩
def PIPE_TRUSS_SLOW_ACTION : Fld := ⟨0x200, 1, 0⟩
def PIPE_TRUSS_NODE_WORD : Fld := ⟨0x1000, 31, 0⟩

/-! Fields of 04_mortise_search.md (R135). -/

def PIPE_MORTISE_STATUS_SCRUB_EN : Fld := ⟨0x10000, 31, 31⟩
def PIPE_MORTISE_STATUS_SCRUB_ACTIVE : Fld := ⟨0x10000, 30, 30⟩
def PIPE_MORTISE_STATUS_SCRUB_DEFERRED : Fld := ⟨0x10000, 29, 29⟩
def PIPE_MORTISE_STATUS_PERIOD_MS : Fld := ⟨0x10000, 15, 0⟩
def PIPE_MORTISE_SCRUB_POS_PASSES : Fld := ⟨0x10004, 31, 16⟩
def PIPE_MORTISE_SCRUB_POS_NEXT_INDEX : Fld := ⟨0x10004, 13, 0⟩
def PIPE_MORTISE_FLOOR_CREDITS : Fld := ⟨0x10008, 4, 0⟩
def PIPE_MORTISE_RANGE_A_WIDE : Fld := ⟨0x10100, 31, 31⟩
def PIPE_MORTISE_RANGE_A_BLOCKS : Fld := ⟨0x10100, 30, 24⟩
def PIPE_MORTISE_RANGE_A_BASE_BLOCK : Fld := ⟨0x10100, 21, 16⟩
def PIPE_MORTISE_RANGE_A_OWNER : Fld := ⟨0x10100, 7, 0⟩
def PIPE_MORTISE_RANGE_B_ERR_OPCODE : Fld := ⟨0x10104, 15, 8⟩
def PIPE_MORTISE_RANGE_B_MISS_OPCODE : Fld := ⟨0x10104, 7, 0⟩
def PIPE_MORTISE_PORT_ENABLE : Fld := ⟨0x10200, 31, 31⟩
def PIPE_MORTISE_PORT_ALT_EN : Fld := ⟨0x10200, 30, 30⟩
def PIPE_MORTISE_PORT_FLAG_BIT : Fld := ⟨0x10200, 20, 16⟩
def PIPE_MORTISE_PORT_ALT_PROFILE : Fld := ⟨0x10200, 11, 8⟩
def PIPE_MORTISE_PORT_PROFILE : Fld := ⟨0x10200, 3, 0⟩
def PIPE_MORTISE_PROFILE_VALID : Fld := ⟨0x11000, 31, 31⟩
def PIPE_MORTISE_PROFILE_RANGE : Fld := ⟨0x11000, 3, 0⟩
def PIPE_MORTISE_PROFILE_OFFSET : Fld := ⟨0x11000, 24, 16⟩
def PIPE_MORTISE_PROFILE_HDR_ID : Fld := ⟨0x11000, 15, 8⟩
def PIPE_MORTISE_PROFILE_INSTANCE : Fld := ⟨0x11000, 3, 2⟩
def PIPE_MORTISE_PROFILE_SRC : Fld := ⟨0x11000, 1, 0⟩

/-! Fields of 05_forwarding_tables.md (R178). -/

def PIPE_TBL_STATUS_EM_OFFLINE : Fld := ⟨0x20000, 31, 31⟩
def PIPE_TBL_STATUS_LEARN_STASH_USED : Fld := ⟨0x20000, 19, 16⟩
def PIPE_TBL_STATUS_EM_STASH_USED : Fld := ⟨0x20000, 12, 0⟩
def PIPE_LEARN_COUNT_ENTRIES : Fld := ⟨0x20004, 18, 0⟩
def PIPE_EM_PINNED_PINNED : Fld := ⟨0x20008, 16, 0⟩
def PIPE_LEARN_SEED_SEED : Fld := ⟨0x20010, 31, 0⟩
def PIPE_LEARN_CFG_LOCK_TIME : Fld := ⟨0x20030, 22, 8⟩
def PIPE_LEARN_CFG_MOVE_LIMIT : Fld := ⟨0x20030, 7, 0⟩
def PIPE_AGE_CFG_AGE_EN : Fld := ⟨0x20034, 31, 31⟩
def PIPE_AGE_CFG_AGE_LIMIT : Fld := ⟨0x20034, 29, 16⟩
def PIPE_AGE_CFG_SWEEP_TICKS : Fld := ⟨0x20034, 12, 0⟩
def PIPE_AGE_TICK_TICK_MS : Fld := ⟨0x20038, 15, 0⟩
def PIPE_KICK_KICK_LIMIT : Fld := ⟨0x2003C, 4, 0⟩
def PIPE_TBL_PORT_A_ENABLE : Fld := ⟨0x20100, 31, 31⟩
def PIPE_TBL_PORT_A_ALT_EN : Fld := ⟨0x20100, 30, 30⟩
def PIPE_TBL_PORT_A_LEARN_EN : Fld := ⟨0x20100, 29, 29⟩
def PIPE_TBL_PORT_A_TENANT : Fld := ⟨0x20100, 25, 24⟩
def PIPE_TBL_PORT_A_FLAG_BIT : Fld := ⟨0x20100, 20, 16⟩
def PIPE_TBL_PORT_A_ALT_PROFILE : Fld := ⟨0x20100, 11, 8⟩
def PIPE_TBL_PORT_A_PROFILE : Fld := ⟨0x20100, 3, 0⟩
def PIPE_TBL_PORT_B_DEFAULT_FID : Fld := ⟨0x20104, 29, 16⟩
def PIPE_TBL_PORT_B_VRF : Fld := ⟨0x20104, 11, 0⟩
def PIPE_TENANT_A_EVENT_Q : Fld := ⟨0x20200, 23, 8⟩
def PIPE_TENANT_A_OWNER : Fld := ⟨0x20200, 7, 0⟩
def PIPE_TENANT_B_EM_QUOTA : Fld := ⟨0x20204, 26, 0⟩
def PIPE_TENANT_C_LEARN_QUOTA : Fld := ⟨0x20208, 18, 0⟩

/-! Fields of 06_updates_under_traffic.md (R207). -/

def PIPE_UPD_STATUS_GROUP_STATE : Fld := ⟨0x28000, 31, 29⟩
def PIPE_UPD_STATUS_PARITY : Fld := ⟨0x28000, 28, 28⟩
def PIPE_UPD_STATUS_NORMALISING : Fld := ⟨0x28000, 27, 27⟩
def PIPE_UPD_STATUS_BATCH_FUNC : Fld := ⟨0x28000, 23, 16⟩
def PIPE_UPD_STATUS_BATCH_NUM : Fld := ⟨0x28000, 15, 0⟩
def PIPE_UPD_JOURNAL_NORM_PENDING : Fld := ⟨0x28004, 28, 16⟩
def PIPE_UPD_JOURNAL_JOURNAL_USED : Fld := ⟨0x28004, 12, 0⟩
def PIPE_UPD_CFG_STEAL_GAP : Fld := ⟨0x28008, 23, 16⟩
def PIPE_UPD_CFG_STEAL_WAIT : Fld := ⟨0x28008, 15, 0⟩
def PIPE_UPD_INFLIGHT_INFLIGHT_ODD : Fld := ⟨0x2800C, 31, 16⟩
def PIPE_UPD_INFLIGHT_INFLIGHT_EVEN : Fld := ⟨0x2800C, 15, 0⟩
def PIPE_UPD_DRAIN_DRAIN_WARN_US : Fld := ⟨0x28010, 31, 16⟩
def PIPE_UPD_DRAIN_LAST_DRAIN_NS : Fld := ⟨0x28010, 15, 0⟩

/-! Fields of 07_tenon_engines.md (R246). -/

def PIPE_TENON_STATUS_ACTIVE_VALID : Fld := ⟨0x30000, 31, 31⟩
def PIPE_TENON_STATUS_SHADOW_VALID : Fld := ⟨0x30000, 30, 30⟩
def PIPE_TENON_STATUS_ACTIVE_BANK : Fld := ⟨0x30000, 29, 29⟩
def PIPE_TENON_STATUS_DRAINING : Fld := ⟨0x30000, 28, 28⟩
def PIPE_TENON_STATUS_LOAD_BUSY : Fld := ⟨0x30000, 27, 27⟩
def PIPE_TENON_STATUS_ACTIVE_IMAGE_ID : Fld := ⟨0x30000, 15, 0⟩
def PIPE_TENON_SHADOW_SHADOW_IMAGE_ID : Fld := ⟨0x30004, 15, 0⟩
def PIPE_TENON_CFG_REGION_SIZE : Fld := ⟨0x30008, 26, 16⟩
def PIPE_TENON_CFG_RESERVE : Fld := ⟨0x30008, 4, 0⟩
def PIPE_TENON_REGION_BASE_LO_REGION_BASE : Fld := ⟨0x3000C, 31, 0⟩
def PIPE_TENON_REGION_BASE_HI_REGION_BASE : Fld := ⟨0x30010, 3, 0⟩
def PIPE_TENON_ENGINES_WAITING : Fld := ⟨0x30014, 22, 16⟩
def PIPE_TENON_ENGINES_PARKED : Fld := ⟨0x30014, 14, 8⟩
def PIPE_TENON_ENGINES_BUSY : Fld := ⟨0x30014, 6, 0⟩
def PIPE_TENON_PARKED_LO_PARKED_MAP : Fld := ⟨0x30018, 31, 0⟩
def PIPE_TENON_ENGINE_STATE : Fld := ⟨0x30100, 31, 29⟩
def PIPE_TENON_ENGINE_BANK : Fld := ⟨0x30100, 28, 28⟩
def PIPE_TENON_ENGINE_WAIT_COND : Fld := ⟨0x30100, 26, 24⟩
def PIPE_TENON_ENGINE_UPC : Fld := ⟨0x30100, 13, 0⟩
def PIPE_TENON_DISPATCH_ENTRY_WORD : Fld := ⟨0x31000, 31, 0⟩
def PIPE_TENON_VECTOR_VALID : Fld := ⟨0x31400, 15, 15⟩
def PIPE_TENON_VECTOR_HANDLER : Fld := ⟨0x31400, 13, 0⟩

/-! Fields of 07_tenon_engines.md (R247). -/

def GLOBAL_SVC_STATUS_STATE : Fld := ⟨0x2000, 31, 29⟩
def GLOBAL_SVC_STATUS_DUTY : Fld := ⟨0x2000, 28, 24⟩
def GLOBAL_SVC_STATUS_HEARTBEAT : Fld := ⟨0x2000, 15, 0⟩

/-! Fields of 09_ridge_switch_core.md (R304). -/

def RIDGE_STATUS_AUDIT_ACTIVE : Fld := ⟨0x0, 31, 31⟩
def RIDGE_STATUS_AUDIT_DEFERRED : Fld := ⟨0x0, 30, 30⟩
def RIDGE_STATUS_SPILL_OFF : Fld := ⟨0x0, 29, 29⟩
def RIDGE_STATUS_FREE_CELLS : Fld := ⟨0x0, 19, 0⟩
def RIDGE_SHARED_SHARED_CELLS : Fld := ⟨0x4, 19, 0⟩
def RIDGE_SHARED_FREE_F : Fld := ⟨0x8, 20, 0⟩
def RIDGE_POOLS_DEEP_CELLS : Fld := ⟨0xC, 31, 16⟩
def RIDGE_POOLS_MIRROR_CELLS : Fld := ⟨0xC, 15, 0⟩
def RIDGE_POOL_USE_DEEP_USED : Fld := ⟨0x10, 31, 16⟩
def RIDGE_POOL_USE_MIRROR_USED : Fld := ⟨0x10, 15, 0⟩
def RIDGE_AUDIT_AUDITS : Fld := ⟨0x14, 31, 16⟩
def RIDGE_AUDIT_AUDIT_MS : Fld := ⟨0x14, 15, 0⟩
def RIDGE_LEAKED_RECLAIMED : Fld := ⟨0x18, 31, 0⟩
def RIDGE_PORT_A_CT_EN : Fld := ⟨0x1000, 31, 31⟩
def RIDGE_PORT_A_WD_EN : Fld := ⟨0x1000, 30, 30⟩
def RIDGE_PORT_A_TC_MODE : Fld := ⟨0x1000, 29, 27⟩
def RIDGE_PORT_A_DSCP_MAP : Fld := ⟨0x1000, 26, 25⟩
def RIDGE_PORT_A_DEFAULT_TC : Fld := ⟨0x1000, 3, 0⟩
def RIDGE_PORT_C_WD_RESTORE_MS : Fld := ⟨0x1008, 31, 16⟩
def RIDGE_PORT_C_WD_MS : Fld := ⟨0x1008, 15, 0⟩
def RIDGE_PORT_D_TX_SMP_EN : Fld := ⟨0x100C, 31, 31⟩
def RIDGE_PORT_D_RX_SMP_EN : Fld := ⟨0x100C, 30, 30⟩
def RIDGE_PORT_D_TX_SAMPLER : Fld := ⟨0x100C, 29, 22⟩
def RIDGE_PORT_D_RX_SAMPLER : Fld := ⟨0x100C, 21, 14⟩
def RIDGE_PORT_D_CABLE_M : Fld := ⟨0x100C, 11, 0⟩
def RIDGE_PORT_E_STORM : Fld := ⟨0x1010, 31, 16⟩
def RIDGE_PORT_E_PEER_NS : Fld := ⟨0x1010, 15, 0⟩
def RIDGE_PAIR_CFG_MIN_CELLS : Fld := ⟨0x10000, 31, 16⟩
def RIDGE_PAIR_CFG_HDRM_CELLS : Fld := ⟨0x10000, 15, 0⟩
def RIDGE_PAIR_CTL_XOFF : Fld := ⟨0x10004, 31, 31⟩
def RIDGE_PAIR_CTL_LOSSLESS : Fld := ⟨0x10004, 30, 30⟩
def RIDGE_PAIR_CTL_HDRM_AUTO : Fld := ⟨0x10004, 29, 29⟩
def RIDGE_PAIR_CTL_ALPHA_K : Fld := ⟨0x10004, 18, 16⟩
def RIDGE_PAIR_CTL_XON_DELTA : Fld := ⟨0x10004, 15, 0⟩
def RIDGE_PAIR_USE_USED : Fld := ⟨0x10008, 19, 0⟩
def RIDGE_PAIR_HDRM_HDRM_USED : Fld := ⟨0x1000C, 15, 0⟩
def RIDGE_SAMPLER_A_TRUNC : Fld := ⟨0x20000, 31, 31⟩
def RIDGE_SAMPLER_A_N : Fld := ⟨0x20000, 23, 0⟩
def RIDGE_SAMPLER_B_CODE : Fld := ⟨0x20004, 31, 16⟩
def RIDGE_SAMPLER_B_TC : Fld := ⟨0x20004, 15, 12⟩
def RIDGE_SAMPLER_B_PORT : Fld := ⟨0x20004, 7, 0⟩

/-! Fields of 10_egress_scheduling.md (R335). -/

def ESCH_HEAT_MASK_FORCE : Fld := ⟨0x0, 11, 9⟩
def ESCH_HEAT_MASK_LIMIT_EN : Fld := ⟨0x0, 8, 6⟩
def ESCH_HEAT_MASK_HEAT_MASK : Fld := ⟨0x0, 3, 1⟩
def ESCH_HEAT_BUDGET_HEAT_BUDGET : Fld := ⟨0x10, 31, 0⟩
def ESCH_HEAT_LEFT_HEAT_LEFT : Fld := ⟨0x14, 31, 0⟩
def ESCH_PORT_MAP_QBASE : Fld := ⟨0x1000, 15, 0⟩
def ESCH_PORT_LAUNCH_LAUNCH_MAX_US : Fld := ⟨0x100C, 19, 0⟩

/-! Fields of 11_joist_domain.md (R353). -/

def JOIST_CFG_HOP_LIMIT : Fld := ⟨0x0, 29, 24⟩
def JOIST_CFG_DEV_NUM : Fld := ⟨0x0, 13, 0⟩
def JOIST_HOST_TIMEOUT_HOST_TIMEOUT_MS : Fld := ⟨0x4, 15, 0⟩
def JOIST_PORT_A_RETX_TC : Fld := ⟨0x1000, 31, 16⟩
def JOIST_PORT_A_RETX_WINDOW : Fld := ⟨0x1000, 10, 0⟩
def JOIST_PORT_B_RETX_TRIES : Fld := ⟨0x1004, 19, 16⟩
def JOIST_PORT_B_RETX_TIMEOUT_US : Fld := ⟨0x1004, 15, 0⟩
def JOIST_PORT_C_NEXT_SEQ : Fld := ⟨0x1008, 27, 16⟩
def JOIST_PORT_C_UNACKED : Fld := ⟨0x1008, 10, 0⟩
def JOIST_PORT_D_RX_EXPECT : Fld := ⟨0x100C, 11, 0⟩

/-! Fields of 12_thyme_time_and_pulses.md (R387). -/

def THYME_STATUS_OSC_SEL : Fld := ⟨0x0, 31, 30⟩
def THYME_STATUS_SLEWING : Fld := ⟨0x0, 29, 29⟩
def THYME_STATUS_PPS_IN_OK : Fld := ⟨0x0, 28, 28⟩
def THYME_STATUS_REF10M_OK : Fld := ⟨0x0, 27, 27⟩
def THYME_STATUS_DPLL_STATE : Fld := ⟨0x0, 26, 25⟩
def THYME_STATUS_DPLL_SEL : Fld := ⟨0x0, 24, 22⟩
def THYME_STATUS_TOD_TX_BUSY : Fld := ⟨0x0, 21, 21⟩
def THYME_NOW_NS_NS : Fld := ⟨0x4, 29, 0⟩
def THYME_NOW_FRAC_FRAC : Fld := ⟨0x8, 15, 0⟩
def THYME_NOW_SEC_LO_SEC : Fld := ⟨0xC, 31, 0⟩
def THYME_NOW_SEC_HI_SEC : Fld := ⟨0x10, 15, 0⟩
def THYME_FREQ_ADJ_FREQ_ADJ : Fld := ⟨0x14, 31, 0⟩
def THYME_SLEW_RATE_SLEW_PPB : Fld := ⟨0x18, 17, 0⟩
def THYME_SLEW_LEFT_LO_SLEW_LEFT : Fld := ⟨0x1C, 31, 0⟩
def THYME_PPS_IN_ERR_PPS_IN_ERR : Fld := ⟨0x24, 31, 0⟩
def THYME_REF10M_OFFSET_REF10M_OFFSET : Fld := ⟨0x28, 31, 0⟩
def THYME_DPLL_OFFSET_D : Fld := ⟨0x2C, 31, 0⟩
def THYME_TOD_RX_VALID : Fld := ⟨0x30, 8, 8⟩
def THYME_TOD_RX_DATA : Fld := ⟨0x30, 7, 0⟩
def THYME_TOUT_WORD : Fld := ⟨0x100, 31, 0⟩
def THYME_TOUT_STATUS_ACTIVE : Fld := ⟨0x11C, 31, 31⟩
def THYME_TOUT_STATUS_PULSES : Fld := ⟨0x11C, 15, 0⟩
def THYME_IO_WORD : Fld := ⟨0x200, 31, 0⟩
def THYME_DPLL_CFG_WORD : Fld := ⟨0x300, 31, 0⟩
def THYME_PORT_TS_TS_Q : Fld := ⟨0x1000, 15, 0⟩

/-! Fields of 13_holdover.md (R403). -/

def THYME_HOLD_STATUS_MODE : Fld := ⟨0x2000, 31, 30⟩
def THYME_HOLD_STATUS_HOLD_STATE : Fld := ⟨0x2000, 29, 28⟩
def THYME_HOLD_STATUS_AVG_VALID : Fld := ⟨0x2000, 27, 27⟩
def THYME_HOLD_STATUS_STEP_FLAG : Fld := ⟨0x2000, 26, 26⟩
def THYME_HOLD_STATUS_TSENSE_OK : Fld := ⟨0x2000, 25, 25⟩
def THYME_HOLD_STATUS_AVG_COUNT : Fld := ⟨0x2000, 9, 0⟩
def THYME_HOLD_STEP_LIMIT_STEP_LIMIT : Fld := ⟨0x2004, 29, 0⟩
def THYME_HOLD_SLEW_MAX_SLEW_MAX_PPB : Fld := ⟨0x2008, 17, 0⟩
def THYME_HOLD_TIMEOUT_MASTER_TIMEOUT_MS : Fld := ⟨0x200C, 15, 0⟩
def THYME_HOLD_AVG_RATE_AVG_RATE : Fld := ⟨0x2010, 31, 0⟩
def THYME_HOLD_RATE_HOLD_RATE : Fld := ⟨0x2014, 31, 0⟩
def THYME_HOLD_TEMP_T_AVG : Fld := ⟨0x2018, 31, 16⟩
def THYME_HOLD_TEMP_TSENSE : Fld := ⟨0x2018, 15, 0⟩
def THYME_HOLD_ELAPSED_HOLD_ELAPSED : Fld := ⟨0x201C, 31, 0⟩
def THYME_HOLD_REFUSED_STEPS_REFUSED : Fld := ⟨0x2020, 15, 0⟩
def THYME_HOLD_BIN_A_VALUE : Fld := ⟨0x2100, 31, 0⟩
def THYME_HOLD_BIN_B_VALID : Fld := ⟨0x2104, 31, 31⟩
def THYME_HOLD_BIN_B_COUNT : Fld := ⟨0x2104, 15, 0⟩

/-! Fields of 14_host_links_and_functions.md (R432). -/

def HIF_STRAPS_STRAP_CONFLICT : Fld := ⟨0x8, 31, 31⟩
def HIF_STRAPS_OWNER_LINK : Fld := ⟨0x8, 3, 2⟩
def HIF_STRAPS_BIFUR : Fld := ⟨0x8, 1, 0⟩
def HIF_PIN_INT_ASSERTED : Fld := ⟨0xC, 31, 31⟩
def HIF_PIN_PIN_ALL : Fld := ⟨0xC, 30, 30⟩
def HIF_PIN_EN_LO_PIN_EN : Fld := ⟨0x10, 31, 0⟩
def HIF_LINK_STATUS_PRESENT : Fld := ⟨0x100, 31, 31⟩
def HIF_LINK_STATUS_L0 : Fld := ⟨0x100, 30, 30⟩
def HIF_LINK_STATUS_FLIT : Fld := ⟨0x100, 29, 29⟩
def HIF_LINK_STATUS_RATE : Fld := ⟨0x100, 28, 26⟩
def HIF_LINK_STATUS_WIDTH : Fld := ⟨0x100, 25, 21⟩
def HIF_LINK_STATUS_CPL_RAISED : Fld := ⟨0x100, 20, 20⟩
def HIF_LINK_STATUS_RECOVERIES : Fld := ⟨0x100, 15, 0⟩
def HIF_LINK_CFG_RETRY_US : Fld := ⟨0x104, 14, 0⟩
def HIF_VF_MAP_VF_BASE : Fld := ⟨0x108, 31, 16⟩
def HIF_VF_MAP_VF_COUNT : Fld := ⟨0x108, 7, 0⟩
def FN_INFO_OWNER : Fld := ⟨0x1000, 31, 31⟩
def FN_INFO_IS_VF : Fld := ⟨0x1000, 30, 30⟩
def FN_INFO_LINK : Fld := ⟨0x1000, 9, 8⟩
def FN_INFO_FUNC : Fld := ⟨0x1000, 7, 0⟩
def FN_QUOTA_QUEUES : Fld := ⟨0x1004, 25, 16⟩
def FN_QUOTA_QUOTA : Fld := ⟨0x1004, 8, 0⟩

/-! Fields of 15_rings_doorbells_admin.md (R464). -/

def FN_ADMIN_SQ_BASE_LO_BASE : Fld := ⟨0x2000, 31, 0⟩
def FN_ADMIN_SQ_SIZE_SIZE : Fld := ⟨0x2010, 12, 0⟩
def FN_ADMIN_CTL_ENABLE : Fld := ⟨0x2018, 0, 0⟩
def FN_ADMIN_STATUS_STATE : Fld := ⟨0x201C, 31, 30⟩
def FN_ADMIN_STATUS_ERR_CAUSE : Fld := ⟨0x201C, 29, 27⟩
def FN_ADMIN_STATUS_SQ_HEAD : Fld := ⟨0x201C, 15, 0⟩

/-! Fields of 15_rings_doorbells_admin.md (R473). -/

def QMGR_STATUS_JOBS : Fld := ⟨0x0, 31, 16⟩
def QMGR_STATUS_QUEUES : Fld := ⟨0x0, 12, 0⟩
def QMGR_QUEUE_A_STATE : Fld := ⟨0x4000, 31, 30⟩
def QMGR_QUEUE_A_ERR_CAUSE : Fld := ⟨0x4000, 29, 27⟩
def QMGR_QUEUE_A_PHASE : Fld := ⟨0x4000, 26, 26⟩
def QMGR_QUEUE_A_TYPE : Fld := ⟨0x4000, 23, 21⟩
def QMGR_QUEUE_A_INDEX : Fld := ⟨0x4000, 16, 8⟩
def QMGR_QUEUE_A_FUNC : Fld := ⟨0x4000, 7, 0⟩
def QMGR_QUEUE_B_TAIL : Fld := ⟨0x4004, 31, 16⟩
def QMGR_QUEUE_B_HEAD : Fld := ⟨0x4004, 15, 0⟩

/-! Fields of 16_peg_buffer_pools.md (R492). -/

def PEG_POOL_A_STATE : Fld := ⟨0x1000, 31, 30⟩
def PEG_POOL_A_LOC : Fld := ⟨0x1000, 29, 29⟩
def PEG_POOL_A_CORRUPT : Fld := ⟨0x1000, 28, 28⟩
def PEG_POOL_A_BUF_SHIFT : Fld := ⟨0x1000, 20, 16⟩
def PEG_POOL_A_FUNC : Fld := ⟨0x1000, 7, 0⟩
def PEG_POOL_BASE_LO_BASE : Fld := ⟨0x1004, 31, 0⟩
def PEG_POOL_COUNT_COUNT : Fld := ⟨0x100C, 20, 0⟩
def PEG_POOL_FRESH_FRESH : Fld := ⟨0x1010, 20, 0⟩
def PEG_POOL_SHARED_SHARED_USED : Fld := ⟨0x1014, 20, 0⟩
def PEG_POOL_FREE_FREE : Fld := ⟨0x1018, 20, 0⟩
def PEG_ACCT_IN_USE : Fld := ⟨0x4000, 31, 31⟩
def PEG_ACCT_CLAIMANT : Fld := ⟨0x4000, 20, 12⟩
def PEG_ACCT_HELD_HELD : Fld := ⟨0x4004, 20, 0⟩
def PEG_ACCT_RSV_RESERVE : Fld := ⟨0x4008, 20, 0⟩

/-! Fields of 17_purlin_dma.md (R514). -/

def PURLIN_CHAN_A_STATE : Fld := ⟨0x1000, 31, 29⟩
def PURLIN_CHAN_A_ON_ERROR : Fld := ⟨0x1000, 28, 28⟩
def PURLIN_CHAN_A_HELD : Fld := ⟨0x1000, 14, 12⟩
def PURLIN_CHAN_A_Q : Fld := ⟨0x1000, 11, 0⟩
def PURLIN_CHAN_B_CHAN_FUNC : Fld := ⟨0x1004, 15, 0⟩
def PURLIN_CHAN_C_COUNT : Fld := ⟨0x1008, 31, 0⟩
def PURLIN_CHAN_D_LAST_CAUSE : Fld := ⟨0x100C, 31, 24⟩
def PURLIN_CHAN_D_LAST_TAG : Fld := ⟨0x100C, 15, 0⟩

/-! Fields of 18_stacked_dram.md (R546). -/

def DMC_STATUS_STATE : Fld := ⟨0x0, 31, 29⟩
def DMC_STATUS_STEP : Fld := ⟨0x0, 28, 27⟩
def DMC_STATUS_RATE : Fld := ⟨0x0, 26, 25⟩
def DMC_STATUS_RETRAIN_ACTIVE : Fld := ⟨0x0, 24, 24⟩
def DMC_STATUS_RETRAIN_DEFERRED : Fld := ⟨0x0, 23, 23⟩
def DMC_STATUS_SCRUB_DEFERRED : Fld := ⟨0x0, 22, 22⟩
def DMC_STATUS_CONTENTS_LOST : Fld := ⟨0x0, 21, 21⟩
def DMC_STATUS_RETRAIN_PC : Fld := ⟨0x0, 4, 0⟩
def DMC_TEMP_MAX_TEMP : Fld := ⟨0x4, 31, 16⟩
def DMC_TEMP_TEMP : Fld := ⟨0x4, 15, 0⟩
def DMC_MAP_SPILL_GIB : Fld := ⟨0x8, 3, 0⟩
def DMC_SPILL_USED_USED_MIB : Fld := ⟨0xC, 13, 0⟩
def DMC_CFG_PD_TIMER : Fld := ⟨0x10, 31, 16⟩
def DMC_CFG_CRC_RETRIES : Fld := ⟨0x10, 2, 0⟩
def DMC_CFG2_CRC_WINDOW_NS : Fld := ⟨0x14, 31, 16⟩
def DMC_CFG2_RETRAIN_MIN : Fld := ⟨0x14, 15, 8⟩
def DMC_CFG2_SCRUB_HOURS : Fld := ⟨0x14, 7, 0⟩
def DMC_FREQ_EFFECTIVE_STEP : Fld := ⟨0x18, 5, 4⟩
def DMC_FREQ_MINT_STEP : Fld := ⟨0x18, 3, 2⟩
def DMC_FREQ_HOST_STEP : Fld := ⟨0x18, 1, 0⟩
def DMC_PORT_TARGET_TARGET_NS : Fld := ⟨0x100, 15, 0⟩
def DMC_PC_DEBT : Fld := ⟨0x200, 31, 28⟩
def DMC_PC_POWER_DOWN : Fld := ⟨0x200, 27, 27⟩
def DMC_PC_TRAINING : Fld := ⟨0x200, 26, 26⟩
def DMC_PC_HAZARD : Fld := ⟨0x200, 25, 25⟩
def DMC_PC_REPAYING : Fld := ⟨0x200, 24, 24⟩
def DMC_PC_GIVE_UPS : Fld := ⟨0x200, 15, 0⟩

/-! Fields of 19_mint_heat_budget.md (R570). -/

def MINT_STATUS_STATE : Fld := ⟨0x0, 31, 30⟩
def MINT_STATUS_CLOCK_LOW : Fld := ⟨0x0, 29, 29⟩
def MINT_STATUS_DEFERRING : Fld := ⟨0x0, 28, 28⟩
def MINT_STATUS_STEP_PENDING : Fld := ⟨0x0, 27, 27⟩
def MINT_STATUS_MINT_STEP : Fld := ⟨0x0, 26, 25⟩
def MINT_STATUS_MIN_STATE : Fld := ⟨0x0, 24, 23⟩
def MINT_STATUS_VALID_SENSORS : Fld := ⟨0x0, 22, 16⟩
def MINT_STATUS_LAST_CAUSE : Fld := ⟨0x0, 7, 6⟩
def MINT_STATUS_HOT_SENSOR : Fld := ⟨0x0, 5, 0⟩
def MINT_POWER_CAP : Fld := ⟨0x4, 31, 16⟩
def MINT_POWER_P : Fld := ⟨0x4, 15, 0⟩
def MINT_TEMP_STACK_MAX : Fld := ⟨0x8, 31, 16⟩
def MINT_TEMP_TJ : Fld := ⟨0x8, 15, 0⟩
def MINT_CFG_HYST : Fld := ⟨0xC, 31, 28⟩
def MINT_CFG_P_AVG : Fld := ⟨0xC, 20, 16⟩
def MINT_CFG_HOLD_MS : Fld := ⟨0xC, 15, 0⟩
def MINT_TLIM_T_CRIT : Fld := ⟨0x10, 31, 24⟩
def MINT_TLIM_T_HOT : Fld := ⟨0x10, 23, 16⟩
def MINT_TLIM_T_WARM : Fld := ⟨0x10, 15, 8⟩
def MINT_SLIM_STACK_S2 : Fld := ⟨0x14, 15, 8⟩
def MINT_SLIM_STACK_S1 : Fld := ⟨0x14, 7, 0⟩
def MINT_ACT_WORD : Fld := ⟨0x100, 31, 0⟩
def MINT_FLOOR_FLOOR : Fld := ⟨0x200, 31, 0⟩
def MINT_SENSOR_VALID : Fld := ⟨0x1000, 31, 31⟩
def MINT_SENSOR_TEMP : Fld := ⟨0x1000, 15, 0⟩
def MINT_RAIL_VALID : Fld := ⟨0x1100, 31, 31⟩
def MINT_RAIL_POWER : Fld := ⟨0x1100, 15, 0⟩

/-! Fields of 20_gauge_and_scribe.md (R599). -/

def GAUGE_PC_A_ENABLE : Fld := ⟨0x1000, 31, 31⟩
def GAUGE_PC_A_INTR : Fld := ⟨0x1000, 30, 30⟩
def GAUGE_PC_A_SAMPLE : Fld := ⟨0x1000, 29, 29⟩
def GAUGE_PC_A_SRC : Fld := ⟨0x1000, 28, 28⟩
def GAUGE_PC_A_SEL : Fld := ⟨0x1000, 17, 0⟩
def GAUGE_PC_B_FILTER : Fld := ⟨0x1004, 31, 0⟩
def GAUGE_PC_PRESET_LO_PRESET : Fld := ⟨0x1008, 31, 0⟩
def GAUGE_PC_PRESET_HI_PRESET : Fld := ⟨0x100C, 15, 0⟩
def GAUGE_OVF_OVF : Fld := ⟨0x100, 31, 0⟩
def GAUGE_SAMPLE_SAMPLES_LOST : Fld := ⟨0x200, 31, 13⟩
def GAUGE_SAMPLE_HELD : Fld := ⟨0x200, 12, 0⟩
def GAUGE_DUMP_PERIOD_MS : Fld := ⟨0x0, 31, 16⟩
def GAUGE_DUMP_BUFFERS : Fld := ⟨0x0, 6, 0⟩
def GAUGE_DUMP_SEQ_LAST_SEQ : Fld := ⟨0x4, 31, 0⟩
def GAUGE_BW_BW_WINDOW_US : Fld := ⟨0x400, 19, 0⟩
def SCRIBE_REC_A_FULL : Fld := ⟨0x0, 31, 31⟩
def SCRIBE_REC_A_MIRROR_EN : Fld := ⟨0x0, 30, 30⟩
def SCRIBE_REC_A_NEXT : Fld := ⟨0x0, 15, 0⟩
def SCRIBE_REC_B_LOST : Fld := ⟨0x4, 31, 0⟩
def SCRIBE_REC_C_NEXT_SEQ : Fld := ⟨0x8, 31, 0⟩
def SCRIBE_REC_D_MIRROR_Q : Fld := ⟨0xC, 31, 16⟩
def SCRIBE_REC_D_WATERMARK : Fld := ⟨0xC, 15, 0⟩
def SCRIBE_RATE_SUPPRESSED : Fld := ⟨0x100, 31, 16⟩
def SCRIBE_RATE_LIMIT : Fld := ⟨0x100, 15, 0⟩

/-! Fields of 21_faults_and_debug_access.md (R601). -/

def FLT_STATUS_STATUS : Fld := ⟨0xF000, 31, 0⟩
def FLT_LIVE_LIVE : Fld := ⟨0xF004, 31, 0⟩
def FLT_MASK_MASK : Fld := ⟨0xF008, 31, 0⟩
def FLT_FIRST_VALID : Fld := ⟨0xF014, 31, 31⟩
def FLT_FIRST_INJECTED : Fld := ⟨0xF014, 30, 30⟩
def FLT_FIRST_ALSO : Fld := ⟨0xF014, 29, 29⟩
def FLT_FIRST_SEV : Fld := ⟨0xF014, 28, 27⟩
def FLT_FIRST_SOURCE : Fld := ⟨0xF014, 4, 0⟩
def FLT_FIRST_NS_NS : Fld := ⟨0xF018, 29, 0⟩
def FLT_FIRST_SEC_LO_SEC : Fld := ⟨0xF01C, 31, 0⟩
def FLT_FIRST_SEC_HI_SEC : Fld := ⟨0xF020, 15, 0⟩
def FLT_FIRST_INFO_INFO : Fld := ⟨0xF024, 31, 0⟩
def FLT_INJECT_INJECT : Fld := ⟨0xF028, 31, 0⟩
def FLT_CTL_DUP_INJECT : Fld := ⟨0xF02C, 0, 0⟩
def FLT_COUNT_COUNT : Fld := ⟨0xF030, 31, 0⟩

/-! Fields of 21_faults_and_debug_access.md (R609). -/

def GLOBAL_SAFE_CAUSE_SAFE : Fld := ⟨0x10, 31, 31⟩
def GLOBAL_SAFE_CAUSE_SAFE_KIND : Fld := ⟨0x10, 30, 29⟩
def GLOBAL_SAFE_CAUSE_BLOCK : Fld := ⟨0x10, 28, 21⟩
def GLOBAL_SAFE_CAUSE_INSTANCE : Fld := ⟨0x10, 20, 13⟩
def GLOBAL_SAFE_CAUSE_SRC : Fld := ⟨0x10, 12, 8⟩
def GLOBAL_SAFE_NS_NS : Fld := ⟨0x14, 29, 0⟩
def GLOBAL_SAFE_SEC_LO_SEC : Fld := ⟨0x18, 31, 0⟩
def GLOBAL_SAFE_SEC_HI_SEC : Fld := ⟨0x1C, 15, 0⟩

/-! Fields of 21_faults_and_debug_access.md (R618). -/

def SEC_STATUS_LIFECYCLE : Fld := ⟨0x0, 31, 30⟩
def SEC_STATUS_LOCKOUT : Fld := ⟨0x0, 29, 29⟩
def SEC_STATUS_FAILURES : Fld := ⟨0x0, 28, 27⟩
def SEC_STATUS_NONCE_LIVE : Fld := ⟨0x0, 26, 26⟩
def SEC_STATUS_SCOPE : Fld := ⟨0x0, 1, 0⟩

/-! Fields of 22_bring_up.md (R640). -/

def GLOBAL_DEV_STATE_STATE : Fld := ⟨0x4, 31, 29⟩
def GLOBAL_DEV_STATE_FW_OK : Fld := ⟨0x4, 28, 28⟩
def GLOBAL_DEV_STATE_FALLBACK : Fld := ⟨0x4, 27, 27⟩
def GLOBAL_DEV_STATE_STACK_OK : Fld := ⟨0x4, 19, 16⟩
def GLOBAL_DEV_STATE_BOOT_MS : Fld := ⟨0x4, 15, 0⟩
def GLOBAL_RESET_CAUSE_WARM_COUNT : Fld := ⟨0x8, 15, 8⟩
def GLOBAL_RESET_CAUSE_CAUSE : Fld := ⟨0x8, 1, 0⟩
def GLOBAL_WARM_RESET_KEY : Fld := ⟨0xC, 31, 0⟩
def BOOT_STATUS_PHASE : Fld := ⟨0x0, 31, 29⟩
def BOOT_STATUS_FALLBACK : Fld := ⟨0x0, 28, 28⟩
def BOOT_STATUS_PRIMARY_FAIL : Fld := ⟨0x0, 27, 24⟩
def BOOT_STATUS_FALLBACK_FAIL : Fld := ⟨0x0, 23, 20⟩
def BOOT_STATUS_SLOT : Fld := ⟨0x0, 19, 18⟩
def BOOT_STATUS_IMAGE_ID : Fld := ⟨0x0, 15, 0⟩
def BOOT_SEC_VERSION_SEC_VERSION : Fld := ⟨0x4, 31, 0⟩
def BOOT_RETRIES_RETRIES : Fld := ⟨0x8, 15, 0⟩

/-! Fields of 23_package_and_electrical.md (R660). -/

def GLOBAL_GPIO_DIR_DIR : Fld := ⟨0x100, 15, 0⟩
def GLOBAL_GPIO_OUT_OUT : Fld := ⟨0x104, 15, 0⟩
def GLOBAL_GPIO_IN_IN : Fld := ⟨0x108, 15, 0⟩

/-! Fields with an indexed place, and pairs read as one value. -/

/-- Priority of traffic class t (R75): field TC(8j + i) of PORT[n].PFC_MAP[j]. -/
def PORT_PFC_MAP_TC (t : Nat) : Fld := ⟨0x18 + 4 * (t / 8), 4 * (t % 8) + 2, 4 * (t % 8)⟩
/-- Quanta of priority j (R75). -/
def PORT_QUANTA (j : Nat) : Fld := ⟨0x20 + 4 * j, 15, 0⟩
/-- Delay component d of the port (R72, R75). -/
def PORT_CAL (d : Nat) : Fld := ⟨0x80 + 4 * d, 31, 0⟩
/-- The port's 48-bit MAC address (R75). -/
def PORT_MAC : Fld := ⟨0x0C, 47, 0⟩
/-- Class of DSCP value d in map m (R304). -/
def RIDGE_DSCP (m d : Nat) : Fld := ⟨0x200 + 0x20 * m + 4 * (d / 8), 4 * (d % 8) + 3, 4 * (d % 8)⟩
/-- Class of PCP i (R304); the port's stride is added by the caller. -/
def RIDGE_PCP (i : Nat) : Fld := ⟨0x1004, 4 * i + 3, 4 * i⟩
/-- Queue offset of class t (R335); the port's stride is added by the caller. -/
def ESCH_TC_OFF (t : Nat) : Fld := ⟨0x1004 + 4 * (t / 8), 4 * (t % 8) + 3, 4 * (t % 8)⟩
/-- Severity of source i (R601). -/
def FLT_SEV_I (i : Nat) : Fld := ⟨0xF00C + 4 * (i / 16), 2 * (i % 16) + 1, 2 * (i % 16)⟩
/-- Bit i of STATUS (R601). -/
def FLT_STATUS_I (i : Nat) : Fld := ⟨0xF000, i, i⟩
/-- Bit i of LIVE (R601). -/
def FLT_LIVE_I (i : Nat) : Fld := ⟨0xF004, i, i⟩
/-- 48-bit seconds of the first fault (R601). -/
def FLT_FIRST_SEC : Fld := ⟨0xF01C, 47, 0⟩
/-- 48-bit seconds of the safe-state episode (R609). -/
def GLOBAL_SAFE_SEC : Fld := ⟨0x18, 47, 0⟩
/-- PIN_EN as one 64-bit value (R432). -/
def HIF_PIN_EN : Fld := ⟨0x10, 63, 0⟩
/-- Base of a pool as one value (R492). -/
def PEG_BASE : Fld := ⟨0x1004, 63, 0⟩
/-- The DRAM region base of a pipeline (R246). -/
def PIPE_REGION_BASE : Fld := ⟨0x3000C, 35, 0⟩
/-- The offset a slew still has to apply (R387). -/
def THYME_SLEW_LEFT : Fld := ⟨0x1C, 63, 0⟩
/-- Preset of a programmable counter (R599). -/
def GAUGE_PRESET : Fld := ⟨0x1008, 47, 0⟩
end Reg
end Sys2Proof.Machine
end

