-- ==== Sys2Proof/Machine/Ops.lean ====
section
/-!
DEFINITION. Shared operations: finite maps, bytes, registers, memories, free values and time.
-/
namespace Sys2Proof.Machine

/-! ### Finite maps -/

/-- Value of a key; an unlisted key has the value `d` gives it. -/
def tabGet {α : Type} (d : Nat → α) : Tab α → Nat → α
  | [], k => d k
  | (k', v) :: t, k => if k' = k then v else tabGet d t k

/-- A map without the key. -/
def tabErase {α : Type} : Tab α → Nat → Tab α
  | [], _ => []
  | (k', v) :: t, k => if k' = k then tabErase t k else (k', v) :: tabErase t k

/-- A map with a key put at its place; the key is not listed before. -/
def tabInsert {α : Type} : Tab α → Nat → α → Tab α
  | [], k, v => [(k, v)]
  | (k', v') :: t, k, v => if k < k' then (k, v) :: (k', v') :: t else (k', v') :: tabInsert t k v

/-- A map with a key set; a value equal to what an unlisted key reads as is not listed. -/
def tabSet {α : Type} [DecidableEq α] (d : Nat → α) (t : Tab α) (k : Nat) (v : α) : Tab α :=
  if v = d k then tabErase t k else tabInsert (tabErase t k) k v

/-- Strictly rising keys, all above `lo`. -/
def tabSorted {α : Type} : Tab α → Bool
  | [] => true
  | [_] => true
  | (k, _) :: (k', v') :: t => decide (k < k') && tabSorted ((k', v') :: t)

/-- The canonical form: strictly rising keys, and no entry equal to what its key reads as unlisted. -/
def tabWf {α : Type} [DecidableEq α] (d : Nat → α) (t : Tab α) : Bool :=
  tabSorted t && t.all (fun e => decide (e.2 ≠ d e.1))

/-! ### Bytes and bits -/

/-- Little-endian value of bytes (R8). -/
def leNat : List Byte → Nat
  | [] => 0
  | b :: t => b.toNat + 256 * leNat t

/-- The low n bytes of a value, least significant first (R8). -/
def leBytes : Nat → Nat → List Byte
  | 0, _ => []
  | n + 1, v => BitVec.ofNat 8 v :: leBytes n (v / 256)

/-- Value of bytes in network order (R8). -/
def beNat (l : List Byte) : Nat := leNat l.reverse

/-- The low n bytes of a value in network order (R8). -/
def beBytes (n v : Nat) : List Byte := (leBytes n v).reverse

/-- Bits [hi:lo] of a value (R7). -/
def bits (v hi lo : Nat) : Nat := (v >>> lo) % 2 ^ (hi + 1 - lo)

/-- Bit i of a value (R7). -/
def bit (v i : Nat) : Bool := v.testBit i

/-- A value with bits [hi:lo] replaced (R7). -/
def setBits (v hi lo x : Nat) : Nat :=
  v - (bits v hi lo) * 2 ^ lo + (x % 2 ^ (hi + 1 - lo)) * 2 ^ lo

/-- 1 or 0. -/
def b2n (b : Bool) : Nat := if b then 1 else 0

/-- Two's-complement value of a w-bit field. -/
def sInt (w v : Nat) : Int := if v < 2 ^ (w - 1) then (v : Int) else (v : Int) - 2 ^ w

/-- The w-bit two's-complement field of an integer. -/
def uNat (w : Nat) (z : Int) : Nat := (z % (2 ^ w : Int)).toNat

/-- A slice of a byte list. -/
def slice (l : List Byte) (off n : Nat) : List Byte := (l.drop off).take n

/-- A byte list with bytes written at an offset; bytes past the end are not written. -/
def putBytes (l : List Byte) (off : Nat) (bs : List Byte) : List Byte :=
  l.take off ++ bs.take (l.length - off) ++ l.drop (off + bs.length)

/-- A byte list made n long: cut, or filled with zeros. -/
def padTo (n : Nat) (l : List Byte) : List Byte := l.take n ++ List.replicate (n - l.length) 0

/-- The list of numbers from a, n long. -/
def rangeFrom (a : Nat) : Nat → List Nat
  | 0 => []
  | n + 1 => a :: rangeFrom (a + 1) n

/-- Whether a number is a power of two. -/
def isPow2 (n : Nat) : Bool := decide (n ≠ 0 ∧ 2 ^ n.log2 = n)

/-- Apply a state change for each element, in order. -/
def forEach {α σ : Type} (l : List α) (f : α → σ → σ) (s : σ) : σ := l.foldl (fun s a => f a s) s

end Sys2Proof.Machine

namespace Sys2Proof

/-! ### Jobs (R437) -/

/-- Byte k of entry e of a job. -/
def Job.byte (j : Job) (e k : Nat) : Nat := ((j.entries.getD e []).getD k 0).toNat

/-- n bytes of entry e, from byte k. -/
def Job.bytes (j : Job) (e k n : Nat) : List Byte := Machine.padTo n (Machine.slice (j.entries.getD e []) k n)

/-- Little-endian value of n bytes of the first entry, from byte k. -/
def Job.le (j : Job) (k n : Nat) : Nat := Machine.leNat (j.bytes 0 k n)

/-- Little-endian value of n bytes of entry e, from byte k. -/
def Job.leAt (j : Job) (e k n : Nat) : Nat := Machine.leNat (j.bytes e k n)

/-- Bits [hi:lo] of byte k of the first entry. -/
def Job.bits (j : Job) (k hi lo : Nat) : Nat := Machine.bits (j.byte 0 k) hi lo

/-- Bit i of byte k of the first entry. -/
def Job.bit (j : Job) (k i : Nat) : Bool := (j.byte 0 k).testBit i

/-- Whether bytes k to k + n - 1 of entry e are all zero. -/
def Job.zero (j : Job) (e k n : Nat) : Bool := decide (Machine.leNat (j.bytes e k n) = 0)

/-- Opcode (R437). -/
def Job.opcode (j : Job) : Nat := j.byte 0 0
/-- Tag (R437). -/
def Job.tag (j : Job) : Nat := j.le 2 2
/-- INTR (R437). -/
def Job.intr (j : Job) : Bool := j.bit 1 3
/-- Entries of the chain (R439). -/
def Job.len (j : Job) : Nat := j.entries.length

/-- Whether the bits a command reserves in the common header of a first entry are 0: BARRIER, OWN and bits 6:4
(R437). -/
def Job.flagsPlain (j : Job) : Bool := decide (j.byte 0 1 / 16 = 0 ∧ j.bit 1 2 = false)

/-- Whether the job is one entry whose reserved header bits, and whose bytes from 4 outside the spans (first byte,
length), are all 0 (R437; log entry 13). -/
def Job.only (j : Job) (spans : List (Nat × Nat)) : Bool :=
  decide (j.len = 1) && j.flagsPlain &&
    (Machine.rangeFrom 4 28).all (fun k => spans.any (fun e => decide (e.1 ≤ k ∧ k < e.1 + e.2)) || decide (j.byte 0 k = 0))

/-- Whether the job is one entry: a command whose chapter refuses no reserved field ignores them (R11, R439). -/
def Job.one (j : Job) : Bool := decide (j.len = 1)

/-- The host address in bytes 16 to 23. -/
def Job.hostAddr (j : Job) : Nat := j.le 16 8

end Sys2Proof

namespace Sys2Proof.Machine

/-- What a step of the block answers; every command of the model answers a next state (log entry 6). -/
abbrev Out := Host.Outcome State Fault Refusal

/-! ### Free values (log entry 4) -/

/-- A fresh w-bit value that nothing constrains, and the state with the counter advanced. -/
def State.draw (s : State) (w : Nat) : BitVec w × State :=
  (Config.freeValue w s.freeCtr, { s with freeCtr := s.freeCtr + 1 })

/-! ### Registers -/

/-- The reset word of PORT[n] registers (R75). -/
def resetPort (o : Nat) : Nat :=
  if o = 0x00 then 0x018F0000 else if o = 0x08 then 9216 else if o = 0x18 then 0x33221100
  else if o = 0x1C then 0x77665544 else if 0x20 ≤ o ∧ o < 0x40 then 65535
  else if o = 0x40 then 0xC000000A else if o = 0x44 then 1000 else 0

/-- The reset word of PIPE[p] registers (R103, R135, R178, R207, R246). -/
def resetPipe (o : Nat) : Nat :=
  if o = 0x10000 then 0x80000040 else if o = 0x20030 then 60 * 256 + 16
  else if o = 0x20034 then 2 ^ 31 + 300 * 65536 + 60 else if o = 0x20038 then 1000
  else if o = 0x2003C then 8
  else if o = 0x20200 ∨ o = 0x20210 ∨ o = 0x20220 ∨ o = 0x20230 then 0xFFFF00
  else if o = 0x28008 then 16 * 65536 + 256 else if o = 0x28010 then 100 * 65536
  else if o = 0x30008 then 4 else 0

/-- Ports that Ridge gives a headroom of 64 cells at reset (R304): the host ports and the service port. -/
def hdrm64 (n : Nat) : Bool := decide ((128 ≤ n ∧ n ≤ 131) ∨ n = 140)

/-- The reset word of RIDGE registers (R304). -/
def resetRidge (o : Nat) : Nat :=
  if o = 0 then 524288 else if o = 4 ∨ o = 8 then 497664 else if o = 0xC then 16384 * 65536 + 4096
  else if o = 0x14 then 1000
  else if 0x1000 ≤ o ∧ o < 0x1000 + 0x20 * 141 then
    (if o % 0x20 = 0 then 0xC0000000 else if o % 0x20 = 4 then 0x76543210
     else if o % 0x20 = 8 then 200 * 65536 + 200 else if o % 0x20 = 0x10 then 500 else 0)
  else if 0x10000 ≤ o ∧ o < 0x10000 + 0x100 * 141 then
    (if o % 0x10 = 0 then (if hdrm64 ((o - 0x10000) / 0x100) then 64 else 0)
     else if o % 0x10 = 4 then 0x20000020 else 0)
  else 0

/-- The reset word of ESCH registers (R335). -/
def resetEsch (o : Nat) : Nat :=
  if 0x1000 ≤ o ∧ o < 0x1000 + 0x10 * 141 then
    (if o % 16 = 0 then 16 * ((o - 0x1000) / 16) else if o % 16 = 4 then 0x76543210
     else if o % 16 = 8 then 0xFEDCBA98 else 1000000)
  else 0

/-- The reset word of JOIST registers (R353). -/
def resetJoist (o : Nat) : Nat :=
  if o = 0 then 8 * 2 ^ 24 else if o = 4 then 1000
  else if 0x1000 ≤ o ∧ o < 0x1800 then
    (if o % 16 = 0 then 256 else if o % 16 = 4 then 3 * 65536 + 100 else 0)
  else 0

/-- The reset word of THYME registers (R387, R403, defaults of R381). -/
def resetThyme (o : Nat) : Nat :=
  if o = 0 then 7 * 2 ^ 22
  else if o = 0x304 ∨ o = 0x308 then 0x0FFF0FFF else if o = 0x30C then 9200 else if o = 0x310 then 300
  else if 0x1000 ≤ o ∧ o < 0x1200 then 0xFFFF
  else if o = 0x2004 then 100 else if o = 0x2008 then 1000 else if o = 0x200C then 3000 else 0

/-- Default latency target of DMC port x (R522). -/
def defaultTarget (x : Nat) : Nat :=
  if x ≤ 1 then 2000 else if x ≤ 10 then 600 else if x = 11 then 1000 else 5000

/-- The reset word of DMC registers (R546). -/
def resetDmc (o : Nat) : Nat :=
  if o = 8 then 8 else if o = 0x10 then 2000 * 65536 + 3
  else if o = 0x14 then 120 * 65536 + 10 * 256 + 24
  else if 0x100 ≤ o ∧ o < 0x134 then defaultTarget ((o - 0x100) / 4) else 0

/-- The reset word of MINT registers (R557, R570). -/
def resetMint (o : Nat) : Nat :=
  if o = 0 then 64 * 65536 else if o = 4 then 3680 * 65536
  else if o = 0xC then 3 * 2 ^ 28 + 10 * 65536 + 100
  else if o = 0x10 then 140 * 2 ^ 24 + 125 * 65536 + 110 * 256 else if o = 0x14 then 115 * 256 + 100
  else if o = 0x120 then 2 ^ 30 else if o = 0x130 then 80
  else if o = 0x140 then 2 ^ 30 + 2 ^ 28 + 8 * 65536 else if o = 0x150 then 240
  else if o = 0x160 then 2 ^ 31 + 2 ^ 30 + 2 * 2 ^ 28 + 56 * 65536 else if o = 0x170 then 480
  else 0

/-- The reset word of SCRIBE registers (R599). -/
def resetScribe (o : Nat) : Nat :=
  if o < 0x90 then
    (if o % 16 = 8 then 1
     else if o % 16 = 12 then 0xFFFF0000 + (if o < 16 then 24576 else 1536) else 0)
  else if 0x100 ≤ o ∧ o < 0x100 + 4 * 41 then 16 else 0

/-- Word with the severities of a source table: source i has severity `sev i`. -/
def sevWord (sev : Nat → Nat) (first : Nat) : Nat :=
  (rangeFrom 0 16).foldl (fun a i => a + (sev (first + i) % 4) * 4 ^ i) 0

/-- Reset severity of source i of each kind of block window (R607, R422, R547, R571, R600), by the window's number in
`winKind`; sources that are not listed have severity 0. -/
def sevOf : Nat → Nat → Nat
  | 0, i => [2, 3, 3, 3].getD i 0
  | 1, i => [2, 0, 2, 0, 0, 0, 0, 0, 2, 2, 1, 3].getD i 0
  | 2, i => [1, 3, 0].getD i 0
  | 3, i => [2, 2].getD i 0
  | 4, i => [0, 2, 3].getD i 0
  | 5, i => [0, 0, 2, 0].getD i 0
  | 6, i => [1, 2, 3, 1, 2, 1, 2, 3, 2, 1, 3].getD i 0
  | 7, i => [1, 3, 1, 2].getD i 0
  | 8, i => [1, 3].getD i 0
  | 9, i => [2, 0].getD i 0
  | 10, i => [2, 2, 0, 3].getD i 0
  | 11, i => [1, 2, 2, 2, 2, 3, 0].getD i 0
  | 12, i => [2, 2, 0, 3].getD i 0
  | 13, i => [2, 1].getD i 0
  | 14, i => [1, 2].getD i 0
  | 15, i => [0, 2, 3].getD i 0
  | 16, i => [1, 2].getD i 0
  | 17, i => [2, 0, 2, 0].getD i 0
  | _, _ => 0

/-- Mask of the sources that a kind of window defines (R607). -/
def srcMask : Nat → Nat
  | 0 => 0xF | 1 => 0xF0F | 2 => 0x7 | 3 => 0x3 | 4 => 0x7 | 5 => 0xF | 6 => 0x7FF | 7 => 0xF | 8 => 0x3
  | 9 => 0x3 | 10 => 0xF | 11 => 0x7F | 12 => 0xF | 13 => 0x3 | 14 => 0x3 | 15 => 0x7 | 16 => 0x3 | 17 => 0xF
  | _ => 0

/-- The reset word of the fault registers of a kind of window (R601). -/
def resetFault (kind o : Nat) : Nat :=
  if o = 0xF00C then sevWord (sevOf kind) 0 else if o = 0xF010 then sevWord (sevOf kind) 16 else 0

/-- The reset word at a BAR0 address, or at the key of a function window (R12; log entry 7). -/
def regReset (a : Nat) : Nat :=
  if a < 0x10000 then
    (if a = 0 then 0x7160B000 else if a = 4 then 2 ^ 29 else resetFault 0 a)
  else if a < 0x20000 then
    (let o := a - 0x10000
     if o = 0x10 ∨ o = 0x14 then 0xFFFFFFFF
     else if 0x100 ≤ o ∧ o < 0x140 ∧ o % 16 = 4 then 2000
     else if 0x4000 ≤ o ∧ o < 0x6400 ∧ o % 16 = 12 then 1 else resetFault 1 o)
  else if a < 0x30000 then resetFault 2 (a - 0x20000)
  else if a < 0x40000 then resetFault 3 (a - 0x30000)
  else if a < 0x50000 then
    (let o := a - 0x40000
     if 0x11C0 ≤ o ∧ o < 0x1200 ∧ o % 16 = 0 then 5 * 2 ^ 29
     else if 0x1000 ≤ o ∧ o < 0x1200 ∧ o % 16 = 4 then 0xFFFF else resetFault 4 o)
  else if a < 0x100000 then 0
  else if a < 0x180000 then
    (let o := (a - 0x100000) % 0x1000
     resetPort o)
  else if a < 0x200000 then 0
  else if a < 0x400000 then
    (let o := (a - 0x200000) % 0x40000
     if 0xF000 ≤ o ∧ o < 0x10000 then resetFault 6 o else resetPipe o)
  else if a < 0x500000 then
    (let o := a - 0x400000
     if 0xF000 ≤ o ∧ o < 0xF040 then resetFault 7 o else resetRidge o)
  else if a < 0x600000 then
    (let o := a - 0x500000
     if 0xF000 ≤ o ∧ o < 0xF040 then resetFault 8 o else resetEsch o)
  else if a < 0x610000 then
    (let o := a - 0x600000
     if 0xF000 ≤ o then resetFault 9 o else resetJoist o)
  else if a < 0x700000 then
    (let o := a - 0x610000
     if 0xF000 ≤ o ∧ o < 0xF040 then resetFault 10 o else resetThyme o)
  else if a < 0x740000 then
    (let o := (a - 0x700000) % 0x10000
     if 0xF000 ≤ o then resetFault 11 o else resetDmc o)
  else if a < 0x800000 then 0
  else if a < 0x810000 then
    (let o := a - 0x800000
     if 0xF000 ≤ o then resetFault 12 o else resetMint o)
  else if a < 0x820000 then
    (let o := a - 0x810000
     if 0x400 ≤ o ∧ o < 0x600 then 1000 else resetFault 13 o)
  else if a < 0x830000 then
    (let o := a - 0x820000
     if 0xF000 ≤ o then resetFault 14 o else resetScribe o)
  else if a < 0x840000 then 0
  else if a < 0x850000 then resetFault 15 (a - 0x840000)
  else if a < 0x860000 then resetFault 16 (a - 0x850000)
  else if a < 0x1000000 then 0
  else if 0x1000000000 ≤ a then resetFault 5 (a % 0x10000)
  else
    (let o := a % 0x1000000
     if 0x4000 ≤ o ∧ o < 0x6000 ∧ o % 16 = 12 then 1 else resetFault 17 o)

/-- Reset word as a bit vector: what an unlisted key of `State.regs` reads as. -/
def regDefault (a : Nat) : Word32 := BitVec.ofNat 32 (regReset a)

/-- The word of a register. -/
def State.reg (s : State) (a : Nat) : Nat := (tabGet regDefault s.regs a).toNat

/-- A register's word replaced. -/
def State.setReg (s : State) (a v : Nat) : State :=
  { s with regs := tabSet regDefault s.regs a (BitVec.ofNat 32 v) }

/-- The value of a register field of the window at `base` (R7, R10). -/
def State.rd (s : State) (base : Nat) (f : Fld) : Nat :=
  if f.hi < 32 then bits (s.reg (base + f.off)) f.hi f.lo
  else bits (s.reg (base + f.off) + 2 ^ 32 * s.reg (base + f.off + 4)) f.hi f.lo

/-- A register field replaced; bits above the field's width are dropped (R7, R10). -/
def State.wr (s : State) (base : Nat) (f : Fld) (v : Nat) : State :=
  if f.hi < 32 then s.setReg (base + f.off) (setBits (s.reg (base + f.off)) f.hi f.lo v)
  else
    let w := setBits (s.reg (base + f.off) + 2 ^ 32 * s.reg (base + f.off + 4)) f.hi f.lo v
    (s.setReg (base + f.off) (w % 2 ^ 32)).setReg (base + f.off + 4) (w / 2 ^ 32)

/-- A one-bit field as a Bool. -/
def State.rdb (s : State) (base : Nat) (f : Fld) : Bool := decide (s.rd base f ≠ 0)

/-- A counter field raised by n, modulo its width. -/
def State.inc (s : State) (base : Nat) (f : Fld) (n : Nat) : State := s.wr base f (s.rd base f + n)

/-- A counter field raised by n, saturating at its width. -/
def State.incSat (s : State) (base : Nat) (f : Fld) (n : Nat) : State :=
  s.wr base f (min (s.rd base f + n) (2 ^ f.width - 1))

/-! ### Bits that events set in the running cycle (R13) -/

/-- The bits of register a that events have set in the running management-clock cycle: software that clears them in this
cycle leaves them set (R13), and an event source shows LIVE for it (R602). -/
def State.justSet (s : State) (a : Nat) : Nat :=
  if s.dev.freshAt = s.clock.up / 10 then tabGet (fun _ => 0) s.dev.freshBits a else 0

/-- What the running cycle has set in register a replaced. -/
def State.setFresh (s : State) (a m : Nat) : State :=
  let old := if s.dev.freshAt = s.clock.up / 10 then s.dev.freshBits else []
  { s with dev := { s.dev with freshAt := s.clock.up / 10, freshBits := tabSet (fun _ => 0) old a m } }

/-- An event has set bits of register a. -/
def State.noteSet (s : State) (a m : Nat) : State := s.setFresh a (s.justSet a ||| m)

/-- Bits of a register cleared by software, but for those that an event has set in the same cycle (R13). -/
def State.clearBits (s : State) (a m : Nat) : State :=
  s.setReg a (s.reg a - (s.reg a &&& (m - (m &&& s.justSet a))))

/-! ### Memories -/

/-- What a byte nothing has written reads as, by its key: 0, but for stacked DRAM after a reset of the device, whose contents are
undefined outside the EM areas, which are cleared before READY (R628, R632; log entry 8). -/
def memDefault (k : Nat) : Byte := if k < 2 ^ 66 ∨ k % 2 ^ 34 < 2 ^ 29 then 0 else Config.dramAfterReset k

/-- The canonical form of a memory. -/
def Memory.wf (m : List Host.Cell) : Bool := tabWf memDefault m

/-- n bytes of a memory from key a. -/
def memRead (m : List Host.Cell) (a : Nat) : Nat → List Byte
  | 0 => []
  | n + 1 => tabGet memDefault m a :: memRead m (a + 1) n

/-- Bytes written to a memory from address a. -/
def memWrite (m : List Host.Cell) (a : Nat) : List Byte → List Host.Cell
  | [] => m
  | b :: t => memWrite (tabSet memDefault m a b) (a + 1) t

/-- Key of address a of host memory of link j; addresses are 64 bits wide. -/
def hostKey (j a : Nat) : Nat := j * 2 ^ 64 + a % 2 ^ 64

/-- n bytes of host memory. -/
def State.hostRd (s : State) (j a n : Nat) : List Byte := memRead s.hostMem (hostKey j a) n

/-- Bytes written to host memory. -/
def State.hostWr (s : State) (j a : Nat) (bs : List Byte) : State :=
  { s with hostMem := memWrite s.hostMem (hostKey j a) bs }

/-- Key of device address a of stacked DRAM (R515): its contents are other ones after every reset, and above every host key then
(R628). -/
def State.dramKey (s : State) (a : Nat) : Nat := 2 ^ 66 * s.wipes + a

/-- n bytes of stacked DRAM (R515). -/
def State.dramRd (s : State) (a n : Nat) : List Byte := memRead s.dram (s.dramKey a) n

/-- Bytes written to stacked DRAM (R515). -/
def State.dramWr (s : State) (a : Nat) (bs : List Byte) : State := { s with dram := memWrite s.dram (s.dramKey a) bs }

/-! ### Functions and links (R405, R406, R409, R410) -/

/-- The owner function (R409): the physical function of the owner link. -/
def State.owner (s : State) : Nat := s.rd wHif Reg.HIF_STRAPS_OWNER_LINK

/-- Whether host link j exists (R406). -/
def State.linkPresent (s : State) (j : Nat) : Bool :=
  decide (j < 4) && s.rdb (wHif + 16 * j) Reg.HIF_LINK_STATUS_PRESENT

/-- VF_BASE of PF j (R410). -/
def State.vfBase (s : State) (j : Nat) : Nat := s.rd (wHif + 16 * j) Reg.HIF_VF_MAP_VF_BASE

/-- VF_COUNT of PF j (R410). -/
def State.vfCount (s : State) (j : Nat) : Nat := s.rd (wHif + 16 * j) Reg.HIF_VF_MAP_VF_COUNT

/-- The parent PF of VF f, when f is allocated (R410, R411). -/
def State.vfParent (s : State) (f : Nat) : Option Nat :=
  (rangeFrom 0 4).find? (fun j => s.linkPresent j && decide (s.vfBase j ≤ f ∧ f < s.vfBase j + s.vfCount j))

/-- The host link of function f, when f exists (R406, R409 to R411). -/
def State.fnLink? (s : State) (f : Nat) : Option Nat :=
  if f < 4 then (if s.linkPresent f then some f else none) else s.vfParent f

/-- The host link of function f; link 0 for a function that does not exist. -/
def State.fnLink (s : State) (f : Nat) : Nat := (s.fnLink? f).getD 0

/-- Whether function f exists (R411). -/
def State.fnExists (s : State) (f : Nat) : Bool := (s.fnLink? f).isSome

/-- Base of the function's own registers (R414): the HIF window for the owner. -/
def State.fnBase (s : State) (f : Nat) : Nat := if f = s.owner then wHif else wFn f

/-- A link's record. -/
def State.link (s : State) (j : Nat) : LinkSt := tabGet (fun _ => {}) s.host.links j

/-- A link's record replaced. -/
def State.setLink (s : State) (j : Nat) (l : LinkSt) : State :=
  { s with host := { s.host with links := tabSet (fun _ => {}) s.host.links j l } }

/-- A function's record. -/
def State.fn (s : State) (f : Nat) : FnSt := tabGet (fun _ => {}) s.host.fns f

/-- A function's record replaced. -/
def State.setFn (s : State) (f : Nat) (x : FnSt) : State :=
  { s with host := { s.host with fns := tabSet (fun _ => {}) s.host.fns f x } }

/-- The run-time queue quota of a function (R427): 511 for the owner and 0 for others until it is set. -/
def State.quota (s : State) (f : Nat) : Nat := (s.fn f).quota.getD (if f = s.owner then 511 else 0)

/-- Whether link j is in L0 (R420). -/
def State.inL0 (s : State) (j : Nat) : Bool := s.rdb (wHif + 16 * j) Reg.HIF_LINK_STATUS_L0

/-- The function that holds front port n (R427). -/
def State.portHolder (s : State) (n : Nat) : Nat :=
  (tabGet (fun _ => none) s.host.portOwner n).getD s.owner

/-- The function that holds meter m (R427). -/
def State.meterHolder (s : State) (m : Nat) : Nat :=
  (tabGet (fun _ => none) s.host.meterOwner m).getD s.owner

/-- The function that holds pool x (R427). -/
def State.poolHolder (s : State) (x : Nat) : Nat :=
  (tabGet (fun _ => none) s.host.poolOwner x).getD s.owner

/-- Whether n ns have passed since a time, if there is one. -/
def State.since (s : State) (t : Option Nat) (n : Nat) : Bool := t.all (fun t => decide (n ≤ s.clock.up - t))

/-- An emitted output. -/
def State.emit (s : State) (o : Output) : State := { s with out := o :: s.out }

/-! ### Device state (R33, R610, R611, R625) -/

/-- STATE of GLOBAL.DEV_STATE: 0 COLD, 1 FUSED, 2 BOOTED, 3 TRAINED, 4 READY, 5 SAFE (R640). -/
def State.devState (s : State) : Nat := s.rd wGlobal Reg.GLOBAL_DEV_STATE_STATE

end Sys2Proof.Machine
end

