-- ==== Sys2Proof/Machine/Report.lean ====
section
/-!
DEFINITION. What every block uses to report: MSI-X messages, EVENT rings, counters, Scribe records, fault registers
and the safe-state line (ch. 14, 15, 20, 21).
-/
namespace Sys2Proof.Machine

/-! ### MSI-X (R418 to R421) -/

/-- Whether a message of entry i of function f can be sent now: a link in L1 is brought back to L0 for it (R420). -/
def State.canSend (s : State) (f i : Nat) : Bool :=
  let x := s.fn f
  x.msixEn && x.bme && !x.fnMask && decide (s.reg (s.fnBase f + 0x4000 + 16 * i + 12) % 2 = 0) &&
    (s.inL0 (s.fnLink f) || (s.link (s.fnLink f)).l1)

/-- Pending bit of entry i (R414). -/
def State.msixPending (s : State) (f i : Nat) : Bool :=
  (s.reg (s.fnBase f + 0x7000 + 4 * (i / 32))).testBit (i % 32)

/-- The pending bit of entry i set or cleared. -/
def State.setPendingBit (s : State) (f i : Nat) (b : Bool) : State :=
  let a := s.fnBase f + 0x7000 + 4 * (i / 32)
  s.setReg a (setBits (s.reg a) (i % 32) (i % 32) (b2n b))

/-- Device vector levels (R419). -/
def State.devVector (s : State) (d : Nat) : Bool := s.host.devVec.testBit d

/-- INT_N is asserted (R421). -/
def State.intN (s : State) : Bool :=
  let o := s.owner
  let x := s.fn o
  let blocked := !s.inL0 o || !x.msixEn || !x.bme || x.fnMask
  decide (s.devState = 5) ||
    (decide (s.host.devVec &&& s.rd wHif Reg.HIF_PIN_EN ≠ 0) &&
      (s.rdb wHif Reg.HIF_PIN_PIN_ALL || blocked))

/-- INT_ASSERTED brought up to date with R421. -/
def State.updateInt (s : State) : State := s.wr wHif Reg.HIF_PIN_INT_ASSERTED (b2n s.intN)

/-! ### Gauge counters (R573 to R582) -/

/-- Value of slot x of a counter page (R573). -/
def State.slot (s : State) (page x : Nat) : Nat := tabGet (fun _ => 0) s.gauge.slots (512 * page + x)

/-- A slot replaced. -/
def State.setSlot (s : State) (page x v : Nat) : State :=
  { s with gauge := { s.gauge with slots := tabSet (fun _ => 0) s.gauge.slots (512 * page + x) (v % 2 ^ 48) } }

/-- Slot x of a page raised by n in the management-clock cycle now running (R575): what this cycle has added is kept,
for a clear in the same cycle leaves it. -/
def State.addSlot (s : State) (page x n : Nat) : State :=
  let c := s.clock.up / 10
  let fresh := if s.gauge.cycle = c then s.gauge.fresh else []
  let k := 512 * page + x
  (({ s with gauge := { s.gauge with cycle := c, fresh := tabSet (fun _ => 0) fresh k (tabGet (fun _ => 0) fresh k + n) } }).setSlot
    page x (s.slot page x + n))

/-- Rate and time slots, which are never cleared (R575 to R577). -/
def fixedSlot (page x : Nat) : Bool :=
  decide ((page ≤ 140 ∧ (x = 128 ∨ x = 129)) ∨ (page = 150 ∧ 1 ≤ x ∧ x ≤ 3) ∨ (page = 152 ∧ x ≤ 3) ∨
    (153 ≤ page ∧ page ≤ 156 ∧ x = 65))

/-- The event counters of a page cleared: each is left at what the running cycle has added (R575). -/
def State.clearPage (s : State) (page : Nat) : State :=
  let fresh := if s.gauge.cycle = s.clock.up / 10 then s.gauge.fresh else []
  let hit (e : Nat × Nat) : Bool := decide (e.1 / 512 = page) && !fixedSlot page (e.1 % 512)
  let left (k : Nat) : Nat := tabGet (fun _ => 0) fresh k % 2 ^ 48
  let kept := s.gauge.slots.filter (fun e => !(hit e && decide (left e.1 = 0)))
  { s with gauge := { s.gauge with slots := kept.map (fun e => if hit e then (e.1, left e.1) else e) } }

/-- Page and slot of programmable counter k (R576, R579). -/
def pcPage (k : Nat) : Nat := if k < 512 then 192 + k / 64 else 200
def pcSlot (k : Nat) : Nat := if k < 512 then k % 64 else k - 512

/-- Base of the registers of programmable counter k. -/
def pcBase (k : Nat) : Nat := wGauge + 16 * k

/-- The programmable counters that are armed (R579), read from the registers listed. -/
def State.armed (s : State) : List Nat :=
  s.regs.filterMap (fun e =>
    if wGauge + 0x1000 ≤ e.1 ∧ e.1 < wGauge + 0x1000 + 16 * 576 ∧ e.1 % 16 = 0 ∧ e.2.toNat.testBit 31
    then some ((e.1 - (wGauge + 0x1000)) / 16) else none)

/-- Open sample marks of a pipeline (R582). -/
def State.marks (s : State) (p : Nat) : List SampleMark := tabGet (fun _ => []) s.gauge.marks p
def State.setMarks (s : State) (p : Nat) (l : List SampleMark) : State :=
  { s with gauge := { s.gauge with marks := tabSet (fun _ => []) s.gauge.marks p l } }

/-- Counter k overflows with SAMPLE 1 (R582): one packet is marked, or the mark is dropped and counted. -/
def State.markSample (s : State) (k : Nat) (m : SampleMark) : State :=
  let p := k / 64
  if (s.marks p).any (fun x => decide (x.ctr = k % 64)) then
    s.incSat (wGauge + 4 * p) Reg.GAUGE_SAMPLE_SAMPLES_LOST 1
  else s.setMarks p (s.marks p ++ [{ m with ctr := k % 64 }])

/-! ### Sending messages -/

/-- What a report does when a message of a function is withheld because its Bus Master Enable is 0: source 3 of the
function (R422).
Reports take it as an argument, since raising that source is itself a report. -/
abbrev Withheld := Nat → State → State

/-- A link in L1 is brought back to L0 (R420). -/
def State.leaveL1 (s : State) (j : Nat) : State :=
  if (s.link j).l1 then
    ((s.setLink j { s.link j with l1 := false }).wr (wHif + 16 * j) Reg.HIF_LINK_STATUS_L0 1).updateInt
  else s

/-- The message of entry i of function f goes out on its link (R420). -/
def State.sendMessage (s : State) (f i : Nat) : State := (s.leaveL1 (s.fnLink f)).emit (.msix f i)

/-- Message of entry i of function f: sent, or held with its pending bit set; a message already pending adds none
(R420). -/
def State.messageW (wh : Withheld) (s : State) (f i : Nat) : State :=
  if s.msixPending f i then s
  else if s.canSend f i then s.sendMessage f i
  else
    let s1 := s.setPendingBit f i true
    let x := s.fn f
    if x.msixEn && !x.bme && !x.fnMask && decide (s.reg (s.fnBase f + 0x4000 + 16 * i + 12) % 2 = 0) then wh f s1
    else s1

/-! ### Fault windows (R601 to R608) -/

/-- Number of the kind of a window, the order of R607's table. -/
def winKind : FWin → Nat
  | .glob => 0 | .hif => 1 | .qmgr => 2 | .peg => 3 | .purlin => 4 | .port _ => 5 | .pipe _ => 6 | .ridge => 7
  | .esch => 8 | .joist => 9 | .thyme => 10 | .dmc _ => 11 | .mint => 12 | .gauge => 13 | .scribe => 14
  | .sec => 15 | .boot => 16 | .fn _ => 17

/-- Base of a window's fault registers less 0xF000 (R601). The keys of PORT[n] are the model's (log entry 10). -/
def State.winBase (s : State) : FWin → Nat
  | .glob => wGlobal | .hif => wHif | .qmgr => wQmgr | .peg => wPeg | .purlin => wPurlin
  | .port n => 0x1000000000 + 0x10000 * n.val
  | .pipe p => wPipe p.val | .ridge => wRidge | .esch => wEsch | .joist => wJoist | .thyme => wThyme
  | .dmc s' => wDmc s'.val | .mint => wMint | .gauge => wGauge | .scribe => wScribe | .sec => wSec
  | .boot => wBoot | .fn f => s.fnBase f.val

/-- Sources a window defines; the owner's function window is the HIF window (R422). -/
def State.winSources (s : State) (w : FWin) : Nat :=
  match w with
  | .fn f => if f.val = s.owner then srcMask 1 else srcMask 17
  | w => srcMask (winKind w)

/-- Block number of source i of a window (R19, R20, R607). -/
def winBlock (w : FWin) (i : Nat) : Nat :=
  match w with
  | .glob => 0 | .hif => 1 | .qmgr => 2 | .peg => 3 | .purlin => 4 | .port _ => 5
  | .pipe _ => if i ≤ 2 then 6 else if i ≤ 4 then 7 else if i ≤ 8 then 10 else 8
  | .ridge => 0xB | .esch => 0xC | .joist => 0xD | .thyme => 0xE | .dmc _ => 0xF | .mint => 0x10
  | .gauge => 0x11 | .scribe => 0x12 | .sec => 0x13 | .boot => 0x14 | .fn _ => 1

/-- Instance of a window, as SOURCE of R590. -/
def State.winInst (s : State) : FWin → Nat
  | .port n => n.val
  | .pipe p => p.val
  | .dmc s' => s'.val
  | .fn f => s.fnLink f.val
  | _ => 0

/-- Device vector of a window (R419); none for a function window, which uses MSI-X entry 0. -/
def State.winVec (s : State) : FWin → Option Nat
  | .glob => some 0 | .hif => some 1 | .qmgr => some 2 | .peg => some 3 | .purlin => some 4
  | .port n => some (26 + n.val / 16)
  | .pipe p => some (5 + p.val) | .ridge => some 13 | .esch => some 14 | .joist => some 15 | .thyme => some 16
  | .dmc s' => some (17 + s'.val) | .mint => some 21 | .gauge => some 22 | .scribe => some 23 | .sec => some 24
  | .boot => some 25
  | .fn f => if f.val = s.owner then some 1 else none

/-- Whether a window asserts its interrupt (R604). -/
def State.winActive (s : State) (w : FWin) : Bool :=
  let b := s.winBase w
  decide ((s.rd b Reg.FLT_STATUS_STATUS) &&& (2 ^ 32 - 1 - s.rd b Reg.FLT_MASK_MASK) ≠ 0)

/-- A device vector's level set; a rise sends one message on entry 512 + d of the owner (R419, R420). -/
def State.setVectorW (wh : Withheld) (s : State) (d : Nat) (level : Bool) : State :=
  let old := s.devVector d
  let s1 := { s with host := { s.host with devVec := setBits s.host.devVec d d (b2n level) } }
  (if level && !old then s1.messageW wh s.owner (512 + d) else s1).updateInt

/-- Windows of the ports that share a device vector (R419). -/
def portGroup (n : Nat) : List Nat := rangeFrom (16 * (n / 16)) 16

/-- A window's interrupt brought up to date (R604). -/
def State.updateWinW (wh : Withheld) (s : State) (w : FWin) : State :=
  match s.winVec w, w with
  | some d, .port n =>
    s.setVectorW wh d ((portGroup n.val).any (fun m => if h : m < 128 then s.winActive (.port ⟨m, h⟩) else false))
  | some d, w => s.setVectorW wh d (s.winActive w)
  | none, .fn f =>
    let old := tabGet (fun _ => false) s.host.fnIntr f.val
    let now := s.winActive w
    let s1 := { s with host := { s.host with fnIntr := tabSet (fun _ => false) s.host.fnIntr f.val now } }
    if now && !old then s1.messageW wh f.val 0 else s1
  | none, _ => s

/-! ### EVENT rings (R452 to R454, R457) -/

/-- A queue's record, and the same replaced. -/
def State.queue (s : State) (q : Nat) : Queue := tabGet (fun _ => {}) s.host.queues q
def State.setQueue (s : State) (q : Nat) (x : Queue) : State :=
  { s with host := { s.host with queues := tabSet (fun _ => {}) s.host.queues q x } }

/-- The global number of queue index i of function f (R435): f itself for index 0. -/
def State.findQ (s : State) (f i : Nat) : Option Nat :=
  if i = 0 then (if (s.queue f).st = .absent then none else some f)
  else (s.host.queues.find? (fun e => decide (256 ≤ e.1 ∧ e.2.fn = f ∧ e.2.idx = i ∧ e.2.st ≠ .absent))).map (·.1)

/-- The write-back block of a PUNT or EVENT queue written (R453). -/
def State.writeBack (s : State) (q : Nat) : State :=
  let x := s.queue q
  s.hostWr (s.fnLink x.fn) x.wb (leBytes 2 x.tail ++ [0, 0] ++ leBytes 4 x.lost)

/-- The vector of queue q asserted: the count and the timer of R452 start again. -/
def State.signalW (wh : Withheld) (s : State) (q : Nat) : State :=
  (s.setQueue q { s.queue q with unsig := 0 }).messageW wh (s.queue q).fn (s.queue q).idx

/-- An entry of queue q counted toward its vector (R452); `force` for an INTR job or a notice. -/
def State.coalesceW (wh : Withheld) (s : State) (q : Nat) (force : Bool) : State :=
  let x := s.queue q
  let s1 := s.setQueue q { x with unsig := x.unsig + 1 }
  if force || decide (x.coalUs = 0) || decide (x.coalCount ≤ x.unsig + 1) then s1.signalW wh q else s1

/-- Whether a device-written ring is full (R454). -/
def Queue.full (x : Queue) : Bool := decide ((x.tail + 1) % x.size = x.head)

/-- A record posted to an EVENT queue: written, or lost and counted (R454, R457, R462). -/
def State.postEventW (wh : Withheld) (s : State) (q : Nat) (r : List Byte) : State :=
  let x := s.queue q
  if x.typ ≠ .event then s
  else if x.st = .active ∧ x.full = false then
    let s1 := s.hostWr (s.fnLink x.fn) (x.base + 32 * x.tail) (padTo 32 r)
    let s2 := s1.setQueue q { x with tail := (x.tail + 1) % x.size }
    (s2.writeBack q).coalesceW wh q false
  else if x.st = .absent ∨ x.st = .stopping then s
  else s.setQueue q { x with lost := (x.lost + 1) % 2 ^ 32 }

/-! ### Counting -/

/-- Programmable counter k raised by n (R579, R581): it reloads PRESET as it passes 2^48 - 1, and each time that n does so
again its mark is dropped (R582). An increment of the management-clock cycle in which GAUGE_PC_SET armed the counter is
lost. -/
def State.pcAddW (wh : Withheld) (s : State) (k n : Nat) (m : SampleMark) : State :=
  let v := s.slot (pcPage k) (pcSlot k) + n
  if s.gauge.armedAt = some (s.clock.up / 10) ∧ s.gauge.armedNow.contains k then s
  else if v < 2 ^ 48 then s.addSlot (pcPage k) (pcSlot k) n
  else
    let b := pcBase k
    let preset := s.rd b Reg.GAUGE_PRESET
    let again := (v - 2 ^ 48) / (2 ^ 48 - preset)
    let s1 := (s.addSlot (pcPage k) (pcSlot k) n).setSlot (pcPage k) (pcSlot k)
      (preset + (v - 2 ^ 48) % (2 ^ 48 - preset))
    let o := wGauge + 0x100 + 4 * (k / 32)
    let s2 := (s1.setReg o (setBits (s1.reg o) (k % 32) (k % 32) 1)).noteSet o (2 ^ (k % 32))
    let s3 := if s2.rdb b Reg.GAUGE_PC_A_INTR then s2.setVectorW wh 35 true else s2
    if s3.rdb b Reg.GAUGE_PC_A_SAMPLE && decide (k < 512) then
      (s3.markSample k m).incSat (wGauge + 4 * (k / 64)) Reg.GAUGE_SAMPLE_SAMPLES_LOST again
    else s3

/-- Slot x of a page raised by n, with the programmable counters that count it (R575, R579). -/
def State.countW (wh : Withheld) (s : State) (page x n : Nat) : State :=
  let s1 := s.addSlot page x n
  forEach (s1.armed.filter (fun k => decide (s1.rd (pcBase k) Reg.GAUGE_PC_A_SRC = 0 ∧
    s1.rd (pcBase k) Reg.GAUGE_PC_A_SEL = 512 * page + x))) (fun k s => s.pcAddW wh k n {}) s1

/-- An event of R580, n times: `scope` tells a pipeline's counters (some p) from the global ones, `pass` reads FILTER. -/
def State.pcEventW (wh : Withheld) (s : State) (scope : Option Nat) (sel n : Nat) (pass : Nat → Bool) (m : SampleMark) : State :=
  forEach (s.armed.filter (fun k => decide (s.rd (pcBase k) Reg.GAUGE_PC_A_SRC = 1 ∧
      s.rd (pcBase k) Reg.GAUGE_PC_A_SEL = sel) &&
      (match scope with
       | some p => decide (k / 64 = p ∧ k < 512)
       | none => decide (512 ≤ k)) &&
      pass (s.rd (pcBase k) Reg.GAUGE_PC_B_FILTER)))
    (fun k s => s.pcAddW wh k n m) s

/-- A counter of port n's page (R577). -/
def State.portCountW (wh : Withheld) (s : State) (n x k : Nat) : State := if n ≤ 140 then s.countW wh n x k else s

/-- A counter of pipeline p's page (R578). -/
def State.pipeCountW (wh : Withheld) (s : State) (p x k : Nat) : State := s.countW wh (141 + p) x k

/-! ### Scribe (R590 to R597) -/

/-- A recorder. -/
def State.recorder (s : State) (r : Nat) : Recorder := tabGet (fun _ => {}) s.scribe.recs r
def State.setRecorder (s : State) (r : Nat) (x : Recorder) : State :=
  { s with scribe := { s.scribe with recs := tabSet (fun _ => {}) s.scribe.recs r x } }

/-- Records a recorder's log holds (R591). -/
def recorderSize (r : Nat) : Nat := if r = 0 then 32768 else 2048

/-- Base of a recorder's registers. -/
def recBase (r : Nat) : Nat := wScribe + 16 * r

/-- The recorder that takes an event (R591): DUP_DEVICE, 0x0D21, goes by its port, the events of blocks 0x06 to 0x0A
by their pipeline. -/
def recorderOf (code source p0 : Nat) : Nat :=
  if code = 0x0A23 then 0
  else if 6 ≤ code / 256 ∧ code / 256 ≤ 10 then 1 + source else if code = 0x0D21 then 1 + p0 / 16 else 0

/-- Rate entry of an event code (R594). -/
def rateEntry (code : Nat) : Option Nat :=
  if code = 0x0D21 then some 40
  else if 6 ≤ code / 256 ∧ code / 256 ≤ 10 ∧ 0x20 ≤ code % 256 ∧ code % 256 ≤ 0x27 then
    some (8 * (code / 256 - 6) + (code % 256 - 0x20))
  else none

/-- The 32 bytes of a record (R590); `update` is set in a repost (R597). -/
def Rec.bytes (r : Rec) (update : Bool) : List Byte :=
  leBytes 4 (if r.lost then 0xFFFFFFFF else r.seq) ++ leBytes 8 (r.ns + (r.sec % 2 ^ 34) * 2 ^ 30) ++ leBytes 2 r.code ++
    leBytes 2 (r.source % 2 ^ 15 + b2n r.firmware * 2 ^ 15) ++ leBytes 2 r.rep ++
    leBytes 2 (b2n r.suppressed + 2 * b2n update) ++ leBytes 4 r.p0 ++ leBytes 4 r.p1 ++ leBytes 4 r.p2

/-- The sequence number after n (R591): 0 and 0xFFFF_FFFF are skipped. -/
def nextSeqNo (n : Nat) : Nat := if 0xFFFFFFFE ≤ n then 1 else n + 1

/-- A record posted to the recorder's mirror queue (R597), if it names one. -/
def State.mirrorPostW (wh : Withheld) (s : State) (r : Nat) (x : Rec) (update : Bool) : State :=
  if s.rdb (recBase r) Reg.SCRIBE_REC_A_MIRROR_EN then
    match s.findQ s.owner (s.rd (recBase r) Reg.SCRIBE_REC_D_MIRROR_Q) with
    | some q =>
      let y := s.queue q
      let s1 := s.postEventW wh q (x.bytes update)
      if y.typ = .event ∧ y.st = .active ∧ y.full = false then s1.countW wh 157 31 32 else s1
    | none => s
  else s

/-- A folded record reposted with UPDATE 1 (R597): `timed` keeps it to one in 100 ms. -/
def State.mirrorRepostW (wh : Withheld) (s : State) (r : Nat) (timed : Bool) : State :=
  let x := s.recorder r
  match x.folded with
  | some e =>
    if timed && !s.since x.repostAt (10 ^ 8) then s
    else (s.setRecorder r { x with folded := none, repostAt := some s.clock.up }).mirrorPostW wh r e true
  | none => s

/-- Whether recorder r holds at least its WATERMARK of records (R595). -/
def State.atWatermark (s : State) (r : Nat) : Bool :=
  decide (s.rd (recBase r) Reg.SCRIBE_REC_D_WATERMARK ≤ s.rd (recBase r) Reg.SCRIBE_REC_A_NEXT)

/-- The rise of the device vector of recorder r when its log reaches its WATERMARK (R595). -/
def State.scribeRiseW (wh : Withheld) (s : State) (r : Nat) : State :=
  if s.atWatermark r then s.setVectorW wh (if r = 0 then 37 else 38) true else s

/-- A new record at the next slot of recorder r (R593 case 4).
Its time is the counter's at the grant, so that after a backward STEP or SET it lies below that of earlier records
(DESIGN CHOICE between R40's two sentences: log entry 188). -/
def State.newRecordW (wh : Withheld) (s : State) (r : Nat) (x : Rec) : State :=
  let s1 := s.mirrorRepostW wh r false
  let b := recBase r
  let y := s1.recorder r
  let rec_ := { x with seq := s1.rd b Reg.SCRIBE_REC_C_NEXT_SEQ, ns := s1.clock.ns, sec := s1.clock.sec % 2 ^ 34,
                       suppressed := (match rateEntry x.code with
                         | some e => decide (r ≠ 0) && tabGet (fun _ => false) y.supNext e
                         | none => false) }
  let y1 := { y with log := rec_ :: y.log, posted := if s1.rdb b Reg.SCRIBE_REC_A_MIRROR_EN then rec_.seq else y.posted }
  let y2 := match rateEntry x.code with
    | some e => { y1 with supNext := tabSet (fun _ => false) y.supNext e false,
                          rate := tabSet (fun _ => 0) y.rate e (tabGet (fun _ => 0) y.rate e + 1) }
    | none => y1
  let s2 := (s1.setRecorder r y2).wr b Reg.SCRIBE_REC_C_NEXT_SEQ (nextSeqNo rec_.seq)
  let s3 := s2.inc b Reg.SCRIBE_REC_A_NEXT 1
  let s4 := (s3.mirrorPostW wh r rec_ false).scribeRiseW wh r
  if y2.log.length = recorderSize r then
    let s5 := s4.wr b Reg.SCRIBE_REC_A_FULL 1
    s5.messageW wh s5.owner (512 + if r = 0 then 37 else 38)
  else s4

/-- Cases 3 and 4 of R593: lost when the log is full, else a new record. -/
def State.recordFitW (wh : Withheld) (s : State) (r : Nat) (x : Rec) : State :=
  if recorderSize r ≤ (s.recorder r).log.length then s.incSat (recBase r) Reg.SCRIBE_REC_B_LOST 1
  else s.newRecordW wh r x

/-- Cases 2 to 4 of R593: the rate limit of R594 in a pipeline recorder, then the room in the log. -/
def State.recordNewW (wh : Withheld) (s : State) (r : Nat) (x : Rec) : State :=
  match (if r = 0 then none else rateEntry x.code) with
  | some e =>
    let y := s.recorder r
    if s.rd (wScribe + 4 * e) Reg.SCRIBE_RATE_LIMIT ≤ tabGet (fun _ => 0) y.rate e then
      (s.setRecorder r { y with supNext := tabSet (fun _ => false) y.supNext e true }).inc
        (wScribe + 4 * e) Reg.SCRIBE_RATE_SUPPRESSED 1
    else s.recordFitW wh r x
  | none => s.recordFitW wh r x

/-- Whether an event folds into a record (R593 case 1). -/
def Rec.folds (e x : Rec) : Bool :=
  decide (e.code = x.code ∧ e.source = x.source ∧ e.firmware = x.firmware ∧ e.p0 = x.p0 ∧ e.p1 = x.p1 ∧
    e.p2 = x.p2 ∧ e.rep < 65535)

/-- An event at a recorder's arbiter (R593): folded, suppressed, lost or recorded. -/
def State.recordAtW (wh : Withheld) (s : State) (r : Nat) (x : Rec) : State :=
  let y := s.recorder r
  match y.log with
  | e :: t =>
    let e1 := { e with rep := e.rep + 1 }
    if e.folds x then s.setRecorder r { y with log := e1 :: t, folded := if y.posted = e.seq then some e1 else none }
    else s.recordNewW wh r x
  | [] => s.recordNewW wh r x

/-- An event is recorded (R590, R591); when a pipeline's log becomes full the central recorder records LOG_FULL
(R595). -/
def State.eventW (wh : Withheld) (s : State) (x : Rec) : State :=
  let r := recorderOf x.code x.source x.p0
  let s1 := s.recordAtW wh r x
  if r ≠ 0 ∧ (s.recorder r).log.length < recorderSize r ∧ (s1.recorder r).log.length = recorderSize r then
    s1.recordAtW wh 0 { code := 0x1220, p0 := r, p1 := s1.rd (recBase r) Reg.SCRIBE_REC_C_NEXT_SEQ }
  else s1

/-! ### Faults and the safe-state line (R602 to R610) -/

/-- The safe-state line is raised (R609, R610 steps 1 and 2): the first cause is recorded while SAFE is 0; a second
cause of the same episode changes nothing. -/
def State.raiseSafe (s : State) (kind block inst src : Nat) : State :=
  if s.dev.safeLine then s
  else
    let s1 := { s with dev := { s.dev with safeLine := true, safeKind := kind, safeBlock := block * 256 + inst, safeSrc := src } }
    if s1.rdb wGlobal Reg.GLOBAL_SAFE_CAUSE_SAFE then s1
    else
      let s2 := (s1.setReg (wGlobal + 0x10) (2 ^ 31 + kind * 2 ^ 29 + block * 2 ^ 21 + inst * 2 ^ 13 + src * 2 ^ 8)).noteSet
        (wGlobal + 0x10) (2 ^ 31)
      (s2.wr wGlobal Reg.GLOBAL_SAFE_NS_NS s.clock.ns).wr wGlobal Reg.GLOBAL_SAFE_SEC s.clock.sec

/-- The sources of a mask, lowest first. -/
def srcList (mask : Nat) : List Nat := (rangeFrom 0 32).filter (fun i => mask.testBit i)

/-- The source captured first (R603): highest severity, then lowest number. -/
def firstSource (sev : Nat → Nat) : List Nat → Nat
  | [] => 0
  | i :: t => t.foldl (fun b j => if sev b < sev j then j else b) i

/-- Event FAULT_RAISED (R605). -/
def faultRecord (w : FWin) (inst i sev info : Nat) (injected : Bool) : Rec :=
  { code := winBlock w i * 256 + 0xF0, source := inst, p0 := i + 256 * sev + 65536 * b2n injected,
    p1 := info % 2 ^ 32 }

/-- Sources of a window occur in one cycle, each with its own detail (R602 to R605, R609). -/
def State.faultsW (wh : Withheld) (s : State) (w : FWin) (mask : Nat) (info : Nat → Nat) (injected : Bool) : State :=
  let b := s.winBase w
  let occ := mask &&& s.winSources w
  let old := s.rd b Reg.FLT_STATUS_STATUS
  let new := srcList (occ - (occ &&& old))
  let sev (i : Nat) : Nat := s.rd b (Reg.FLT_SEV_I i)
  let s1 := ((s.wr b Reg.FLT_STATUS_STATUS (old ||| occ)).noteSet (b + 0xF000) occ).noteSet (b + 0xF004) occ
  let s2 := s1.incSat b Reg.FLT_COUNT_COUNT new.length
  let s3 :=
    if new = [] ∨ s.rdb b Reg.FLT_FIRST_VALID then s2
    else
      let i := firstSource sev new
      let x := (s2.setReg (b + 0xF014)
        (2 ^ 31 + b2n injected * 2 ^ 30 + b2n (decide (2 ≤ new.length)) * 2 ^ 29 + sev i * 2 ^ 27 + i)).noteSet
          (b + 0xF014) (2 ^ 31)
      ((x.wr b Reg.FLT_FIRST_NS_NS s.clock.ns).wr b Reg.FLT_FIRST_SEC s.clock.sec).wr b Reg.FLT_FIRST_INFO_INFO (info i)
  let s4 := forEach new (fun i x => x.eventW wh (faultRecord w (s.winInst w) i (sev i) (info i) injected)) s3
  let s5 := s4.updateWinW wh w
  match (srcList occ).filter (fun i => decide (sev i = 3)) with
  | i :: _ => s5.raiseSafe 0 (winBlock w i) (s.winInst w) i
  | [] => s5

/-- Withheld messages set source 3 of their function (R422); a message withheld by that report does so once more, and
at the third level the bit is set already. -/
def wh0 : Withheld := fun _ s => s
def wh1 : Withheld := fun f s => if h : f < 256 then s.faultsW wh0 (.fn ⟨f, h⟩) 8 (fun _ => 0) false else s
def wh2 : Withheld := fun f s => if h : f < 256 then s.faultsW wh1 (.fn ⟨f, h⟩) 8 (fun _ => 0) false else s

/-! ### The reports that the blocks use -/

/-- Message of entry i of function f (R420). -/
def State.message (s : State) (f i : Nat) : State := s.messageW wh2 f i
/-- A device vector's level (R419). -/
def State.setVector (s : State) (d : Nat) (level : Bool) : State := s.setVectorW wh2 d level
/-- A window's interrupt brought up to date (R604). -/
def State.updateWin (s : State) (w : FWin) : State := s.updateWinW wh2 w
/-- A record posted to an EVENT queue (R454). -/
def State.postEvent (s : State) (q : Nat) (r : List Byte) : State := s.postEventW wh2 q r
/-- An entry counted toward a queue's vector (R452). -/
def State.coalesce (s : State) (q : Nat) (force : Bool) : State := s.coalesceW wh2 q force
/-- A queue's vector asserted (R452). -/
def State.signal (s : State) (q : Nat) : State := s.signalW wh2 q
/-- Slot x of a counter page raised by n (R575). -/
def State.count (s : State) (page x n : Nat) : State := s.countW wh2 page x n
/-- A counter of port n's page raised (R577). -/
def State.portCount (s : State) (n x k : Nat) : State := s.portCountW wh2 n x k
/-- A counter of pipeline p's page raised (R578). -/
def State.pipeCount (s : State) (p x k : Nat) : State := s.pipeCountW wh2 p x k
/-- An event of R580 counted by the programmable counters. -/
def State.pcEvent (s : State) (scope : Option Nat) (sel n : Nat) (pass : Nat → Bool) (m : SampleMark) : State :=
  s.pcEventW wh2 scope sel n pass m
/-- An event recorded (R590). -/
def State.event (s : State) (code source p0 p1 p2 : Nat) : State :=
  s.eventW wh2 { code := code, source := source, p0 := p0 % 2 ^ 32, p1 := p1 % 2 ^ 32, p2 := p2 % 2 ^ 32 }
/-- An event recorded by the firmware of a service engine (R244, R590). -/
def State.eventFw (s : State) (code source p0 p1 p2 : Nat) : State :=
  s.eventW wh2 { code := code, source := source, firmware := true, p0 := p0 % 2 ^ 32, p1 := p1 % 2 ^ 32, p2 := p2 % 2 ^ 32 }
/-- One source of a window occurs (R602). -/
def State.fault (s : State) (w : FWin) (i info : Nat) : State := s.faultsW wh2 w (2 ^ i) (fun _ => info) false
/-- A window for a port number, a pipeline, a stack or a function that exists. -/
def State.faultPort (s : State) (n i info : Nat) : State :=
  if h : n < 128 then s.fault (.port ⟨n, h⟩) i info else s
def State.faultPipe (s : State) (p i info : Nat) : State :=
  if h : p < 8 then s.fault (.pipe ⟨p, h⟩) i info else s
def State.faultDmc (s : State) (x i info : Nat) : State :=
  if h : x < 4 then s.fault (.dmc ⟨x, h⟩) i info else s
def State.faultFn (s : State) (f i info : Nat) : State :=
  if h : f < 256 then s.fault (.fn ⟨f, h⟩) i info else s

/-- LIVE of source i follows its condition (R602); a condition that begins is an occurrence, and LIVE of one that ends in
the same cycle reads 0. -/
def State.faultLevel (s : State) (w : FWin) (i info : Nat) (level : Bool) : State :=
  let b := s.winBase w
  let was := s.rdb b (Reg.FLT_LIVE_I i)
  let s1 := s.wr b (Reg.FLT_LIVE_I i) (b2n level)
  if level && !was then s1.fault w i info
  else if level then s1
  else s1.setFresh (b + 0xF004) (setBits (s1.justSet (b + 0xF004)) i i 0)
def State.levelPort (s : State) (n i info : Nat) (on : Bool) : State :=
  if h : n < 128 then s.faultLevel (.port ⟨n, h⟩) i info on else s

end Sys2Proof.Machine
end

