-- ==== Sys2Proof/Machine/Jobs.lean ====
section
/-!
DEFINITION. Jobs: which queue accepts an opcode, how a job is taken and completed, and the gates that every admin
command passes (ch. 15, 21, 22).
-/
namespace Sys2Proof.Machine

/-! ### Types and opcodes (R434, R466) -/

/-- Code of a queue type (R434). -/
def QType.code : QType → Nat
  | .admin => 0 | .inject => 1 | .punt => 2 | .update => 3 | .search => 4 | .dma => 5 | .event => 6
  | .completion => 7

/-- Queue type of a code; codes above 7 do not occur in a 3-bit field. -/
def qtypeOf (c : Nat) : QType :=
  match c with
  | 1 => .inject | 2 => .punt | 3 => .update | 4 => .search | 5 => .dma | 6 => .event | 7 => .completion
  | _ => .admin

/-- Code of a queue state (R464). -/
def QState.code : QState → Nat
  | .absent => 0 | .active => 1 | .error => 2 | .stopping => 3

/-- Whether the host writes the ring (R434). -/
def QType.submission : QType → Bool
  | .admin | .inject | .update | .search | .dma => true
  | .punt | .event | .completion => false

/-- Whether a queue of a type accepts an opcode (R434, R466, R467, R180, R128, R498 and the chapters' BAD_OPCODE
ranges). -/
def accepts (t : QType) (op : Nat) : Bool :=
  match t with
  | .inject => decide (op = 0x0A)
  | .update => decide (0x40 ≤ op ∧ op ≤ 0x46)
  | .search => decide (op = 0x4B)
  | .dma => decide (op = 0x78)
  | .admin =>
    decide ((1 ≤ op ∧ op ≤ 4) ∨ (0x10 ≤ op ∧ op ≤ 0x13) ∨ (0x20 ≤ op ∧ op ≤ 0x2A) ∨ (0x30 ≤ op ∧ op ≤ 0x32) ∨
      (0x38 ≤ op ∧ op ≤ 0x3D) ∨ (0x47 ≤ op ∧ op ≤ 0x4A) ∨ (0x4C ≤ op ∧ op ≤ 0x5D) ∨ (0x60 ≤ op ∧ op ≤ 0x63) ∨
      (0x68 ≤ op ∧ op ≤ 0x76) ∨ (0x79 ≤ op ∧ op ≤ 0x7B) ∨ (0x80 ≤ op ∧ op ≤ 0x84) ∨ (0x88 ≤ op ∧ op ≤ 0x8C) ∨
      (0x90 ≤ op ∧ op ≤ 0x94) ∨ (0x98 ≤ op ∧ op ≤ 0x9C) ∨ (0xA0 ≤ op ∧ op ≤ 0xA6))
  | _ => false

/-- Admin opcodes that run in BOOTED and TRAINED (R638). -/
def runsEarly (op : Nat) : Bool :=
  decide ((1 ≤ op ∧ op ≤ 0x1F) ∨ (0x68 ≤ op ∧ op ≤ 0x6F) ∨ (0x80 ≤ op ∧ op ≤ 0x8F) ∨ (0x90 ≤ op ∧ op ≤ 0x9F) ∨
    (0xA0 ≤ op ∧ op ≤ 0xAF))

/-! ### Jobs in flight -/

/-- Whether a job is in flight: fetched, and its completion not yet written. -/
def State.inFlight (s : State) (j : Job) : Bool := (s.queue j.q).jobs.contains j

/-- Whether a job waits to be taken by its block. -/
def State.jobReady (s : State) (j : Job) : Bool := s.inFlight j && !(s.host.started.contains (j.q, j.seq))

/-- Whether a job's completion has been reported to QMGR. -/
def State.reported (s : State) (j : Job) : Bool := s.host.done.any (fun d => decide (d.q = j.q ∧ d.seq = j.seq))

/-- Whether a job is the oldest of its queue whose completion has not been reported. -/
def State.oldestJob (s : State) (j : Job) : Bool := ((s.queue j.q).jobs.find? (fun x => !s.reported x)) = some j

/-- Whether every earlier job of the same queue with an opcode from lo to hi has reported its completion: the commands of
a block that take effect in the order in which their queue completes them (R98, R239, R451). -/
def State.inTurn (s : State) (j : Job) (lo hi : Nat) : Bool :=
  ((s.queue j.q).jobs.takeWhile (fun x => decide (x.seq ≠ j.seq))).all (fun x =>
    decide (x.opcode < lo ∨ hi < x.opcode) || s.reported x)

/-- A job taken by its block. -/
def State.startJob (s : State) (j : Job) : State :=
  { s with host := { s.host with started := (j.q, j.seq) :: s.host.started } }

/-- The function of a job's queue. -/
def State.jobFn (s : State) (j : Job) : Nat := (s.queue j.q).fn

/-- The host link a job's memory is reached through (R436). -/
def State.jobLink (s : State) (j : Job) : Nat := s.fnLink (s.jobFn j)

/-- A job's completion reported to QMGR (R445, R451): a job that a reset has discarded reports nothing. -/
def State.complete (s : State) (j : Job) (status : Nat) (result : List Byte) : State :=
  if s.inFlight j then
    { s with host := { s.host with
        started := if s.host.started.contains (j.q, j.seq) then s.host.started else (j.q, j.seq) :: s.host.started
        done := s.host.done ++ [{ q := j.q, seq := j.seq, tag := j.tag, status := status,
                                  result := padTo 7 result, sqHead := j.sqHead, intr := j.intr }] } }
  else s

/-- What a command's body answers: the state, and the status and result bytes 8 to 14 unless it completes later. -/
abbrev Answer := State × Option (Nat × List Byte)

/-- The command succeeds with no result. -/
def okA (s : State) : Answer := (s, some (St.SUCCESS, []))
/-- The command succeeds with result bytes from byte 8. -/
def okRes (s : State) (r : List Byte) : Answer := (s, some (St.SUCCESS, r))
/-- The command ends with a status. -/
def failA (s : State) (code : Nat) : Answer := (s, some (code, []))
/-- The command completes later. -/
def laterA (s : State) : Answer := (s, none)

/-- How a command is gated: its opcode, whether it is the owner function's alone, and whether SAFE refuses it. -/
structure Gate where
  op : Nat
  owner : Bool := true
  safe : Bool := false
  deriving DecidableEq, Repr

/-- The status with which the gates of every command turn a job away: NOT_READY, for every opcode outside the ranges of
R638, BAD_OPCODE (R434, R466), SAFE_STATE (R611), NOT_OWNER; none when it runs. -/
def State.gate (s : State) (g : Gate) (j : Job) : Option Nat :=
  if s.devState < 4 ∧ runsEarly j.opcode = false then some St.NOT_READY
  else if accepts (s.queue j.q).typ j.opcode = false then some St.BAD_OPCODE
  else if g.safe && s.dev.safeLine then some St.SAFE_STATE
  else if g.owner && decide (s.jobFn j ≠ s.owner) then some St.NOT_OWNER
  else none

/-- Purlin channel ch moves n bytes for the device (R494, R576): 28 the images of Truss, Tenon and Mortise, 30 the host
buffers of the other commands. A buffer is counted where its command reads it, whatever the command then answers. -/
def State.countMoved (s : State) (ch n : Nat) : State := s.count 157 ch n

/-- A job given to a command's body: it must be in flight, not taken before and carry the row's opcode, or nothing
happens (log entry 12). -/
def State.runJob (s : State) (g : Gate) (j : Job) (body : State → Answer) : State :=
  if s.jobReady j && decide (j.opcode = g.op) then
    let s1 := s.startJob j
    match s.gate g j with
    | some code => s1.complete j code []
    | none =>
      match body s1 with
      | (s2, some (code, r)) => s2.complete j code r
      | (s2, none) => s2
  else s

/-- A job row: the job is run through its gates (log entry 12). -/
def jobRow (g : Gate) (j : Job) (s : State) (body : Job → State → Answer) : Out := .next (s.runJob g j (body j))

/-! ### Checks that most commands make -/

/-- Bytes written to the job's host buffer, through its function's link (R436) and Purlin channel 30 (R494). -/
def State.jobWrite (s : State) (j : Job) (addr : Nat) (bs : List Byte) : State :=
  (s.hostWr (s.jobLink j) addr bs).countMoved 30 bs.length

/-- The registers from one offset of a window, as the bytes a query writes. -/
def State.regBytes (s : State) (a : Nat) : Nat → List Byte
  | 0 => []
  | n + 1 => leBytes 4 (s.reg a) ++ State.regBytes s (a + 4) n

/-! ### Stacked DRAM (R515 to R519, R542) -/

/-- Stack of a DMC address, and the offset within it (R516). -/
def stackOf (a : Nat) : Nat := a / 2 ^ 34 % 4
def stackOff (a : Nat) : Nat := a % 2 ^ 34

/-- STATE of a stack (R541): 0 UNTRAINED, 1 TRAINING, 2 ONLINE, 3 CHANGING, 4 HOT, 5 FAILED. -/
def State.stackState (s : State) (x : Nat) : Nat := s.rd (wDmc x) Reg.DMC_STATUS_STATE

/-- Whether a stack is offline (R542). -/
def State.stackOffline (s : State) (x : Nat) : Bool := decide (s.stackState x ≠ 2 ∧ s.stackState x ≠ 3)

/-- Whether any stack is offline (R169, R487). -/
def State.anyOffline (s : State) : Bool := (rangeFrom 0 4).any s.stackOffline

/-- Whether [a, a + n) meets [b, b + m). -/
def overlaps (a n b m : Nat) : Bool := decide (0 < n ∧ 0 < m ∧ a < b + m ∧ b < a + n)

/-- Spill area of a stack: base and size (R518). -/
def State.spillArea (s : State) (x : Nat) : Nat × Nat :=
  let n := s.rd (wDmc x) Reg.DMC_MAP_SPILL_GIB * 2 ^ 30
  ((x + 1) * 2 ^ 34 - n, n)

/-- Whether a DRAM extent meets the EM table or deep buffering (R475, R501). -/
def State.inReserved (s : State) (a n : Nat) : Bool :=
  (rangeFrom 0 4).any (fun x => overlaps a n (x * 2 ^ 34) (2 ^ 29) ||
    overlaps a n (s.spillArea x).1 (s.spillArea x).2)

/-- Tenon region of pipeline p: base and size in bytes (R227). -/
def State.region (s : State) (p : Nat) : Nat × Nat :=
  (s.rd (wPipe p) Reg.PIPE_REGION_BASE, s.rd (wPipe p) Reg.PIPE_TENON_CFG_REGION_SIZE * 2 ^ 20)

/-- Whether a DRAM extent meets a Tenon region. -/
def State.inRegion (s : State) (a n : Nat) : Bool :=
  (rangeFrom 0 8).any (fun p => overlaps a n (s.region p).1 (s.region p).2)

/-- A correlation tag (R613). -/
def corrTag (block inst ctr : Nat) : Nat := (block % 256) * 2 ^ 24 + (inst % 256) * 2 ^ 16 + ctr % 2 ^ 16

/-- The correlation tag of link j (R426, R613). -/
def State.linkTag (s : State) (j : Nat) : Nat := corrTag 1 j (s.rd (wHif + 16 * j) Reg.HIF_LINK_STATUS_RECOVERIES)

/-- A completion timer of a request of function f has fired (R425). The number of the request kind is not stated, and is
free. -/
def State.timeoutReport (s : State) (f tag : Nat) : State :=
  let j := s.fnLink f
  let d := s.draw 32
  ((d.2.event Ev.CPL_TIMEOUT j (j * 256 + f) d.1.toNat tag).faultFn f 0 tag).emit (.aer f)

/-! ### Queues in ERROR (R461, R462) -/

/-- Free slots of the completion ring of a queue record q, which is a COMPLETION queue, or an admin queue (R449). -/
def State.freeSlots (s : State) (q : Nat) : Nat :=
  let x := s.queue q
  if x.typ = .admin then x.csize - x.written - x.jobs.length
  else
    x.size - x.written - (s.host.queues.foldl (fun a e =>
      if e.2.typ.submission ∧ e.2.typ ≠ .admin ∧ e.2.fn = x.fn ∧ e.2.cq = x.idx ∧ e.2.st ≠ .absent
      then a + e.2.jobs.length else a) 0)

/-- The global number of the completion queue that serves a queue: itself for an admin queue (R448). -/
def State.cqOf (s : State) (q : Nat) : Option Nat :=
  let x := s.queue q
  if x.typ = .admin then some q else s.findQ x.fn x.cq

/-! ### Host accesses (R408, R413) -/

/-- A host access to a BAR of function f, at offset `off`: it reaches the device only where the function exists and its
Memory Space Enable is 1; where it is 0, the request is unsupported and function source 1 reports it (R408, R422). -/
def State.posted (s : State) (f off : Nat) (k : State → State) : State :=
  if s.devState = 0 ∨ s.fnExists f = false then s
  else if (s.fn f).mse = false then s.faultFn f 1 off
  else k s

end Sys2Proof.Machine
end

