-- ==== Sys2Proof/Machine/Peg.lean ====
section
/-!
DEFINITION. Peg: buffer pools, their free lists, claimants, and audits (ch. 16, R474 to R493).
-/
namespace Sys2Proof.Machine

/-! ### Pools and accounts -/

/-- Base of the registers of pool x, and of account a of pool x (R492). -/
def poolBase (x : Nat) : Nat := wPeg + 0x20 * x
def acctBase (x a : Nat) : Nat := wPeg + 0x100 * x + 0x10 * a

/-- A pool beside its registers, and the same replaced. -/
def State.pool (s : State) (x : Nat) : PoolSt := tabGet (fun _ => {}) s.peg.pools x
def State.setPool (s : State) (x : Nat) (p : PoolSt) : State :=
  { s with peg := { s.peg with pools := tabSet (fun _ => {}) s.peg.pools x p } }

/-- STATE of a pool (R492): 0 uncreated, 1 created, 2 auditing. -/
def State.poolState (s : State) (x : Nat) : Nat := s.rd (poolBase x) Reg.PEG_POOL_A_STATE
def State.poolCount (s : State) (x : Nat) : Nat := s.rd (poolBase x) Reg.PEG_POOL_COUNT_COUNT
def State.poolFresh (s : State) (x : Nat) : Nat := s.rd (poolBase x) Reg.PEG_POOL_FRESH_FRESH
def State.poolAddr (s : State) (x : Nat) : Nat := s.rd (poolBase x) Reg.PEG_BASE
def State.poolShift (s : State) (x : Nat) : Nat := s.rd (poolBase x) Reg.PEG_POOL_A_BUF_SHIFT
/-- Whether the pool lies in stacked DRAM (R474). -/
def State.poolInDram (s : State) (x : Nat) : Bool := s.rdb (poolBase x) Reg.PEG_POOL_A_LOC

def State.acctUsed (s : State) (x a : Nat) : Bool := s.rdb (acctBase x a) Reg.PEG_ACCT_IN_USE
def State.acctClaimant (s : State) (x a : Nat) : Nat := s.rd (acctBase x a) Reg.PEG_ACCT_CLAIMANT
def State.acctHeld (s : State) (x a : Nat) : Nat := s.rd (acctBase x a) Reg.PEG_ACCT_HELD_HELD
def State.acctRsv (s : State) (x a : Nat) : Nat := s.rd (acctBase x a) Reg.PEG_ACCT_RSV_RESERVE

/-- The accounts of a pool. -/
def accounts : List Nat := rangeFrom 0 16

/-- Sum over the accounts in use. -/
def State.acctSum (s : State) (x : Nat) (f : Nat → Nat) : Nat :=
  ((accounts.filter (s.acctUsed x)).map f).sum

/-- The account of a claimant (R480). -/
def State.acctOf (s : State) (x c : Nat) : Option Nat :=
  accounts.find? (fun a => s.acctUsed x a && decide (s.acctClaimant x a = c))

/-- The account of a claimant, made when there is room (R480, R482). -/
def State.acctMake (s : State) (x c : Nat) : Option (Nat × State) :=
  match s.acctOf x c with
  | some a => some (a, s)
  | none =>
    (accounts.find? (fun a => !s.acctUsed x a)).map (fun a =>
      (a, (s.wr (acctBase x a) Reg.PEG_ACCT_IN_USE 1).wr (acctBase x a) Reg.PEG_ACCT_CLAIMANT c))

/-- SHARED = COUNT less the reserves (R481). -/
def State.poolShared (s : State) (x : Nat) : Nat := s.poolCount x - s.acctSum x (s.acctRsv x)
/-- U: buffers held beyond reserves (R481). -/
def State.poolU (s : State) (x : Nat) : Nat := s.acctSum x (fun a => s.acctHeld x a - s.acctRsv x a)

/-- SHARED_USED and FREE brought up to date (R492). -/
def State.poolReport (s : State) (x : Nat) : State :=
  let p := s.pool x
  (s.wr (poolBase x) Reg.PEG_POOL_SHARED_SHARED_USED (s.poolU x)).wr (poolBase x) Reg.PEG_POOL_FREE_FREE
    (p.cache.length + p.len + p.offLen + (s.poolCount x - s.poolFresh x))

/-- Whether a PUNT queue that is not ABSENT names pool x; `i` restricts the question to index i (R476, R480). -/
def State.puntNames (s : State) (x : Nat) (i : Option Nat) : Bool :=
  s.host.queues.any (fun e => decide (e.2.typ = .punt ∧ e.2.st ≠ .absent ∧ e.2.pool = x) &&
    (match i with
     | none => true
     | some i => decide (e.2.idx = i)))

/-- Accounts with no holding, no reserve and no PUNT queue are released; account 0 stays (R480). -/
def State.acctTidy (s : State) (x : Nat) : State :=
  forEach (rangeFrom 1 15) (fun a s =>
    if s.acctUsed x a && decide (s.acctHeld x a = 0 ∧ s.acctRsv x a = 0) && !s.puntNames x (some (s.acctClaimant x a))
    then s.setReg (acctBase x a + 0x4000) 0 else s) s

/-! ### Free list (R477 to R479) -/

/-- Bytes of the pool's memory (R475). -/
def State.poolRead (s : State) (x a n : Nat) : List Byte :=
  if s.poolInDram x then s.dramRd a n else s.hostRd (s.fnLink (s.poolHolder x)) a n
def State.poolWrite (s : State) (x a : Nat) (bs : List Byte) : State :=
  if s.poolInDram x then s.dramWr a bs else s.hostWr (s.fnLink (s.poolHolder x)) a bs

/-- End of a threaded list (R478). -/
def listEnd : Nat := 0xFFFFFFFFFFFFFFFF

/-- Whether an address is a buffer that the pool has handed out (R485). -/
def State.bufferOk (s : State) (x a : Nat) : Bool :=
  decide (s.poolAddr x ≤ a ∧ a < s.poolAddr x + s.poolFresh x * 2 ^ s.poolShift x ∧
    (a - s.poolAddr x) % 2 ^ s.poolShift x = 0)

/-- Whether the link in the buffer at a cannot be read: the pool's stack is offline (R479). -/
def State.bufferOffline (s : State) (x a : Nat) : Bool := s.poolInDram x && s.stackOffline (stackOf a)

/-- The link of the head of the list fails: its buffer is handed out and the rest of the list is lost (R479). -/
def State.linkFails (s : State) (x link : Nat) : State :=
  let p := s.pool x
  ((((s.setPool x { p with cache := p.cache ++ [p.head], head := listEnd, len := 0 }).wr (poolBase x)
    Reg.PEG_POOL_A_CORRUPT 1).event Ev.POOL_CORRUPT 0 x p.head link).fault .peg 0 p.head)

/-- The head of the list is popped into the cache, as its oldest address; a bad link loses the rest (R479). -/
def State.listPop (s : State) (x : Nat) : State :=
  let p := s.pool x
  let link := leNat (s.poolRead x p.head 8)
  if link = listEnd ∨ s.bufferOk x link then
    s.setPool x { p with cache := p.cache ++ [p.head], head := link, len := if link = listEnd then 0 else p.len - 1 }
  else s.linkFails x link

/-- A link that Peg could not read: its buffer is handed out, the list is lost, and what POOL_CORRUPT tells of the link is free
(R479; log entry 147). -/
def State.linkLost (s : State) (x : Nat) : State :=
  if s.poolState x = 0 ∨ (s.pool x).head = listEnd then s
  else
    let d := s.draw 32
    (d.2.linkFails x d.1.toNat).poolReport x

/-- A host read of a pool's list has timed out (R425): the link that it was to bring is lost. -/
def State.listTimeout (s : State) (x : Nat) : State := if s.poolInDram x then s else s.linkLost x

/-- The cache is refilled to 32 addresses while the list has any (R478). -/
def State.refill (s : State) (x : Nat) : Nat → State
  | 0 => s
  | n + 1 =>
    let p := s.pool x
    if p.cache.length < 32 ∧ p.head ≠ listEnd ∧ s.bufferOffline x p.head = false then (s.listPop x).refill x n else s

/-- A cache of fewer than 16 addresses is refilled (R478). -/
def State.topUp (s : State) (x : Nat) : State := if (s.pool x).cache.length < 16 then s.refill x 32 else s

/-- What a request for a buffer finds (R477, R479). -/
inductive Taken where
  | buffer (a : Nat) (s : State)
  | none (s : State)
  | offline (s : State)

/-- A free buffer taken from its source (R477). -/
def State.take (s : State) (x : Nat) : Taken :=
  let s1 := s.topUp x
  let p := s1.pool x
  match p.cache with
  | a :: t => .buffer a ((s1.setPool x { p with cache := t }).topUp x)
  | [] =>
    if p.head ≠ listEnd then .offline s1
    else if s1.poolFresh x < s1.poolCount x then
      .buffer (s1.poolAddr x + s1.poolFresh x * 2 ^ s1.poolShift x)
        (s1.wr (poolBase x) Reg.PEG_POOL_FRESH_FRESH (s1.poolFresh x + 1))
    else .none s1

/-- The oldest cached address is pushed onto the list (R478). -/
def State.listPush (s : State) (x a : Nat) : State :=
  let p := s.pool x
  (s.poolWrite x a (leBytes 8 p.head)).setPool x { p with cache := p.cache.dropLast, head := a, len := p.len + 1 }

/-- The oldest addresses move onto the list until 32 remain cached (R478). -/
def State.spillCache (s : State) (x : Nat) : Nat → State
  | 0 => s
  | n + 1 =>
    let p := s.pool x
    match p.cache.getLast? with
    | some a => if 32 < p.cache.length then (s.listPush x a).spillCache x n else s
    | none => s

/-- A buffer returned to the pool (R478). -/
def State.release (s : State) (x a : Nat) : State :=
  let p := s.pool x
  let s1 := s.setPool x { p with cache := a :: p.cache }
  if 48 < p.cache.length + 1 then s1.spillCache x 32 else s1.topUp x

/-- HELD of account a raised or lowered. -/
def State.addHeld (s : State) (x a : Nat) (d : Int) : State :=
  s.wr (acctBase x a) Reg.PEG_ACCT_HELD_HELD ((s.acctHeld x a : Int) + d).toNat

/-- One request of claimant c: served from its reserve, from the shared part, or not at all (R481). -/
def State.serve (s : State) (x c : Nat) : Taken :=
  match s.acctMake x c with
  | none => .none s
  | some (a, s1) =>
    if s1.acctHeld x a < s1.acctRsv x a ∨ s1.poolU x < s1.poolShared x then
      match s1.take x with
      | .buffer b s2 => .buffer b ((s2.addHeld x a 1).poolReport x)
      | .none s2 => .none s2
      | .offline s2 => .offline s2
    else .none s

/-- The waiting PUNT request that is served next: one below its reserve, otherwise the one that has waited longest
(R481). -/
def State.nextWaiter (s : State) (x : Nat) : Option Nat :=
  let w := (s.pool x).waiting
  let below (q : Nat) : Bool := match s.acctOf x (s.queue q).idx with
    | some a => decide (s.acctHeld x a < s.acctRsv x a)
    | none => false
  match w.find? below with
  | some q => some q
  | none => w.head?

/-- One waiting PUNT request is served, when a buffer can be had (R481, R483). -/
def State.grantOne (s : State) (x : Nat) : State :=
  match s.nextWaiter x with
  | none => s
  | some q =>
    match s.serve x (s.queue q).idx with
    | .buffer a s1 =>
      (s1.setPool x { s1.pool x with waiting := (s1.pool x).waiting.erase q }).setQueue q
        { s1.queue q with drawn := some a }
    | .none s1 => s1
    | .offline s1 => s1

/-- Waiting PUNT requests are served before a request that arrives after them (R481). -/
def State.grantAll (s : State) (x : Nat) : State := forEach (s.pool x).waiting (fun _ s => s.grantOne x) s

/-- A buffer drawn for a PUNT queue goes back to the pool, and its account's HELD falls by one (R677). -/
def State.giveBack (s : State) (x i a : Nat) : State :=
  let s1 := match s.acctOf x i with
    | some k => s.addHeld x k (-1)
    | none => s
  ((s1.release x a).acctTidy x).poolReport x

/-! ### Commands (R484 to R491) -/

/-- The checks that every Peg command makes first (R486, R491); `created` is whether the pool must be created. -/
def State.pegGate (s : State) (j : Job) (spans : List (Nat × Nat)) (created : Bool) (body : State → Nat → Answer) : Answer :=
  let x := j.byte 0 4
  if 64 ≤ x ∨ j.only ((4, 1) :: spans) = false then failA s St.POOL_INVALID
  else if s.jobFn j ≠ s.poolHolder x then failA s St.NOT_OWNER
  else if decide (s.poolState x ≠ 0) ≠ created then failA s St.POOL_INVALID
  else body s x

/-- Whether a DRAM pool breaks R475. -/
def State.poolClash (s : State) (x base size : Nat) : Bool :=
  decide (2 ^ 36 < base + size) || s.inReserved base size || s.inRegion base size ||
    (rangeFrom 0 64).any (fun y => decide (y ≠ x ∧ s.poolState y ≠ 0) && s.poolInDram y &&
      overlaps base size (s.poolAddr y) (s.poolCount y * 2 ^ s.poolShift y))

/-- PEG_POOL_CREATE (R474, R475, R477, R491). A host-memory pool whose last byte lies at or above 2^64 does not lie in memory as
R475 has it (log entry 225). -/
def pegCreate (j : Job) (s : State) : Answer :=
  s.pegGate j [(5, 1), (6, 1), (8, 8), (16, 4)] false fun s x =>
    let shift := j.byte 0 6
    let base := j.le 8 8
    let count := j.le 16 4
    if 2 ≤ j.byte 0 5 ∨ shift < 8 ∨ 16 < shift ∨ 2 ^ 20 < count ∨ base % 2 ^ shift ≠ 0 ∨
       2 ^ 64 < base + count * 2 ^ shift ∨
       (j.bit 5 0 && s.poolClash x base (count * 2 ^ shift)) = true then failA s St.POOL_INVALID
    else
      let b := poolBase x
      let s1 := s.setReg (b + 0x1000) (2 ^ 30 + b2n (j.bit 5 0) * 2 ^ 29 + shift * 2 ^ 16 + s.jobFn j)
      let s2 := ((s1.wr b Reg.PEG_BASE base).wr b Reg.PEG_POOL_COUNT_COUNT count).wr b Reg.PEG_POOL_FRESH_FRESH 0
      okA (((s2.setPool x {}).setReg (acctBase x 0 + 0x4000) (2 ^ 31)).poolReport x)

/-- A pool becomes uncreated: its registers, accounts and lists return to reset (R476). -/
def State.poolDrop (s : State) (x : Nat) : State :=
  let f := s.rd (poolBase x) Reg.PEG_POOL_A_FUNC
  let s1 := forEach (rangeFrom 0 7) (fun k s => s.setReg (poolBase x + 0x1000 + 4 * k) 0) s
  let s2 := forEach accounts (fun a s => forEach (rangeFrom 0 3) (fun k s => s.setReg (acctBase x a + 0x4000 + 4 * k) 0) s) s1
  (s2.wr (poolBase x) Reg.PEG_POOL_A_FUNC f).setPool x {}

/-- PEG_POOL_DESTROY (R476). -/
def pegDestroy (j : Job) (s : State) : Answer :=
  s.pegGate j [(5, 1)] true fun s x =>
    if 2 ≤ j.byte 0 5 then failA s St.POOL_INVALID
    else if s.puntNames x none || decide (s.poolState x = 2) ||
        (!j.bit 5 0 && accounts.any (fun a => s.acctUsed x a && decide (s.acctHeld x a ≠ 0))) then
      failA s St.PEG_BUSY
    else okA (s.poolDrop x)

/-- PEG_RESERVE (R482). -/
def pegReserve (j : Job) (s : State) : Answer :=
  s.pegGate j [(6, 2), (8, 4)] true fun s x =>
    let c := j.le 6 2
    let v := j.le 8 4
    if 512 ≤ c then failA s St.POOL_INVALID
    else
      let old := match s.acctOf x c with
        | some a => s.acctRsv x a
        | none => 0
      if s.poolCount x < s.acctSum x (s.acctRsv x) - old + v then failA s St.RESERVE_LIMIT
      else if v = 0 ∧ s.acctOf x c = none then okRes s (leBytes 4 (s.poolShared x))
      else
        match s.acctMake x c with
        | none => failA s St.RESERVE_LIMIT
        | some (a, s1) =>
          let s2 := ((s1.wr (acctBase x a) Reg.PEG_ACCT_RSV_RESERVE v).acctTidy x).poolReport x
          okRes s2 (leBytes 4 (s2.poolShared x))

/-- n requests of claimant 0 served one after another (R484): the status, the addresses taken, the newest first, and the
state after. -/
def State.allocN (s : State) (x : Nat) : Nat → List Nat → Nat × List Nat × State
  | 0, got => (St.SUCCESS, got, s)
  | n + 1, got =>
    match s.serve x 0 with
    | .buffer a s1 => s1.allocN x n (a :: got)
    | .none s1 => (St.POOL_EMPTY, got, s1)
    | .offline s1 => (St.PEG_OFFLINE, got, s1)

/-- A buffer that a failed PEG_ALLOC took returns to its source: the newest of the fresh ones lowers FRESH again, any
other goes back into the cache (R477, R484). -/
def State.untake (s : State) (x fresh a : Nat) : State :=
  let s1 := s.addHeld x 0 (-1)
  if s.poolAddr x + fresh * 2 ^ s.poolShift x ≤ a then
    s1.wr (poolBase x) Reg.PEG_POOL_FRESH_FRESH (s.poolFresh x - 1)
  else s1.release x a

/-- PEG_ALLOC (R484): a command that cannot be served whole returns every buffer to its source. -/
def pegAlloc (j : Job) (s : State) : Answer :=
  s.pegGate j [(8, 4), (16, 8)] true fun s x =>
    let n := j.le 8 4
    if 1024 < n ∨ j.hostAddr % 8 ≠ 0 then failA s St.POOL_INVALID
    else
      let s0 := s.grantAll x
      match s0.allocN x n [] with
      | (0, got, s1) => okRes (s1.jobWrite j j.hostAddr (got.reverse.flatMap (leBytes 8))) (leBytes 4 n)
      | (code, got, s1) => failA ((forEach got (fun a s => s.untake x (s0.poolFresh x) a) s1).poolReport x) code

/-- The n addresses of a host array. -/
def hostAddrs (s : State) (j : Job) (n : Nat) : List Nat :=
  (rangeFrom 0 n).map (fun k => leNat (s.hostRd (s.jobLink j) (j.hostAddr + 8 * k) 8))

/-- PEG_FREE (R485): R490 asks no alignment of its host array; the addresses are checked before the account
(log entry 210). -/
def pegFree (j : Job) (s : State) : Answer :=
  s.pegGate j [(6, 2), (8, 4), (16, 8)] true fun s x =>
    let n := j.le 8 4
    let l := hostAddrs s j n
    if 512 ≤ j.le 6 2 ∨ 1024 < n then failA s St.POOL_INVALID
    else
      let s0 := s.countMoved 30 (8 * n)
      match (rangeFrom 0 n).find? (fun k => !s.bufferOk x (l.getD k 0)) with
      | some k => (s0, some (St.PEG_RANGE, [0, 0, 0, 0] ++ leBytes 2 k))
      | none =>
        let fail : Answer := (s0, some (St.PEG_ACCOUNT, [0, 0, 0, 0, 0xFF, 0xFF]))
        match s.acctOf x (j.le 6 2) with
        | none => if n = 0 then okA s0 else fail
        | some a =>
          if s.acctHeld x a < n then fail
          else
            let s1 := forEach l (fun b s => s.release x b) (s0.addHeld x a (-(n : Int)))
            okA (((s1.acctTidy x).poolReport x))

/-- A bit map of n bits, bit k first in byte k / 8. -/
def bitMap (n : Nat) (f : Nat → Bool) : List Byte :=
  (rangeFrom 0 ((n + 7) / 8)).map (fun b => BitVec.ofNat 8
    ((rangeFrom 0 8).foldl (fun acc i => acc + b2n (decide (8 * b + i < n) && f (8 * b + i)) * 2 ^ i) 0))

/-- Address of Peg's audit map in stacked DRAM (R518). -/
def auditArea : Nat := 0x20000000

/-- Buffer k of the running audit's pool is marked: its bit of the audit map is 0 (R487; log entry 226). -/
def mapMarked (m : List Byte) (k : Nat) : Bool := !((m.getD (k / 8) 0).toNat.testBit (k % 8))

/-- PEG_AUDIT: step 1 of R487. The audit map of the pool's buffers is set in stacked DRAM. -/
def pegAudit (j : Job) (s : State) : Answer :=
  s.pegGate j [(16, 8)] true fun s x =>
    if s.peg.audit ≠ none then failA s St.PEG_BUSY
    else if s.anyOffline then failA s St.PEG_OFFLINE
    else
      let p := s.pool x
      let s1 := s.setPool x { p with head := listEnd, len := 0, offHead := p.head, offLen := p.len }
      let s2 := (s1.wr (poolBase x) Reg.PEG_POOL_A_STATE 2).wr (poolBase x) Reg.PEG_POOL_A_CORRUPT 0
      let s3 := s2.dramWr auditArea (bitMap (s.poolCount x) (fun k =>
        decide (k < s.poolFresh x) && !p.cache.contains (s.poolAddr x + k * 2 ^ s.poolShift x)))
      laterA { s3 with peg := { s3.peg with audit := some (
        { pool := x, job := j, held := s.acctSum x (s.acctHeld x) } : AuditSt) } }

/-- What the walk of step 2 finds: buffers in walk order, duplicates, and whether a bad link ended it. -/
structure Walk where
  seen : List Nat := []
  dups : Nat := 0
  bad : Bool := false
  deriving DecidableEq, Repr

/-- Step 2 of R487: the detached list is walked, over buffers that the map marks already or not.
The walk ends after as many buffers as the pool has, since a looped list has no end (log entry 14). -/
def State.walkList (s : State) (x : Nat) (marked : Nat → Bool) : Nat → Nat → Walk → Walk
  | 0, _, w => w
  | n + 1, a, w =>
    if a = listEnd then w
    else if s.bufferOk x a = false then { w with bad := true }
    else
      let dup := w.seen.contains a || marked ((a - s.poolAddr x) / 2 ^ s.poolShift x)
      s.walkList x marked n (leNat (s.poolRead x a 8))
        { w with seen := w.seen ++ [a], dups := w.dups + b2n dup }

/-- The last buffer of the list from a, n long. -/
def State.listLast (s : State) (x : Nat) : Nat → Nat → Nat
  | 0, a => a
  | n + 1, a =>
    let link := leNat (s.poolRead x a 8)
    if link = listEnd then a else s.listLast x n link

/-- The audit ends: steps 2 to 4 of R487, and R489. -/
def State.auditDone (s : State) (au : AuditSt) : State :=
  let x := au.pool
  let p := s.pool x
  let m := s.dramRd auditArea ((s.poolCount x + 7) / 8)
  let w := s.walkList x (mapMarked m) (s.poolCount x) p.offHead {}
  let free (k : Nat) : Bool := mapMarked m k || w.seen.contains (s.poolAddr x + k * 2 ^ s.poolShift x)
  let map := bitMap (s.poolCount x) (fun k => !free k)
  let outstanding := ((rangeFrom 0 (s.poolCount x)).filter (fun k => !free k)).length
  let s1 :=
    if p.offHead = listEnd then s
    else if p.head = listEnd then s.setPool x { p with head := p.offHead }
    else s.poolWrite x (s.listLast x p.len p.head) (leBytes 8 p.offHead)
  let s2 := ((s1.setPool x { s1.pool x with len := p.len + w.seen.length, offHead := listEnd, offLen := 0 }).topUp x).dramWr
    auditArea map
  let s3 := if au.job.hostAddr = 0 then s2 else s2.jobWrite au.job au.job.hostAddr map
  let mismatch := decide (w.seen.length ≠ p.offLen ∨ 0 < w.dups ∨ outstanding ≠ au.held) || w.bad
  let s4 := s3.event Ev.POOL_AUDIT 0 x w.seen.length outstanding
  let s5 := if mismatch then (s4.event Ev.POOL_MISMATCH 0 x p.offLen (w.dups * 2 + b2n w.bad)).fault .peg 1 x else s4
  let s6 := ((s5.wr (poolBase x) Reg.PEG_POOL_A_STATE 1).poolReport x)
  ({ s6 with peg := { s6.peg with audit := none } }).complete au.job St.SUCCESS
    (leBytes 4 w.seen.length ++ leBytes 2 (min w.dups 65535) ++ [BitVec.ofNat 8 (b2n mismatch + 2 * b2n w.bad)])

/-- PEG_QUERY (R490). -/
def pegQuery (j : Job) (s : State) : Answer :=
  s.pegGate j [(16, 8)] true fun s x =>
    okRes (s.jobWrite j j.hostAddr (s.regBytes (poolBase x + 0x1000) 7 ++ leBytes 4 0 ++
      accounts.flatMap (fun a => s.regBytes (acctBase x a + 0x4000) 3))) (leBytes 4 224)

/-! ### The rows -/

/-- PEG_POOL_CREATE (R491). -/
def execPegPoolCreate (j : Job) (s : State) : Out := jobRow { op := 0x70, owner := false } j s pegCreate
/-- PEG_POOL_DESTROY (R476). -/
def execPegPoolDestroy (j : Job) (s : State) : Out := jobRow { op := 0x71, owner := false } j s pegDestroy
/-- PEG_RESERVE (R482). -/
def execPegReserve (j : Job) (s : State) : Out := jobRow { op := 0x72, owner := false } j s pegReserve
/-- PEG_ALLOC (R484). -/
def execPegAlloc (j : Job) (s : State) : Out := jobRow { op := 0x73, owner := false } j s pegAlloc
/-- PEG_FREE (R485). -/
def execPegFree (j : Job) (s : State) : Out := jobRow { op := 0x74, owner := false } j s pegFree
/-- PEG_AUDIT (R487). -/
def execPegAudit (j : Job) (s : State) : Out := jobRow { op := 0x75, owner := false } j s pegAudit
/-- PEG_QUERY (R490). -/
def execPegQuery (j : Job) (s : State) : Out := jobRow { op := 0x76, owner := false } j s pegQuery
/-- PEG_AUDIT_DONE (R489): the running audit ends; with none running nothing happens. -/
def execPegAuditDone (s : State) : Out :=
  .next (match s.peg.audit with
    | some a => s.auditDone a
    | none => s)
/-- PUNT_BUFFER_GRANT (R481): one waiting request of pool x is served, when a buffer can be had. -/
def execPuntBufferGrant (x : Fin 64) (s : State) : Out := .next (s.grantOne x.val)

end Sys2Proof.Machine
end

