-- ==== Sys2Proof/Machine/Purlin.lean ====
section
/-!
DEFINITION. Purlin: the 32 channels of two-dimensional DMA (ch. 17, R494 to R515).
-/
namespace Sys2Proof.Machine

/-! ### Channels (R494 to R496, R512) -/

/-- Base of the registers of channel ch (R514). -/
def chanBase (ch : Nat) : Nat := wPurlin + 0x10 * ch

def State.chan (s : State) (ch : Nat) : ChanSt := tabGet (fun _ => {}) s.chans ch
def State.setChan (s : State) (ch : Nat) (c : ChanSt) : State := { s with chans := tabSet (fun _ => {}) s.chans ch c }

/-- STATE of a channel (R514): 0 IDLE, 1 RUNNING, 2 STOPPING, 3 STOPPED, 4 HALTED. -/
def State.chanState (s : State) (ch : Nat) : Nat := s.rd (chanBase ch) Reg.PURLIN_CHAN_A_STATE
def State.setChanState (s : State) (ch x : Nat) : State := s.wr (chanBase ch) Reg.PURLIN_CHAN_A_STATE x

/-- The queue bound to a channel. -/
def State.chanQ (s : State) (ch : Nat) : Nat := s.rd (chanBase ch) Reg.PURLIN_CHAN_A_Q

/-- The channel bound to queue q. -/
def State.chanOf (s : State) (q : Nat) : Option Nat :=
  (rangeFrom 0 28).find? (fun ch => decide (s.chanState ch ≠ 0 ∧ s.chanQ ch = q))

/-- Jobs a channel holds: fetched and not started, in ring order (R496). -/
def State.chanHeld (s : State) (ch : Nat) : List Job :=
  if s.chanState ch = 0 then [] else (s.queue (s.chanQ ch)).jobs.filter (fun j => s.jobReady j)

/-- HELD brought up to date (R514); a channel resumed with jobs held has run them when it holds none (R512). -/
def State.chanReport (s : State) (ch : Nat) : State :=
  let n := (s.chanHeld ch).length
  (if n = 0 then s.setChan ch { s.chan ch with resuming := false } else s).wr (chanBase ch) Reg.PURLIN_CHAN_A_HELD n

/-- Whether a queue that is not ABSENT binds channel ch (R495). -/
def State.chanBound (s : State) (ch : Nat) : Bool :=
  s.host.queues.any (fun e => decide (e.2.typ = .dma ∧ e.2.st ≠ .absent ∧ e.2.tc = ch))

/-- Whether job j is the one that channel ch starts next: the channel runs, nothing runs on it, and j is the oldest it holds
(R496). -/
def State.chanNext (s : State) (ch : Nat) (j : Job) : Bool :=
  decide (s.chanState ch = 1 ∧ (s.chan ch).running = none ∧ (s.chanHeld ch).head? = some j)

/-! ### The descriptor (R498, R499) -/

/-- One side of a descriptor (R499). -/
structure Side where
  dram : Bool
  addr : Nat
  len : Nat
  lines : Nat
  stride : Nat
  deriving DecidableEq, Repr

/-- A side of a DMA_COPY job: entry 0 is the source, entry 1 the destination. -/
def dmaSide (j : Job) (e : Nat) : Side :=
  { dram := j.bit 4 e, addr := j.leAt e 8 8, len := j.leAt e 16 3, lines := j.leAt e 20 3, stride := j.leAt e 24 4 }

/-- Total bytes of a side (R499). -/
def Side.total (d : Side) : Nat := d.len * d.lines

/-- Length of a side's extent from its first byte (R499). -/
def Side.span (d : Side) : Nat := if d.lines = 0 then 0 else (d.lines - 1) * d.stride + d.len

/-- Whether a job works from the highest address down (R502): one-dimensional in one space, over extents that overlap, with its
destination above its source. -/
def copiesDown (a b : Side) : Bool :=
  decide (a.lines = 1 ∧ b.lines = 1 ∧ a.dram = b.dram ∧ a.addr < b.addr) && overlaps a.addr a.span b.addr b.span

/-- Two-dimensional: not both sides one line (R499). -/
def isTwoD (a b : Side) : Bool := decide (a.lines ≠ 1 ∨ b.lines ≠ 1)

/-- Whether a function may reach a DRAM extent (R501). -/
def State.dmaAllowed (s : State) (f a n : Nat) : Bool :=
  if f = s.owner then !s.inReserved a n
  else (rangeFrom 0 64).any (fun x => decide (s.poolHolder x = f ∧ s.poolState x ≠ 0 ∧ s.poolAddr x ≤ a ∧
      a + n ≤ s.poolAddr x + s.poolCount x * 2 ^ s.poolShift x) && s.poolInDram x)

/-- Whether a DRAM extent lies on a stack that is offline (R500 check 7). -/
def State.dmaOffline (s : State) (d : Side) : Bool :=
  d.dram && (rangeFrom 0 4).any (fun x => s.stackOffline x && overlaps d.addr d.span (x * 2 ^ 34) (2 ^ 34))

/-- Whether the reserved and write-back fields are 0 (R498, R500 check 2). -/
def dmaPlain (j : Job) : Bool :=
  decide (j.bits 1 6 4 = 0 ∧ j.bits 4 7 2 = 0) && j.zero 0 5 3 && j.zero 0 19 1 && j.zero 0 23 1 && j.zero 0 28 4 &&
    j.zero 1 4 4 && j.zero 1 19 1 && j.zero 1 23 1 && j.zero 1 28 4

/-- Whether a side's extent fits its space (R500 check 2). -/
def Side.fits (d : Side) : Bool := decide (d.addr + d.span ≤ if d.dram then 2 ^ 36 else 2 ^ 64)

/-- The first check that fails, in the order of R500. -/
def State.dmaCheck (s : State) (j : Job) : Option Nat :=
  let a := dmaSide j 0
  let b := dmaSide j 1
  let f := s.jobFn j
  if j.len ≠ 2 then some St.PURLIN_INVALID
  else if j.bit 1 7 = false then some St.DESC_NOT_OWNED
  else if dmaPlain j = false ∨ a.fits = false ∨ b.fits = false ∨ 2 ^ 32 ≤ a.total ∨ 2 ^ 32 ≤ b.total ∨
      (1 < b.lines ∧ b.stride < b.len) then some St.PURLIN_INVALID
  else if a.len = 0 ∨ a.lines = 0 ∨ b.len = 0 ∨ b.lines = 0 then some St.ZERO_LENGTH
  else if a.total ≠ b.total then some St.LENGTH_MISMATCH
  else if (a.dram && !s.dmaAllowed f a.addr a.span) || (b.dram && !s.dmaAllowed f b.addr b.span) then
    some St.ACCESS_DENIED
  else if isTwoD a b && decide (a.dram = b.dram) && overlaps a.addr a.span b.addr b.span then some St.OVERLAP
  else if s.dmaOffline a || s.dmaOffline b then some St.PURLIN_OFFLINE
  else none

/-! ### Moving bytes -/

/-- n bytes of a space. -/
def State.spaceRead (s : State) (link : Nat) (dram : Bool) (a n : Nat) : List Byte :=
  if dram then s.dramRd a n else s.hostRd link a n
def State.spaceWrite (s : State) (link : Nat) (dram : Bool) (a : Nat) (bs : List Byte) : State :=
  if dram then s.dramWr a bs else s.hostWr link a bs

/-- The source lines, read in order as one byte stream (R499). -/
def State.dmaRead (s : State) (link : Nat) (d : Side) : List Byte :=
  (rangeFrom 0 d.lines).flatMap (fun k => s.spaceRead link d.dram (d.addr + k * d.stride) d.len)

/-- The first n lines of the destination written from the stream (R499). -/
def State.dmaWrite (s : State) (link : Nat) (d : Side) (bs : List Byte) (n : Nat) : State :=
  forEach (rangeFrom 0 n) (fun k s => s.spaceWrite link d.dram (d.addr + k * d.stride) (slice bs (k * d.len) d.len)) s

/-- n bytes that nothing constrains (log entry 4). -/
def State.drawBytes (s : State) : Nat → List Byte × State
  | 0 => ([], s)
  | n + 1 =>
    let (b, s1) := s.draw 8
    let (t, s2) := s1.drawBytes n
    (b :: t, s2)

/-- Line k of the destination left undefined (R508, R509). -/
def State.dmaScramble (s : State) (link : Nat) (d : Side) (k : Nat) : State :=
  let (bs, s1) := s.drawBytes d.len
  s1.spaceWrite link d.dram (d.addr + k * d.stride) bs

/-! ### Completing a job (R503, R504) -/

/-- Address of entry e of a job in its ring. -/
def State.dmaEntry (s : State) (j : Job) (e : Nat) : Nat :=
  let x := s.queue j.q
  x.base + 32 * ((j.sqHead + x.size + e - j.len) % x.size)

/-- The write-back of R503, then the completion of R504; `extra` are bytes 13 and 14. A chain of one entry has no entry 1
to write (log entry 214). -/
def State.dmaComplete (s : State) (j : Job) (status cause remaining : Nat) (extra : List Byte) : State :=
  let l := s.jobLink j
  let s1 := if j.len < 2 then s else s.hostWr l (s.dmaEntry j 1 + 4) (leBytes 4 remaining)
  let s2 := s1.hostWr l (s.dmaEntry j 0 + 28) (leBytes 2 status ++ leBytes 1 cause ++ [0])
  let s3 := if status = St.DESC_NOT_OWNED then s2
    else s2.hostWr l (s.dmaEntry j 0 + 1) (leBytes 1 (j.byte 0 1 % 128))
  (s3.count 157 (32 + status % 16) 1).complete j status (leBytes 4 remaining ++ leBytes 1 cause ++ extra)

/-- The channel's policy after a halting failure (R511). `info` is the detail of the fault: the channel, or the correlation tag of
an episode (R613). -/
def State.dmaHalt (s : State) (ch status cause tag info : Nat) : State :=
  let s1 := (s.wr (chanBase ch) Reg.PURLIN_CHAN_D_LAST_CAUSE cause).wr (chanBase ch) Reg.PURLIN_CHAN_D_LAST_TAG tag
  if s1.rdb (chanBase ch) Reg.PURLIN_CHAN_A_ON_ERROR ∨ (s1.chanState ch ≠ 1 ∧ s1.chanState ch ≠ 2) then s1
  else
    let c := s1.chan ch
    let s2 := ((s1.setChanState ch 4).event Ev.CHANNEL_HALTED 0 ch status tag).fault .purlin 0 info
    forEach c.stops (fun j s => s.complete j St.SUCCESS [4]) (s2.setChan ch { s2.chan ch with stops := [] })

/-- The running job leaves its channel. -/
def State.chanClear (s : State) (ch : Nat) : State :=
  (s.setChan ch { s.chan ch with running := none, issued := 0, buffer := [] }).wr (chanBase ch) Reg.PURLIN_CHAN_C_COUNT 0

/-- A held or running job completes with CANCELLED (R512). -/
def State.dmaCancel (s : State) (remaining : Nat) (j : Job) : State := s.dmaComplete j St.CANCELLED 0 remaining []

/-- The running job ends at a beat boundary (R512): a number of its bytes that nothing constrains have been issued to the
destination, the lowest or, of a job that works downwards, the highest (R502), and the answer is the count that remains (log
entry 214). -/
def State.dmaCut (s : State) (ch : Nat) : Nat × State :=
  match (s.chan ch).running with
  | none => (0, s)
  | some j =>
    let b := dmaSide j 1
    let l := s.jobLink j
    let (v, s1) := s.draw 32
    let n := v.toNat % (b.total + 1)
    let k := n / b.len
    let s2 :=
      if copiesDown (dmaSide j 0) b then
        s1.spaceWrite l b.dram (b.addr + (b.total - n)) (slice (s.chan ch).buffer (b.total - n) n)
      else
        (s1.dmaWrite l b (s.chan ch).buffer k).spaceWrite l b.dram (b.addr + k * b.stride)
          (slice (s.chan ch).buffer (k * b.len) (n % b.len))
    (b.total - n, s2.count 157 ch n)

/-- The channel of a queue that leaves ACTIVE or ERROR, or whose function is reset, becomes IDLE (R512).
`drop` discards its jobs. -/
def State.chanUnbind (s : State) (q : Nat) (drop : Bool) : State :=
  match s.chanOf q with
  | none => s
  | some ch =>
    let c := s.chan ch
    let held := s.chanHeld ch
    let (left, cut) := s.dmaCut ch
    let s1 := if drop then cut
      else
        let s0 := match c.running with
          | some j => cut.dmaCancel left j
          | none => cut
        forEach held (fun j s => s.dmaCancel (dmaSide j 0).total j) s0
    let s2 := forEach c.stops (fun j s => s.complete j St.SUCCESS [0]) s1
    let s3 := (s2.setChan ch {}).wr (chanBase ch) Reg.PURLIN_CHAN_C_COUNT 0
    ((s3.setChanState ch 0).wr (chanBase ch) Reg.PURLIN_CHAN_A_Q 0).wr (chanBase ch) Reg.PURLIN_CHAN_A_HELD 0

/-! ### DMA_COPY and its outcomes -/

/-- A descriptor starts (R496, R500): the channel runs, nothing runs on it, and the job is the oldest it holds. One that the gates or
the checks turn away completes at once, with its write-back (R503, R638). -/
def State.dmaStart (s : State) (j : Job) : State :=
  match s.chanOf j.q with
  | none => s
  | some ch =>
    if s.chanNext ch j = false ∨ j.opcode ≠ 0x78 then s
    else
      let s1 := (s.startJob j).chanReport ch
      match (match s1.gate { op := 0x78, owner := false } j with
        | some code => some code
        | none => s1.dmaCheck j) with
      | some code =>
        let (v, s2) := s1.draw 32
        let s3 := s2.dmaComplete j code 0 v.toNat []
        if code = St.PURLIN_OFFLINE then s3.dmaHalt ch code 0 j.tag ch else s3
      | none =>
        let a := dmaSide j 0
        (s1.setChan ch { s1.chan ch with running := some j, issued := 0, buffer := s1.dmaRead (s1.jobLink j) a }).wr
          (chanBase ch) Reg.PURLIN_CHAN_C_COUNT a.total

/-- A job meets its completion point: every line is written, the count is 0, and it completes with SUCCESS (R505). -/
def State.dmaFinish (s : State) (ch : Nat) : State :=
  match (s.chan ch).running with
  | none => s
  | some j =>
    let b := dmaSide j 1
    let s1 := s.dmaWrite (s.jobLink j) b (s.chan ch).buffer b.lines
    let s2 := s1.count 157 ch b.total
    let s3 := if j.bit 1 2 && !b.dram then s2.count 157 48 1 else s2
    (s3.chanClear ch).dmaComplete j St.SUCCESS 0 0 []

/-- A beat fails at byte `pos` of the job's total (R507 to R509). `late` is a failure known after the count reached 0;
cause 7 always is one. `tag` is the correlation tag of cause 3 (R426, R613): the completion carries its counter. -/
def State.dmaFail (s : State) (ch cause pos : Nat) (late : Bool) (tag : Nat) : State :=
  match (s.chan ch).running with
  | none => s
  | some j =>
    let b := dmaSide j 1
    let l := s.jobLink j
    let line := min pos (b.total - 1) / b.len
    let whole := late || decide (cause = 7)
    let s1 := s.dmaWrite l b (s.chan ch).buffer (if whole then b.lines else line)
    let s2 := s1.dmaScramble l b line
    let status := if whole then St.BEAT_ERROR else St.TRANSFER_ERROR
    let left := if whole then 0 else b.total - min pos (b.total - 1)
    let s3 := s2.count 157 ch (b.total - left)
    let s4 := if cause = 7 then s3.count 157 48 1 else s3
    let s5 := (s4.chanClear ch).dmaComplete j status cause left (if cause = 3 then leBytes 2 tag else [])
    s5.dmaHalt ch status cause j.tag (if cause = 3 then tag else ch)

/-- A beat fails (R507). Cause 3 is the timer of one of its host reads: the episode is reported as every timer's is, with the tag of
the function's link (R425, R426, R508). -/
def State.dmaBeat (s : State) (ch cause pos : Nat) (late : Bool) : State :=
  match (s.chan ch).running with
  | none => s
  | some j =>
    let tag := s.linkTag (s.jobLink j)
    (if cause = 3 then s.timeoutReport (s.jobFn j) tag else s).dmaFail ch cause pos late tag

/-! ### Commands (R512, R513) -/

/-- The checks of PURLIN_CHANNEL_CTL (R512, R513). -/
def ctlGate (j : Job) (s : State) (body : State → Nat → Answer) : Answer :=
  let ch := j.byte 0 4
  if 27 < ch ∨ 3 < j.byte 0 5 ∨ 1 < j.byte 0 6 ∨ (j.byte 0 5 ≠ 3 ∧ j.byte 0 6 ≠ 0) ∨ j.only [(4, 3)] = false then
    failA s St.PURLIN_INVALID
  else if s.jobFn j ≠ s.owner ∧ (s.chanState ch = 0 ∨ (s.queue (s.chanQ ch)).fn ≠ s.jobFn j) then
    failA s St.NOT_OWNER
  else body s ch

/-- The answer of a control operation: STATE after the command. -/
def ctlOk (s : State) (ch : Nat) : Answer := okRes s (leBytes 1 (s.chanState ch))

/-- STOP (R512): in STOPPED or HALTED it completes at once. In IDLE it is refused (log entry 15). -/
def chanStop (j : Job) (s : State) : Answer :=
  ctlGate j s fun s ch =>
    match s.chanState ch with
    | 1 | 2 => laterA ((s.setChanState ch 2).setChan ch { s.chan ch with stops := (s.chan ch).stops ++ [j] })
    | 3 | 4 => ctlOk s ch
    | _ => failA s St.PURLIN_STATE

/-- RESUME (R512): held jobs run, then fetching resumes. -/
def chanResume (j : Job) (s : State) : Answer :=
  ctlGate j s fun s ch =>
    if s.chanState ch = 3 ∨ s.chanState ch = 4 then
      ctlOk (((s.setChanState ch 1).setChan ch { s.chan ch with resuming := true }).chanReport ch) ch
    else failA s St.PURLIN_STATE

/-- FLUSH (R512): each held job completes with CANCELLED and its total. -/
def chanFlush (j : Job) (s : State) : Answer :=
  ctlGate j s fun s ch =>
    if s.chanState ch = 3 ∨ s.chanState ch = 4 then
      ctlOk ((forEach (s.chanHeld ch) (fun k s => s.dmaCancel (dmaSide k 0).total k) s).chanReport ch) ch
    else failA s St.PURLIN_STATE

/-- POLICY (R511, R512). -/
def chanPolicy (j : Job) (s : State) : Answer :=
  ctlGate j s fun s ch => ctlOk (s.wr (chanBase ch) Reg.PURLIN_CHAN_A_ON_ERROR (j.byte 0 6)) ch

/-- PURLIN_CHANNEL_SET (R513). -/
def chanSet (j : Job) (s : State) : Answer :=
  let ch := j.byte 0 4
  let f := j.le 6 2
  if 27 < ch ∨ (256 ≤ f ∧ f ≠ 0xFFFF) ∨ j.only [(4, 1), (6, 2)] = false then failA s St.PURLIN_INVALID
  else if s.chanState ch ≠ 0 ∨ s.chanBound ch then failA s St.PURLIN_BUSY
  else okA (s.wr (chanBase ch) Reg.PURLIN_CHAN_B_CHAN_FUNC f)

/-- PURLIN_QUERY (R513). -/
def purlinQuery (j : Job) (s : State) : Answer :=
  let ch := j.byte 0 4
  if 27 < ch ∨ j.only [(4, 1), (16, 8)] = false then failA s St.PURLIN_INVALID
  else if s.jobFn j ≠ s.owner ∧ (s.chanState ch = 0 ∨ (s.queue (s.chanQ ch)).fn ≠ s.jobFn j) then
    failA s St.NOT_OWNER
  else okRes (s.jobWrite j j.hostAddr (s.regBytes (chanBase ch + 0x1000) 4)) (leBytes 4 16)

/-! ### The rows -/

/-- A row of one operation of a command: a job of another defined operation is none of this row's (log entry 12). -/
def opRow (g : Gate) (j : Job) (s : State) (mine : Bool) (body : Job → State → Answer) : Out :=
  if mine then jobRow g j s body else .next s

/-- DMA_COPY (R500). -/
def execDmaCopy (j : Job) (s : State) : Out := .next (s.dmaStart j)
/-- DMA_JOB_COMPLETE (R505). -/
def execDmaJobComplete (ch : Fin 28) (s : State) : Out := .next (s.dmaFinish ch.val)
/-- DMA_BEAT_FAILURE (R508, R509): causes 1 to 7, at a byte of the job's total. -/
def execDmaBeatFailure (ch : Fin 28) (cause : Fin 7) (pos : Word32) (late : Bool) (s : State) : Out :=
  .next (s.dmaBeat ch.val (cause.val + 1) pos.toNat late)
/-- LATE_ERROR (R510): a DRAM write of a job that completed with BARRIER 0 fails, with its tag. -/
def execLateError (ch : Fin 28) (tag : BitVec 16) (s : State) : Out :=
  .next (((s.event Ev.LATE_ERROR 0 ch.val tag.toNat 5).fault .purlin 1 ch.val).dmaHalt ch.val St.SUCCESS 5 tag.toNat ch.val)
/-- PURLIN_CHANNEL_SET (R513). -/
def execPurlinChannelSet (j : Job) (s : State) : Out := jobRow { op := 0x79 } j s chanSet
/-- PURLIN_CHANNEL_CTL operation STOP (R512). -/
def execChannelStop (j : Job) (s : State) : Out :=
  opRow { op := 0x7A, owner := false } j s (decide (j.byte 0 5 = 0 ∨ 3 < j.byte 0 5)) chanStop
/-- PURLIN_CHANNEL_CTL operation RESUME (R512). -/
def execChannelResume (j : Job) (s : State) : Out :=
  opRow { op := 0x7A, owner := false } j s (decide (j.byte 0 5 = 1)) chanResume
/-- PURLIN_CHANNEL_CTL operation FLUSH (R512). -/
def execChannelFlush (j : Job) (s : State) : Out :=
  opRow { op := 0x7A, owner := false } j s (decide (j.byte 0 5 = 2)) chanFlush
/-- PURLIN_CHANNEL_CTL operation POLICY (R511, R512). -/
def execChannelPolicy (j : Job) (s : State) : Out :=
  opRow { op := 0x7A, owner := false } j s (decide (j.byte 0 5 = 3)) chanPolicy
/-- CHANNEL_STOPPED (R512): a stopping channel on which nothing runs any more. -/
def execChannelStopped (ch : Fin 28) (s : State) : Out :=
  .next (if s.chanState ch.val = 2 ∧ (s.chan ch.val).running = none then
      forEach (s.chan ch.val).stops (fun j s => s.complete j St.SUCCESS [3])
        ((s.setChanState ch.val 3).setChan ch.val { s.chan ch.val with stops := [] })
    else s)
/-- PURLIN_QUERY (R513). -/
def execPurlinQuery (j : Job) (s : State) : Out := jobRow { op := 0x7B, owner := false } j s purlinQuery

end Sys2Proof.Machine
end

