-- ==== Sys2Proof/Machine/Qmgr.lean ====
section
/-!
DEFINITION. QMGR: doorbells, fetching, completions, notices, queue states and the queue commands (ch. 15, R434 to
R473).
-/
namespace Sys2Proof.Machine

/-! ### Counting and errors -/

/-- Slot x of the counters of function f (R576). -/
def State.qmgrCount (s : State) (f x : Nat) : State := s.count (160 + f / 8) (64 * (f % 8) + x) 1

/-- Whether submission queue record e binds completion queue c of its function (R448). -/
def binds (x : Queue) (e : Nat × Queue) : Bool :=
  e.2.typ.submission && decide (e.2.typ ≠ .admin ∧ e.2.fn = x.fn ∧ e.2.cq = x.idx ∧ e.2.st ≠ .absent)

/-- A PUNT queue leaves ACTIVE: a drawn buffer whose write has not begun, or must not finish, goes back (R677). -/
def State.puntStop (s : State) (q : Nat) (finish : Bool) : State :=
  let x := s.queue q
  let s1 := s.setPool x.pool { s.pool x.pool with waiting := (s.pool x.pool).waiting.erase q }
  match x.drawn with
  | none => s1
  | some a =>
    if finish && x.punting.isSome then s1
    else (s1.setQueue q { x with drawn := none, punting := none }).giveBack x.pool x.idx a

/-- Whether a completion queue takes notices: one in ERROR takes none, but for an admin queue, whose own ring takes them
(R462, R465). -/
def State.takesNotice (s : State) (n : Notice) : Bool := decide ((s.queue n.cq).st ≠ .error ∨ n.cq = n.q)

/-- A notice is owed (R450): it is counted as one that waits when those before it leave it no free slot (R473). -/
def State.owesNotice (s : State) (n : Notice) : State :=
  let before := (s.host.notices.filter (fun m => decide (m.cq = n.cq))).length
  let s1 := { s with host := { s.host with notices := s.host.notices ++ [n] } }
  if s.takesNotice n && decide (s.freeSlots n.cq ≤ before) then s1.qmgrCount (s.queue n.q).fn 9 else s1

/-- A queue enters ERROR (R461, R462), with the detail of its fault. -/
def State.queueFail (s : State) (q cause info : Nat) : State :=
  let x := s.queue q
  if x.st ≠ .active then s
  else
    let s0 := if x.typ = .punt then s.puntStop q false else s
    let s1 := s0.setQueue q { s0.queue q with st := .error, cause := cause }
    let s2 := s1.faultFn x.fn 2 info
    let s3 := s2.event Ev.QUEUE_ERROR (s.fnLink x.fn) q cause (x.fn * 512 + x.idx)
    match (if x.typ.submission then s.cqOf q else none) with
    | some c => s3.owesNotice { q := q, cq := c, cause := cause, head := x.head }
    | none => s3

/-- A queue enters ERROR of itself: the fault's detail is its number. -/
def State.queueError (s : State) (q cause : Nat) : State := s.queueFail q cause q

/-! ### Doorbells (R438, R442 to R444) -/

/-- Whether the function's doorbells are ignored: a reset of it is in progress (R412 step 1). -/
def State.inReset (s : State) (f : Nat) : Bool := (s.fn f).resetting.isSome

/-- A write of the tail doorbell of queue index i of function f (R438, R442, R444). -/
def State.tailDoorbell (s : State) (f i v : Nat) : State :=
  if s.inReset f then s
  else match s.findQ f i with
  | none => s.faultFn f 1 (8 * i)
  | some q =>
    let x := s.queue q
    if x.typ.submission = false then s.faultFn f 1 (8 * i)
    else if x.st ≠ .active then s
    else if x.size ≤ v then s.queueError q 1
    else s.setQueue q { x with tail := v }

/-- A write of the head doorbell of queue index i of function f (R443, R444). -/
def State.headDoorbell (s : State) (f i v : Nat) : State :=
  if s.inReset f then s
  else match s.findQ f i with
  | none => s.faultFn f 1 (8 * i + 4)
  | some q =>
    let x := s.queue q
    if x.typ.submission = true ∧ x.typ ≠ .admin then s.faultFn f 1 (8 * i + 4)
    else if x.st ≠ .active then s
    else
      let size := if x.typ = .admin then x.csize else x.size
      let head := if x.typ = .admin then x.chead else x.head
      let n := (v + size - head) % size
      let unread := if x.typ = .punt ∨ x.typ = .event then (x.tail + size - head) % size else x.written
      if size ≤ v then s.queueError q 1
      else if unread < n then s.queueError q 3
      else if x.typ = .admin then s.setQueue q { x with chead := v, written := x.written - n }
      else if x.typ = .completion then s.setQueue q { x with head := v, written := x.written - n }
      else s.setQueue q { x with head := v }

/-! ### Fetching (R438 to R441, R449) -/

/-- Entry k of a submission ring. -/
def State.ringEntry (s : State) (x : Queue) (k : Nat) : List Byte :=
  s.hostRd (s.fnLink x.fn) (x.base + 32 * (k % x.size)) 32

/-- What lies at the head of a submission ring (R439). -/
inductive Parse where
  | empty
  | wait
  | bad
  | job (l : List (List Byte))
  deriving DecidableEq, Repr

/-- FIRST and LAST of an entry. -/
def entryFirst (e : List Byte) : Bool := (e.getD 1 0).toNat.testBit 0
def entryLast (e : List Byte) : Bool := (e.getD 1 0).toNat.testBit 1

/-- The rest of a chain: n more entries may follow, `left` of them lie before the tail (R439). -/
def State.parseRest (s : State) (x : Queue) (first : List Byte) : Nat → Nat → List (List Byte) → Parse
  | 0, _, _ => .bad
  | _ + 1, 0, _ => .wait
  | n + 1, left + 1, got =>
    let e := s.ringEntry x (x.head + got.length)
    if entryFirst e ∨ e.getD 0 0 ≠ first.getD 0 0 ∨ slice e 2 2 ≠ slice first 2 2 then .bad
    else if entryLast e then .job (got ++ [e])
    else s.parseRest x first n left (got ++ [e])

/-- The job at the head of a ring (R439). -/
def State.parseJob (s : State) (x : Queue) : Parse :=
  let n := (x.tail + x.size - x.head) % x.size
  if n = 0 then .empty
  else
    let e := s.ringEntry x x.head
    if entryFirst e = false then .bad
    else if entryLast e then .job [e]
    else s.parseRest x e 63 (n - 1) [e]

/-- Credits of other queues that completion queue c holds back (R449). -/
def State.heldBack (s : State) (c q : Nat) : Nat :=
  s.host.queues.foldl (fun a e => if binds (s.queue c) e ∧ e.1 ≠ q then a + (e.2.creditMin - e.2.jobs.length) else a) 0

/-- Whether a queue can reserve a completion credit (R449, R450, R462). -/
def State.hasCredit (s : State) (q : Nat) : Bool :=
  let x := s.queue q
  match s.cqOf q with
  | none => false
  | some c =>
    decide ((s.queue c).st = .active) && !(s.host.notices.any (fun m => decide (m.cq = c))) &&
      (if x.typ = .admin then decide (0 < s.freeSlots c) else decide (s.heldBack c q < s.freeSlots c))

/-- Whether a queue's type lets it fetch now (R441): a DMA channel runs, holds fewer than 4 jobs and has run those it was resumed
with (R496, R511, R512), an INJECT queue's host-port pair is not in XOFF (R276). -/
def State.typeReady (s : State) (q : Nat) : Bool :=
  let x := s.queue q
  match x.typ with
  | .dma =>
    (match s.chanOf q with
     | some ch => decide (s.chanState ch = 1 ∧ (s.chanHeld ch).length < 4) && !(s.chan ch).resuming
     | none => false)
  | .inject => !s.rdb (wRidge + 0x100 * (128 + s.fnLink x.fn) + 0x10 * x.tc) Reg.RIDGE_PAIR_CTL_XOFF
  | _ => true

/-- Whether a queue may take a turn but for its credit: a job is pending that its type lets it fetch, or a framing error, which
waits for nothing, and its function is not in reset (R439, R441). -/
def State.hasWork (s : State) (q : Nat) : Bool :=
  let x := s.queue q
  decide (x.st = .active) && x.typ.submission && !s.inReset x.fn &&
    (match s.parseJob x with
     | .job _ => s.typeReady q
     | .bad => true
     | _ => false)

/-- Order of the round robin: functions after the last served, then queues of a function after its last (R441). -/
def State.turnKey (s : State) (e : Nat × Queue) : Nat :=
  ((e.2.fn + 255 - s.host.lastFn) % 256) * 512 +
    (e.2.idx + 511 - tabGet (fun _ => 0) s.host.lastIdx e.2.fn) % 512

/-- The element with the least key. -/
def leastBy {α : Type} (key : α → Nat) : List α → Option α
  | [] => none
  | a :: t =>
    match leastBy key t with
    | none => some a
    | some b => some (if key b < key a then b else a)

/-- The queue whose turn it is, and the queues that wait for a credit (R441, R449). -/
def State.nextTurn (s : State) : Option Nat :=
  (leastBy s.turnKey (s.host.queues.filter (fun e => s.hasWork e.1 &&
    (s.hasCredit e.1 || decide (s.parseJob e.2 = .bad))))).map (·.1)

/-- Each queue that has work and no credit pauses; the pause is counted once (R449, R576). -/
def State.markPauses (s : State) : State :=
  forEach (s.host.queues.filter (fun e => s.hasWork e.1 && decide (s.parseJob e.2 ≠ .bad) && !s.hasCredit e.1 &&
      !e.2.paused)) (fun e s =>
    (s.setQueue e.1 { s.queue e.1 with paused := true }).qmgrCount e.2.fn 8) s

/-- One job is fetched (R439 to R441). -/
def State.fetchJob (s : State) : State :=
  match s.nextTurn with
  | none => s.markPauses
  | some q =>
    let x := s.queue q
    let s1 := s.markPauses
    let s2 := { s1 with host := { s1.host with lastFn := x.fn, lastIdx := tabSet (fun _ => 0) s1.host.lastIdx x.fn x.idx } }
    match s.parseJob x with
    | .job l =>
      let h := (x.head + l.length) % x.size
      let j : Job := { q := q, seq := x.nextSeq, sqHead := h, entries := l }
      let s3 := s2.setQueue q { x with head := h, jobs := x.jobs ++ [j], nextSeq := x.nextSeq + 1, paused := false }
      let s4 := s3.qmgrCount x.fn x.typ.code
      (match s4.chanOf q with
       | some ch => s4.chanReport ch
       | none => s4)
    | .bad => s2.queueError q 2
    | _ => s2

/-! ### Completion rings (R445 to R452) -/

/-- PHASE as a queue reports it: the phase of the next completion write, 0 for a queue that carries no completion
writes of its own (R470, R473; log entry 180). -/
def phaseBit (x : Queue) : Nat := if x.typ = .completion ∨ x.typ = .admin then b2n x.phase else 0

/-- An entry written to the completion ring of c, with the lap's PHASE (R446, R447). -/
def State.ringPut (s : State) (c : Nat) (first15 : List Byte) (notice : Bool) : State :=
  let x := s.queue c
  let size := if x.typ = .admin then x.csize else x.size
  let base := if x.typ = .admin then x.cbase else x.base
  let tail := if x.typ = .admin then x.ctail else x.tail
  let s1 := s.hostWr (s.fnLink x.fn) (base + 16 * tail)
    (padTo 15 first15 ++ [BitVec.ofNat 8 (b2n notice + 128 * b2n x.phase)])
  let wrap := decide (tail + 1 = size)
  let t := if wrap then 0 else tail + 1
  s1.setQueue c { x with
    tail := if x.typ = .admin then x.tail else t
    ctail := if x.typ = .admin then t else x.ctail
    phase := if wrap then !x.phase else x.phase
    written := x.written + 1 }

/-- The bytes of a completion entry before byte 15 (R445). -/
def Compl.bytes (c : Compl) : List Byte :=
  leBytes 2 c.tag ++ leBytes 2 c.status ++ leBytes 2 c.q ++ leBytes 2 c.sqHead ++ padTo 7 c.result

/-- A reported completion leaves QMGR, and its job is no longer in flight. -/
def State.retire (s : State) (c : Compl) : State :=
  let x := s.queue c.q
  let s1 := s.setQueue c.q { x with jobs := x.jobs.filter (fun j => decide (j.seq ≠ c.seq)) }
  { s1 with host := { s1.host with done := s1.host.done.erase c
                                   started := s1.host.started.filter (fun e => decide (e ≠ (c.q, c.seq))) } }

/-- The completion that the ring of c takes next: in the order reported; the admin queue's in posting order (R451). -/
def State.nextDone (s : State) (c : Nat) : Option Compl :=
  let x := s.queue c
  if x.typ = .admin then
    match x.jobs with
    | [] => none
    | j :: _ => s.host.done.find? (fun d => decide (d.q = c ∧ d.seq = j.seq))
  else s.host.done.find? (fun d => decide (s.cqOf d.q = some c))

/-- A completion is written, or discarded when its completion queue is in ERROR (R446, R449, R451, R452, R462). An admin queue in
ERROR posts those of the jobs that it has fetched, as every submission queue does (R462, R465). -/
def State.writeDone (s : State) (c : Nat) : State :=
  match s.nextDone c with
  | none => s
  | some d =>
    let x := s.queue c
    let s1 := s.retire d
    if x.st = .error ∧ x.typ ≠ .admin then (s1.qmgrCount x.fn 10).fault .qmgr 2 c
    else
      let s2 := s1.ringPut c d.bytes false
      if x.typ = .admin then (if d.intr then s2.signal c else s2) else s2.coalesce c d.intr

/-- A notice of queue q is posted once a slot is free (R450, R462). -/
def State.postNotice (s : State) (q : Nat) : State :=
  match s.host.notices.find? (fun n => decide (n.q = q)) with
  | none => s
  | some n =>
    let s1 := { s with host := { s.host with notices := s.host.notices.erase n } }
    if s.takesNotice n = false then (s1.qmgrCount (s.queue n.cq).fn 10).fault .qmgr 2 n.cq
    else if s.freeSlots n.cq = 0 then s
    else
      (s1.ringPut n.cq (leBytes 2 0xFFFF ++ leBytes 2 St.QUEUE_FAILED ++ leBytes 2 q ++ leBytes 2 n.head ++
        leBytes 2 n.cause) true).signal n.cq

/-! ### Queues that end (R460, R463, R465) -/

/-- Every producer setting that names a queue is set to none (R463). -/
def State.clearProducers (s : State) (f i : Nat) : State :=
  let s1 := forEach (rangeFrom 0 8) (fun p s => forEach (rangeFrom 0 4) (fun t s =>
    let b := wPipe p + 0x10 * t
    if s.rd b Reg.PIPE_TENANT_A_OWNER = f ∧ s.rd b Reg.PIPE_TENANT_A_EVENT_Q = i
    then s.wr b Reg.PIPE_TENANT_A_EVENT_Q 0xFFFF else s) s) s
  let s2 := forEach (rangeFrom 0 128) (fun n s =>
    if tabGet (fun _ => 0) s.thyme.tsFn n = f ∧ s.rd (wThyme + 4 * n) Reg.THYME_PORT_TS_TS_Q = i
    then s.wr (wThyme + 4 * n) Reg.THYME_PORT_TS_TS_Q 0xFFFF else s) s1
  if f = s2.owner then
    forEach [0, 1, 2, 3, 4, 7] (fun x s =>
      let a := wThyme + 0x200 + 0x10 * x
      if s.reg a ≠ 0 ∧ bits (s.reg a) 31 16 = i then s.setReg a (setBits (s.reg a) 31 16 0xFFFF) else s) s2
  else s2

/-- A queue becomes ABSENT (R460, R463): its number and its quota are free again, and with its ring the notices end that it was
to take. Its next sequence number is kept, so that no later job takes an earlier one's name. -/
def State.queueGone (s : State) (q : Nat) : State :=
  let x := s.queue q
  let s0 := { s with thyme := { s.thyme with lostRun := tabSet (fun _ => 0) s.thyme.lostRun q 0 }
                     host := { s.host with notices := s.host.notices.filter (fun n => decide (n.cq ≠ q)) } }
  let s1 := (s0.setQueue q { nextSeq := x.nextSeq }).clearProducers x.fn x.idx
  if x.typ = .punt then (s1.acctTidy x.pool).poolReport x.pool else s1

/-- A STOPPING queue with nothing left becomes ABSENT, and its QUEUE_DESTROY jobs complete (R460, R469). -/
def State.stopDone (s : State) (q : Nat) : State :=
  let x := s.queue q
  if x.st = .stopping ∧ x.jobs = [] ∧ x.drawn = none then
    forEach x.destroyers (fun j s => s.complete j St.SUCCESS []) (s.queueGone q)
  else s

/-- Completions of queue q that have been reported are written, with those before them on its completion ring. -/
def State.flushDone (s : State) (q : Nat) : State :=
  match s.cqOf q with
  | some c => forEach s.host.done (fun _ s => if s.host.done.any (fun d => decide (d.q = q)) then s.writeDone c else s) s
  | none => s

/-- A queue destroyed at once (R412 step 5, R460, R465, R512): its fetched jobs are discarded, but for those of a DMA queue that
no reset of its function ends, which complete as R512 has it. -/
def State.queueKill (s : State) (drop : Bool) (q : Nat) : State :=
  let x := s.queue q
  let s0 := s.chanUnbind q drop
  let s1 := if drop ∨ x.typ ≠ .dma then s0 else s0.flushDone q
  let s2 := if x.typ = .punt then s1.puntStop q false else s1
  let s3 := { s2 with host := { s2.host with
    done := s2.host.done.filter (fun d => decide (d.q ≠ q))
    started := s2.host.started.filter (fun e => decide (e.1 ≠ q)) } }
  s3.queueGone q

/-- Every queue of a function is destroyed, its DMA queues first and its admin queue last (R412 step 2, R465); `reset` tells a
reset of the function from ENABLE 0. -/
def State.destroyAll (s : State) (f : Nat) (reset : Bool) : State :=
  let qs (dma : Bool) : List Nat := (s.host.queues.filter (fun e =>
    decide (e.2.fn = f ∧ e.2.st ≠ .absent ∧ 256 ≤ e.1) && (decide (e.2.typ = .dma) == dma))).map (·.1)
  (forEach (qs true ++ qs false) (fun q s => s.queueKill reset q) s).queueKill reset f

/-! ### The admin queue (R464, R465, R637) -/

/-- Base of an admin set-up pair at an offset of the function's window. -/
def State.adminBase (s : State) (f off : Nat) : Nat :=
  s.reg (s.fnBase f + off) + 2 ^ 32 * s.reg (s.fnBase f + off + 4)

/-- The admin queue of function f is created, or its set-up refused with cause 5 (R465). -/
def State.adminCreate (s : State) (f : Nat) : State :=
  let sb := s.adminBase f 0x2000
  let cb := s.adminBase f 0x2008
  let sn := s.reg (s.fnBase f + 0x2010) % 2 ^ 13
  let cn := s.reg (s.fnBase f + 0x2014) % 2 ^ 13
  let ok (n : Nat) : Bool := decide (16 ≤ n ∧ n ≤ 4096) && isPow2 n
  let x : Queue := { typ := .admin, fn := f, idx := 0, nextSeq := (s.queue f).nextSeq }
  if sb % 256 = 0 ∧ cb % 256 = 0 ∧ ok sn ∧ ok cn then
    s.setQueue f { x with st := .active, base := sb, size := sn, cbase := cb, csize := cn }
  else s.setQueue f { x with st := .error, cause := 5 }

/-- ENABLE of FN.ADMIN_CTL (R464). -/
def State.setEnable (s : State) (f v : Nat) : State := s.wr (s.fnBase f) Reg.FN_ADMIN_CTL_ENABLE v

/-- ENABLE written 1: creates the queue while it is ABSENT; in FUSED the write is held (R465, R637). -/
def State.adminEnable (s : State) (f : Nat) : State :=
  if s.inReset f ∨ s.fnExists f = false then s
  else
    let s1 := s.setEnable f 1
    if s1.devState = 1 then
      { s1 with dev := { s1.dev with heldEnable := if s1.dev.heldEnable.contains f then s1.dev.heldEnable
                                                   else s1.dev.heldEnable ++ [f] } }
    else if (s1.queue f).st = .absent then s1.adminCreate f else s1

/-- ENABLE written 0: every queue of the function ends (R465). -/
def State.adminDisable (s : State) (f : Nat) : State :=
  if s.inReset f ∨ s.fnExists f = false then s
  else
    let s1 := s.setEnable f 0
    ({ s1 with dev := { s1.dev with heldEnable := s1.dev.heldEnable.filter (fun g => decide (g ≠ f)) } }).destroyAll f false

/-! ### Queue commands (R466 to R470) -/

/-- Run-time queues of a function in existence (R435). -/
def State.runQueues (s : State) (f : Nat) : Nat :=
  (s.host.queues.filter (fun e => decide (256 ≤ e.1 ∧ e.2.fn = f ∧ e.2.st ≠ .absent))).length

/-- The lowest free global queue number from 256 (R435). -/
def State.freeQ (s : State) : Option Nat :=
  (rangeFrom 256 3840).find? (fun q => decide ((s.queue q).st = .absent))

/-- The COMPLETION queue of index i of function f (R448). -/
def State.complQ (s : State) (f i : Nat) : Option Nat :=
  match s.findQ f i with
  | some c => if (s.queue c).typ = .completion ∧ (s.queue c).st ≠ .stopping then some c else none
  | none => none

/-- CREDIT_MIN values bound to completion queue c (R449). -/
def State.creditSum (s : State) (c : Nat) : Nat :=
  s.host.queues.foldl (fun a e => if binds (s.queue c) e then a + e.2.creditMin else a) 0

/-- Classes of host link l that PUNT queues claim (R455). -/
def State.claimed (s : State) (l : Nat) : Nat :=
  s.host.queues.foldl (fun a e =>
    if e.2.typ = .punt ∧ e.2.st ≠ .absent ∧ s.fnLink e.2.fn = l then a ||| e.2.creditMin else a) 0

/-- PUNT queues that name pool x (R475). -/
def State.puntCount (s : State) (x : Nat) : Nat :=
  (s.host.queues.filter (fun e => decide (e.2.typ = .punt ∧ e.2.st ≠ .absent ∧ e.2.pool = x))).length

/-- QUEUE_CREATE (R468, R469, R495). -/
def queueCreate (j : Job) (s : State) : Answer :=
  let f := s.jobFn j
  let t := qtypeOf (j.byte 0 4)
  let wbType := decide (t = .punt ∨ t = .event)
  let i := j.le 6 2
  let base := j.le 8 8
  let size := j.le 16 4
  let cq := j.le 20 2
  let cm := j.le 22 2
  let tc := if wbType then 0 else j.byte 0 24
  let wb := if wbType then j.le 24 8 else 0
  let x := j.byte 0 5
  let sub := t.submission
  let c := s.complQ f cq
  if 8 ≤ j.byte 0 4 ∨ t = .admin ∨ j.only [(4, 4), (8, 8), (16, 4), (20, 2), (22, 2), (24, if wbType then 8 else 1)] = false ∨
     64 ≤ x ∨ (t ≠ .punt ∧ x ≠ 0) ∨ i = 0 ∨ 512 ≤ i ∨ base % 256 ≠ 0 ∨ size < 16 ∨ 65536 < size ∨ isPow2 size = false ∨
     (sub ∧ c = none) ∨ (t = .punt ∧ cq ≠ 0xFFFF ∧ c = none) ∨ (t = .inject ∧ 16 ≤ tc) ∨ (t = .dma ∧ 28 ≤ tc) ∨
     (t ≠ .inject ∧ t ≠ .dma ∧ tc ≠ 0) ∨ wb % 8 ≠ 0 ∨
     (t = .punt ∧ s.poolHolder x = f ∧ (s.poolState x = 0 ∨ s.poolInDram x ∨ 15 ≤ s.puntCount x)) then
    failA s St.QUEUE_INVALID
  else if s.findQ f i ≠ none ∨ (t = .punt ∧ s.claimed (s.fnLink f) &&& cm ≠ 0) ∨ (t = .dma ∧ s.chanBound tc) then
    failA s St.QUEUE_BUSY
  else
    match (if s.quota f ≤ s.runQueues f then none else s.freeQ) with
    | none => failA s St.QUOTA_FULL
    | some q =>
      if sub ∧ (match c with
          | some k => decide ((s.queue k).size < s.creditSum k + cm)
          | none => false) = true then failA s St.NO_CREDIT
      else if (t = .punt ∧ s.poolHolder x ≠ f) ∨
          (t = .dma ∧ s.rd (chanBase tc) Reg.PURLIN_CHAN_B_CHAN_FUNC ≠ 0xFFFF ∧
            s.rd (chanBase tc) Reg.PURLIN_CHAN_B_CHAN_FUNC ≠ f) then failA s St.NOT_OWNER
      else
        let timed := decide (t = .event ∨ t = .completion)
        let s1 := s.setQueue q {
          st := .active, typ := t, fn := f, idx := i, base := base, size := size, cq := cq, creditMin := cm,
          tc := tc, pool := x, wb := wb, coalUs := if timed then cq else 0, coalCount := if timed then cm else 0,
          nextSeq := (s.queue q).nextSeq }
        let s2 := if t = .dma then (s1.setChanState tc 1).wr (chanBase tc) Reg.PURLIN_CHAN_A_Q q else s1
        let s3 := if t = .punt then (match s2.acctMake x i with
          | some (_, s') => s'
          | none => s2) else s2
        okRes s3 (leBytes 2 q ++ leBytes 2 i)

/-- QUEUE_DESTROY (R460, R469, R512, R677). -/
def queueDestroy (j : Job) (s : State) : Answer :=
  let f := s.jobFn j
  let i := j.le 6 2
  if i = 0 ∨ 512 ≤ i ∨ j.one = false then failA s St.QUEUE_INVALID
  else match s.findQ f i with
  | none => failA s St.QUEUE_INVALID
  | some q =>
    let x := s.queue q
    if x.typ = .completion ∧ s.host.queues.any (fun e => binds x e ||
        decide (e.2.typ = .punt ∧ e.2.st ≠ .absent ∧ e.2.fn = f ∧ e.2.cq = i)) then failA s St.QUEUE_BUSY
    else if x.st = .stopping then laterA (s.setQueue q { x with destroyers := x.destroyers ++ [j] })
    else
      let s1 := s.chanUnbind q false
      let s2 := if x.typ = .punt then s1.puntStop q (decide (x.st = .active)) else s1
      laterA (s2.setQueue q { s2.queue q with st := .stopping, destroyers := [j] })

/-- The record of QUEUE_QUERY (R470). -/
def State.queueRecord (s : State) (q : Nat) : List Byte :=
  let x := s.queue q
  let reserved := if x.typ = .completion then
      s.host.queues.foldl (fun a e => if binds x e then a + e.2.jobs.length else a) 0
    else x.jobs.length
  [BitVec.ofNat 8 x.typ.code, BitVec.ofNat 8 (x.st.code + 4 * x.cause + 128 * phaseBit x)] ++ leBytes 2 q ++
    leBytes 4 x.size ++ leBytes 2 x.head ++ leBytes 2 x.tail ++ leBytes 2 x.cq ++ leBytes 2 x.creditMin ++
    leBytes 2 reserved ++ leBytes 2 (if x.typ = .completion then x.written else 0) ++ leBytes 4 x.lost ++ leBytes 8 0

/-- QUEUE_QUERY (R470). -/
def queueQuery (j : Job) (s : State) : Answer :=
  match (if 512 ≤ j.le 6 2 ∨ j.one = false then none else s.findQ (s.jobFn j) (j.le 6 2)) with
  | none => failA s St.QUEUE_INVALID
  | some q => okRes (s.jobWrite j j.hostAddr (s.queueRecord q)) (leBytes 4 32)

/-- QUEUE_COALESCE (R452, R467): entries that wait for the vector assert it at once when the new count or a timer of 0 has them
do so. -/
def queueCoalesce (j : Job) (s : State) : Answer :=
  match (if 512 ≤ j.le 6 2 ∨ j.one = false then none else s.findQ (s.jobFn j) (j.le 6 2)) with
  | none => failA s St.QUEUE_INVALID
  | some q =>
    let x := s.queue q
    let s1 := s.setQueue q { x with coalUs := j.le 8 2, coalCount := j.le 10 2 }
    if x.typ = .completion ∨ x.typ = .event then
      okA (if x.st = .active ∧ 0 < x.unsig ∧ (j.le 8 2 = 0 ∨ j.le 10 2 ≤ x.unsig) then s1.signal q else s1)
    else failA s St.QUEUE_INVALID

/-- ECHO (R467). -/
def echo (j : Job) (s : State) : Answer := okRes s (j.bytes 0 8 7)

/-! ### The rows -/

/-- ADMIN_CTL_ENABLE (R465). -/
def execAdminCtlEnable (f : Fin 256) (s : State) : Out := .next (s.posted f.val 0x2018 (fun s => s.adminEnable f.val))
/-- ADMIN_CTL_DISABLE (R465). -/
def execAdminCtlDisable (f : Fin 256) (s : State) : Out := .next (s.posted f.val 0x2018 (fun s => s.adminDisable f.val))
/-- SQ_TAIL_DOORBELL (R438): bits [31:16] of the word are ignored (R442). -/
def execSqTailDoorbell (f : Fin 256) (i : Fin 512) (v : Word32) (s : State) : Out :=
  .next (s.posted f.val (8 * i.val) (fun s => s.tailDoorbell f.val i.val (v.toNat % 2 ^ 16)))
/-- CQ_HEAD_DOORBELL (R443). -/
def execCqHeadDoorbell (f : Fin 256) (i : Fin 512) (v : Word32) (s : State) : Out :=
  .next (s.posted f.val (8 * i.val + 4) (fun s => s.headDoorbell f.val i.val (v.toNat % 2 ^ 16)))
/-- JOB_FETCH (R441). -/
def execJobFetch (s : State) : Out := .next s.fetchJob
/-- A job of an opcode that its queue does not accept (R434, R466): it completes with BAD_OPCODE. A DMA queue's takes its turn among
the jobs that its channel holds (R498, R504, R511; log entry 227). -/
def State.badOpcode (s : State) (j : Job) : State :=
  let done (t : State) : State := (t.startJob j).complete j ((s.gate { op := j.opcode } j).getD St.BAD_OPCODE) []
  if (s.jobReady j && !accepts (s.queue j.q).typ j.opcode) = false then s
  else if (s.queue j.q).typ ≠ .dma then done s
  else match s.chanOf j.q with
    | some ch => if s.chanNext ch j then (done s).chanReport ch else s
    | none => s

/-- UNDEFINED_OPCODE_JOB (R434, R466). -/
def execUndefinedOpcodeJob (j : Job) (s : State) : Out := .next (s.badOpcode j)
/-- COMPLETION_WRITE (R446): the ring of completion queue c, an admin queue's own included. -/
def execCompletionWrite (c : Fin 4096) (s : State) : Out := .next (s.writeDone c.val)
/-- NOTICE_POST (R450). -/
def execNoticePost (q : Fin 4096) (s : State) : Out := .next (s.postNotice q.val)
/-- COALESCE_TIMER_EXPIRY (R452). -/
def execCoalesceTimerExpiry (q : Fin 4096) (s : State) : Out :=
  .next (let x := s.queue q.val
         if x.st = .active ∧ (x.typ = .completion ∨ x.typ = .event) ∧ 0 < x.unsig then s.signal q.val else s)
/-- QUEUE_STOP_DONE (R460). -/
def execQueueStopDone (q : Fin 4096) (s : State) : Out := .next (s.stopDone q.val)
/-- QUEUE_CREATE (R468). -/
def execQueueCreate (j : Job) (s : State) : Out := jobRow { op := 0x01, owner := false } j s queueCreate
/-- QUEUE_DESTROY (R460). -/
def execQueueDestroy (j : Job) (s : State) : Out := jobRow { op := 0x02, owner := false } j s queueDestroy
/-- QUEUE_QUERY (R470). -/
def execQueueQuery (j : Job) (s : State) : Out := jobRow { op := 0x03, owner := false } j s queueQuery
/-- QUEUE_COALESCE (R452). -/
def execQueueCoalesce (j : Job) (s : State) : Out := jobRow { op := 0x04, owner := false } j s queueCoalesce
/-- ECHO (R467). -/
def execEcho (j : Job) (s : State) : Out := jobRow { op := 0x13, owner := false } j s echo
/-- EVENT_RECORD_POST (R454, R457): a producer's record of 32 bytes at an EVENT queue. -/
def execEventRecordPost (q : Fin 4096) (r : List Byte) (s : State) : Out := .next (s.postEvent q.val r)

end Sys2Proof.Machine
end

