-- ==== Sys2Proof/Machine/Net.lean ====
section
/-!
DEFINITION. What ports, Ridge and ESCH share: link states and rates, time, CRC-32, received pauses, the nodes of the
scheduling tree and the queue map (ch. 2, 9, 10, 12).
-/
namespace Sys2Proof.Machine

/-! ### Time -/

/-- The time counter in units of 1/256 ns (R362). -/
def State.now (s : State) : Nat := (s.clock.sec * 10 ^ 9 + s.clock.ns) * 256 + s.clock.sub / 2 ^ 40

/-- Seconds, nanoseconds and 1/256 ns of a time (R362). -/
def timeSec (t : Nat) : Nat := t / 256 / 10 ^ 9
def timeNs (t : Nat) : Nat := t / 256 % 10 ^ 9
def timeSub (t : Nat) : Nat := t % 256

/-- Core cycles that fit into a time in ns: 1.6 per ns, or 1.2 while Mint has lowered the clock (R4, R655). -/
def State.ccOf (s : State) (ns : Nat) : Nat := if s.rdb wMint Reg.MINT_STATUS_CLOCK_LOW then ns * 6 / 5 else ns * 8 / 5

/-- The core cycle now running: those counted up to the last clock switch, and those since at the present clock (R4). -/
def State.ccNow (s : State) : Nat := s.mint.ccBase + s.ccOf (s.clock.up - s.mint.switchedAt)

/-! ### Service engines (R244, R245, R247) -/

/-- STATE and DUTY of service engine v (R247): 1 running, 2 stalled and halted, 3 spare, 4 halted by SAFE. -/
def State.svcState (s : State) (v : Nat) : Nat := s.rd (wGlobal + 4 * v) Reg.GLOBAL_SVC_STATUS_STATE
def State.svcDuty (s : State) (v : Nat) : Nat := s.rd (wGlobal + 4 * v) Reg.GLOBAL_SVC_STATUS_DUTY

/-- Whether service engine v executes its firmware: it runs, BAD_OP has not stopped it, and JTAG does not halt it (R243, R245,
R616). -/
def State.svcLive (s : State) (v : Nat) : Bool :=
  decide (s.svcState v = 1 ∧ (tabGet (fun _ => ({} : Engine)) (tabGet (fun _ => ({} : Pipe)) s.pipes 8).engines v).handler = 0) &&
    !s.dev.halted.contains (512 + v)

/-- Whether a service engine runs duty d: a duty stops with its engine (R245). -/
def State.dutyRuns (s : State) (d : Nat) : Bool := (rangeFrom 0 16).any (fun v => s.svcLive v && decide (s.svcDuty v = d))

/-! ### Ports (R42 to R48, R406) -/

/-- A front port beside its registers, and the same replaced. -/
def State.port (s : State) (n : Nat) : PortSt := tabGet (fun _ => {}) s.ports n
def State.setPort (s : State) (n : Nat) (p : PortSt) : State := { s with ports := tabSet (fun _ => {}) s.ports n p }

/-- LINK_STATE (R75): 0 DISABLED, 1 AN, 2 TRAINING, 3 ALIGNING, 4 UP. -/
def State.linkState (s : State) (n : Nat) : Nat := s.rd (wPort n) Reg.PORT_STATUS_LINK_STATE

/-- Whether a port is UP (R48, R406). -/
def State.portUp (s : State) (n : Nat) : Bool :=
  if n < 128 then decide (s.linkState n = 4)
  else if n < 132 then (s.link (n - 128)).up
  else decide (n ≤ 140)

/-- MAC rate of a mode, in Mbit/s (R44). -/
def modeRate (m : Nat) : Nat :=
  if m = 0x01 then 1000 else if m = 0x02 then 10000 else if m = 0x03 then 25000 else if m = 0x04 then 50000
  else if m = 0x05 then 100000 else if m = 0x11 then 200000 else if m = 0x12 then 400000
  else if m = 0x13 then 800000 else 0

/-- MAC rate of a front port, in Mbit/s. -/
def State.rate (s : State) (n : Nat) : Nat := modeRate (s.rd (wPort n) Reg.PORT_CFG_MODE)

def State.maxFrame (s : State) (n : Nat) : Nat := s.rd (wPort n) Reg.PORT_FRAME_MAX_FRAME
def State.express (s : State) (n : Nat) : Bool := decide (n < 128) && s.rdb (wPort n) Reg.PORT_CFG_EXPRESS
def State.domain (s : State) (n : Nat) : Bool := decide (n < 128) && s.rdb (wPort n) Reg.PORT_CFG_DOMAIN
def State.preempting (s : State) (n : Nat) : Bool := decide (n < 128) && s.rdb (wPort n) Reg.PORT_STATUS_PREEMPT_ACTIVE

/-- Pipeline of a port: of front port 16p + k, and of recirculation port 132 + p (R15). -/
def pipeOf (n : Nat) : Nat := if n < 128 then n / 16 else if 132 ≤ n ∧ n < 140 then n - 132 else 0

/-- Whether the safe-state line stops frames at their boundaries (R31). -/
def State.halting (s : State) : Bool := s.dev.safeLine

/-! ### CRC-32 (R55, R290) -/

/-- One bit of the IEEE 802.3 CRC, least significant bit first. -/
def crcBit (c : BitVec 32) : BitVec 32 := if c.getLsbD 0 then (c >>> 1) ^^^ 0xEDB88320#32 else c >>> 1

/-- One byte of the CRC. -/
def crcByte (c : BitVec 32) (b : Byte) : BitVec 32 :=
  let x := c ^^^ b.zeroExtend 32
  crcBit (crcBit (crcBit (crcBit (crcBit (crcBit (crcBit (crcBit x)))))))

/-- CRC-32 of a frame. -/
def crc32 (l : List Byte) : Nat := (l.foldl crcByte 0xFFFFFFFF#32 ^^^ 0xFFFFFFFF#32).toNat

/-- A frame with its FCS. -/
def withFcs (l : List Byte) : List Byte := l ++ leBytes 4 (crc32 l)

/-- A bad frame as sent: the complement of the CRC in place of the FCS (R290). -/
def withBadFcs (l : List Byte) : List Byte := l ++ leBytes 4 (2 ^ 32 - 1 - crc32 l)

/-! ### Received pauses (R54, R58) -/

/-- Priority of class t on port n (R54). -/
def State.prioOf (s : State) (n t : Nat) : Nat := s.rd (wPort n) (Reg.PORT_PFC_MAP_TC t)

/-- The classes that a received pause holds on port n. -/
def State.pausedClasses (s : State) (n : Nat) : Nat :=
  let p := s.port n
  (rangeFrom 0 16).foldl (fun a t => a + b2n (p.rxPauseAll || p.rxPaused.testBit (s.prioOf n t)) * 2 ^ t) 0

/-- PFC_RX_PAUSED brought up to date (R75). -/
def State.pauseReport (s : State) (n : Nat) : State := s.wr (wPort n) Reg.PORT_STATUS_PFC_RX_PAUSED (s.pausedClasses n)

/-- Whether link retransmit holds class t of port n: its window is full (R346), or resends go first (R349). -/
def State.retxHeld (s : State) (n t : Nat) : Bool :=
  s.domain n && (s.rd (wJoist + 16 * n) Reg.JOIST_PORT_A_RETX_TC).testBit t &&
    (decide (s.rd (wJoist + 16 * n) Reg.JOIST_PORT_A_RETX_WINDOW ≤ s.rd (wJoist + 16 * n) Reg.JOIST_PORT_C_UNACKED) ||
      !(tabGet (fun _ => ({} : JoistPort)) s.joist.ports n).resend.isEmpty)

/-- Whether class t of port n is held by a received pause (R58). -/
def State.classPaused (s : State) (n t : Nat) : Bool := decide (n < 128) && (s.pausedClasses n).testBit t

/-! ### The scheduling tree (R306 to R309) -/

/-- Key of a node: kind 0 group, 1 subgroup, 2 queue, 3 port. -/
def nodeKey (kind n : Nat) : Nat := kind * 65536 + n

/-- A node after reset (R308). -/
def nodeReset (k : Nat) : Node :=
  let n := k % 65536
  if k / 65536 = 0 then (if n ≤ 140 then { parent := n, enable := true } else {})
  else if k / 65536 = 1 then (if n ≤ 140 then { parent := n, enable := true } else {})
  else if k / 65536 = 2 then
    (if n < 2256 then { parent := n / 16, tc := n % 16, level := n % 16 / 2, enable := true } else {})
  else if n ≤ 140 then { enable := true } else {}

def State.node (s : State) (kind n : Nat) : Node := tabGet nodeReset s.esch.nodes (nodeKey kind n)
def State.setNode (s : State) (kind n : Nat) (x : Node) : State :=
  { s with esch := { s.esch with nodes := tabSet nodeReset s.esch.nodes (nodeKey kind n) x } }
def State.nodeSt (s : State) (kind n : Nat) : NodeSt := tabGet (fun _ => {}) s.esch.states (nodeKey kind n)
def State.setNodeSt (s : State) (kind n : Nat) (x : NodeSt) : State :=
  { s with esch := { s.esch with states := tabSet (fun _ => {}) s.esch.states (nodeKey kind n) x } }

/-- Subgroup, group and port of an egress queue. -/
def State.qSub (s : State) (q : Nat) : Nat := (s.node 2 q).parent
def State.qGroup (s : State) (q : Nat) : Nat := (s.node 1 (s.qSub q)).parent
def State.qPort (s : State) (q : Nat) : Nat := (s.node 0 (s.qGroup q)).parent

/-- Class of an egress queue (R310). -/
def State.qTc (s : State) (q : Nat) : Nat := (s.node 2 q).tc

/-- The queue that port n maps class c to (R306). -/
def State.mapQ (s : State) (n c : Nat) : Nat :=
  s.rd (wEsch + 16 * n) Reg.ESCH_PORT_MAP_QBASE + s.rd (wEsch + 16 * n) (Reg.ESCH_TC_OFF c)

/-! ### Device number (R338) -/

def State.devNum (s : State) : Nat := s.rd wJoist Reg.JOIST_CFG_DEV_NUM

end Sys2Proof.Machine
end

