-- ==== Sys2Proof/Machine/Dpll.lean ====
section
/-!
DEFINITION. The DPLL's machine: its candidates, their qualification, its states and the recovered clocks (ch. 12, R381 to
R384).
-/
namespace Sys2Proof.Machine

/-- The offset d of the DPLL, in 1/1,024 ppb (R357, R387). -/
def State.dpllD (s : State) : Int := sInt 32 (s.rd wThyme Reg.THYME_DPLL_OFFSET_D)

/-- Word w of THYME.DPLL_CFG: bytes 4 + 4w on of the THYME_DPLL_SET in effect (R387). -/
def State.dpllWord (s : State) (w : Nat) : Nat := s.reg (wThyme + 0x300 + 4 * w)
def State.syncTime (s : State) : Bool := (s.dpllWord 0).testBit 10
def State.forceHold (s : State) : Bool := (s.dpllWord 0).testBit 11

/-- SRC and PRIO of candidate j (R381, R385). -/
def State.candSrc (s : State) (j : Nat) : Nat := bits (s.dpllWord (1 + j / 2)) (16 * (j % 2) + 7) (16 * (j % 2))
def State.candPrio (s : State) (j : Nat) : Nat := bits (s.dpllWord (1 + j / 2)) (16 * (j % 2) + 11) (16 * (j % 2) + 8)

/-- The preferred of the qualified candidates (R382). -/
def State.preferred (s : State) : Option Nat :=
  let l := (rangeFrom 0 4).filter (fun j => s.thyme.qualified.contains j && decide (s.candSrc j ≠ 0xFF))
  leastBy (fun j => 4 * s.candPrio j + j) l

def State.dpllState (s : State) : Nat := s.rd wThyme Reg.THYME_STATUS_DPLL_STATE
def State.dpllSel (s : State) : Nat := s.rd wThyme Reg.THYME_STATUS_DPLL_SEL

/-- The frequency that DPLL_HOLD holds, the mean of d over the last second, or since DPLL_ACQ was entered (R383): d itself when
the DPLL has been locked for a second. What d passes through while the DPLL acquires is in no state, and the mean over such a
time is free, within RANGE_PPB (R357; log entry 119). -/
def State.heldD (s : State) : Int × State :=
  let r : Int := 1024 * s.dpllWord 3
  if s.dpllState = 2 ∧ 10 ^ 9 ≤ s.clock.up - s.thyme.lockedAt then (s.dpllD, s)
  else
    let d := s.draw 32
    (max (-r) (min r d.1.toInt), d.2)

/-- The DPLL goes to a state with a candidate (R383); d is 0 in DPLL_FREE, and entry into DPLL_HOLD is a fault source
(R606). -/
def State.setDpll (s : State) (st sel : Nat) : State :=
  let h : Int × State := if st = 3 then s.heldD else if st = 0 then (0, s) else (s.dpllD, s)
  let s1 := (h.2.wr wThyme Reg.THYME_STATUS_DPLL_STATE st).wr wThyme Reg.THYME_STATUS_DPLL_SEL sel
  let s2 := (s1.wr wThyme Reg.THYME_DPLL_OFFSET_D (uNat 32 h.1)).event Ev.DPLL_STATE 0 s.dpllState st sel
  if st = 3 then s2.fault .thyme 2 0 else s2

/-- The DPLL's machine after a change of candidates or of FORCE_HOLD; `rise` is a candidate that has just qualified
(R383). -/
def State.dpllRun (s : State) (rise : Bool) : State :=
  let force := s.forceHold
  let best := s.preferred
  let lost := !s.thyme.qualified.contains s.dpllSel || decide (s.candSrc s.dpllSel = 0xFF)
  match s.dpllState with
  | 0 => match best with
    | some j => if force then s else s.setDpll 1 j
    | none => s
  | 1 =>
    if force then s.setDpll 3 7
    else if lost then (match best with
      | some j => s.setDpll 1 j
      | none => s.setDpll 0 7)
    else s
  | 2 =>
    if force then s.setDpll 3 7
    else if lost then (match best with
      | some j => s.setDpll 1 j
      | none => s.setDpll 3 7)
    else match best with
      | some j =>
        if rise ∧ (s.dpllWord 0).testBit 8 ∧ s.candPrio j < s.candPrio s.dpllSel then s.setDpll 1 j else s
      | none => s
  | _ => match best with
    | some j => if force then s else s.setDpll 1 j
    | none => s

/-- FREQ, RSRC and RCAND of output o (R381). -/
def State.rclk (s : State) (o : Nat) : Nat := bits (s.dpllWord 5) (8 * o + 7) (8 * o)

/-- The RCLK outputs follow the qualification of their candidates (R384). -/
def State.squelch (s : State) : State :=
  forEach [0, 1] (fun o s =>
    let c := s.rclk o
    let want := c % 4 ≠ 0 ∧ c.testBit 2 ∧ !s.thyme.qualified.contains (c / 8 % 4)
    let is := s.thyme.squelched.contains o
    if decide want = is then s
    else
      let l := if is then s.thyme.squelched.erase o else o :: s.thyme.squelched
      ({ s with thyme := { s.thyme with squelched := l } }).event Ev.RCLK_SQUELCH 0 o (b2n !is) 0) s

/-- Whether a candidate's reference is there: its port is UP, and so has block lock (R48), or REF10M_IN is present (R382). -/
def State.candPresent (s : State) (j : Nat) : Bool :=
  if s.candSrc j = 0xFE then s.rdb wThyme Reg.THYME_STATUS_REF10M_OK
  else decide (s.candSrc j < 128) && s.portUp (s.candSrc j)

/-- A candidate qualifies: its reference is there, its frequency, in ppb against SYNC_OSC_IN, is in range, and it is not in its
wait to restore (R382 to R384). -/
def State.qualify (s : State) (j : Nat) (ppb : Int) : State :=
  if s.candSrc j = 0xFF ∨ s.thyme.qualified.contains j ∨ s.candPresent j = false ∨ s.thyme.waits.contains j ∨
     s.dpllWord 3 < ppb.natAbs then s
  else (({ s with thyme := { s.thyme with qualified := j :: s.thyme.qualified } }).dpllRun true).squelch

/-- The wait to restore of a candidate ends (R382). -/
def State.waitOver (s : State) (j : Nat) : State := { s with thyme := { s.thyme with waits := s.thyme.waits.erase j } }

/-- A candidate is disqualified, and its wait to restore of WTR_S begins (R382 to R384). -/
def State.disqualify (s : State) (j : Nat) : State :=
  if s.thyme.qualified.contains j then
    let w := if s.dpllWord 4 % 2 ^ 16 = 0 then s.thyme.waits else j :: s.thyme.waits
    (({ s with thyme := { s.thyme with qualified := s.thyme.qualified.erase j, waits := w } }).dpllRun false).squelch
  else s

/-- A port that is no longer UP gives no reference: the candidates that it feeds are disqualified (R382). -/
def State.losePortRef (s : State) (n : Nat) : State :=
  forEach (rangeFrom 0 4) (fun j s => if s.candSrc j = n then s.disqualify j else s) s

end Sys2Proof.Machine
end

