-- ==== Sys2Proof/Machine/Cells.lean ====
section
/-!
DEFINITION. Ridge's cells: pairs and their charge, XOFF and XON, frames and egress queues, admission, multicast and
samplers (ch. 9, R268 to R297).
-/
namespace Sys2Proof.Machine

/-! ### Pairs (R273 to R276) -/

/-- Base of the registers of pair (n, c) (R304). -/
def pairBase (n c : Nat) : Nat := wRidge + 0x10 * (16 * n + c)

/-- Base of the Ridge registers of port n (R304). -/
def rportBase (n : Nat) : Nat := wRidge + 0x20 * n

/-- Whether a pair is lossless (R273). -/
def State.lossless (s : State) (n c : Nat) : Bool :=
  if n < 128 then
    match s.rd (wPort n) Reg.PORT_CFG_PAUSE_MODE with
    | 1 => true
    | 2 => (s.rd (wPort n) Reg.PORT_PFC_CFG_PFC_TX_EN).testBit (s.prioOf n c)
    | _ => false
  else decide (n < 132 ∨ n = 140)

def State.pairMin (s : State) (n c : Nat) : Nat := s.rd (pairBase n c) Reg.RIDGE_PAIR_CFG_MIN_CELLS
def State.pairUsed (s : State) (n c : Nat) : Nat := s.rd (pairBase n c) Reg.RIDGE_PAIR_USE_USED
def State.pairHdrm (s : State) (n c : Nat) : Nat := s.rd (pairBase n c) Reg.RIDGE_PAIR_HDRM_HDRM_USED
def State.pairXoff (s : State) (n c : Nat) : Bool := s.rdb (pairBase n c) Reg.RIDGE_PAIR_CTL_XOFF

/-- Headroom that a pair may use: none while it is lossy (R273, R278). -/
def State.hdrmCells (s : State) (n c : Nat) : Nat :=
  if s.lossless n c then s.rd (pairBase n c) Reg.RIDGE_PAIR_CFG_HDRM_CELLS else 0

/-- Shared use of a pair holding u cells, h of them in headroom, with minimum m. -/
def sharedUse (u h m : Nat) : Nat := u - h - min (u - h) m

def State.pairShared (s : State) (n c : Nat) : Nat := sharedUse (s.pairUsed n c) (s.pairHdrm n c) (s.pairMin n c)

/-- F, the free shared space (R274). -/
def State.freeShared (s : State) : Int := sInt 21 (s.rd wRidge Reg.RIDGE_SHARED_FREE_F)
def State.setFreeShared (s : State) (z : Int) : State := s.wr wRidge Reg.RIDGE_SHARED_FREE_F (uNat 21 z)

/-- Whether x < alpha * f, alpha = 2^ALPHA_K (R275). -/
def State.belowAlpha (s : State) (n c : Nat) (f x : Int) : Bool :=
  let k := sInt 3 (s.rd (pairBase n c) Reg.RIDGE_PAIR_CTL_ALPHA_K)
  if 0 ≤ k then decide (x < f * 2 ^ k.toNat) else decide (x * 2 ^ (-k).toNat < f)

/-- Whether x ≤ alpha * F (R276). -/
def State.withinAlpha (s : State) (n c : Nat) (x : Int) : Bool :=
  let k := sInt 3 (s.rd (pairBase n c) Reg.RIDGE_PAIR_CTL_ALPHA_K)
  if 0 ≤ k then decide (x ≤ s.freeShared * 2 ^ k.toNat) else decide (x * 2 ^ (-k).toNat ≤ s.freeShared)

/-- SHARED_CELLS under R274, before any register of it is written. -/
def State.sharedOf (s : State) : Int :=
  let pairs := rangeFrom 0 (16 * 141)
  524288 - 1024 - s.rd wRidge Reg.RIDGE_POOLS_MIRROR_CELLS - s.rd wRidge Reg.RIDGE_POOLS_DEEP_CELLS -
    pairs.foldl (fun a i => a + s.pairMin (i / 16) (i % 16) + s.hdrmCells (i / 16) (i % 16)) 0

/-- Sum of the shared use of all pairs. -/
def State.sharedUsed (s : State) : Nat :=
  (rangeFrom 0 (16 * 141)).foldl (fun a i => a + s.pairShared (i / 16) (i % 16)) 0

/-- SHARED_CELLS and F after a change of a setting that R274 sums (R274, R302); none when it would be negative. -/
def State.reshare (s : State) : Option State :=
  if s.sharedOf < 0 then none
  else some ((s.wr wRidge Reg.RIDGE_SHARED_SHARED_CELLS s.sharedOf.toNat).setFreeShared (s.sharedOf - s.sharedUsed))

/-- The same where no command can be refused, an entry into UP: SHARED_CELLS stays at 0 or above and F carries the
deficit (log entry 17). -/
def State.reshared (s : State) : State :=
  (s.wr wRidge Reg.RIDGE_SHARED_SHARED_CELLS s.sharedOf.toNat).setFreeShared (s.sharedOf - s.sharedUsed)

/-! ### XOFF and XON (R54 to R57, R276) -/

/-- Whether port n has an ability of PAUSE frames, 0 to send and 1 to honour them: the one that its negotiation resolved, and
with AN_EN 0 both (R48, R49). -/
def State.pauseAble (s : State) (n k : Nat) : Bool :=
  !s.rdb (wPort n) Reg.PORT_CFG_AN_EN || (s.port n).pauseAble.testBit k

/-- Priorities that port n advertises XOFF for; bit 0 stands for the port with PAUSE_MODE 1 (R54, R57). -/
def State.xoffMask (s : State) (n : Nat) : Nat :=
  let off (c : Nat) : Bool := s.pairXoff n c
  match s.rd (wPort n) Reg.PORT_CFG_PAUSE_MODE with
  | 1 => b2n (s.pauseAble n 0 && (rangeFrom 0 16).any off)
  | 2 => (rangeFrom 0 8).foldl (fun a j => a + b2n ((rangeFrom 0 16).any (fun c => off c && decide (s.prioOf n c = j))) * 2 ^ j) 0
  | _ => 0

/-- A pair's pause state changes; a front port's MAC will report what it advertises (R54, R56). -/
def State.setXoff (s : State) (n c : Nat) (b : Bool) : State :=
  let s1 := s.wr (pairBase n c) Reg.RIDGE_PAIR_CTL_XOFF (b2n b)
  if n < 128 then
    let p := s1.port n
    s1.setPort n { p with changed := p.changed ||| (p.sentXoff ^^^ s1.xoffMask n) }
  else s1

/-- Pairs in XOFF, from the registers listed. -/
def State.xoffPairs (s : State) : List (Nat × Nat) :=
  s.regs.filterMap (fun e =>
    let o := e.1 - (wRidge + 0x10004)
    if wRidge + 0x10004 ≤ e.1 ∧ o < 16 * 16 * 141 ∧ o % 16 = 0 ∧ e.2.toNat.testBit 31 then some (o / 256, o / 16 % 16)
    else none)

/-- Whether a pair in XOFF returns to XON (R276). -/
def State.mayXon (s : State) (n c : Nat) : Bool :=
  let x := s.pairShared n c
  let d := s.rd (pairBase n c) Reg.RIDGE_PAIR_CTL_XON_DELTA
  decide (s.pairHdrm n c = 0) && (decide (x = 0) || s.withinAlpha n c ((x : Int) + d))

/-- Every pair that may return to XON does (R276). -/
def State.xonAll (s : State) : State :=
  forEach s.xoffPairs (fun e s => if s.mayXon e.1 e.2 then s.setXoff e.1 e.2 false else s) s

/-! ### The cell memory (R268) -/

/-- A bank, and the same replaced. -/
def State.bank (s : State) (b : Nat) : Bank := tabGet (fun _ => {}) s.ridge.banks b
def State.setBank (s : State) (b : Nat) (x : Bank) : State :=
  { s with ridge := { s.ridge with banks := tabSet (fun _ => {}) s.ridge.banks b x } }

/-- Free cells of a bank of 16,384 (R268). -/
def Bank.free (x : Bank) : Nat := 16384 - x.fresh + x.freed.length

/-- Whether a cell of a bank, by its index, is on the free list. -/
def Bank.has (x : Bank) (i : Nat) : Bool := decide (x.fresh ≤ i) || x.freed.contains i

/-- Whether a cell is on the free list. -/
def State.cellFree (s : State) (k : Nat) : Bool := (s.bank (k / 16384)).has (k % 16384)

/-- A cell changes state: an audit that runs takes it as in use (R298). -/
def State.touchCell (s : State) (k : Nat) : State :=
  if s.rdb wRidge Reg.RIDGE_STATUS_AUDIT_ACTIVE then { s with ridge := { s.ridge with touched := k :: s.ridge.touched } } else s

/-- Whether cell writes go on in the cycle of the last one: in that core cycle, a bank is left (R268). -/
def State.sameCycle (s : State) : Bool :=
  decide (s.ridge.cellAt = s.ccNow ∧ 0 < s.ridge.wrote.length ∧ s.ridge.wrote.length < 32)

/-- The F that a cell written now is tested against: that of the start of its cycle (R275). -/
def State.cellF (s : State) : Int := if s.sameCycle then s.ridge.cycleF else s.freeShared

/-- The bank with the most free cells among those not yet written in the cycle (R268); of equals the lowest (DESIGN
CHOICE: log entry 200). -/
def State.nextBank (s : State) : Option Nat :=
  let l := (rangeFrom 0 32).filter (fun b => !(s.sameCycle && s.ridge.wrote.contains b) && decide (0 < (s.bank b).free))
  match l with
  | [] => none
  | a :: t => some (t.foldl (fun m b => if (s.bank m).free < (s.bank b).free then b else m) a)

/-- One cell written: its number, from the bank that R268 names; none when no bank has one. f is F as its cycle began (R275). -/
def State.takeCell (s : State) (f : Int) : Option (Nat × State) :=
  match s.nextBank with
  | none => none
  | some b =>
    let x := s.bank b
    let r : Nat × Bank := match x.freed with
      | i :: t => (i, { x with freed := t })
      | [] => (x.fresh, { x with fresh := x.fresh + 1 })
    let w := if s.sameCycle then s.ridge.wrote else []
    let s1 := (s.setBank b r.2).touchCell (16384 * b + r.1)
    some (16384 * b + r.1, { s1 with ridge := { s1.ridge with cellAt := s.ccNow, wrote := b :: w, cycleF := f } })

/-- n cells written. -/
def State.takeCells (s : State) : Nat → List Nat × State
  | 0 => ([], s)
  | n + 1 =>
    match s.takeCell s.cellF with
    | some (k, s1) =>
      let r := s1.takeCells n
      (k :: r.1, r.2)
    | none => ([], s)

/-- A cell taken off the free list of its bank (R299). -/
def Bank.without (x : Bank) (i : Nat) : Bank :=
  if x.fresh ≤ i then { freed := rangeFrom x.fresh (i - x.fresh) ++ x.freed, fresh := i + 1 }
  else { x with freed := x.freed.erase i }

def State.dropCell (s : State) (k : Nat) : State := s.setBank (k / 16384) ((s.bank (k / 16384)).without (k % 16384))

/-- Cells put back on the free list. -/
def State.putCells (s : State) (l : List Nat) : State :=
  forEach l (fun k s =>
    let x := s.bank (k / 16384)
    (s.setBank (k / 16384) { x with freed := k % 16384 :: x.freed }).touchCell k) s

/-! ### Charging and releasing cells (R268, R275) -/

/-- FREE_CELLS raised or lowered. -/
def State.addFree (s : State) (d : Int) : State :=
  s.wr wRidge Reg.RIDGE_STATUS_FREE_CELLS ((s.rd wRidge Reg.RIDGE_STATUS_FREE_CELLS : Int) + d).toNat

/-- One cell for a pair from the first source that can serve it (R275). -/
def State.chargeCell (s : State) (n c : Nat) : Option State :=
  let b := pairBase n c
  let u := s.pairUsed n c
  let h := s.pairHdrm n c
  let s1 := (s.wr b Reg.RIDGE_PAIR_USE_USED (u + 1)).addFree (-1)
  if s.rd wRidge Reg.RIDGE_STATUS_FREE_CELLS = 0 then none
  else if u - h < s.pairMin n c then some s1
  else if s.pairXoff n c = false ∧ s.belowAlpha n c s.cellF (s.pairShared n c) then some (s1.setFreeShared (s.freeShared - 1))
  else if s.lossless n c ∧ h < s.hdrmCells n c then
    let s2 := s1.wr b Reg.RIDGE_PAIR_HDRM_HDRM_USED (h + 1)
    some (if s.pairXoff n c then s2 else s2.setXoff n c true)
  else none

/-- Up to k cells for a pair, written one after another until one cannot be served: the cells, and the state with what they
charge and the XOFF that one of them may enter (R275). -/
def State.chargeCells (s : State) (n c : Nat) : Nat → List Nat × State
  | 0 => ([], s)
  | k + 1 =>
    match (s.chargeCell n c).bind (fun t => t.takeCell s.cellF) with
    | some (a, s1) =>
      let r := s1.chargeCells n c k
      (a :: r.1, r.2)
    | none => ([], s)

/-- A cell charged even above the threshold (R270). -/
def State.forceCell (s : State) (n c : Nat) : State :=
  match s.chargeCell n c with
  | some s1 => s1
  | none => ((s.wr (pairBase n c) Reg.RIDGE_PAIR_USE_USED (s.pairUsed n c + 1)).addFree (-1)).setFreeShared (s.freeShared - 1)

/-- k cells charged to a pair even above its threshold, and written (R270). -/
def State.forceCells (s : State) (n c : Nat) : Nat → List Nat × State
  | 0 => ([], s)
  | k + 1 =>
    match (s.forceCell n c).takeCell s.cellF with
    | some (a, s1) =>
      let r := s1.forceCells n c k
      (a :: r.1, r.2)
    | none => (s.forceCell n c).forceCells n c k

/-- k cells of a pair returned: to the headroom, then the shared pool, then the minimum (R275), and pairs that may
return to XON do (R276). -/
def State.releaseCells (s : State) (n c k : Nat) : State :=
  let b := pairBase n c
  let u := s.pairUsed n c
  let h := s.pairHdrm n c
  let dh := min k h
  let ds := min (k - dh) (s.pairShared n c)
  let s1 := (s.wr b Reg.RIDGE_PAIR_USE_USED (u - k)).wr b Reg.RIDGE_PAIR_HDRM_HDRM_USED (h - dh)
  ((s1.setFreeShared (s.freeShared + ds)).addFree k).xonAll

/-- Cells of a frame of n bytes, FCS included (R268). -/
def cellsFor (n : Nat) : Nat := (n + 32 + 255) / 256

/-! ### Frames -/

def State.frame (s : State) (i : Nat) : Frame := tabGet (fun _ => {}) s.ridge.frames i
def State.setFrame (s : State) (i : Nat) (f : Frame) : State :=
  { s with ridge := { s.ridge with frames := tabSet (fun _ => {}) s.ridge.frames i f } }

/-- A new frame's number. -/
def State.newFrame (s : State) (f : Frame) : Nat × State :=
  (s.ridge.nextFrame, ({ s with ridge := { s.ridge with nextFrame := s.ridge.nextFrame + 1 } }).setFrame s.ridge.nextFrame f)

/-- The charge of k cells of a frame is released to where it came from: its pair, the mirror pool or the deep pool. -/
def State.uncharge (s : State) (f : Frame) (k : Nat) : State :=
  match f.store with
  | 0 => s.releaseCells f.pairPort f.pairTc k
  | 1 => (s.wr wRidge Reg.RIDGE_POOL_USE_MIRROR_USED (s.rd wRidge Reg.RIDGE_POOL_USE_MIRROR_USED - k)).addFree k
  | 2 => (s.wr wRidge Reg.RIDGE_POOL_USE_DEEP_USED (s.rd wRidge Reg.RIDGE_POOL_USE_DEEP_USED - k)).addFree k
  | _ => s

/-- k more cells for a frame, charged to where its cells are even beyond the limit there (R270). -/
def State.extraCells (s : State) (f : Frame) (k : Nat) : List Nat × State :=
  match f.store with
  | 0 => s.forceCells f.pairPort f.pairTc k
  | 1 => ((s.wr wRidge Reg.RIDGE_POOL_USE_MIRROR_USED (s.rd wRidge Reg.RIDGE_POOL_USE_MIRROR_USED + k)).addFree (-(k : Int))).takeCells k
  | 2 => ((s.wr wRidge Reg.RIDGE_POOL_USE_DEEP_USED (s.rd wRidge Reg.RIDGE_POOL_USE_DEEP_USED + k)).addFree (-(k : Int))).takeCells k
  | _ => ([], s)

/-- The cells of a frame are given back to where they came from. -/
def State.freeCells (s : State) (i : Nat) : State :=
  let f := s.frame i
  ((s.setFrame i { f with cells := 0, held := [] }).putCells f.held).uncharge f f.cells

/-! ### Head cells (R270) -/

/-- The reserve of head cells of pipeline p. -/
def State.heads (s : State) (p : Nat) : List Nat := tabGet (fun _ => []) s.ridge.heads p

def State.setHeads (s : State) (p : Nat) (l : List Nat) : State :=
  { s with ridge := { s.ridge with heads := tabSet (fun _ => []) s.ridge.heads p l } }

/-- The reserves are filled, 128 cells for each pipeline, as the free list is built (R270, R632). DESIGN CHOICE (log entry
242): they are cells 0 to 31 of the pipeline's four banks, and FREE_CELLS no longer counts them. -/
def State.fillHeads (s : State) : State :=
  let s1 := forEach (rangeFrom 0 32) (fun b s => s.setBank b { s.bank b with fresh := 32 }) s
  (forEach (rangeFrom 0 8) (fun p s =>
    s.setHeads p ((rangeFrom (4 * p) 4).flatMap (fun b => (rangeFrom 0 32).map (fun i => 16384 * b + i)))) s1).addFree (-1024)

/-- A frame rewritten by pipeline p takes k cells, the first h of them head cells of the reserve. The original cells that it
no longer needs, with the cells by which it has grown, make the reserve whole, and what is left over is released (R270). -/
def State.repackCells (s : State) (p i k h : Nat) : State :=
  let f := s.frame i
  let new := (s.heads p).take h
  let n := f.held.length - (k - new.length)
  let grown : List Nat × State := if f.cells < k then s.extraCells f (k - f.cells) else ([], s)
  let loose := f.held.take n ++ grown.1
  let s1 := grown.2.setHeads p ((s.heads p).drop h ++ loose.take new.length)
  let s2 := (s1.putCells (loose.drop new.length)).uncharge f (f.cells - k)
  s2.setFrame i { s2.frame i with cells := k, held := new ++ f.held.drop n }

/-- The rest of a frame still being received is no longer written. -/
def State.stopReceiving (s : State) (i n : Nat) : State :=
  let p := s.port n
  forEach p.receiving (fun e s => match e.2 with
    | some r => if r.frame = i then
        s.setPort n { s.port n with receiving := tabSet (fun _ => none) (s.port n).receiving e.1 (some { r with drop := true }) }
      else s
    | none => s) s

/-- A frame's record goes, and its cells with it. -/
def State.clearFrame (s : State) (i : Nat) : State :=
  let f := s.frame i
  let s1 := (s.freeCells i).setFrame i {}
  if f.ended then s1 else s1.stopReceiving i f.inPort

/-- A reference of a frame is released; with the last one its cells are (R295).
A frame that shares another's cells then releases its reference of that one: at most eight passes deep. -/
def State.unrefN (s : State) : Nat → Nat → State
  | 0, _ => s
  | k + 1, i =>
    let f := s.frame i
    if f.refs ≤ 1 then
      match f.parent with
      | some p => (s.clearFrame i).unrefN k p
      | none => s.clearFrame i
    else s.setFrame i { f with refs := f.refs - 1 }

def State.unref (s : State) (i : Nat) : State := s.unrefN 9 i

/-- A frame leaves Ridge, whatever its references. -/
def State.dropFrame (s : State) (i : Nat) : State := (s.setFrame i { s.frame i with refs := 1 }).unref i

/-! ### Egress queues (R282, R287) -/

def State.egq (s : State) (q : Nat) : EgQ := tabGet (fun _ => {}) s.ridge.queues q
def State.setEgq (s : State) (q : Nat) (x : EgQ) : State :=
  { s with ridge := { s.ridge with queues := tabSet (fun _ => {}) s.ridge.queues q x } }

/-- Whether a queue holds no frame in any part. -/
def EgQ.isEmpty (x : EgQ) : Bool := x.head.isEmpty && x.dram.isEmpty && x.tail.isEmpty && x.mc.isEmpty

/-- Frames and copies in all parts. -/
def EgQ.count (x : EgQ) : Nat := x.head.length + x.dram.length + x.tail.length + x.mc.length

/-- Every copy of a queue. -/
def EgQ.all (x : EgQ) : List Copy := x.head ++ x.dram.map (·.1) ++ x.tail ++ x.mc

/-- Cells of a list of copies. -/
def State.copyCells (s : State) (l : List Copy) : Nat := l.foldl (fun a c => a + (s.frame c.frame).cells) 0

/-- Bytes of the DRAM part of a queue: of its frames, FCS included. -/
def State.dramBytes (s : State) (x : EgQ) : Nat :=
  x.dram.foldl (fun a e => a + ((s.frame e.1.frame).bytes.length + 4)) 0

/-- Bytes of spill space that the queues of a stack use. -/
def State.spillBytes (s : State) (st : Nat) : Nat :=
  s.ridge.queues.foldl (fun a e => if e.2.stack = st then a + s.dramBytes e.2 else a) 0

/-- USED_MIB of a stack brought up to date (R520, R546): whole MiB that the frames in its spill area take (log entry
16). -/
def State.spillReport (s : State) (st : Nat) : State :=
  s.wr (wDmc st) Reg.DMC_SPILL_USED_USED_MIB ((s.spillBytes st + 2 ^ 20 - 1) / 2 ^ 20)

/-- Whether Mint's CRITICAL state stops spilling (R284). -/
def State.mintCritical (s : State) : Bool := decide (s.rd wMint Reg.MINT_STATUS_STATE = 3)

/-- Whether a frame of n bytes may spill from a queue (R284, R520). -/
def State.canSpill (s : State) (x : EgQ) (n : Nat) : Bool :=
  x.deep && !s.mintCritical && !s.stackOffline x.stack &&
    decide (s.dramBytes x + n ≤ x.limit * 2 ^ 20 ∧ s.spillBytes x.stack + n ≤ (s.spillArea x.stack).2)

/-- When the DRAM part is empty the tail list joins the head list (R283). -/
def State.joinTail (s : State) (q : Nat) : State :=
  let x := s.egq q
  if x.dram.isEmpty ∧ !x.tail.isEmpty then s.setEgq q { x with head := x.head ++ x.tail, tail := [] } else s

/-- A unicast copy joins the first part of its queue that accepts it (R282, R286); a tail list behind an empty DRAM part
is part of the head list at once (R283). -/
def State.joinQueue (s : State) (q : Nat) (c : Copy) : State :=
  let x := s.egq q
  if (x.deep || !x.dram.isEmpty || !x.tail.isEmpty) && !c.cut then
    if x.dram.isEmpty ∧ x.tail.isEmpty ∧ s.copyCells x.head < x.spillOn then s.setEgq q { x with head := x.head ++ [c] }
    else if x.tail.isEmpty ∧ s.canSpill x ((s.frame c.frame).bytes.length + 4) then
      (s.setEgq q { x with dram := x.dram ++ [(c, false)] }).spillReport x.stack
    else (s.setEgq q { x with tail := x.tail ++ [c] }).joinTail q
  else s.setEgq q { x with head := x.head ++ [c] }

/-- Whether queue q is an express queue of its port, whose PARENT is ignored (R317). -/
def State.expressQ (s : State) (q : Nat) : Bool := (s.node 2 q).express && s.express (s.qPort q)

/-- A node with no frame of a queue below it has its deficit set to 0 (R316). -/
def State.idleDeficit (s : State) (kind n : Nat) (below : Nat → Bool) : State :=
  if s.ridge.queues.any (fun e => below e.1 && !e.2.isEmpty) then s
  else s.setNodeSt kind n { s.nodeSt kind n with deficit := 0 }

/-- The same for a subgroup and its group, which hold no express queue (R316, R317). -/
def State.idleAbove (s : State) (b : Nat) : State :=
  let g := (s.node 1 b).parent
  (s.idleDeficit 1 b (fun k => decide (s.qSub k = b) && !s.expressQ k)).idleDeficit 0 g
    (fun k => decide (s.qGroup k = g) && !s.expressQ k)

/-- The same for a queue and, unless it is an express queue, its ancestors below the port (R316, R317). -/
def State.idleDeficits (s : State) (q : Nat) : State :=
  let s1 := s.idleDeficit 2 q (fun k => decide (k = q))
  if s.expressQ q then s1 else s1.idleAbove (s.qSub q)

/-- A decision for the copy of that order on queue q is void once the copy has gone (R297, R318). -/
def State.unchoose (s : State) (q order : Nat) : State :=
  let p := s.port (s.qPort q)
  if p.chosen.any (fun e => decide (e.2 = some (q, order))) then
    s.setPort (s.qPort q) { p with chosen := p.chosen.filter (fun e => decide (e.2 ≠ some (q, order))) }
  else s

/-- A copy leaves its queue. -/
def State.leaveQueue (s : State) (q : Nat) (c : Copy) : State :=
  let x := s.egq q
  ((((s.setEgq q { x with head := x.head.erase c, tail := x.tail.erase c, mc := x.mc.erase c,
                          dram := x.dram.filter (fun e => decide (e.1 ≠ c)) }).spillReport x.stack).joinTail q).idleDeficits
    q).unchoose q c.order

/-- Whether a copy still on its queue is being written to a Peg buffer (R455). -/
def State.punted (s : State) (q : Nat) (c : Copy) : Bool :=
  s.host.queues.any (fun e => decide (e.2.punting = some (q, c.order)))

/-! ### Storms (R280, R281) -/

/-- Key of port n and class c. -/
def stormKey (n c : Nat) : Nat := 16 * n + c

def State.inStorm (s : State) (n c : Nat) : Bool := (s.rd (rportBase n) Reg.RIDGE_PORT_E_STORM).testBit c

/-- A frame or copy dropped in a storm is counted (R279, R281). -/
def State.stormCount (s : State) (n c : Nat) : State :=
  let x := tabGet (fun _ => ({} : Storm)) s.ridge.storms (stormKey n c)
  let s1 := { s with ridge := { s.ridge with
    storms := tabSet (fun _ => ({} : Storm)) s.ridge.storms (stormKey n c) { dropped := x.dropped + 1 } } }
  s1.portCount n (64 + c) 1

/-! ### Admission (R269, R288, R289, R295, R296, R306) -/

/-- The next place in the order of admission (R287). -/
def State.nextOrder (s : State) : Nat × State :=
  (s.ridge.order, { s with ridge := { s.ridge with order := s.ridge.order + 1 } })

/-- Whether Ridge admits: not once the device is in SAFE (R300, R32). -/
def State.admits (s : State) : Bool := decide (s.devState ≠ 5)

/-- Whether a unicast frame cuts through to queue q of port n (R288, R289). -/
def State.cutsThrough (s : State) (i n q : Nat) : Bool :=
  let f := s.frame i
  let room := (s.egq q).isEmpty && decide (n < 128 ∧ f.inPort < 128 ∧ s.rate n ≤ s.rate f.inPort)
  room && ((s.rdb (rportBase n) Reg.RIDGE_PORT_A_CT_EN && !f.ctDis && !f.ended && !f.preempted) ||
    (decide (14 ≤ f.outTc) && f.expressIn && s.express n))

/-- Bytes that joist insertion adds on port n (R341, R342). -/
def State.joistAdds (s : State) (i n : Nat) : Nat :=
  if s.domain n && decide (slice (s.frame i).bytes 12 2 ≠ [0x88, 0xB5]) then 16 else 0

/-- A copy is placed on a queue, or dropped where the port and class are in a storm (R281). -/
def State.place (s : State) (q : Nat) (c : Copy) : State :=
  let n := s.qPort q
  let t := s.qTc q
  if s.inStorm n t then (s.stormCount n t).unref c.frame
  else
    let s1 := s.pcEvent none 0x09 1 (fun x => decide (x = q)) {}
    if c.group.isSome || c.sample then s1.setEgq q { s1.egq q with mc := (s1.egq q).mc ++ [c] } else s1.joinQueue q c

/-- A frame is admitted to one queue (R269, R306). -/
def State.admitTo (s : State) (i q : Nat) (launch : Option Nat) : State :=
  if s.admits = false then s.dropFrame i
  else
    let n := s.qPort q
    let cut := s.cutsThrough i n q
    let (o, s1) := s.nextOrder
    let s2 := s1.setFrame i { s1.frame i with refs := (s1.frame i).refs + 1, admitted := true }
    let s3 := if cut then s2.portCount n 100 1 else s2
    s3.place q { frame := i, order := o, time := s.clock.up, launch := launch, cut := cut }

/-- The queue of a unicast frame: its own when it lies under the port, else the mapped one (R306). -/
def State.chooseQ (s : State) (n c : Nat) (q : Option Nat) : Nat × State :=
  match q with
  | none => (s.mapQ n c, s)
  | some q => if s.qPort q = n then (q, s) else (s.mapQ n c, s.portCount n 106 1)

/-- A group. -/
def State.group (s : State) (g : Nat) : McGroup := tabGet (fun _ => {}) s.ridge.groups g
def State.setGroup (s : State) (g : Nat) (x : McGroup) : State :=
  { s with ridge := { s.ridge with groups := tabSet (fun _ => {}) s.ridge.groups g x } }

/-- Bytes that a frame will have, without FCS: while its last byte has not come, what has not arrived is added (R81,
R216). -/
def Frame.fullLen (f : Frame) : Nat :=
  if f.ended then f.bytes.length
  else f.bytes.length + (f.total - if f.rewritten then max 192 f.recv.length else f.recv.length)

/-- Whether a member gets a copy (R296, R342): the frame's length is that of all its bytes. -/
def State.memberGets (s : State) (i : Nat) (g : McGroup) (n : Nat) : Bool :=
  let len := (s.frame i).fullLen + 4 + s.joistAdds i n
  s.portUp n && !(g.prune && decide (n = (s.frame i).inPort)) &&
    (decide (s.joistAdds i n = 0) || decide (len ≤ 16384 ∧ len ≤ s.maxFrame n))

/-- A frame is admitted to a group: one copy for each member, in member order (R295, R296). -/
def State.admitGroup (s : State) (i g : Nat) : State :=
  if s.admits = false then s.dropFrame i
  else
    let x := s.group g
    let yes := x.members.filter (fun m => s.memberGets i x m.1)
    let s1 := forEach (x.members.filter (fun m => !s.memberGets i x m.1)) (fun m s => s.portCount m.1 96 1) s
    let s2 := s1.setFrame i { s1.frame i with refs := (s1.frame i).refs + yes.length, admitted := true }
    if yes = [] then (if (s2.frame i).refs = 0 then s2.dropFrame i else s2)
    else forEach yes (fun m s =>
      let (o, s') := s.nextOrder
      s'.place (s'.mapQ m.1 (s'.frame i).outTc)
        { frame := i, order := o, time := s'.clock.up, group := some g, copyId := m.2, holdUs := x.holdUs }) s2

/-! ### Mirroring (R292 to R294) -/

def samplerBase (i : Nat) : Nat := wRidge + 8 * i

/-- A sample is made of a frame's bytes, or skipped and counted (R293, R294). -/
def State.makeSample (s : State) (i : Nat) (f : Frame) (bytes : List Byte) : State :=
  let b := samplerBase i
  let n := s.rd b Reg.RIDGE_SAMPLER_B_PORT
  let data := bytes.take (if s.rdb b Reg.RIDGE_SAMPLER_A_TRUNC then 256 else 128)
  let k := cellsFor (data.length + 4)
  let used := s.rd wRidge Reg.RIDGE_POOL_USE_MIRROR_USED
  if s.portUp n = false then s.portCount n 97 1
  else if s.rd wRidge Reg.RIDGE_POOLS_MIRROR_CELLS < used + k then s.count 149 4 1
  else
    let c := ((s.wr wRidge Reg.RIDGE_POOL_USE_MIRROR_USED (used + k)).addFree (-(k : Int))).takeCells k
    let (j, s2) := c.2.newFrame {
      bytes := data, recv := data, ended := true, inPort := f.inPort, inTc := f.inTc, rx := f.rx,
      cells := k, held := c.1, store := 1, refs := 1, admitted := true, offered := true, code := s.rd b Reg.RIDGE_SAMPLER_B_CODE,
      outTc := s.rd b Reg.RIDGE_SAMPLER_B_TC }
    let (o, s3) := s2.nextOrder
    (s3.count 149 3 1).place (s3.mapQ n (s.rd b Reg.RIDGE_SAMPLER_B_TC))
      { frame := j, order := o, time := s.clock.up, sample := true }

/-- A frame is offered to sampler i (R292); nothing is sampled in SAFE (R300). -/
def State.offer (s : State) (i : Nat) (f : Frame) (bytes : List Byte) : State :=
  let n := s.rd (samplerBase i) Reg.RIDGE_SAMPLER_A_N
  let c := tabGet (fun _ => 0) s.ridge.offers i + 1
  if n = 0 ∨ s.admits = false then s
  else
    let set (v : Nat) : State := { s with ridge := { s.ridge with offers := tabSet (fun _ => 0) s.ridge.offers i v } }
    if n ≤ c then (set 0).makeSample i f bytes else set c

/-- Rx and Tenon offers, once the frame is admitted and its last byte received with a good FCS (R292). -/
def State.offerFrame (s : State) (i : Nat) : State :=
  let f := s.frame i
  if f.offered ∨ f.admitted = false ∨ f.ended = false ∨ f.bad ≠ 0 then s
  else
    let b := rportBase f.inPort
    let rx := if s.rdb b Reg.RIDGE_PORT_D_RX_SMP_EN then [s.rd b Reg.RIDGE_PORT_D_RX_SAMPLER] else []
    let tenon := f.mirrors.filter (fun m => !rx.contains m)
    let s1 := s.setFrame i { f with offered := true, mirrors := rx ++ tenon }
    let s2 := forEach rx (fun m s => s.offer m f f.recv) s1
    forEach tenon.eraseDups (fun m s => s.offer m f f.bytes) s2

/-! ### Bad frames (R290, R291) -/

/-- Whether any MAC is sending a frame. -/
def State.beingSent (s : State) (i : Nat) : Bool :=
  s.ports.any (fun e => e.2.sending.any (fun x => match x.2 with
    | some t => decide (t.copy.frame = i)
    | none => false))

/-- An admitted frame found bad before its transmission leaves every queue (R291). -/
def State.discardQueued (s : State) (i : Nat) : State :=
  forEach s.ridge.queues (fun e s =>
    forEach (e.2.all.filter (fun c => decide (c.frame = i))) (fun c s => (s.leaveQueue e.1 c).unref i) s) s

end Sys2Proof.Machine
end

