-- ==== Sys2Proof/Machine/Ridge.lean ====
section
/-!
DEFINITION. Ridge: headroom, the PFC watchdog, deep queues, the audit and the Ridge commands (ch. 9, R277 to R305).
-/
namespace Sys2Proof.Machine

/-! ### Headroom (R277, R278) -/

/-- PHY_NS of a mode and FEC (R277). -/
def phyNs (mode fec : Nat) : Nat :=
  if mode = 0x01 then 2000 else if mode = 0x03 ∧ fec = 2 then 600 else if mode = 0x04 then 600 else 400

/-- The wake time of port n: TW_SYS_TX, never less than the clause's for the mode (R51; log entry 201). -/
def State.wakeNs (s : State) (n : Nat) : Nat :=
  max (s.rd (wPort n) Reg.PORT_EEE_TW_SYS_TX) (Config.twSysTx (s.rd (wPort n) Reg.PORT_CFG_MODE))

/-- Headroom of a lossless class of front port n (R277), in whole numbers: R is the rate in Mbit/s. -/
def State.headroom (s : State) (n : Nat) : Nat :=
  let r := s.rate n
  let mf := s.maxFrame n
  let f := if s.preempting n then 64 * (2 + s.rd (wPort n) Reg.PORT_PREEMPT_FRAG_ADD_FRAG_SIZE) else mf
  let wake := if s.rdb (wPort n) Reg.PORT_CFG_EEE_EN then s.wakeNs n else 0
  let t := 54 + 10 * s.rd (rportBase n) Reg.RIDGE_PORT_D_CABLE_M +
    phyNs (s.rd (wPort n) Reg.PORT_CFG_MODE) (s.rd (wPort n) Reg.PORT_STATUS_FEC_RESOLVED) +
    s.rd (rportBase n) Reg.RIDGE_PORT_E_PEER_NS + wake
  min 65535 ((r * t + 8000 * (f + 104) + 671999) / 672000 + (mf + 32 + 255) / 256)

/-- HDRM_CELLS of the pairs of port n whose HDRM_AUTO is 1: computed for a lossless pair of a front port with a mode, UP or
not, and 64 for a host or service port (R277, R278). -/
def State.autoHdrm (s : State) (n : Nat) : State :=
  forEach (rangeFrom 0 16) (fun c s =>
    if s.rdb (pairBase n c) Reg.RIDGE_PAIR_CTL_HDRM_AUTO = false ∨ s.lossless n c = false then s
    else if n < 128 then
      (if s.rate n ≠ 0 then s.wr (pairBase n c) Reg.RIDGE_PAIR_CFG_HDRM_CELLS (s.headroom n) else s)
    else s.wr (pairBase n c) Reg.RIDGE_PAIR_CFG_HDRM_CELLS 64) s

/-- The headroom of port n recomputed and the pools with it, when its port enters UP (R276, R277). -/
def State.portHeadroom (s : State) (n : Nat) : State := (s.autoHdrm n).reshared.xonAll

/-- Inputs of R277 may have changed beside a command, its preemption or its FEC: where a pair of port n has a computed
headroom, that is computed again. -/
def State.hdrmMoved (s : State) (n : Nat) : State :=
  if (rangeFrom 0 16).any (fun c => s.rdb (pairBase n c) Reg.RIDGE_PAIR_CTL_HDRM_AUTO && s.lossless n c) then s.portHeadroom n
  else s

/-- A pair in XOFF that has become lossy returns to XON: a lossy pair is never in XOFF (R276). -/
def State.lossyXon (s : State) (n : Nat) : State :=
  forEach (rangeFrom 0 16) (fun c s => if s.pairXoff n c && !s.lossless n c then s.setXoff n c false else s) s

/-- A changed setting of port n taken with its headroom, or refused when SHARED_CELLS would be negative (R274). -/
def State.withHeadroom (s : State) (n : Nat) (r : List Byte) (old : State) : Answer :=
  match (s.autoHdrm n).reshare with
  | some s1 => okRes (s1.lossyXon n).xonAll r
  | none => failA old St.POOL_NEGATIVE

/-! ### The PFC watchdog (R280, R281) -/

/-- Whether a port and class counts as paused (R280). -/
def State.wdPaused (s : State) (n c : Nat) : Bool := s.classPaused n c || !s.portUp n

/-- Every frame and copy of a port and class that no MAC is sending is dropped (R281). -/
def State.stormDrop (s : State) (n c : Nat) : State :=
  forEach s.ridge.queues (fun e s =>
    if s.qPort e.1 = n ∧ s.qTc e.1 = c then
      forEach (e.2.all.filter (fun k => !s.punted e.1 k)) (fun k s => ((s.leaveQueue e.1 k).stormCount n c).unref k.frame) s
    else s) s

/-- Frames dropped in the storm of a port and class. -/
def State.stormDropped (s : State) (n c : Nat) : Nat :=
  (tabGet (fun _ => ({} : Storm)) s.ridge.storms (stormKey n c)).dropped

/-- STORM of port n and class c set. -/
def State.setStorm (s : State) (n c : Nat) (b : Bool) : State :=
  let v := s.rd (rportBase n) Reg.RIDGE_PORT_E_STORM
  s.wr (rportBase n) Reg.RIDGE_PORT_E_STORM (setBits v c c (b2n b))

/-- WD_MS of a paused port and class ends: a storm is declared (R280). -/
def State.stormBegin (s : State) (n c : Nat) : State :=
  if s.rdb (rportBase n) Reg.RIDGE_PORT_A_WD_EN ∧ s.wdPaused n c ∧ s.inStorm n c = false ∧ s.admits then
    let s1 := (s.setStorm n c true).stormDrop n c
    s1.event Ev.PFC_STORM 0 (n * 16 + c) (s1.stormDropped n c) 0
  else s

/-- WD_RESTORE_MS free of pause: the storm ends (R281). -/
def State.stormEnd (s : State) (n c : Nat) : State :=
  if s.inStorm n c ∧ s.wdPaused n c = false ∧ s.admits then
    let d := s.stormDropped n c
    let s1 := (s.setStorm n c false).event Ev.PFC_STORM_END 0 (n * 16 + c) d 0
    { s1 with ridge := { s1.ridge with storms := tabErase s1.ridge.storms (stormKey n c) } }
  else s

/-- A multicast copy that has not begun within the HOLD_US of its admission is dropped for its port (R295, R297), but
nothing is dropped in SAFE, where cell contents stay (R300). -/
def State.holdDrop (s : State) (q k : Nat) : State :=
  match (s.egq q).mc[k]? with
  | none => s
  | some c =>
    match (if s.punted q c ∨ s.admits = false ∨ s.clock.up < c.time + 1000 * c.holdUs then none else c.group) with
    | none => s
    | some g =>
      let n := s.qPort q
      let s1 := ((s.leaveQueue q c).portCount n (80 + s.qTc q) 1).event Ev.MCAST_HOLD_DROP 0 g n c.holdUs
      (s1.pcEvent none 0x08 1 (fun x => decide (x = g)) {}).unref c.frame

/-! ### Deep queues (R282 to R285) -/

/-- The DMC confirms the oldest unconfirmed spill write of a queue (R282). -/
def State.spillConfirm (s : State) (q : Nat) : State :=
  let x := s.egq q
  match x.dram.find? (fun e => !e.2) with
  | none => s
  | some (c, _) =>
    if s.admits = false ∨ s.stackOffline x.stack then s
    else
      let s1 := s.setEgq q { x with dram := x.dram.map (fun e => if e.1 = c then (e.1, true) else e) }
      let s2 := (s1.freeCells c.frame).count 149 0 ((s1.frame c.frame).bytes.length + 4)
      s2.setFrame c.frame { s2.frame c.frame with store := 3 }

/-- A refill read returns the oldest frame of the DRAM part into the deep pool (R283).
`ok` is false for a word that ECC cannot correct: the frame leaves as a bad one (R532). -/
def State.refillReturn (s : State) (q : Nat) (ok : Bool) : State :=
  let x := s.egq q
  match x.dram with
  | (c, true) :: t =>
    let f := s.frame c.frame
    let k := cellsFor (f.bytes.length + 4)
    let used := s.rd wRidge Reg.RIDGE_POOL_USE_DEEP_USED
    if s.admits = false ∨ s.stackOffline x.stack ∨ x.refill ≤ s.copyCells x.head ∨
       s.rd wRidge Reg.RIDGE_POOLS_DEEP_CELLS < used + k then s
    else
      let s1 := ((s.wr wRidge Reg.RIDGE_POOL_USE_DEEP_USED (used + k)).addFree (-(k : Int))).takeCells k
      let s2 := s1.2.setFrame c.frame { f with cells := k, held := s1.1, store := 2, bad := if ok then f.bad else 1 }
      let s3 := (s2.setEgq q { x with dram := t, head := x.head ++ [c] }).count 149 1 (f.bytes.length + 4)
      (s3.spillReport x.stack).joinTail q
  | _ => s

/-- A stack goes offline: the deep queues with a DRAM part on it stall (R285). -/
def State.deepOffline (s : State) (st : Nat) : State :=
  forEach s.ridge.queues (fun e s =>
    if e.2.stack = st ∧ !e.2.dram.isEmpty ∧ e.2.stalled = none then
      (s.setEgq e.1 { e.2 with stalled := some s.clock.up }).event Ev.DEEP_STALLED 0 e.1 st 0
    else s) s

/-- The stack returns: the stalled queues resume (R285). -/
def State.deepOnline (s : State) (st : Nat) : State :=
  forEach s.ridge.queues (fun e s =>
    match e.2.stalled with
    | some t =>
      if e.2.stack = st then
        (s.setEgq e.1 { e.2 with stalled := none }).event Ev.DEEP_RESUMED 0 e.1 ((s.clock.up - t) / 1000) 0
      else s
    | none => s) s

/-- Whether a deep queue of a stack has a non-empty DRAM part (R545). -/
def State.deepHolds (s : State) (st : Nat) : Bool :=
  s.ridge.queues.any (fun e => decide (e.2.stack = st) && !e.2.dram.isEmpty)

/-! ### The leaked-cell audit (R298, R299) -/

/-- Whether v10 audits: its duty runs, and neither SAFE nor a deferral stops it (R245, R298, R300). -/
def State.audits (s : State) : Bool :=
  s.dutyRuns 10 && s.admits && !s.rdb wRidge Reg.RIDGE_STATUS_AUDIT_DEFERRED

/-- An audit begins. -/
def State.auditBegin (s : State) : State :=
  if s.audits = false ∨ s.rdb wRidge Reg.RIDGE_STATUS_AUDIT_ACTIVE then s
  else ({ s with ridge := { s.ridge with touched := [] } }).wr wRidge Reg.RIDGE_STATUS_AUDIT_ACTIVE 1

/-- A free cell that a failure has lost from the free list: it stays charged to the pair of its tag. -/
def State.cellLost (s : State) (e : Nat × Nat × Nat) : State :=
  if s.cellFree e.1 then
    let s1 := (s.dropCell e.1).forceCell e.2.1 e.2.2
    { s1 with ridge := { s1.ridge with leaked := s1.ridge.leaked ++ [e] } }
  else s

/-- A cell back on the free list, and its charge removed (R299). -/
def State.cellFound (s : State) (e : Nat × Nat × Nat) : State :=
  let s1 := (s.putCells [e.1]).releaseCells e.2.1 e.2.2 1
  { s1 with ridge := { s1.ridge with leaked := s1.ridge.leaked.erase e } }

/-- A cell in use that a failure has put on the free list too. -/
def State.cellDoubled (s : State) (k : Nat) : State :=
  if s.cellFree k then s
  else s.setBank (k / 16384) { s.bank (k / 16384) with freed := k % 16384 :: (s.bank (k / 16384)).freed }

/-- The in-use map of an audit (R298): the cells of frames, in reception, in queues, held for multicast, as samples or as
refills, those reserved for clones, and the head reserves. -/
def State.cellsInUse (s : State) : List Nat :=
  s.ridge.frames.flatMap (fun e => e.2.held) ++ s.ridge.heads.flatMap (fun e => e.2) ++
    s.pipes.flatMap (fun e => e.2.engines.flatMap (fun t => t.2.clones.flatMap (fun c => c.cells.getD [])))

/-- Whether an audit finds a cell in neither the free list nor the in-use map; one that has changed state meanwhile counts as
in use (R298). -/
def State.cellNeither (s : State) (k : Nat) : Bool :=
  !s.cellFree k && !s.cellsInUse.contains k && !s.ridge.touched.contains k

/-- An audit ends: the free list is compared with the in-use map. A cell found in neither in this audit and in the one before
is reclaimed, and a cell found in both is fatal (R298, R299). A cell leaks or is doubled only by a failure of the device: the
failures that strike while the audit runs are the command's operands, free cells lost from the free list, each with the pair
of its tag, and cells in use put on it (log entry 18). -/
def State.auditEnd (s0 : State) (lost : List (Nat × Nat × Nat)) (doubled : List Nat) : State :=
  if s0.audits = false ∨ s0.rdb wRidge Reg.RIDGE_STATUS_AUDIT_ACTIVE = false then s0
  else
    let s := forEach doubled (fun k s => s.cellDoubled k) (forEach lost (fun e s => s.cellLost e) s0)
    let found := s.ridge.leaked.filter (fun e => s.cellNeither e.1)
    let again := found.filter (fun e => s.ridge.suspects.contains e.1)
    let both := (s.cellsInUse.filter (fun k => s.cellFree k && !s.ridge.touched.contains k))
    let s1 := (s.wr wRidge Reg.RIDGE_STATUS_AUDIT_ACTIVE 0).inc wRidge Reg.RIDGE_AUDIT_AUDITS 1
    let left := (found.map (fun e => e.1)).filter (fun k => !s.ridge.suspects.contains k)
    let s2 := { s1 with ridge := { s1.ridge with suspects := left, touched := [] } }
    let s3 := forEach again (fun e s => s.cellFound e) s2
    let s4 := if again = [] then s3
      else
        (((s3.inc wRidge Reg.RIDGE_LEAKED_RECLAIMED again.length).count 149 2 again.length).eventFw Ev.CELL_LEAK 0
          again.length (match again with
            | e :: _ => e.1
            | [] => 0) (s3.rd wRidge Reg.RIDGE_AUDIT_AUDITS)).fault .ridge 0 again.length
    if both = [] then s4 else s4.fault .ridge 1 (both.headD 0)

/-! ### Commands (R301 to R303) -/

/-- Whether a function may set a port: a front port's holder, the owner for ports 128 to 140 (R302, R332). -/
def State.holdsPort (s : State) (f n : Nat) : Bool :=
  if n < 128 then decide (s.portHolder n = f) else decide (f = s.owner)

/-- RIDGE_POOL_SET. -/
def ridgePoolSet (j : Job) (s : State) : Answer :=
  if j.one = false then failA s St.RIDGE_INVALID
  else
    let s1 := ((s.wr wRidge Reg.RIDGE_POOLS_MIRROR_CELLS (j.le 8 2)).wr wRidge Reg.RIDGE_POOLS_DEEP_CELLS (j.le 10 2)).wr
      wRidge Reg.RIDGE_AUDIT_AUDIT_MS (j.le 12 2)
    match s1.reshare with
    | none => failA s St.POOL_NEGATIVE
    | some s2 => okRes s2.xonAll (leBytes 4 (s2.rd wRidge Reg.RIDGE_SHARED_SHARED_CELLS))

/-- RIDGE_PAIR_SET. -/
def ridgePairSet (j : Job) (s : State) : Answer :=
  let n := j.le 4 2
  let mask := j.le 6 2
  let k := sInt 8 (j.byte 0 12)
  if 140 < n then failA s St.RIDGE_INVALID
  else if s.holdsPort (s.jobFn j) n = false then failA s St.NOT_OWNER
  else if k < -4 ∨ 3 < k ∨ j.one = false then failA s St.RIDGE_INVALID
  else
    let s1 := forEach ((rangeFrom 0 16).filter (fun c => mask.testBit c)) (fun c s =>
      let b := pairBase n c
      let s1 := (s.wr b Reg.RIDGE_PAIR_CFG_MIN_CELLS (j.le 8 2)).wr b Reg.RIDGE_PAIR_CTL_ALPHA_K (uNat 3 k)
      let s2 := (s1.wr b Reg.RIDGE_PAIR_CTL_HDRM_AUTO (b2n (j.bit 13 0))).wr b Reg.RIDGE_PAIR_CTL_XON_DELTA (j.le 14 2)
      if j.bit 13 0 = false then s2.wr b Reg.RIDGE_PAIR_CFG_HDRM_CELLS (j.le 10 2) else s2) s
    match (s1.autoHdrm n).reshare with
    | none => failA s St.POOL_NEGATIVE
    | some s2 => okRes s2.xonAll (leBytes 4 (s2.rd wRidge Reg.RIDGE_SHARED_SHARED_CELLS))

/-- RIDGE_PORT_SET. -/
def ridgePortSet (j : Job) (s : State) : Answer :=
  let n := j.le 4 2
  let b := rportBase n
  if 140 < n then failA s St.RIDGE_INVALID
  else if s.holdsPort (s.jobFn j) n = false then failA s St.NOT_OWNER
  else if 5 ≤ j.bits 6 2 0 ∨ 16 ≤ j.byte 0 7 ∨ 4096 ≤ j.le 16 2 ∨ j.one = false then failA s St.RIDGE_INVALID
  else
    let s1 := s.setReg (b + 0x1000) (b2n (j.bit 6 5) * 2 ^ 31 + b2n (j.bit 6 6) * 2 ^ 30 + j.bits 6 2 0 * 2 ^ 27 +
      j.bits 6 4 3 * 2 ^ 25 + j.byte 0 7)
    let s2 := (s1.setReg (b + 0x1004) (j.le 8 4)).setReg (b + 0x1008) (j.le 14 2 * 2 ^ 16 + j.le 12 2)
    let s3 := s2.setReg (b + 0x100C) (b2n (j.bit 22 1) * 2 ^ 31 + b2n (j.bit 22 0) * 2 ^ 30 + j.byte 0 21 * 2 ^ 22 +
      j.byte 0 20 * 2 ^ 14 + j.le 16 2)
    (s3.wr b Reg.RIDGE_PORT_E_PEER_NS (j.le 18 2)).withHeadroom n [] s

/-- RIDGE_DSCP_SET. -/
def ridgeDscpSet (j : Job) (s : State) : Answer :=
  if 4 ≤ j.byte 0 4 ∨ j.one = false then failA s St.RIDGE_INVALID
  else
    let a := wRidge + 0x200 + 0x20 * j.byte 0 4
    okA (forEach (rangeFrom 0 8) (fun w s => s.setReg (a + 4 * w) (leNat (s.hostRd (s.jobLink j) (j.le 8 8 + 4 * w) 4)))
      (s.countMoved 30 32))

/-- RIDGE_SAMPLER_SET: a change of N resets the count (R292). -/
def ridgeSamplerSet (j : Job) (s : State) : Answer :=
  let i := j.byte 0 4
  let b := samplerBase i
  let n := j.le 8 4
  if 2 ^ 24 ≤ n ∨ 131 < j.byte 0 13 ∨ j.one = false then failA s St.RIDGE_INVALID
  else
    let same := decide (s.rd b Reg.RIDGE_SAMPLER_A_N = n)
    let s1 := s.setReg (b + 0x20000) (b2n (j.bit 12 0) * 2 ^ 31 + n)
    let s2 := s1.setReg (b + 0x20004) (j.le 16 2 * 2 ^ 16 + j.bits 14 3 0 * 2 ^ 12 + j.byte 0 13)
    okA (if same then s2
      else { s2 with ridge := { s2.ridge with offers := tabSet (fun _ => 0) s2.ridge.offers i 0 } })

/-- Members of a list in host memory: port and COPY_ID (R303). -/
def State.readMembers (s : State) (link a n : Nat) : List (Nat × Nat) :=
  (rangeFrom 0 n).map (fun k =>
    let e := s.hostRd link (a + 4 * k) 4
    (leNat (e.take 1), leNat (slice e 2 2)))

/-- Members of every group but g. -/
def State.otherMembers (s : State) (g : Nat) : Nat :=
  s.ridge.groups.foldl (fun a e => if e.1 = g then a else a + e.2.members.length) 0

/-- RIDGE_MCAST_SET (R295, R302). -/
def ridgeMcastSet (j : Job) (s : State) : Answer :=
  let g := j.le 8 2
  let n := j.le 10 2
  let l := s.readMembers (s.jobLink j) j.hostAddr (min n 4096)
  if 4096 < n ∨ j.one = false then failA s St.RIDGE_INVALID
  else
    let s0 := s.countMoved 30 (4 * n)
    if (l.any fun m => decide (139 < m.1)) = true then failA s0 St.RIDGE_INVALID
    else if 131072 < s.otherMembers g + n then failA s0 St.MCAST_FULL
    else okA (s0.setGroup g { members := l, holdUs := j.le 12 2, prune := j.bit 14 0 })

/-- RIDGE_DEEP_SET (R282, R301). -/
def ridgeDeepSet (j : Job) (s : State) : Answer :=
  let first := j.le 8 2
  let n := j.le 12 4
  let l := rangeFrom first (min n 65536)
  if n = 0 then okA s
  else if 65536 < first + n ∨ 65536 < n ∨ 16384 ≤ j.le 22 2 ∨ j.one = false then failA s St.RIDGE_INVALID
  else if (l.any fun q => !s.holdsPort (s.jobFn j) (s.qPort q)) = true then failA s St.NOT_OWNER
  else okA (forEach l (fun q s => s.setEgq q { s.egq q with
    deep := j.bit 16 0, stack := j.bits 16 2 1, spillOn := j.le 18 2, refill := j.le 20 2, limit := j.le 22 2 }) s)

/-- The record of a queue query (R303). -/
def State.egqRecord (s : State) (q : Nat) : List Byte :=
  let x := s.egq q
  leBytes 4 (s.copyCells (x.head ++ x.tail)) ++ leBytes 4 ((s.dramBytes x + 1023) / 1024) ++ leBytes 4 x.count ++
    leBytes 1 (b2n x.deep + 2 * b2n (!x.dram.isEmpty) + 4 * b2n x.stalled.isSome +
      8 * b2n (s.inStorm (s.qPort q) (s.qTc q))) ++ leBytes 1 x.stack ++ [0, 0]

/-- The record of a group query (R303). -/
def State.groupRecord (s : State) (g : Nat) : List Byte :=
  let x := s.group g
  leBytes 2 x.members.length ++ leBytes 2 x.holdUs ++ leBytes 4 (b2n x.prune) ++
    x.members.flatMap (fun m => leBytes 1 m.1 ++ [0] ++ leBytes 2 m.2)

/-- RIDGE_QUERY (R302, R303). -/
def ridgeQuery (j : Job) (s : State) : Answer :=
  let k := j.le 8 2
  if 2 ≤ j.byte 0 5 ∨ j.one = false then failA s St.RIDGE_INVALID
  else if j.byte 0 5 = 0 ∧ s.holdsPort (s.jobFn j) (s.qPort k) = false then failA s St.NOT_OWNER
  else
    let r := if j.byte 0 5 = 0 then s.egqRecord k else s.groupRecord k
    okRes (s.jobWrite j j.hostAddr r) (leBytes 4 r.length)

/-! ### The rows -/

/-- WD_EXPIRY (R280). -/
def execWdExpiry (n : Fin 141) (c : Fin 16) (s : State) : Out := .next (s.stormBegin n.val c.val)
/-- WD_RESTORE_EXPIRY (R281). -/
def execWdRestoreExpiry (n : Fin 141) (c : Fin 16) (s : State) : Out := .next (s.stormEnd n.val c.val)
/-- MCAST_HOLD_EXPIRY (R297): copy k of the multicast list of queue q. -/
def execMcastHoldExpiry (q : BitVec 16) (k : Nat) (s : State) : Out := .next (s.holdDrop q.toNat k)
/-- SPILL_WRITE_CONFIRM (R282). -/
def execSpillWriteConfirm (q : BitVec 16) (s : State) : Out := .next (s.spillConfirm q.toNat)
/-- REFILL_READ_RETURN (R283). -/
def execRefillReadReturn (q : BitVec 16) (ok : Bool) (s : State) : Out := .next (s.refillReturn q.toNat ok)
/-- CELL_AUDIT (R298): an audit begins, or the one that runs ends, with the failures that have struck while it ran. -/
def execCellAudit (begins : Bool) (lost : List (Fin 524288 × Fin 141 × Fin 16)) (doubled : List (Fin 524288)) (s : State) : Out :=
  .next (if begins then s.auditBegin
    else s.auditEnd (lost.map (fun e => (e.1.val, e.2.1.val, e.2.2.val))) (doubled.map (fun k => k.val)))
/-- RIDGE_POOL_SET (R301). -/
def execRidgePoolSet (j : Job) (s : State) : Out := jobRow { op := 0x50 } j s ridgePoolSet
/-- RIDGE_PAIR_SET (R301). -/
def execRidgePairSet (j : Job) (s : State) : Out := jobRow { op := 0x51, owner := false } j s ridgePairSet
/-- RIDGE_PORT_SET (R301). -/
def execRidgePortSet (j : Job) (s : State) : Out := jobRow { op := 0x52, owner := false } j s ridgePortSet
/-- RIDGE_DSCP_SET (R301). -/
def execRidgeDscpSet (j : Job) (s : State) : Out := jobRow { op := 0x53 } j s ridgeDscpSet
/-- RIDGE_SAMPLER_SET (R292). -/
def execRidgeSamplerSet (j : Job) (s : State) : Out := jobRow { op := 0x54 } j s ridgeSamplerSet
/-- RIDGE_MCAST_SET (R295). -/
def execRidgeMcastSet (j : Job) (s : State) : Out := jobRow { op := 0x55 } j s ridgeMcastSet
/-- RIDGE_DEEP_SET (R282). -/
def execRidgeDeepSet (j : Job) (s : State) : Out := jobRow { op := 0x56, owner := false } j s ridgeDeepSet
/-- RIDGE_QUERY (R303). -/
def execRidgeQuery (j : Job) (s : State) : Out := jobRow { op := 0x57, owner := false } j s ridgeQuery

end Sys2Proof.Machine
end

