-- ==== Sys2Proof/Machine/Esch.lean ====
section
/-!
DEFINITION. ESCH: buckets, eligibility, selection, the node commands and queries (ch. 10, R306 to R336).
-/
namespace Sys2Proof.Machine

/-! ### Buckets (R325, R326) -/

/-- A bucket refilled to a time in ns, at a rate in kbit/s, up to a burst in bytes: rate / 31,250 units of 1/256 byte each
nanosecond (R325). -/
def Bucket.refill (b : Bucket) (rate burst now : Nat) : Bucket :=
  let g := rate * (now - b.time) + b.frac
  let full := (burst * 256 : Int)
  let t := b.tokens + (g / 31250 : Nat)
  if full ≤ t then { tokens := full, time := now, frac := 0 } else { tokens := t, time := now, frac := g % 31250 }

/-- A full bucket (R312, R325). -/
def fullBucket (burst now : Nat) : Bucket := { tokens := burst * 256, time := now }

/-- A bucket charged n bytes. -/
def Bucket.charge (b : Bucket) (n : Int) : Bucket := { b with tokens := b.tokens - n * 256 }

/-- The time-bus nanosecond count that buckets refill by (R325). -/
def State.nowNs (s : State) : Nat := s.clock.sec * 10 ^ 9 + s.clock.ns

/-- Both buckets of a node refilled. -/
def State.nodeNow (s : State) (kind n : Nat) : NodeSt :=
  let d := s.node kind n
  let x := s.nodeSt kind n
  { x with cb := x.cb.refill d.cir d.cbs s.nowNs, pb := x.pb.refill d.pir d.pbs s.nowNs }

/-- Test 8 for one node: its peak bucket holds at least 0 tokens, or is not in use (R313). -/
def State.peakOk (s : State) (kind n : Nat) : Bool :=
  !(s.node kind n).pirEn || decide (0 ≤ (s.nodeNow kind n).pb.tokens)

/-- A committed node (R314). -/
def State.committed (s : State) (kind n : Nat) : Bool :=
  (s.node kind n).cirEn && decide (0 ≤ (s.nodeNow kind n).cb.tokens)

/-! ### Gates (R66, R68) -/

/-- The entry of a list at an offset into the cycle, and how long it still lasts: entries are cut at the cycle's end,
and the last one holds until it (R66). -/
def gclAt (cycle : Nat) : List (Nat × Nat × Nat) → Nat → Nat → Nat → Option (Nat × Nat × Nat)
  | [], _, _, _ => none
  | [e], i, start, off => if off < cycle then some (i, e.1, cycle - max off start) else none
  | e :: t, i, start, off =>
    let fin := min cycle (start + e.2.2)
    if off < fin then some (i, e.1, fin - off) else gclAt cycle t (i + 1) fin off

/-- Start of the cut-short last cycle of a list that a change at time c extends its previous cycle over, if it does
(R67). -/
def Gcl.extends (g : Gcl) (c : Nat) : Option Nat :=
  let last := g.base + (c - g.base) / g.cycle * g.cycle
  if g.base + g.cycle ≤ last ∧ last < c ∧ c - last < g.ext then some last else none

/-- Index, gates and remaining ns of a list's entry at a time in ns, under a pending change of lists (R66, R67). -/
def Gcl.at (g : Gcl) (change : Option Nat) (t : Nat) : Nat × Nat × Nat :=
  match g.entries with
  | [] => (0, g.init, g.cycle)
  | l =>
    let longer := match change with
      | some c => (match g.extends c with
        | some last => if last ≤ t then some (c - t) else none
        | none => none)
      | none => none
    match longer with
    | some left =>
      let e := (gclAt g.cycle l 0 0 (g.cycle - 1)).getD (0, g.init, g.cycle)
      (e.1, e.2.1, left)
    | none => (gclAt g.cycle l 0 0 (((t : Int) - g.base) % g.cycle).toNat).getD (0, g.init, g.cycle)

/-- Nanoseconds from time t until the gate of class c closes, looking over at most n entries; none when it stays open. -/
def Gcl.closesIn (g : Gcl) (change : Option Nat) (c : Nat) : Nat → Nat → Option Nat
  | 0, _ => none
  | n + 1, t =>
    let e := g.at change t
    if e.2.1.testBit c then (g.closesIn change c n (t + e.2.2)).map (· + e.2.2) else some 0

/-- The change time of port n's pending list. -/
def PortSt.changeAt (p : PortSt) : Option Nat := if p.pending.isSome then some p.change else none

/-- Nanoseconds until the gate of class c of port n next closes: under the operational list up to the pending list's change
time, and under the pending list from then on (R67, R68). -/
def State.gateCloses (s : State) (n c : Nat) : Option Nat :=
  let p := s.port n
  let t := s.nowNs
  let old := match p.gcl with
    | some g => g.closesIn p.changeAt c (g.entries.length + 2) t
    | none => none
  let before := match old with
    | some x => if t + x < max t p.change then some x else none
    | none => none
  match p.pending, before with
  | none, _ => old
  | some _, some x => some x
  | some g, none => (g.closesIn none c (g.entries.length + 2) (max t p.change)).map (· + (max t p.change - t))

/-- Nanoseconds that n bytes take at port's rate with preamble and gap, rounded up (R68). -/
def State.wireNs (s : State) (n len : Nat) : Nat := ((len + 20) * 8000 + s.rate n - 1) / max 1 (s.rate n)

/-! ### Heads of queues (R287, R313 test 2) -/

/-- The head that a queue offers: of its on-die unicast list and its multicast list, the one admitted first. -/
def EgQ.headCopy (x : EgQ) : Option Copy :=
  match x.head, x.mc with
  | a :: _, b :: _ => some (if b.order < a.order then b else a)
  | a :: _, [] => some a
  | [], b :: _ => some b
  | [], [] => none

/-- Length of a copy as sent, FCS, joist header and a front port's padding of a good frame included; MAX_FRAME while it is
not known (R313, R321, R341). -/
def State.sentLen (s : State) (n : Nat) (c : Copy) : Nat :=
  let f := s.frame c.frame
  if f.ended then
    max (if n < 128 ∧ f.bad = 0 then 64 else 0) (f.bytes.length + 4 + s.joistAdds c.frame n -
      (if !s.domain n && decide (slice f.bytes 12 2 = [0x88, 0xB5]) then 16 else 0))
  else s.maxFrame n

/-- The launch instant of a launched copy: T less TX_TOTAL (R324). -/
def State.launchAt (s : State) (n : Nat) (t : Nat) : Nat := ((t : Int) - sInt 32 (s.rd (wPort n) (Reg.PORT_CAL 7))).toNat

/-- Whether a copy's launch time lets it start: none, or arrived (R313 test 6). -/
def State.launchOk (s : State) (n : Nat) (c : Copy) : Bool :=
  match c.launch with
  | none => true
  | some t => c.due || decide (s.launchAt n t ≤ s.now)

/-- Whether queue q uses MAC m of its port (R61, R319): 0 is the express MAC, or the only one. -/
def State.onMac (s : State) (n q m : Nat) : Bool :=
  if s.preempting n then
    decide (m = if (s.rd (wPort n) Reg.PORT_PREEMPT_EXPRESS_TC).testBit (s.qTc q) then 0 else 1)
  else decide (m = 0)

/-- Whether starting a frame of n bytes now would end after the launch instant of another queue's waiting head on the
same MAC (R324). -/
def State.launchGuard (s : State) (n q m len : Nat) : Bool :=
  s.ridge.queues.any (fun e => decide (e.1 ≠ q ∧ s.qPort e.1 = n) && s.onMac n e.1 m &&
    (match e.2.headCopy with
     | some c =>
       (match c.launch with
        | some t => !s.launchOk n c && decide (s.launchAt n t < s.now + s.wireNs n len * 256)
        | none => false)
     | none => false))

/-- The PUNT queue that claims class c of host link l (R455). -/
def State.puntQ (s : State) (l c : Nat) : Option Nat :=
  (s.host.queues.find? (fun e => decide (e.2.typ = .punt ∧ e.2.st ≠ .absent ∧ s.fnLink e.2.fn = l) &&
    e.2.creditMin.testBit c)).map (·.1)

/-- Whether a host port does not drain a class: no PUNT queue can take its frame (R27, R455). It holds the class as a
received pause does (log entry 23). -/
def State.puntHeld (s : State) (n c : Nat) : Bool :=
  decide (128 ≤ n ∧ n < 132) &&
    (match s.puntQ (n - 128) c with
     | none => true
     | some p =>
       let x := s.queue p
       decide (x.st ≠ .active) || x.full || x.punting.isSome ||
         (x.drawn.isNone && (s.pool x.pool).waiting.contains p))

/-- ADD_FRAG_SIZE that port n applies to what it sends: the partner's, once learned (R62), else the port's own (DESIGN
CHOICE: log entry 191). -/
def State.addFrag (s : State) (n : Nat) : Nat :=
  (s.port n).txFrag.getD (s.rd (wPort n) Reg.PORT_PREEMPT_FRAG_ADD_FRAG_SIZE)

/-- Whether the gate of class t of port n, its time left, or Set-And-Hold-MAC keeps a frame off MAC m whose first part that
cannot be cut has `first` bytes (R68). -/
def State.gateHeld (s : State) (n t m first : Nat) : Bool :=
  decide (n < 128) && (!(s.port n).gates.testBit t || (decide (m = 1) && (s.port n).hold) ||
    (match s.gateCloses n t with
     | some x => decide (x < s.wireNs n first)
     | none => false))

/-- Bytes of a frame of len bytes on MAC m that go out uncut: its first minimum fragment on the preemptable MAC (R62, R68). -/
def State.uncut (s : State) (n m len : Nat) : Nat := if m = 1 then min len (64 * (1 + s.addFrag n)) else len

/-! ### Eligibility (R313) -/

/-- The first failing test of a queue, 1 to 8; 0 when it is eligible. -/
def State.blockedBy (s : State) (q : Nat) : Nat :=
  let n := s.qPort q
  let d := s.node 2 q
  let m := if s.onMac n q 1 then 1 else 0
  let path := if s.expressQ q then [(3, n)] else [(1, s.qSub q), (0, s.qGroup q), (3, n)]
  if d.enable = false ∨ (path.any fun e => !(s.node e.1 e.2).enable) = true then 1
  else match (s.egq q).headCopy with
  | none => 2
  | some c =>
    let f := s.frame c.frame
    let len := s.sentLen n c
    if f.ended = false ∧ c.cut = false then 2
    else if s.portUp n = false ∨ s.halting then 3
    else if s.classPaused n d.tc ∨ s.retxHeld n d.tc ∨ s.puntHeld n d.tc then 4
    else if s.gateHeld n d.tc m (s.uncut n m len) then 5
    else if s.launchOk n c = false ∨ (s.expressQ q = false ∧ s.launchGuard n q m len) then 6
    else if d.heat ≠ 0 ∧ (s.rd wEsch Reg.ESCH_HEAT_MASK_HEAT_MASK).testBit (d.heat - 1) then 7
    else if s.peakOk 2 q = false ∨ (path.any fun e => !s.peakOk e.1 e.2) = true then 8
    else 0

/-! ### Selection (R315 to R317) -/

/-- Insertion into a rising list, without repeats. -/
def insertNat (a : Nat) : List Nat → List Nat
  | [] => [a]
  | b :: t => if a < b then a :: b :: t else if a = b then b :: t else b :: insertNat a t

/-- The distinct numbers of a list, rising. -/
def distinct (l : List Nat) : List Nat := l.foldl (fun a x => insertNat x a) []

/-- A child's turn begins: its deficit rises by one quantum, to at most one quantum (R316). -/
def State.beginTurn (s : State) (kind n : Nat) : State :=
  let w := ((s.node kind n).weight * 64 : Int)
  let x := s.nodeSt kind n
  s.setNodeSt kind n { x with deficit := min w (x.deficit + w) }

/-- Turns pass among the children of a ring until one may send (R316). -/
def State.passTurns (s : State) (kind : Nat) : Nat → List Nat → Option (Nat × State)
  | 0, _ => none
  | _ + 1, [] => none
  | k + 1, a :: t =>
    let s1 := s.beginTurn kind a
    if 0 < (s1.nodeSt kind a).deficit then some (a, s1) else s1.passTurns kind k (t ++ [a])

/-- DWRR among the eligible children c of one level and kind under key `key` (R316): the holder keeps the turn while its
deficit is above 0, else the turn passes in order of node number. -/
def State.dwrr (s : State) (kind key : Nat) (c : List Nat) : Option (Nat × State) :=
  let hold := tabGet (fun _ => none) s.esch.turns key
  let keep := match hold with
    | some (h, lost) => !lost && c.contains h && decide (0 < (s.nodeSt kind h).deficit)
    | none => false
  let chosen := if keep then some ((hold.getD (0, false)).1, s)
    else
      let after := match hold with
        | some (h, _) => c.filter (fun x => decide (h < x)) ++ c.filter (fun x => decide (x ≤ h))
        | none => c
      s.passTurns kind (512 * (c.length + 1)) after
  chosen.map (fun e =>
    (e.1, { e.2 with esch := { e.2.esch with turns := tabSet (fun _ => none) e.2.esch.turns key (some (e.1, false)) } }))

/-- Highest of a list of levels. -/
def highest (l : List Nat) : Nat := l.foldl max 0

/-- The child that a node chooses among the eligible ones (R315). -/
def State.chooseChild (s : State) (parent : Nat) (cmtFirst : Bool) (kind : Nat) (c : List Nat) : Option (Nat × State) :=
  let lvl (n : Nat) : Nat := (s.node kind n).level
  let com := c.filter (s.committed kind)
  let pick (isCom : Bool) (l : List Nat) : Option (Nat × State) :=
    let top := highest (l.map lvl)
    s.dwrr kind ((parent * 16 + top) * 2 + b2n isCom) (l.filter (fun n => decide (lvl n = top)))
  if cmtFirst then (if com = [] then pick false c else pick true com)
  else
    let top := highest (c.map lvl)
    let cTop := c.filter (fun n => decide (lvl n = top))
    let comTop := cTop.filter (s.committed kind)
    if comTop = [] then pick false cTop else pick true comTop

/-- The descent from port n over the eligible queues (R315, R317). -/
def State.descend (s : State) (n : Nat) (el : List Nat) : Option (Nat × State) :=
  let ex := el.filter s.expressQ
  let e15 := ex.filter (fun q => decide (s.qTc q = 15))
  if e15 ≠ [] then s.dwrr 2 ((nodeKey 3 n * 16 + 15) * 2) e15
  else if ex ≠ [] then s.dwrr 2 ((nodeKey 3 n * 16 + 14) * 2) ex
  else if el = [] then none
  else
    match s.chooseChild (nodeKey 3 n) (s.node 3 n).cmtFirst 0 (distinct (el.map s.qGroup)) with
    | none => none
    | some (g, s1) =>
      let el1 := el.filter (fun q => decide (s1.qGroup q = g))
      match s1.chooseChild (nodeKey 0 g) (s1.node 0 g).cmtFirst 1 (distinct (el1.map s1.qSub)) with
      | none => none
      | some (b, s2) =>
        s2.chooseChild (nodeKey 1 b) (s2.node 1 b).cmtFirst 2 (distinct (el1.filter (fun q => decide (s2.qSub q = b))))

/-- Queues of port n that hold a frame and use MAC m. -/
def State.portQueues (s : State) (n m : Nat) : List Nat :=
  (s.ridge.queues.filter (fun e => decide (s.qPort e.1 = n) && !e.2.isEmpty && s.onMac n e.1 m)).map (·.1)

/-- Kind of the children of the node whose key stands in a turn's key, and whether they are express queues (R315, R317):
the key is (parent's key * 16 + level or class) * 2 + committed. -/
def turnKind (key : Nat) : Nat :=
  match key / 32 / 65536 with
  | 3 => if 14 ≤ key / 2 % 16 then 2 else 0
  | 0 => 1
  | _ => 2

/-- Whether queue q lies under a node, as a descendant that may take its turn: an express queue lies under its port alone
(R317). -/
def State.under (s : State) (kind n q : Nat) : Bool :=
  if kind = 3 then decide (s.qPort q = n) else if kind = 2 then decide (q = n)
  else !s.expressQ q && (if kind = 0 then decide (s.qGroup q = n) else decide (s.qSub q = n))

/-- A child of port n that holds a turn and has become ineligible passes it at once (R316): el are the port's eligible
queues. -/
def State.loseTurns (s : State) (n : Nat) (el : List Nat) : State :=
  { s with esch := { s.esch with turns := s.esch.turns.map (fun e =>
      match e.2 with
      | some (h, _) =>
        let q := if turnKind e.1 = 2 then s.qPort h else if turnKind e.1 = 1 then (s.node 0 (s.node 1 h).parent).parent
          else (s.node 0 h).parent
        if q = n ∧ !el.any (s.under (turnKind e.1) h) then (e.1, some (h, true)) else e
      | none => e) } }

/-- The children of port n that are no longer eligible pass their turns at once (R316). -/
def State.passLost (s : State) (n : Nat) : State :=
  s.loseTurns n ((s.portQueues n 0 ++ s.portQueues n 1).filter (fun q => decide (s.blockedBy q = 0)))

/-- What MAC m of a port sends. -/
def State.sending (s : State) (n m : Nat) : Option Sending := tabGet (fun _ => none) (s.port n).sending m
def State.setSending (s : State) (n m : Nat) (x : Option Sending) : State :=
  s.setPort n { s.port n with sending := tabSet (fun _ => none) (s.port n).sending m x }
def State.chosen (s : State) (n m : Nat) : Option (Nat × Nat) := tabGet (fun _ => none) (s.port n).chosen m
def State.setChosen (s : State) (n m : Nat) (x : Option (Nat × Nat)) : State :=
  s.setPort n { s.port n with chosen := tabSet (fun _ => none) (s.port n).chosen m x }

/-- Whether a frame on the preemptable MAC of port n has a permitted fragment boundary (R62): its first fragment is one of the
least length, mCRC included, and at least 64 bytes are left for the last. -/
def State.mayCut (s : State) (n : Nat) (x : Sending) : Bool :=
  let f := s.frame x.copy.frame
  decide (64 * (1 + s.addFrag n) + 64 ≤ 4 + (if f.ended then s.sentLen n x.copy else f.total + 4 + s.joistAdds x.copy.frame n))

/-- Whether a frame on the preemptable MAC of port n keeps the express MAC from starting: one that has no permitted fragment
boundary goes on to its end (R319). -/
def State.uncuttable (s : State) (n : Nat) : Bool :=
  match s.sending n 1 with
  | some x => !s.mayCut n x
  | none => false

/-- Whether MAC m of port n cannot start a frame: it is sending, or the one MAC of a port without active preemption, or the
preemptable MAC, waits for the other, or the express MAC for a frame that cannot be cut (R61, R62, R319). -/
def State.macBusy (s : State) (n m : Nat) : Bool :=
  decide (s.sending n m ≠ none) || ((!s.preempting n || decide (m = 1)) && decide (s.sending n (1 - m) ≠ none)) ||
    (decide (m = 0) && s.uncuttable n)

/-- The copy of that order on queue q, if it still is there to start. -/
def State.copyOf (s : State) (q order : Nat) : Option Copy :=
  ((s.egq q).head ++ (s.egq q).mc).find? (fun c => decide (c.order = order))

/-- A port in low-power idle begins to wake (R51). -/
def State.wake (s : State) (n : Nat) : State :=
  (s.wr (wPort n) Reg.PORT_STATUS_LPI_TX 0).setPort n { s.port n with waking := true }

/-- A decision for MAC m of port n (R315, R319): when the MAC can start a frame, the head of one eligible queue is chosen.
A port in low-power idle wakes first (R51). A decision that selects nothing counts the lowest failing test (R335). -/
def State.eschDecide (s : State) (n m : Nat) : State :=
  if s.macBusy n m ∨ s.chosen n m ≠ none ∨ (m = 1 ∧ s.preempting n = false) ∨ (s.port n).waking ∨ (s.port n).restart then s
  else
    let qs := s.portQueues n m
    let el := qs.filter (fun q => decide (s.blockedBy q = 0))
    let all := el ++ (s.portQueues n (1 - m)).filter (fun q => decide (s.blockedBy q = 0))
    let s0 := s.loseTurns n all
    if el ≠ [] ∧ n < 128 ∧ s.rdb (wPort n) Reg.PORT_STATUS_LPI_TX then s0.wake n
    else
      match s0.descend n el with
      | some (q, s1) => s1.setChosen n m (((s.egq q).headCopy).map (fun c => (q, c.order)))
      | none =>
        match qs.map s.blockedBy with
        | [] => s0
        | b :: t => s0.portCount n (113 + t.foldl min b) 1

/-! ### Node records (R309, R333) -/

/-- A node record in host memory's layout. -/
def Node.bytes (d : Node) : List Byte :=
  leBytes 2 d.parent ++
    leBytes 1 (d.level + 8 * b2n d.cmtFirst + 16 * b2n d.cirEn + 32 * b2n d.pirEn + 64 * b2n d.enable + 128 * b2n d.express) ++
    leBytes 1 (d.heat + 16 * d.tc) ++ leBytes 2 d.weight ++ leBytes 1 (uNat 8 d.adj) ++ [0] ++
    leBytes 4 d.cir ++ leBytes 4 d.pir ++ leBytes 3 d.cbs ++ [0] ++ leBytes 3 d.pbs ++ [0] ++ leBytes 8 0

/-- The node of a record. -/
def parseNode (l : List Byte) : Node :=
  let b (k n : Nat) : Nat := leNat (slice l k n)
  { parent := b 0 2, level := bits (b 2 1) 2 0, cmtFirst := bit (b 2 1) 3, cirEn := bit (b 2 1) 4, pirEn := bit (b 2 1) 5,
    enable := bit (b 2 1) 6, express := bit (b 2 1) 7, heat := bits (b 3 1) 1 0, tc := bits (b 3 1) 7 4, weight := b 4 2,
    adj := sInt 8 (b 6 1), cir := b 8 4, pir := b 12 4, cbs := b 16 3, pbs := b 20 3 }

/-- Whether a record is refused for its own fields (R309, R333); fields for queues only are reserved in other nodes, and
the port node reserves six fields. -/
def badNode (kind : Nat) (l : List Byte) : Bool :=
  let d := parseNode l
  decide (bits (leNat (slice l 3 1)) 3 2 ≠ 0 ∨ leNat (slice l 7 1) ≠ 0 ∨ leNat (slice l 19 1) ≠ 0 ∨
    leNat (slice l 23 9) ≠ 0 ∨ 10 ^ 9 < d.cir ∨ 10 ^ 9 < d.pir ∨ d.adj < -64) ||
  (if kind = 3 then decide (d.parent ≠ 0 ∨ d.level ≠ 0 ∨ d.weight ≠ 0 ∨ d.heat ≠ 0 ∨ d.tc ≠ 0) || d.express
   else
    decide (d.weight = 0 ∨ d.parent > (if kind = 2 then 8191 else if kind = 1 then 1023 else 140)) ||
      (decide (kind ≠ 2) && (d.express || decide (d.heat ≠ 0 ∨ d.tc ≠ 0))) || (decide (kind = 2) && d.cmtFirst))

/-- The port above a node. -/
def State.nodePort (s : State) (kind n : Nat) : Nat :=
  if kind = 3 then n else if kind = 2 then s.qPort n
  else if kind = 1 then (s.node 0 (s.node 1 n).parent).parent else (s.node 0 n).parent

/-- Whether a node or a descendant holds a frame (R312). -/
def State.nodeBusy (s : State) (kind n : Nat) : Bool := s.ridge.queues.any (fun e => !e.2.isEmpty && s.under kind n e.1)

/-- A node record put in place: a changed rate or burst sets its bucket to the new burst (R312). A subgroup and a group that an
express queue has left with no frame have their deficits at 0 (R316, R317). -/
def State.putNode (s : State) (kind n : Nat) (d : Node) : State :=
  let o := s.node kind n
  let x := s.nodeNow kind n
  let cb := if o.cir = d.cir ∧ o.cbs = d.cbs then x.cb else fullBucket d.cbs s.nowNs
  let pb := if o.pir = d.pir ∧ o.pbs = d.pbs then x.pb else fullBucket d.pbs s.nowNs
  let s1 := (s.setNode kind n d).setNodeSt kind n { x with cb := cb, pb := pb }
  if kind = 2 ∧ d.express ∧ o.express = false then s1.idleAbove o.parent else s1

/-- Queues that break R307 or R317 in this tree: mapped by a port they do not lie under, or express queues that R317
does not allow. -/
def State.brokenQueues (s : State) : List Nat :=
  let mapped := (rangeFrom 0 (141 * 16)).filterMap (fun i =>
    let q := s.mapQ (i / 16) (i % 16)
    if 65535 < q ∨ s.qPort q ≠ i / 16 then some q else none)
  let ex := s.esch.nodes.filterMap (fun e =>
    let q := e.1 - nodeKey 2 0
    if nodeKey 2 0 ≤ e.1 ∧ e.1 < nodeKey 3 0 ∧ e.2.express ∧ (e.2.tc < 14 ∨ e.2.heat ≠ 0 ∨ !s.express (s.qPort q)) then some q
    else none)
  mapped ++ ex

/-- The refusal of record k (R333): bytes 12 to 14. -/
def refuseAt (s : State) (code k : Nat) : Answer := (s, some (code, [0, 0, 0, 0] ++ leBytes 3 k))

/-- Whether the records would leave the map or the express queues broken at queues that now lie, or then would lie, under
node n (R307, R317). -/
def State.breaks (s after : State) (bad : List Nat) (kind n : Nat) : Bool :=
  bad.any (fun q => s.under kind n q || after.under kind n q)

/-- The first refused record of a command, with its own status (R307, R312, R317, R333): `after` is the tree with every record
whose own fields are right. -/
def State.refusedRec (s after : State) (kind : Nat) (recs : List (Nat × List Byte)) : Option (Nat × Nat) :=
  let bad := after.brokenQueues
  let moves (e : Nat × List Byte) : Bool :=
    decide ((parseNode e.2).parent ≠ (s.node kind e.1).parent) && s.nodeBusy kind e.1
  match recs.findIdx? (fun e => badNode kind e.2 || moves e || s.breaks after bad kind e.1) with
  | some k =>
    let e := recs.getD k (0, [])
    some (if badNode kind e.2 || !moves e then St.ESCH_INVALID else St.ESCH_BUSY, k)
  | none => if bad = [] then none else some (St.ESCH_INVALID, 0)

/-- Records of one command, taken together or refused (R332, R333). -/
def State.putNodes (s : State) (f kind : Nat) (recs : List (Nat × List Byte)) : Answer :=
  let s0 := s.countMoved 30 (32 * recs.length)
  let s1 := forEach (recs.filter (fun e => !badNode kind e.2)) (fun e s => s.putNode kind e.1 (parseNode e.2)) s0
  if (recs.any fun e => !s.holdsPort f (s.nodePort kind e.1)) = true then failA s St.NOT_OWNER
  else match s.refusedRec s1 kind recs with
  | some (code, k) => refuseAt s0 code k
  | none =>
    if (recs.any fun e => !s1.holdsPort f (s1.nodePort kind e.1)) = true then failA s0 St.NOT_OWNER else okA s1

/-- Records in host memory, 32 bytes each. -/
def State.readRecs (s : State) (link a first n : Nat) : List (Nat × List Byte) :=
  (rangeFrom 0 n).map (fun k => (first + k, s.hostRd link (a + 32 * k) 32))

/-- ESCH_NODE_SET (R332, R333). -/
def eschNodeSet (j : Job) (s : State) : Answer :=
  let n := j.le 8 2
  let first := j.le 6 2
  if n = 0 then okA s
  else if 2 ≤ j.byte 0 4 ∨ 8192 < n ∨ j.one = false then failA s St.ESCH_INVALID
  else if (if j.byte 0 4 = 0 then 1024 else 8192) < first + n then failA s St.NOT_OWNER
  else s.putNodes (s.jobFn j) (j.byte 0 4) (s.readRecs (s.jobLink j) j.hostAddr first n)

/-- ESCH_QUEUE_SET (R332, R333). -/
def eschQueueSet (j : Job) (s : State) : Answer :=
  let n := j.le 8 4
  let first := j.le 6 2
  if n = 0 then okA s
  else if 65536 < n ∨ j.one = false then failA s St.ESCH_INVALID
  else if 65536 < first + n then failA s St.NOT_OWNER
  else s.putNodes (s.jobFn j) 2 (s.readRecs (s.jobLink j) j.hostAddr first n)

/-- ESCH_PORT_SET (R307, R332). -/
def eschPortSet (j : Job) (s : State) : Answer :=
  let n := j.le 4 2
  let base := j.le 6 2
  let off (c : Nat) : Nat := j.bits (8 + c / 2) (4 * (c % 2) + 3) (4 * (c % 2))
  let rec_ := s.hostRd (s.jobLink j) (j.le 20 4) 32
  if 140 < n ∨ s.holdsPort (s.jobFn j) n = false then failA s St.NOT_OWNER
  else if 10 ^ 6 < j.le 16 4 ∨ j.one = false then failA s St.ESCH_INVALID
  else if (List.any (rangeFrom 0 16) fun c => decide (65535 < base + off c ∨ s.qPort (base + off c) ≠ n)) = true then
    failA s St.ESCH_INVALID
  else if j.le 20 4 ≠ 0 ∧ badNode 3 rec_ then failA (s.countMoved 30 32) St.ESCH_INVALID
  else
    let b := wEsch + 16 * n
    let s0 := if j.le 20 4 = 0 then s else s.countMoved 30 32
    let s1 := ((s0.setReg (b + 0x1000) base).setReg (b + 0x1004) (j.le 8 4)).setReg (b + 0x1008) (j.le 12 4)
    let s2 := s1.wr b Reg.ESCH_PORT_LAUNCH_LAUNCH_MAX_US (j.le 16 4)
    okA (if j.le 20 4 = 0 then s2 else s2.putNode 3 n (parseNode rec_))

/-- First failing test of a node: for one with children the lowest test failing among the queues below it that hold a
frame (log entry 19). -/
def State.nodeBlocked (s : State) (kind n : Nat) : Nat :=
  if kind = 2 then s.blockedBy n
  else
    let l := ((s.ridge.queues.filter (fun e => !e.2.isEmpty && s.under kind n e.1)).map (fun e => s.blockedBy e.1))
    if (s.node kind n).enable = false then 1 else if l.contains 0 then 0
    else match l with
    | [] => 2
    | b :: t => t.foldl min b

/-- Tokens in whole bytes, rounded down, as a 32-bit field. -/
def tokenField (t : Int) : List Byte := leBytes 4 (uNat 32 (t / 256))

/-- ESCH_QUERY (R334). -/
def eschQuery (j : Job) (s : State) : Answer :=
  let k := j.byte 0 4
  let n := j.le 6 2
  if 4 ≤ k ∨ j.one = false then failA s St.ESCH_INVALID
  else if (if k = 0 then 1024 else if k = 1 then 8192 else if k = 2 then 65536 else 141) ≤ n ∨
      s.holdsPort (s.jobFn j) (s.nodePort k n) = false then failA s St.NOT_OWNER
  else
    let x := s.nodeNow k n
    let b := s.nodeBlocked k n
    let d := if k = 3 then { s.node 3 n with weight := 0 } else s.node k n
    okRes (s.jobWrite j j.hostAddr (d.bytes ++ tokenField x.cb.tokens ++ tokenField x.pb.tokens ++
      leBytes 4 (uNat 32 x.deficit) ++ leBytes 1 (b2n (decide (b = 0)) + 2 * b2n (s.committed k n)) ++ leBytes 1 b ++
      List.replicate 18 0)) (leBytes 4 64)

/-! ### Launch times (R324) -/

/-- The launch instant of the head of queue q arrives: it becomes eligible. -/
def State.launchArrives (s : State) (q : Nat) : State :=
  let x := s.egq q
  match x.headCopy with
  | some c =>
    match c.launch with
    | some t =>
      if s.launchAt (s.qPort q) t ≤ s.now then
        s.setEgq q { x with head := x.head.map (fun d => if d = c then { d with due := true } else d) }
      else s
    | none => s
  | none => s

/-! ### The rows -/

/-- ESCH_DECISION (R315): MAC 0 or 1 of a port. -/
def execEschDecision (n : Fin 141) (m : Fin 2) (s : State) : Out := .next (s.eschDecide n.val m.val)
/-- LAUNCH_TIME_ARRIVAL (R324). -/
def execLaunchTimeArrival (q : BitVec 16) (s : State) : Out := .next (s.launchArrives q.toNat)
/-- ESCH_PORT_SET (R332). -/
def execEschPortSet (j : Job) (s : State) : Out := jobRow { op := 0x58, owner := false, safe := true } j s eschPortSet
/-- ESCH_NODE_SET (R333). -/
def execEschNodeSet (j : Job) (s : State) : Out := jobRow { op := 0x59, owner := false, safe := true } j s eschNodeSet
/-- ESCH_QUEUE_SET (R333). -/
def execEschQueueSet (j : Job) (s : State) : Out := jobRow { op := 0x5A, owner := false, safe := true } j s eschQueueSet
/-- ESCH_QUERY (R334). -/
def execEschQuery (j : Job) (s : State) : Out := jobRow { op := 0x5B, owner := false } j s eschQuery

end Sys2Proof.Machine
end

