-- ==== Sys2Proof/Machine/Meter.lean ====
section
/-!
DEFINITION. Meters: the call, the verdicts and the commands (ch. 10, R328 to R334).
-/
namespace Sys2Proof.Machine

def State.meter (s : State) (m : Nat) : Meter := tabGet (fun _ => {}) s.meters m
def State.setMeter (s : State) (m : Nat) (x : Meter) : State :=
  { s with meters := tabSet (fun _ => {}) s.meters m x }

/-- Tokens that a refill to time `now` cannot add because the bucket is full, in 1/256 byte (R329). -/
def Bucket.spill (b : Bucket) (rate burst now : Nat) : Int :=
  max 0 (b.tokens + ((rate * (now - b.time) + b.frac) / 31250 : Nat) - (burst * 256 : Int))

/-- A bucket given extra tokens, up to its burst. -/
def Bucket.gain (b : Bucket) (n : Int) (burst : Nat) : Bucket := { b with tokens := min (burst * 256 : Int) (b.tokens + n) }

/-- Both buckets of a meter refilled; with COUPLED 1 the committed overflow goes to the excess bucket (R329). -/
def Meter.refill (x : Meter) (now : Nat) : Meter :=
  let excess := if x.coupled then x.tc.spill x.cir x.cbs now else 0
  { x with tc := x.tc.refill x.cir x.cbs now, tp := (x.tp.refill x.pir x.pbs now).gain excess x.pbs }

/-- The verdict of a refilled meter for B bytes of a colour: 0 green, 1 yellow, 2 red; and the buckets after it (R329,
R330). -/
def Meter.verdict (x : Meter) (b : Nat) (colour : Nat) : Nat × Meter :=
  let cOk := decide (0 < x.cir ∧ (b * 256 : Int) ≤ x.tc.tokens)
  let pOk := decide (0 < x.pir ∧ (b * 256 : Int) ≤ x.tp.tokens)
  if x.mode = 0 then (0, x)
  else if x.mode = 1 then
    (if colour = 2 ∨ pOk = false then (2, x)
     else if colour = 1 ∨ cOk = false then (1, { x with tp := x.tp.charge b })
     else (0, { x with tp := x.tp.charge b, tc := x.tc.charge b }))
  else if colour = 0 ∧ cOk then (0, { x with tc := x.tc.charge b })
  else if colour ≠ 2 ∧ pOk then (1, { x with tp := x.tp.charge b })
  else (2, x)

/-- A verdict counted, modulo 2^40 (R331). -/
def Meter.count (x : Meter) (v : Nat) : Meter :=
  if v = 0 then { x with green := (x.green + 1) % 2 ^ 40 }
  else if v = 1 then { x with yellow := (x.yellow + 1) % 2 ^ 40 }
  else { x with red := (x.red + 1) % 2 ^ 40 }

/-- A call of meter m with length operand len and a colour (R329, R331). -/
def State.meterCall (s : State) (m len colour : Nat) : Nat × State :=
  let x := (s.meter m).refill s.nowNs
  let r := x.verdict ((len : Int) + x.adj).toNat (if x.aware then colour else 0)
  (r.1, s.setMeter m (r.2.count r.1))

/-- The meter of a 32-byte record (R328), with full buckets (R331). -/
def parseMeter (l : List Byte) (now : Nat) : Meter :=
  let b (k n : Nat) : Nat := leNat (slice l k n)
  { mode := bits (b 0 1) 1 0, aware := bit (b 0 1) 2, coupled := bit (b 0 1) 3, adj := sInt 8 (b 1 1), cir := b 4 4,
    pir := b 8 4, cbs := b 12 3, pbs := b 16 3, tc := fullBucket (b 12 3) now, tp := fullBucket (b 16 3) now }

/-- Whether a record is refused (R330, R333). -/
def badMeter (l : List Byte) : Bool :=
  let x := parseMeter l 0
  let b (k n : Nat) : Nat := leNat (slice l k n)
  decide (x.mode = 3 ∨ 16 ≤ b 0 1 ∨ x.adj < -64 ∨ b 2 2 ≠ 0 ∨ 10 ^ 9 < x.cir ∨ 10 ^ 9 < x.pir ∨ b 15 1 ≠ 0 ∨
    b 19 13 ≠ 0 ∨ (x.mode = 1 ∧ (x.pir < x.cir ∨ x.coupled)))

/-- The record of a meter. -/
def Meter.bytes (x : Meter) : List Byte :=
  leBytes 1 (x.mode + 4 * b2n x.aware + 8 * b2n x.coupled) ++ leBytes 1 (uNat 8 x.adj) ++ [0, 0] ++ leBytes 4 x.cir ++
    leBytes 4 x.pir ++ leBytes 3 x.cbs ++ [0] ++ leBytes 3 x.pbs ++ List.replicate 13 0

/-- METER_SET (R331 to R333). -/
def meterSet (j : Job) (s : State) : Answer :=
  let first := j.le 8 4
  let n := j.le 12 4
  let recs := (rangeFrom 0 (min n 262144)).map (fun k => (first + k, s.hostRd (s.jobLink j) (j.hostAddr + 32 * k) 32))
  if n = 0 then okA s
  else if 262144 < n ∨ j.one = false then failA s St.METER_INVALID
  else if 262144 < first + n ∨ (recs.any fun e => decide (s.meterHolder e.1 ≠ s.jobFn j)) = true then failA s St.NOT_OWNER
  else
    let s0 := s.countMoved 30 (32 * n)
    match recs.findIdx? (fun e => badMeter e.2) with
    | some k => refuseAt s0 St.METER_INVALID k
    | none => okA (forEach recs (fun e s => s.setMeter e.1 (parseMeter e.2 s.nowNs)) s0)

/-- METER_QUERY (R334). -/
def meterQuery (j : Job) (s : State) : Answer :=
  let m := j.le 8 4
  if j.one = false then failA s St.METER_INVALID
  else if 262144 ≤ m ∨ s.meterHolder m ≠ s.jobFn j then failA s St.NOT_OWNER
  else
    let x := (s.meter m).refill s.nowNs
    okRes (s.jobWrite j j.hostAddr (x.bytes ++ tokenField x.tc.tokens ++ tokenField x.tp.tokens ++ leBytes 5 x.green ++
      leBytes 5 x.yellow ++ leBytes 5 x.red ++ List.replicate 9 0)) (leBytes 4 64)

/-- METER_SET (R331). -/
def execMeterSet (j : Job) (s : State) : Out := jobRow { op := 0x5C, owner := false } j s meterSet
/-- METER_QUERY (R334). -/
def execMeterQuery (j : Job) (s : State) : Out := jobRow { op := 0x5D, owner := false } j s meterQuery

end Sys2Proof.Machine
end

