-- ==== Sys2Proof/Machine/Egress.lean ====
section
/-!
DEFINITION. What leaves the device: commit and charging, the joist header and PTP edits of the egress, captures, punts
to Peg buffers, recirculation (ch. 9, 10, 11, 12, 15).
-/
namespace Sys2Proof.Machine

/-! ### Fields in network order -/

def beAt (l : List Byte) (off n : Nat) : Nat := beNat (padTo n (slice l off n))
def setBe (l : List Byte) (off n v : Nat) : List Byte := putBytes l off (beBytes n v)

/-- Whether bytes 12 and 13 hold the joist EtherType (R337). -/
def isJoist (l : List Byte) : Bool := decide (beAt l 12 2 = 0x88B5)

/-- A 16-bit ones'-complement sum, folded. -/
def fold16 (n : Nat) : Nat :=
  let f (x : Nat) : Nat := x % 65536 + x / 65536
  f (f (f n))

/-- The sum of RFC 1624 over the 16-bit words that differ: complement of the old word plus the new one (R221, R367). -/
def diff16 : List Byte → List Byte → Nat
  | a :: b :: t, c :: d :: u =>
    let m := a.toNat * 256 + b.toNat
    let m' := c.toNat * 256 + d.toNat
    (if m = m' then 0 else 65535 - m + m') + diff16 t u
  | [a], [c] => if a = c then 0 else 65535 - a.toNat * 256 + c.toNat * 256
  | _, _ => 0

/-- The UDP checksum of the header at u updated from what changed at u and beyond; a checksum of 0 stays 0 (R221,
R367). -/
def udpFix (old new : List Byte) (u : Nat) : List Byte :=
  let hc := beAt new (u + 6) 2
  if hc = 0 then new else setBe new (u + 6) 2 (65535 - fold16 (65535 - hc + diff16 (old.drop u) (new.drop u)))

/-! ### Capture records (R368) -/

/-- A capture record with its LOST field put in place. -/
def withLost (r : List Byte) (lost : Nat) : List Byte := putBytes (padTo 32 r) 24 (leBytes 4 lost)

/-- A capture record goes to queue index i of function f, or to none (0xFFFF); one that finds no room is lost, and the
first loss of a run is recorded (R368). -/
def State.capture (s : State) (f i kind : Nat) (r : List Byte) : State :=
  let s1 := s.count 151 (4 + kind) 1
  match (if i = 0xFFFF then none else s1.findQ f i) with
  | none => s1
  | some q =>
    let x := s1.queue q
    let run := tabGet (fun _ => 0) s1.thyme.lostRun q
    let set (t : State) (v : Nat) : State :=
      { t with thyme := { t.thyme with lostRun := tabSet (fun _ => 0) t.thyme.lostRun q v } }
    if x.typ ≠ .event then s1
    else if x.st = .active ∧ x.full = false then set (s1.postEvent q (withLost r run)) 0
    else if x.st = .absent ∨ x.st = .stopping then s1
    else
      let s2 := set ((s1.postEvent q r).count 151 9 1) (run + 1)
      if run = 0 then s2.event Ev.TS_LOST 0 q (s2.queue q).lost 0 else s2

/-- The time fields of a capture record: subnanoseconds at byte 4, flags at 5, 6 to 7, then SEC and NS. -/
def captureBytes (kind source tag flags seqId msg t : Nat) : List Byte :=
  leBytes 1 kind ++ leBytes 1 source ++ leBytes 2 tag ++ leBytes 1 (timeSub t) ++ leBytes 1 flags ++ leBytes 2 seqId ++
    leBytes 6 (timeSec t) ++ [0, 0] ++ leBytes 4 (timeNs t) ++ leBytes 1 msg ++ List.replicate 11 0

/-! ### The joist header at the egress (R341 to R346) -/

/-- A port's link-retransmit record. -/
def State.jport (s : State) (n : Nat) : JoistPort := tabGet (fun _ => {}) s.joist.ports n
def State.setJport (s : State) (n : Nat) (x : JoistPort) : State :=
  { s with joist := { s.joist with ports := tabSet (fun _ => {}) s.joist.ports n x } }
def joistBase (n : Nat) : Nat := wJoist + 16 * n

/-- UNACKED brought up to date (R353). -/
def State.jportReport (s : State) (n : Nat) : State :=
  s.wr (joistBase n) Reg.JOIST_PORT_C_UNACKED (s.jport n).kept.length

/-- Whether frames of class t on port n are under link retransmit (R346). -/
def State.retxClass (s : State) (n t : Nat) : Bool :=
  s.domain n && (s.rd (joistBase n) Reg.JOIST_PORT_A_RETX_TC).testBit t

/-- A frame with a header inserted (R341).
The destination of a unicast frame that no routine sent is not stated: a free value (log entry 20). -/
def State.joistInsert (s : State) (f : Frame) (c : Copy) (q : Nat) : List Byte × State :=
  let (dst, s1) : Nat × State :=
    if c.group.isSome then (0, s)
    else match f.dest with
      | some d => (d, s)
      | none => ((s.draw 22).1.toNat, (s.draw 22).2)
  (f.bytes.take 12 ++ [0x88, 0xB5] ++ leBytes 1 (64 + 16 * b2n f.ptp.residence + s.qTc q) ++
    leBytes 1 (128 * b2n c.group.isSome) ++ beBytes 4 (dst / 256 % 2 ^ 14 * 2 ^ 18 + s.devNum * 16) ++
    leBytes 1 (dst % 256) ++ leBytes 1 f.inPort ++ beBytes 2 c.copyId ++ [0, 0, 0, 0] ++ f.bytes.drop 12, s1)

/-- A kept header: HOPS rises by 1, RT is set with TC_RESIDENCE (R341).
HOPS above 63 has no stated value: a free value (log entry 20). -/
def State.joistKeep (s : State) (f : Frame) : List Byte × State :=
  let h := bits (beAt f.bytes 15 1) 5 0
  let (hops, s1) : Nat × State := if h < 63 then (h + 1, s) else ((s.draw 6).1.toNat, (s.draw 6).2)
  let b14 := beAt f.bytes 14 1
  let l := setBe f.bytes 14 1 (if f.ptp.residence then b14 ||| 16 else b14)
  (setBe l 15 1 (setBits (beAt f.bytes 15 1) 5 0 hops), s1)

/-- ERR set where the frame is known bad and is resent (R290), and SEQ_VALID and SEQ (R346). -/
def joistSeq (l : List Byte) (err : Bool) (seq : Option Nat) : List Byte :=
  let v := seq.getD 0
  let l1 := if err then setBe l 14 1 (beAt l 14 1 ||| 32) else l
  let l2 := setBe l1 15 1 (setBits (beAt l1 15 1) 6 6 (b2n seq.isSome))
  setBe (setBe l2 19 1 (setBits (beAt l2 19 1) 3 0 (v / 256))) 24 1 (v % 256)

/-- RESIDENCE updated for a frame with RT 1 (R345). -/
def State.joistResidence (s : State) (n : Nat) (l : List Byte) (rx : Option Stamp) (t : Nat) : List Byte × State :=
  if (beAt l 14 1).testBit 4 = false then (l, s)
  else match rx with
    | none => (l, (s.portCount n 101 1).count 151 3 1)
    | some r =>
      let v := ((beAt l 25 3 : Int) + (((t : Int) - r.t) + 16) / 32).toNat
      if 0xFFFFFF ≤ v then (setBe l 25 3 0xFFFFFF, s.portCount n 103 1) else (setBe l 25 3 v, s)

/-- A frame without its joist header, if it has one: what every port but a domain port sends (R341). -/
def joistStrip (l : List Byte) : List Byte := if isJoist l then l.take 12 ++ l.drop 28 else l

/-- What the egress of port n does to the joist header: the bytes as sent, how far the header's insertion or removal
moves what lies behind it, and the residence handed on (R341, R345). -/
def State.joistEgress (s : State) (n q : Nat) (x : Sending) : List Byte × Int × Option Nat × State :=
  let f := s.frame x.copy.frame
  if s.domain n then
    let (l, s1) := if isJoist f.bytes then s.joistKeep f else s.joistInsert f x.copy q
    let (l2, s2) := s1.joistResidence n (joistSeq l (x.resend && decide (f.bad ≠ 0)) x.seq) f.rx x.stamp.t
    (l2, if isJoist f.bytes then 0 else 16, none, s2)
  else if isJoist f.bytes then
    let rt := (beAt f.bytes 14 1).testBit 4
    let v := beAt f.bytes 25 3
    let l := joistStrip f.bytes
    if rt && decide (v = 0xFFFFFF) then (l, -16, none, s.portCount n 103 1)
    else (l, -16, if rt then some v else none, s)
  else (f.bytes, 0, none, s)

/-! ### PTP edits at the egress (R363 to R367) -/

/-- A header's place after joist insertion or removal (R363). -/
def moved (off : Nat) (d : Int) : Nat := if 12 ≤ off then ((off : Int) + d).toNat else off

/-- correctionField raised by z, modulo 2^64 (R365). -/
def addCorrection (l : List Byte) (o : Nat) (z : Int) : List Byte :=
  setBe l (o + 8) 8 (uNat 64 ((beAt l (o + 8) 8 : Int) + z))

/-- A PTP action skipped (R363, R364). -/
def State.ptpSkip (s : State) (n : Nat) : State := (s.portCount n 101 1).count 151 3 1

/-- The one-step update of R364: the bytes, whether one was made, and the state. -/
def State.oneStep (s : State) (n : Nat) (l : List Byte) (o : Nat) (rx : Option Stamp) (t : Nat) : List Byte × Bool × State :=
  let msg := beAt l o 1 % 16
  if msg = 0 then
    (addCorrection (setBe (setBe l (o + 34) 6 (timeSec t)) (o + 40) 4 (timeNs t)) o (timeSub t * 256 : Nat), true, s)
  else if msg = 3 then
    match rx with
    | some r => (addCorrection l o (((t : Int) - r.t) * 256), true, s)
    | none => (l, false, s.ptpSkip n)
  else (l, false, s.ptpSkip n)

/-- The transparent-clock additions of R365 on a port that is not a domain port. -/
def State.clockAdd (s : State) (n : Nat) (l : List Byte) (o : Nat) (residence : Bool) (rx : Option Stamp) (t : Nat)
    (handed : Option Nat) : List Byte × Bool × State :=
  let (l1, did, s1) : List Byte × Bool × State :=
    if residence then
      match rx with
      | some r => (addCorrection l o (((t : Int) - r.t) * 256), true, s.count 151 2 1)
      | none => (l, false, s.ptpSkip n)
    else (l, false, s)
  match handed with
  | some v => (addCorrection l1 o (v * 8192 : Nat), true, s1)
  | none => (l1, did, s1)

/-- Every PTP edit of a frame: the bytes, and whether a one-step or transparent-clock update was made. An action whose header
is absent or begins beyond byte 191 is skipped and counted: a one-step update, a capture, an addition of residence or of what a
joist header hands on (R363, R365, R366; log entry 38). A port that is no front port has no transmit timestamp (R71): what
a joist header hands on is all that it adds. -/
def State.ptpEgress (s : State) (n : Nat) (f : Frame) (l : List Byte) (d : Int) (handed : Option Nat) (t : Nat) :
    List Byte × Bool × State :=
  let act := if n < 128 then f.ptp.act else 0
  let residence := f.ptp.residence && decide (n < 128)
  let want := decide (act = 1 ∨ act = 2) || (residence && !s.domain n) || handed.isSome
  match f.ptp.off with
  | none => (l, false, if want then s.ptpSkip n else s)
  | some off =>
    if 191 < off then (l, false, if want then s.ptpSkip n else s)
    else
      let o := moved off d
      let (l1, a, s1) := if act = 1 then s.oneStep n l o f.rx t else (l, false, s)
      let s2 := if a then s1.count 151 0 1 else s1
      let (l2, b, s3) := if s.domain n then (l1, false, if residence then s2.count 151 2 1 else s2)
        else s2.clockAdd n l1 o residence f.rx t handed
      let l3 := match f.ptp.l4 with
        | some u => if a || b then udpFix l l2 (moved u d) else l2
        | none => l2
      (l3, a || b, s3)

/-- The capture record of a two-step frame (R366). -/
def State.txCapture (s : State) (n : Nat) (f : Frame) (x : Sending) (l : List Byte) (d : Int) (oneStep : Bool) : State :=
  if f.ptp.act ≠ 2 ∨ 128 ≤ n then s
  else
    let o := match f.ptp.off with
      | some off => if off ≤ 191 then some (moved off d) else none
      | none => none
    let seqId := match o with
      | some k => beAt l (k + 30) 2
      | none => 0
    let msg := match o with
      | some k => beAt l k 1 % 16
      | none => 0
    let flags := b2n x.stamp.cal + 2 * b2n oneStep + 4 * b2n x.fragmented + 8 * b2n (decide (f.bad ≠ 0) && !x.resend) +
      16 * b2n x.resend
    (((s.count 151 1 1).portCount n 102 1).capture (tabGet (fun _ => 0) s.thyme.tsFn n)
      (s.rd (wThyme + 4 * n) Reg.THYME_PORT_TS_TS_Q) 0 (captureBytes 0 n f.ptp.tag flags seqId msg x.stamp.t))

/-! ### Commit and charging (R320 to R322) -/

/-- A node charged len bytes plus its ADJ (R320, R321). -/
def State.chargeNode (s : State) (kind n len : Nat) (deficit : Bool) : State :=
  let d := s.node kind n
  let x := s.nodeNow kind n
  let b : Int := (len : Int) + d.adj
  s.setNodeSt kind n {
    cb := if d.cirEn then x.cb.charge b else x.cb
    pb := if d.pirEn then x.pb.charge b else x.pb
    deficit := if deficit then x.deficit - b else x.deficit }

/-- The counter of a queue's heat class (R322). -/
def State.chargeHeat (s : State) (h len : Nat) : State :=
  if h = 0 ∨ (s.rd wEsch Reg.ESCH_HEAT_MASK_LIMIT_EN).testBit (h - 1) = false then s
  else
    let b := wEsch + 8 * (h - 1)
    let v := sInt 32 (s.rd b Reg.ESCH_HEAT_LEFT_HEAT_LEFT) - len
    let s1 := s.wr b Reg.ESCH_HEAT_LEFT_HEAT_LEFT (uNat 32 v)
    if v ≤ 0 then
      let m := s1.rd wEsch Reg.ESCH_HEAT_MASK_HEAT_MASK
      let s2 := if m.testBit (h - 1) then s1
        else { s1 with esch := { s1.esch with maskedAt := tabSet (fun _ => none) s1.esch.maskedAt h (some s1.clock.up) } }
      s2.wr wEsch Reg.ESCH_HEAT_MASK_HEAT_MASK (setBits m (h - 1) (h - 1) 1)
    else s1

/-- A frame of queue q charged (R320): an express queue passes no group or subgroup (R317). A node that the frame leaves
with nothing below it has its deficit at 0 (R316). -/
def State.commit (s : State) (q len : Nat) : State :=
  let s1 := s.chargeNode 2 q len true
  let s2 := if s.expressQ q then s1 else (s1.chargeNode 1 (s.qSub q) len true).chargeNode 0 (s.qGroup q) len true
  ((s2.chargeNode 3 (s.qPort q) len false).chargeHeat (s.node 2 q).heat len).idleDeficits q

/-! ### Starting a frame (R320, R71, R346, R349) -/

/-- The transmit timestamp of a frame that starts now (R71). -/
def State.txStamp (s : State) (n : Nat) : Stamp :=
  if n < 128 then
    { t := ((s.now : Int) + sInt 32 (s.rd (wPort n) (Reg.PORT_CAL 7))).toNat
      cal := s.rdb (wPort n) Reg.PORT_STATUS_CAL_DONE }
  else {}

/-- An express frame that starts while a preemptable frame is being sent interrupts it (R61). -/
def State.fragment (s : State) (n m : Nat) : State :=
  match (if m = 0 then s.sending n 1 else none) with
  | some x => (s.setSending n 1 (some { x with fragmented := true })).portCount n 21 1
  | none => s

/-- The next SEQ of a retransmitted class taken, and the frame kept (R346). -/
def State.takeSeq (s : State) (n q : Nat) (x : Sending) : State × Sending :=
  if s.retxClass n (s.qTc q) then
    let k := s.rd (joistBase n) Reg.JOIST_PORT_C_NEXT_SEQ
    let y := { x with seq := some k }
    let p := s.jport n
    (((s.setJport n { p with kept := p.kept ++ [(k, y)] }).wr (joistBase n) Reg.JOIST_PORT_C_NEXT_SEQ (k + 1)).jportReport n, y)
  else (s, x)

/-- A resend that MAC m of port n may start before a new frame of the retransmitted classes (R349), under its class's gate and
the hold of the preemptable MAC (R68). -/
def State.resendReady (s : State) (n m : Nat) : Option (Nat × Sending) :=
  match (s.jport n).resend with
  | e :: _ =>
    let hold := match s.chosen n m with
      | some (q, _) => !s.retxClass n (s.qTc q)
      | none => false
    if s.onMac n e.2.q m && !s.classPaused n (s.qTc e.2.q) && s.portUp n && !(s.port n).restart && !s.halting &&
      !(s.port n).waking && !hold && !s.gateHeld n (s.qTc e.2.q) m (s.uncut n m (s.sentLen n e.2.copy)) then some e else none
  | [] => none

/-- A kept frame starts again (R349, R366). -/
def State.startResend (s : State) (n m : Nat) (e : Nat × Sending) : State :=
  let p := s.jport n
  let s1 := (s.setJport n { p with resend := p.resend.drop 1 }).fragment n m
  (s1.setSending n m (some { e.2 with stamp := s.txStamp n, fragmented := false, resend := true })).portCount n 107 1

/-- A launched frame that starts more than 2 ns late is counted (R324). -/
def State.countLate (s : State) (n : Nat) (c : Copy) : State :=
  match c.launch with
  | some t => if s.launchAt n t + 512 < s.now then s.portCount n 104 1 else s
  | none => s

/-- The chosen copy starts on MAC m (R320): one whose class a received pause or link retransmit now holds goes back
uncharged (R346), and so does one that its gate or Set-And-Hold-MAC now holds (R68; log entry 222). In the safe state no frame
starts (R31). -/
def State.startChosen (s : State) (n m q order : Nat) : State :=
  let s0 := s.setChosen n m none
  match s.copyOf q order with
  | none => s0
  | some c =>
    if s.classPaused n (s.qTc q) ∨ s.retxHeld n (s.qTc q) ∨ s.portUp n = false ∨ (s.port n).restart ∨ s.halting ∨
        s.gateHeld n (s.qTc q) m (s.uncut n m (s.sentLen n c)) ∨ ((s.frame c.frame).ended = false ∧ c.cut = false) then s0
    else
      let s1 := s0.countLate n c
      let s2 := if c.cut then s1 else s1.commit q (s.sentLen n c)
      let s3 := ((s2.leaveQueue q c).passLost n).fragment n m
      let (s4, x) := s3.takeSeq n q { q := q, copy := c, stamp := s.txStamp n }
      s4.setSending n m (some x)

/-! ### Punts (R455, R456, R677) -/

/-- The write of the chosen host-port frame begins once a Peg buffer is drawn; without one the request waits in the pool
and the frame stays at the head of its queue (R455, R481, R677). -/
def State.startPunt (s : State) (n q order : Nat) : State :=
  let s0 := s.setChosen n 0 none
  match s.copyOf q order, s.puntQ (n - 128) (s.qTc q) with
  | some c, some p =>
    let x := s.queue p
    if x.st ≠ .active ∨ x.full ∨ x.punting.isSome ∨ s.halting ∨ (s.frame c.frame).ended = false then s0
    else
      let begin_ (t : State) (a : Nat) : State :=
        (((t.countLate n c).setQueue p { (t.countLate n c).queue p with drawn := some a, punting := some (q, c.order) }).commit q
          (s.sentLen n c)).passLost n
      let s1 := if x.drawn.isSome then s0 else s0.grantAll x.pool
      match (s1.queue p).drawn with
      | some a => begin_ s1 a
      | none =>
        if (s1.pool x.pool).waiting.contains p then s1
        else
          match s1.serve x.pool x.idx with
          | .buffer a t => begin_ t a
          | .none t | .offline t => t.setPool x.pool { t.pool x.pool with waiting := (t.pool x.pool).waiting ++ [p] }
  | _, _ => s0

/-- The PUNT entry of a frame (R456). -/
def puntEntry (a len inPort c pool written : Nat) (trunc sample : Bool) (f : Frame) : List Byte :=
  let r : Stamp := f.rx.getD {}
  leBytes 8 a ++ leBytes 2 len ++ leBytes 1 inPort ++
    leBytes 1 (c + 16 * b2n trunc + 32 * b2n sample + 64 * b2n r.cal) ++ leBytes 2 f.code ++ leBytes 1 pool ++
    leBytes 1 (timeSub r.t) ++ leBytes 4 (timeNs r.t) ++ leBytes 6 (timeSec r.t) ++ leBytes 2 written ++
    List.replicate 4 0

/-- A frame taken off its host-port queue, once it has been written: the counts of its queue, and its cells. -/
def State.leaveCounted (s : State) (q : Nat) (c : Copy) (len : Nat) : State :=
  (((s.leaveQueue q c).count (256 + q / 256) (2 * (q % 256)) 1).count (256 + q / 256) (2 * (q % 256) + 1) len).unref c.frame

/-- The Tx sampler is offered the frame as sent (R292). -/
def State.offerTx (s : State) (n i : Nat) (l : List Byte) : State :=
  let b := rportBase n
  let m := s.rd b Reg.RIDGE_PORT_D_TX_SAMPLER
  let f := s.frame i
  if s.rdb b Reg.RIDGE_PORT_D_TX_SMP_EN = false ∨ f.mirrors.contains m then s
  else (s.setFrame i { f with mirrors := f.mirrors ++ [m] }).offer m f l

/-- A frame as it leaves a port that is no front port: without its joist header, with what that hands on added, and offered to
the port's Tx sampler (R292, R341, R345, R365). -/
def State.leaveInner (s : State) (n : Nat) (x : Sending) : List Byte × State :=
  let (l, d, handed, s1) := s.joistEgress n x.q x
  let (l2, _, s2) := s1.ptpEgress n (s.frame x.copy.frame) l d handed 0
  (l2, s2.offerTx n x.copy.frame l2)

/-- The write of a frame into its buffer ends: the buffer, the PUNT entry, the write-back block and the vector
(R452, R453, R455, R456). -/
def State.puntDone (s : State) (p : Nat) : State :=
  let x := s.queue p
  match x.drawn, x.punting with
  | some a, some (q, order) =>
    match (s.egq q).all.find? (fun c => decide (c.order = order)) with
    | none => s
    | some c =>
      let f := s.frame c.frame
      let (l, s0) := s.leaveInner (128 + s.fnLink x.fn) { q := q, copy := c }
      let room := 2 ^ s.poolShift x.pool - 64
      let cut := l.take room
      let trunc := decide (room < l.length)
      let s1 := s0.hostWr (s.fnLink x.fn) a ((if c.sample then List.replicate 32 0 else padTo 32 f.user) ++
        List.replicate 32 0 ++ cut)
      let s2 := s1.hostWr (s.fnLink x.fn) (x.base + 32 * x.tail)
        (puntEntry a l.length f.inPort (s.qTc q) x.pool cut.length trunc c.sample f)
      let s3 := s2.setQueue p { x with tail := (x.tail + 1) % x.size, drawn := none, punting := none }
      let s4 := (s3.writeBack p).leaveCounted q c (l.length + 4)
      let s5 := if trunc then s4.count 157 (64 + x.pool) 1 else s4
      match (if x.cq = 0xFFFF then none else s5.findQ x.fn x.cq) with
      | some c => s5.coalesce c false
      | none => s5
  | _, _ => s

/-! ### Ending a frame (R290, R320, R346, R366) -/

/-- Slots 128 and 129 feed from the bytes of frames as they end (R585): direction 0 receive, 1 transmit. -/
def State.countBytes (s : State) (n dir len : Nat) : State :=
  let k := 2 * n + dir
  { s with gauge := { s.gauge with cur := tabSet (fun _ => 0) s.gauge.cur k (tabGet (fun _ => 0) s.gauge.cur k + len) } }

/-- Clause 30 counters of a frame sent whole; the octet counter leaves out addresses, type and FCS (log entry 22). -/
def State.txClause30 (s : State) (n : Nat) (l : List Byte) : State :=
  let s1 := (s.portCount n 0 1).portCount n 3 (l.length - 14)
  if beAt l 0 6 = 2 ^ 48 - 1 then s1.portCount n 6 1 else if (beAt l 0 1).testBit 0 then s1.portCount n 5 1 else s1

/-- A recirculated copy re-enters the pipeline as a frame of its own, with the bytes that it left with: the same record when it is
the last copy, else a record that shares its cells (R221, R271, R272). -/
def State.recirculate (s : State) (n : Nat) (x : Sending) (l : List Byte) : State :=
  let i := x.copy.frame
  let f := s.frame i
  let g : Frame := { bytes := l, recv := l, ended := true, inPort := n, inTc := f.outTc,
                     pairPort := f.pairPort, pairTc := f.pairTc, rx := f.rx, injected := f.injected, pass := f.pass + 1,
                     sysport := f.sysport, user := f.user }
  let wait (t : State) (k : Nat) : State :=
    let p := tabGet (fun _ => ({} : Pipe)) t.pipes (n - 132)
    { t with pipes := tabSet (fun _ => ({} : Pipe)) t.pipes (n - 132) { p with waiting := p.waiting ++ [k] } }
  if f.refs ≤ 1 then wait (s.setFrame i { g with cells := f.cells, held := f.held, store := f.store, parent := f.parent }) i
  else
    let (k, s1) := s.newFrame { g with parent := some i }
    wait s1 k

/-- A frame leaves port n whole, or bad with the complement of its CRC in place of the FCS (R290). -/
def State.sendOut (s : State) (n : Nat) (x : Sending) : State × List Byte × Int × Bool × Nat :=
  let f := s.frame x.copy.frame
  let (l, d, handed, s1) := s.joistEgress n x.q x
  let (l2, one, s2) := s1.ptpEgress n f l d handed x.stamp.t
  let bad := decide (f.bad ≠ 0) && !x.resend
  if bad then
    ((((s2.portCount n 98 1).event Ev.BAD_FRAME_FORWARDED 0 f.inPort n (f.bad - 1)).emit (.frame n (withBadFcs l2))),
      l2, d, one, l2.length + 4)
  else
    let short := decide (n < 128 ∧ l2.length < 60)
    let l3 := if short then padTo 60 l2 else l2
    let s3 := if short then s2.portCount n 27 1 else s2
    ((if n < 128 then s3.txClause30 n l3 else s3).emit (.frame n (withFcs l3)), l3, d, one, l3.length + 4)

/-- Whether the frame of the preemptable MAC cannot go on: an express frame is being sent, or Set-And-Hold-MAC holds it, if it has
a boundary to yield at (R61, R62, R68). -/
def State.yields (s : State) (n m : Nat) : Bool :=
  decide (m = 1) && s.preempting n && (decide (s.sending n 0 ≠ none) || ((s.port n).hold && !s.uncuttable n))

/-- A frame's transmission on MAC m of port n ends. -/
def State.txEnd (s : State) (n m : Nat) : State :=
  match s.sending n m with
  | none => s
  | some x =>
    let i := x.copy.frame
    let f := s.frame i
    if (f.ended = false ∧ f.bad = 0) ∨ s.yields n m then s
    else if 132 ≤ n ∧ n < 140 then
      let (l, s0) := s.leaveInner n x
      let s1 := ((s0.count (256 + x.q / 256) (2 * (x.q % 256)) 1).count (256 + x.q / 256) (2 * (x.q % 256) + 1) (l.length + 4))
      (s1.setSending n m none).recirculate n x l
    else
      let (s1, l, d, one, len) := s.sendOut n x
      let s2 := (s1.count (256 + x.q / 256) (2 * (x.q % 256)) 1).count (256 + x.q / 256) (2 * (x.q % 256) + 1) len
      let s3 := if x.copy.cut ∧ x.resend = false then (s2.commit x.q len).passLost n else s2
      let s4 := ((if n < 128 then s3.countBytes n 1 len else s3).txCapture n f x l d one).offerTx n i l
      let s5 := s4.setSending n m none
      match x.seq with
      | some k => if (s5.jport n).kept.any (fun e => decide (e.1 = k)) then s5 else s5.unref i
      | none => s5.unref i

/-! ### Injection (R458, R459) -/

/-- The fields of an INJECT descriptor that must be 0, and its ranges (R458, R459). -/
def injectPlain (j : Job) : Bool :=
  let direct := j.bit 4 0
  let launch := j.bit 4 4
  let ref := j.bit 4 5
  let act := j.bits 18 1 0
  let res := j.bit 18 2
  let second := launch || ref
  decide (j.len = if second then 2 else 1) && j.flagsPlain && decide (j.byte 0 4 < 64 ∧ j.byte 0 5 < 16) &&
    decide (60 ≤ j.le 6 2 ∧ j.le 6 2 ≤ 16380) && decide (act ≠ 3) && decide (j.byte 0 18 < 16) &&
    j.zero 0 23 9 && decide (j.byte 0 19 ≤ 191 ∧ j.byte 0 22 ≤ 191) &&
    (if direct then
      decide (j.bits 4 3 1 = 0) && (decide (act ≠ 0) || res || j.zero 0 19 1) && (decide (act = 2) || j.zero 0 20 2) &&
        (j.bit 18 3 || j.zero 0 22 1)
     else !second && j.zero 0 16 7) &&
    (!second || (j.zero 1 10 2 && j.zero 1 22 2 && j.zero 1 29 3 &&
      decide (j.leAt 1 12 4 < 10 ^ 9 ∧ j.leAt 1 24 4 < 10 ^ 9) && (launch || j.zero 1 4 12) && (ref || j.zero 1 16 13)))

/-- Whether a function may inject to egress queue q (R459): under a front port that it holds, or any port for the
owner. -/
def State.injectAllowed (s : State) (f q : Nat) : Bool :=
  decide (s.qPort q ≤ 140) && (decide (f = s.owner) || (decide (s.qPort q < 128) && decide (s.portHolder (s.qPort q) = f)))

/-- A cell of an injected frame that its pair cannot serve drops it, as R279 drops a received one. -/
def State.headroomDrop (s : State) (i : Nat) (k : Nat) : State :=
  let f := s.frame i
  let s1 := (s.portCount f.pairPort (48 + f.pairTc) 1).event Ev.HEADROOM_DROP 0 (f.pairPort * 16 + f.pairTc) k
    (s.pairHdrm f.pairPort f.pairTc)
  s1.dropFrame i

/-- The launch time of a directly injected frame, unless it lies too far ahead (R324). -/
def State.launchTime (s : State) (n : Nat) (j : Job) : Option Nat × State :=
  if j.bit 4 4 = false then (none, s)
  else
    let t := (j.leAt 1 4 6 * 10 ^ 9 + j.leAt 1 12 4) * 256
    let m := s.rd (wEsch + 16 * n) Reg.ESCH_PORT_LAUNCH_LAUNCH_MAX_US
    if m = 0 ∨ s.now + m * 1000 * 256 < t then (none, s.portCount n 105 1) else (some t, s)

/-- A frame taken into a pipeline's waiting packets (R23, R26). -/
def State.enterWait (s : State) (p i : Nat) : State :=
  let x := tabGet (fun _ => ({} : Pipe)) s.pipes p
  { s with pipes := tabSet (fun _ => ({} : Pipe)) s.pipes p { x with waiting := x.waiting ++ [i] } }

/-- INJECT_FRAME (R458, R459). -/
def injectFrame (j : Job) (s : State) : Answer :=
  let n := 128 + s.jobLink j
  let tc := j.byte 0 5
  let q := j.le 16 2
  if injectPlain j = false ∨ tc ≠ (s.queue j.q).tc ∨ (j.bit 4 0 ∧ s.injectAllowed (s.jobFn j) q = false) then
    failA s St.INJECT_INVALID
  else
    let data := s.hostRd (s.jobLink j) (j.le 8 8) (j.le 6 2)
    let k := cellsFor (data.length + 4)
    let ref : Option Stamp := if j.bit 4 5 then
      some { t := (j.leAt 1 16 6 * 10 ^ 9 + j.leAt 1 24 4) * 256 + j.byte 1 28, cal := false } else none
    let f : Frame := { bytes := data, recv := data, ended := true, inPort := n, inTc := tc, pairPort := n, pairTc := tc,
                       injected := true, rx := ref, outTc := tc,
                       ptp := { act := j.bits 18 1 0, residence := j.bit 18 2, tag := j.le 20 2,
                                off := if j.bits 18 2 0 = 0 then none else some (j.byte 0 19),
                                l4 := if j.bit 18 3 then some (j.byte 0 22) else none } }
    let (i, s1) := s.newFrame f
    let c := s1.chargeCells n tc k
    let s3 := c.2.setFrame i { f with cells := c.1.length, held := c.1 }
    if c.1.length < k then okA (s3.headroomDrop i k)
    else
      if j.bit 4 0 = false then okA (s3.enterWait (j.bits 4 3 1) i)
      else
        let (t, s4) := s3.launchTime (s.qPort q) j
        okA ((s4.admitTo i q t).offerFrame i)

/-! ### The rows -/

/-- INJECT_FRAME (R459). -/
def execInjectFrame (j : Job) (s : State) : Out := jobRow { op := 0x0A, owner := false, safe := true } j s injectFrame
/-- PUNT_FRAME_WRITE (R455): the write of the frame that PUNT queue p is taking ends. -/
def execPuntFrameWrite (p : Fin 4096) (s : State) : Out := .next (s.puntDone p.val)
/-- TX_FRAME_START (R320): MAC m of port n starts a frame. -/
def execTxFrameStart (n : Fin 141) (m : Fin 2) (s : State) : Out :=
  .next (
    if s.macBusy n.val m.val then s
    else match s.resendReady n.val m.val with
      | some e => if s.rdb (wPort n.val) Reg.PORT_STATUS_LPI_TX then s.wake n.val else s.startResend n.val m.val e
      | none =>
        match s.chosen n.val m.val with
        | none => s
        | some (q, k) => if 128 ≤ n.val ∧ n.val < 132 then s.startPunt n.val q k else s.startChosen n.val m.val q k)
end Sys2Proof.Machine
end

