-- ==== Sys2Proof/Machine/Joist.lean ====
section
/-!
DEFINITION. Joist: link control frames, link retransmit, and the Joist commands (ch. 11, R339 to R354).
-/
namespace Sys2Proof.Machine

/-! ### Link control frames (R347) -/

/-- A port's MAC address (R75). -/
def State.macAddr (s : State) (n : Nat) : Nat :=
  s.rd (wPort n) Reg.PORT_MAC_ADDR_LO_MAC_ADDR + 2 ^ 32 * s.rd (wPort n) Reg.PORT_MAC_ADDR_HI_MAC_ADDR

/-- Whether the MAC can start a control frame: nothing is being sent on the express MAC, or on the only MAC, and a preemptable
frame in progress has a boundary that it can follow (R56, R62). -/
def State.macFree (s : State) (n : Nat) : Bool := !s.macBusy n 0

/-- A control frame starts on the express MAC: a preemptable frame in progress is interrupted (R56, R61). The MAC counts it as
it counts every frame that it sends (R577, R585). -/
def State.controlOut (s : State) (n : Nat) (l : List Byte) : State :=
  (((s.fragment n 0).txClause30 n (padTo 60 l)).countBytes n 1 64).emit (.control n (withFcs (padTo 60 l)))

/-- The link control frame of a port: KIND 0 ACK, 1 NAK, 2 RESYNC (R347). -/
def State.linkFrame (s : State) (n kind seq : Nat) : List Byte :=
  List.replicate 6 0xFF ++ beBytes 6 (s.macAddr n) ++ [0x88, 0xB5] ++ leBytes 1 (128 + kind) ++ [0] ++ beBytes 2 (seq % 4096)

/-- The link control frames that wait are sent as R56 sends a PFC frame (R347): once the express MAC is free, after the wake
of a link in low-power idle (R51), and not in the safe state. -/
def State.flushLinks (s : State) (n : Nat) : State :=
  let p := s.port n
  if p.links = [] ∨ s.portUp n = false ∨ s.halting ∨ s.macFree n = false ∨ p.waking then s
  else if s.rdb (wPort n) Reg.PORT_STATUS_LPI_TX then s.wake n
  else forEach p.links (fun e s => s.controlOut n (s.linkFrame n e.1 e.2)) (s.setPort n { p with links := [] })

/-- A link control frame to send. -/
def State.sendLink (s : State) (n kind seq : Nat) : State :=
  (s.setPort n { s.port n with links := (s.port n).links ++ [(kind, seq)] }).flushLinks n

/-! ### The sender (R346, R349) -/

/-- Whether MAC 0 or 1 of port n is sending the frame of SEQ k. -/
def State.sendingSeq (s : State) (n k : Nat) : Bool :=
  let is (m : Nat) : Bool := match s.sending n m with
    | some x => decide (x.seq = some k)
    | none => false
  is 0 || is 1

/-- Kept frames released; one that a MAC is still sending is released when it ends. -/
def State.releaseKept (s : State) (n : Nat) (l : List (Nat × Sending)) : State :=
  forEach l (fun e s => if s.sendingSeq n e.1 then s else s.unref e.2.copy.frame) s

/-- An ACK of k releases every kept frame up to k (R349). -/
def State.ackUpTo (s : State) (n k : Nat) : State :=
  let p := s.jport n
  match p.kept.findIdx? (fun e => decide (e.1 = k)) with
  | none => s
  | some i =>
    let go := p.kept.take (i + 1)
    ((s.setJport n { p with kept := p.kept.drop (i + 1), tries := 0
                            resend := p.resend.filter (fun e => !go.any (fun g => decide (g.1 = e.1))) }).releaseKept n
      go).jportReport n

/-- Every kept frame released and counted (R349). -/
def State.dropKept (s : State) (n : Nat) : State :=
  let p := s.jport n
  (((s.setJport n { p with kept := [], resend := [], tries := 0 }).releaseKept n p.kept).portCount n 108
    p.kept.length).jportReport n

/-- The port gives up (R349): RETX_FAILED, with the correlation tag of the port and the first SEQ given up (R350, R613), and
RESYNC with its next SEQ. -/
def State.giveUp (s : State) (n : Nat) : State :=
  match (s.jport n).kept with
  | [] => s
  | e :: t =>
    let s1 := ((s.dropKept n).event Ev.RETX_FAILED 0 n e.1 (t.length + 1)).fault .joist 0 (corrTag 0x0D n e.1)
    s1.sendLink n 2 (s1.rd (joistBase n) Reg.JOIST_PORT_C_NEXT_SEQ)

/-- Every kept frame from SEQ k on is sent again, which counts a try against the oldest (R349). -/
def State.resendFrom (s : State) (n k : Nat) : State :=
  let p := s.jport n
  let l := p.kept.dropWhile (fun e => decide (e.1 ≠ k))
  if l = [] then s
  else if s.rd (joistBase n) Reg.JOIST_PORT_B_RETX_TRIES < p.tries + 1 then s.giveUp n
  else s.setJport n { p with resend := l, tries := p.tries + 1 }

/-- Whether link retransmit runs on a port: a domain port that is UP, outside SAFE (R349). -/
def State.retxRuns (s : State) (n : Nat) : Bool := s.domain n && s.portUp n && !s.halting

/-- RETX_TIMEOUT_US passes with no progress: of the sender, all kept frames are sent again (R349). -/
def State.retxTimeout (s : State) (n : Nat) : State :=
  match (s.jport n).kept with
  | e :: _ => if s.retxRuns n then s.resendFrom n e.1 else s
  | [] => s

/-! ### The receiver (R348) -/

/-- The next SEQ that a port expects (R353). -/
def State.rxExpect (s : State) (n : Nat) : Nat := s.rd (joistBase n) Reg.JOIST_PORT_D_RX_EXPECT

/-- What the receiver does with a frame of SEQ k: whether it accepts it, with the ACK or NAK it sends (R348).
`good` is whether its FCS is right. -/
def State.retxCheck (s : State) (n k : Nat) (good : Bool) : Bool × State :=
  let e := s.rxExpect n
  let p := s.jport n
  if good && decide (k = e) then
    (true, ((s.wr (joistBase n) Reg.JOIST_PORT_D_RX_EXPECT (e + 1)).setJport n { p with nakSent := false }).sendLink n 0 e)
  else
    let s1 := s.portCount n 110 1
    if good && decide (2048 ≤ (k + 4096 - e) % 4096) then (false, s1.sendLink n 0 (e + 4095))
    else if p.nakSent then (false, s1)
    else (false, (s1.setJport n { p with nakSent := true }).sendLink n 1 e)

/-- RESYNC k sets RX_EXPECT and is answered with an ACK of k - 1 (R348). -/
def State.rxResync (s : State) (n k : Nat) : State :=
  ((s.wr (joistBase n) Reg.JOIST_PORT_D_RX_EXPECT k).setJport n { s.jport n with nakSent := false }).sendLink n 0 (k + 4095)

/-! ### Commands (R339, R350, R352) -/

/-- Whether a port's retry window breaks R350 under a host timeout in ms. -/
def retryBreaks (tc us tries ms : Nat) : Bool := decide (tc ≠ 0 ∧ 1000 * ms < 4 * (us * tries))

/-- JOIST_SETUP (R350, R352). -/
def joistSetup (j : Job) (s : State) : Answer :=
  let d := j.le 4 2
  if 16384 ≤ d ∨ 64 ≤ j.byte 0 6 ∨ j.one = false ∨
      ((rangeFrom 0 128).any fun n => retryBreaks (s.rd (joistBase n) Reg.JOIST_PORT_A_RETX_TC)
        (s.rd (joistBase n) Reg.JOIST_PORT_B_RETX_TIMEOUT_US) (s.rd (joistBase n) Reg.JOIST_PORT_B_RETX_TRIES) (j.le 8 2)) = true
  then failA s St.JOIST_INVALID
  else if d ≠ s.devNum ∧ ((rangeFrom 0 128).any fun n => s.domain n && decide (s.linkState n ≠ 0)) = true then
    failA s St.JOIST_BUSY
  else okA (((s.wr wJoist Reg.JOIST_CFG_DEV_NUM d).wr wJoist Reg.JOIST_CFG_HOP_LIMIT (j.byte 0 6)).wr wJoist
    Reg.JOIST_HOST_TIMEOUT_HOST_TIMEOUT_MS (j.le 8 2))

/-- Member count and ports of device d's route record (R343). -/
def State.routeRecord (s : State) (d : Nat) : List Nat := tabGet (fun _ => [0, 0, 0, 0, 0]) s.joist.routes d

/-- Members of a route entry. -/
def State.route (s : State) (d : Nat) : List Nat := ((s.routeRecord d).drop 1).take ((s.routeRecord d).getD 0 0)

/-- JOIST_ROUTE_SET (R352). -/
def joistRouteSet (j : Job) (s : State) : Answer :=
  let first := j.le 8 2
  let n := j.le 10 2
  let recs := (rangeFrom 0 (min n 16384)).map (fun k => s.hostRd (s.jobLink j) (j.hostAddr + 8 * k) 8)
  let ports (r : List Byte) : List Nat := ((r.drop 4).take 4).map (·.toNat)
  let bad (r : List Byte) : Bool :=
    decide (4 < beAt r 0 1 ∨ leNat (slice r 1 3) ≠ 0) || ((ports r).take (beAt r 0 1)).any (fun p => decide (127 < p))
  if n = 0 then okA s
  else if 16384 < first + n ∨ j.one = false then failA s St.JOIST_INVALID
  else
    let s0 := s.countMoved 30 (8 * n)
    if recs.any bad then failA s0 St.JOIST_INVALID
    else okA (forEach ((rangeFrom first n).zip recs) (fun e s =>
      { s with joist := { s.joist with
          routes := tabSet (fun _ => [0, 0, 0, 0, 0]) s.joist.routes e.1 (beAt e.2 0 1 :: ports e.2) } }) s0)

/-- JOIST_ROUTE_QUERY (R352). -/
def joistRouteQuery (j : Job) (s : State) : Answer :=
  if 16384 ≤ j.le 8 2 ∨ j.one = false then failA s St.JOIST_INVALID
  else
    let r := s.routeRecord (j.le 8 2)
    okRes (s.jobWrite j j.hostAddr (leBytes 1 (r.getD 0 0) ++ [0, 0, 0] ++ (r.drop 1).map (BitVec.ofNat 8))) (leBytes 4 8)

/-- JOIST_PORT_QUERY (R352). -/
def joistPortQuery (j : Job) (s : State) : Answer :=
  let n := j.le 4 2
  if 128 ≤ n ∨ j.one = false then failA s St.JOIST_INVALID
  else okRes (s.jobWrite j j.hostAddr (s.regBytes (joistBase n + 0x1000) 4)) (leBytes 4 16)

/-- PORT_DOMAIN_SET (R339): refused unless the port is DISABLED; a reserved field that is not 0 is a port command's
PORT_INVALID (R78). -/
def portDomainSet (j : Job) (s : State) : Answer :=
  let n := j.le 4 2
  let b := joistBase n
  if 128 ≤ n ∨ s.portHolder n ≠ s.jobFn j then failA s St.NOT_OWNER
  else if 2 ≤ j.byte 0 6 ∨ j.only [(4, 2), (6, 1), (8, 2), (10, 2), (12, 2), (14, 1)] = false then failA s St.PORT_INVALID
  else if j.bit 9 6 ∨ j.bit 9 7 ∨ j.le 10 2 = 0 ∨ 2047 < j.le 10 2 ∨ j.le 12 2 = 0 ∨ j.byte 0 14 = 0 ∨ 15 < j.byte 0 14 ∨
      retryBreaks (j.le 8 2) (j.le 12 2) (j.byte 0 14) (s.rd wJoist Reg.JOIST_HOST_TIMEOUT_HOST_TIMEOUT_MS) then
    failA s St.JOIST_INVALID
  else if s.linkState n ≠ 0 then failA s St.JOIST_BUSY
  else
    let s1 := (s.wr (wPort n) Reg.PORT_CFG_DOMAIN (j.byte 0 6)).wr b Reg.JOIST_PORT_A_RETX_TC (j.le 8 2)
    let s2 := (s1.wr b Reg.JOIST_PORT_A_RETX_WINDOW (j.le 10 2)).wr b Reg.JOIST_PORT_B_RETX_TIMEOUT_US (j.le 12 2)
    okA (s2.wr b Reg.JOIST_PORT_B_RETX_TRIES (j.byte 0 14))

/-! ### The rows -/

/-- RX_ACK (R349). -/
def execRxAck (n : Fin 128) (k : BitVec 12) (s : State) : Out :=
  .next (if s.retxRuns n.val then s.ackUpTo n.val k.toNat else s)
/-- RX_NAK (R349). -/
def execRxNak (n : Fin 128) (k : BitVec 12) (s : State) : Out :=
  .next (if s.retxRuns n.val then s.resendFrom n.val k.toNat else s)
/-- RX_RESYNC (R348). -/
def execRxResync (n : Fin 128) (k : BitVec 12) (s : State) : Out :=
  .next (if s.retxRuns n.val then s.rxResync n.val k.toNat else s)
/-- RETX_TIMEOUT_EXPIRY (R349), or with `receiver` the same time passing after a NAK (R348). -/
def execRetxTimeoutExpiry (n : Fin 128) (receiver : Bool) (s : State) : Out :=
  .next (if receiver then s.setJport n.val { s.jport n.val with nakSent := false } else s.retxTimeout n.val)
/-- JOIST_SETUP (R352). -/
def execJoistSetup (j : Job) (s : State) : Out := jobRow { op := 0x60 } j s joistSetup
/-- JOIST_ROUTE_SET (R352). -/
def execJoistRouteSet (j : Job) (s : State) : Out := jobRow { op := 0x61 } j s joistRouteSet
/-- JOIST_ROUTE_QUERY (R352). -/
def execJoistRouteQuery (j : Job) (s : State) : Out := jobRow { op := 0x62 } j s joistRouteQuery
/-- JOIST_PORT_QUERY (R352). -/
def execJoistPortQuery (j : Job) (s : State) : Out := jobRow { op := 0x63 } j s joistPortQuery
/-- PORT_DOMAIN_SET (R339). -/
def execPortDomainSet (j : Job) (s : State) : Out := jobRow { op := 0x2A, owner := false } j s portDomainSet

end Sys2Proof.Machine
end

