-- ==== Sys2Proof/Machine/Port.lean ====
section
/-!
DEFINITION. Front ports: modes, the link state machine, EEE, flow control, preemption, gate control lists, delays and
the port commands (ch. 2, R42 to R79).
-/
namespace Sys2Proof.Machine

/-! ### Modes and FEC (R42 to R45) -/

/-- The modes of R44, None among them. -/
def modeOk (m : Nat) : Bool := [0, 1, 2, 3, 4, 5, 0x11, 0x12, 0x13].contains m

/-- Whether port n's lanes can run a mode (R42, R44): flex lanes modes 0x01 to 0x05, high lanes 0x05 and up. -/
def modeFits (n m : Nat) : Bool := decide (m = 0 ∨ (if n % 16 < 12 then m ≤ 5 else 5 ≤ m))

/-- Whether a mode permits a FEC value (R44, R45). -/
def fecOk (m f : Nat) : Bool :=
  decide (f = 0xF ∨ (m = 1 ∧ f = 0) ∨ (m = 2 ∧ f ≤ 1) ∨ (m = 3 ∧ f ≤ 2) ∨ (4 ≤ m ∧ f = 3))

/-- A mode's default FEC (R45). -/
def fecDefault (m : Nat) : Nat := if m ≤ 2 then 0 else if m = 3 then 2 else 3

/-- Whether the EEE column of a mode names a method (R44). -/
def eeeMode (m : Nat) : Bool := decide (1 ≤ m ∧ m ≤ 3)

/-- Whether a group mode makes high port k = 12 to 15 active (R42). -/
def groupActive (g k : Nat) : Bool :=
  decide (k = 12 ∨ (g = 0x12 ∧ k = 14) ∨ g = 0x11 ∨ g = 5)

def State.cfgMode (s : State) (n : Nat) : Nat := s.rd (wPort n) Reg.PORT_CFG_MODE
def State.cfgFec (s : State) (n : Nat) : Nat := s.rd (wPort n) Reg.PORT_CFG_FEC
def State.enabled (s : State) (n : Nat) : Bool := s.rdb (wPort n) Reg.PORT_CFG_ENABLE
def State.setLink_ (s : State) (n x : Nat) : State := s.wr (wPort n) Reg.PORT_STATUS_LINK_STATE x

/-- Mode of the high-lane group of port n: that of its port k = 12 (R43). -/
def State.groupMode (s : State) (n : Nat) : Nat := s.cfgMode (16 * (n / 16) + 12)

/-- Whether a mode and FEC allow an express port (R69). -/
def expressMode (m f : Nat) : Bool := decide (m = 5 ∨ 0x11 ≤ m ∨ (m = 3 ∧ f ≤ 1))

/-! ### Delays (R71, R72) -/

def State.cal (s : State) (n d : Nat) : Int := sInt 32 (s.rd (wPort n) (Reg.PORT_CAL d))
def State.setCal (s : State) (n d : Nat) (z : Int) : State := s.wr (wPort n) (Reg.PORT_CAL d) (uNat 32 z)

/-- RX_TOTAL and TX_TOTAL brought up to date (R72). -/
def State.calTotals (s : State) (n : Nat) : State :=
  (s.setCal n 6 (s.cal n 0 + s.cal n 2 + s.cal n 4)).setCal n 7 (s.cal n 1 + s.cal n 3 + s.cal n 5)

/-! ### Preemption (R61 to R63) -/

/-- Verification begins, or preemption is set as VERIFY_DIS and PREEMPT_EN have it (R63). -/
def State.startVerify (s : State) (n : Nat) : State :=
  let b := wPort n
  let up := s.portUp n
  let set (st active : Nat) : State :=
    ((s.wr b Reg.PORT_STATUS_VERIFY_STATUS st).wr b Reg.PORT_STATUS_PREEMPT_ACTIVE active).setPort n
      { s.port n with attempts := 1, txFrag := none }
  if s.rdb b Reg.PORT_CFG_PREEMPT_EN = false then set 0 0
  else if s.rdb b Reg.PORT_PREEMPT_VERIFY_DIS then set 0 (b2n up)
  else set (if up then 2 else 1) 0

/-! ### Leaving UP (R48, R676, R349) -/

/-- A frame being received ends bad, or what it left behind is discarded: R290 once it is being sent, R291
before. A frame that a pipeline holds is discarded at its END. -/
def State.spoilQuiet (s : State) (i cause : Nat) : State :=
  let f := s.frame i
  let s1 := s.setFrame i { f with bad := cause, ended := true }
  if s1.beingSent i then s1
  else if f.admitted then s1.discardQueued i
  else
    let x := tabGet (fun _ => ({} : Pipe)) s1.pipes (pipeOf f.inPort)
    if x.waiting.contains i then
      let y := { x with waiting := x.waiting.erase i }
      ({ s1 with pipes := tabSet (fun _ => ({} : Pipe)) s1.pipes (pipeOf f.inPort) y }).dropFrame i
    else s1

/-- The same, counted as a bad received frame when it is not being sent (R291). -/
def State.spoil (s : State) (i cause : Nat) : State :=
  let s1 := s.spoilQuiet i cause
  if s.beingSent i then s1 else s1.portCount (s.frame i).inPort 99 1

/-- SEQ of a frame's joist header (R337). -/
def jSeq (l : List Byte) : Nat := beAt l 16 4 % 16 * 256 + beAt l 24 1

/-- A frame under link retransmit has ended: it enters the pipeline when it is accepted (R348). -/
def State.endRetx (s : State) (n i : Nat) (good : Bool) : State :=
  let r := s.retxCheck n (jSeq (s.frame i).bytes) good
  if r.1 then (r.2.setFrame i { r.2.frame i with ended := true }).enterWait (pipeOf n) i else r.2.dropFrame i

/-- A reception fails for a cause of R290: a control frame is dropped, a frame under link retransmit is one that its receiver
discards (R348), and any other ends bad with its clones (R290, R291). -/
def State.spoilAll (s : State) (n : Nat) (r : Receiving) (cause : Nat) : State :=
  if r.drop then (match r.dup with
    | some k => (s.retxCheck n k false).2
    | none => s)
  else if r.control then s.dropFrame r.frame
  else if r.retx then (s.endRetx n r.frame false).portCount n 99 1
  else forEach (r.frame :: r.also) (fun i s => s.spoil i cause) s

/-- Lengths that meters charged for a frame whose length is another (R229). -/
def State.countCharges (s : State) (n len : Nat) (r : Receiving) : State :=
  forEach r.charges (fun c s => if c = len then s else s.portCount n 112 1) s

/-- The length as received of a frame that is still held, for the meter calls that follow its reception (R229). -/
def State.noteLen (s : State) (i len : Nat) : State :=
  if s.frame i = {} then s else s.setFrame i { s.frame i with rxLen := some len }

/-- The frames being received on a port end as frames with a bad FCS, with the bytes that have come (R229, R676). -/
def State.cutReception (s : State) (n : Nat) : State :=
  forEach (s.port n).receiving (fun e s =>
    match e.2 with
    | some r =>
      let s1 := s.setPort n { s.port n with receiving := tabSet (fun _ => none) (s.port n).receiving e.1 none }
      let s2 := (s1.noteLen r.frame r.len).countCharges n r.len r
      if r.long then s2 else (s2.portCount n 2 1).spoilAll n r 1
    | none => s) s

/-- The frames that a port sends are cut off (R676): nothing of them is counted, and each releases its reference, unless link
retransmit keeps it. -/
def State.cutSending (s : State) (n : Nat) : State :=
  forEach [0, 1] (fun m s =>
    match s.sending n m with
    | none => s
    | some x =>
      let s1 := s.setSending n m none
      if (s.jport n).kept.any (fun e => decide (some e.1 = x.seq)) then s1 else s1.unref x.copy.frame) s

/-- Settings of a port command put in force (R77). -/
def State.putSet (s : State) (n : Nat) (x : PortSet) : State :=
  let b := wPort n
  match x with
  | .preempt en dis frag time tc =>
    let s1 := (s.wr b Reg.PORT_CFG_PREEMPT_EN en).wr b Reg.PORT_PREEMPT_VERIFY_DIS dis
    let s2 := (s1.wr b Reg.PORT_PREEMPT_FRAG_ADD_FRAG_SIZE frag).wr b Reg.PORT_PREEMPT_VERIFY_TIME time
    (s2.wr b Reg.PORT_PREEMPT_EXPRESS_TC (tc ||| 0xC000)).startVerify n
  | .eee en timer tw =>
    let s1 := ((s.wr b Reg.PORT_CFG_EEE_EN en).wr b Reg.PORT_EEE_LPI_TIMER timer).wr b Reg.PORT_EEE_TW_SYS_TX tw
    if en = 0 ∧ s1.rdb b Reg.PORT_STATUS_LPI_TX then s1.wake n else s1
  | .express on => s.wr b Reg.PORT_CFG_EXPRESS on

/-- Every setting that waits for a boundary put in force (R77). -/
def State.settled (s : State) (n : Nat) : State :=
  forEach (s.port n).later (fun x s => s.putSet n x) (s.setPort n { s.port n with later := [] })

/-- Whether a port sends a frame. -/
def State.portSends (s : State) (n : Nat) : Bool := decide (s.sending n 0 ≠ none) || decide (s.sending n 1 ≠ none)

/-- A port leaves UP for a state: the frames under way are cut, CAL_DONE is cleared, preemption and low-power idle end, kept
frames are released, and the port's fault source reports it (R48, R349, R607, R676). -/
def State.leaveUp (s : State) (n next : Nat) : State :=
  if s.linkState n ≠ 4 then s.setLink_ n next
  else
    let b := wPort n
    let s1 := (((s.cutReception n).cutSending n).setLink_ n next).wr b Reg.PORT_STATUS_CAL_DONE 0
    let s2 := (s1.wr b Reg.PORT_STATUS_LPI_TX 0).wr b Reg.PORT_STATUS_LPI_RX 0
    let s3 := s2.setPort n { s2.port n with chosen := [], waking := false, measuring := false, links := [] }
    ((((((s3.portCount n 26 1).settled n).startVerify n).hdrmMoved n).dropKept n).losePortRef n).faultPort n 0 n

/-- The state that a port starts its link in (R48). -/
def State.firstState (s : State) (n : Nat) : Nat :=
  if s.rdb (wPort n) Reg.PORT_CFG_AN_EN then 1 else if s.rdb (wPort n) Reg.PORT_CFG_LT_EN then 2 else 3

/-- FEC_RESOLVED where no negotiation decides it (R45). -/
def State.fixFec (s : State) (n : Nat) : State :=
  if s.cfgFec n ≠ 0xF then s.wr (wPort n) Reg.PORT_STATUS_FEC_RESOLVED (s.cfgFec n)
  else if s.rdb (wPort n) Reg.PORT_CFG_AN_EN then s
  else s.wr (wPort n) Reg.PORT_STATUS_FEC_RESOLVED (fecDefault (s.cfgMode n))

/-- A port enters a link state; in AN it advertises its configured mode alone, and the pause abilities of PAUSE_MODE
(R49). -/
def State.startState (s : State) (n x : Nat) : State :=
  let s1 := s.setLink_ n x
  if x = 1 then s1.emit (.advert n (s.cfgMode n) (s.rd (wPort n) Reg.PORT_CFG_PAUSE_MODE)) else s1

/-- The link goes to DISABLED, where no FEC is in use, and, while ENABLE is 1, starts again (R45, R48, R77; log entry
183). In the safe state a port stays in its state (R31, R48). -/
def State.relink (s : State) (n : Nat) : State :=
  if s.halting then s
  else
    let s0 := (s.leaveUp n 0).setPort n { (s.leaveUp n 0).port n with restart := false }
    let s1 := s0.wr (wPort n) Reg.PORT_STATUS_FEC_RESOLVED 0
    (if s1.enabled n then (s1.startState n (s1.firstState n)).fixFec n else s1).hdrmMoved n

/-- The same at the next frame boundary: at once while the port sends nothing (R77). -/
def State.restartLink (s : State) (n : Nat) : State :=
  if s.portSends n then s.setPort n { s.port n with restart := true } else s.relink n

/-- The frame boundary of a port that sends nothing: a restart that waited for it, or the settings that did (R48, R77), and
the link control frames that waited for the express MAC (R347). -/
def State.boundary (s : State) (n : Nat) : State :=
  if n < 128 then
    let s1 := if s.portSends n then s
      else if (s.port n).restart then s.relink n
      else if (s.port n).later = [] then s else (s.settled n).portHeadroom n
    s1.flushLinks n
  else s

/-! ### Link events (R48) -/

/-- Negotiation completes, with the configured mode in common or not; the resolved FEC and pause abilities are applied, and
what fails is tried again (R48, R49; log entry 41). -/
def State.anResolved (s : State) (n : Nat) (common : Bool) (fec pause : Nat) : State :=
  if s.linkState n ≠ 1 ∨ s.halting then s
  else if common = false then (s.event Ev.AN_FAILED 0 n 0 0).startState n 1
  else
    let m := s.cfgMode n
    let f := if s.cfgFec n ≠ 0xF then s.cfgFec n else if fec ≠ 0xF ∧ fecOk m fec then fec else fecDefault m
    let s1 := s.setPort n { s.port n with pauseAble := pause }
    ((s1.wr (wPort n) Reg.PORT_STATUS_FEC_RESOLVED f).setLink_ n (if s.rdb (wPort n) Reg.PORT_CFG_LT_EN then 2 else 3)).hdrmMoved n

/-- The training timer expires. -/
def State.ltExpiry (s : State) (n lane : Nat) : State :=
  if s.linkState n ≠ 2 ∨ s.halting then s
  else (s.event Ev.LT_FAILED 0 n lane 0).startState n (if s.rdb (wPort n) Reg.PORT_CFG_AN_EN then 1 else 2)

/-- The lanes of port n, each by the port of its position (R42). -/
def State.lanesOf (s : State) (n : Nat) : List Nat :=
  let g := s.groupMode n
  if n % 16 < 12 then [n] else if g = 0x13 then rangeFrom n 4 else if g = 0x12 then rangeFrom n 2 else [n]

/-- Alignment is achieved: the port is UP. Its partner holds no pause state yet, so what Ridge holds in XOFF is to be
sent. A port on a lane that failed calibration never reaches UP (R632), and none does in the safe state. -/
def State.linkUp (s : State) (n : Nat) : State :=
  if s.linkState n ≠ 3 ∨ s.halting ∨ (s.lanesOf n).any s.dev.laneBad.contains then s
  else
    let s1 := s.setLink_ n 4
    let s2 := s1.event Ev.LINK_UP 0 n (s.cfgMode n) (s.rd (wPort n) Reg.PORT_STATUS_FEC_RESOLVED)
    let s3 := s2.setPort n { s2.port n with measuring := true, sentXoff := 0, refresh := 0, changed := s2.xoffMask n }
    let s4 := (s3.startVerify n).portHeadroom n
    if s4.domain n then s4.sendLink n 2 (s4.rd (joistBase n) Reg.JOIST_PORT_C_NEXT_SEQ) else s4

/-- The port loses its link; in the safe state it stays in its state. -/
def State.linkLoss (s : State) (n cause : Nat) : State :=
  if s.linkState n ≠ 4 ∨ s.halting then s
  else ((s.leaveUp n (s.firstState n)).startState n (s.firstState n)).event Ev.LINK_DOWN 0 n cause 0

/-- The VAR measurement ends (R72). -/
def State.varMeasured (s : State) (n : Nat) (rx tx : Int) : State :=
  if s.linkState n ≠ 4 ∨ (s.port n).measuring = false then s
  else
    let s1 := (((s.setCal n 2 rx).setCal n 3 tx).calTotals n).setPort n { s.port n with measuring := false }
    (s1.wr (wPort n) Reg.PORT_STATUS_CAL_DONE 1).event Ev.CAL_DONE 0 n (uNat 32 rx) (uNat 32 tx)

/-! ### Energy-Efficient Ethernet (R50, R51) -/

/-- LPI_TIMER passes with nothing eligible to send: no frame, no resend and no control frame, on a port whose mode has a
method of Energy-Efficient Ethernet. -/
def State.lpiEnter (s : State) (n : Nat) : State :=
  let idle := decide (s.sending n 0 = none ∧ s.sending n 1 = none ∧ s.chosen n 0 = none ∧ s.chosen n 1 = none ∧
    (s.port n).changed = 0 ∧ (s.port n).refresh = 0 ∧ (s.port n).links = [] ∧ s.resendReady n 0 = none ∧ s.resendReady n 1 = none) &&
    !(s.ridge.queues.any (fun e => decide (s.qPort e.1 = n ∧ s.blockedBy e.1 = 0)))
  if s.portUp n ∧ s.rdb (wPort n) Reg.PORT_CFG_EEE_EN ∧ eeeMode (s.cfgMode n) ∧
      s.rdb (wPort n) Reg.PORT_STATUS_LPI_TX = false ∧ idle ∧ (s.port n).waking = false then
    (s.wr (wPort n) Reg.PORT_STATUS_LPI_TX 1).portCount n 24 1
  else s

/-- The link partner enters or leaves low-power idle. -/
def State.lpiReceived (s : State) (n : Nat) (enter : Bool) : State :=
  if s.portUp n = false then s
  else
    let was := s.rdb (wPort n) Reg.PORT_STATUS_LPI_RX
    let s1 := s.wr (wPort n) Reg.PORT_STATUS_LPI_RX (b2n enter)
    if enter && !was then s1.portCount n 25 1 else s1

/-! ### PAUSE and PFC (R53 to R60) -/

def State.pauseMode (s : State) (n : Nat) : Nat := s.rd (wPort n) Reg.PORT_CFG_PAUSE_MODE
def State.quanta (s : State) (n j : Nat) : Nat := s.rd (wPort n + 4 * j) Reg.PORT_PFC_QUANTA_QUANTA

/-- A PFC frame for the priorities of a mask, or a PAUSE frame in PAUSE_MODE 1: the times of those in XOFF, 0 for the
others (R55, R57). -/
def State.pauseFrame (s : State) (n mask xoff : Nat) : State :=
  let t (j : Nat) : Nat := if xoff.testBit j && mask.testBit j then s.quanta n j else 0
  let head := [0x01, 0x80, 0xC2, 0, 0, 0x01] ++ beBytes 6 (s.macAddr n) ++ [0x88, 0x08]
  if s.pauseMode n = 1 then ((s.controlOut n (head ++ [0, 1] ++ beBytes 2 (t 0))).portCount n 10 1).portCount n 12 1
  else
    let s1 := (s.controlOut n (head ++ [1, 1] ++ beBytes 2 mask ++ (rangeFrom 0 8).flatMap (fun j => beBytes 2 (t j)))).portCount
      n 10 1
    forEach ((rangeFrom 0 8).filter (fun j => mask.testBit j)) (fun j s => s.portCount n (32 + j) 1) s1

/-- The change that the MAC reports (R56, R57): with a quanta of 0, one frame at the change to XOFF and none at the change
to XON. A link in low-power idle wakes first (R51). -/
def State.pfcSend (s : State) (n : Nat) : State :=
  let p := s.port n
  let now := s.xoffMask n
  let d := p.changed &&& (p.sentXoff ^^^ now)
  let again := p.refresh &&& p.sentXoff &&& now
  let mask := (rangeFrom 0 8).foldl (fun a j =>
    a + b2n ((d.testBit j && (now.testBit j || decide (s.quanta n j ≠ 0))) || (again.testBit j && decide (s.quanta n j ≠ 0))) * 2 ^ j) 0
  if s.portUp n = false ∨ s.halting ∨ (p.changed = 0 ∧ p.refresh = 0) ∨ s.macFree n = false ∨ p.waking then s
  else if s.rdb (wPort n) Reg.PORT_STATUS_LPI_TX then s.wake n
  else
    let s1 := s.setPort n { p with changed := 0, refresh := 0, sentXoff := now }
    if mask = 0 then s1 else s1.pauseFrame n mask now

/-- Half of the advertised time passes while XOFF holds (R57): the refresh is sent, or waits for a MAC that is sending or
in low-power idle. -/
def State.pfcRefresh (s : State) (n j : Nat) : State :=
  let p := s.port n
  if s.portUp n ∧ s.halting = false ∧ p.sentXoff.testBit j ∧ (s.xoffMask n).testBit j ∧ s.quanta n j ≠ 0 then
    if s.macFree n ∧ s.rdb (wPort n) Reg.PORT_STATUS_LPI_TX = false ∧ p.waking = false then s.pauseFrame n (2 ^ j) (s.xoffMask n)
    else s.setPort n { p with refresh := p.refresh ||| 2 ^ j }
  else s

/-- A received PFC frame (R54, R58, R59): time j of the list for each priority j of the vector, under the PAUSE_MODE and
PFC_RX_EN in force when it began (R77). -/
def State.rxPfc (s : State) (n mode en vec : Nat) (times : List Nat) : State :=
  if s.portUp n = false then s
  else
    let s1 := s.portCount n 11 1
    let js := (rangeFrom 0 8).filter (fun j => vec.testBit j)
    let s2 := forEach js (fun j s => s.portCount n (40 + j) 1) s1
    if mode ≠ 2 then s2
    else
      let m := (js.filter (fun j => en.testBit j)).foldl
        (fun a j => setBits a j j (b2n (decide (times.getD j 0 ≠ 0)))) (s2.port n).rxPaused
      (s2.setPort n { s2.port n with rxPaused := m }).pauseReport n

/-- A received PAUSE frame (R57, R59), under the PAUSE_MODE in force when it began, on a port with the ability to honour it
(R48). -/
def State.rxPause (s : State) (n mode quanta : Nat) : State :=
  if s.portUp n = false then s
  else
    let s1 := (s.portCount n 11 1).portCount n 13 1
    if mode ≠ 1 ∨ s1.pauseAble n 1 = false then s1
    else (s1.setPort n { s1.port n with rxPauseAll := decide (quanta ≠ 0) }).pauseReport n

/-- Any other MAC Control frame (R59). -/
def State.rxControl (s : State) (n : Nat) : State :=
  if s.portUp n = false then s else (s.portCount n 11 1).portCount n 14 1

/-- The timer of a received pause expires: of priority j, or of a PAUSE frame (R58). -/
def State.pauseExpiry (s : State) (n : Nat) (j : Option Nat) : State :=
  let p := s.port n
  (match j with
   | some k => s.setPort n { p with rxPaused := setBits p.rxPaused k k 0 }
   | none => s.setPort n { p with rxPauseAll := false }).pauseReport n

/-! ### Verification (R63) -/

/-- A verify interval passes with no reply. -/
def State.verifyExpiry (s : State) (n : Nat) : State :=
  if s.rd (wPort n) Reg.PORT_STATUS_VERIFY_STATUS ≠ 2 then s
  else if (s.port n).attempts < 3 then s.setPort n { s.port n with attempts := (s.port n).attempts + 1 }
  else ((s.wr (wPort n) Reg.PORT_STATUS_VERIFY_STATUS 4).event Ev.VERIFY_FAILED 0 n 0 0).faultPort n 1 n

/-- A verification reply arrives, with the partner's ADD_FRAG_SIZE (R62, R63). -/
def State.verified (s : State) (n frag : Nat) : State :=
  if s.rd (wPort n) Reg.PORT_STATUS_VERIFY_STATUS ≠ 2 then s
  else
    let s1 := (s.wr (wPort n) Reg.PORT_STATUS_VERIFY_STATUS 3).wr (wPort n) Reg.PORT_STATUS_PREEMPT_ACTIVE 1
    (s1.setPort n { s1.port n with txFrag := some frag }).portHeadroom n

/-! ### Gate control lists (R65 to R68) -/

/-- The list of an image (R65). -/
def parseGcl (l : List Byte) : Gcl :=
  let v (o n : Nat) : Nat := leNat (slice l o n)
  { base := v 0 6 * 10 ^ 9 + v 8 4 % 2 ^ 30, cycle := v 12 4, ext := v 16 4, init := v 20 2
    entries := (rangeFrom 0 (v 22 2)).map (fun i => (v (32 + 8 * i) 2, v (34 + 8 * i) 1 % 4, v (36 + 8 * i) 4))
    image := l.take (32 + 8 * v 22 2) }

/-- Whether an image of length len is refused with GCL_INVALID (R78). -/
def gclBad (l : List Byte) (len : Nat) : Bool :=
  let v (o n : Nat) : Nat := leNat (slice l o n)
  let g := parseGcl l
  decide (len < 32 ∨ 256 < v 22 2 ∨ len < 32 + 8 * v 22 2 ∨ g.cycle < 1000 ∨ 10 ^ 9 < g.cycle ∨ g.cycle < g.ext ∨
    10 ^ 9 ≤ v 8 4 % 2 ^ 30) || g.entries.any (fun e => decide (e.2.1 = 3))

/-- Whether a reserved field of an image is not 0. -/
def gclReserved (l : List Byte) : Bool :=
  let v (o n : Nat) : Nat := leNat (slice l o n)
  decide (v 6 2 ≠ 0 ∨ v 8 4 / 2 ^ 30 ≠ 0 ∨ v 24 8 ≠ 0) ||
    (rangeFrom 0 (v 22 2)).any (fun i => decide (v (34 + 8 * i) 1 / 4 ≠ 0 ∨ v (35 + 8 * i) 1 ≠ 0))

/-- The first cycle start at least 10,000 ns after time t (R67). -/
def Gcl.changeTime (g : Gcl) (t : Nat) : Nat :=
  if t + 10000 ≤ g.base then g.base else g.base + (t + 10000 - g.base + g.cycle - 1) / g.cycle * g.cycle

/-- A list loaded, or the port's list disabled at once (R66, R67, R77). -/
def State.gclLoad (s : State) (n : Nat) (g : Option Gcl) : State :=
  let p := s.port n
  let b := wPort n
  match g with
  | none =>
    ((s.setPort n { p with gcl := none, pending := none, gates := 0xFFFF, hold := false, entry := 0 }).wr b
      Reg.PORT_STATUS_GCL_ACTIVE 0).wr b Reg.PORT_STATUS_GCL_PENDING 0
  | some g =>
    (s.setPort n { p with pending := some g, change := g.changeTime s.nowNs,
                          gates := if p.gcl.isNone then g.init else p.gates }).wr b Reg.PORT_STATUS_GCL_PENDING 1

/-- OP of an entry applied to the hold of the preemptable MAC (R68). -/
def holdAfter (h : Bool) (op : Nat) : Bool := if op = 1 then true else if op = 2 then false else h

/-- Entries that the list passes from entry a to entry b, b among them: those that lie within the cycle. -/
def Gcl.passed (g : Gcl) (a b : Nat) : List (Nat × Nat × Nat) :=
  let n := g.entries.length
  let startOf (i : Nat) : Nat := (g.entries.take i).foldl (fun t e => t + e.2.2) 0
  let idx := (rangeFrom (a + 1) ((b + n - a - 1) % n + 1)).map (· % n)
  (idx.filter (fun i => decide (startOf i < g.cycle))).filterMap (fun i => g.entries[i]?)

/-- Gates and hold of an entry put in force: at a hold, a preemptable frame in progress yields at its next permitted fragment
boundary (R68). -/
def State.gclPut (s : State) (n entry gates : Nat) (h : Bool) : State :=
  let p := s.port n
  let s1 := s.setPort n { p with entry := entry, gates := gates, hold := h }
  if h && !p.hold then ((if s.preempting n && !s.uncuttable n then s1.fragment n 0 else s1).portCount n 22 1) else s1

/-- The operational list's entry at the present time is applied, as the list passes to it (R66, R68). -/
def State.gclApply (s : State) (n : Nat) : State :=
  let p := s.port n
  match p.gcl with
  | none => s
  | some g =>
    let e := g.at p.changeAt s.nowNs
    s.gclPut n e.1 e.2.1
      (if g.entries = [] then p.hold else (g.passed p.entry e.1).foldl (fun h x => holdAfter h x.2.1) p.hold)

/-- A time change moves the list to the entry of the new time (R66): no entry between is passed, and one that goes on is not
applied again. -/
def State.gclMove (s : State) (n : Nat) : State :=
  let p := s.port n
  match p.gcl with
  | none => s
  | some g =>
    let e := g.at p.changeAt s.nowNs
    let op := match g.entries[e.1]? with
      | some x => if e.1 = p.entry then 0 else x.2.1
      | none => 0
    s.gclPut n e.1 e.2.1 (holdAfter p.hold op)

/-- The pending list becomes operational at its change time (R67). -/
def State.gclChange (s : State) (n : Nat) : State :=
  let p := s.port n
  match p.pending with
  | none => s
  | some g =>
    if s.nowNs < p.change then s
    else
      let last := g.entries.length - 1
      let s1 := s.setPort n { p with gcl := some g, gclStart := p.change, pending := none, entry := last }
      let s2 := (s1.wr (wPort n) Reg.PORT_STATUS_GCL_ACTIVE 1).wr (wPort n) Reg.PORT_STATUS_GCL_PENDING 0
      (s2.gclApply n).event Ev.GCL_CHANGED 0 n (p.change % 10 ^ 9) 0

/-! ### Port commands (R76 to R78) -/

/-- A command on a front port that its function holds (R76). -/
def portGate (j : Job) (s : State) (body : State → Nat → Answer) : Answer :=
  let n := j.le 4 2
  if 128 ≤ n ∨ s.portHolder n ≠ s.jobFn j then failA s St.NOT_OWNER else body s n

/-- PORT_CONFIG (R43, R44, R69, R76 to R78): a mode of R44 that is not the group's is LANE_IN_USE on ports 13 to 15 (R43). A
mode of other lanes than the port's is answered with MODE_INVALID elsewhere (DESIGN CHOICE: log entry 190). -/
def portConfig (j : Job) (s : State) : Answer :=
  portGate j s fun s n =>
    let b := wPort n
    let m := j.byte 0 8
    let f := j.bits 9 3 0
    let k := n % 16
    let others := (rangeFrom (16 * (n / 16) + 13) 3)
    if j.only [(4, 7), (12, 6)] = false ∨ 16 ≤ j.byte 0 9 ∨ 32 ≤ j.byte 0 10 ∨ 4 ≤ j.bits 10 4 2 ∨ j.le 6 2 < 64 ∨
        16384 < j.le 6 2 then failA s St.PORT_INVALID
    else if modeOk m = false then failA s St.MODE_INVALID
    else if 13 ≤ k ∧ (groupActive (s.groupMode n) k = false ∨ m ≠ s.groupMode n) then failA s St.LANE_IN_USE
    else if modeFits n m = false then failA s St.MODE_INVALID
    else if k = 12 ∧ m ≠ s.cfgMode n ∧ others.any s.enabled then failA s St.LANE_IN_USE
    else if fecOk m f = false then failA s St.FEC_INVALID
    else if (s.settled n).express n ∧ expressMode m f = false then failA s St.EXPRESS_CONFLICT
    else
      let mac := j.bytes 0 12 6
      let v := setBits (setBits (setBits (setBits (setBits (s.reg b) 24 24 (j.bits 10 0 0)) 23 23 (j.bits 10 1 1)) 22 20
        (j.bits 10 4 2)) 19 16 f) 15 8 m
      let same := decide (v = s.reg b)
      let s1 := (s.setReg b v).wr b Reg.PORT_FRAME_MAX_FRAME (j.le 6 2)
      let s2 := (s1.wr b Reg.PORT_MAC_ADDR_LO_MAC_ADDR (beNat mac % 2 ^ 32)).wr b Reg.PORT_MAC_ADDR_HI_MAC_ADDR
        (beNat mac / 2 ^ 32)
      match s2.withHeadroom n [] s with
      | (s3, some (0, r)) => okRes (if same ∨ s3.enabled n = false then s3 else s3.restartLink n) r
      | a => a

/-- PORT_ENABLE (R48, R78). -/
def portEnable (j : Job) (s : State) : Answer :=
  portGate j s fun s n =>
    let on := j.bit 6 0
    if j.only [(4, 3)] = false ∨ 2 ≤ j.byte 0 6 then failA s St.PORT_INVALID
    else if on ∧ 13 ≤ n % 16 ∧ groupActive (s.groupMode n) (n % 16) = false then failA s St.LANE_IN_USE
    else if on ∧ s.cfgMode n = 0 then failA s St.MODE_INVALID
    else okA ((s.wr (wPort n) Reg.PORT_CFG_ENABLE (b2n on)).restartLink n)

/-- PORT_QUERY (R76). -/
def portQuery (j : Job) (s : State) : Answer :=
  portGate j s fun s n =>
    if j.only [(4, 2), (8, 8)] = false then failA s St.PORT_INVALID
    else okA (s.jobWrite j (j.le 8 8) (s.regBytes (wPort n) 16))

/-- PORT_CAL (R72, R78). -/
def portCal (j : Job) (s : State) : Answer :=
  portGate j s fun s n =>
    let rx := sInt 32 (j.le 8 4)
    let tx := sInt 32 (j.le 12 4)
    let out (z : Int) : Bool := decide (z < -262144 ∨ 262143 < z)
    if j.only [(4, 3), (8, 8)] = false ∨ 2 ≤ j.byte 0 6 then failA s St.PORT_INVALID
    else if out rx ∨ out tx then failA s St.CAL_RANGE
    else if j.bit 6 0 ∧ s.portUp n = false then failA s St.PORT_DOWN
    else
      let s1 := ((s.setCal n 4 rx).setCal n 5 tx).calTotals n
      okA (if j.bit 6 0 then s1.setPort n { s1.port n with measuring := true } else s1)

/-- Whether an express port's mapping breaks R60: enables for the priorities of TC 14 and 15, given as bits 3:0 of the
nibbles of byte 17 of PORT_PFC_SET. -/
def expressPfcBad (p14 p15 tx rx : Nat) : Bool :=
  tx.testBit p14 || tx.testBit p15 || rx.testBit p14 || rx.testBit p15

/-- PORT_PFC_SET (R54, R57, R60, R76). Of the second entry R76 lays out bytes 6 and 7 alone: bytes 4 and 5 are held to be reserved
there and not a second place for the port number (DESIGN CHOICE: log entry 223). -/
def portPfcSet (j : Job) (s : State) : Answer :=
  portGate j s fun s n =>
    let b := wPort n
    let nib (t : Nat) : Nat := j.bits (10 + t / 2) (4 * (t % 2) + 3) (4 * (t % 2))
    let quanta (k : Nat) : Nat := if k = 0 then j.leAt 1 6 2 else j.le (16 + 2 * k) 2
    if j.len ≠ 2 ∨ j.flagsPlain = false ∨ 3 ≤ j.byte 0 6 ∨ j.byte 0 7 ≠ 0 ∨ j.zero 1 4 2 = false ∨ j.zero 1 8 24 = false ∨
        ((rangeFrom 0 16).any fun t => decide (8 ≤ nib t)) = true then failA s St.PORT_INVALID
    else if (s.settled n).express n ∧ expressPfcBad (nib 14) (nib 15) (j.byte 0 8) (j.byte 0 9) then
      failA s St.EXPRESS_CONFLICT
    else
      let s1 := ((s.wr b Reg.PORT_CFG_PAUSE_MODE (j.byte 0 6)).wr b Reg.PORT_PFC_CFG_PFC_TX_EN (j.byte 0 8)).wr b
        Reg.PORT_PFC_CFG_PFC_RX_EN (j.byte 0 9)
      let s2 := forEach (rangeFrom 0 16) (fun t s => s.wr b (Reg.PORT_PFC_MAP_TC t) (nib t)) s1
      let s3 := forEach (rangeFrom 0 8) (fun k s => s.wr (b + 4 * k) Reg.PORT_PFC_QUANTA_QUANTA (quanta k)) s2
      match s3.withHeadroom n [] s with
      | (s4, some (0, r)) =>
        let p := s4.port n
        okRes ((s4.setPort n { p with changed := p.changed ||| (p.sentXoff ^^^ s4.xoffMask n) }).pauseReport n) r
      | a => a

/-- Settings of port n that wait for its next transmit boundary (R77). -/
def State.putLater (s : State) (n : Nat) (x : PortSet) : State :=
  s.setPort n { s.port n with later := (s.port n).later ++ [x] }

/-- Settings of port n take effect at the next frame boundary of the transmit direction, at once while it sends nothing (R77);
they are refused when SHARED_CELLS would be negative under them (R274). -/
def State.takeSet (s : State) (n : Nat) (x : PortSet) : Answer :=
  if s.portSends n then
    match ((s.settled n).putSet n x).withHeadroom n [] s with
    | (_, some (0, r)) => okRes (s.putLater n x) r
    | a => a
  else (s.putSet n x).withHeadroom n [] s

/-- PORT_PREEMPT_SET (R61 to R63): EXPRESS_TC bits 15:14 stay 1. -/
def portPreemptSet (j : Job) (s : State) : Answer :=
  portGate j s fun s n =>
    if j.only [(4, 5), (10, 2)] = false ∨ 4 ≤ j.byte 0 6 ∨ 4 ≤ j.byte 0 7 ∨ j.byte 0 8 = 0 ∨ 128 < j.byte 0 8 then
      failA s St.PORT_INVALID
    else s.takeSet n (.preempt (j.bits 6 0 0) (j.bits 6 1 1) (j.byte 0 7) (j.byte 0 8) (j.le 10 2))

/-- PORT_GCL_LOAD (R65, R67, R77, R78). -/
def portGclLoad (j : Job) (s : State) : Answer :=
  portGate j s fun s n =>
    let len := j.le 16 4
    let img := s.hostRd (s.jobLink j) (j.le 8 8) (min len 2080)
    if j.only [(4, 3), (8, 12)] = false ∨ 2 ≤ j.byte 0 6 ∨ j.le 8 8 % 8 ≠ 0 then failA s St.PORT_INVALID
    else if j.bit 6 0 = false then okA (s.gclLoad n none)
    else
      let s0 := s.countMoved 30 img.length
      if gclBad img len then failA s0 St.GCL_INVALID
      else if gclReserved img then failA s0 St.PORT_INVALID
      else okA (s0.gclLoad n (some (parseGcl img)))

/-- PORT_GCL_QUERY (R76): the operational image, the pending image, and the pending change time as 6 bytes of seconds, 2 of
0 and 4 of nanoseconds (log entry 24). -/
def portGclQuery (j : Job) (s : State) : Answer :=
  portGate j s fun s n =>
    let p := s.port n
    let img (g : Option Gcl) : List Byte := match g with
      | some g => g.image
      | none => []
    let t := if p.pending.isSome then leBytes 6 (p.change / 10 ^ 9) ++ [0, 0] ++ leBytes 4 (p.change % 10 ^ 9) else []
    if j.only [(4, 2), (8, 8)] = false then failA s St.PORT_INVALID
    else okA (s.jobWrite j (j.le 8 8) (img p.gcl ++ img p.pending ++ t))

/-- PORT_EEE_SET (R50 to R52). -/
def portEeeSet (j : Job) (s : State) : Answer :=
  portGate j s fun s n =>
    let on := j.bit 6 0
    if j.only [(4, 3), (8, 4)] = false ∨ 2 ≤ j.byte 0 6 then failA s St.PORT_INVALID
    else if on ∧ (s.settled n).express n then failA s St.EXPRESS_CONFLICT
    else if on ∧ eeeMode (s.cfgMode n) = false then failA s St.MODE_INVALID
    else s.takeSet n (.eee (b2n on) (j.le 8 2) (j.le 10 2))

/-- PORT_EXPRESS_SET (R60, R69, R317). -/
def portExpressSet (j : Job) (s : State) : Answer :=
  portGate j s fun s n =>
    let b := wPort n
    let on := j.bit 6 0
    let p (t : Nat) : Nat := s.prioOf n t
    let exq := s.esch.nodes.any (fun e => decide (nodeKey 2 0 ≤ e.1 ∧ e.1 < nodeKey 3 0 ∧ s.qPort (e.1 - nodeKey 2 0) = n) &&
      e.2.express)
    if j.only [(4, 3)] = false ∨ 2 ≤ j.byte 0 6 then failA s St.PORT_INVALID
    else if on ∧ (expressMode (s.cfgMode n) (s.cfgFec n) = false ∨ (s.settled n).rdb b Reg.PORT_CFG_EEE_EN ∨
        expressPfcBad (p 14) (p 15) (s.rd b Reg.PORT_PFC_CFG_PFC_TX_EN) (s.rd b Reg.PORT_PFC_CFG_PFC_RX_EN)) then
      failA s St.EXPRESS_CONFLICT
    else if on = false ∧ exq then failA s St.EXPRESS_CONFLICT
    else okA (if s.portSends n then s.putLater n (.express (b2n on)) else s.putSet n (.express (b2n on)))

/-! ### The rows -/

/-- PORT_CONFIG (R76). -/
def execPortConfig (j : Job) (s : State) : Out := jobRow { op := 0x20, owner := false } j s portConfig
/-- PORT_ENABLE (R48). -/
def execPortEnable (j : Job) (s : State) : Out := jobRow { op := 0x21, owner := false } j s portEnable
/-- PORT_QUERY (R76). -/
def execPortQuery (j : Job) (s : State) : Out := jobRow { op := 0x22, owner := false } j s portQuery
/-- PORT_CAL (R72). -/
def execPortCal (j : Job) (s : State) : Out := jobRow { op := 0x23, owner := false } j s portCal
/-- PORT_PFC_SET (R76). -/
def execPortPfcSet (j : Job) (s : State) : Out := jobRow { op := 0x24, owner := false } j s portPfcSet
/-- PORT_PREEMPT_SET (R61). -/
def execPortPreemptSet (j : Job) (s : State) : Out := jobRow { op := 0x25, owner := false } j s portPreemptSet
/-- PORT_GCL_LOAD (R67). -/
def execPortGclLoad (j : Job) (s : State) : Out := jobRow { op := 0x26, owner := false } j s portGclLoad
/-- PORT_GCL_QUERY (R76). -/
def execPortGclQuery (j : Job) (s : State) : Out := jobRow { op := 0x27, owner := false } j s portGclQuery
/-- PORT_EEE_SET (R50). -/
def execPortEeeSet (j : Job) (s : State) : Out := jobRow { op := 0x28, owner := false } j s portEeeSet
/-- PORT_EXPRESS_SET (R69). -/
def execPortExpressSet (j : Job) (s : State) : Out := jobRow { op := 0x29, owner := false } j s portExpressSet
/-- AN_RESOLVED (R48): whether the configured mode is common, and the FEC and pause abilities that the negotiating clause
resolves. -/
def execAnResolved (n : Fin 128) (common : Bool) (fec : Fin 16) (pause : Fin 4) (s : State) : Out :=
  .next (s.anResolved n.val common fec.val pause.val)
/-- AN_TIMER_EXPIRY (R48). -/
def execAnTimerExpiry (n : Fin 128) (s : State) : Out := .next (s.anResolved n.val false 0 0)
/-- TRAINING_RECEIVER_READY (R48). -/
def execTrainingReceiverReady (n : Fin 128) (s : State) : Out :=
  .next (if s.linkState n.val = 2 ∧ s.halting = false then s.setLink_ n.val 3 else s)
/-- LT_MAX_WAIT_EXPIRY (R48). -/
def execLtMaxWaitExpiry (n : Fin 128) (lane : BitVec 8) (s : State) : Out := .next (s.ltExpiry n.val lane.toNat)
/-- ALIGNMENT_ACHIEVED (R48). -/
def execAlignmentAchieved (n : Fin 128) (s : State) : Out := .next (s.linkUp n.val)
/-- LINK_LOSS (R48): the cause as LINK_DOWN reports it. -/
def execLinkLoss (n : Fin 128) (cause : Word32) (s : State) : Out := .next (s.linkLoss n.val cause.toNat)
/-- VAR_MEASURED (R72). -/
def execVarMeasured (n : Fin 128) (rx tx : Word32) (s : State) : Out := .next (s.varMeasured n.val rx.toInt tx.toInt)
/-- LPI_TIMER_EXPIRY (R50). -/
def execLpiTimerExpiry (n : Fin 128) (s : State) : Out := .next (s.lpiEnter n.val)
/-- TW_SYS_TX_EXPIRY (R51): the link is awake, and the link control frames that woke it are sent. -/
def execTwSysTxExpiry (n : Fin 128) (s : State) : Out :=
  .next ((s.setPort n.val { s.port n.val with waking := false }).flushLinks n.val)
/-- LOW_POWER_IDLE_RECEIVED (R50). -/
def execLowPowerIdleReceived (n : Fin 128) (enter : Bool) (s : State) : Out := .next (s.lpiReceived n.val enter)
/-- PFC_FRAME_SEND (R56). -/
def execPfcFrameSend (n : Fin 128) (s : State) : Out := .next (s.pfcSend n.val)
/-- PFC_REFRESH_EXPIRY (R57): priority j, 0 with PAUSE_MODE 1. -/
def execPfcRefreshExpiry (n : Fin 128) (j : Fin 8) (s : State) : Out := .next (s.pfcRefresh n.val j.val)
/-- RX_PFC_FRAME (R58). -/
def execRxPfcFrame (n : Fin 128) (vec : BitVec 8) (times : List (BitVec 16)) (s : State) : Out :=
  .next (s.rxPfc n.val (s.pauseMode n.val) (s.rd (wPort n.val) Reg.PORT_PFC_CFG_PFC_RX_EN) vec.toNat (times.map (·.toNat)))
/-- RX_PAUSE_FRAME (R57). -/
def execRxPauseFrame (n : Fin 128) (quanta : BitVec 16) (s : State) : Out :=
  .next (s.rxPause n.val (s.pauseMode n.val) quanta.toNat)
/-- RX_MAC_CONTROL_FRAME (R59). -/
def execRxMacControlFrame (n : Fin 128) (s : State) : Out := .next (s.rxControl n.val)
/-- RX_PAUSE_TIMER_EXPIRY (R58): of priority j, or of a PAUSE frame. -/
def execRxPauseTimerExpiry (n : Fin 128) (j : Option (Fin 8)) (s : State) : Out :=
  .next (s.pauseExpiry n.val (j.map (·.val)))
/-- VERIFY_TIME_EXPIRY (R63). -/
def execVerifyTimeExpiry (n : Fin 128) (s : State) : Out := .next (s.verifyExpiry n.val)
/-- VERIFY_SUCCEEDED (R63). -/
def execVerifySucceeded (n : Fin 128) (frag : Fin 4) (s : State) : Out := .next (s.verified n.val frag.val)
/-- GCL_CHANGE_TIME (R67). -/
def execGclChangeTime (n : Fin 128) (s : State) : Out := .next (s.gclChange n.val)
/-- GCL_ENTRY_BOUNDARY (R66). -/
def execGclEntryBoundary (n : Fin 128) (s : State) : Out := .next (s.gclApply n.val)
/-- TX_FRAME_END (R366): the frame that MAC m of port n sends ends; a restart that waited for it follows (R77). -/
def execTxFrameEnd (n : Fin 141) (m : Fin 2) (s : State) : Out := .next ((s.txEnd n.val m.val).boundary n.val)

end Sys2Proof.Machine
end

