-- ==== Sys2Proof/Machine/Truss.lean ====
section
/-!
DEFINITION. Truss: graph images and their checks, the parse of a packet, loading and swapping of the graph banks
(ch. 3, R80 to R104).
-/
namespace Sys2Proof.Machine

/-! ### Pipelines -/

/-- A pipeline beside its registers, and the same replaced. -/
def State.pipe (s : State) (p : Nat) : Pipe := tabGet (fun _ => {}) s.pipes p
def State.setPipe (s : State) (p : Nat) (x : Pipe) : State := { s with pipes := tabSet (fun _ => {}) s.pipes p x }

/-- The pipelines of a mask, lowest first (R102). -/
def maskList (m : Nat) : List Nat := (rangeFrom 0 8).filter (fun p => m.testBit p)

/-- The pipeline of a mask with exactly one bit set (R102, R471). -/
def oneOf (m : Nat) : Option Nat :=
  match maskList m with
  | [p] => some p
  | _ => none

/-- Position of a port's entry in a pipeline's port tables: k for front port 16p + k, 16 for the local ports (R81, R112). -/
def portPos (n : Nat) : Nat := if n < 128 then n % 16 else 16

/-! ### Graph images (R86, R87, R96) -/

/-- Byte, 16-bit and 32-bit fields of an image. -/
def imB (g : List Byte) (k : Nat) : Nat := (g.getD k 0).toNat
def imH (g : List Byte) (k : Nat) : Nat := leNat (padTo 2 (slice g k 2))
def imW (g : List Byte) (k : Nat) : Nat := leNat (padTo 4 (slice g k 4))

def grNodes (g : List Byte) : Nat := imH g 8
def grTrans (g : List Byte) : Nat := imH g 10
def grLen (g : List Byte) : Nat := 256 + 16 * grNodes g + 16 * grTrans g

/-- Byte offset of node i. -/
def grNode (i : Nat) : Nat := 256 + 16 * i

/-- TRANS_COUNT of node i (R86). -/
def grCount (g : List Byte) (i : Nat) : Nat := imB g (grNode i + 10) % 32

/-- Number of transition entries of the nodes before node i. -/
def grBefore (g : List Byte) (i : Nat) : Nat := (rangeFrom 0 i).foldl (fun a k => a + grCount g k) 0

/-- Byte offset of transition entry k of node i (R96). -/
def grEntry (g : List Byte) (i k : Nat) : Nat := 256 + 16 * grNodes g + 16 * (grBefore g i + k)

/-! ### The checks of an image (R97) -/

/-- A check: whether it fails, and the offset of its field. -/
abbrev Check := Bool × Nat

/-- Offset of the first check that fails. -/
def firstBad (l : List Check) : Option Nat := (l.find? (·.1)).map (·.2)

/-- Reserved bytes a to a + n - 1, each reported by its own offset (DESIGN CHOICE: log entry 193). -/
def zeroBytes (g : List Byte) (a n : Nat) : List Check := (rangeFrom a n).map (fun k => (decide (imB g k ≠ 0), k))

/-- Entry of a port: ROOT and WINDOW at byte a (R96). -/
def portChecks (g : List Byte) (a : Nat) : List Check :=
  let w := imB g (a + 1)
  [(decide (grNodes g ≤ imB g a), a), (decide (w = 0 ∨ 16 < w), a + 1)]

/-- Slow profile of reason r (R94, R96). -/
def slowChecks (g : List Byte) (r : Nat) : List Check :=
  let a := 144 + 4 * r
  if r = 0 then zeroBytes g a 4
  else [(decide (3 ≤ imB g a), a), (decide (2 ≤ imB g (a + 2)), a + 2), (decide (imB g (a + 3) ≠ 0), a + 3)]

/-- Pass 1: bytes 0 to 255 but for CRC; n is the number of bytes that the command names, which must be the image's own
length (DESIGN CHOICE: log entry 195). -/
def headChecks (g : List Byte) (n : Nat) : List Check :=
  [(decide (imW g 0 ≠ 0x54535254), 0), (decide (imH g 4 ≠ 1), 4),
   (decide (grNodes g = 0 ∨ 256 < grNodes g), 8), (decide (4096 < grTrans g), 10)] ++ zeroBytes g 17 3 ++
  [(decide (imW g 20 ≠ grLen g ∨ n ≠ grLen g), 20)] ++ zeroBytes g 28 36 ++
  (rangeFrom 0 16).flatMap (fun k => portChecks g (64 + 4 * k) ++ zeroBytes g (66 + 4 * k) 2) ++
  portChecks g 128 ++ zeroBytes g 130 14 ++ (rangeFrom 0 16).flatMap (slowChecks g) ++ zeroBytes g 208 48

/-- CRC of an image, computed with its own field at 0 (R96). -/
def imageCrc (g : List Byte) : Nat := crc32 (putBytes g 24 [0, 0, 0, 0])

/-- An outcome: its next node at byte a, its kind and reason at byte b (R86, R87, R93); the next node is looked at for KIND
0 and the reason for KIND 2 (DESIGN CHOICE: log entry 194). -/
def outcomeChecks (g : List Byte) (a b : Nat) : List Check :=
  let x := imB g b
  let r := x / 4 % 16
  [(decide (x % 4 = 0 ∧ grNodes g ≤ imB g a), a),
   (decide (x % 4 = 3 ∨ 64 ≤ x ∨ (x % 4 = 2 ∧ r ≠ 1 ∧ r < 8)), b)]

/-- Node i, with the running sum of TRANS_COUNT (R86, R97); a refused SEL_WIDTH is reported by byte 1 (DESIGN CHOICE: log
entry 192). -/
def nodeChecks (g : List Byte) (i : Nat) : List Check :=
  let a := grNode i
  [(decide (32 < imW g a / 2 ^ 11 % 64), a + 1), (decide (4 ≤ imB g (a + 6)), a + 6),
   (decide (imB g (a + 6) / 2 % 2 = 1 ∧ imB g (a + 7) = 0), a + 7)] ++ outcomeChecks g (a + 8) (a + 9) ++
  [(decide (16 < imB g (a + 10) ∨ grTrans g < grBefore g (i + 1)), a + 10), (decide (imB g (a + 11) ≠ 0), a + 11)]

/-- Pass 3: the nodes, the sum, and the transitions. -/
def bodyChecks (g : List Byte) : List Check :=
  (rangeFrom 0 (grNodes g)).flatMap (nodeChecks g) ++ [(decide (grBefore g (grNodes g) < grTrans g), 10)] ++
  (rangeFrom 0 (grTrans g)).flatMap (fun k =>
    let a := 256 + 16 * (grNodes g + k)
    outcomeChecks g (a + 8) (a + 9) ++ zeroBytes g (a + 10) 2)

/-- Offset of the first failing field of an image of n bytes; none when it is good (R97). -/
def graphFail (g : List Byte) (n : Nat) : Option Nat :=
  match firstBad (headChecks g n) with
  | some k => some k
  | none => if imW g 24 ≠ imageCrc g then some 24 else firstBad (bodyChecks g)

/-! ### Banks (R98, R99, R103) -/

def State.trussBank (s : State) (p : Nat) : Nat := s.rd (wPipe p) Reg.PIPE_TRUSS_STATUS_ACTIVE_BANK
def State.graph (s : State) (p b : Nat) : List Byte := if b = 0 then (s.pipe p).graph0 else (s.pipe p).graph1
def State.setGraph (s : State) (p b : Nat) (g : List Byte) : State :=
  s.setPipe p (if b = 0 then { s.pipe p with graph0 := g } else { s.pipe p with graph1 := g })
def State.graphValid (s : State) (p : Nat) : Bool := s.rdb (wPipe p) Reg.PIPE_TRUSS_STATUS_ACTIVE_VALID
def State.trussShadow (s : State) (p : Nat) : Bool := s.rdb (wPipe p) Reg.PIPE_TRUSS_STATUS_SHADOW_VALID

/-- The register reports of the active and the shadow bank brought up to date (R103); node words are read from the
image. -/
def State.trussReport (s : State) (p : Nat) : State :=
  let b := wPipe p
  let a := s.trussBank p
  let g := s.graph p a
  let h := s.graph p (1 - a)
  let s1 := (s.wr b Reg.PIPE_TRUSS_STATUS_ACTIVE_GRAPH_ID (imH g 6)).wr b Reg.PIPE_TRUSS_SHADOW_SHADOW_GRAPH_ID (imH h 6)
  let s2 := (s1.setReg (b + 8) (imB g 12 + 2 ^ 8 * imB g 13 + 2 ^ 16 * imB g 14 + 2 ^ 24 * imB g 15)).setReg (b + 12) (imB g 16)
  let s3 := forEach (rangeFrom 0 17) (fun k s => s.setReg (b + 0x100 + 4 * k) (imH g (64 + 4 * k) % 2 ^ 13)) s2
  forEach (rangeFrom 1 15) (fun r s => s.setReg (b + 0x200 + 4 * r) (imW g (144 + 4 * r) % 2 ^ 17)) s3

/-- A shadow bank is no longer a graph (R98, R101). -/
def State.clearShadow (s : State) (p : Nat) : State :=
  ((s.setGraph p (1 - s.trussBank p) []).wr (wPipe p) Reg.PIPE_TRUSS_STATUS_SHADOW_VALID 0).trussReport p

/-- Whether a packet is still in Truss with a bank (R99). -/
def State.trussHolds (s : State) (p b : Nat) : Bool :=
  (s.pipe p).packets.any (fun x => decide (x.stage = 0 ∧ x.bank = b))

/-- A load that waited for the draining begins to write the shadow bank (R98). -/
def State.beginLoad (s : State) (p : Nat) : State :=
  match (s.pipe p).load with
  | some _ => (s.clearShadow p).wr (wPipe p) Reg.PIPE_TRUSS_STATUS_LOAD_BUSY 1
  | none => s

/-- TRUSS_GRAPH_LOAD: the image is checked whole, and its writing starts (R97, R98, R102). -/
def trussLoad (j : Job) (s : State) : Answer :=
  let a := j.le 8 8
  let n := j.le 16 4
  let m := j.byte 0 4
  let g := s.hostRd (s.jobLink j) a (min n 69889)
  if m = 0 then okA s
  else if a % 8 ≠ 0 then (s, some (St.GRAPH_INVALID, leBytes 4 0xFFFFFFFF))
  else
    let r := s.countMoved 28 g.length
    match graphFail g n with
    | some k => (r, some (St.GRAPH_INVALID, leBytes 4 k))
    | none =>
      laterA (forEach (maskList m) (fun p s =>
        let s1 := s.setPipe p { s.pipe p with load := some { job := j, image := g, mask := m } }
        if s1.rdb (wPipe p) Reg.PIPE_TRUSS_STATUS_DRAINING then s1 else s1.beginLoad p) r)

/-- Writing of a shadow bank ends; with the last bank of a load its job completes (R98, R104). -/
def State.shadowWritten (s : State) (p : Nat) : State :=
  match (s.pipe p).load with
  | some l =>
    if s.rdb (wPipe p) Reg.PIPE_TRUSS_STATUS_LOAD_BUSY = false then s
    else
      let b := wPipe p
      let s1 := (s.setGraph p (1 - s.trussBank p) l.image).wr b Reg.PIPE_TRUSS_STATUS_LOAD_BUSY 0
      let s2 := (s1.wr b Reg.PIPE_TRUSS_STATUS_SHADOW_VALID 1).setPipe p { s1.pipe p with load := none }
      let s3 := (s2.trussReport p).event Ev.GRAPH_LOADED p l.mask (imH l.image 6) 0
      if (rangeFrom 0 8).any (fun q => decide (((s3.pipe q).load.map (·.job)) = some l.job)) then s3
      else s3.complete l.job St.SUCCESS []
  | none => s

/-- The banks of a pipeline change places (R99); an old bank that held no graph is not valid (DESIGN CHOICE: log entry
196). -/
def State.swapBank (s : State) (p : Nat) : State :=
  let b := wPipe p
  let a := s.trussBank p
  let old := imH (s.graph p a) 6
  let was := s.rd b Reg.PIPE_TRUSS_STATUS_ACTIVE_VALID
  let s1 := (s.wr b Reg.PIPE_TRUSS_STATUS_ACTIVE_BANK (1 - a)).wr b Reg.PIPE_TRUSS_STATUS_ACTIVE_VALID 1
  let s2 := s1.wr b Reg.PIPE_TRUSS_STATUS_SHADOW_VALID was
  let s3 := s2.wr b Reg.PIPE_TRUSS_STATUS_DRAINING (b2n (s2.trussHolds p a))
  (s3.trussReport p).event Ev.GRAPH_SWAPPED p p (imH (s3.graph p (1 - a)) 6) old

/-- TRUSS_GRAPH_SWAP (R99, R102). -/
def trussSwap (j : Job) (s : State) : Answer :=
  let l := maskList (j.byte 0 4)
  if l.any (fun p => !s.trussShadow p) then failA s St.NO_SHADOW
  else okRes (forEach l (fun p s => s.swapBank p) s) [BitVec.ofNat 8 (j.byte 0 4)]

/-- The last packet leaves the old bank, and a load that waited begins (R98, R99). -/
def State.trussDrained (s : State) (p : Nat) : State :=
  if s.rdb (wPipe p) Reg.PIPE_TRUSS_STATUS_DRAINING = false ∨ s.trussHolds p (1 - s.trussBank p) then s
  else (s.wr (wPipe p) Reg.PIPE_TRUSS_STATUS_DRAINING 0).beginLoad p

/-- TRUSS_GRAPH_READ (R102). -/
def trussRead (j : Job) (s : State) : Answer :=
  match oneOf (j.byte 0 4) with
  | none => failA s St.MASK_INVALID
  | some p =>
    let shadow := j.bit 5 0
    let a := s.trussBank p
    let g := s.graph p (if shadow then 1 - a else a)
    let valid := if shadow then s.trussShadow p else s.graphValid p
    if !valid || decide (j.le 16 4 < g.length) then failA s St.GRAPH_INVALID
    else okRes (s.jobWrite j (j.le 8 8) g) (leBytes 4 g.length)

/-- An ECC error of a graph bank (R101): 1 corrected, 2 in the shadow, 3 in the active bank. -/
def State.bankError (s : State) (p k : Nat) : State :=
  if k = 1 then s.faultPipe p 0 0
  else if k = 2 then (s.wr (wPipe p) Reg.PIPE_TRUSS_STATUS_SHADOW_VALID 0).faultPipe p 1 0
  else if k = 3 then s.faultPipe p 2 0
  else s

/-! ### The parse (R81, R85, R88, R89) -/

/-- WINDOW_BYTES of a port in a graph (R81). -/
def windowBytes (g : List Byte) (n : Nat) : Nat := 32 * (imB g (65 + 4 * portPos n) % 32)

/-- L of a frame: its length without FCS (R81). -/
def Frame.parseLen (f : Frame) : Nat := if f.ended then f.bytes.length else f.total

/-- A field of width w at bit offset o of the header that starts at byte S (R85). -/
def fieldAt (d : List Byte) (S o w : Nat) : Nat :=
  if w = 0 then 0
  else
    let n := (o % 8 + w + 7) / 8
    (beNat (padTo n (slice d (S + o / 8) n)) >>> (8 * n - o % 8 - w)) % 2 ^ w

/-- Why a field cannot be read, 0 when it can: 2 TRUNCATED, 3 WINDOW (R89). -/
def fieldSlow (L W S o w : Nat) : Nat :=
  if w = 0 then 0
  else if L ≤ S + (o + w - 1) / 8 then 2 else if W ≤ S + (o + w - 1) / 8 then 3 else 0

/-- The walk of a packet through its graph. -/
structure GraphWalk where
  node : Nat := 0
  pos : Nat := 0
  visits : Nat := 0
  flags : Nat := 0
  /-- Records: identifier, start and advance, oldest first. -/
  recs : List (Nat × Nat × Nat) := []
  payload : Nat := 0
  reason : Nat := 0
  done : Bool := false
  deriving DecidableEq, Repr

/-- The parse ends on the slow path (R89). -/
def GraphWalk.slow (w : GraphWalk) (r : Nat) : GraphWalk := { w with reason := r, payload := w.pos, done := true }

/-- Kind, next node, reason and flags of the outcome of node i for a selector (R88). -/
def outcome (g : List Byte) (i sel : Nat) : Nat × Nat × Nat × Nat :=
  let pick (a : Nat) : Nat × Nat × Nat × Nat :=
    (imB g (a + 9) % 4, imB g (a + 8), imB g (a + 9) / 4 % 16, imW g (a + 12))
  let hit := (rangeFrom 0 (grCount g i)).find? (fun k =>
    let a := grEntry g i k
    decide (sel &&& imW g (a + 4) = imW g a &&& imW g (a + 4)))
  match hit with
  | some k => pick (grEntry g i k)
  | none =>
    let x := pick (grNode i)
    (x.1, x.2.1, x.2.2.1, 0)

/-- One visit (R89). -/
def visit (g d : List Byte) (L W : Nat) (w0 : GraphWalk) : GraphWalk :=
  let w := { w0 with visits := w0.visits + 1 }
  let a := grNode w.node
  let word := imW g a
  let so := word % 2048
  let sw := word / 2 ^ 11 % 64
  let ao := word / 2 ^ 17 % 2048
  let aw := word / 2 ^ 28
  let mode := imB g (a + 6) % 2
  let s1 := fieldSlow L W w.pos so sw
  let s2 := if mode = 1 then fieldSlow L W w.pos ao aw else 0
  if 48 < w.visits then w.slow 4
  else if s1 ≠ 0 then w.slow s1
  else if s2 ≠ 0 then w.slow s2
  else
    let sel := fieldAt d w.pos so sw
    let adv := imB g (a + 4) + (if mode = 1 then fieldAt d w.pos ao aw * imB g (a + 5) else 0)
    let w1 := { w with flags := w.flags ||| imW g (a + 12) }
    let record := decide (imB g (a + 6) / 2 % 2 = 1)
    if record && decide (w1.recs.length = 24) then w1.slow 4
    else
      let w2 := if record then { w1 with recs := w1.recs ++ [(imB g (a + 7), w1.pos, adv)] } else w1
      let o := outcome g w.node sel
      let w3 := { w2 with flags := w2.flags ||| o.2.2.2 }
      if o.1 = 2 then w3.slow o.2.2.1
      else if L < w3.pos + adv then w3.slow 2
      else if o.1 = 1 then { w3 with pos := w3.pos + adv, payload := w3.pos + adv, done := true }
      else if W < w3.pos + adv then w3.slow 3
      else { w3 with pos := w3.pos + adv, node := o.2.1 }

/-- The walk, at most n visits long; the 49th visit ends any walk (R89). -/
def walkFrom (g d : List Byte) (L W : Nat) : Nat → GraphWalk → GraphWalk
  | 0, w => w
  | n + 1, w => if w.done then w else walkFrom g d L W n (visit g d L W w)

/-- A packet of port n parsed: the window is the first W bytes (R81, R89). -/
def parseGraph (g d : List Byte) (L n : Nat) : GraphWalk :=
  walkFrom g d L (min L (windowBytes g n)) 49 { node := imB g (64 + 4 * portPos n) }

/-- The parse result, 112 bytes (R91). -/
def parseResult (w : GraphWalk) (epoch bank n L : Nat) : List Byte :=
  padTo 96 (w.recs.flatMap (fun r => leBytes 4 (r.1 + 2 ^ 8 * (r.2.1 % 1024) + 2 ^ 18 * min r.2.2 16383))) ++
    leBytes 4 w.flags ++ leBytes 1 (w.recs.length + 32 * epoch + 64 * bank) ++ leBytes 1 w.reason ++
    leBytes 2 (w.payload % 2 ^ 14) ++ leBytes 1 n ++ leBytes 1 w.visits ++ leBytes 2 (L % 2 ^ 14) ++ leBytes 1 w.node ++
    [0, 0, 0]

/-! ### Reading a parse result (R92, R113, R114) -/

def prFlags (r : List Byte) : Nat := imW r 96
def prReason (r : List Byte) : Nat := imB r 101 % 16
def prPort (r : List Byte) : Nat := imB r 104
def prLen (r : List Byte) : Nat := imH r 106 % 2 ^ 14

/-- Records of a parse result: identifier and start, in record order. -/
def prRecords (r : List Byte) : List (Nat × Nat) :=
  (rangeFrom 0 (imB r 100 % 32)).map (fun k => (imB r (4 * k), imW r (4 * k) / 2 ^ 8 % 1024))

/-- Start of the record that is instance i of a header identifier (R114). -/
def prFind (r : List Byte) (id i : Nat) : Option Nat :=
  (((prRecords r).filter (fun e => decide (e.1 = id)))[i]?).map (·.2)

/-- Start of the first record of a designation; a designation of 0 names no header (R92). -/
def prDesig (r : List Byte) (id : Nat) : Option Nat := if id = 0 then none else prFind r id 0

/-! ### Rows -/

/-- A command of Truss, which waits for the earlier ones of its queue: they take effect in the order in which they complete
(R98). -/
def trussRow (g : Gate) (j : Job) (s : State) (body : Job → State → Answer) : Out :=
  if s.inTurn j 0x30 0x32 then jobRow g j s body else .next s

/-- Row TRUSS_GRAPH_LOAD. -/
def execTrussGraphLoad (j : Job) (s : State) : Out := trussRow { op := 0x30 } j s trussLoad
/-- Row TRUSS_SHADOW_WRITTEN. -/
def execTrussShadowWritten (p : Fin 8) (s : State) : Out := .next (s.shadowWritten p.val)
/-- Row TRUSS_GRAPH_SWAP. -/
def execTrussGraphSwap (j : Job) (s : State) : Out := trussRow { op := 0x31, safe := true } j s trussSwap
/-- Row TRUSS_DRAIN_END. -/
def execTrussDrainEnd (p : Fin 8) (s : State) : Out := .next (s.trussDrained p.val)
/-- Row TRUSS_GRAPH_READ. -/
def execTrussGraphRead (j : Job) (s : State) : Out := trussRow { op := 0x32 } j s trussRead

end Sys2Proof.Machine
end

