-- ==== Sys2Proof/Machine/Mortise.lean ====
section
/-!
DEFINITION. Mortise: ranges, matching, verification and repair, packet keys and results, host searches, the scrubber
and the Mortise commands (ch. 4, R105 to R136).
-/
namespace Sys2Proof.Machine

/-! ### Liveness (R108, R110, R144) -/

/-- Byte and bit at which a table's records hold their liveness bits: 0 Mortise, 1 learning, 2 EM, 3 LPM, 4 next-hop
(R108, R146, R159, R170, R172). -/
def livePlace (t : Nat) : Nat × Nat :=
  match t with
  | 0 => (162, 0) | 1 => (11, 1) | 2 => (21, 0) | 3 => (17, 1) | _ => (0, 3)

/-- Liveness of a record: bit 0 in the even parity, bit 1 in the odd parity. -/
def recLive (t : Nat) (r : List Byte) : Nat := imB r (livePlace t).1 / 2 ^ (livePlace t).2 % 4

/-- A record with its liveness replaced. -/
def setLive (t : Nat) (r : List Byte) (v : Nat) : List Byte :=
  let k := livePlace t
  putBytes r k.1 [BitVec.ofNat 8 (setBits (imB r k.1) (k.2 + 1) k.2 v)]

/-- Whether a record is live in parity e. -/
def liveIn (t e : Nat) (r : List Byte) : Bool := (recLive t r).testBit e

/-- Current epoch parity of a pipeline's table group (R193). -/
def State.parity (s : State) (p : Nat) : Nat := s.rd (wPipe p) Reg.PIPE_UPD_STATUS_PARITY

/-! ### Ranges (R105, R106) -/

/-- A range of a pipeline. -/
structure MRange where
  wide : Bool := false
  base : Nat := 0
  blocks : Nat := 0
  owner : Nat := 0
  deriving DecidableEq, Repr

def State.mrange (s : State) (p r : Nat) : MRange :=
  let b := wPipe p + 8 * r
  { wide := s.rdb b Reg.PIPE_MORTISE_RANGE_A_WIDE, base := s.rd b Reg.PIPE_MORTISE_RANGE_A_BASE_BLOCK,
    blocks := s.rd b Reg.PIPE_MORTISE_RANGE_A_BLOCKS, owner := s.rd b Reg.PIPE_MORTISE_RANGE_A_OWNER }

/-- Whether a range holds entry x. -/
def MRange.holds (m : MRange) (x : Nat) : Bool := decide (256 * m.base ≤ x ∧ x < 256 * (m.base + m.blocks))

/-- The range that holds entry x. -/
def State.rangeOf (s : State) (p x : Nat) : Option MRange :=
  ((rangeFrom 0 16).map (s.mrange p)).find? (fun m => m.holds x)

/-! ### Matching (R109 to R111) -/

/-- Whether a record matches 80 key bytes (R110). -/
def tMatch (r key : List Byte) : Bool :=
  (rangeFrom 0 80).all (fun j => decide ((key.getD j 0 ^^^ r.getD j 0) &&& r.getD (80 + j) 0 = 0))

/-- Whether the entry at x of a table of records matches a key in parity e, with its tail in a wide range. -/
def entryMatches (t : Tab (List Byte)) (wide : Bool) (key : List Byte) (e x : Nat) : Bool :=
  let r := tabGet (fun _ => []) t x
  liveIn 0 e r && tMatch r key && (!wide || tMatch (tabGet (fun _ => []) t (x + 1)) (key.drop 80))

/-- The winner of a search: largest priority, then lowest index (R111). -/
def State.mortiseFind (s : State) (p : Nat) (m : MRange) (key : List Byte) (e : Nat) : Option Nat :=
  let t := (s.pipe p).array
  t.foldl (fun best x =>
    if m.holds x.1 && !(m.wide && decide (x.1 % 2 = 1)) && entryMatches t m.wide key e x.1 then
      match best with
      | some y => if imH (tabGet (fun _ => []) t y) 160 < imH x.2 160 then some x.1 else best
      | none => some x.1
    else best) none

/-! ### Repair (R125, R126) -/

/-- An entry is repaired from its shadow: the rewrite waits for a slot, and the repair is reported. -/
def State.repairEntry (s : State) (p x cause : Nat) : State :=
  let s1 := s.setPipe p { s.pipe p with repairs := (s.pipe p).repairs ++ [(x, cause)] }
  ((s1.event Ev.ENTRY_REPAIRED p p x cause).pipeCount p 19 1).faultPipe p 3 x

/-- The array entry rewritten from its shadow, unless that has gone bad meanwhile. -/
def State.rewriteEntry (s : State) (p x : Nat) : State :=
  let y := s.pipe p
  if y.badShadow.contains x then s
  else s.setPipe p { y with array := tabSet (fun _ => []) y.array x (tabGet (fun _ => []) y.shadow x) }

/-- The liveness bits of the stored record at x of a store of records replaced; an entry never written stays so. -/
def liveAt (t : Tab (List Byte)) (x v : Nat) : Tab (List Byte) :=
  let r := tabGet (fun _ => []) t x
  if r = [] then t else tabSet (fun _ => []) t x (setLive 0 r v)

/-- The other half of the wide entry that x belongs to (R106). -/
def State.mateOf (s : State) (p x : Nat) : Option Nat :=
  if (s.rangeOf p x).any (fun m => m.wide) then some (if x % 2 = 0 then x + 1 else x - 1) else none

/-- Both liveness bits of an array entry cleared, and its shadow marked bad (R125). The two halves of a wide entry are
one entry, so the other half dies with it, in array and shadow. DEDUCED (log entry 202). -/
def State.shadowLost (s : State) (p x : Nat) : State :=
  let y := s.pipe p
  let z : Pipe := { y with array := liveAt y.array x 0, badShadow := x :: y.badShadow.erase x }
  let s1 := s.setPipe p (match s.mateOf p x with
    | some m => { z with array := liveAt z.array m 0, shadow := liveAt z.shadow m 0 }
    | none => z)
  (s1.event Ev.SHADOW_UNCORRECTABLE p p x 0).faultPipe p 4 x

/-- A search with verification of its winner, whose shadow reads with no ECC error (ecc 0), a single-bit or a double-bit
error: 0 a miss, 1 a hit, 2 a soft error (R116, R125, R126). -/
def State.mortiseRun (s : State) (p r : Nat) (key : List Byte) (e ecc : Nat) : Nat × Nat × State :=
  let m := s.mrange p r
  match s.mortiseFind p m key e with
  | none => (0, 0, s.pipeCount p 17 1)
  | some x =>
    if ecc = 2 then (2, x, (s.shadowLost p x).pipeCount p 18 1)
    else if entryMatches (s.pipe p).shadow m.wide key e x then
      (1, x, (if ecc = 1 then s.faultPipe p 3 x else s).pipeCount p 16 1)
    else
      let halves := if m.wide then [x, x + 1] else [x]
      let bad := halves.filter (fun y => decide (tabGet (fun _ => []) (s.pipe p).array y ≠ tabGet (fun _ => []) (s.pipe p).shadow y))
      (2, x, (forEach bad (fun y s => s.repairEntry p y 1) s).pipeCount p 18 1)

/-! ### Packet searches (R112 to R116) -/

/-- The profile that a port's selection word gives, when the port makes lookups (R112, R137). -/
def selectProfile (word flags : Nat) : Option Nat :=
  if word.testBit 31 = false then none
  else if word.testBit 30 && flags.testBit (bits word 20 16) then some (bits word 11 8)
  else some (bits word 3 0)

/-- Four bytes that an extractor word takes from a packet (R114). -/
def extract (parse d : List Byte) (W word : Nat) : List Byte :=
  let off := bits word 24 16
  match word % 4 with
  | 1 =>
    match prFind parse (bits word 15 8) (bits word 3 2) with
    | some S => (rangeFrom 0 4).map (fun k => if S + off + k < W then d.getD (S + off + k) 0 else 0)
    | none => [0, 0, 0, 0]
  | 2 => (rangeFrom 0 4).map (fun k => if off + k < 112 then parse.getD (off + k) 0 else 0)
  | _ => [0, 0, 0, 0]

/-- Base of word w of Mortise profile x. -/
def mprofWord (p x w : Nat) : Nat := wPipe p + 0x11000 + 0x100 * x + 4 * w

/-- The key of a packet (R113). -/
def State.mortiseKey (s : State) (p x : Nat) (parse d : List Byte) (W : Nat) (wide : Bool) : List Byte :=
  slice parse 96 4 ++ [BitVec.ofNat 8 (prPort parse), BitVec.ofNat 8 (prReason parse), BitVec.ofNat 8 x, 0] ++
    (rangeFrom 0 (if wide then 38 else 18)).flatMap (fun i => extract parse d W (s.reg (mprofWord p x (i + 1))))

/-- A Mortise result, 16 bytes (R116). -/
def mortiseResult (index : Nat) (soft hit : Bool) (prio op : Nat) (data : List Byte) (r : Nat) : List Byte :=
  leBytes 2 (index + 2 ^ 14 * b2n soft + 2 ^ 15 * b2n hit) ++ leBytes 2 prio ++ leBytes 1 op ++ padTo 7 data ++
    [BitVec.ofNat 8 r, 0, 0, 0]

/-- A packet's search of Mortise, in its slot; ecc is the ECC outcome of the winner's shadow (R112, R116, R117, R126). -/
def State.mortiseLookup (s : State) (p n : Nat) (parse d : List Byte) (W e ecc : Nat) : List Byte × State :=
  match selectProfile (s.reg (wPipe p + 0x10200 + 4 * portPos n)) (prFlags parse) with
  | none => (mortiseResult 0 false false 0 0 [] 0, s)
  | some x =>
    if (s.reg (mprofWord p x 0)).testBit 31 = false then (mortiseResult 0 false false 0 0 [] 0, s)
    else
      let r := s.reg (mprofWord p x 0) % 16
      let b := wPipe p + 8 * r
      let g (y : Nat) : List Byte := tabGet (fun _ => []) (s.pipe p).array y
      match s.mortiseRun p r (s.mortiseKey p x parse d W (s.mrange p r).wide) e ecc with
      | (1, y, s1) => (mortiseResult y false true (imH (g y) 160) (imB (g y) 164) (slice (g y) 165 7) r, s1)
      | (2, y, s1) =>
        (mortiseResult y true false (imH (g y) 160) (s.rd b Reg.PIPE_MORTISE_RANGE_B_ERR_OPCODE) [] r, s1)
      | (_, _, s1) => (mortiseResult 0 false false 0 (s.rd b Reg.PIPE_MORTISE_RANGE_B_MISS_OPCODE) [] r, s1)

/-! ### Host searches (R128 to R132) -/

/-- The key of a search (R128). -/
def searchKey (j : Job) (wide : Bool) : List Byte :=
  (j.bytes 0 8 24 ++ (rangeFrom 1 (j.len - 1)).flatMap (fun m => j.bytes m 4 28)).take (if wide then 160 else 80)

/-- Why a search is refused (R129). DESIGN CHOICE (log entry 197): KEY_WIDTH is tested before NOT_OWNER. -/
def State.searchRefused (s : State) (j : Job) : Option Nat :=
  let m := s.mrange (j.bits 4 2 0) (j.bits 5 3 0)
  let wide := j.bit 6 0
  if j.len ≠ (if wide then 6 else 3) ∨ wide ≠ m.wide then some St.KEY_WIDTH
  else if m.owner ≠ s.jobFn j then some St.NOT_OWNER
  else none

/-- MORTISE_SEARCH: the search waits for its slot (R128, R129). -/
def mortiseSearch (j : Job) (s : State) : Answer :=
  let p := j.bits 4 2 0
  match s.searchRefused j with
  | some e => failA s e
  | none => laterA (s.setPipe p { s.pipe p with searches := (s.pipe p).searches ++ [{ job := j }] })

/-- The search of the queue whose turn it is: the next queue above the one served last (R132). -/
def Pipe.nextSearch (x : Pipe) : Option Search :=
  match leastBy (fun (y : Search) => (y.job.q + 4096 - x.lastSearch - 1) % 4096) x.searches with
  | some y => x.searches.find? (fun z => decide (z.job.q = y.job.q))
  | none => none

/-- Work in flight of a parity raised or lowered (R200). -/
def State.inFlightAdd (s : State) (p e : Nat) (d : Int) : State :=
  let f := if e = 0 then Reg.PIPE_UPD_INFLIGHT_INFLIGHT_EVEN else Reg.PIPE_UPD_INFLIGHT_INFLIGHT_ODD
  s.wr (wPipe p) f ((s.rd (wPipe p) f : Int) + d).toNat

/-- A host search takes its slot; ecc is the ECC outcome of the winner's shadow (R117, R126, R130, R131). -/
def State.serveSearch (s : State) (p rank ecc : Nat) : State :=
  match (s.pipe p).nextSearch with
  | none => s
  | some y =>
    let e := s.parity p
    let r := y.job.bits 5 3 0
    let s1 := (s.setPipe p { s.pipe p with
      searches := (s.pipe p).searches.erase y, lastSearch := y.job.q }).inFlightAdd p e 1
    let s2 := s1.pipeCount p (if rank = 2 then 20 else 21) 1
    match s2.mortiseRun p r (searchKey y.job (s.mrange p r).wide) e ecc with
    | (k, x, s3) =>
      let g := tabGet (fun _ => []) (s.pipe p).array x
      let res := if k = 1 then leBytes 2 (x + 2 ^ 15) ++ slice g 160 2 ++ slice g 164 3 else []
      s3.setPipe p { s3.pipe p with results := (s3.pipe p).results ++
        [{ y with served := true, status := if k = 2 then St.SOFT_ERROR else St.SUCCESS, result := res, epoch := e }] }

/-- The first result of a pipeline that may be delivered reaches QMGR (R131, R132). -/
def State.searchResult (s : State) (p : Nat) : State :=
  match (s.pipe p).results.find? (fun y => !(s.inFlight y.job) || s.oldestJob y.job) with
  | none => s
  | some y =>
    let s1 := s.setPipe p { s.pipe p with results := (s.pipe p).results.erase y }
    (if y.served then s1.inFlightAdd p y.epoch (-1) else s1).complete y.job y.status y.result

/-- Searches that wait when the device enters SAFE have SAFE_STATE as their result, which each delivers in the order of
its queue (R129, R132, R611). -/
def State.searchesSafe (s : State) (p : Nat) : State :=
  let y := s.pipe p
  s.setPipe p { y with searches := [], results := y.results ++ y.searches.map (fun z => { z with status := St.SAFE_STATE }) }

/-- A floor credit is earned (R132). -/
def State.floorCredit (s : State) (p : Nat) : State :=
  s.wr (wPipe p) Reg.PIPE_MORTISE_FLOOR_CREDITS (min 16 (s.rd (wPipe p) Reg.PIPE_MORTISE_FLOOR_CREDITS + 1))

/-! ### The scrubber (R123 to R125) -/

/-- Whether x is entry k, or the tail of the wide pair whose head it is (R106). -/
def Pipe.half (y : Pipe) (k x : Nat) : Bool :=
  decide (k = x) || (decide (k + 1 = x) && (imB (tabGet (fun _ => []) y.array k) 162).testBit 2)

/-- Whether a write to entry x waits or is under way (R124). -/
def Pipe.writing (y : Pipe) (x : Nat) : Bool :=
  let hits (w : Write) : Bool := decide (w.table = 0) && (match w.op with
    | .put k _ => decide (k = x)
    | .live k _ _ => y.half (leNat k) x
    | .pair k _ => decide (k = x ∨ k + 1 = x)
    | .copy a b _ => decide (b = x) || (decide (b + 1 = x) && y.half a (a + 1))
    | .norm e => y.half (leNat e.ident) x
    | .undo e => y.half (leNat e.ident) x
    | _ => false)
  y.unit.any hits || (match y.shown with | some w => hits w.write | none => false) || y.repairs.any (fun r => decide (r.1 = x))

/-- A pass begins (R123). -/
def State.startPass (s : State) (p : Nat) : State :=
  let s1 := (s.wr (wPipe p) Reg.PIPE_MORTISE_STATUS_SCRUB_ACTIVE 1).wr (wPipe p) Reg.PIPE_MORTISE_SCRUB_POS_NEXT_INDEX 0
  s1.setPipe p { s1.pipe p with skipped := [], scrubTail := false, scrubLate := false }

/-- Whether the scrubber runs (R123, R124). -/
def State.scrubRuns (s : State) (p : Nat) : Bool :=
  s.rdb (wPipe p) Reg.PIPE_MORTISE_STATUS_SCRUB_EN && !s.rdb (wPipe p) Reg.PIPE_MORTISE_STATUS_SCRUB_DEFERRED && !s.halting

/-- A scrub period ends (R123). -/
def State.scrubPeriod (s : State) (p : Nat) : State :=
  if s.scrubRuns p = false then s
  else if s.rdb (wPipe p) Reg.PIPE_MORTISE_STATUS_SCRUB_ACTIVE then
    (s.setPipe p { s.pipe p with scrubLate := true }).event Ev.SCRUB_LATE p p
      (s.rd (wPipe p) Reg.PIPE_MORTISE_SCRUB_POS_NEXT_INDEX) 0
  else s.startPass p

/-- A pass ends, and the next starts at once after an overrun or with a period of 0 (R123). -/
def State.endPass (s : State) (p : Nat) : State :=
  let again := (s.pipe p).scrubLate || decide (s.rd (wPipe p) Reg.PIPE_MORTISE_STATUS_PERIOD_MS = 0)
  let s1 := (s.inc (wPipe p) Reg.PIPE_MORTISE_SCRUB_POS_PASSES 1).wr (wPipe p) Reg.PIPE_MORTISE_STATUS_SCRUB_ACTIVE 0
  let s2 := s1.wr (wPipe p) Reg.PIPE_MORTISE_SCRUB_POS_NEXT_INDEX 0
  if again then s2.startPass p else s2

/-- The outcome of a check of entry x: ecc is 0 no error, 1 single-bit, 2 double-bit in the shadow (R125). DESIGN CHOICE
(log entry 199): an entry whose shadow is marked bad already is passed over. -/
def State.scrubEntry (s : State) (p x ecc : Nat) : State :=
  let y := s.pipe p
  if y.badShadow.contains x then s
  else if ecc = 2 then s.shadowLost p x
  else if tabGet (fun _ => []) y.array x ≠ tabGet (fun _ => []) y.shadow x then s.repairEntry p x 0
  else if ecc = 1 then s.faultPipe p 3 x
  else s

/-- The entries that a pass skipped, next of all; none ends the pass (R124, R135). -/
def State.setSkipped (s : State) (p : Nat) (l : List Nat) : State :=
  match l with
  | x :: _ => (s.setPipe p { s.pipe p with skipped := l, scrubTail := true }).wr (wPipe p)
      Reg.PIPE_MORTISE_SCRUB_POS_NEXT_INDEX x
  | [] => (s.setPipe p { s.pipe p with skipped := [] }).endPass p

/-- One check of the running pass (R123, R124). -/
def State.scrubCheck (s : State) (p ecc : Nat) : State :=
  if s.scrubRuns p = false ∨ s.rdb (wPipe p) Reg.PIPE_MORTISE_STATUS_SCRUB_ACTIVE = false then s
  else
    let y := s.pipe p
    if y.scrubTail then
      match y.skipped with
      | x :: t => if y.writing x then s.setSkipped p (t ++ [x]) else (s.scrubEntry p x ecc).setSkipped p t
      | [] => s.endPass p
    else
      let x := s.rd (wPipe p) Reg.PIPE_MORTISE_SCRUB_POS_NEXT_INDEX
      let s1 := if y.writing x then s.setPipe p { y with skipped := y.skipped ++ [x] } else s.scrubEntry p x ecc
      if x < 16383 then s1.wr (wPipe p) Reg.PIPE_MORTISE_SCRUB_POS_NEXT_INDEX (x + 1)
      else s1.setSkipped p (s1.pipe p).skipped

/-! ### Commands (R133, R134) -/

/-- Whether an extractor word breaks R134; `beyond` for one past the profile's width. -/
def badExtractor (w : Nat) (beyond : Bool) : Bool :=
  decide (bits w 31 25 ≠ 0 ∨ bits w 7 4 ≠ 0 ∨ w % 4 = 3 ∨ (w % 4 = 2 ∧ 111 < bits w 24 16)) || (beyond && decide (w % 4 ≠ 0))

/-- MORTISE_PROFILE_SET. -/
def mortiseProfileSet (j : Job) (s : State) : Answer :=
  let l := maskList (j.byte 0 4)
  let x := j.byte 0 5
  let g := s.hostRd (s.jobLink j) (j.le 8 8) 160
  let w (k : Nat) : Nat := imW g (4 * k)
  let bad (p : Nat) : Bool :=
    (rangeFrom 1 38).any (fun k => badExtractor (w k) (!(s.mrange p (w 0 % 16)).wide && decide (18 < k)))
  if l = [] then okA s
  else if j.only [(4, 2), (8, 8)] = false ∨ 16 ≤ x ∨ j.le 8 8 % 8 ≠ 0 then failA s St.PROFILE_INVALID
  else
    let s0 := s.countMoved 28 160
    if bits (w 0) 30 4 ≠ 0 ∨ w 39 ≠ 0 ∨ l.any bad then failA s0 St.PROFILE_INVALID
    else okA (forEach l (fun p s => forEach (rangeFrom 0 39) (fun k s => s.setReg (mprofWord p x k) (w k)) s) s0)

/-- MORTISE_PORT_SET. -/
def mortisePortSet (j : Job) (s : State) : Answer :=
  let k := j.byte 0 5
  let v := j.le 8 4
  if maskList (j.byte 0 4) = [] then okA s
  else if 16 < k ∨ bits v 29 21 ≠ 0 ∨ bits v 15 12 ≠ 0 ∨ bits v 7 4 ≠ 0 then failA s St.PROFILE_INVALID
  else okA (forEach (maskList (j.byte 0 4)) (fun p s => s.setReg (wPipe p + 0x10200 + 4 * k) v) s)

/-- The shadow records of entries x to x + n - 1; one whose shadow is bad reads as a free value. -/
def State.shadowBytes (s : State) (p x : Nat) : Nat → List Byte × State
  | 0 => ([], s)
  | n + 1 =>
    let bad := (s.pipe p).badShadow.contains x
    let v := s.draw 1408
    let r := if bad then leBytes 176 v.1.toNat else padTo 176 (tabGet (fun _ => []) (s.pipe p).shadow x)
    let rest := State.shadowBytes (if bad then v.2 else s) p (x + 1) n
    (r ++ rest.1, rest.2)

/-- MORTISE_READ. -/
def mortiseRead (j : Job) (s : State) : Answer :=
  let x := j.le 6 2
  let n := j.le 16 2
  match oneOf (j.byte 0 4) with
  | none => failA s St.MASK_INVALID
  | some p =>
    let own (y : Nat) : Bool := match s.rangeOf p y with
      | some m => decide (m.owner = s.jobFn j)
      | none => false
    if (rangeFrom x n).all own = false then failA s St.INDEX_RANGE
    else
      let b := s.shadowBytes p x n
      okRes (b.2.jobWrite j (j.le 8 8) b.1) (leBytes 4 (176 * n))

/-- MORTISE_SCRUB_SET. DESIGN CHOICE (log entry 198): SCRUB_EN 0 ends a running pass, which is not counted. -/
def mortiseScrubSet (j : Job) (s : State) : Answer :=
  okA (forEach (maskList (j.byte 0 4)) (fun p s =>
    let s1 := (s.wr (wPipe p) Reg.PIPE_MORTISE_STATUS_SCRUB_EN (j.bits 5 0 0)).wr (wPipe p)
      Reg.PIPE_MORTISE_STATUS_PERIOD_MS (j.le 6 2)
    if j.bit 5 0 then s1 else s1.wr (wPipe p) Reg.PIPE_MORTISE_STATUS_SCRUB_ACTIVE 0) s)

/-! ### Rows -/

/-- Row MORTISE_SEARCH: a search that is refused, in SAFE too, waits for the earlier searches of its queue (R132). -/
def execMortiseSearch (j : Job) (s : State) : Out :=
  if ((s.searchRefused j).isSome || s.halting) && !s.oldestJob j then .next s
  else jobRow { op := 0x4B, owner := false, safe := true } j s mortiseSearch
/-- Row MORTISE_SEARCH_RESULT. -/
def execMortiseSearchResult (p : Fin 8) (s : State) : Out := .next (s.searchResult p.val)
/-- Row FLOOR_CREDIT_EARN. -/
def execFloorCreditEarn (p : Fin 8) (s : State) : Out := .next (s.floorCredit p.val)
/-- Row MORTISE_PROFILE_SET. -/
def execMortiseProfileSet (j : Job) (s : State) : Out := jobRow { op := 0x4C } j s mortiseProfileSet
/-- Row MORTISE_PORT_SET. -/
def execMortisePortSet (j : Job) (s : State) : Out := jobRow { op := 0x4D } j s mortisePortSet
/-- Row MORTISE_READ. -/
def execMortiseRead (j : Job) (s : State) : Out := jobRow { op := 0x4E, owner := false } j s mortiseRead
/-- Row MORTISE_SCRUB_SET. -/
def execMortiseScrubSet (j : Job) (s : State) : Out := jobRow { op := 0x4F } j s mortiseScrubSet
/-- Row SCRUB_PERIOD_EXPIRY. -/
def execScrubPeriodExpiry (p : Fin 8) (s : State) : Out := .next (s.scrubPeriod p.val)
end Sys2Proof.Machine
end

