-- ==== Sys2Proof/Machine/Tables.lean ====
section
/-!
DEFINITION. The stores behind Mortise: hashes, the learning table, the EM table with its stash and front caches, LPM
and the next-hop table (ch. 5, R142 to R173).
-/
namespace Sys2Proof.Machine

/-! ### Hashing (R142) -/

/-- One bit of CRC-32C. -/
def crcCBit (c : BitVec 32) : BitVec 32 := if c.getLsbD 0 then (c >>> 1) ^^^ 0x82F63B78#32 else c >>> 1

/-- One byte of CRC-32C. -/
def crcCByte (c : BitVec 32) (b : Byte) : BitVec 32 :=
  let x := c ^^^ b.zeroExtend 32
  crcCBit (crcCBit (crcCBit (crcCBit (crcCBit (crcCBit (crcCBit (crcCBit x)))))))

/-- CRC-32C of bytes from a seed. -/
def crc32c (seed : Nat) (l : List Byte) : Nat := (l.foldl crcCByte (BitVec.ofNat 32 seed) ^^^ 0xFFFFFFFF#32).toNat

/-- The first position of a list at which a table holds something of interest. -/
def firstSome {α β : Type} (f : α → Option β) : List α → Option β
  | [] => none
  | a :: t => match f a with
    | some b => some b
    | none => firstSome f t

/-! ### The learning table (R145, R146, R153) -/

/-- Positions of the stash of a learning table. -/
def learnStash : List Nat := rangeFrom 262144 8

/-- Candidate position of a key in sub-table w. -/
def State.learnPos (s : State) (p w : Nat) (key : List Byte) : Nat :=
  65536 * w + crc32c (s.rd (wPipe p + 4 * w) Reg.PIPE_LEARN_SEED_SEED) key % 65536

/-- The four candidates of a key. -/
def State.learnCands (s : State) (p : Nat) (key : List Byte) : List Nat := (rangeFrom 0 4).map (fun w => s.learnPos p w key)

/-- The record at a position; none where it is free. -/
def State.learnAt (s : State) (p k : Nat) : List Byte := tabGet (fun _ => []) (s.pipe p).learn k

/-- A record put at a position, or the position freed; the counts of R178 follow. -/
def State.setLearn (s : State) (p k : Nat) (r : List Byte) : State :=
  let was := b2n (s.learnAt p k != [])
  let b := wPipe p
  let s1 := s.setPipe p { s.pipe p with learn := tabSet (fun _ => []) (s.pipe p).learn k r }
  let s2 := s1.wr b Reg.PIPE_LEARN_COUNT_ENTRIES (s1.rd b Reg.PIPE_LEARN_COUNT_ENTRIES + b2n (r != []) - was)
  if 262144 ≤ k then
    s2.wr b Reg.PIPE_TBL_STATUS_LEARN_STASH_USED (s2.rd b Reg.PIPE_TBL_STATUS_LEARN_STASH_USED + b2n (r != []) - was)
  else s2

/-- Key of a learning record. -/
def learnKey (r : List Byte) : List Byte := r.take 8

/-- Positions that hold a key: its candidates and the stash (R145). -/
def State.learnCopies (s : State) (p : Nat) (key : List Byte) : List Nat :=
  (s.learnCands p key ++ learnStash).filter (fun k => s.learnAt p k != [] && decide (learnKey (s.learnAt p k) = key))

/-- The position at which a lookup in parity e finds a key (R143, R144). -/
def State.learnFind (s : State) (p : Nat) (key : List Byte) (e : Nat) : Option Nat :=
  (s.learnCopies p key).find? (fun k => liveIn 1 e (s.learnAt p k))

/-- SYSPORT, STATIC and LOCKED of a learning record. -/
def lrPort (r : List Byte) : Nat := imW r 8 % 2 ^ 22
def lrStatic (r : List Byte) : Bool := (imW r 8).testBit 22
def lrLocked (r : List Byte) : Bool := (imW r 8).testBit 23
def lrLocal (r : List Byte) : Bool := (imW r 8).testBit 24
/-- Tenant of a learning key. -/
def lrTenant (key : List Byte) : Nat := imB key 7 / 64

/-- A learning record of its fields; `w12` is bytes 12 and 13. -/
def learnRec (key : List Byte) (port : Nat) (static locked own : Bool) (live w12 hit : Nat) : List Byte :=
  padTo 8 key ++ leBytes 4 (port % 2 ^ 22 + 2 ^ 22 * b2n static + 2 ^ 23 * b2n locked + 2 ^ 24 * b2n own + 2 ^ 25 * live) ++
    leBytes 2 w12 ++ leBytes 2 hit

/-- A record with HIT_TS replaced. -/
def withHit (r : List Byte) (t : Nat) : List Byte := putBytes r 14 (leBytes 2 t)

/-- Seconds count of a pipeline, from the management clock (R146; log entry 2). -/
def State.seconds (s : State) : Nat := s.clock.up / 10 ^ 9

/-- Ageing tick count of a pipeline (R146). -/
def State.tick (s : State) (p : Nat) : Nat := (s.pipe p).tick

/-- Learning entries of a tenant in a pipeline: keys, each counted once whatever copies a move or a batch holds of it
(R174; log entry 182). -/
def State.learnUsed (s : State) (p t : Nat) : Nat :=
  (((s.pipe p).learn.filter (fun e => decide (lrTenant e.2 = t))).map (fun e => learnKey e.2)).eraseDups.length

/-- The rest of a cuckoo path that frees position k with d moves (R153): the entry of k moves to the next position. -/
def State.learnChain (s : State) (p : Nat) : Nat → Nat → Option (List Nat)
  | 0, k => if s.learnAt p k = [] then some [k] else none
  | d + 1, k =>
    let r := s.learnAt p k
    if r = [] then none
    else
      (firstSome (fun w => if w = k / 65536 then none else s.learnChain p d (s.learnPos p w (learnKey r))) (rangeFrom 0 4)).map (k :: ·)

/-- The positions of a path for a key: where it goes, then each place that a resident moves to; a free stash entry
where there is no path of at most 4 moves (R153; log entry 25). -/
def State.learnPath (s : State) (p : Nat) (key : List Byte) : Option (List Nat) :=
  match firstSome (fun d => firstSome (s.learnChain p d) (s.learnCands p key)) (rangeFrom 0 5) with
  | some l => some l
  | none => (learnStash.find? (fun k => s.learnAt p k = [])).map (fun k => [k])

/-- The writes that make room along a path: from its end, each entry copied forward and its old copy deleted in a
later slot (R153). -/
def learnMoves : List Nat → List WOp
  | a :: b :: t => learnMoves (b :: t) ++ [.lcopy a b, .ldel a b]
  | _ => []

/-! ### The EM table (R158 to R160, R519) -/

/-- Address of an EM bucket (R519). -/
def emAddr (b : Nat) : Nat := b % 4 * 2 ^ 34 + b / 4 * 128

/-- First position of the EM stash: position 4b + i is slot i of bucket b, 2^26 + k is stash entry k. -/
def emStash0 : Nat := 2 ^ 26

/-- The identity of an EM entry: bytes 0 to 20, with bits 7:6 of byte 20 as 0 (R158, R183). -/
def emKey (r : List Byte) : List Byte := padTo 20 r ++ [BitVec.ofNat 8 (imB r 20 % 64)]

def State.emSeed (s : State) (k : Nat) : Nat := s.reg (wPipe 0 + 0x20020 + 4 * k)

/-- B1 and B2 of a key (R158). -/
def State.emB1 (s : State) (key : List Byte) : Nat := crc32c (s.emSeed 0) key % 2 ^ 24
def State.emB2 (s : State) (key : List Byte) : Nat :=
  let b := crc32c (s.emSeed 1) key % 2 ^ 24
  if b = s.emB1 key then b ^^^ 1 else b
/-- The fingerprint of a key (R158). -/
def State.emFp (s : State) (key : List Byte) : Nat := crc32c (s.emSeed 2) key % 2 ^ 16

/-- The record at an EM position; none where it is free. A stash position is read in pipeline p's copy. -/
def State.emAt (s : State) (p k : Nat) : List Byte :=
  if emStash0 ≤ k then tabGet (fun _ => []) (s.pipe p).emStash (k - emStash0)
  else
    let r := s.dramRd (emAddr (k / 4) + 32 * (k % 4)) 32
    if recLive 2 r = 0 then [] else r

/-- SPILL_CNT of a bucket (R160). -/
def State.spillCnt (s : State) (b : Nat) : Nat := imB (s.dramRd (emAddr b + 21) 1) 0 / 16

/-- A write to a bucket is issued: fills of reads issued before it are discarded (R167). -/
def State.emIssued (s : State) (b : Nat) : State :=
  let mark (x : Packet) : Packet :=
    match x.em with
    | some w =>
      if s.emB1 w.key = b ∨ (w.second ∧ s.emB2 w.key = b) then { x with em := some { w with stale := true } } else x
    | none => x
  forEach (rangeFrom 0 8) (fun p s => s.setPipe p { s.pipe p with packets := (s.pipe p).packets.map mark }) s

/-- SPILL_CNT of a bucket set. -/
def State.setSpill (s : State) (b n : Nat) : State :=
  (s.dramWr (emAddr b + 21) [BitVec.ofNat 8 (imB (s.dramRd (emAddr b + 21) 1) 0 % 16 + 16 * n)]).emIssued b

/-- SPILL_CNT raised, saturating, or lowered, unless it has saturated (R160). -/
def State.spillUp (s : State) (b : Nat) : State := s.setSpill b (min 15 (s.spillCnt b + 1))
def State.spillDown (s : State) (b : Nat) : State := if s.spillCnt b = 15 then s else s.setSpill b (s.spillCnt b - 1)

/-- A bucket slot written as one access of its bucket; SPILL_CNT of slot 0 stays (R159, R162). An empty record frees
the slot. -/
def State.emWrite (s : State) (k : Nat) (r : List Byte) : State :=
  let a := emAddr (k / 4) + 32 * (k % 4)
  let spill := if k % 4 = 0 then imB (s.dramRd (a + 21) 1) 0 / 16 * 16 else 0
  (s.dramWr a (putBytes (padTo 32 r) 21 [BitVec.ofNat 8 (imB r 21 % 16 + spill)])).emIssued (k / 4)

/-- A free slot of a bucket. -/
def State.emFree (s : State) (b : Nat) : Option Nat := (rangeFrom (4 * b) 4).find? (fun k => s.emAt 0 k = [])

/-- The record at an EM position as the update unit holds it: a stash entry lives while some pipeline's copy holds it,
because a write reaches the copies each in its own slot (R167). -/
def State.emAll (s : State) (k : Nat) : List Byte :=
  if emStash0 ≤ k then (((rangeFrom 0 8).map (fun p => s.emAt p k)).find? (fun r => r != [])).getD []
  else s.emAt 0 k

/-- Positions of the stash that some pipeline's copy holds. -/
def State.emHeld (s : State) : List Nat :=
  distinct ((rangeFrom 0 8).flatMap (fun p => (s.pipe p).emStash.map (fun e => emStash0 + e.1)))

/-- A free stash entry (R163). -/
def State.emStashFree (s : State) : Option Nat := (rangeFrom emStash0 4096).find? (fun k => s.emAll k = [])

/-- Positions of EM that hold a key. -/
def State.emCopies (s : State) (key : List Byte) : List Nat :=
  (rangeFrom (4 * s.emB1 key) 4 ++ rangeFrom (4 * s.emB2 key) 4 ++ s.emHeld).filter
    (fun k => s.emAll k != [] && decide (emKey (s.emAll k) = key))

/-- Whether a position lies outside the first bucket of a key (R160). -/
def State.emSpilled (s : State) (key : List Byte) (k : Nat) : Bool := decide (emStash0 ≤ k ∨ k / 4 ≠ s.emB1 key)

/-- Whether a position is where a move under way has put its second copy (R164). -/
def State.moveDst (s : State) (k : Nat) : Bool :=
  match s.em.steps with
  | .moved _ d :: _ => decide (d = k)
  | _ => false

/-- The copies for which SPILL_CNT of a key's first bucket counts the key; the second copy of a move under way counts
from step 3 of R164 on (R160). -/
def State.emOuts (s : State) (key : List Byte) : List Nat :=
  (s.emCopies key).filter (fun k => s.emSpilled key k && !s.moveDst k)

/-- A chain of d moves that frees a slot of bucket b (R163): the slots whose entries move, from the chain's start,
and the free slot at its end. -/
def State.emChain (s : State) : Nat → Nat → Option (List Nat)
  | 0, b => (s.emFree b).map (fun k => [k])
  | d + 1, b =>
    firstSome (fun k =>
      let key := emKey (s.emAt 0 k)
      let other := if s.emB1 key = b then s.emB2 key else s.emB1 key
      if s.emAt 0 k = [] then none else (s.emChain d other).map (k :: ·)) (rangeFrom (4 * b) 4)

/-- Where an insert puts its entry, and the chain of moves before it (R163): none when the table is full. -/
def State.emPlace (s : State) (key : List Byte) : Option (List Nat) :=
  let kick := s.rd (wPipe 0) Reg.PIPE_KICK_KICK_LIMIT
  match firstSome (fun d => match s.emChain d (s.emB1 key) with
      | some l => some l
      | none => s.emChain d (s.emB2 key)) (rangeFrom 0 (kick + 1)) with
  | some l => some l
  | none => s.emStashFree.map (fun k => [k])

/-- The steps of the moves of a chain, from its end back to its start (R163, R164). -/
def emMoves : List Nat → List EmStep
  | a :: b :: t => emMoves (b :: t) ++ [.move a b, .moved a b]
  | _ => []

/-- Entries of a tenant (R174). -/
def State.emUsed (s : State) (t : Nat) : Nat := tabGet (fun _ => 0) s.em.used t
def State.addEmUsed (s : State) (t : Nat) (d : Int) : State :=
  { s with em := { s.em with used := tabSet (fun _ => 0) s.em.used t ((s.emUsed t : Int) + d).toNat } }

/-- A stash entry of a pipeline's copy written or freed, and its count (R178); a copy that crosses above 3,072 entries
says so (R165). -/
def State.setStash (s : State) (p k : Nat) (r : List Byte) : State :=
  let was := (s.pipe p).emStash.length
  let s1 := s.setPipe p { s.pipe p with emStash := tabSet (fun _ => []) (s.pipe p).emStash k r }
  let now := (s1.pipe p).emStash.length
  let s2 := s1.wr (wPipe p) Reg.PIPE_TBL_STATUS_EM_STASH_USED now
  if was ≤ 3072 ∧ 3072 < now then s2.event Ev.STASH_HIGH p p now 0 else s2

/-! ### Front caches (R166, R167) -/

/-- Set of a key (R166). -/
def State.cacheSet (s : State) (key : List Byte) : Nat := s.emB1 key % 32768
def State.cacheWays (s : State) (p k : Nat) : List CacheWay := tabGet (fun _ => []) (s.pipe p).cache k
def State.setCache (s : State) (p k : Nat) (l : List CacheWay) : State :=
  s.setPipe p { s.pipe p with cache := tabSet (fun _ => []) (s.pipe p).cache k l }

/-- The way that holds a key. -/
def State.cacheWay (s : State) (p : Nat) (key : List Byte) : Option CacheWay :=
  (s.cacheWays p (s.cacheSet key)).find? (fun w => decide (w.key = key))

/-- The order of hits of a front cache advanced. -/
def State.cacheStamp (s : State) (p : Nat) : Nat × State :=
  ((s.pipe p).cacheUse + 1, s.setPipe p { s.pipe p with cacheUse := (s.pipe p).cacheUse + 1 })

/-- A hit of a way recorded. -/
def State.cacheTouch (s : State) (p : Nat) (key : List Byte) : State :=
  let (u, s1) := s.cacheStamp p
  let k := s1.cacheSet key
  s1.setCache p k ((s1.cacheWays p k).map (fun w => if w.key = key then { w with used := u } else w))

/-- A way filled: a way of the key takes the copy, else a free way or the least recently hit one that is not pinned
(R166). A set whose ways are all taken by pinned entries is not filled. -/
def State.cacheFill (s : State) (p : Nat) (key : List Byte) (copies : List (List Byte)) (pin : Bool) : State :=
  let (u, s1) := s.cacheStamp p
  let k := s1.cacheSet key
  let l := s1.cacheWays p k
  let way : CacheWay := { key := key, copies := copies, pinned := pin, used := u }
  if l.any (fun w => decide (w.key = key)) then
    s1.setCache p k (l.map (fun w => if w.key = key then { way with pinned := pin || w.pinned } else w))
  else if l.length < 8 then s1.setCache p k (l ++ [way])
  else
    match leastBy (fun (w : CacheWay) => w.used) (l.filter (fun w => !w.pinned)) with
    | some v => s1.setCache p k (l.map (fun w => if w.key = v.key then way else w))
    | none => s1

/-- The slot of an EM write in a pipeline: the cached copy of the key, a negative entry too, is replaced where the
entry is pinned and removed otherwise (R166, R167; log entry 26). -/
def State.cacheWritten (s : State) (p : Nat) (key : List Byte) : State :=
  let k := s.cacheSet key
  let drop := s.setCache p k ((s.cacheWays p k).filter (fun w => decide (w.key ≠ key)))
  let copies := ((drop.emCopies key).map (drop.emAt p)).filter (fun r => r != [])
  if s.em.pinned.contains key && copies != [] then drop.cacheFill p key copies true else drop

/-- The pinned keys after a write of a key's entries, and their count, which every pipeline reports (R166, R178). -/
def State.repin (s : State) (key : List Byte) : State :=
  let pin := (s.emCopies key).any (fun k => (imB (s.emAll k) 20).testBit 6)
  let l := if pin then (if s.em.pinned.contains key then s.em.pinned else key :: s.em.pinned) else s.em.pinned.erase key
  forEach (rangeFrom 0 8) (fun p s => s.wr (wPipe p) Reg.PIPE_EM_PINNED_PINNED l.length)
    { s with em := { s.em with pinned := l } }

/-- The counts of a key once copies of it have gone: SPILL_CNT of its first bucket is lowered where it counted the key
(`out`) and no copy is left outside, and a key with no copy left is its tenant's no more (R160, R174). -/
def State.emSettle (s : State) (key : List Byte) (out had : Bool) : State :=
  let s1 := if out && (s.emOuts key).isEmpty then s.spillDown (s.emB1 key) else s
  let s2 := if had && (s1.emCopies key).isEmpty then s1.addEmUsed (imB key 20 % 4) (-1) else s1
  s2.repin key

/-- Whether a pinned entry finds two others pinned in its set (R166). -/
def State.pinFull (s : State) (key : List Byte) : Bool :=
  !s.em.pinned.contains key && decide (2 ≤ (s.em.pinned.filter (fun k => decide (s.cacheSet k = s.cacheSet key))).length)

/-! ### LPM (R170) -/

/-- The pipeline whose record holds the routes of p's pair. -/
def lpmPipe (p : Nat) : Nat := p / 2 * 2

/-- LEN, AF and VRF of a route. -/
def rtLen (r : List Byte) : Nat := imB r 16
def rtAf (r : List Byte) : Nat := imB r 17 % 2
def rtVrf (r : List Byte) : Nat := imH r 18 % 4096

/-- The identity of a route: bytes 0 to 19 with its liveness and reserved bits as 0 (R183). -/
def lpmKey (r : List Byte) : List Byte := padTo 17 r ++ [BitVec.ofNat 8 (rtAf r)] ++ leBytes 2 (rtVrf r)

/-- Whether a route covers an address of its family's length (R170). -/
def covers (r addr : List Byte) : Bool :=
  let w := 8 * addr.length
  decide (rtLen r ≤ w ∧ beNat addr >>> (w - rtLen r) = beNat (r.take addr.length) >>> (w - rtLen r))

/-- The route that a lookup finds: live in e, of the family and VRF, the longest that covers the address (R144, R170). -/
def State.lpmFind (s : State) (p vrf af : Nat) (addr : List Byte) (e : Nat) : Option (List Byte) :=
  (s.pipe (lpmPipe p)).lpm.foldl (fun best x =>
    let r := x.2
    if liveIn 3 e r && decide (rtAf r = af ∧ rtVrf r = vrf) && covers r addr then
      match best with
      | some b => if rtLen b < rtLen r then some r else best
      | none => some r
    else best) none

/-- Positions that hold a route identity. -/
def State.lpmCopies (s : State) (p : Nat) (key : List Byte) : List Nat :=
  ((s.pipe (lpmPipe p)).lpm.filter (fun e => decide (lpmKey e.2 = key))).map (·.1)

/-- The least position that a route can take (log entry 27); none when its family is full (R170). DESIGN CHOICE (log entry
234): capacity counts records, so a route that a batch changes counts twice until it is normalised. -/
def State.lpmFree (s : State) (p af : Nat) : Option Nat :=
  let t := (s.pipe (lpmPipe p)).lpm
  let n := (t.filter (fun e => decide (rtAf e.2 = af))).length
  if (if af = 0 then 1048576 else 524288) ≤ n then none
  else (rangeFrom 0 (t.length + 1)).find? (fun k => tabGet (fun _ => []) t k = [])

/-! ### Next-hop (R172, R173) -/

def State.nhAt (s : State) (p k : Nat) : List Byte := tabGet (fun _ => []) (s.pipe p).nexthop k

/-- A next-hop index resolved: the index read and its entry, and whether a nested ECMP entry was met (R173). -/
def State.nhResolve (s : State) (p k h e : Nat) : Option (Nat × List Byte × Bool) :=
  let r := s.nhAt p k
  if liveIn 4 e r = false then none
  else if imB r 0 % 8 ≠ 2 then some (k, r, false)
  else
    let m := imW r 4 % 2 ^ 22 + h % (imH r 2 % 512)
    let x := s.nhAt p m
    if liveIn 4 e x = false then none
    else if imB x 0 % 8 = 2 then some (m, putBytes x 0 [BitVec.ofNat 8 (imB x 0 / 8 * 8 + 3)], true)
    else some (m, x, false)

/-! ### Tenants (R174) -/

def tenantBase (p t : Nat) : Nat := wPipe p + 0x10 * t
def State.tenantOwner (s : State) (p t : Nat) : Nat := s.rd (tenantBase p t) Reg.PIPE_TENANT_A_OWNER

/-! ### One view of the five tables -/

/-- The pipeline whose record holds table t as pipeline p sees it. -/
def tblPipe (t p : Nat) : Nat := if t = 2 then 0 else if t = 3 then lpmPipe p else p

/-- The record at a position of table t; none where it is free. -/
def State.tblAt (s : State) (t p k : Nat) : List Byte :=
  match t with
  | 0 => (let r := tabGet (fun _ => []) (s.pipe p).array k; if recLive 0 r = 0 then [] else r)
  | 1 => s.learnAt p k
  | 2 => s.emAt p k
  | 3 => tabGet (fun _ => []) (s.pipe (lpmPipe p)).lpm k
  | _ => s.nhAt p k

/-- The identity of a record or index in table t (R183). -/
def identOf (t : Nat) (r : List Byte) (index : Nat) : List Byte :=
  match t with
  | 1 => padTo 8 r
  | 2 => emKey r
  | 3 => lpmKey r
  | _ => leBytes 4 index

/-- Positions at which table t holds an identity. -/
def State.copiesOf (s : State) (t p : Nat) (ident : List Byte) : List Nat :=
  match t with
  | 1 => s.learnCopies p ident
  | 2 => s.emCopies ident
  | 3 => s.lpmCopies p ident
  | _ => [leNat ident].filter (fun k => s.tblAt t p k != [])

/-- A Mortise entry and its shadow written together (R109, R122); writing an entry mends a bad shadow (R125). -/
def State.setMortise (s : State) (p k : Nat) (r : List Byte) : State :=
  let y := s.pipe p
  let v := (rangeFrom 0 80).map (fun j => r.getD j 0 &&& r.getD (80 + j) 0)
  let x := v ++ r.drop 80
  s.setPipe p { y with array := tabSet (fun _ => []) y.array k x, shadow := tabSet (fun _ => []) y.shadow k x,
                       badShadow := y.badShadow.erase k }

/-- The liveness bits of a Mortise entry changed alone, in array and shadow: its contents stay (R118, R122). The tail of
a wide pair follows its head (R106, R110). An entry that a bad shadow has made dead stays dead (R125). -/
def State.mortiseLive (s : State) (p k v : Nat) : State :=
  let one (k : Nat) (s : State) : State :=
    let y := s.pipe p
    s.setPipe p { y with array := liveAt y.array k v, shadow := liveAt y.shadow k v }
  let r := tabGet (fun _ => []) (s.pipe p).array k
  if recLive 0 r = 0 then s
  else if (imB r 162).testBit 2 then one (k + 1) (one k s) else one k s

/-- A record put at a position of table t of pipeline p, or the position freed. EM buckets are written by the steps
of an EM update. -/
def State.tblSet (s : State) (t p k : Nat) (r : List Byte) : State :=
  match t with
  | 0 => s.setMortise p k r
  | 1 => s.setLearn p k r
  | 2 => if emStash0 ≤ k then s.setStash p (k - emStash0) r else s.emWrite k r
  | 3 => let q := lpmPipe p; s.setPipe q { s.pipe q with lpm := tabSet (fun _ => []) (s.pipe q).lpm k r }
  | _ => s.setPipe p { s.pipe p with nexthop := tabSet (fun _ => []) (s.pipe p).nexthop k r }

/-- Liveness of the entry at a position of table t replaced; 0 frees it. -/
def State.tblLive (s : State) (t p k v : Nat) : State :=
  if t = 0 then s.mortiseLive p k v
  else
    let r := s.tblAt t p k
    s.tblSet t p k (if r = [] ∨ v = 0 then [] else setLive t r v)

end Sys2Proof.Machine
end

