-- ==== Sys2Proof/Machine/Lookup.lean ====
section
/-!
DEFINITION. A packet's table lookups and their results, EM bucket reads, and the setup, lookup and dump commands of the
tables (ch. 5, R137 to R141, R161 to R169, R173 to R178).
-/
namespace Sys2Proof.Machine

/-! ### Profiles and keys (R137, R139) -/

def tprofWord (p x w : Nat) : Nat := wPipe p + 0x21000 + 0x20 * x + 4 * w
def tportA (p n : Nat) : Nat := wPipe p + 0x20100 + 8 * portPos n
def tportB (p n : Nat) : Nat := wPipe p + 0x20104 + 8 * portPos n

/-- Tenant of a port's packets (R174). -/
def State.portTenant (s : State) (p n : Nat) : Nat := bits (s.reg (tportA p n)) 25 24

/-- n bytes of a packet at S + off that all lie within the window (R139). -/
def windowField (d : List Byte) (W S off n : Nat) : Option (List Byte) :=
  if S + off + n ≤ W then some (padTo n (slice d (S + off) n)) else none

/-- FID of a packet: the first FID record's, else the port's default; none when the record's field is missing (R139). -/
def State.fidOf (s : State) (p n x : Nat) (parse d : List Byte) (W : Nat) : Option Nat :=
  let w := s.reg (tprofWord p x 2)
  match prFind parse (bits w 15 8) 0 with
  | some S => (windowField d W S (bits w 24 16) 2).map (fun b => beNat b % 4096)
  | none => some (bits (s.reg (tportB p n)) 29 16)

/-- Key of the source lookup (off 6) or of the destination lookup (off 0) (R139). -/
def State.macKey (s : State) (p n x : Nat) (parse d : List Byte) (W off : Nat) : Option (List Byte) :=
  match s.fidOf p n x parse d W, prFind parse (s.reg (tprofWord p x 2) % 256) 0 with
  | some fid, some S => (windowField d W S off 6).map (fun m => m ++ leBytes 2 (fid + 2 ^ 14 * s.portTenant p n))
  | _, _ => none

/-- The 20 bytes of the EM extractors (R139, R173). -/
def State.emExtract (s : State) (p x : Nat) (parse d : List Byte) (W : Nat) : List Byte :=
  (rangeFrom 3 5).flatMap (fun k => extract parse d W (s.reg (tprofWord p x k)))

/-- The system port that a packet of port n is learned on (R148): a domain port's is the joist header's source. DESIGN
CHOICE (log entry 235): without a joist header record it is (own device number, n). -/
def State.learnedPort (s : State) (p n bank : Nat) (parse d : List Byte) : Nat :=
  let own := 256 * s.devNum + n
  if s.domain n then
    match prDesig parse (imB (s.graph p bank) 16) with
    | some S => 256 * (beNat (padTo 4 (slice d (S + 4) 4)) / 16 % 2 ^ 14) + imB d (S + 9)
    | none => own
  else own

/-! ### Resolution (R140, R173) -/

/-- The next-hop index that a profile's source gives (R139). -/
def nhSource (src : Nat) (k : Look) (mort : List Byte) : Option Nat :=
  match src with
  | 1 => if k.lpmHit then some k.lpmNh else none
  | 2 => if k.emHit then some k.emNh else none
  | 3 => if imH mort 0 / 2 ^ 15 = 1 then some (leNat (slice mort 5 7) % 2 ^ 17) else none
  | _ => none

/-- The opcode of one source of ORDER, when it hit: with its OPCODE_SRC (R140, R169, R173). -/
def sourceOpcode (w1 src : Nat) (k : Look) (mort : List Byte) (c : Nat) : Option (Nat × Nat) :=
  match c with
  | 1 => if imH mort 0 / 2 ^ 15 = 1 then some (imB mort 4, 0) else none
  | 2 => if k.emHit then some (k.emOp, 1) else if k.emOff then some (bits w1 23 16, 1) else none
  | 3 => if k.lpmHit then some (k.lpmOp, 2) else none
  | 4 => if k.dstHit then some (bits w1 15 8, 3) else none
  | 5 => if k.nhValid then some (imB k.nhEntry 1, 4)
         else if (nhSource src k mort).isSome then some (bits w1 31 24, 4) else none
  | _ => none

/-- The first source of an ORDER list that hit (R140). -/
def orderSource (w1 src : Nat) (k : Look) (mort : List Byte) : Nat → Nat → Option (Nat × Nat)
  | 0, _ => none
  | n + 1, order =>
    if order % 8 = 0 then none
    else match sourceOpcode w1 src k mort (order % 8) with
      | some r => some r
      | none => orderSource w1 src k mort n (order / 8)

/-- NH_SRC of a packet's profile. -/
def Packet.nhSrc (x : Packet) : Nat := bits x.word0 26 25

/-- The next-hop lookup of a packet, once the lookup that supplies its index has ended (R138, R173). -/
def State.nhLookup (s : State) (p : Nat) (x : Packet) : Packet × State :=
  match nhSource x.nhSrc x.look x.mortise with
  | none => (x, s)
  | some k =>
    match s.nhResolve p k x.ecmp x.epoch with
    | some (i, e, nested) =>
      ({ x with look := { x.look with nhValid := true, nhNested := nested, nhIndex := i, nhEntry := e } }, s)
    | none => (x, s.pipeCount p 40 1)

/-- The opcode of a packet whose lookups have ended (R140). -/
def Packet.resolved (x : Packet) : Packet :=
  let op : Nat × Nat :=
    if imH x.mortise 0 / 2 ^ 14 % 2 = 1 then (imB x.mortise 4, 6)
    else (orderSource x.word1 x.nhSrc x.look x.mortise 5 (bits x.word0 14 0)).getD (bits x.word1 7 0, 5)
  { x with look := { x.look with opcode := op.1, opcodeSrc := op.2 } }

/-! ### EM lookups (R161, R168, R169) -/

/-- Packets of a pipeline that await a DRAM result (R168). -/
def Pipe.emWaiting (y : Pipe) : Nat := (y.packets.filter (fun x => x.em.isSome)).length

/-- The result fields of an EM hit. -/
def Look.emFound (k : Look) (r : List Byte) (wh : Nat) : Look :=
  { k with emHit := true, emWhere := wh, emNh := leNat (slice r 25 3) % 2 ^ 17, emOp := imB r 24, emData := imW r 28 }

/-- An EM lookup in a packet's slot: the front cache and the stash, or a bucket read to await (R161 step 1). -/
def State.emLookup (s : State) (p : Nat) (key : List Byte) (x : Packet) : Packet × State :=
  let way := s.cacheWay p key
  let cached := match way with
    | some w => w.copies.find? (fun r => liveIn 2 x.epoch r)
    | none => none
  let negative := match way with
    | some w => w.copies.isEmpty
    | none => false
  let stashed := ((s.pipe p).emStash.find? (fun e => decide (emKey e.2 = key) && liveIn 2 x.epoch e.2)).map (·.2)
  match cached, stashed with
  | some r, _ => ({ x with look := x.look.emFound r 0 }, (s.cacheTouch p key).pipeCount p 33 1)
  | none, some r => ({ x with look := x.look.emFound r 1 }, s.pipeCount p 34 1)
  | none, none =>
    if negative then ({ x with look := { x.look with emWhere := 0 } }, (s.cacheTouch p key).pipeCount p 33 1)
    else if s.anyOffline then ({ x with look := { x.look with emWhere := 2, emOff := true } }, s.pipeCount p 35 1)
    else
      let s1 := { s with em := { s.em with nextLookup := s.em.nextLookup + 1 } }
      ({ x with look := { x.look with emWhere := 2 }, em := some { key := key, id := s.em.nextLookup } },
       (s1.pipeCount p 35 1).pipeCount p 37 1)

/-- The entry that a bucket holds for a key in parity e. -/
def State.bucketFind (s : State) (b : Nat) (key : List Byte) (e : Nat) : Option (List Byte) :=
  ((rangeFrom (4 * b) 4).map (s.emAt 0)).find? (fun r => r != [] && decide (emKey r = key) && liveIn 2 e r)

/-- A lookup that read buckets ends: the front cache is filled, unless a write discards the fill (R166, R167). A
negative entry is filled for a key that is absent in both parities. -/
def State.emFill (s : State) (p : Nat) (w : EmWait) (hit : Option (List Byte)) : State :=
  if w.stale then s.pipeCount p 38 1
  else match hit with
    | some r =>
      let old := match s.cacheWay p w.key with
        | some y => y.copies.filter (fun c => decide (recLive 2 c &&& recLive 2 r = 0))
        | none => []
      s.cacheFill p w.key (old ++ [r]) false
    | none => if s.emCopies w.key = [] then s.cacheFill p w.key [] false else s

/-- A bucket read of a packet returns (R161 steps 2 to 4, R169). -/
def State.bucketReturn (s : State) (p i : Nat) (ok : Bool) : State :=
  match (s.pipe p).packets.find? (fun x => decide (x.frame = i)) with
  | none => s
  | some x =>
    match x.em with
    | none => s
    | some w =>
      let put (s : State) (y : Packet) : State :=
        s.setPipe p { s.pipe p with packets := (s.pipe p).packets.map (fun z => if z.frame = i then y else z) }
      let finish (s : State) (y : Packet) : State :=
        let z : Packet := { y with em := none }
        let r := if z.nhSrc = 2 then s.nhLookup p z else (z, s)
        put r.2 r.1.resolved
      if s.anyOffline then finish s { x with look := { x.look with emOff := true } }
      else
        let b := if w.second then s.emB2 w.key else s.emB1 w.key
        match (if ok then s.bucketFind b w.key x.epoch else none) with
        | some r => finish (s.emFill p w (some r)) { x with look := x.look.emFound r 2 }
        | none =>
          if w.second = false ∧ s.spillCnt b ≠ 0 then
            put (s.pipeCount p 37 1) { x with em := some { w with second := true } }
          else finish (s.emFill p w none) x

/-! ### The lookups of a slot (R138, R139, R147) -/

/-- The source lookup, and the learn that it requests (R147). -/
def State.sourceLookup (s : State) (p n f : Nat) (d : List Byte) (W : Nat) (x : Packet) : Packet × State :=
  match s.macKey p n f x.parse d W 6 with
  | none => (x, s.pipeCount p 23 1)
  | some key =>
    let port := s.learnedPort p n x.bank x.parse d
    let wants := (s.reg (tportA p n)).testBit 29 && !(imB key 0).testBit 0
    match s.learnFind p key x.epoch with
    | none =>
      ({ x with look := { x.look with srcLearn := wants }, learn := if wants then some (key, port) else none },
       s.pipeCount p 23 1)
    | some k =>
      let r := s.learnAt p k
      let same := decide (lrPort r = port)
      let y : Packet := { x with
        look := { x.look with srcHit := true, srcLocked := lrLocked r, srcPort := lrPort r, srcLearn := wants && !same }
        learn := if wants && !same then some (key, port) else none }
      let s1 := s.pipeCount p 22 1
      (y, if same then s1.setPipe p { s1.pipe p with
            learn := tabSet (fun _ => []) (s1.pipe p).learn k (withHit r (s1.tick p)) } else s1)

/-- The destination lookup. -/
def State.destLookup (s : State) (p n f : Nat) (d : List Byte) (W : Nat) (x : Packet) : Packet × State :=
  let hit := match s.macKey p n f x.parse d W 0 with
    | some key => s.learnFind p key x.epoch
    | none => none
  match hit with
  | none => (x, s.pipeCount p 25 1)
  | some k =>
    let r := s.learnAt p k
    ({ x with look := { x.look with dstHit := true, dstStatic := lrStatic r, dstPort := lrPort r } }, s.pipeCount p 24 1)

/-- The LPM lookup: the first record, in record order, of the graph's IPv4 or IPv6 designation (R139, R170). -/
def State.lpmLookup (s : State) (p n : Nat) (d : List Byte) (W : Nat) (x : Packet) : Packet × State :=
  let g := s.graph p x.bank
  let v4 := imB g 14
  let v6 := imB g 15
  match (prRecords x.parse).find? (fun e => decide (e.1 ≠ 0 ∧ (e.1 = v4 ∨ e.1 = v6))) with
  | none => (x, s)
  | some (id, S) =>
    let af := if id = v4 then 0 else 1
    match windowField d W S (if af = 0 then 16 else 24) (if af = 0 then 4 else 16) with
    | none => (x, s)
    | some addr =>
      match s.lpmFind p (s.reg (tportB p n) % 4096) af addr x.epoch with
      | none => (x, s)
      | some r =>
        ({ x with look := { x.look with
            lpmHit := true, lpmLen := rtLen r, lpmNh := leNat (slice r 21 3) % 2 ^ 17, lpmOp := imB r 20 } },
         s.pipeCount p 39 1)

/-- One lookup made when its bit of the profile is set. -/
def lookupIf (on : Bool) (f : State → Packet → Packet × State) (r : Packet × State) : Packet × State :=
  if on then f r.2 r.1 else r

/-- All table lookups of a packet, in its slot (R137, R138). -/
def State.tableLookups (s : State) (p n : Nat) (d : List Byte) (W : Nat) (x : Packet) : Packet × State :=
  match selectProfile (s.reg (tportA p n)) (prFlags x.parse) with
  | none => (x, s.pipeCount p 36 1)
  | some f =>
    let w0 := s.reg (tprofWord p f 0)
    if w0.testBit 31 = false then (x, s.pipeCount p 36 1)
    else
      let ext := s.emExtract p f x.parse d W
      let key := ext ++ [BitVec.ofNat 8 (s.portTenant p n + 4 * bits w0 23 20)]
      let x0 : Packet := { x with profile := some f, word0 := w0, word1 := s.reg (tprofWord p f 1),
                                  ecmp := crc32c (s.reg (wPipe p + 0x2002C)) ext }
      let r1 := lookupIf (w0.testBit 30) (fun s y => s.sourceLookup p n f d W y) (x0, s)
      let r2 := lookupIf (w0.testBit 29) (fun s y => s.destLookup p n f d W y) r1
      let r3 := lookupIf (w0.testBit 28) (fun s y => s.lpmLookup p n d W y) r2
      let r4 := if w0.testBit 27 then r3.2.emLookup p key r3.1 else (r3.1, r3.2.pipeCount p 36 1)
      let r5 := if r4.1.em.isSome && decide (x0.nhSrc = 2) then r4 else r4.2.nhLookup p r4.1
      if r4.1.em.isSome then r5 else (r5.1.resolved, r5.2)

/-- The table result of a packet, 64 bytes (R175). -/
def Look.bytes (k : Look) : List Byte :=
  leBytes 1 (b2n k.srcHit + 2 * b2n k.srcLearn + 4 * b2n k.srcLocked + 8 * b2n k.dstHit + 16 * b2n k.dstStatic +
      32 * b2n k.lpmHit + 64 * b2n k.emHit + 128 * b2n k.nhValid) ++
    leBytes 1 (k.emWhere + 4 * b2n k.emOff + 8 * b2n k.nhNested) ++ leBytes 1 k.opcode ++ leBytes 1 k.opcodeSrc ++
    leBytes 3 k.srcPort ++ leBytes 1 k.lpmLen ++ leBytes 4 k.dstPort ++ leBytes 3 k.lpmNh ++ leBytes 1 k.lpmOp ++
    leBytes 3 k.emNh ++ leBytes 1 k.emOp ++ leBytes 4 k.emData ++ leBytes 4 k.nhIndex ++ padTo 32 k.nhEntry ++ [0, 0, 0, 0]

/-! ### TABLE_SETUP (R176, R177) -/

/-- A TABLE_SETUP refused, or applied to each pipeline of its mask; a mask of 0 acts on no pipeline (R176, R177). -/
def setupRun (j : Job) (s : State) (bad : Bool) (f : Nat → State → State) : Answer :=
  if bad then failA s St.SETUP_INVALID else okA (forEach (maskList (j.byte 0 4)) f s)

/-- Operation 0: a profile. -/
def setupProfile (j : Job) (s : State) : Answer :=
  let x := j.byte 0 6
  let g := s.hostRd (s.jobLink j) (j.le 8 8) 32
  let w (k : Nat) : Nat := imW g (4 * k)
  let orderBad := (rangeFrom 0 5).any (fun i => decide (6 ≤ bits (w 0) (3 * i + 2) (3 * i)))
  if j.only [(4, 3), (8, 8)] = false ∨ 16 ≤ x then failA s St.SETUP_INVALID
  else
    setupRun j (if maskList (j.byte 0 4) = [] then s else s.countMoved 30 32) (decide (bits (w 0) 24 24 ≠ 0 ∨
        bits (w 0) 19 15 ≠ 0 ∨ bits (w 2) 31 25 ≠ 0 ∨ 510 < bits (w 2) 24 16) || orderBad ||
        (rangeFrom 3 5).any (fun k => badExtractor (w k) false))
      (fun p s => forEach (rangeFrom 0 8) (fun k s => s.setReg (tprofWord p x k) (w k)) s)

/-- Operation 1: a port. -/
def setupPort (j : Job) (s : State) : Answer :=
  let k := j.byte 0 6
  let a := j.le 8 4
  let b := j.le 12 4
  setupRun j s (decide (j.only [(4, 3), (8, 8)] = false ∨ 16 < k ∨ bits a 28 26 ≠ 0 ∨ bits a 23 21 ≠ 0 ∨
      bits a 15 12 ≠ 0 ∨ bits a 7 4 ≠ 0 ∨ bits b 31 30 ≠ 0 ∨ bits b 15 12 ≠ 0))
    (fun p s => (s.setReg (wPipe p + 0x20100 + 8 * k) a).setReg (wPipe p + 0x20104 + 8 * k) b)

/-- Operation 2: learning and ageing; KICK is device-wide (R178). -/
def setupLearnAge (j : Job) (s : State) : Answer :=
  let lc := j.le 8 4
  let ac := j.le 12 4
  let at_ := j.le 16 4
  let kk := j.le 20 4
  let bad := decide (j.only [(4, 2), (8, 16)] = false ∨ bits lc 31 23 ≠ 0 ∨ bits ac 30 30 ≠ 0 ∨ bits ac 15 13 ≠ 0 ∨
    bits ac 12 0 = 0 ∨ at_ = 0 ∨ 65535 < at_ ∨ 31 < kk)
  let r := setupRun j s bad (fun p s =>
    ((s.setReg (wPipe p + 0x20030) lc).setReg (wPipe p + 0x20034) ac).setReg (wPipe p + 0x20038) at_)
  if maskList (j.byte 0 4) = [] ∨ bad then r
  else (forEach (rangeFrom 0 8) (fun p s => s.setReg (wPipe p + 0x2003C) kk) r.1, r.2)

/-- Operation 3: the learning seeds, while the table holds no entry (R142). -/
def setupLearnSeeds (j : Job) (s : State) : Answer :=
  let busy (p : Nat) : Bool := decide ((s.pipe p).learn ≠ []) &&
    (rangeFrom 0 4).any (fun w => decide (s.reg (wPipe p + 0x20010 + 4 * w) ≠ j.le (8 + 4 * w) 4))
  if j.only [(4, 2), (8, 16)] ∧ (maskList (j.byte 0 4)).any busy then failA s St.SEED_BUSY
  else setupRun j s (!j.only [(4, 2), (8, 16)])
    (fun p s => forEach (rangeFrom 0 4) (fun w s => s.setReg (wPipe p + 0x20010 + 4 * w) (j.le (8 + 4 * w) 4)) s)

/-- Operation 4: the EM and ECMP seeds, device-wide (R142, R177). -/
def setupEmSeeds (j : Job) (s : State) : Answer :=
  let bad := !j.only [(4, 2), (8, 16)] || decide (j.byte 0 4 ≠ 0xFF)
  let differs (k : Nat) : Bool := decide (s.reg (wPipe 0 + 0x20020 + 4 * k) ≠ j.le (8 + 4 * k) 4)
  let emHeld := decide (s.em.used ≠ [])
  let nhHeld := (rangeFrom 0 8).any (fun p => decide ((s.pipe p).nexthop ≠ []))
  if !bad && ((emHeld && (differs 0 || differs 1 || differs 2)) || (nhHeld && differs 3)) then failA s St.SEED_BUSY
  else setupRun j s bad
    (fun p s => forEach (rangeFrom 0 4) (fun k s => s.setReg (wPipe p + 0x20020 + 4 * k) (j.le (8 + 4 * k) 4)) s)

/-- Operation 5: a tenant's learn-notice queue (R155, R177). -/
def setupEventQ (j : Job) (s : State) : Answer :=
  let t := j.byte 0 6
  let i := j.le 8 2
  let isEvent := match s.findQ (s.jobFn j) i with
    | some q => decide ((s.queue q).typ = .event)
    | none => false
  if t < 4 ∧ s.tenantOwner 0 t ≠ s.jobFn j then failA s St.NOT_OWNER
  else setupRun j s (!j.only [(4, 3), (8, 2)] || decide (4 ≤ t) || !(decide (i = 0xFFFF) || (decide (1 ≤ i ∧ i ≤ 511) && isEvent)))
    (fun p s => s.wr (tenantBase p t) Reg.PIPE_TENANT_A_EVENT_Q i)

/-! ### TABLE_LOOKUP and TABLE_DUMP (R174, R176, R177) -/

/-- A lookup of the EM table as a packet makes it, without a fill: the entry and EM_WHERE. -/
def State.emPeek (s : State) (p : Nat) (key : List Byte) (e : Nat) : Option (List Byte) × Nat :=
  let way := s.cacheWay p key
  let cached := match way with
    | some w => w.copies.find? (fun r => liveIn 2 e r)
    | none => none
  match cached, (s.pipe p).emStash.find? (fun x => decide (emKey x.2 = key) && liveIn 2 e x.2) with
  | some r, _ => (some r, 0)
  | none, some x => (some x.2, 1)
  | none, none =>
    if way.any (fun w => w.copies.isEmpty) then (none, 0)
    else if s.anyOffline then (none, 2)
    else match s.bucketFind (s.emB1 key) key e with
      | some r => (some r, 2)
      | none => (if s.spillCnt (s.emB1 key) = 0 then none else s.bucketFind (s.emB2 key) key e, 2)

/-- TABLE_LOOKUP (log entry 28). -/
def tableLookup (j : Job) (s : State) : Answer :=
  let t := j.byte 0 5
  match oneOf (j.byte 0 4) with
  | none => failA s St.MASK_INVALID
  | some p =>
    let f := s.jobFn j
    let e := if j.byte 0 6 = 2 then s.parity p else j.byte 0 6 % 2
    let n := if t = 0 then 8 else if t = 1 then 21 else if t = 2 then 20 else 4
    let key := s.hostRd (s.jobLink j) (j.le 8 8) n
    let tenant := if t = 0 then lrTenant key else imB key 20 % 4
    let read := s.countMoved 30 n
    if 3 < t ∨ 2 < j.byte 0 6 then failA s St.SETUP_INVALID
    else if 2 ≤ t ∧ f ≠ s.owner then failA s St.NOT_OWNER
    else if t ≤ 1 ∧ s.tenantOwner p tenant ≠ f then failA read St.NOT_OWNER
    else if t = 3 ∧ 131072 ≤ leNat key then failA read St.NH_RANGE
    else
      let r : Option (List Byte) × Nat :=
        match t with
        | 0 => ((s.learnFind p key e).map (s.learnAt p), 3)
        | 1 => s.emPeek p (emKey key) e
        | 2 => (s.lpmFind p (rtVrf key) (rtAf key) (key.take (if rtAf key = 0 then 4 else 16)) e, 3)
        | _ => ((some (s.nhAt p (leNat key))).filter (fun r => liveIn 4 e r), 3)
      let s1 := match r.1 with
        | some x => read.jobWrite j (j.le 16 8) (padTo 32 x)
        | none => read
      okRes s1 [BitVec.ofNat 8 (b2n r.1.isSome), BitVec.ofNat 8 r.2]

/-- A number put into a rising list, once. -/
def sortNats (l : List Nat) : List Nat := distinct l

/-- Positions of EM buckets that memory lists, lowest first. -/
def State.emListed (s : State) : List Nat :=
  sortNats (s.dram.filterMap (fun c =>
    let o := stackOff c.1
    if o < 2 ^ 29 then some (4 * (stackOf c.1 + 4 * (o / 128)) + o % 128 / 32) else none))

/-- TABLE_DUMP: positions are visited in rising order from the cursor, which is a position. -/
def tableDump (j : Job) (s : State) : Answer :=
  let t := j.byte 0 5
  match oneOf (j.byte 0 4) with
  | none => failA s St.MASK_INVALID
  | some p =>
    if 1 < t then failA s St.SETUP_INVALID
    else
      let f := s.jobFn j
      let size := if t = 0 then 16 else 32
      let pos := if t = 0 then (s.pipe p).learn.map (·.1) else s.emListed ++ (s.pipe p).emStash.map (fun e => emStash0 + e.1)
      let at_ (k : Nat) : List Byte := if t = 0 then s.learnAt p k else s.emAt p k
      let tenant (r : List Byte) : Nat := if t = 0 then lrTenant r else imB r 20 % 4
      let l := pos.filter (fun k => decide (j.le 20 4 ≤ k) && at_ k != [] && decide (s.tenantOwner p (tenant (at_ k)) = f))
      let n := min 16777215 (min l.length (j.le 16 4 / size))
      let next := match l.drop n with
        | k :: _ => k
        | [] => 0xFFFFFFFF
      okRes (s.jobWrite j (j.le 8 8) ((l.take n).flatMap at_)) (leBytes 3 n ++ leBytes 4 next)

/-- A TABLE_SETUP row: the job's operation must be the row's, and an operation without a row is the profile row's to
refuse (R177). -/
def setupRow (op : Nat) (j : Job) (s : State) (owner : Bool) (body : Job → State → Answer) : Out :=
  if j.byte 0 5 = op ∨ (op = 0 ∧ 5 < j.byte 0 5) then
    jobRow { op := 0x48, owner := owner } j s (if j.byte 0 5 = op then body else fun j s => setupRun j s true (fun _ s => s))
  else .next s

/-! ### Rows -/

/-- Row EM_BUCKET_READ_RETURN: the read of the packet of frame i. -/
def execEmBucketReadReturn (p : Fin 8) (i : Nat) (ok : Bool) (s : State) : Out := .next (s.bucketReturn p.val i ok)
/-- Row TABLE_SETUP_PROFILE. -/
def execTableSetupProfile (j : Job) (s : State) : Out := setupRow 0 j s true setupProfile
/-- Row TABLE_SETUP_PORT. -/
def execTableSetupPort (j : Job) (s : State) : Out := setupRow 1 j s true setupPort
/-- Row TABLE_SETUP_LEARN_AGE. -/
def execTableSetupLearnAge (j : Job) (s : State) : Out := setupRow 2 j s true setupLearnAge
/-- Row TABLE_SETUP_LEARN_SEEDS. -/
def execTableSetupLearnSeeds (j : Job) (s : State) : Out := setupRow 3 j s true setupLearnSeeds
/-- Row TABLE_SETUP_EM_SEEDS. -/
def execTableSetupEmSeeds (j : Job) (s : State) : Out := setupRow 4 j s true setupEmSeeds
/-- Row TABLE_SETUP_EVENT_Q. -/
def execTableSetupEventQ (j : Job) (s : State) : Out := setupRow 5 j s false setupEventQ
/-- Row TABLE_LOOKUP. -/
def execTableLookup (j : Job) (s : State) : Out := jobRow { op := 0x49, owner := false } j s tableLookup
/-- Row TABLE_DUMP. -/
def execTableDump (j : Job) (s : State) : Out := jobRow { op := 0x4A, owner := false } j s tableDump

end Sys2Proof.Machine
end

