-- ==== Sys2Proof/Machine/Update.lean ====
section
/-!
DEFINITION. Table writes: the update unit and what a write does when it lands, the steps of an EM update, normalisation,
UPD commands and epoch batches (ch. 6; R118 to R122, R163 to R165).
-/
namespace Sys2Proof.Machine

/-! ### Presented writes (R190) -/

/-- Whether the update unit may present a write now: EM writes of a settled or aborting batch wait while a stack is
offline (R204). -/
def State.mayPresent (s : State) (t : Nat) (op : WOp) : Bool :=
  match op with
  | .norm _ | .undo _ => !(decide (t = 2) && s.anyOffline)
  | _ => true

/-- The next write of the update unit: one of an update or an abort, else a normalisation write (R195, R205). A write that
waits for a stack holds up none behind it (R204). -/
def State.nextWrite (s : State) (p : Nat) : Option (Write × List Write) :=
  let y := s.pipe p
  match y.unit.find? (fun w => s.mayPresent w.table w.op) with
  | some w => some (w, y.unit.erase w)
  | none =>
    if s.rdb (wPipe p) Reg.PIPE_UPD_STATUS_NORMALISING && !s.halting then
      (y.norm.find? (fun e => s.mayPresent e.table (.norm e))).map (fun e => ({ table := e.table, op := .norm e }, y.unit))
    else none

/-- A write presented now, with STEAL_GAP as it stands (R206): a wait of 0 has expired at once (R23). -/
def State.showWrite (s : State) (p : Nat) (w : Write) : Shown :=
  { write := w, order := (s.pipe p).shows, gap := s.rd (wPipe p) Reg.PIPE_UPD_CFG_STEAL_GAP,
    expired := decide (s.rd (wPipe p) Reg.PIPE_UPD_CFG_STEAL_WAIT = 0) }

/-- The update unit and the learn arbiter present their next writes where they present none. -/
def State.present (s : State) (p : Nat) : State :=
  let s1 := match (s.pipe p).shown, s.nextWrite p with
    | none, some (w, t) =>
      s.setPipe p { s.pipe p with unit := t, shown := some (s.showWrite p w), shows := (s.pipe p).shows + 1 }
    | _, _ => s
  match (s1.pipe p).arbShown, (s1.pipe p).arbWrites with
  | none, w :: t =>
    s1.setPipe p { s1.pipe p with arbWrites := t, arbShown := some (s1.showWrite p w), shows := (s1.pipe p).shows + 1 }
  | _, _ => s1

/-- Writes given to a pipeline's update unit, or to its learn arbiter when they are host writes to the learning table
(R149). -/
def State.giveWrites (s : State) (p : Nat) (l : List Write) : State :=
  let y := s.pipe p
  let own := l.filter (fun w => decide (w.table = 1 ∧ w.job.isSome))
  let rest := l.filter (fun w => !decide (w.table = 1 ∧ w.job.isSome))
  (s.setPipe p { y with unit := y.unit ++ rest, arbWrites := y.arbWrites ++ own }).present p

/-- A shown write that is not a normalisation write. -/
def Shown.isUpdate (w : Shown) : Bool :=
  match w.write.op with
  | .norm _ => false
  | _ => true

/-- Whether a pipeline's update unit has no update or undo write that it can land (R204). -/
def State.unitIdle (s : State) (p : Nat) : Bool :=
  let y := s.pipe p
  !(y.unit.any (fun w => s.mayPresent w.table w.op)) && !(y.shown.any Shown.isUpdate)

/-- Whether a learn arbiter has no write to land (R149). -/
def Pipe.arbIdle (y : Pipe) : Bool := y.arbWrites.isEmpty && y.arbShown.isNone

/-- Every write that a pipeline has still to land, but for normalisation. -/
def Pipe.writes (y : Pipe) : List Write :=
  y.unit ++ y.arbWrites ++ (y.shown.map (·.write)).toList ++ (y.arbShown.map (·.write)).toList

/-! ### Normalisation and undo (R195, R197, R202) -/

/-- Steps put at the end of those of EM. -/
def State.addSteps (s : State) (l : List EmStep) : State := { s with em := { s.em with steps := s.em.steps ++ l } }

/-- A record with another liveness; 0 frees it. -/
def reliveRec (r : List Byte) (new : Nat) : List Byte := if new = 0 then [] else setLive 2 r new

/-- The counts of an EM key, where copies of it that s held have been freed (R160, R174). -/
def State.emFreed (t s : State) (key : List Byte) (new : Nat) : State :=
  if new = 0 then t.emSettle key (!(s.emOuts key).isEmpty) (!(s.emCopies key).isEmpty) else t

/-- Copies of an EM key in buckets with liveness `old` get `new`. A liveness of 0 frees them, with the key's counts, and
stash entries are tried in each bucket that gains a free slot (R160, R165, R174). -/
def State.emBuckets (s : State) (key : List Byte) (old new : Nat) : State :=
  let held := (s.emCopies key).filter (fun k => decide (k < emStash0 ∧ recLive 2 (s.emAt 0 k) = old))
  let s1 := (forEach held (fun k s => s.emWrite k (reliveRec (s.emAt 0 k) new)) s).emFreed s key new
  if new = 0 then s1.addSteps (held.map (fun k => .place (k / 4))) else s1

/-- Copies of an EM key in pipeline p's stash copy with liveness `old` get `new`. -/
def State.emStashed (s : State) (p : Nat) (key : List Byte) (old new : Nat) : State :=
  (forEach ((s.pipe p).emStash.filter (fun e => decide (emKey e.2 = key ∧ recLive 2 e.2 = old)))
    (fun e s => s.setStash p e.1 (reliveRec e.2 new)) s).emFreed s key new

/-- Copies of an identity with liveness `old` get `new`; of EM, those in pipeline p's stash copy and in the buckets. -/
def State.relive (s : State) (t p : Nat) (ident : List Byte) (old new : Nat) : State :=
  if t = 2 then (s.emBuckets ident old new).emStashed p ident old new
  else forEach ((s.copiesOf t p ident).filter (fun k => decide (recLive t (s.tblAt t p k) = old)))
    (fun k s => s.tblLive t p k new) s

/-- The liveness of the copies that a normalisation write changes, and the one that it gives them (R195): the new copy
becomes live in the old parity too, the old copy is freed. -/
def JEntry.change (e : JEntry) (c : Nat) : Nat × Nat := if e.fresh then (2 ^ c, 3) else (2 ^ (1 - c), 0)

/-- The bucket copies of an EM journal entry are normalised, once for all pipelines. -/
def State.normBuckets (s : State) (p : Nat) (e : JEntry) : State :=
  let x := e.change (s.parity p)
  if s.em.normed.contains e then s
  else
    let t := s.emBuckets e.ident x.1 x.2
    { t with em := { t.em with normed := e :: t.em.normed } }

/-- A normalisation write in pipeline p (R195). Of EM, the buckets are written once, by the first pipeline's write, and
each pipeline's stash copy in its own slot (R167). -/
def State.normalise (s : State) (p : Nat) (e : JEntry) : State :=
  let x := e.change (s.parity p)
  if e.table = 2 then (s.normBuckets p e).emStashed p e.ident x.1 x.2 else s.relive e.table p e.ident x.1 x.2

/-- The undo of a journal entry (R202): a new copy is freed, a copy made dead in the next parity is live in it again. -/
def State.undoEntry (s : State) (p : Nat) (e : JEntry) : State :=
  let c := s.parity p
  if e.fresh then s.relive e.table p e.ident (2 ^ (1 - c)) 0 else s.relive e.table p e.ident (2 ^ c) 3

/-- A pipeline's list of normalisation writes replaced; the last one to go ends NORMALISING (R198). -/
def State.setNorm (s : State) (p : Nat) (l : List JEntry) : State :=
  let s1 := (s.setPipe p { s.pipe p with norm := l }).wr (wPipe p) Reg.PIPE_UPD_JOURNAL_NORM_PENDING l.length
  let left := s1.em.normed.filter (fun e => (rangeFrom 0 8).any (fun q => (s1.pipe q).norm.contains e))
  let s2 : State := { s1 with em := { s1.em with normed := left } }
  if l = [] then s2.wr (wPipe p) Reg.PIPE_UPD_STATUS_NORMALISING 0 else s2

/-- Pipelines that see the same entries of table t as p. -/
def sharers (t p : Nat) : List Nat := if t = 2 then rangeFrom 0 8 else if t = 3 then [lpmPipe p, lpmPipe p + 1] else [p]

/-- The normalisation writes that the pipelines `qs` still have to make to an identity. -/
def State.normsOf (s : State) (qs : List Nat) (t : Nat) (ident : List Byte) : List JEntry :=
  (qs.flatMap (fun q => (s.pipe q).norm.filter (fun e => decide (e.table = t ∧ e.ident = ident)))).eraseDups

/-- The normalisation writes to an identity made by the pipelines `qs`. -/
def State.normHere (s : State) (qs : List Nat) (t : Nat) (ident : List Byte) : State :=
  let mine (e : JEntry) : Bool := decide (e.table = t ∧ e.ident = ident)
  let l := s.normsOf qs t ident
  if l = [] then s
  else
    let s1 := forEach l (fun e s => forEach qs (fun q s => s.normalise q e) s) s
    forEach qs (fun q s =>
      let moot := match (s.pipe q).shown with
        | some w => (match w.write.op with
          | .norm e => mine e
          | _ => false)
        | none => false
      let s2 := s.setNorm q ((s.pipe q).norm.filter (fun e => !mine e))
      if moot then (s2.setPipe q { s2.pipe q with shown := none }).present q else s2) s1

/-- A write to an identity that awaits normalisation first applies that, in the same slot (R197): of EM, in the stash copy
of the pipeline whose slot it is (R167; log entry 203). -/
def State.normFirst (s : State) (t p : Nat) (ident : List Byte) : State :=
  s.normHere (if t = 2 then [p] else sharers t p) t ident

/-- The tables as they stand once every pipeline that shares an identity has normalised it: what an update is judged by
(R197). -/
def State.normAll (s : State) (t p : Nat) (ident : List Byte) : State := s.normHere (sharers t p) t ident

/-- The bucket copies of an EM key normalised, with the bucket write of an update (R189, R197). -/
def State.normKey (s : State) (key : List Byte) : State :=
  forEach (s.normsOf (rangeFrom 0 8) 2 key) (fun e s => s.normBuckets 0 e) s

/-! ### Learn notices to EVENT queues (R155) -/

/-- A change of an entry is noted for its tenant's EVENT queue, when it has one. -/
def State.notePost (s : State) (p : Nat) (r : List Byte) (kind old : Nat) : State :=
  let t := lrTenant r
  if s.rd (tenantBase p t) Reg.PIPE_TENANT_A_EVENT_Q = 0xFFFF then s
  else s.setPipe p { s.pipe p with posts := (s.pipe p).posts ++
    [(t, padTo 16 r ++ leBytes 1 kind ++ leBytes 1 p ++ leBytes 3 old)] }

/-- STATION_FLAP and LOCK_RELEASED carry the key and the port of an entry (R179). -/
def State.lockEvent (s : State) (code p : Nat) (r : List Byte) : State :=
  s.event code p (beNat (r.take 4)) (beNat (slice r 4 2) * 65536 + imH r 6) (2 ^ 24 * p + lrPort r)

/-- LOCK_RELEASED of a lock that the sweep of v0 to v7 releases, by its firmware (R151, R244, R590). -/
def State.sweepEvent (s : State) (p : Nat) (r : List Byte) : State :=
  s.eventFw Ev.LOCK_RELEASED p (beNat (r.take 4)) (beNat (slice r 4 2) * 65536 + imH r 6) (2 ^ 24 * p + lrPort r)

/-! ### What a write does in its slot (R119, R122, R150 to R154, R167, R188, R195) -/

/-- A host's learning record as stored (R182). -/
def State.hostLearn (s : State) (p : Nat) (r : List Byte) : List Byte :=
  r.take 12 ++ [0, BitVec.ofNat 8 s.seconds] ++ leBytes 2 (s.tick p)

/-- The later of two tick counts (R153). -/
def laterTick (a b : Nat) : Nat := if (a + 65536 - b) % 65536 < 32768 then a else b

def State.writeOp (s : State) (p : Nat) (w : Write) : State :=
  let t := w.table
  match w.op with
  | .put k r =>
    if t = 1 ∧ w.job.isSome then
      let old := s.learnAt p k
      let s1 := (s.normFirst 1 p (learnKey r)).setLearn p k (s.hostLearn p r)
      if lrLocked old then (s1.lockEvent Ev.LOCK_RELEASED p (s.hostLearn p r)).notePost p (s.hostLearn p r) 4 0 else s1
    else (s.normFirst t p (identOf t r k)).tblSet t p k r
  | .live ident old new => (s.normFirst t p ident).relive t p ident old new
  | .stage r => s.setPipe p { s.pipe p with staging := r }
  | .pair k r => ((s.normFirst 0 p (leBytes 4 k)).setMortise p k r).setMortise p (k + 1) (setLive 0 (s.pipe p).staging (recLive 0 r))
  | .copy a b v =>
    let s0 := (s.normFirst 0 p (leBytes 4 a)).normFirst 0 p (leBytes 4 b)
    let s1 := s0.setMortise p b (setLive 0 (s0.tblAt 0 p a) v)
    if (imB (s0.tblAt 0 p a) 162).testBit 2 then s1.setMortise p (b + 1) (setLive 0 (s0.tblAt 0 p (a + 1)) v) else s1
  | .em key => (s.normFirst 2 p key).cacheWritten p key
  | .stash k r =>
    let x := if r = [] then s.emAt p (emStash0 + k) else r
    let key := emKey x
    let s0 := s.normFirst 2 p key
    if x = [] then s
    else ((s0.setStash p k r).emSettle key (!(s0.emOuts key).isEmpty) (!(s0.emCopies key).isEmpty)).cacheWritten p key
  | .slot => s
  | .norm e =>
    if (s.pipe p).norm.contains e then
      let s1 := (s.normalise p e).setNorm p ((s.pipe p).norm.erase e)
      if t = 2 then s1.cacheWritten p e.ident else s1
    else s
  | .undo e =>
    let s1 := (s.normFirst t p e.ident).undoEntry p e
    if t = 2 then s1.cacheWritten p e.ident else s1
  | .lcopy a b =>
    let s0 := s.normFirst 1 p (learnKey (s.learnAt p a))
    s0.setLearn p b (s0.learnAt p a)
  | .ldel a b =>
    let s0 := s.normFirst 1 p (learnKey (s.learnAt p a))
    let x := s0.learnAt p b
    let s1 := if x = [] then s0 else s0.setLearn p b (withHit x (laterTick (imH (s0.learnAt p a) 14) (imH x 14)))
    s1.setLearn p a []
  | .age k =>
    let r := s.learnAt p k
    let s1 := s.setLearn p k []
    if lrLocal r then s1.notePost p (setLive 1 r 0) 2 0 else s1
  | .unlock k =>
    let s0 := s.normFirst 1 p (learnKey (s.learnAt p k))
    let r := s0.learnAt p k
    let x := learnRec (learnKey r) (lrPort r) (lrStatic r) false (lrLocal r) (recLive 1 r) (256 * (s.seconds % 256)) (imH r 14)
    if r = [] then s0 else ((s0.setLearn p k x).sweepEvent p x).notePost p x 4 0
  | .still k =>
    let s0 := s.normFirst 1 p (learnKey (s.learnAt p k))
    if s0.learnAt p k = [] then s0 else s0.setLearn p k (putBytes (s0.learnAt p k) 12 [0])

/-! ### The steps of an EM update (R163 to R165, R167) -/

/-- Whether EM writes of an update are still to land in some pipeline. -/
def State.emBusy (s : State) : Bool :=
  (rangeFrom 0 8).any (fun p => (s.pipe p).writes.any (fun w => decide (w.table = 2) && (match w.op with
    | .undo _ | .norm _ => false
    | _ => true)))

/-- One slot in every pipeline (R167). -/
def State.emSlots (s : State) (op : WOp) : State :=
  forEach (rangeFrom 0 8) (fun p s => s.giveWrites p [{ table := 2, op := op }]) s

/-- Outstanding lookups that have read a bucket, of packets and of microcode (R164). -/
def State.emOutstanding (s : State) : List Nat :=
  (rangeFrom 0 8).flatMap (fun p => (s.pipe p).packets.filterMap (fun x => x.em.map (·.id))) ++
    s.tenon.reqs.filterMap (fun r => r.emId)

/-- The moves that place stash entries in a bucket with free slots (R165): one for each free slot. -/
def State.placeSteps (s : State) (b : Nat) : List EmStep :=
  let free := (rangeFrom (4 * b) 4).filter (fun k => s.emAt 0 k = [])
  let held := s.emHeld.filter (fun k =>
    let key := emKey (s.emAll k)
    decide (s.emB1 key = b ∨ s.emB2 key = b))
  (held.zip free).flatMap (fun e => [.move e.1 e.2, .moved e.1 e.2])

/-- The steps of EM replaced; a move waits for no lookup yet. -/
def State.setSteps (s : State) (l : List EmStep) : State := { s with em := { s.em with steps := l, waitFor := none } }

/-- Whether a move has its entry at both its positions (R164): one that has been freed meanwhile is not there. -/
def State.moveWhole (s : State) (a b : Nat) : Bool :=
  let x := s.emAll a
  let y := s.emAll b
  x != [] && y != [] && decide (emKey x = emKey y)

/-- Copies of a key with one liveness get another, as one step of an update: bucket copies at once, stash copies in each
pipeline's slot (R167, R189), once normalised (R197). -/
def State.emLiveStep (s : State) (key : List Byte) (old new : Nat) : State :=
  let v := s.normAll 2 0 key
  let stashed := v.emHeld.filter (fun k => decide (emKey (v.emAll k) = key ∧ recLive 2 (v.emAll k) = old))
  let s1 := ((s.normKey key).emBuckets key old new).repin key
  if stashed = [] then s1.emSlots (.em key)
  else forEach stashed (fun k s => s.emSlots (.stash (k - emStash0) (reliveRec (v.emAll k) new))) s1

/-- An entry is put at a position, its key normalised first (R163, R197). A key that SPILL_CNT counts already is not counted
again (R160). -/
def State.emPut (s : State) (k : Nat) (r : List Byte) (t : List EmStep) : State :=
  let key := emKey r
  let s1 := s.normKey key
  let more := s1.em.steps.drop s.em.steps.length
  let rest := (if s1.emSpilled key k && !(s1.emOuts key).isEmpty then t.erase (.raise key) else t) ++ more
  if emStash0 ≤ k then (s1.setSteps rest).emSlots (.stash (k - emStash0) r)
  else (((s1.setSteps rest).emWrite k r).repin key).emSlots (.em key)

/-- The steps go on until one has slots to land or waits for lookups; at most n of them. An entry that awaits
normalisation is normalised before it moves (R197), and one that has been freed meanwhile is not moved. -/
def State.emAdvance (s : State) : Nat → State
  | 0 => s
  | n + 1 =>
    if s.emBusy || s.anyOffline || s.halting then s
    else
      match s.em.steps with
      | [] => s
      | .put k r :: t => s.emPut k r t
      | .live key old new :: t => (s.setSteps t).emLiveStep key old new
      | .move a b :: t =>
        let key := emKey (s.emAll a)
        let x := (s.normAll 2 0 key).emAll a
        let s1 := (s.setSteps t).normKey key
        if x = [] ∨ s1.emAll b ≠ [] then (s1.setSteps (s1.em.steps.drop 1)).emAdvance n
        else (s1.emWrite b x).emSlots (.em key)
      | .moved a b :: t =>
        if s.moveWhole a b = false then (s.setSteps t).emAdvance n
        else if s.em.waitFor = none then { s with em := { s.em with waitFor := some s.emOutstanding } }
        else s
      | .raise key :: t => ((s.setSteps t).spillUp (s.emB1 key)).emSlots .slot
      | .lower b :: t => ((s.setSteps t).spillDown b).emSlots .slot
      | .done j :: t => ((s.setSteps t).complete j St.SUCCESS []).emAdvance n
      | .place b :: t => (s.setSteps (s.placeSteps b ++ t)).emAdvance n

/-- Step 3 of a move, once the lookups that it waits for have delivered: the old copy goes, and SPILL_CNT of the key's
first bucket follows, in the same write where it rises and in a further write where it falls (R164). -/
def State.emMoveRemove (s : State) : State :=
  match s.em.steps, s.em.waitFor with
  | .moved a b :: t, some l =>
    let n := s.normKey (emKey (s.emAll a))
    let rest := t ++ n.em.steps.drop s.em.steps.length
    if s.emBusy || s.anyOffline || s.halting || l.any (fun i => s.emOutstanding.contains i) then s
    else if n.moveWhole a b = false then (n.setSteps rest).emAdvance 64
    else
      let key := emKey (n.emAll a)
      let s1 := n.setSteps rest
      if emStash0 ≤ a then s1.emSlots (.stash (a - emStash0) [])
      else
        let s2 := s1.emWrite a []
        let was := !(n.emOuts key).isEmpty
        let is := !(s2.emOuts key).isEmpty
        let s3 := if !was && is then s2.spillUp (n.emB1 key) else s2
        (if was && !is then s3.setSteps (.lower (n.emB1 key) :: rest) else s3).emSlots (.em key)
  | _, _ => s

/-! ### The record of an UPD command (R181 to R184) -/

/-- Records: the only one, or the head and the tail of a wide pair (R182). -/
def updRecord (j : Job) (m n : Nat) : List Byte := ((rangeFrom m 7).flatMap (fun k => j.bytes k 4 28)).take n

/-- Continuations that a table's record takes (R182). -/
def updLen (t : Nat) (wide : Bool) : Nat := if t = 0 then (if wide then 14 else 7) else if t = 1 then 1 else 2

/-- Length of a table's record. -/
def recSize (t : Nat) : Nat := if t = 0 then 176 else if t = 1 then 16 else 32

def zeroIn (r : List Byte) (a n : Nat) : Bool := decide (leNat (padTo n (slice r a n)) = 0)

/-- Whether a record is one that R108, R146, R159, R170 or R172 refuses; a deleting record carries its identity only
(R182, R184). -/
def badRecord (t : Nat) (del tail : Bool) (r : List Byte) : Bool :=
  match t with
  | 0 => if del then !zeroIn r 0 176
         else decide (imB r 162 / 16 ≠ 0 ∨ imB r 162 % 4 ≠ 0) || !zeroIn r 163 1 || !zeroIn r 172 4 ||
           (tail && !(zeroIn r 160 2 && zeroIn r 164 8))
  | 1 => decide (2 ^ 23 ≤ imW r 8) || !zeroIn r 12 4 || (del && !zeroIn r 8 8)
  | 2 => decide (128 ≤ imB r 20 ∨ 2 ≤ imB r 27) || !zeroIn r 21 3 || (del && (!zeroIn r 24 8 || (imB r 20).testBit 6))
  | 3 => decide (2 ≤ imB r 17 ∨ 4096 ≤ imH r 18 ∨ 2 ≤ imB r 23) || !zeroIn r 24 8 || (del && !zeroIn r 20 12)
  | _ =>
    let k := imB r 0
    let n := imH r 2
    let g := imW r 4
    if del then !zeroIn r 0 32
    else decide (5 ≤ k ∨ (k ≠ 2 ∧ n ≠ 0) ∨ (k = 2 ∧ (n = 0 ∨ 256 < n)) ∨ 2 ^ 22 ≤ g ∨ (k = 1 ∧ 65536 ≤ g) ∨
        (k = 3 ∧ g ≠ 0) ∨ (k = 4 ∧ 4 ≤ g) ∨ 2 ^ 13 ≤ imH r 14) || !zeroIn r 24 8

/-- Whether a route is one that R170 refuses: PREFIX_INVALID. -/
def badPrefix (r : List Byte) : Bool :=
  let w := if rtAf r = 0 then 32 else 128
  decide (w < rtLen r ∨ beNat (r.take 16) % 2 ^ (128 - rtLen r) ≠ 0)

/-! ### Plans (R185, R186, R188, R195) -/

/-- What an accepted update will do. -/
structure Plan where
  writes : List (Nat × Write) := []
  steps : List EmStep := []
  add : List JEntry := []
  drop : List JEntry := []
  /-- EM entries that it adds (R174). -/
  grows : Nat := 0
  deriving DecidableEq, Repr

/-- The fields of an UPD command. -/
structure UpdCmd where
  op : Nat := 0
  fn : Nat := 0
  table : Nat := 0
  mask : Nat := 0
  wide : Bool := false
  index : Nat := 0
  target : Nat := 0
  recd : List Byte := []
  tail : List Byte := []
  job : Job
  batched : Bool := false
  deriving DecidableEq, Repr

def updCmd (s : State) (j : Job) : UpdCmd :=
  let t := j.bits 5 2 0
  let w := decide (t = 0) && j.bit 6 1
  { op := j.opcode, fn := s.jobFn j, table := t, mask := j.byte 0 4, wide := w, index := j.le 12 4, target := j.le 16 4,
    recd := updRecord j 1 (recSize t), tail := if w then updRecord j 8 176 else [], job := j, batched := j.bit 6 0 }

/-- Writes of one pipeline's entry; the other pipeline of an LPM pair gives a slot for each (R171). -/
def UpdCmd.writesAt (c : UpdCmd) (p : Nat) (l : List WOp) : List (Nat × Write) :=
  l.flatMap (fun op => (p, ({ table := c.table, op := op, job := some c.job } : Write)) ::
    (if c.table = 3 then [(p + 1, ({ table := 3, op := .slot, job := some c.job } : Write))] else []))

/-- Why Mortise refuses a write at index x: INDEX_RANGE, NOT_OWNER, KEY_WIDTH (R119, R121). -/
def State.mortiseRefuses (s : State) (p : Nat) (c : UpdCmd) (x : Nat) (flags : Bool) : Option Nat :=
  match s.rangeOf p x with
  | none => some St.INDEX_RANGE
  | some m =>
    if m.owner ≠ c.fn then some St.NOT_OWNER
    else if m.wide ≠ c.wide ∨ (m.wide ∧ x % 2 = 1) ∨
        (flags ∧ (imB c.recd 162 / 4 % 4 ≠ (if m.wide then 1 else 0) ∨ (m.wide ∧ imB c.tail 162 / 4 % 4 ≠ 2))) then some St.KEY_WIDTH
    else none

/-- Why a table refuses a command in pipeline p, whatever it holds: R121, R169, R172, R174. -/
def State.tableRefuses (s : State) (p : Nat) (c : UpdCmd) : Option Nat :=
  match c.table with
  | 0 =>
    match s.mortiseRefuses p c c.index (decide (c.op ≤ 0x41)) with
    | some e => some e
    | none => if c.op = 0x43 then s.mortiseRefuses p c c.target false else none
  | 1 => if s.tenantOwner p (lrTenant c.recd) ≠ c.fn then some St.NOT_OWNER else none
  | 2 =>
    if s.tenantOwner 0 (imB c.recd 20 % 4) ≠ c.fn then some St.NOT_OWNER
    else if s.anyOffline then some St.TABLE_OFFLINE else none
  | 3 => if c.fn ≠ s.owner then some St.NOT_OWNER else if badPrefix c.recd then some St.PREFIX_INVALID else none
  | _ =>
    if c.fn ≠ s.owner then some St.NOT_OWNER
    else if 131072 ≤ c.index ∨ (c.op ≤ 0x41 ∧ imB c.recd 0 % 8 = 2 ∧ 131072 < imW c.recd 4 + imH c.recd 2) then some St.NH_RANGE
    else none

/-- The comparison content of a Mortise record: all but its liveness (R120). -/
def mortiseContent (r : List Byte) : List Byte :=
  (rangeFrom 0 80).map (fun j => r.getD j 0 &&& r.getD (80 + j) 0) ++ (setLive 0 (padTo 176 r) 0).drop 80

/-- A new copy of an entry placed in a table of pipeline p with a liveness: a refusal, or its writes and steps. -/
def State.placeCopy (s : State) (p : Nat) (c : UpdCmd) (live : Nat) : Except Nat Plan :=
  let r := setLive c.table c.recd live
  let key := identOf c.table c.recd c.index
  match c.table with
  | 0 => .ok { writes := c.writesAt p (if c.wide then [.stage c.tail, .pair c.index r] else [.put c.index r]) }
  | 1 =>
    match s.learnPath p key with
    | none => .error St.TABLE_FULL
    | some l => .ok { writes := c.writesAt p (learnMoves l ++ [.put (l.headD 0) r]) }
  | 2 =>
    if (imB c.recd 20).testBit 6 && s.pinFull key then .error St.PIN_FULL
    else
      match s.emPlace key with
      | none => .error St.TABLE_FULL
      | some l =>
        let k := l.headD 0
        let x := putBytes r 22 (leBytes 2 (s.emFp key))
        .ok { steps := emMoves l ++ [.put k x] ++ (if s.emSpilled key k then [.raise key] else []),
              grows := b2n (s.emCopies key).isEmpty }
  | 3 =>
    match s.lpmFree p (rtAf c.recd) with
    | none => .error St.TABLE_FULL
    | some k => .ok { writes := c.writesAt p [.put k r] }
  | _ => .ok { writes := c.writesAt p [.put c.index r] }

/-- Copies of an identity given another liveness, as writes or steps. -/
def State.liveCopies (s : State) (p : Nat) (c : UpdCmd) (ident : List Byte) (old new : Nat) : Plan :=
  if c.table = 2 then { steps := [.live ident old new] }
  else { writes := c.writesAt p [.live ident old new] }

/-- Two plans in order. -/
def Plan.then (a b : Plan) : Plan :=
  { writes := a.writes ++ b.writes, steps := a.steps ++ b.steps, add := a.add ++ b.add, drop := a.drop ++ b.drop,
    grows := a.grows + b.grows }

/-- The journal entry of a copy in the pipelines that p's scope covers. -/
def UpdCmd.entry (c : UpdCmd) (p : Nat) (ident : List Byte) (fresh : Bool) : JEntry :=
  { table := c.table, mask := (sharers c.table p).foldl (fun a q => a + 2 ^ q) 0, ident := ident, fresh := fresh }

/-- Whether an identity belongs to an open or committing batch (R186). -/
def State.changing (s : State) (t p : Nat) (ident : List Byte) : Bool :=
  s.upd.batches.any (fun b => decide (b.st = 1 ∨ b.st = 2) &&
    b.journal.any (fun e => decide (e.table = t ∧ e.ident = ident) && e.mask.testBit p))

/-- UPD_INSERT in one scope. -/
def State.planInsert (s : State) (p : Nat) (c : UpdCmd) (ident : List Byte) : Except Nat Plan :=
  let full := (c.table = 1 ∧ s.rd (tenantBase p (lrTenant c.recd)) Reg.PIPE_TENANT_C_LEARN_QUOTA ≤ s.learnUsed p (lrTenant c.recd)) ∨
    (c.table = 2 ∧ s.rd (tenantBase 0 (imB c.recd 20 % 4)) Reg.PIPE_TENANT_B_EM_QUOTA ≤ s.emUsed (imB c.recd 20 % 4))
  if s.copiesOf c.table p ident ≠ [] ∨ (c.wide ∧ s.tblAt 0 p (c.index + 1) ≠ []) then .error St.EXISTS
  else if full then .error St.QUOTA_EXCEEDED
  else
    match s.placeCopy p c (if c.batched then 2 ^ (1 - s.parity p) else 3) with
    | .error e => .error e
    | .ok a => .ok { a with add := if c.batched then [c.entry p ident true] else [] }

/-- UPD_MODIFY of the copy at position k in one scope. -/
def State.planModify (s : State) (p : Nat) (c : UpdCmd) (ident : List Byte) (k : Nat) : Except Nat Plan :=
  let t := c.table
  let old := s.tblAt t p k
  let lv := recLive t old
  let e := s.parity p
  let same : Except Nat Plan :=
    match t with
    | 0 => .ok { writes := c.writesAt p (if c.wide then [.stage c.tail, .pair k (setLive 0 c.recd lv)] else [.put k (setLive 0 c.recd lv)]) }
    | 2 =>
      if (imB c.recd 20).testBit 6 && s.pinFull ident then .error St.PIN_FULL
      else .ok { steps := [.put k (putBytes (setLive 2 c.recd lv) 22 (leBytes 2 (s.emFp ident)))] }
    | _ => .ok { writes := c.writesAt p [.put k (setLive t c.recd lv)] }
  let changed := decide (mortiseContent c.recd ≠ mortiseContent old) ||
    (c.wide && decide (mortiseContent c.tail ≠ mortiseContent (s.tblAt 0 p (k + 1))))
  if t = 0 then (if lv.testBit e && changed then .error St.ENTRY_LIVE else same)
  else if c.batched = false ∨ lv = 2 ^ (1 - e) then same
  else if t = 4 then .error St.INDEX_LIVE
  else
    match s.placeCopy p c (2 ^ (1 - e)) with
    | .error x => .error x
    | .ok a =>
      if lv = 2 ^ e then .ok { a with add := [c.entry p ident true] }
      else .ok { a.then (s.liveCopies p c ident lv (2 ^ e)) with add := [c.entry p ident true, c.entry p ident false] }

/-- Every copy of an identity freed (R188): it has two while a batch that changed it drains or aborts. -/
def State.freeCopies (s : State) (p : Nat) (c : UpdCmd) (ident : List Byte) : Plan :=
  let lvs := ((s.copiesOf c.table p ident).map (fun k => recLive c.table (s.tblAt c.table p k))).eraseDups
  lvs.foldl (fun a lv => a.then (s.liveCopies p c ident lv 0)) {}

/-- UPD_DELETE of a copy with liveness lv in one scope. Of an entry that the batch has deleted already nothing is left to
write (log entry 56). -/
def State.planDelete (s : State) (p : Nat) (c : UpdCmd) (ident : List Byte) (lv : Nat) : Plan :=
  let e := s.parity p
  if c.batched = false then s.freeCopies p c ident
  else if lv = 2 ^ (1 - e) then { s.liveCopies p c ident lv 0 with drop := [c.entry p ident true] }
  else if lv = 2 ^ e then {}
  else { s.liveCopies p c ident lv (2 ^ e) with add := [c.entry p ident false] }

/-- UPD_MOVE of the entry at k in one scope; a TARGET that awaits normalisation is judged as that leaves it (R197). -/
def State.planMove (s0 : State) (p : Nat) (c : UpdCmd) (ident : List Byte) (k : Nat) : Except Nat Plan :=
  let tgt := leBytes 4 c.target
  let s := s0.normAll 0 p tgt
  let lv := recLive 0 (s.tblAt 0 p k)
  let e := s.parity p
  if s.tblAt 0 p c.target ≠ [] ∨ (c.wide ∧ s.tblAt 0 p (c.target + 1) ≠ []) then .error St.UPDATE_INVALID
  else if c.batched = false ∧ s.changing 0 p tgt then .error St.ENTRY_CHANGING
  else
    let live := if c.batched then 2 ^ (1 - e) else lv
    let left := if c.batched ∧ lv = 3 then 2 ^ e else 0
    let ws := c.writesAt p ((if c.wide then [.slot] else []) ++ [.copy k c.target live, .live ident lv left])
    .ok { writes := ws
          add := if c.batched then c.entry p tgt true :: (if lv = 3 then [c.entry p ident false] else []) else []
          drop := if c.batched ∧ lv ≠ 3 then [c.entry p ident true] else [] }

/-- One scope of an update: every refusal, or what it will do (R185, R186). The spec names no status for UPD_MOVE of a
source index that is free, or in a batch not live in the next parity. DESIGN CHOICE (log entry 229): NOT_FOUND. An
unbatched update of an identity with two copies takes the one that is live in the current parity. DESIGN CHOICE (log
entry 230). -/
def State.planScope (s0 : State) (p : Nat) (c : UpdCmd) : Except Nat Plan :=
  let ident := identOf c.table c.recd c.index
  let s := s0.normAll c.table p ident
  match s0.tableRefuses p c with
  | some e => .error e
  | none =>
    if c.batched = false ∧ s0.changing c.table p ident then .error St.ENTRY_CHANGING
    else if c.op = 0x40 then s.planInsert p c ident
    else
      let held := s.copiesOf c.table p ident
      let inPar (e : Nat) : Option Nat := held.find? (fun k => liveIn c.table e (s.tblAt c.table p k))
      let mine := inPar (if c.batched then 1 - s.parity p else s.parity p)
      match (if mine.isSome ∨ (c.batched ∧ c.op = 0x43) then mine else held.head?) with
      | none => .error St.NOT_FOUND
      | some k =>
        if c.op = 0x41 then s.planModify p c ident k
        else if c.op = 0x42 then .ok (s.planDelete p c ident (recLive c.table (s.tblAt c.table p k)))
        else s.planMove p c ident k

/-- The scopes of a command's mask; none where it breaks the table's rule (R184). -/
def updScopes (t m : Nat) : Option (List Nat) :=
  if t = 2 then (if m = 0xFF then some [0] else none)
  else if t = 3 then
    (if (rangeFrom 0 4).all (fun i => decide (m.testBit (2 * i) = m.testBit (2 * i + 1)))
     then some ((maskList m).filter (fun p => decide (p % 2 = 0))) else none)
  else some (maskList m)

/-- All scopes of an update: the first refusal, or the whole plan (R185). -/
def State.planAll (s : State) (c : UpdCmd) : List Nat → Except Nat Plan
  | [] => .ok {}
  | p :: t =>
    match s.planScope p c with
    | .error e => .error e
    | .ok a => match s.planAll c t with
      | .error e => .error e
      | .ok b => .ok (a.then b)

/-! ### Batches (R193 to R198) -/

def State.batch (s : State) (n : Nat) : Option Batch := s.upd.batches.find? (fun b => decide (b.num = n))

/-- JOURNAL_USED of the groups of a batch brought up to date (R207). -/
def State.journalReport (s : State) (b : Batch) : State :=
  forEach (maskList b.mask) (fun p s => s.wr (wPipe p) Reg.PIPE_UPD_JOURNAL_JOURNAL_USED b.journal.length) s

def State.setBatch (s : State) (b : Batch) : State :=
  let l := s.upd.batches.map (fun (x : Batch) => if x.num = b.num then b else x)
  ({ s with upd := { s.upd with batches := l } }).journalReport b

def State.dropBatch (s : State) (n : Nat) : State :=
  { s with upd := { s.upd with batches := s.upd.batches.filter (fun x => decide (x.num ≠ n)) } }

/-- State of every group of a batch. -/
def State.groupStates (s : State) (mask st : Nat) : State :=
  forEach (maskList mask) (fun p s => s.wr (wPipe p) Reg.PIPE_UPD_STATUS_GROUP_STATE st) s

/-- A journal entry of one update added: it serves every pipeline of that update (R195). -/
def addEntry (l : List JEntry) (e : JEntry) : List JEntry :=
  if l.any (fun x => decide (x.table = e.table ∧ x.ident = e.ident ∧ x.fresh = e.fresh)) then
    l.map (fun x => if x.table = e.table ∧ x.ident = e.ident ∧ x.fresh = e.fresh then { x with mask := x.mask ||| e.mask } else x)
  else l ++ [e]

/-- A journal entry's pipelines taken out. -/
def dropEntry (l : List JEntry) (e : JEntry) : List JEntry :=
  (l.map (fun x => if x.table = e.table ∧ x.ident = e.ident ∧ x.fresh = e.fresh then
    { x with mask := x.mask &&& (255 - e.mask) } else x)).filter (fun x => decide (x.mask ≠ 0))

/-- A batch's journal after an update: what it drops goes, and its own entries follow (R195). -/
def Plan.journal (a : Plan) (l : List JEntry) : List JEntry := a.drop.foldl dropEntry l ++ a.add.foldl addEntry []

/-- Why a batched update is refused whatever its record: NO_BATCH, NOT_OWNER, BATCH_STATE, BATCH_MASK (R193, R194, R198). -/
def State.batchRefuses (s : State) (j : Job) (c : UpdCmd) : Option Nat :=
  if c.batched = false then none
  else
    match s.batch (j.le 8 2) with
    | none => some St.NO_BATCH
    | some b =>
      if b.fn ≠ c.fn then some St.NOT_OWNER
      else if b.st ≠ 1 then some St.BATCH_STATE
      else if c.mask &&& (255 - b.mask) ≠ 0 ∨ (c.table = 2 ∧ b.mask ≠ 0xFF) then some St.BATCH_MASK
      else none

/-- Whether the structure of an UPD command is one that R181, R182 or R184 refuses. -/
def updMalformed (j : Job) (c : UpdCmd) : Bool :=
  decide (4 < c.table ∨ (c.op = 0x43 ∧ (c.table ≠ 0 ∨ j.len ≠ 1)) ∨ (c.op ≠ 0x43 ∧ j.len ≠ 1 + updLen c.table c.wide)) ||
    (updScopes c.table c.mask).isNone ||
    (decide (c.op ≠ 0x43) && (badRecord c.table (decide (c.op = 0x42)) false c.recd ||
      (c.wide && badRecord 0 (decide (c.op = 0x42)) true c.tail)))

/-- An accepted update starts: its journal entries, its steps and its writes. -/
def State.startUpdate (s : State) (j : Job) (c : UpdCmd) (a : Plan) : State :=
  let s1 := match (if c.batched then s.batch (j.le 8 2) else none) with
    | some b => s.setBatch { b with journal := a.journal b.journal, em := b.em || decide (c.table = 2) }
    | none => s
  if c.table = 2 then
    ((s1.addEmUsed (imB c.recd 20 % 4) a.grows).addSteps (a.steps ++ [.done j])).emAdvance 64
  else if a.writes = [] then s1.complete j St.SUCCESS []
  else forEach a.writes (fun w s => s.giveWrites w.1 [w.2]) s1

/-- An update refused or started, as its conditions stand (R185, R186, R196). -/
def State.updApply (s : State) (j : Job) : Except Nat State :=
  let c := updCmd s j
  match s.batchRefuses j c with
  | some e => .error e
  | none =>
    match s.planAll c ((updScopes c.table c.mask).getD []) with
    | .error e => .error e
    | .ok a =>
      let used := match s.batch (j.le 8 2) with
        | some b => (a.journal b.journal).length
        | none => 0
      if c.batched ∧ 4096 < used then .error St.BATCH_FULL else .ok (s.startUpdate j c a)

/-- Updates refused, by the pipelines of their mask (R207). -/
def State.countRefused (s : State) (mask : Nat) : State := forEach (maskList mask) (fun p s => s.pipeCount p 50 1) s

/-! ### The learn arbiter's queue (R149) -/

/-- Whether the sweep's write to an entry is still wanted (R149, R156). DESIGN CHOICE (log entry 232): when the arbiter
reaches a lock release or a clearing of MOVES, its time (LOCK_TIME, MOVE_SEC) is not tested again; an ageing write's is. -/
def State.sweepGo (s : State) (p : Nat) (key : List Byte) (op : WOp) : Bool :=
  let holds (k : Nat) : Bool := decide (s.learnAt p k ≠ [] ∧ learnKey (s.learnAt p k) = key)
  match op with
  | .age k => holds k && decide (s.rd (wPipe p) Reg.PIPE_AGE_CFG_AGE_LIMIT ≤ (s.tick p + 65536 - imH (s.learnAt p k) 14) % 65536 ∧
      recLive 1 (s.learnAt p k) = 3)
  | .unlock k => holds k && lrLocked (s.learnAt p k)
  | .still k => holds k && !lrLocked (s.learnAt p k)
  | _ => false

/-- Whether a request may be left out: a sweep's write to an entry that has changed, or an update whose function has been
reset. -/
def State.moot (s : State) (p : Nat) (r : LearnReq) : Bool :=
  match r with
  | .sweep key op => !s.sweepGo p key op
  | .host j => !s.inFlight j
  | _ => false

/-- A host's update at the head of every arbiter that it needs is refused or started (R149, R185). -/
def State.hostApply (s : State) (j : Job) : State :=
  let mask := j.byte 0 4
  let s1 := forEach (maskList mask) (fun q s => s.setPipe q { s.pipe q with arbQ := (s.pipe q).arbQ.drop 1 }) s
  match s1.updApply j with
  | .error e => (s1.countRefused mask).complete j e []
  | .ok t => t

/-- The sweep's writes and the hosts' updates that a learn arbiter reaches; a local learn or a notice is its own row's
to take. At most n requests. -/
def State.arbRun : Nat → Nat → State → State
  | 0, _, s => s
  | n + 1, p, s =>
    let y := s.pipe p
    let left := y.arbQ.dropWhile (s.moot p)
    let s1 := s.setPipe p { y with arbQ := left }
    match y.arbIdle && !s.halting, left with
    | true, .sweep _ op :: t => (s.setPipe p { y with arbQ := t, arbWrites := [{ table := 1, op := op }] }).present p
    | true, .host j :: _ =>
      let l := maskList (j.byte 0 4)
      if l.all (fun q => (s1.pipe q).arbIdle && decide ((s1.pipe q).arbQ.head? = some (.host j))) then
        forEach l (State.arbRun n) (s1.hostApply j)
      else s1
    | true, _ => s1
    | false, _ => s

/-- The learn arbiter goes on as far as it can. -/
def State.arbAdvance (s : State) (p : Nat) : State :=
  s.arbRun ((rangeFrom 0 8).foldl (fun a q => a + (s.pipe q).arbQ.length) 1) p

/-! ### UPD commands (R181 to R188) -/

/-- The pipelines of a mask note queue q, whose turn was the last (R187). -/
def State.updTurn (s : State) (mask q : Nat) : State :=
  forEach (maskList mask) (fun p s => s.setPipe p { s.pipe p with lastUpd := q }) s

/-- A host update of the learning table joins the requests of the learn arbiters of its mask, which go on (R149). -/
def State.arbJoin (s : State) (mask : Nat) (j : Job) : State :=
  forEach (maskList mask) (fun p s => s.arbAdvance p)
    (forEach (maskList mask) (fun p s => s.setPipe p { s.pipe p with arbQ := (s.pipe p).arbQ ++ [.host j] }) s)

/-- UPD_INSERT, UPD_MODIFY, UPD_DELETE and UPD_MOVE (R181 to R188, R193 to R196): an update of the learning table waits
at the learn arbiters of its mask, in order of arrival (R149). -/
def updRun (j : Job) (s : State) : Answer :=
  let c := updCmd s j
  let s1 := s.updTurn c.mask j.q
  if c.mask = 0 then okA s
  else if updMalformed j c then failA (s1.countRefused c.mask) St.UPDATE_INVALID
  else if c.table = 1 then laterA (s1.arbJoin c.mask j)
  else
    match s1.updApply j with
    | .error e => failA (s1.countRefused c.mask) e
    | .ok t => laterA t

/-- BATCH_OPEN (R194). DESIGN CHOICE (log entry 231): where the groups of the mask have different current parities, the
next parity reported is that of the lowest pipeline's group. -/
def batchOpen (j : Job) (s : State) : Answer :=
  let m := j.byte 0 4
  if m = 0 then failA s St.BATCH_MASK
  else if (maskList m).any (fun p => decide (s.rd (wPipe p) Reg.PIPE_UPD_STATUS_GROUP_STATE ≠ 0)) then failA s St.BATCH_BUSY
  else
    let n := s.upd.next
    let f := s.jobFn j
    let b : Batch := { num := n, fn := f, mask := m }
    let s1 : State := { s with upd := { s.upd with batches := s.upd.batches ++ [b], next := if n = 65535 then 1 else n + 1 } }
    let s2 := forEach (maskList m) (fun p s =>
      ((s.wr (wPipe p) Reg.PIPE_UPD_STATUS_BATCH_FUNC f).wr (wPipe p) Reg.PIPE_UPD_STATUS_BATCH_NUM n).wr (wPipe p)
        Reg.PIPE_UPD_JOURNAL_JOURNAL_USED 0) s1
    okRes (s2.groupStates m 1) (leBytes 2 n ++ [BitVec.ofNat 8 (1 - s.parity ((maskList m).headD 0))])

/-- BATCH_COMMIT (R194, R198, R204). -/
def batchCommit (j : Job) (s : State) : Answer :=
  match s.batch (j.le 8 2) with
  | none => failA s St.NO_BATCH
  | some b =>
    if b.fn ≠ s.jobFn j then failA s St.NOT_OWNER
    else if b.st ≠ 1 then failA s St.BATCH_STATE
    else if b.em && s.anyOffline then failA s St.TABLE_OFFLINE
    else laterA ((s.setBatch { b with st := 2, job := some j }).groupStates b.mask 2)

/-- The batch that a job's update belongs to (R181). -/
def batchOf (j : Job) : Option Nat := if j.bit 6 0 then some (j.le 8 2) else none

/-- Whether a write of batch n has still to land (R198). -/
def State.batchWrites (s : State) (n : Nat) : Bool :=
  (rangeFrom 0 8).any (fun p => (s.pipe p).writes.any (fun w => decide (w.job.bind batchOf = some n))) ||
    s.em.steps.any (fun e => match e with
      | .done j => decide (batchOf j = some n)
      | _ => false)

/-- The undo writes of each aborting batch are given once its own writes have landed (R198, R202). -/
def State.giveUndo (s : State) : State :=
  forEach (s.upd.batches.filter (fun b => decide (b.st = 4) && !b.undoing && !s.batchWrites b.num && !s.halting)) (fun b s =>
    forEach b.journal.reverse (fun e s =>
      forEach (maskList e.mask) (fun p s => s.giveWrites p [{ table := e.table, op := .undo e }]) s)
      (s.setBatch { b with undoing := true })) s

/-- A batch starts to be undone (R198, R202): cause 0 command, 1 function reset, 2 owner function. -/
def State.startAbort (s : State) (b : Batch) (job : Option Job) (cause : Nat) : State :=
  ((s.setBatch { b with st := 4, job := job, cause := cause }).groupStates b.mask 4).giveUndo

/-- BATCH_ABORT (R194, R198). -/
def batchAbort (j : Job) (s : State) : Answer :=
  match s.batch (j.le 8 2) with
  | none => failA s St.NO_BATCH
  | some b =>
    if b.fn ≠ s.jobFn j ∧ s.jobFn j ≠ s.owner then failA s St.NOT_OWNER
    else if b.st ≠ 1 then failA s St.BATCH_STATE
    else laterA (s.startAbort b (some j) (if b.fn = s.jobFn j then 0 else 2))

/-- The open batches of a function that is reset are aborted (R198). -/
def State.abortBatches (s : State) (f : Nat) : State :=
  forEach (s.upd.batches.filter (fun b => decide (b.fn = f ∧ b.st = 1))) (fun b s => s.startAbort b none 1) s

/-- Whether undo writes of a batch's groups have still to land. -/
def State.undoLeft (s : State) (b : Batch) : Bool :=
  !b.undoing || (maskList b.mask).any (fun p => (s.pipe p).writes.any (fun w => match w.op with
    | .undo _ => true
    | _ => false))

/-- A batch in COMMITTING, or with undo writes to land, as the device enters SAFE: its command completes with SAFE_STATE
(R205, R611). -/
def State.batchesSafe (s : State) : State :=
  forEach (s.upd.batches.filter (fun b => decide (b.st = 2) || (decide (b.st = 4) && s.undoLeft b))) (fun b s =>
    let s1 := s.setBatch { b with job := none, undoing := false }
    match b.job with
    | some j => s1.complete j St.SAFE_STATE []
    | none => s1) s

/-- The updates that a pipeline has begun or holds at its learn arbiter, with those of EM, as the device enters SAFE:
what has landed stays, nothing more lands, and their jobs complete with SAFE_STATE (R33, R205, R611). -/
def State.updatesSafe (s : State) : State :=
  let jobs := (rangeFrom 0 8).flatMap (fun p => (s.pipe p).writes.filterMap (fun w => w.job) ++
      (s.pipe p).arbQ.filterMap (fun r => match r with
        | .host j => some j
        | _ => none)) ++
    s.em.steps.filterMap (fun e => match e with
      | .done j => some j
      | _ => none)
  let s1 := forEach (rangeFrom 0 8) (fun p s =>
    s.setPipe p { s.pipe p with unit := [], shown := none, arbWrites := [], arbShown := none, arbQ := [] })
    ((s.batchesSafe).setSteps [])
  forEach jobs.eraseDups (fun j s => s.complete j St.SAFE_STATE []) s1

/-- A batch's job completes, when it has one. -/
def State.batchDone (s : State) (b : Batch) : State :=
  match b.job with
  | some j => s.complete j St.SUCCESS []
  | none => s

/-- The last undo write has landed (R198). -/
def State.undoDone (s : State) (n : Nat) : State :=
  match s.batch n with
  | none => s
  | some b =>
    if b.st ≠ 4 ∨ s.undoLeft b then s
    else
      let s1 := (s.dropBatch n).groupStates b.mask 0
      let s2 := forEach (maskList b.mask) (fun p s => s.pipeCount p 49 1) s1
      (s2.event Ev.BATCH_ABORTED ((maskList b.mask).headD 0) n b.mask b.cause).batchDone b

/-- A committing batch whose writes have landed and whose groups are not normalising enters DRAINING (R198, R199). -/
def State.drainStart (s : State) (n : Nat) : State :=
  match s.batch n with
  | none => s
  | some b =>
    if b.st ≠ 2 ∨ s.halting ∨ s.batchWrites n ∨
        (maskList b.mask).any (fun p => s.rdb (wPipe p) Reg.PIPE_UPD_STATUS_NORMALISING) then s
    else (s.setBatch { b with st := 3 }).groupStates b.mask 3

/-- Event DRAIN_SLOW of a group (R201). -/
def State.drainSlow (s : State) (p : Nat) : State :=
  let old := 1 - s.parity p
  (s.setPipe p { s.pipe p with warned := true }).event Ev.DRAIN_SLOW p p (s.rd (wPipe p) Reg.PIPE_UPD_STATUS_BATCH_NUM)
    (s.rd (wPipe p) (if old = 0 then Reg.PIPE_UPD_INFLIGHT_INFLIGHT_EVEN else Reg.PIPE_UPD_INFLIGHT_INFLIGHT_ODD))

/-- Whether a group drains and has flipped. -/
def State.draining (s : State) (p : Nat) : Bool := decide (s.rd (wPipe p) Reg.PIPE_UPD_STATUS_GROUP_STATE = 3)

/-- A group flips its parity (R84, R199); a DRAIN_WARN_US of 0 records every drain (R201). -/
def State.parityFlip (s : State) (p : Nat) : State :=
  if s.draining p = false ∨ (s.pipe p).flipped.isSome then s
  else
    let s1 := s.wr (wPipe p) Reg.PIPE_UPD_STATUS_PARITY (1 - s.parity p)
    let s2 := s1.setPipe p { s1.pipe p with flipped := some s.clock.up, warned := false }
    if s.rd (wPipe p) Reg.PIPE_UPD_DRAIN_DRAIN_WARN_US = 0 then s2.drainSlow p else s2

/-- A drain outlasts DRAIN_WARN_US (R201). -/
def State.drainWarn (s : State) (p : Nat) : State :=
  if s.draining p = false ∨ (s.pipe p).flipped = none ∨ (s.pipe p).warned then s else s.drainSlow p

/-- Work in flight of a parity (R200). -/
def State.inFlightOf (s : State) (p e : Nat) : Nat :=
  s.rd (wPipe p) (if e = 0 then Reg.PIPE_UPD_INFLIGHT_INFLIGHT_EVEN else Reg.PIPE_UPD_INFLIGHT_INFLIGHT_ODD)

/-- A batch settles (R198 to R200): its drain is measured from the first flip (log entry 29). -/
def State.drainEnd (s : State) (n : Nat) : State :=
  match s.batch n with
  | none => s
  | some b =>
    let l := maskList b.mask
    if b.st ≠ 3 ∨ l.any (fun p => decide ((s.pipe p).flipped = none ∨ s.inFlightOf p (1 - s.parity p) ≠ 0)) then s
    else
      let first := l.foldl (fun a p => min a ((s.pipe p).flipped.getD a)) s.clock.up
      let s1 := (s.dropBatch n).groupStates b.mask 0
      let s2 := forEach l (fun p s =>
        let t := s.clock.up - (s.pipe p).flipped.getD s.clock.up
        let mine := b.journal.filter (fun e => e.mask.testBit p)
        let a := (s.wr (wPipe p) Reg.PIPE_UPD_DRAIN_LAST_DRAIN_NS (min 65535 t)).wr (wPipe p) Reg.PIPE_UPD_STATUS_NORMALISING 1
        ((a.setPipe p { a.pipe p with flipped := none }).setNorm p mine).pipeCount p 48 1) s1
      let s3 := (s2.event Ev.BATCH_COMMITTED (l.headD 0) n b.mask (s.clock.up - first)).batchDone b
      forEach l (fun p s => s.present p) s3

/-- UPDATE_SETUP (R206). -/
def updateSetup (j : Job) (s : State) : Answer :=
  okA (forEach (maskList (j.byte 0 4)) (fun p s =>
    ((s.wr (wPipe p) Reg.PIPE_UPD_CFG_STEAL_WAIT (j.le 8 2)).wr (wPipe p) Reg.PIPE_UPD_CFG_STEAL_GAP (j.byte 0 10)).wr (wPipe p)
      Reg.PIPE_UPD_DRAIN_DRAIN_WARN_US (j.le 12 2)) s)

/-- A presented write's wait expires (R23). -/
def State.waitExpired (s : State) (p : Nat) (arb : Bool) : State :=
  let y := s.pipe p
  let mark (x : Option Shown) : Option Shown := x.map (fun w => { w with expired := true })
  s.setPipe p (if arb then { y with arbShown := mark y.arbShown } else { y with shown := mark y.shown })

/-! ### Rows -/

/-! ### Landing (R187, R190) -/

/-- A job whose last write has landed completes (R187). -/
def State.jobLanded (s : State) (j : Option Job) : State :=
  match j with
  | some j =>
    if (rangeFrom 0 8).any (fun p => (s.pipe p).writes.any (fun w => decide (w.job = some j))) then s
    else s.complete j St.SUCCESS []
  | none => s

/-- A granted write lands (R190). -/
def State.landWrite (s : State) (p : Nat) (w : Write) : State :=
  let s1 := (s.writeOp p w).pipeCount p (41 + w.table) 1
  (((s1.jobLanded w.job).emAdvance 64).present p).giveUndo.arbAdvance p

/-- The next write grant of a pipeline; packets granted in the same cycle enter before a write lands (R25, R117). -/
def Pipe.writeGrant (y : Pipe) : Option Grant :=
  match y.granted with
  | .packet _ :: _ => none
  | g :: _ => some g
  | [] => none

/-- Which row lands a write. -/
inductive Landing where
  | table | norm | moveDelete
  deriving DecidableEq, Repr

def WOp.landing : WOp → Landing
  | .norm _ => .norm
  | .ldel _ _ => .moveDelete
  | _ => .table

/-- What a write that a stack keeps waiting leaves for later (R204): a normalisation write stays in its own list. -/
def Write.waits (w : Write) : List Write :=
  match w.op with
  | .norm _ => []
  | _ => [w]

/-- A write lands under one of the landing rows; a settled or aborting batch's EM write waits while a stack is offline,
and gives its slot back (R204). -/
def State.land (s : State) (p : Nat) (row : Landing) : State :=
  let y := s.pipe p
  let used := { y with granted := y.granted.drop 1 }
  match y.writeGrant with
  | some .unit =>
    (match y.shown with
     | some w =>
       if w.write.op.landing ≠ row then s
       else if s.mayPresent w.write.table w.write.op then (s.setPipe p { used with shown := none }).landWrite p w.write
       else (s.setPipe p { used with shown := none, unit := w.write.waits ++ y.unit }).present p
     | none => if row = .table then s.setPipe p used else s)
  | some .arbiter =>
    (match y.arbShown with
     | some w => if w.write.op.landing = row then (s.setPipe p { used with arbShown := none }).landWrite p w.write else s
     | none => if row = .table then s.setPipe p used else s)
  | some .repair =>
    if row = .table then
      (match y.repairs with
       | (x, _) :: t => (s.setPipe p { used with repairs := t }).rewriteEntry p x
       | [] => s.setPipe p used)
    else s
  | _ => s

/-! ### Turns of the UPDATE queues (R187) -/

/-- The updates that their queues would give the update units next. -/
def State.updWaiting (s : State) : List Job :=
  s.host.queues.filterMap (fun e =>
    if e.2.typ = .update then
      (e.2.jobs.find? (fun x => !s.reported x)).filter (fun j => s.jobReady j && decide (0x40 ≤ j.opcode ∧ j.opcode ≤ 0x43))
    else none)

/-- Whose turn it is at each pipeline below n: a pipeline serves its queues round-robin among the updates whose turn it is
at every lower pipeline of their masks (R187; log entry 204). -/
def State.updTurns (s : State) (l : List Job) : Nat → List (Nat × Job)
  | 0 => []
  | n + 1 =>
    let done := s.updTurns l n
    let mine := l.filter (fun j => (j.byte 0 4).testBit n &&
      (rangeFrom 0 n).all (fun p => !(j.byte 0 4).testBit p || done.contains (p, j)))
    match leastBy (fun (j : Job) => (j.q + 4096 - (s.pipe n).lastUpd - 1) % 4096) mine with
    | some j => done ++ [(n, j)]
    | none => done

/-- Whether the update units can take a job now: it is its queue's oldest, it is its turn in every pipeline of its mask,
and no update is under way there or in EM (R187). A job that SAFE refuses waits for nothing (R611). -/
def State.updReady (s : State) (j : Job) : Bool :=
  let l := maskList (j.byte 0 4)
  let turns := s.updTurns s.updWaiting 8
  s.oldestJob j && (s.halting || (s.em.steps.isEmpty && l.all (fun p => s.unitIdle p && turns.contains (p, j))))

/-- A row of an UPDATE queue: the job waits until the update units can take it (R187). -/
def updRow (op : Nat) (j : Job) (s : State) (ready : Bool) (body : Job → State → Answer) : Out :=
  if ready then jobRow { op := op, owner := false, safe := true } j s body else .next s

/-- Row UPD_INSERT. -/
def execUpdInsert (j : Job) (s : State) : Out := updRow 0x40 j s (s.updReady j) updRun
/-- Row UPD_MODIFY. -/
def execUpdModify (j : Job) (s : State) : Out := updRow 0x41 j s (s.updReady j) updRun
/-- Row UPD_DELETE. -/
def execUpdDelete (j : Job) (s : State) : Out := updRow 0x42 j s (s.updReady j) updRun
/-- Row UPD_MOVE. -/
def execUpdMove (j : Job) (s : State) : Out := updRow 0x43 j s (s.updReady j) updRun
/-- Row BATCH_OPEN. -/
def execBatchOpen (j : Job) (s : State) : Out := updRow 0x44 j s (s.oldestJob j) batchOpen
/-- Row BATCH_COMMIT. -/
def execBatchCommit (j : Job) (s : State) : Out := updRow 0x45 j s (s.oldestJob j) batchCommit
/-- Row BATCH_ABORT. -/
def execBatchAbort (j : Job) (s : State) : Out := updRow 0x46 j s (s.oldestJob j) batchAbort
/-- Row UPDATE_SETUP. -/
def execUpdateSetup (j : Job) (s : State) : Out := jobRow { op := 0x47 } j s updateSetup
/-- Row TABLE_WRITE_LAND. -/
def execTableWriteLand (p : Fin 8) (s : State) : Out := .next (s.land p.val .table)
/-- Row NORMALISATION_WRITE. -/
def execNormalisationWrite (p : Fin 8) (s : State) : Out := .next (s.land p.val .norm)
/-- Row LEARN_MOVE_DELETE. -/
def execLearnMoveDelete (p : Fin 8) (s : State) : Out := .next (s.land p.val .moveDelete)
/-- Row STEAL_WAIT_EXPIRY: of the update unit's write, or of the learn arbiter's. -/
def execStealWaitExpiry (p : Fin 8) (arb : Bool) (s : State) : Out := .next (s.waitExpired p.val arb)
/-- Row STEAL_GAP_EXPIRY. -/
def execStealGapExpiry (p : Fin 8) (s : State) : Out := .next (s.setPipe p.val { s.pipe p.val with gap := false })
/-- Row BATCH_DRAIN_START. -/
def execBatchDrainStart (n : BitVec 16) (s : State) : Out := .next (s.drainStart n.toNat)
/-- Row GROUP_PARITY_FLIP. -/
def execGroupParityFlip (p : Fin 8) (s : State) : Out := .next (s.parityFlip p.val)
/-- Row BATCH_DRAIN_END. -/
def execBatchDrainEnd (n : BitVec 16) (s : State) : Out := .next (s.drainEnd n.toNat)
/-- Row ABORT_UNDO_DONE. -/
def execAbortUndoDone (n : BitVec 16) (s : State) : Out := .next (s.undoDone n.toNat)
/-- Row DRAIN_WARN_EXPIRY. -/
def execDrainWarnExpiry (p : Fin 8) (s : State) : Out := .next (s.drainWarn p.val)
/-- Row EM_MOVE_REMOVE. -/
def execEmMoveRemove (s : State) : Out := .next s.emMoveRemove.giveUndo
/-- The keys of a bucket that are held outside it (R160). -/
def State.spillKeys (s : State) (b : Nat) : List (List Byte) :=
  (((s.emListed ++ s.emHeld).filter (fun k => s.emAll k != [] && decide (s.emB1 (emKey (s.emAll k)) = b) &&
    s.emSpilled (emKey (s.emAll k)) k && !s.moveDst k)).map (fun k => emKey (s.emAll k))).eraseDups

/-- Whether a key has been put outside its first bucket and the write that raises SPILL_CNT for it is still to come
(R163). -/
def State.raiseDue (s : State) (key : List Byte) : Bool :=
  s.em.steps.contains (.raise key) && !(s.em.steps.any (fun e => match e with
    | .put _ r => decide (emKey r = key)
    | _ => false))

/-- What SPILL_CNT of a bucket counts, if it does not saturate: the keys held outside it, but for one whose raise is still
to come, and one that has come back while its count is still to be lowered (R160, R163, R164). -/
def State.spillTrue (s : State) (b : Nat) : Nat :=
  ((s.spillKeys b).filter (fun key => !s.raiseDue key)).length + s.em.steps.count (.lower b)

/-- Row SPILL_CNT_RECOUNT: service engine v9 counts a saturated count again from the table (R160, R245). -/
def execSpillCntRecount (b : BitVec 24) (s : State) : Out :=
  .next (if s.spillCnt b.toNat = 15 ∧ s.anyOffline = false ∧ s.rdb wMint Reg.MINT_STATUS_DEFERRING = false ∧ s.dutyRuns 9
    then s.setSpill b.toNat (min 15 (s.spillTrue b.toNat)) else s)

end Sys2Proof.Machine
end

