-- ==== Sys2Proof/Machine/Learn.lean ====
section
/-!
DEFINITION. Learning and ageing: learn requests, notices between pipelines, the ageing sweep and the learn notices
posted to hosts (ch. 5; R146 to R157).
-/
namespace Sys2Proof.Machine

/-! ### Requests and notices (R147, R149, R152) -/

/-- Requests of one kind at a learn arbiter. -/
def Pipe.ownRequests (y : Pipe) : Nat := (y.arbQ.filter (fun r => match r with
  | .own _ _ => true
  | _ => false)).length
def Pipe.noticeRequests (y : Pipe) : Nat := (y.arbQ.filter (fun r => match r with
  | .notice _ _ _ => true
  | _ => false)).length

def State.arbPush (s : State) (p : Nat) (r : LearnReq) : State :=
  s.setPipe p { s.pipe p with arbQ := (s.pipe p).arbQ ++ [r] }

/-- A learn lost: counted, and told by the next LEARN_FULL (R149, R153, R179). -/
def State.countLost (s : State) (p : Nat) : State :=
  (s.setPipe p { s.pipe p with learnsLost := (s.pipe p).learnsLost + 1 }).pipeCount p 31 1

/-- A local learn request is issued (R147, R149); learning stops in SAFE (R157). -/
def State.learnRequest (s : State) (p : Nat) (key : List Byte) (port : Nat) : State :=
  if s.halting then s
  else if 1024 ≤ (s.pipe p).ownRequests then s.countLost p
  else s.arbPush p (.own key port)

/-- A notice from pipeline p to pipeline q (R149, R152). -/
def State.sendNotice (s : State) (p q : Nat) (key : List Byte) (port : Nat) : State :=
  if 4096 ≤ (s.pipe q).noticeRequests then (s.pipeCount q 32 1).event Ev.NOTICE_LOST q q p 1
  else s.arbPush q (.notice key port p)

/-- A notice to the other seven pipelines. -/
def State.sendNotices (s : State) (p : Nat) (key : List Byte) (port : Nat) : State :=
  forEach ((rangeFrom 0 8).filter (fun q => decide (q ≠ p))) (fun q s => s.sendNotice p q key port) s

/-! ### What the arbiter applies (R150, R152, R153) -/

/-- The arbiter's writes for a record placed at the end of a path, or in place. -/
def State.arbWrite (s : State) (p : Nat) (l : List WOp) : State :=
  (s.setPipe p { s.pipe p with arbWrites := l.map (fun op => { table := 1, op := op }) }).present p

/-- A learn that has no room or no quota is discarded (R153, R174); LEARN_FULL tells the learns lost since the last one
that was recorded (R179). -/
def State.learnLost (s : State) (p : Nat) (key : List Byte) : State :=
  let s1 := s.countLost p
  let s2 := s1.event Ev.LEARN_FULL p p (lrTenant key) (s1.pipe p).learnsLost
  if (s2.recorder (p + 1)).log = (s1.recorder (p + 1)).log then s2
  else s2.setPipe p { s2.pipe p with learnsLost := 0 }

/-- The path for a new entry, when the tenant's quota and the table have room for it (R153, R174). -/
def State.learnRoom (s : State) (p : Nat) (key : List Byte) : Option (List Nat) :=
  let t := lrTenant key
  if s.rd (tenantBase p t) Reg.PIPE_TENANT_C_LEARN_QUOTA ≤ s.learnUsed p t then none else s.learnPath p key

/-- A new entry at the end of its path. -/
def State.arbInsert (s : State) (p : Nat) (l : List Nat) (r : List Byte) : State :=
  s.arbWrite p (learnMoves l ++ [.put (l.headD 0) r])

/-- A local learn is applied; the arbiter stands at it (R150). What it finds is the table once an entry that awaits
normalisation has been normalised, which its write then does first (R197). -/
def State.applyOwn (s : State) (p : Nat) (key : List Byte) (port : Nat) : State :=
  let n := s.normFirst 1 p key
  match n.learnCopies p key with
  | [] =>
    match n.learnRoom p key with
    | none => s.learnLost p key
    | some l =>
      let v := s.draw 8
      let r := learnRec key port false false true 3 (256 * v.1.toNat) (s.tick p)
      (((v.2.arbInsert p l r).pipeCount p 26 1).sendNotices p key port).notePost p r 0 0
  | k :: _ =>
    let r := n.learnAt p k
    let now := s.seconds % 256
    if lrPort r = port then s
    else if lrStatic r then s.pipeCount p 28 1
    else if lrLocked r then s.pipeCount p 29 1
    else if recLive 1 r ≠ 3 then s.pipeCount p 30 1
    else
      let moves := if imB r 13 ≠ now then 1 else min (imB r 12 + 1) 255
      if s.rd (wPipe p) Reg.PIPE_LEARN_CFG_MOVE_LIMIT < moves then
        let x := learnRec key (lrPort r) false true (lrLocal r) 3 (s.seconds % 65536) (imH r 14)
        ((s.arbWrite p [.put k x]).lockEvent Ev.STATION_FLAP p x).notePost p x 3 0
      else
        let x := learnRec key port false false true 3 (moves + 256 * now) (s.tick p)
        (((s.arbWrite p [.put k x]).pipeCount p 27 1).sendNotices p key port).notePost p x 1 (lrPort r)

/-- A notice is applied (R152), to the table once an entry that awaits normalisation has been normalised (R197). -/
def State.applyNotice (s : State) (p : Nat) (key : List Byte) (port : Nat) : State :=
  let n := s.normFirst 1 p key
  match n.learnCopies p key with
  | [] =>
    match n.learnRoom p key with
    | none => s.learnLost p key
    | some l =>
      let v := s.draw 8
      v.2.arbInsert p l (learnRec key port false false false 3 (256 * v.1.toNat) (s.tick p))
  | k :: _ =>
    let r := n.learnAt p k
    if lrStatic r ∨ lrLocked r then s
    else if recLive 1 r ≠ 3 then s.pipeCount p 30 1
    else s.arbWrite p [.put k (learnRec key port false false false 3 (imH r 12) (s.tick p))]

/-- The learn arbiter takes a local learn request (R149, R150). -/
def State.learnApply (s : State) (p : Nat) : State :=
  let y := s.pipe p
  match y.arbIdle && !s.halting, y.arbQ with
  | true, .own key port :: t => ((s.setPipe p { y with arbQ := t }).applyOwn p key port).arbAdvance p
  | _, _ => s

/-- The learn arbiter takes a notice (R149, R152). -/
def State.noticeApply (s : State) (p : Nat) : State :=
  let y := s.pipe p
  match y.arbIdle && !s.halting, y.arbQ with
  | true, .notice key port _ :: t => ((s.setPipe p { y with arbQ := t }).applyNotice p key port).arbAdvance p
  | _, _ => s

/-! ### Ageing (R146, R151, R156, R157) -/

/-- A tick of the ageing count (R146), which a pause of the sweep lasts for at most 8,192 of (R157). -/
def State.ageTick (s : State) (p : Nat) : State :=
  s.setPipe p { s.pipe p with tick := (s.tick p + 1) % 65536, agePaused := (s.pipe p).agePaused - 1 }

/-- Whether the sweep is paused: Mint defers it, for at most 8,192 ticks (R157). -/
def State.sweepPaused (s : State) (p : Nat) : Bool := decide ((s.pipe p).agePaused ≠ 0)

/-- The sweep's write for the entry at position k, if it makes one (R151, R156, R197). -/
def State.sweepWrite (s : State) (p k : Nat) : Option WOp :=
  let r := s.learnAt p k
  let b := wPipe p
  let age := (s.tick p + 65536 - imH r 14) % 65536
  if s.rdb b Reg.PIPE_AGE_CFG_AGE_EN && !lrStatic r && decide (s.rd b Reg.PIPE_AGE_CFG_AGE_LIMIT ≤ age ∧ recLive 1 r = 3) then
    some (.age k)
  else if lrLocked r then
    if s.rd b Reg.PIPE_LEARN_CFG_LOCK_TIME ≤ (s.seconds + 65536 - imH r 12) % 65536 then some (.unlock k) else none
  else if imB r 12 ≠ 0 ∧ imB r 13 ≠ s.seconds % 256 then some (.still k)
  else none

/-- Whether the sweep sends a refresh notice for an entry (R156). -/
def State.sweepRefreshes (s : State) (p : Nat) (r : List Byte) : Bool :=
  let b := wPipe p
  let age := (s.tick p + 65536 - imH r 14) % 65536
  s.rdb b Reg.PIPE_AGE_CFG_AGE_EN && !lrStatic r && lrLocal r && decide (age < s.rd b Reg.PIPE_AGE_CFG_SWEEP_TICKS)

/-- The sweep visits the entry at position k (R151, R156, R157). -/
def State.ageingVisit (s : State) (p k : Nat) : State :=
  let r := s.learnAt p k
  if r = [] ∨ s.halting ∨ s.sweepPaused p ∨ s.dutyRuns p = false then s
  else
    let s1 := if s.sweepRefreshes p r then
        forEach ((rangeFrom 0 8).filter (fun q => decide (q ≠ p))) (fun q s =>
          s.setPipe q { s.pipe q with refreshes := (s.pipe q).refreshes ++ [learnKey r] }) s
      else s
    match s.sweepWrite p k with
    | some op => (s1.arbPush p (.sweep (learnKey r) op)).arbAdvance p
    | none => s1

/-- A refresh notice sets HIT_TS of the pipeline's copies, and takes no slot (R156). -/
def State.refreshApply (s : State) (p : Nat) : State :=
  let y := s.pipe p
  match y.refreshes with
  | key :: t =>
    if s.halting then s
    else
      let l := (s.learnCopies p key).foldl (fun a k => tabSet (fun _ => []) a k (withHit (s.learnAt p k) (s.tick p))) y.learn
      s.setPipe p { y with refreshes := t, learn := l }
  | [] => s

/-! ### Learn notices (R155) -/

/-- Service engine v8 posts the oldest learn-notice record to its tenant's EVENT queue; a full queue loses it. A halted
engine posts nothing (R245). -/
def State.learnNoticePost (s : State) (p : Nat) : State :=
  let y := s.pipe p
  match (if s.dutyRuns 8 then y.posts else []) with
  | (t, r) :: rest =>
    let s1 := s.setPipe p { y with posts := rest }
    (match s.findQ (s.tenantOwner p t) (s.rd (tenantBase p t) Reg.PIPE_TENANT_A_EVENT_Q) with
     | some q =>
       let s2 := s1.postEvent q r
       if (s2.queue q).lost ≠ (s1.queue q).lost then s2.pipeCount p 32 1 else s2
     | none => s1)
  | [] => s

/-! ### Rows -/

/-- Row LEARN_APPLY. -/
def execLearnApply (p : Fin 8) (s : State) : Out := .next (s.learnApply p.val)
/-- Row NOTICE_APPLY. -/
def execNoticeApply (p : Fin 8) (s : State) : Out := .next (s.noticeApply p.val)
/-- Row LEARN_NOTICE_POST. -/
def execLearnNoticePost (p : Fin 8) (s : State) : Out := .next (s.learnNoticePost p.val)
/-- Row AGE_TICK. -/
def execAgeTick (p : Fin 8) (s : State) : Out := .next (s.ageTick p.val)
/-- Row AGEING_VISIT: of the entry at a position of the table or its stash. -/
def execAgeingVisit (p : Fin 8) (k : Fin 262152) (s : State) : Out := .next (s.ageingVisit p.val k.val)
/-- Row REFRESH_NOTICE_APPLY. -/
def execRefreshNoticeApply (p : Fin 8) (s : State) : Out := .next (s.refreshApply p.val)

end Sys2Proof.Machine
end

