-- ==== Sys2Proof/Machine/Slots.lean ====
section
/-!
DEFINITION. Search slots and a packet's way from its slot to Tenon (ch. 1, 3, 4, 5; R23 to R25, R80 to R95, R141).
-/
namespace Sys2Proof.Machine

/-! ### Claimants (R23, R82, R168, R190, R210, R225) -/

/-- The least window that a packet of a port waits for: WINDOW_BYTES, or 32 without a graph (R82, R95). -/
def State.windowOf (s : State) (p n : Nat) : Nat :=
  if s.graphValid p then windowBytes (s.graph p (s.trussBank p)) n else 32

/-- Whether a frame may take its slot (R82). -/
def State.eligible (s : State) (p i : Nat) : Bool :=
  let f := s.frame i
  decide (128 ≤ f.inPort) || f.ended || decide (min f.total (s.windowOf p f.inPort) ≤ f.bytes.length)

/-- A microcode lookup of pipeline p. -/
def Req.isLookup (p : Nat) (r : Req) : Bool :=
  decide (r.pipe = p) && (match r.op with
    | .lookup _ _ => true
    | _ => false)

/-- EM lookups of a pipeline that await a DRAM result (R168, R225). -/
def State.dramWaiting (s : State) (p : Nat) : Nat :=
  (s.pipe p).emWaiting + (s.tenon.reqs.filter (fun r => r.isLookup p && r.slotted && r.found.isNone)).length

/-- The packet that claims a slot, if lookups and dispatch have room for one (R23, R168, R210). -/
def State.nextPacket (s : State) (p : Nat) : Option Nat :=
  let y := s.pipe p
  if 512 ≤ s.dramWaiting p ∨ 64 ≤ (y.packets.filter (fun x => decide (x.stage = 2))).length then none
  else y.waiting.find? (fun i => s.eligible p i && !y.granted.contains (.packet i))

/-- The microcode lookup that claims a slot (R225). -/
def State.nextLookup (s : State) (p : Nat) : Option Req :=
  s.tenon.reqs.find? (fun r => r.isLookup p && !r.slotted)

/-- Table writes that claim a slot, each with its place in the order of presentations and whether its wait has expired;
a repair of Mortise does not wait (R125, R190). -/
def Pipe.writeClaims (y : Pipe) : List (Nat × Grant × Bool) :=
  (if y.repairs = [] then [] else [(0, .repair, true)]) ++
    (y.shown.map (fun w => (w.order, Grant.unit, w.expired))).toList ++
    (y.arbShown.map (fun w => (w.order, Grant.arbiter, w.expired))).toList

/-- The write presented earliest. -/
def firstClaim (l : List (Nat × Grant × Bool)) : Option Grant :=
  (leastBy (fun (e : Nat × Grant × Bool) => e.1) l).map (fun e => e.2.1)

/-! ### Microcode lookups in their slot (R161, R225, R258) -/

/-- A record of a table as a microcode lookup returns it: 32 bytes, zeros on a miss (R258). -/
def lookupRecord (r : Option (List Byte)) : List Byte := padTo 32 (r.getD [])

/-- What a lookup finds in its slot; none while it must read EM buckets (R161, R225, R258). -/
def State.slotLookup (s : State) (p table e : Nat) (key : List Byte) : Option (List Byte) × State :=
  match table with
  | 0 =>
    (some (lookupRecord ((s.learnFind p (key.take 8) e).map (s.learnAt p))), s)
  | 1 =>
    let k := emKey key
    let r := s.emLookup p k { epoch := e }
    if r.1.em.isSome then (none, r.2)
    else
      let way := (s.cacheWay p k).bind (fun w => w.copies.find? (fun x => liveIn 2 e x))
      let stashed := ((s.pipe p).emStash.find? (fun x => decide (emKey x.2 = k) && liveIn 2 e x.2)).map (·.2)
      (some (lookupRecord (if r.1.look.emHit then (if way.isSome then way else stashed) else none)), r.2)
  | _ =>
    let x := leNat key
    let r := if x < 131072 then s.nhAt p x else []
    (some (lookupRecord (if liveIn 4 e r then some r else none)), s)

/-- The number of a microcode lookup of EM that reads buckets (R164): the count stands at its own number as it begins. -/
def State.emNumber (s : State) (table : Nat) (found : Option (List Byte)) : Option Nat :=
  if table = 1 ∧ found.isNone then some s.em.nextLookup else none

/-- A request replaced. -/
def State.setReq (s : State) (old new : Req) : State :=
  { s with tenon := { s.tenon with reqs := s.tenon.reqs.map (fun r => if r = old then new else r) } }

/-- A microcode lookup takes its slot (R225). -/
def State.serveLookup (s : State) (p : Nat) (r : Req) : State :=
  match r.op with
  | .lookup t key =>
    let x := s.slotLookup p t r.epoch key
    x.2.setReq r { r with slotted := true, found := x.1, emId := s.emNumber t x.1 }
  | _ => s

/-! ### Granting (R23, R24, R190, R191) -/

/-- A slot granted at a rank, for the counters of R580. -/
def State.slotRank (s : State) (p rank : Nat) : State := s.pcEvent (some p) 0x06 1 (fun x => decide (x = rank)) {}

/-- A write grant added; packets of the cycle enter before it lands (R25). -/
def State.addGrant (s : State) (p : Nat) (g : Grant) : State :=
  let y := s.pipe p
  match g with
  | .packet _ =>
    let pk := y.granted.filter (fun x => match x with
      | .packet _ => true
      | _ => false)
    s.setPipe p { y with granted := pk ++ [g] ++ y.granted.filter (fun x => !pk.contains x) }
  | _ => s.setPipe p { y with granted := y.granted ++ [g] }

/-- Whether the cycle's table write has been granted: at most one lands in a cycle (R190). -/
def Pipe.wrote (y : Pipe) : Bool := y.granted.any (fun x => match x with
  | .packet _ => false
  | _ => true)

/-- The write that claims at rank 1 (R23, R191). -/
def Pipe.expiredClaim (y : Pipe) : Option Grant :=
  if y.wrote || y.gap then none else firstClaim (y.writeClaims.filter (fun e => e.2.2))

/-- The write that claims at rank 4 (R23). -/
def Pipe.spareClaim (y : Pipe) : Option Grant := if y.wrote then none else firstClaim y.writeClaims

/-- The gap after a write taken by force: STEAL_GAP as the write was presented, for a repair as it stands (R191, R206). -/
def State.gapAfter (s : State) (p : Nat) (g : Grant) : Nat :=
  let now := s.rd (wPipe p) Reg.PIPE_UPD_CFG_STEAL_GAP
  match g with
  | .unit => ((s.pipe p).shown.map (fun w => w.gap)).getD now
  | .arbiter => ((s.pipe p).arbShown.map (fun w => w.gap)).getD now
  | _ => now

/-- One slot (R23); ecc is the ECC outcome of the shadow of the winner of a host search (R126). No search claims a slot
once the safe-state line is up (R611). -/
def State.grantSlot (s : State) (p ecc : Nat) : State :=
  let y := s.pipe p
  let credits := s.rd (wPipe p) Reg.PIPE_MORTISE_FLOOR_CREDITS
  let host := !(y.searches.isEmpty || s.halting)
  match y.expiredClaim with
  | some g =>
    let s1 := ((s.addGrant p g).slotRank p 1).pipeCount p 46 1
    if s.gapAfter p g = 0 then s1 else s1.setPipe p { s1.pipe p with gap := true }
  | none =>
    if host && decide (credits ≠ 0) then
      ((s.wr (wPipe p) Reg.PIPE_MORTISE_FLOOR_CREDITS (credits - 1)).slotRank p 2).serveSearch p 2 ecc
    else
      match s.nextLookup p, s.nextPacket p, y.spareClaim with
      | some r, _, _ => (s.serveLookup p r).slotRank p 3
      | none, some i, _ => (s.addGrant p (.packet i)).slotRank p 3
      | none, none, some g => (s.addGrant p g).slotRank p 4
      | none, none, none => if host then (s.slotRank p 5).serveSearch p 5 ecc else s

/-- Whether a slot of the cycle is free: the slots granted and not yet used, with the claims that wait, are fewer than
two (R23, R123; log entry 205). -/
def State.slotFree (s : State) (p : Nat) : Bool :=
  let y := s.pipe p
  let packets := if (s.nextPacket p).isSome then
      (y.waiting.filter (fun i => s.eligible p i && !y.granted.contains (.packet i))).length else 0
  decide (y.granted.length + y.searches.length + (s.tenon.reqs.filter (fun r => r.isLookup p && !r.slotted)).length +
    packets + b2n y.spareClaim.isSome < 2)
/-- The two slots of a cycle (R23, R24). A forced write that leaves a packet without a slot makes Truss insert a
bubble. -/
def State.slotGrant (s : State) (p ecc0 ecc1 : Nat) : State :=
  if (s.pipe p).granted ≠ [] ∨ s.admits = false then s
  else
    let s1 := (s.grantSlot p ecc0).grantSlot p ecc1
    if (s.pipe p).expiredClaim.isSome ∧ (s1.nextPacket p).isSome then s1.pipeCount p 47 1 else s1

/-! ### Entry into Truss (R80, R84, R95, R137) -/

/-- A packet replaced, by its frame. -/
def State.setPacket (s : State) (p : Nat) (x : Packet) : State :=
  s.setPipe p { s.pipe p with packets := (s.pipe p).packets.map (fun z => if z.frame = x.frame then x else z) }

/-- Action, opcode and event flag of a graph's slow profile for a reason (R94). -/
def slowAction (g : List Byte) (r : Nat) : Nat := if r = 0 then 1 else imB g (144 + 4 * r)
def slowOpcode (g : List Byte) (r : Nat) : Nat := imB g (145 + 4 * r)
def slowEvent (g : List Byte) (r : Nat) : Bool := decide (r ≠ 0 ∧ imB g (146 + 4 * r) % 2 = 1)

/-- A packet of frame i as Truss makes it (R84, R91, R92). -/
def State.parsed (s : State) (p i : Nat) : Packet :=
  let f := s.frame i
  let b := s.trussBank p
  let g := s.graph p b
  let w := parseGraph g f.bytes f.parseLen f.inPort
  let desig (x : Nat) : Option (Nat × Nat × Nat) := if x = 0 then none else w.recs.find? (fun r => decide (r.1 = x))
  let ip := w.recs.find? (fun r => decide (r.1 ≠ 0 ∧ (r.1 = imB g 14 ∨ r.1 = imB g 15)))
  { frame := i, epoch := s.parity p, bank := b, parse := parseResult w (s.parity p) b f.inPort f.parseLen,
    l3 := ip.map (fun r => (r.2.1, r.2.2, if r.1 = imB g 14 then 0 else 1)),
    l4 := (desig (imB g 13)).map (fun r => (r.2.1, r.2.2)), ptp := (desig (imB g 12)).map (fun r => r.2.1),
    entered := s.ccNow }

/-- Lookups of a packet, in its slot: none for one that Truss drops or dispatches (R94, R112, R137). -/
def State.slotLookups (s : State) (p ecc : Nat) (x : Packet) : Packet × State :=
  let f := s.frame x.frame
  let g := s.graph p x.bank
  let r := prReason x.parse
  let W := min f.parseLen (windowBytes g f.inPort)
  if slowAction g r = 1 then
    let m := s.mortiseLookup p f.inPort x.parse f.bytes W x.epoch ecc
    m.2.tableLookups p f.inPort f.bytes W { x with mortise := m.1 }
  else ({ x with look := { x.look with opcode := if slowAction g r = 2 then slowOpcode g r else 0 } }, s)

/-- A packet enters Truss in its slot (R80, R84, R95, R200); `shadow` is the ECC outcome of the shadow of its Mortise
winner (R126). -/
def State.packetEntry (s : State) (p ecc shadow : Nat) : State :=
  let y := s.pipe p
  match y.granted with
  | .packet i :: t =>
    let s1 := s.setPipe p { y with granted := t, waiting := y.waiting.erase i }
    if y.waiting.contains i = false then s1
    else if s.graphValid p = false then (s1.pipeCount p 0 1).dropFrame i
    else
      let s2 := (s1.pcEvent (some p) 0x02 1 (fun _ => true) {}).inFlightAdd p (s.parity p) 1
      let x := s2.parsed p i
      let s3 := s2.setFrame i { s2.frame i with
        sysport := s2.learnedPort p (s2.frame i).inPort x.bank x.parse (s2.frame i).bytes }
      let r := s3.slotLookups p shadow x
      let s4 := r.2.setPipe p { r.2.pipe p with packets := (r.2.pipe p).packets ++ [r.1] }
      s4.bankError p (if ecc = 2 then 3 else ecc)
  | _ => s

/-- A packet leaves the pipeline: it is discarded, and its work in flight ends (R94, R200). -/
def State.discardPacket (s : State) (p : Nat) (x : Packet) : State :=
  let y := s.pipe p
  let s1 := s.setPipe p { y with packets := y.packets.filter (fun z => decide (z.frame ≠ x.frame)) }
  (s1.inFlightAdd p x.epoch (-1)).dropFrame x.frame

/-- Truss hands over the parse result of its oldest packet, and applies the slow profile (R80, R93, R94). -/
def State.parseDelivery (s : State) (p : Nat) : State :=
  match (s.pipe p).packets.find? (fun x => decide (x.stage = 0)) with
  | none => s
  | some x =>
    let g := s.graph p x.bank
    let r := prReason x.parse
    let s1 := if r = 0 then s else s.pipeCount p r 1
    let s2 := if slowEvent g r then s1.event Ev.SLOW_PATH p (prPort x.parse) r (imB x.parse 108) else s1
    if slowAction g r = 0 then s2.discardPacket p x else s2.setPacket p { x with stage := 1 }

/-- All lookup results of the packet of frame i are delivered, in entry order within its port and class (R138, R141,
R210). -/
def State.lookupsReady (s : State) (p i : Nat) : State :=
  let l := (s.pipe p).packets
  match l.find? (fun x => decide (x.frame = i)) with
  | none => s
  | some x =>
    let f := s.frame i
    let before := l.takeWhile (fun z => decide (z.frame ≠ i))
    let earlier := before.any (fun z => decide ((s.frame z.frame).inPort = f.inPort ∧ (s.frame z.frame).inTc = f.inTc ∧ z.stage < 2))
    if x.stage ≠ 1 ∨ x.em.isSome ∨ earlier then s else s.setPacket p { x with stage := 2 }

/-! ### Rows -/

/-- Row SLOT_GRANT: the shadow of the winner of a host search in either slot reads with no ECC error, a single-bit or a
double-bit error (R126). -/
def execSlotGrant (p : Fin 8) (ecc0 ecc1 : Fin 3) (s : State) : Out := .next (s.slotGrant p.val ecc0.val ecc1.val)
/-- Row PACKET_ENTRY: the fetch of graph words, and the read of the Mortise winner's shadow, meet no ECC error, a
single-bit or a double-bit error (R101, R126). -/
def execPacketEntry (p : Fin 8) (ecc shadow : Fin 3) (s : State) : Out := .next (s.packetEntry p.val ecc.val shadow.val)
/-- Row SCRUB_CHECK, in a slot that no claimant takes: the shadow word read has no error, a single-bit or a double-bit
error (R123, R125). -/
def execScrubCheck (p : Fin 8) (ecc : Fin 3) (s : State) : Out :=
  .next (if s.slotFree p.val then s.scrubCheck p.val ecc.val else s)
/-- Row PARSE_RESULT_DELIVERY. -/
def execParseResultDelivery (p : Fin 8) (s : State) : Out := .next (s.parseDelivery p.val)
/-- Row LOOKUP_RESULTS_READY: of the packet of a frame. -/
def execLookupResultsReady (p : Fin 8) (i : Nat) (s : State) : Out := .next (s.lookupsReady p.val i)

end Sys2Proof.Machine
end

