-- ==== Sys2Proof/Machine/Flags.lean ====
section
/-!
DEFINITION. The flags of a Tenon engine: predicates, and the result and flags of every arithmetic operation (ch. 8;
R251, R256).
-/
namespace Sys2Proof.Machine

/-- The condition flags (R214). -/
structure MFlags where
  z : Bool := false
  n : Bool := false
  c : Bool := false
  v : Bool := false
  deriving DecidableEq, Repr

/-- Whether a predicate holds (R251); code 15 is refused at load. -/
def MFlags.holds (f : MFlags) (cond : Nat) : Bool :=
  match cond with
  | 0 => true
  | 1 => f.z
  | 2 => !f.z
  | 3 => f.n
  | 4 => !f.n
  | 5 => f.c
  | 6 => !f.c
  | 7 => f.v
  | 8 => !f.v
  | 9 => f.c && !f.z
  | 10 => !f.c || f.z
  | 11 => f.n == f.v
  | 12 => f.n != f.v
  | 13 => !f.z && (f.n == f.v)
  | 14 => f.z || (f.n != f.v)
  | _ => false

/-- Z and N of a result (R256). -/
def MFlags.zn (f : MFlags) (r : Word64) : MFlags := { f with z := decide (r = 0), n := r.msb }

/-- Flags of a logical operation: C and V are cleared (R256). -/
def MFlags.logic (f : MFlags) (r : Word64) : MFlags := { f.zn r with c := false, v := false }

/-- Flags of a shift: C is the last bit shifted out, V is 0 (R256). -/
def MFlags.shift (f : MFlags) (r : Word64) (out : Bool) : MFlags := { f.zn r with c := out, v := false }

/-- A + B and its flags: carry, and signed overflow. -/
def addFlags (f : MFlags) (a b : Word64) : Word64 × MFlags :=
  let r := a + b
  (r, { f.zn r with c := decide (2 ^ 64 ≤ a.toNat + b.toNat), v := decide (a.msb = b.msb ∧ r.msb ≠ a.msb) })

/-- A - B and its flags: C is 1 when no borrow occurred (R251). -/
def subFlags (f : MFlags) (a b : Word64) : Word64 × MFlags :=
  let r := a - b
  (r, { f.zn r with c := decide (b.toNat ≤ a.toNat), v := decide (a.msb ≠ b.msb ∧ r.msb ≠ a.msb) })

def andFlags (f : MFlags) (a b : Word64) : Word64 × MFlags := (a &&& b, f.logic (a &&& b))
def orFlags (f : MFlags) (a b : Word64) : Word64 × MFlags := (a ||| b, f.logic (a ||| b))
def xorFlags (f : MFlags) (a b : Word64) : Word64 × MFlags := (a ^^^ b, f.logic (a ^^^ b))

/-- Shifts by the low six bits of B (R256). -/
def shlFlags (f : MFlags) (a b : Word64) : Word64 × MFlags :=
  let k := b.toNat % 64
  (a <<< k, f.shift (a <<< k) (decide (k ≠ 0) && a.getLsbD (64 - k)))
def shrFlags (f : MFlags) (a b : Word64) : Word64 × MFlags :=
  let k := b.toNat % 64
  (a >>> k, f.shift (a >>> k) (decide (k ≠ 0) && a.getLsbD (k - 1)))
def sarFlags (f : MFlags) (a b : Word64) : Word64 × MFlags :=
  let k := b.toNat % 64
  (a.sshiftRight k, f.shift (a.sshiftRight k) (decide (k ≠ 0) && a.getLsbD (k - 1)))

/-- Rotation by the low six bits of B: Z and N only. -/
def rolFlags (f : MFlags) (a b : Word64) : Word64 × MFlags :=
  let r := a.rotateLeft (b.toNat % 64)
  (r, f.zn r)

/-- The low 64 bits of A × B: Z and N only. -/
def mulFlags (f : MFlags) (a b : Word64) : Word64 × MFlags := (a * b, f.zn (a * b))

/-- A mask of w ones. -/
def ones (w : Nat) : Word64 := BitVec.ofNat 64 (2 ^ w - 1)

/-- A bit field of A: Z and N only (R256). -/
def extFlags (f : MFlags) (a : Word64) (pos width : Nat) : Word64 × MFlags :=
  let r := (a >>> pos) &&& ones width
  (r, f.zn r)

/-- A with a bit field replaced by B's low bits: Z and N only (R256). -/
def insFlags (f : MFlags) (a b : Word64) (pos width : Nat) : Word64 × MFlags :=
  let m := ones width <<< pos
  let r := (a &&& ~~~m) ||| ((b <<< pos) &&& m)
  (r, f.zn r)

/-- The CRC-32C register after 8 bytes of B, without a final XOR: Z only (R256). -/
def crcFlags (f : MFlags) (a b : Word64) : Word64 × MFlags :=
  let r := ((leBytes 8 b.toNat).foldl crcCByte (a.truncate 32)).zeroExtend 64
  (r, { f with z := decide (r = 0) })

/-- The ones'-complement sum of A[15:0] and the four 16-bit parts of B, folded: Z only (R256). -/
def csumFlags (f : MFlags) (a b : Word64) : Word64 × MFlags :=
  let part (k : Nat) : Nat := b.toNat / 2 ^ (16 * k) % 65536
  let r := BitVec.ofNat 64 (fold16 (a.toNat % 65536 + part 0 + part 1 + part 2 + part 3))
  (r, { f with z := decide (r = 0) })

end Sys2Proof.Machine
end

