-- ==== Sys2Proof/Machine/Operands.lean ====
section
/-!
DEFINITION. Microwords and their operands: fields, registers, the engine's memory spaces, the words of a control store
(ch. 7, 8; R214 to R219, R233, R249, R252, R262).
-/
namespace Sys2Proof.Machine

/-! ### Microwords (R249) -/

/-- The fields of a microword. -/
structure MWord where
  op : Nat := 0xFF
  dst : Nat := 0
  srcA : Nat := 0
  srcB : Nat := 0
  bImm : Bool := false
  nf : Bool := false
  cond : Nat := 0
  wait : Nat := 0
  waitId : Nat := 0
  count : Nat := 0
  space : Nat := 0
  offReg : Bool := false
  net : Bool := false
  size : Nat := 0
  offset : Nat := 0
  pos : Nat := 0
  width : Nat := 0
  target : Nat := 0
  aux : Nat := 0
  imm : Nat := 0
  deriving DecidableEq, Repr

/-- The word of its 32 bytes (R249). -/
def mword (l : List Byte) : MWord :=
  let w := leNat (padTo 32 l)
  { op := bits w 7 0, dst := bits w 11 8, srcA := bits w 15 12, srcB := bits w 19 16, bImm := bit w 20, nf := bit w 21,
    cond := bits w 25 22, wait := bits w 28 26, waitId := bits w 30 29, count := bits w 39 32, space := bits w 42 40,
    offReg := bit w 43, net := bit w 44, size := bits w 47 45, offset := bits w 56 48, pos := bits w 69 64,
    width := bits w 76 70, target := bits w 91 78, aux := bits w 127 96, imm := bits w 191 128 }

/-- WORD_COUNT of a control-store image (R262). -/
def csWords (g : List Byte) : Nat := imH g 8

/-- The word at an address of an image; beyond WORD_COUNT the bank holds OP 0xFF (R261, R263). -/
def csWord (g : List Byte) (a : Nat) : MWord := if a < csWords g then mword (slice g (1408 + 32 * a) 32) else {}

/-- Dispatch entry and trap vector of an image (R262). -/
def csDispatch (g : List Byte) (o : Nat) : Nat := imW g (256 + 4 * o)
def csVector (g : List Byte) (c : Nat) : Nat := imW g (1280 + 4 * c)

/-! ### Engines -/

/-- Control-store image of a bank. -/
def State.store (s : State) (p b : Nat) : List Byte := if b = 0 then (s.pipe p).store0 else (s.pipe p).store1

def State.engine (s : State) (p t : Nat) : Engine := tabGet (fun _ => {}) (s.pipe p).engines t
def State.setEngine (s : State) (p t : Nat) (e : Engine) : State :=
  s.setPipe p { s.pipe p with engines := tabSet (fun _ => {}) (s.pipe p).engines t e }

/-- A general register (R214). -/
def Engine.reg (e : Engine) (k : Nat) : Word64 := tabGet (fun _ => 0) e.g k
def Engine.setReg (e : Engine) (k : Nat) (v : Word64) : Engine := { e with g := tabSet (fun _ => 0) e.g k v }

/-- The flags of an engine. -/
def Engine.flags (e : Engine) : MFlags := { z := e.z, n := e.n, c := e.c, v := e.v }
def Engine.setFlags (e : Engine) (f : MFlags) : Engine := { e with z := f.z, n := f.n, c := f.c, v := f.v }

/-- Operands A and B, and what OFF_REG adds (R249). -/
def Engine.opA (e : Engine) (w : MWord) : Word64 := e.reg w.srcA
def Engine.opB (e : Engine) (w : MWord) : Word64 := if w.bImm then BitVec.ofNat 64 w.imm else e.reg w.srcB
def Engine.off (e : Engine) (w : MWord) : Nat := if w.offReg then (e.reg w.srcA).toNat else 0

/-! ### Spaces (R215, R216, R219, R233) -/

/-- Size of a space that LD and ST reach (R215). -/
def spaceSize (k : Nat) : Nat := if k = 0 then 256 else if k = 1 then 128 else if k = 2 then 192 else if k = 3 then 16 else 0

/-- A byte of a header window over the frame bytes received: the written one, else the frame's (R216, R217). -/
def winByte (win : Tab (Option Byte)) (recv : List Byte) (k : Nat) : Byte :=
  match tabGet (fun _ => none) win k with
  | some b => b
  | none => if 64 ≤ k then recv.getD (k - 64) 0 else 0

/-- Window bytes from k, n long. -/
def winBytes (win : Tab (Option Byte)) (recv : List Byte) (k n : Nat) : List Byte := (rangeFrom k n).map (winByte win recv)

/-- Bytes written to a window. -/
def winWrite (win : Tab (Option Byte)) (k : Nat) (l : List Byte) : Tab (Option Byte) :=
  ((rangeFrom 0 l.length).zip l).foldl (fun w e => tabSet (fun _ => none) w (k + e.1) (some e.2)) win

/-- Whether a window byte has still to arrive: not written, and below L of a frame that has not ended (R217). -/
def winAwaited (win : Tab (Option Byte)) (f : Frame) (k : Nat) : Bool :=
  tabGet (fun _ => none) win k = none && decide (64 ≤ k ∧ f.recv.length ≤ k - 64 ∧ k - 64 < 192) && !f.ended

/-- Metadata bytes that hold an RO field: 0 to 6, 8 to 10, and the receive timestamp (R219). -/
def mdReadOnly (k : Nat) : Bool := decide (k ≤ 6 ∨ (8 ≤ k ∧ k ≤ 10) ∨ (16 ≤ k ∧ k ≤ 26))

/-- The bits of a metadata byte that a store sets; reserved bits stay 0 (R219, R252). -/
def mdMask (k : Nat) : Nat :=
  if k = 29 ∨ k = 31 ∨ k = 51 ∨ k = 53 then 0x01
  else if k = 33 then 0x83
  else if k = 35 then 0x81
  else if k = 37 then 0x7F
  else if k = 42 then 0x3F
  else if (12 ≤ k ∧ k ≤ 15) ∨ k = 28 ∨ k = 30 ∨ k = 32 ∨ k = 34 ∨ k = 36 ∨ (38 ≤ k ∧ k ≤ 41) ∨ (44 ≤ k ∧ k ≤ 46) ∨
      k = 48 ∨ k = 49 ∨ k = 50 ∨ k = 52 ∨ (64 ≤ k ∧ k < 128) then 0xFF
  else 0

/-- Trap-frame bytes that hold an RO field (R233). -/
def tfReadOnly (k : Nat) : Bool := decide (k = 2 ∨ k = 3 ∨ k = 4 ∨ k = 6 ∨ k = 8 ∨ k = 9 ∨ 12 ≤ k)

def tfMask (k : Nat) : Nat := if k = 0 then 0xFF else if k = 1 then 0x3F else if k = 5 then 0x0F else 0

/-- Bytes stored under a mask. -/
def maskedPut (l : List Byte) (mask : Nat → Nat) (k : Nat) (v : List Byte) : List Byte :=
  putBytes l k (((rangeFrom k v.length).zip v).map (fun e => e.2 &&& BitVec.ofNat 8 (mask e.1)))

/-- The bytes of a space as microcode reads them (R215). -/
def Engine.spaceBytes (e : Engine) (recv : List Byte) (space k n : Nat) : List Byte :=
  match space with
  | 0 => winBytes e.win recv k n
  | 1 => padTo n (slice e.md k n)
  | 2 => padTo n (slice e.result k n)
  | _ => if e.handler = 0 then List.replicate n 0 else padTo n (slice e.trap k n)

/-- Address of a memory operand, in full arithmetic (R252). -/
def Engine.address (e : Engine) (w : MWord) : Nat := w.offset + e.off w

/-- Whether a store of n bytes at k of a space raises WINDOW (R215, R252). -/
def Engine.storeTraps (e : Engine) (space k n : Nat) : Bool :=
  decide (spaceSize space < k + n ∨ space = 2 ∨ (space = 3 ∧ e.handler = 0)) ||
    (decide (space = 1) && (rangeFrom k n).any mdReadOnly) || (decide (space = 3) && (rangeFrom k n).any tfReadOnly)

/-- A store to a space (R252). -/
def Engine.store (e : Engine) (space k : Nat) (v : List Byte) : Engine :=
  match space with
  | 0 => { e with win := winWrite e.win k v }
  | 1 => { e with md := maskedPut e.md mdMask k v }
  | 3 => { e with trap := maskedPut e.trap tfMask k v }
  | _ => e

/-- A value of 2^SIZE bytes, and its bytes (R252). -/
def memValue (net : Bool) (l : List Byte) : Word64 := BitVec.ofNat 64 (if net then beNat l else leNat l)
def memBytes (net : Bool) (n : Nat) (v : Word64) : List Byte := if net then beBytes n v.toNat else leBytes n v.toNat

/-! ### Metadata fields (R219) -/

/-- Bits [hi:lo] of the little-endian field of n bytes at byte k. -/
def mdField (l : List Byte) (k n hi lo : Nat) : Nat := bits (leNat (padTo n (slice l k n))) hi lo

def mdHeadStart (l : List Byte) : Nat := mdField l 28 2 8 0
def mdHeadEnd (l : List Byte) : Nat := mdField l 30 2 8 0
def mdL3 (l : List Byte) : Option (Nat × Bool) :=
  if mdField l 32 2 15 15 = 1 then some (mdField l 32 2 8 0, decide (mdField l 32 2 9 9 = 1)) else none
def mdL4 (l : List Byte) : Option Nat := if mdField l 34 2 15 15 = 1 then some (mdField l 34 2 8 0) else none
def mdKind (l : List Byte) : Nat := mdField l 36 1 2 0
def mdQueue (l : List Byte) : Option Nat := if mdField l 36 1 3 3 = 1 then some (mdField l 44 2 15 0) else none
def mdOutTc (l : List Byte) : Nat := mdField l 36 1 7 4
def mdColour (l : List Byte) : Nat := mdField l 37 1 1 0
def mdCancel (l : List Byte) : Bool := decide (mdField l 37 1 2 2 = 1)
def mdCtDis (l : List Byte) : Bool := decide (mdField l 37 1 3 3 = 1)
def mdPtpAct (l : List Byte) : Nat := mdField l 37 1 5 4
def mdResidence (l : List Byte) : Bool := decide (mdField l 37 1 6 6 = 1)
def mdPtpTag (l : List Byte) : Nat := mdField l 38 2 15 0
def mdDest (l : List Byte) : Nat := mdField l 40 4 21 0
def mdHash (l : List Byte) : Nat := mdField l 12 4 31 0
def mdPunt (l : List Byte) : Nat := mdField l 48 2 15 0
/-- The samplers that the routine offers the frame to. -/
def mdMirrors (l : List Byte) : List Nat :=
  (if mdField l 50 2 8 8 = 1 then [mdField l 50 2 7 0] else []) ++ (if mdField l 52 2 8 8 = 1 then [mdField l 52 2 7 0] else [])
def mdUser (l : List Byte) : List Byte := padTo 32 (slice l 96 32)

/-- COLOUR replaced (R259). -/
def setColour (l : List Byte) (v : Nat) : List Byte := putBytes l 37 [BitVec.ofNat 8 (imB l 37 / 4 * 4 + v % 4)]

end Sys2Proof.Machine
end

