-- ==== Sys2Proof/Machine/Receive.lean ====
section
/-!
DEFINITION. Frame reception on the front ports (ch. 2, 9, 11; R47, R59, R64, R71, R147, R269, R272, R279, R290, R291,
R338, R340, R348).
-/
namespace Sys2Proof.Machine

/-! ### Classification (R272) -/

/-- Big-endian 16-bit value at byte k of a frame. -/
def beH (l : List Byte) (k : Nat) : Nat := beNat (padTo 2 (slice l k 2))

/-- Whether a frame has one tag of 0x8100 or 0x88A8. -/
def tagged (l : List Byte) : Bool := decide (beH l 12 = 0x8100 ∨ beH l 12 = 0x88A8)

/-- DSCP of the IP header that follows an EtherType at byte k. -/
def dscpAt (l : List Byte) (k : Nat) : Option Nat :=
  if l.length < k + 4 then none
  else if beH l k = 0x0800 then some (imB l (k + 3) / 4)
  else if beH l k = 0x86DD then some (imB l (k + 2) % 16 * 4 + imB l (k + 3) / 64)
  else none

/-- The class field of a frame's joist header: of the first record that the active graph's JOIST_ID designates, as far as
the frame's first 20 bytes give it (R92, R272, R337, R340; log entry 206). -/
def State.joistTc (s : State) (n total : Nat) (l : List Byte) : Option Nat :=
  let p := pipeOf n
  let g := s.graph p (s.trussBank p)
  let x := l.take 20
  if s.graphValid p = false ∨ imB g 16 = 0 then none
  else match (parseGraph g x total n).recs.find? (fun r => decide (r.1 = imB g 16)) with
    | some r => if r.2.1 + 2 < x.length then some (imB x (r.2.1 + 2) % 16) else none
    | none => none

/-- IN_TC of a frame of port n with its length (R272). -/
def State.inTcOf (s : State) (n total : Nat) (l : List Byte) : Nat :=
  let b := rportBase n
  let d := s.rd b Reg.RIDGE_PORT_A_DEFAULT_TC
  let pcp := if tagged l ∧ 14 < l.length then some (bits (s.reg (b + 0x1004)) (4 * (imB l 14 / 32) + 3) (4 * (imB l 14 / 32))) else none
  let ip := (dscpAt l (if tagged l then 16 else 12)).map (fun x =>
    s.rd wRidge (Reg.RIDGE_DSCP (s.rd b Reg.RIDGE_PORT_A_DSCP_MAP) x))
  match s.rd b Reg.RIDGE_PORT_A_TC_MODE with
  | 1 => pcp.getD d
  | 2 => ip.getD d
  | 3 => if tagged l then pcp.getD d else ip.getD d
  | 4 => (s.joistTc n total l).getD d
  | _ => d

/-! ### Bytes as they arrive (R216, R217, R269) -/

/-- Bytes that arrive for a frame: before END they join it; after END those below index 192 go to the places that
wait for them, and the rest follows the rewritten head (R216, R217). -/
def Frame.arrive (f : Frame) (l : List Byte) : Frame :=
  if f.rewritten = false then { f with recv := f.recv ++ l, bytes := f.bytes ++ l }
  else l.foldl (fun f b =>
    let k := f.recv.length
    let g := { f with recv := f.recv ++ [b] }
    if 192 ≤ k then { g with bytes := g.bytes ++ [b] }
    else match f.missing.find? (fun e => decide (e.1 = k)) with
      | some e => { g with bytes := putBytes g.bytes e.2 [b], missing := g.missing.filter (fun x => decide (x.1 ≠ k)) }
      | none => g) f

/-- The cells of a frame brought up to n bytes (R268, R269), and whether its pair could serve all of them: the cells
served before one that is not stay written, and the XOFF that they may have entered stands (R275). -/
def State.growCells (s : State) (i n : Nat) : Bool × State :=
  let f := s.frame i
  let k := cellsFor n - f.cells
  let r := s.chargeCells f.pairPort f.pairTc k
  (decide (k ≤ r.1.length),
    r.2.setFrame i { r.2.frame i with cells := f.cells + r.1.length, held := f.held ++ r.1 })

/-- A cell that no source can serve drops the whole frame: at once, or, once it is being sent, as R290 says (R279). A frame
under link retransmit is not yet in a pipeline. -/
def State.receiveDrop (s : State) (i n : Nat) (retx : Bool) : State :=
  let f := s.frame i
  let s1 := (s.portCount f.pairPort (48 + f.pairTc) 1).event Ev.HEADROOM_DROP 0 (f.pairPort * 16 + f.pairTc)
    (cellsFor n) (s.pairHdrm f.pairPort f.pairTc)
  if retx then (s1.dropFrame i).portCount f.inPort 99 1
  else
    let s2 := s1.spoil i 4
    if s.beingSent i then s2 else s2.freeCells i

/-! ### Receptions -/

def State.reception (s : State) (n m : Nat) : Option Receiving := tabGet (fun _ => none) (s.port n).receiving m
def State.setReception (s : State) (n m : Nat) (r : Option Receiving) : State :=
  s.setPort n { s.port n with receiving := tabSet (fun _ => none) (s.port n).receiving m r }

/-- What a piece of a frame brings: the port, the MAC (0 express, 1 preemptable), the frame's whole length without FCS
as the medium will carry it, the bytes, and, with the last of them, the FCS, or what ended the reception. -/
structure Piece where
  port : Nat
  mac : Nat
  total : Nat
  bytes : List Byte
  last : Bool
  fcs : Nat
  /-- Aborted by its sender (R290). -/
  aborted : Bool
  /-- Fragments out of sequence, or a bad mCRC (R64), and the fragments beyond the first. -/
  broken : Bool
  frags : Nat
  deriving DecidableEq, Repr

/-- The joist fields of a frame: VERSION, SEQ_VALID and SRC_DEV (R337). -/
def joistVersion (l : List Byte) : Nat := imB l 14 / 64
def joistSeqValid (l : List Byte) : Bool := (imB l 15).testBit 6
def joistSrc (l : List Byte) : Nat := beNat (padTo 4 (slice l 16 4)) / 16 % 2 ^ 14

/-- Whether a frame carries a joist header on a domain port. -/
def State.joisted (s : State) (n : Nat) (l : List Byte) : Bool := s.domain n && decide (beH l 12 = 0x88B5)

/-- A frame discarded at its first bytes: in SAFE (R31), or by its joist header (R338, R340). -/
def State.refusedAtStart (s : State) (n : Nat) (l : List Byte) : Option State :=
  if s.halting then some (s.portCount n 113 1)
  else if s.joisted n l && (decide (joistVersion l = 0) || decide (joistVersion l = 3)) then some (s.portCount n 109 1)
  else if s.joisted n l && decide (joistVersion l = 1 ∧ joistSrc l = s.devNum) then
    some (((s.portCount n 111 1).event Ev.DUP_DEVICE 0 n (joistSrc l) (imB l 21)).fault .joist 1 n)
  else none

/-- The first bytes of a frame (R47, R71, R272, R340, R348): settings that wait for the transmit direction are in force for the
receive direction from the first frame on that begins after their command (R77). -/
def State.startReception (s : State) (x : Piece) : State :=
  let n := x.port
  let l := x.bytes
  let addr := if beNat (l.take 6) = 2 ^ 48 - 1 then 2 else imB l 0 % 2
  match s.refusedAtStart n l with
  | some s1 =>
    let seq := if s.halting = false ∧ joistVersion l = 1 ∧ joistSeqValid l then some (jSeq l) else none
    s1.setReception n x.mac (some { drop := true, addr := addr, maxFrame := s.maxFrame n, dup := seq })
  | none =>
    let c := s.inTcOf n x.total l
    let now := s.settled n
    let t := ((s.now : Int) - sInt 32 (s.rd (wPort n) (Reg.PORT_CAL 6))).toNat
    let control := decide (beH l 12 = 0x8808) || (s.joisted n l && decide (joistVersion l = 2))
    let retx := s.joisted n l && decide (joistVersion l = 1) && joistSeqValid l
    let r := s.newFrame { inPort := n, inTc := c, pairPort := n, pairTc := c, total := x.total,
                          rx := some { t := t, cal := s.rdb (wPort n) Reg.PORT_STATUS_CAL_DONE },
                          preempted := decide (x.mac = 1) && now.preempting n, expressIn := now.express n }
    let s1 := r.2.setReception n x.mac (some { frame := r.1, retx := retx, control := control, addr := addr,
                                               maxFrame := s.maxFrame n, pauseMode := s.pauseMode n,
                                               pfcEn := s.rd (wPort n) Reg.PORT_PFC_CFG_PFC_RX_EN })
    if control || retx then s1 else s1.enterWait (pipeOf n) r.1

/-- Bytes of a frame under way (R47, R269, R279). A frame under link retransmit that its pair drops stays one whose SEQ the link
takes or refuses at its end (R348). -/
def State.takeBytes (s : State) (x : Piece) (r : Receiving) : State :=
  let n := x.port
  let len := r.len + x.bytes.length
  let r1 := { r with len := len, crc := x.bytes.foldl crcByte r.crc }
  if r.long = false ∧ r.maxFrame < len + 4 then
    ((s.portCount n 9 1).spoilAll n r 3).setReception n x.mac (some { r1 with drop := true, long := true, dup := none })
  else if r.drop then s.setReception n x.mac (some r1)
  else
    let s1 := forEach (r.frame :: r.also) (fun i s => s.setFrame i ((s.frame i).arrive x.bytes)) s
    let size := (s1.frame r.frame).bytes.length + (if x.last then 4 else 0)
    if r.control then s1.setReception n x.mac (some r1)
    else
      let g := s1.growCells r.frame size
      if g.1 then g.2.setReception n x.mac (some r1)
      else
        (forEach r.also (fun i s => s.spoil i 4) (g.2.receiveDrop r.frame size r.retx)).setReception n x.mac
          (some { r1 with drop := true, dup := if r.retx then some (jSeq (s1.frame r.frame).bytes) else none })

/-- A MAC Control frame, or a link control frame, taken when it has ended well (R55 to R59, R348). -/
def State.consume (s : State) (n : Nat) (r : Receiving) : State :=
  let l := (s.frame r.frame).bytes
  let s1 := s.dropFrame r.frame
  if beH l 12 = 0x8808 then
    if beH l 14 = 0x0101 then s1.rxPfc n r.pauseMode r.pfcEn (imB l 17) ((rangeFrom 0 8).map (fun j => beH l (18 + 2 * j)))
    else if beH l 14 = 0x0001 then s1.rxPause n r.pauseMode (beH l 16)
    else s1.rxControl n
  else if s1.retxRuns n = false then s1
  else
    match imB l 14 % 4 with
    | 0 => s1.ackUpTo n (beH l 16 % 4096)
    | 1 => s1.resendFrom n (beH l 16 % 4096)
    | 2 => s1.rxResync n (beH l 16 % 4096)
    | _ => s1

/-- A frame and its clones have ended well: the learn request is issued (R147), and offers are made (R292). -/
def State.endGood (s : State) (n : Nat) (r : Receiving) : State :=
  let s1 := forEach (r.frame :: r.also) (fun i s => (s.setFrame i { s.frame i with ended := true }).offerFrame i) s
  match r.learn with
  | some (key, port) => s1.learnRequest (pipeOf n) key port
  | none => s1

/-- Clause 30 counts of a good frame of len bytes without FCS (R577). -/
def State.rxClause30 (s : State) (n len addr : Nat) : State :=
  let s1 := (s.portCount n 1 1).portCount n 4 (len - 14)
  if addr = 2 then s1.portCount n 8 1 else if addr = 1 then s1.portCount n 7 1 else s1

/-- The end of a reception (R47, R64, R147, R229, R290, R291, R348). -/
def State.endReception (s : State) (x : Piece) (r : Receiving) : State :=
  let n := x.port
  let s0 := (s.setReception n x.mac none).countBytes n 0 (r.len + 4)
  let s1 := (s0.countCharges n (r.len + 4) r).noteLen r.frame (r.len + 4)
  let good := decide ((r.crc ^^^ 0xFFFFFFFF#32).toNat = x.fcs)
  if r.long then s1
  else if x.broken then (s1.portCount n 17 1).spoilAll n r 1
  else if x.aborted then s1.spoilAll n r 2
  else if r.len + 4 < 64 then
    let s2 := s1.portCount n 23 1
    if r.drop then s2 else if r.control ∨ r.retx then s2.dropFrame r.frame
    else forEach (r.frame :: r.also) (fun i s => s.spoilQuiet i 2) s2
  else if good = false then (s1.portCount n 2 1).spoilAll n r 1
  else
    let s2 := s1.rxClause30 n r.len r.addr
    let s3 := if x.frags = 0 then s2 else (s2.portCount n 19 1).portCount n 20 x.frags
    if r.drop then
      (match r.dup with
       | some k => (s3.retxCheck n k true).2
       | none => s3)
    else if r.control then s3.consume n r
    else if r.retx then s3.endRetx n r.frame true
    else s3.endGood n r

/-- A piece of a frame arrives on a port; only a port in UP delivers frames (R676). -/
def State.rxPiece (s : State) (x : Piece) : State :=
  if s.portUp x.port = false then s
  else
    let s1 := if (s.reception x.port x.mac).isNone then s.startReception x else s
    match s1.reception x.port x.mac with
    | none => s1
    | some r =>
      let s2 := s1.takeBytes x r
      if x.last = false then s2
      else match s2.reception x.port x.mac with
        | some r2 => s2.endReception x r2
        | none => s2

/-! ### Rows -/

/-- A frame that the firmware sends enters a pipeline through the service port, in the class that the firmware gives: it is
complete, is charged to that port's pair, and is not sent while the pair is in XOFF or no service engine runs (R82, R243,
R245, R271, R272, R276). -/
def State.firmwareFrame (s : State) (p tc : Nat) (l : List Byte) : State :=
  let running := (rangeFrom 0 16).any s.svcLive
  if s.halting ∨ running = false ∨ s.pairXoff 140 tc ∨ l = [] then s
  else
    let k := cellsFor (l.length + 4)
    let r := s.newFrame { bytes := l, recv := l, ended := true, inPort := 140, inTc := tc, pairPort := 140, pairTc := tc,
                          outTc := tc }
    let c := r.2.chargeCells 140 tc k
    let s1 := c.2.setFrame r.1 { c.2.frame r.1 with cells := c.1.length, held := c.1 }
    if c.1.length < k then s1.headroomDrop r.1 k else s1.enterWait p r.1

/-- What the physical layer of a port in UP counts (R577): FEC codewords corrected and uncorrectable, where the link uses FEC,
with the port's fault source of those (R607), and fragments rejected for their SMD, where preemption is active. -/
def State.phyCount (s : State) (n : Nat) (c : PhyCounts) : State :=
  if s.portUp n = false then s
  else
    let fec := s.rd (wPort n) Reg.PORT_STATUS_FEC_RESOLVED ≠ 0
    let s1 := if fec then (s.portCount n 15 c.corrected.toNat).portCount n 16 c.uncorrectable.toNat else s
    let s2 := if fec ∧ c.uncorrectable ≠ 0 then s1.faultPort n 3 n else s1
    if s.preempting n then s2.portCount n 18 c.smd.toNat else s2

/-- Row RX_FRAME: a piece of a frame, or a whole one. `total` is the frame's length without FCS; `fcs`, `aborted`,
`broken` and `frags` belong to the last piece, and `phy` is what the physical layer has counted since the piece before (log
entry 244). With `svc` the frame is one of the firmware, whole, for a pipeline and in a class. -/
def execRxFrame (n : Fin 128) (mac : Fin 2) (total : BitVec 15) (bytes : List Byte) (last : Bool) (fcs : Word32)
    (aborted broken : Bool) (frags : BitVec 8) (phy : PhyCounts) (svc : Option (Fin 8 × Fin 16)) (s : State) : Out :=
  .next (match svc with
    | some (p, tc) => s.firmwareFrame p.val tc.val bytes
    | none =>
      (s.phyCount n.val phy).rxPiece { port := n.val, mac := mac.val, total := total.toNat, bytes := bytes, last := last,
                                       fcs := fcs.toNat, aborted := aborted, broken := broken, frags := frags.toNat })

/-- Row RX_RETX_FRAME: a whole frame with SEQ_VALID 1 on a domain port, received on the express MAC. -/
def execRxRetxFrame (n : Fin 128) (bytes : List Byte) (fcs : Word32) (s : State) : Out :=
  if s.joisted n.val bytes && decide (joistVersion bytes = 1) && joistSeqValid bytes && (s.reception n.val 0).isNone then
    .next (s.rxPiece { port := n.val, mac := 0, total := bytes.length, bytes := bytes, last := true, fcs := fcs.toNat,
                       aborted := false, broken := false, frags := 0 })
  else .next s

end Sys2Proof.Machine
end

