-- ==== Sys2Proof/Machine/Tenon.lean ====
section
/-!
DEFINITION. The Tenon action engines: dispatch, waits, traps, requests, the end of a routine and parking (ch. 7, 8; R209
to R237, R254, R255, R260, R261, R270, R582).
-/
namespace Sys2Proof.Machine

/-! ### Cycles (R4, R224) -/

/-- The active control-store bank of a pipeline (R238). -/
def State.csBank (s : State) (p : Nat) : Nat := s.rd (wPipe p) Reg.PIPE_TENON_STATUS_ACTIVE_BANK
def State.csValid (s : State) (p : Nat) : Bool := s.rdb (wPipe p) Reg.PIPE_TENON_STATUS_ACTIVE_VALID

/-- RESERVE of a pipeline (R211). -/
def State.csReserve (s : State) (p : Nat) : Nat := s.rd (wPipe p) Reg.PIPE_TENON_CFG_RESERVE

/-- Cycles spent by an engine; those of the LIMIT handler are counted apart (R234). -/
def Engine.spend (e : Engine) (n : Nat) : Engine :=
  { e with cycles := e.cycles + n, own := if e.handler = 1 then e.own + n else e.own }

/-- A word has executed: the next address, after n cycles. -/
def Engine.goTo (e : Engine) (a n : Nat) : Engine := { e.spend n with upc := a % 16384 }
def Engine.next (e : Engine) (n : Nat) : Engine := e.goTo (e.upc + 1) n

/-! ### Requests (R223, R254, R255) -/

/-- Kind of a request: the wait code of R222. -/
def ReqOp.kind : ReqOp → Nat
  | .lookup _ _ => 1
  | .meter _ _ _ _ => 2
  | .cells _ => 3
  | .stRead _ | .stWrite _ _ | .stAdd _ _ | .stSwap _ _ _ | .hostRead _ _ | .hostWrite _ _ _ => 5
  | .dRead _ _ | .dWrite _ _ _ => 6

/-- Requests of the routine that engine t of pipeline p runs. -/
def State.ownReqs (s : State) (p t : Nat) : List Req :=
  let e := s.engine p t
  s.tenon.reqs.filter (fun r => decide (r.pipe = p ∧ r.engine = t ∧ r.routine = e.routine) && e.busy)

def State.setReqs (s : State) (l : List Req) : State := { s with tenon := { s.tenon with reqs := l } }

/-- Requests issued of a kind. -/
def Engine.count (e : Engine) (kind : Nat) : Nat := tabGet (fun _ => 0) e.issued kind

/-- A request is issued; its word costs one cycle (R223). -/
def State.request (s : State) (p t : Nat) (op : ReqOp) (regs : List Nat) : State :=
  let e := s.engine p t
  let k := op.kind
  let r : Req := { pipe := p, engine := t, routine := e.routine, num := e.count k, op := op, regs := regs, epoch := e.epoch }
  (s.setEngine p t ({ e with issued := tabSet (fun _ => 0) e.issued k (e.count k + 1) }.next 1)).setReqs (s.tenon.reqs ++ [r])

/-! ### Discarding and handing over (R213, R235, R237, R270) -/

/-- Cells reserved for a clone of frame f go back (R230). -/
def State.cloneBack (s : State) (f : Frame) (l : List Nat) : State :=
  if l = [] then s else (s.putCells l).releaseCells f.pairPort f.pairTc l.length

/-- Cells reserved for clones go back (R230, R235). -/
def State.freeClones (s : State) (e : Engine) : State :=
  let f := s.frame e.frame
  forEach e.clones (fun c s => s.cloneBack f (c.cells.getD [])) s

/-- Time of now as a sample record and a dump give it: nanoseconds, then seconds from bit 30 (R583, R587). -/
def State.stampBytes (s : State) : List Byte := leBytes 8 (timeNs s.now + 2 ^ 30 * (timeSec s.now % 2 ^ 34))

/-- The condition that a word awaits as an engine runs it: the one it waits on, or that of its WAIT (R222, R583). -/
def awaited (e : Engine) (w : MWord) : Nat := if e.wait = 0 then w.wait else e.wait

/-- Sample records of the marked packet of an engine whose routine ends (R582, R583). -/
def State.sampleEnd (s : State) (p t : Nat) (discarded : Bool) : State :=
  let e := s.engine p t
  let mine := (s.marks p).filter (fun m => decide (m.engine = some t))
  let s1 := s.setMarks p ((s.marks p).filter (fun m => decide (m.engine ≠ some t)))
  forEach mine (fun m s =>
    let held := tabGet (fun _ => []) s.gauge.samples p
    let r := leBytes 2 (if m.atEnd then e.upc else m.upc) ++ leBytes 1 (t + 64 * b2n discarded + 128 * e.bank) ++
      leBytes 1 (if m.atEnd then awaited e (csWord (s.store p e.bank) e.upc) else m.cond) ++ slice e.md 0 2 ++
      leBytes 1 e.opcode ++ leBytes 1 m.ctr ++
      leBytes 4 (s.ccNow - e.entered) ++ leBytes 2 (min 65535 e.cycles) ++ leBytes 2 (min 65535 m.waited) ++ s.stampBytes
    if 4096 ≤ held.length then s.incSat (wGauge + 4 * p) Reg.GAUGE_SAMPLE_SAMPLES_LOST 1
    else
      let s2 := { s with gauge := { s.gauge with samples := tabSet (fun _ => []) s.gauge.samples p (held ++ [padTo 32 r]) } }
      s2.wr (wGauge + 4 * p) Reg.GAUGE_SAMPLE_HELD (held.length + 1)) s1

/-- The routine of an engine is over: its requests that yield only to it go, its work in flight ends (R200, R255). -/
def State.freeEngine (s : State) (p t : Nat) (discarded : Bool) : State :=
  let e := s.engine p t
  let mine := s.ownReqs p t
  let s1 := s.sampleEnd p t discarded
  let lat := s.ccNow - e.entered
  let s2 := s1.pcEvent (some p) 0x07 1 (fun x => decide (x < lat)) {}
  let s3 := s2.setReqs (s2.tenon.reqs.filter (fun r => !(mine.contains r && (r.failed.isSome || decide (r.op.kind = 3)))))
  (s3.setEngine p t { parked := e.parked }).inFlightAdd p e.epoch (-1)

/-- The egress port of a frame for a system port, as its route's members stand: a port of the device itself, or member
h mod m of those that are UP with DOMAIN 1; none where there is no such member (R306, R343). -/
def State.memberPort (s : State) (hash d : Nat) : Option Nat :=
  if d / 256 = s.devNum then some (d % 256)
  else
    let l := (s.route (d / 256)).filter (fun n => s.portUp n && s.domain n)
    l[hash % l.length]?

/-- A frame goes to Ridge with its destination (R213, R221, R269, R291, R306). The member of a route is chosen here, at
admission; a packet that finds none any more is discarded as at END, and the cells that its clones share stay (R343). -/
def State.handOver (s : State) (p : Nat) (h : Hand) : State :=
  let f := s.frame h.frame
  if f.bad ≠ 0 then s.dropFrame h.frame
  else if h.kind = 2 then (s.admitGroup h.frame h.dest).offerFrame h.frame
  else
    match (if h.kind = 1 then s.memberPort f.hash h.dest else some h.dest) with
    | none => if f.refs = 0 then (s.pipeCount p 96 1).dropFrame h.frame else s.pipeCount p 96 1
    | some n =>
      let c := s.chooseQ n f.outTc h.queue
      (c.2.admitTo h.frame c.1 none).offerFrame h.frame

/-- The first packet of a list that waits for no earlier packet of its pair (R213). -/
def State.handable (s : State) (p : Nat) : Option Held :=
  let y := s.pipe p
  let running (x : Held) : Bool := y.engines.any (fun e => e.2.busy && decide (e.2.routine < x.routine ∧
    (s.frame e.2.frame).inPort = x.port ∧ (s.frame e.2.frame).inTc = x.tc))
  let behind (x : Held) : Bool := y.held.any (fun z => decide (z.routine < x.routine ∧ z.port = x.port ∧ z.tc = x.tc))
  y.held.find? (fun x => !running x && !behind x)

/-- Every packet that may be is handed over, at most n of them. -/
def State.flushHeld (s : State) (p : Nat) : Nat → State
  | 0 => s
  | n + 1 =>
    match s.handable p with
    | some x =>
      let s1 := s.setPipe p { s.pipe p with held := (s.pipe p).held.erase x }
      (forEach x.hands (fun h s => s.handOver p h) s1).flushHeld p n
    | none => s

/-- Tenon discards the packet of an engine, counted in a slot of R578 (R235). -/
def State.discardRoutine (s : State) (p t slot : Nat) : State :=
  let e := s.engine p t
  let s1 := ((s.pipeCount p slot 1).freeClones e).freeEngine p t true
  (s1.dropFrame e.frame).flushHeld p ((s1.pipe p).held.length)

/-! ### Traps (R231 to R234, R260) -/

/-- A trap of engine t (R231, R234, R260): its handler is entered, or the packet is discarded. -/
def State.raiseTrap (s : State) (p t cause detail resume cond : Nat) : State :=
  let e := s.engine p t
  let v := csVector (s.store p e.bank) cause
  if e.handler ≠ 0 then (s.event Ev.TRAP_DOUBLE p (64 * p + t) cause e.upc).discardRoutine p t (64 + cause)
  else if v.testBit 15 = false then (s.event Ev.TRAP_UNHANDLED p (64 * p + t) cause e.upc).discardRoutine p t (64 + cause)
  else
    let cf := 8 * b2n e.z + 4 * b2n e.n + 2 * b2n e.c + b2n e.v
    let frame := leBytes 2 resume ++ leBytes 2 e.upc ++ leBytes 1 cause ++ leBytes 1 cf ++ leBytes 1 cond ++ [0] ++
      leBytes 2 (e.cycles % 4096) ++ [0, 0] ++ leBytes 4 detail
    s.setEngine p t { e with trap := frame, handler := cause, own := 0, wait := 0, timed := false, upc := v % 16384,
                             cycles := if cause = 1 then e.cycles else e.cycles + 4 }

/-- A fault of the word at UPC: the word takes no effect. -/
def State.wordTrap (s : State) (p t cause detail : Nat) : State := s.raiseTrap p t cause detail (s.engine p t).upc 0

/-- Cycles that an engine has left (R224, R234). -/
def Engine.left (e : Engine) : Nat := if e.handler = 1 then 64 - e.own else e.limit - e.cycles

/-- Whether an engine has used up its cycles (R224, R234). -/
def Engine.exhausted (e : Engine) : Bool := decide (e.left = 0)

/-- The cycle count has reached LIMIT: the trap takes the place of the next word (R224). -/
def State.limitTrap (s : State) (p t : Nat) : State := s.raiseTrap p t 1 0 0 0

/-- Whether the FRAME_BAD interrupt is due (R231, R232). -/
def State.frameBadDue (s : State) (p t : Nat) : Bool :=
  let e := s.engine p t
  let b := (s.frame e.frame).bad
  e.busy && !e.badSeen && decide (e.handler = 0 ∧ (b = 1 ∨ b = 2))

/-! ### Waits (R222, R223, R250, R253 to R255) -/

/-- Registers that a word reads or writes (R254, R256). -/
def MWord.regs (w : MWord) : List Nat :=
  let b := if w.bImm then [] else [w.srcB]
  let o := if w.offReg then [w.srcA] else []
  let d := [w.dst]
  if w.op = 0x01 then d ++ b
  else if w.op = 0x0C ∨ w.op = 0x0D then w.srcA :: b
  else if w.op = 0x0E then [w.dst, w.srcA]
  else if 0x02 ≤ w.op ∧ w.op ≤ 0x11 then w.dst :: w.srcA :: b
  else if w.op = 0x20 ∨ w.op = 0x28 ∨ w.op = 0x30 then d ++ o
  else if w.op = 0x21 ∨ w.op = 0x29 ∨ w.op = 0x31 then b ++ o
  else if w.op = 0x2A ∨ w.op = 0x2B ∨ w.op = 0x3C then d ++ b ++ o
  else if w.op = 0x38 then rangeFrom w.dst 4 ++ rangeFrom w.srcA (if w.aux % 4 = 1 then 3 else 1)
  else if w.op = 0x40 ∨ w.op = 0x4A then d
  else if w.op = 0x49 then [w.srcA]
  else if w.op = 0x50 then rangeFrom w.dst 2
  else []

/-- Kind of the request that an operation issues, 0 for none (R223). -/
def opKind (op : Nat) : Nat :=
  if 0x28 ≤ op ∧ op ≤ 0x2B then 5 else if op = 0x30 ∨ op = 0x31 then 6 else if op = 0x38 then 1
  else if op = 0x3C then 2 else if op = 0x40 then 3 else 0

/-- Header-window bytes that a word reads (R253). -/
def Engine.windowReads (e : Engine) (w : MWord) : List Nat :=
  if w.op = 0x20 ∧ w.space = 0 then
    (if e.address w + 2 ^ w.size ≤ 256 then rangeFrom (e.address w) (2 ^ w.size) else [])
  else if w.op = 0x22 then
    (if w.imm % 512 + w.aux % 128 ≤ 256 then rangeFrom (w.imm % 512) (w.aux % 128) else [])
  else if w.wait = 7 then [w.offset]
  else []

/-- What keeps a word from issuing. -/
inductive Block where
  | go
  | wait (cond : Nat)
  | fail (cause detail : Nat)
  deriving DecidableEq, Repr

/-- Whether a word reads header-window bytes as its operation (R253). -/
def MWord.readsWindow (w : MWord) : Bool := decide ((w.op = 0x20 ∧ w.space = 0) ∨ w.op = 0x22)

/-- What a word waits for: its WAIT field and the interlock, whether or not COND holds (R250 step 1, R254, R255), and,
where it executes, the window bytes that it reads, a place among the four requests of its kind, and at END the cells of the
clones (R223, R253, R255). -/
def State.blocked (s : State) (p t : Nat) (w : MWord) : Block :=
  let e := s.engine p t
  let runs := e.flags.holds w.cond
  let own := s.ownReqs p t
  let named := own.filter (fun r => decide (r.op.kind = w.wait ∧ r.num % 4 = w.waitId ∧ w.wait ∉ [0, 4, 7]))
  let locked := own.filter (fun r => r.regs.any (fun k => w.regs.contains k))
  let k := opKind w.op
  let live := own.filter (fun r => decide (r.op.kind = k ∧ k ≠ 0) && r.failed.isNone)
  match (named ++ locked).find? (fun r => r.failed.isSome) with
  | some r => .fail (r.failed.getD (0, 0)).1 (r.failed.getD (0, 0)).2
  | none =>
    if named ≠ [] then .wait w.wait
    else if w.wait = 4 ∧ w.count ≠ 0 ∧ e.timed = false then .wait 4
    else match locked with
      | r :: _ => .wait r.op.kind
      | [] =>
        if runs && decide (4 ≤ live.length) then .wait k
        else if (runs || !w.readsWindow || decide (w.wait = 7)) &&
            (e.windowReads w).any (winAwaited e.win (s.frame e.frame)) then .wait 7
        else if runs && decide (w.op = 0x4B) && own.any (fun r => decide (r.op.kind = 3)) then .wait 3
        else .go

/-- The word at an engine's UPC. -/
def State.currentWord (s : State) (p t : Nat) : MWord :=
  let e := s.engine p t
  csWord (s.store p e.bank) e.upc

/-- Cycles of the wait under way: the timer's count once it has run out, else those since the wait began, up to LIMIT,
whose trap ends it (R4, R224, R255). -/
def State.waited (s : State) (p t : Nat) : Nat :=
  let e := s.engine p t
  min e.left (if e.wait = 4 ∧ e.timed then (s.currentWord p t).count else s.ccNow - e.since)

/-- A wait, if one is under way, ends, and its cycles are counted (R224, R580). -/
def State.endWait (s : State) (p t : Nat) : State :=
  let e := s.engine p t
  let n := s.waited p t
  if e.wait = 0 then s
  else (s.setEngine p t { e.spend n with wait := 0 }).pcEvent (some p) 0x04 n (fun x => decide (x = 0 ∨ x = e.wait))
    { engine := some t, upc := e.upc, waited := n, cond := e.wait, atEnd := false }

/-- A wait on another condition ends, and a wait on condition k begins (R222, R224). -/
def State.startWait (s : State) (p t k : Nat) : State :=
  let s1 := s.endWait p t
  s1.setEngine p t { s1.engine p t with wait := k, since := s.ccNow }

/-- An engine that waits is looked at again: the wait ends when its condition holds, and a wait on another condition of
the word follows it. -/
def State.wakeEngine (s : State) (p t : Nat) : State :=
  let e := s.engine p t
  if e.busy = false ∨ e.wait = 0 then s
  else match s.blocked p t (s.currentWord p t) with
    | .wait k => if k = e.wait then s else s.startWait p t k
    | _ => s.endWait p t

/-- A failed request is taken by the word that waits on it. -/
def State.takeFailed (s : State) (p t : Nat) (c d : Nat) : State :=
  match (s.ownReqs p t).find? (fun r => decide (r.failed = some (c, d))) with
  | some r => s.setReqs (s.tenon.reqs.erase r)
  | none => s

/-- Whether JTAG has halted an engine (R616). -/
def State.engineHalted (s : State) (p t : Nat) : Bool := s.dev.halted.contains (64 * p + t)

/-- Whether an engine may issue: it is not halted, or JTAG lets it issue one word (R616). -/
def State.mayIssue (s : State) (p t : Nat) : Bool := !s.engineHalted p t || s.dev.stepping.contains (64 * p + t)

/-- The word that JTAG let a halted engine issue is spent (R616). -/
def State.wordSpent (s : State) (p t : Nat) : State :=
  { s with dev := { s.dev with stepping := s.dev.stepping.erase (64 * p + t) } }

/-- The FRAME_BAD interrupt ends a wait, if one is under way, and is taken, unless the wait's cycles reach LIMIT (R224,
R231, R232). -/
def State.takeFrameBad (s : State) (p t : Nat) : State :=
  let e := s.engine p t
  let s1 := s.endWait p t
  if (s1.engine p t).exhausted then s1.limitTrap p t
  else (s1.setEngine p t { s1.engine p t with badSeen := true }).raiseTrap p t 0x10 0 e.upc e.wait

/-! ### Service engines (R243, R261) -/

/-- A word of the service control store; beyond WORD_COUNT it holds OP 0xFF (R634). -/
def State.svcBytes (s : State) (a : Nat) : List Byte :=
  padTo 32 (if 32 * a < s.dev.svcStore.length then slice s.dev.svcStore (32 * a) 32 else [0xFF#8])

/-- The word of service engine v. -/
def State.svcWord (s : State) (v : Nat) : MWord := mword (s.svcBytes (s.engine 8 v).upc)

/-- Whether a word works on a space that a service engine lacks: the header window, the metadata, the result window and
the trap frame (R243, R215, R228, R230, R234), and the state memory, the DRAM region and the tables, which are a pipeline's.
DEDUCED (log entry 241): a service engine is in no pipeline. -/
def MWord.lacksSpace (w : MWord) : Bool :=
  decide (opKind w.op ≠ 0 ∨ w.op = 0x20 ∨ w.op = 0x21 ∨ w.op = 0x22 ∨ w.op = 0x4B ∨ w.op = 0x4C)

/-- BAD_OP in firmware (R243, R261). DESIGN CHOICE (log entry 241): a service engine has no handler, and stops at the
word. -/
def State.svcBadOp (s : State) (v : Nat) : State := s.setEngine 8 v { s.engine 8 v with handler := 3, wait := 0 }

/-- A microword issues on service engine v, whose registers stand as those of engine v of a ninth group (R243, R250). It has
no cycle limit, no frame and no request. -/
def State.svcIssue (s : State) (v op : Nat) (body : MWord → State → State) : State :=
  let e := s.engine 8 v
  let w := s.svcWord v
  let d := s.wordSpent 8 v
  if 16 ≤ v ∨ s.svcState v ≠ 1 ∨ e.handler ≠ 0 ∨ s.mayIssue 8 v = false then s
  else if w.op = 0xFF then d.svcBadOp v
  else if w.op ≠ op then s
  else if w.wait = 4 ∧ w.count ≠ 0 ∧ e.timed = false then s.setEngine 8 v { e with wait := 4, since := s.ccNow }
  else if w.wait = 7 then d.svcBadOp v
  else
    let s1 := d.setEngine 8 v { e with wait := 0, timed := false }
    if e.flags.holds w.cond = false then s1.setEngine 8 v ((s1.engine 8 v).next 1)
    else if w.lacksSpace then s1.svcBadOp v
    else body w s1

/-- A microword issues (R250): after its wait and interlock, and its predicate. `op` is the operation of the row; a word
of another operation leaves everything as it is. Group 8 is the service cluster. -/
def State.issue (s : State) (p t op : Nat) (body : MWord → State → State) : State :=
  if p = 8 then s.svcIssue t op body else
  let e := s.engine p t
  let w := s.currentWord p t
  let d := (s.wordSpent p t).endWait p t
  if e.busy = false ∨ s.mayIssue p t = false then s
  else if e.exhausted then d.limitTrap p t
  else if s.frameBadDue p t then (s.wordSpent p t).takeFrameBad p t
  else if w.op = 0xFF then d.wordTrap p t 3 0
  else if w.op ≠ op then s
  else
    let b := s.blocked p t w
    if b = .wait e.wait ∧ e.wait ≠ 0 then s
    else if (d.engine p t).exhausted then d.limitTrap p t
    else match b with
      | .fail c x => (d.takeFailed p t c x).wordTrap p t c x
      | .wait k => s.startWait p t k
      | .go =>
        let s1 := d.setEngine p t { d.engine p t with timed := false }
        let s2 := s1.pcEvent (some p) 0x03 1 (fun _ => true) { engine := some t, upc := e.upc, cond := awaited e w, atEnd := false }
        if e.flags.holds w.cond then body w s2 else s2.setEngine p t ((s2.engine p t).next 1)

/-! ### Dispatch (R210 to R212, R216, R219, R220, R238) -/

/-- Whether an engine may take a packet (R211, R236). -/
def State.engineTakes (s : State) (p t : Nat) (express : Bool) : Bool :=
  let e := s.engine p t
  let r := s.csReserve p
  !e.busy && !e.parked && (decide (t < r) || decide (t < 64 - (s.pipe p).parkGoal)) && (express || decide (r ≤ t))

/-- EXPRESS_IN of a frame (R219). -/
def State.expressIn (s : State) (f : Frame) : Bool := s.express f.inPort && decide (14 ≤ f.inTc)

/-- Metadata of a packet at dispatch, 128 bytes (R219, R220). DESIGN CHOICE (log entry 236): PKT_ID counts the packets
dispatched before this one, so the first reads 0. -/
def State.metadata (s : State) (p : Nat) (x : Packet) : List Byte :=
  let f := s.frame x.frame
  let L := f.parseLen
  let r : Stamp := f.rx.getD {}
  let len := if f.ended then L + 4 else f.recv.length
  let l3 := match x.l3 with
    | some (o, n, v6) => (64 + o) % 512 + 512 * v6 + 32768 * b2n (decide (o + n ≤ 192))
    | none => 0
  let l4 := match x.l4 with
    | some (o, n) => (64 + o) % 512 + 32768 * b2n (decide (o + n ≤ 192))
    | none => 0
  padTo 96 (leBytes 2 (s.pipe p).pktId ++ leBytes 1 f.inPort ++
    leBytes 1 (f.inTc + 16 * x.epoch + 32 * b2n (s.expressIn f) + 64 * b2n f.ended + 128 * b2n f.injected) ++
    leBytes 2 (len % 32768) ++ leBytes 1 (f.pass % 8) ++ [0] ++ leBytes 4 f.sysport ++ leBytes 4 x.ecmp ++
    leBytes 1 (timeSub r.t) ++ leBytes 4 (timeNs r.t + 2 ^ 30 * b2n r.cal) ++ leBytes 6 (timeSec r.t) ++ [0] ++
    leBytes 2 64 ++ leBytes 2 (64 + min L 192) ++ leBytes 2 l3 ++ leBytes 2 l4 ++ leBytes 1 (16 * f.inTc)) ++ padTo 32 f.user

/-- The engine as it starts a packet. -/
def State.freshEngine (s : State) (p t : Nat) (x : Packet) : Engine :=
  let b := s.csBank p
  let w := csDispatch (s.store p b) x.look.opcode
  let md := s.metadata p x
  { busy := true, frame := x.frame, routine := s.tenon.next, bank := b, opcode := x.look.opcode, epoch := x.epoch,
    entered := x.entered, learn := x.learn, ptp := x.ptp, upc := w % 16384, limit := bits w 27 16,
    len := (s.frame x.frame).parseLen, md := md, md0 := md,
    result := padTo 112 x.parse ++ padTo 16 x.mortise ++ x.look.bytes, parked := (s.engine p t).parked }

/-- The packet that is dispatched next, and its engine (R210, R211, R213). -/
def State.nextDispatch (s : State) (p : Nat) : Option (Packet × Nat) :=
  let l := (s.pipe p).packets
  let pair (x : Packet) : Nat × Nat := ((s.frame x.frame).inPort, (s.frame x.frame).inTc)
  let place (x : Packet) : Option Nat := (rangeFrom 0 64).find? (fun t => s.engineTakes p t (s.expressIn (s.frame x.frame)))
  firstSome (fun x =>
    let first := (l.find? (fun z => decide (pair z = pair x))).map (fun z => z.frame)
    if x.stage = 2 ∧ first = some x.frame then (place x).map (fun t => (x, t)) else none) l

/-- A dispatched packet is counted in PKT_ID and for event 0x05 (R219, R580), one that an invalid bank discards too (R238). -/
def State.countDispatch (s : State) (p opcode : Nat) : State :=
  (s.setPipe p { s.pipe p with pktId := ((s.pipe p).pktId + 1) % 65536 }).pcEvent (some p) 0x05 1
    (fun v => decide (v / 256 % 2 = 0 ∨ v % 256 = opcode)) {}

/-- Tenon gives a ready packet to an engine (R210, R212, R237, R238). -/
def State.dispatch (s : State) (p : Nat) : State :=
  if s.halting then s
  else
    match s.nextDispatch p with
    | none => s
    | some (x, t) =>
      if s.csValid p = false then
        ((s.countDispatch p x.look.opcode).pipeCount p 97 1).discardPacket p x
      else
        let e := s.freshEngine p t x
        let y := s.pipe p
        let s1 := s.setPipe p { y with packets := y.packets.filter (fun z => decide (z.frame ≠ x.frame)) }
        let s2 := { s1.setEngine p t e with tenon := { s1.tenon with next := s1.tenon.next + 1 } }
        let s3 := s2.setMarks p ((s2.marks p).map (fun m => if m.engine = none then { m with engine := some t } else m))
        let s4 := s3.countDispatch p e.opcode
        if (csDispatch (s.store p e.bank) e.opcode).testBit 31 then s4 else s4.raiseTrap p t 4 0 e.upc 0

/-! ### Parking (R236) -/

/-- An engine chosen for parking has finished its routine and powers down. -/
def State.park (s : State) (p t : Nat) : State :=
  let e := s.engine p t
  if e.busy = false ∧ 64 - (s.pipe p).parkGoal ≤ t ∧ s.csReserve p ≤ t then s.setEngine p t { e with parked := true } else s

/-- An unparked engine is ready again. -/
def State.unpark (s : State) (p t : Nat) : State :=
  let e := s.engine p t
  if t < 64 - (s.pipe p).parkGoal ∨ t < s.csReserve p then s.setEngine p t { e with parked := false } else s

/-! ### Requests complete (R225 to R230, R254, R255) -/

/-- Whether the routine that issued a request still runs. -/
def State.reqAlive (s : State) (r : Req) : Bool :=
  let e := s.engine r.pipe r.engine
  e.busy && decide (e.routine = r.routine)

/-- A request completes with values for its registers (R254). -/
def State.finish (s : State) (r : Req) (vals : List Word64) : State :=
  let s1 := s.setReqs (s.tenon.reqs.erase r)
  if s.reqAlive r then
    let e := s1.engine r.pipe r.engine
    (s1.setEngine r.pipe r.engine ((r.regs.zip vals).foldl (fun e x => e.setReg x.1 x.2) e)).wakeEngine r.pipe r.engine
  else s1

/-- A request fails: the word that waits on it will trap, and waits no longer (R226, R227); a routine that is over takes
no trap. -/
def State.failReq (s : State) (r : Req) (cause detail : Nat) : State :=
  if s.reqAlive r then (s.setReq r { r with failed := some (cause, detail) }).wakeEngine r.pipe r.engine
  else s.setReqs (s.tenon.reqs.erase r)

/-- The oldest request of a kind that has not failed, of a pipeline and engine where they are given. -/
def State.oldestReq (s : State) (kind : Nat) (p t : Option Nat) : Option Req :=
  s.tenon.reqs.find? (fun r => decide (r.op.kind = kind ∧ (p = none ∨ p = some r.pipe) ∧ (t = none ∨ t = some r.engine)) &&
    r.failed.isNone)

/-- The EM buckets of a microcode lookup, read under R161 steps 2 to 4. Bit i of `bad` tells that bucket i + 1 came with a
word past correction: it is taken to hold no entry (R532). -/
def State.dramLookup (s : State) (p e : Nat) (key : List Byte) (bad : Nat) : Option (List Byte) × State :=
  if s.anyOffline then (none, s)
  else
    let k := emKey key
    let w : EmWait := { key := k }
    match (if bad.testBit 0 then none else s.bucketFind (s.emB1 k) k e) with
    | some r => (some r, s.emFill p w (some r))
    | none =>
      if s.spillCnt (s.emB1 k) = 0 then (none, s.emFill p w none)
      else
        let s1 := s.pipeCount p 37 1
        match (if bad.testBit 1 then none else s1.bucketFind (s1.emB2 k) k e) with
        | some r => (some r, s1.emFill p w (some r))
        | none => (none, s1.emFill p w none)

/-- A microcode lookup delivers its result (R225, R258). -/
def State.lookupComplete (s : State) (p t bad : Nat) : State :=
  match s.tenon.reqs.find? (fun r => r.isLookup p && decide (r.engine = t) && r.slotted) with
  | none => s
  | some r =>
    match r.op with
    | .lookup _ key =>
      let x := match r.found with
        | some b => (b, s)
        | none => let d := s.dramLookup p r.epoch key bad; (lookupRecord d.1, d.2)
      x.2.finish r ((rangeFrom 0 4).map (fun i => BitVec.ofNat 64 (leNat (slice x.1 (8 * i) 8))))
    | _ => s

/-- The meter unit applies the oldest call (R228, R229, R259). -/
def State.meterVerdict (s : State) : State :=
  match s.oldestReq 2 none none with
  | none => s
  | some r =>
    match r.op with
    | .meter m len colour writes =>
      let v := s.meterCall m len colour
      let s1 := if writes && s.reqAlive r then
          let e := v.2.engine r.pipe r.engine
          v.2.setEngine r.pipe r.engine { e with md := setColour e.md v.1 }
        else v.2
      s1.finish r [BitVec.ofNat 64 v.1]
    | _ => s

/-- A charged length is compared with the frame's: now when it has ended, else at its end (R229). -/
def State.noteCharge (s : State) (i len : Nat) : State :=
  let f := s.frame i
  let held := (s.port f.inPort).receiving.find? (fun e => match e.2 with
    | some r => decide (r.frame = i)
    | none => false)
  match held with
  | some (m, some r) => s.setReception f.inPort m (some { r with charges := r.charges ++ [len] })
  | _ => if len = f.rxLen.getD (f.recv.length + 4) then s else s.portCount f.inPort 112 1

/-- Head cells that a clone needs (R230, R268). -/
def Engine.headCells (e : Engine) (md : List Byte) : Nat :=
  cellsFor (mdHeadEnd md - mdHeadStart md + (if e.len ≤ 192 then 4 else 0))

/-- Ridge reserves the head cells of the oldest clone of an engine, when its pair can be charged for all of them (R230). -/
def State.cellsReserved (s : State) (p t : Nat) : State :=
  match s.oldestReq 3 (some p) (some t) with
  | none => s
  | some r =>
    match r.op with
    | .cells k =>
      let e := s.engine p t
      let f := s.frame e.frame
      let c := e.clones.getD k {}
      let n := e.headCells c.md
      let x := s.chargeCells f.pairPort f.pairTc n
      if x.1.length < n then s
      else (x.2.setEngine p t { e with clones := e.clones.set k { c with cells := some x.1 } }).finish r [BitVec.ofNat 64 k]
    | _ => s

/-- A state-memory word (R226). -/
def State.stateWord (s : State) (p i : Nat) : Word64 := tabGet (fun _ => 0) (s.pipe p).stateMem i
def State.setStateWord (s : State) (p i : Nat) (v : Word64) : State :=
  s.setPipe p { s.pipe p with stateMem := tabSet (fun _ => 0) (s.pipe p).stateMem i v }

/-- A word of a host's span is done: with the last one the job completes (R264, R266). -/
def State.spanDone (s : State) (r : Req) (j : Job) : State :=
  let s1 := s.setReqs (s.tenon.reqs.erase r)
  let mine (x : Req) : Bool := match x.op with
    | .hostRead _ y | .hostWrite _ _ y => decide (y = j)
    | _ => false
  if s1.tenon.reqs.any mine then s1
  else s1.complete j St.SUCCESS (if j.opcode = 0x3C then leBytes 4 (8 * j.le 16 2) else [])

/-- A word of a host's read reaches its buffer; one with a double-bit error is a free value (R266; log entry 207). -/
def State.spanRead (s : State) (r : Req) (p i ecc : Nat) (j : Job) : State :=
  let d := s.draw 64
  let x : Nat × State := if ecc = 2 then (d.1.toNat, d.2.faultPipe p 8 0) else ((s.stateWord p i).toNat, s)
  (if x.2.inFlight j then x.2.jobWrite j (j.le 8 8 + 8 * (i - j.le 6 2)) (leBytes 8 x.1) else x.2).spanDone r j

/-- The oldest state-memory access of a pipeline completes; a read meets no error, a single-bit or a double-bit error
(R226). -/
def State.stateComplete (s : State) (p ecc : Nat) : State :=
  match s.oldestReq 5 (some p) none with
  | none => s
  | some r =>
    let bad (_ : Unit) : State := (s.failReq r 0x0C 0).faultPipe p 8 0
    let s1 := if ecc = 1 then s.pipeCount p 99 1 else s
    match r.op with
    | .stWrite i v => (s.setStateWord p i v).finish r []
    | .stRead i => if ecc = 2 then bad () else s1.finish r [s.stateWord p i]
    | .stAdd i v => if ecc = 2 then bad () else (s1.setStateWord p i (s.stateWord p i + v)).finish r [s.stateWord p i]
    | .stSwap i old v =>
      if ecc = 2 then bad ()
      else (if s.stateWord p i = old then s1.setStateWord p i v else s1).finish r [s.stateWord p i]
    | .hostRead i j => s1.spanRead r p i ecc j
    | .hostWrite i v j => (s.setStateWord p i v).spanDone r j
    | _ => s

/-- The oldest DRAM access of an engine completes; `ok` is false for a word that ECC cannot correct (R227). -/
def State.dramComplete (s : State) (p t : Nat) (ok : Bool) : State :=
  match s.oldestReq 6 (some p) (some t) with
  | none => s
  | some r =>
    match r.op with
    | .dRead a d =>
      if ok && !s.stackOffline (stackOf a) then s.finish r [BitVec.ofNat 64 (leNat (s.dramRd a 8))]
      else s.failReq r 0x0B (d % 2 ^ 32)
    | .dWrite a d v =>
      if s.stackOffline (stackOf a) then s.failReq r 0x0B (d % 2 ^ 32)
      else (s.dramWr a (leBytes 8 v.toNat)).finish r []
    | _ => s

/-! ### Timers and interrupts (R224, R231, R255) -/

/-- The wait timer of an engine reaches 0 (R255); group 8 is the service cluster. -/
def State.timerExpiry (s : State) (p t : Nat) : State :=
  let e := s.engine p t
  if p = 8 then (if e.wait = 4 then s.setEngine p t { e with timed := true, wait := 0 } else s)
  else if e.busy ∧ e.wait = 4 then (s.setEngine p t { e with timed := true }).wakeEngine p t else s

/-- The routine's cycle count, with the cycles of the wait under way, reaches LIMIT (R224, R234). -/
def State.limitReached (s : State) (p t : Nat) : State :=
  let s1 := s.endWait p t
  if (s.engine p t).busy && (s1.engine p t).exhausted then s1.limitTrap p t else s

/-- The frame of a routine has ended bad (R231, R232). -/
def State.frameBadInterrupt (s : State) (p t : Nat) : State := if s.frameBadDue p t then s.takeFrameBad p t else s

/-! ### END (R216, R218, R221, R230, R255, R270, R341 to R343) -/

/-- Sum of 16-bit words in network order. -/
def sum16 : List Byte → Nat
  | a :: b :: t => a.toNat * 256 + b.toNat + sum16 t
  | [a] => a.toNat * 256
  | [] => 0

/-- What a UDP checksum covers in the window, with the checksum as 0: pseudo-header, header and data (R221). -/
def udpCover (win : List Byte) (l3 : Option (Nat × Bool)) (o headEnd : Nat) : List Byte :=
  let n := beAt win (o + 4) 2
  let seg := (slice win o (headEnd - o)).take n
  (match l3 with
   | some (a, true) => slice win (a + 8) 32 ++ beBytes 4 n ++ [0, 0, 0, 17]
   | some (a, false) => slice win (a + 12) 8 ++ [0, 17] ++ beBytes 2 n
   | none => []) ++ putBytes seg 6 [0, 0]

/-- Length and checksum of the IP header that L3_VALID marks (R221); `old` is the metadata at dispatch. -/
def fixIp (win md old : List Byte) : List Byte :=
  match mdL3 md with
  | none => win
  | some (o, v6) =>
    let grown : Int := match mdL3 old with
      | some (o0, _) => ((mdHeadEnd md : Int) - o) - ((mdHeadEnd old : Int) - o0)
      | none => 0
    let k := o + (if v6 then 4 else 2)
    let w := setBe win k 2 (((beAt win k 2 : Int) + grown) % 65536).toNat
    if v6 then w
    else
      let n := imB w o % 16 * 4
      let z := setBe w (o + 10) 2 0
      setBe z (o + 10) 2 (65535 - fold16 (sum16 (slice z o n)))

/-- Length and checksum of the UDP header that L4_VALID marks (R221). -/
def fixUdp (win md win0 old : List Byte) : List Byte :=
  match mdL4 md with
  | none => win
  | some o =>
    match mdL4 old with
    | none => win
    | some o0 =>
      let grown : Int := ((mdHeadEnd md : Int) - o) - ((mdHeadEnd old : Int) - o0)
      let w := setBe win (o + 4) 2 (((beAt win (o + 4) 2 : Int) + grown) % 65536).toNat
      let hc := beAt w (o + 6) 2
      if hc = 0 then w
      else
        let was := fold16 (sum16 (udpCover win0 (mdL3 old) o0 (mdHeadEnd old)))
        let is := fold16 (sum16 (udpCover w (mdL3 md) o (mdHeadEnd md)))
        let v := 65535 - fold16 (65535 - hc + (65535 - was) + is)
        setBe w (o + 6) 2 (if v = 0 then 65535 else v)

/-- A frame as END makes it of a window and metadata (R216, R219, R221, R363). -/
def Engine.build (e : Engine) (f : Frame) (win : Tab (Option Byte)) (md : List Byte) : Frame :=
  let w0 := winBytes [] f.recv 0 256
  let w := fixUdp (fixIp (winBytes win f.recv 0 256) md e.md0) md w0 e.md0
  let hs := mdHeadStart md
  let n := mdHeadEnd md - hs
  { f with
    bytes := slice w hs n ++ f.recv.drop 192, rewritten := true
    missing := ((rangeFrom hs n).filter (winAwaited win f)).map (fun k => (k - 64, k - hs))
    hash := mdHash md, user := mdUser md, outTc := mdOutTc md, ctDis := mdCtDis md, code := mdPunt md
    dest := if mdKind md = 1 then some (mdDest md) else none
    ptp := { act := mdPtpAct md, residence := mdResidence md, tag := mdPtpTag md
             off := e.ptp.bind (fun o => if hs ≤ 64 + o then some (64 + o - hs) else none)
             l4 := (mdL4 md).bind (fun o => if hs ≤ o then some (o - hs) else none) }
    mirrors := mdMirrors md }

/-- Whether END raises DEST_INVALID (R221). -/
def State.destInvalid (s : State) (md : List Byte) : Bool :=
  let d := mdDest md
  let k := mdKind md
  decide (4 < k ∨ mdColour md = 3 ∨ mdPtpAct md = 3 ∨ (k = 2 ∧ 65536 ≤ d) ∨ (k = 3 ∧ 4 ≤ d) ∨ (k = 4 ∧ 8 ≤ d) ∨
    (k = 1 ∧ d / 256 = s.devNum ∧ 140 < d % 256))

/-- Whether a frame has crossed as many devices as HOP_LIMIT allows (R343). -/
def State.tooFar (s : State) (f : Frame) (d : Nat) : Bool :=
  decide (d / 256 ≠ s.devNum) && isJoist f.bytes && decide (s.rd wJoist Reg.JOIST_CFG_HOP_LIMIT < imB f.bytes 15 % 64 + 1)

/-- Destination of a frame as END leaves it; none for a drop and for R343 (R221, R306). -/
def State.handOf (s : State) (i : Nat) (f : Frame) (md : List Byte) : Option Hand :=
  let q := mdQueue md
  let d := mdDest md
  match mdKind md with
  | 1 => if s.tooFar f d || (s.memberPort f.hash d).isNone then none else some { frame := i, kind := 1, dest := d, queue := q }
  | 2 => some { frame := i, kind := 2, dest := mdDest md }
  | 3 => some { frame := i, kind := 3, dest := 128 + mdDest md % 4, queue := q }
  | 4 => some { frame := i, kind := 4, dest := 132 + mdDest md % 8, queue := q }
  | _ => none

/-- Length of a frame as END checks it (R218, R342). -/
def State.endLength (s : State) (f : Frame) (md : List Byte) (len : Nat) : Nat :=
  let n := mdHeadEnd md - mdHeadStart md + (len - 192) + 4
  match (if mdKind md = 1 then s.memberPort f.hash (mdDest md) else none) with
  | some port => n + (if s.domain port ∧ isJoist f.bytes = false then 16 else 0)
  | none => n

/-- Whether END raises FRAME_LENGTH; a HEAD_END beyond the window does too (R218). -/
def State.lengthInvalid (s : State) (f : Frame) (md : List Byte) (len : Nat) : Bool :=
  decide (mdHeadEnd md < mdHeadStart md ∨ 256 < mdHeadEnd md ∨ 16384 < s.endLength f md len)

/-- A frame rewritten by pipeline p is packed again: its new head, of `head` bytes, goes to head cells, and the frame is
charged at its new length (R270). -/
def State.repack (s : State) (p i head : Nat) : State :=
  let f := s.frame i
  let tail := f.recv.length - 192
  let n := if f.parent.isSome then f.bytes.length - tail else f.bytes.length + b2n f.ended * 4
  s.repackCells p i (cellsFor n) (cellsFor head)

/-- A clone becomes a frame that shares the rest of the packet's bytes (R230); one that R343 discards is counted. -/
def State.emitClone (s : State) (p : Nat) (e : Engine) (c : CloneSt) : Option Hand × State :=
  let i := e.frame
  let f := s.frame i
  let back (s : State) : State := s.cloneBack f (c.cells.getD [])
  let g := e.build f c.win c.md
  if s.destInvalid c.md || s.lengthInvalid g c.md e.len || decide (mdKind c.md = 4 ∧ f.pass = 7) then (none, back s)
  else
    let shares := decide (192 < e.len)
    let r := s.newFrame { g with cells := (c.cells.getD []).length, held := c.cells.getD [], store := 0, refs := 0,
                                 offered := false, parent := if shares then some i else none }
    match r.2.handOf r.1 g c.md with
    | none => (none, (back (r.2.setFrame r.1 {})).pipeCount p 96 1)
    | some h =>
      let s1 := if shares then r.2.setFrame i { f with refs := f.refs + 1 } else r.2
      let s2 := if f.ended then s1
        else { s1 with ports := s1.ports.map (fun x => (x.1, { x.2 with receiving := x.2.receiving.map (fun y =>
          (y.1, y.2.map (fun z => if z.frame = i then { z with also := z.also ++ [r.1] } else z))) })) }
      (some h, s2)

/-- The clones of a routine, in the order they were made (R230). -/
def State.emitClones (s : State) (p : Nat) (e : Engine) : List CloneSt → List Hand × State
  | [] => ([], s)
  | c :: t =>
    let x := s.emitClone p e c
    let y := x.2.emitClones p e t
    (x.1.toList ++ y.1, y.2)

/-- The learn request of a packet that ended, issued or left for the frame's last byte (R147). -/
def State.endLearn (s : State) (p : Nat) (e : Engine) : State :=
  let f := s.frame e.frame
  match (if mdCancel e.md ∨ f.bad ≠ 0 then none else e.learn) with
  | none => s
  | some (key, port) =>
    if f.ended then s.learnRequest p key port
    else { s with ports := s.ports.map (fun x => (x.1, { x.2 with receiving := x.2.receiving.map (fun y =>
      (y.1, y.2.map (fun z => if z.frame = e.frame then { z with learn := some (key, port) } else z))) })) }

/-- END: the packet is checked, rewritten and handed to Ridge in its order (R213, R218, R221, R230, R235, R255). -/
def State.endRoutine (s : State) (p t : Nat) : State :=
  let e := s.engine p t
  let f := s.frame e.frame
  let g := e.build f e.win e.md
  if s.destInvalid e.md then s.wordTrap p t 0x05 0
  else if mdKind e.md = 4 ∧ f.pass = 7 then s.wordTrap p t 0x0A 0
  else if s.lengthInvalid g e.md e.len then s.wordTrap p t 0x06 0
  else
    match s.handOf e.frame g e.md with
    | none => (s.setEngine p t (e.spend 1)).discardRoutine p t 96
    | some h =>
      let c := s.emitClones p e e.clones
      let s1 := (c.2.setFrame e.frame { g with refs := (c.2.frame e.frame).refs }).repack p e.frame
        (mdHeadEnd e.md - mdHeadStart e.md)
      let s2 := (s1.endLearn p e).setEngine p t (e.spend 1)
      let s3 := s2.freeEngine p t false
      let x : Held := { routine := e.routine, port := f.inPort, tc := f.inTc, hands := c.1 ++ [h] }
      (s3.setPipe p { s3.pipe p with held := (s3.pipe p).held ++ [x] }).flushHeld p ((s3.pipe p).held.length + 1)

/-- The device reaches SAFE: every routine still running ends, its packet and clones discarded (R237). -/
def State.tenonSafe (s : State) (p : Nat) : State :=
  forEach (rangeFrom 0 64) (fun t s => if (s.engine p t).busy then (s.endWait p t).discardRoutine p t 98 else s) s

/-! ### Rows -/

/-- Row TENON_DISPATCH. -/
def execTenonDispatch (p : Fin 8) (s : State) : Out := .next (s.dispatch p.val)
/-- Row LOOKUP_COMPLETE: of the oldest lookup of an engine that has had its slot. -/
def execLookupComplete (p : Fin 8) (t : Fin 64) (bad : Fin 4) (s : State) : Out := .next (s.lookupComplete p.val t.val bad.val)
/-- Row METER_VERDICT: of the oldest call in the device. -/
def execMeterVerdict (s : State) : Out := .next s.meterVerdict
/-- Row CELLS_RESERVED. -/
def execCellsReserved (p : Fin 8) (t : Fin 64) (s : State) : Out := .next (s.cellsReserved p.val t.val)
/-- Row STATE_ACCESS_COMPLETE: a word read has no error, a single-bit or a double-bit error. -/
def execStateAccessComplete (p : Fin 8) (ecc : Fin 3) (s : State) : Out := .next (s.stateComplete p.val ecc.val)
/-- Row DRAM_ACCESS_COMPLETE: `ok` is false for an uncorrectable read. -/
def execDramAccessComplete (p : Fin 8) (t : Fin 64) (ok : Bool) (s : State) : Out := .next (s.dramComplete p.val t.val ok)
/-- Row WAIT_TIMER_EXPIRY. -/
def execWaitTimerExpiry (p : Fin 9) (t : Fin 64) (s : State) : Out := .next (s.timerExpiry p.val t.val)
/-- Row WINDOW_BYTE_ARRIVAL: an engine that waits for BYTES goes on when the byte is there. -/
def execWindowByteArrival (p : Fin 8) (t : Fin 64) (s : State) : Out :=
  .next (if (s.engine p.val t.val).wait = 7 then s.wakeEngine p.val t.val else s)
/-- Row ROUTINE_LIMIT_REACHED. -/
def execRoutineLimitReached (p : Fin 8) (t : Fin 64) (s : State) : Out := .next (s.limitReached p.val t.val)
/-- Row FRAME_BAD_INTERRUPT. -/
def execFrameBadInterrupt (p : Fin 8) (t : Fin 64) (s : State) : Out := .next (s.frameBadInterrupt p.val t.val)
/-- Row ENGINE_PARK. -/
def execEnginePark (p : Fin 8) (t : Fin 64) (s : State) : Out := .next (s.park p.val t.val)
/-- Row ENGINE_UNPARK. -/
def execEngineUnpark (p : Fin 8) (t : Fin 64) (s : State) : Out := .next (s.unpark p.val t.val)

end Sys2Proof.Machine
end

