-- ==== Sys2Proof/Machine/Microcode.lean ====
section
/-!
DEFINITION. The meanings of the microwords, one per operation (ch. 8; R250 to R259). Engine t of pipeline p issues the
word at its UPC; a row whose operation is not that word's leaves everything as it is.
-/
namespace Sys2Proof.Machine

/-! ### What the operations share -/

/-- An arithmetic operation: D and the flags, or the flags alone (R249, R256). -/
def State.aluWord (s : State) (p t : Nat) (w : MWord) (f : MFlags → Word64 → Word64 → Word64 × MFlags) (writes : Bool)
    (cost : Nat) : State :=
  let e := s.engine p t
  let r := f e.flags (e.opA w) (e.opB w)
  let e1 := if writes then e.setReg w.dst r.1 else e
  s.setEngine p t ((if w.nf then e1 else e1.setFlags r.2).next cost)

/-- An arithmetic row. -/
def State.aluIssue (s : State) (p : Fin 9) (t : Fin 64) (op : Nat) (f : MWord → MFlags → Word64 → Word64 → Word64 × MFlags)
    (writes : Bool) (cost : Nat) : Out :=
  .next (s.issue p.val t.val op (fun w s => s.aluWord p.val t.val w (f w) writes cost))

/-- The frame bytes received under an engine's window. -/
def State.recvOf (s : State) (e : Engine) : List Byte := (s.frame e.frame).recv

/-- WINDOW, with its detail (R233). DESIGN CHOICE (log entry 237): the detail keeps the low 16 bits of an offset of 65,536
or more. -/
def State.windowTrap (s : State) (p t space k : Nat) : State := s.wordTrap p t 2 (space * 65536 + k % 65536)

/-- LD (R252). -/
def State.loadWord (s : State) (p t : Nat) (w : MWord) : State :=
  let e := s.engine p t
  let k := e.address w
  let n := 2 ^ w.size
  if spaceSize w.space < k + n then s.windowTrap p t w.space k
  else s.setEngine p t ((e.setReg w.dst (memValue w.net (e.spaceBytes (s.recvOf e) w.space k n))).next 1)

/-- ST (R252). -/
def State.storeWord (s : State) (p t : Nat) (w : MWord) : State :=
  let e := s.engine p t
  let k := e.address w
  let n := 2 ^ w.size
  if e.storeTraps w.space k n then s.windowTrap p t w.space k
  else s.setEngine p t ((e.store w.space k (memBytes w.net n (e.opB w))).next 1)

/-- MOVB (R256). DESIGN CHOICE (log entry 238): a MOVB of 0 bytes traps on an offset beyond its space too. -/
def State.moveWord (s : State) (p t : Nat) (w : MWord) : State :=
  let e := s.engine p t
  let n := w.aux % 128
  let src := w.imm % 512
  if 256 < src + n then s.windowTrap p t 0 src
  else if 256 < w.offset + n then s.windowTrap p t 0 w.offset
  else
    let l := winBytes e.win (s.recvOf e) src n
    s.setEngine p t ({ e with win := winWrite e.win w.offset l }.next (1 + (n + 31) / 32))

/-- Index of a state word (R256). -/
def Engine.stateIndex (e : Engine) (w : MWord) : Nat := (w.aux % 16384 + e.off w) % 16384

/-- Whether a DRAM offset traps at issue (R227, R257). -/
def State.dramTraps (s : State) (p r : Nat) : Bool :=
  let g := s.region p
  decide (r % 8 ≠ 0 ∨ g.2 < r + 8) || s.stackOffline (stackOf (g.1 + r))

/-- A DRAM request (R227, R257). -/
def State.dramWord (s : State) (p t : Nat) (w : MWord) (op : Nat → Nat → ReqOp) (regs : List Nat) : State :=
  let e := s.engine p t
  let r := w.aux + e.off w
  if s.dramTraps p r then s.wordTrap p t 0x0B (r % 2 ^ 32)
  else s.request p t (op ((s.region p).1 + r) r) regs

/-- Key bytes of LKP: 8, or 24 for EM (R258). -/
def Engine.lookupKey (e : Engine) (w : MWord) : List Byte :=
  (rangeFrom w.srcA (if w.aux % 4 = 1 then 3 else 1)).flatMap (fun k => leBytes 8 (e.reg k).toNat)

/-- LKP (R225, R258). -/
def State.lookupWord (s : State) (p t : Nat) (w : MWord) : State :=
  let e := s.engine p t
  if w.aux % 4 = 3 ∨ 4 ≤ e.count 1 then s.wordTrap p t 8 0
  else s.request p t (.lookup (w.aux % 4) (e.lookupKey w)) (rangeFrom w.dst 4)

/-- MTR (R228, R259). -/
def State.meterWord (s : State) (p t : Nat) (w : MWord) : State :=
  let e := s.engine p t
  let m := w.aux % 2 ^ 18 + e.off w
  let len := (e.opB w).toNat % 2 ^ 15
  if 262144 ≤ m ∨ 4 ≤ e.count 2 then s.wordTrap p t 7 (m % 2 ^ 32)
  else (s.request p t (.meter m len (mdColour e.md) (w.aux.testBit 18)) [w.dst]).noteCharge e.frame len

/-- CLONE (R230). -/
def State.cloneWord (s : State) (p t : Nat) (w : MWord) : State :=
  let e := s.engine p t
  if 4 ≤ e.count 3 then s.wordTrap p t 9 0
  else
    (s.setEngine p t { e with clones := e.clones ++ [{ win := e.win, md := e.md }] }).request p t
      (.cells e.clones.length) [w.dst]

/-- RTN (R234, R261). -/
def State.returnWord (s : State) (p t : Nat) : State :=
  let e := s.engine p t
  if e.handler ≤ 1 then s.wordTrap p t 3 0
  else
    let f := imB e.trap 5
    let e1 := e.setFlags { z := f.testBit 3, n := f.testBit 2, c := f.testBit 1, v := f.testBit 0 }
    s.setEngine p t ({ e1 with handler := 0 }.goTo (imH e.trap 0) 2)

/-! ### Rows -/

/-- Row NOP. -/
def execNop (p : Fin 9) (t : Fin 64) (s : State) : Out :=
  .next (s.issue p.val t.val 0x00 (fun _ s => s.setEngine p.val t.val ((s.engine p.val t.val).next 1)))
/-- Row MOV. -/
def execMov (p : Fin 9) (t : Fin 64) (s : State) : Out :=
  .next (s.issue p.val t.val 0x01 (fun w s =>
    let e := s.engine p.val t.val
    s.setEngine p.val t.val ((e.setReg w.dst (e.opB w)).next 1)))
/-- Row ADD. -/
def execAdd (p : Fin 9) (t : Fin 64) (s : State) : Out := s.aluIssue p t 0x02 (fun _ => addFlags) true 1
/-- Row SUB. -/
def execSub (p : Fin 9) (t : Fin 64) (s : State) : Out := s.aluIssue p t 0x03 (fun _ => subFlags) true 1
/-- Row AND. -/
def execAnd (p : Fin 9) (t : Fin 64) (s : State) : Out := s.aluIssue p t 0x04 (fun _ => andFlags) true 1
/-- Row OR. -/
def execOr (p : Fin 9) (t : Fin 64) (s : State) : Out := s.aluIssue p t 0x05 (fun _ => orFlags) true 1
/-- Row XOR. -/
def execXor (p : Fin 9) (t : Fin 64) (s : State) : Out := s.aluIssue p t 0x06 (fun _ => xorFlags) true 1
/-- Row SHL. -/
def execShl (p : Fin 9) (t : Fin 64) (s : State) : Out := s.aluIssue p t 0x07 (fun _ => shlFlags) true 1
/-- Row SHR. -/
def execShr (p : Fin 9) (t : Fin 64) (s : State) : Out := s.aluIssue p t 0x08 (fun _ => shrFlags) true 1
/-- Row SAR. -/
def execSar (p : Fin 9) (t : Fin 64) (s : State) : Out := s.aluIssue p t 0x09 (fun _ => sarFlags) true 1
/-- Row ROL. -/
def execRol (p : Fin 9) (t : Fin 64) (s : State) : Out := s.aluIssue p t 0x0A (fun _ => rolFlags) true 1
/-- Row MUL. -/
def execMul (p : Fin 9) (t : Fin 64) (s : State) : Out := s.aluIssue p t 0x0B (fun _ => mulFlags) true 3
/-- Row CMP. -/
def execCmp (p : Fin 9) (t : Fin 64) (s : State) : Out := s.aluIssue p t 0x0C (fun _ => subFlags) false 1
/-- Row TST. -/
def execTst (p : Fin 9) (t : Fin 64) (s : State) : Out := s.aluIssue p t 0x0D (fun _ => andFlags) false 1
/-- Row EXT. -/
def execExt (p : Fin 9) (t : Fin 64) (s : State) : Out :=
  s.aluIssue p t 0x0E (fun w f a _ => extFlags f a w.pos w.width) true 1
/-- Row INS. -/
def execIns (p : Fin 9) (t : Fin 64) (s : State) : Out :=
  s.aluIssue p t 0x0F (fun w f a b => insFlags f a b w.pos w.width) true 1
/-- Row CRC. -/
def execCrc (p : Fin 9) (t : Fin 64) (s : State) : Out := s.aluIssue p t 0x10 (fun _ => crcFlags) true 2
/-- Row CSUM. -/
def execCsum (p : Fin 9) (t : Fin 64) (s : State) : Out := s.aluIssue p t 0x11 (fun _ => csumFlags) true 1
/-- Row LD. -/
def execLd (p : Fin 9) (t : Fin 64) (s : State) : Out :=
  .next (s.issue p.val t.val 0x20 (fun w s => s.loadWord p.val t.val w))
/-- Row ST. -/
def execSt (p : Fin 9) (t : Fin 64) (s : State) : Out :=
  .next (s.issue p.val t.val 0x21 (fun w s => s.storeWord p.val t.val w))
/-- Row MOVB. -/
def execMovb (p : Fin 9) (t : Fin 64) (s : State) : Out :=
  .next (s.issue p.val t.val 0x22 (fun w s => s.moveWord p.val t.val w))
/-- Row SRD. -/
def execSrd (p : Fin 9) (t : Fin 64) (s : State) : Out :=
  .next (s.issue p.val t.val 0x28 (fun w s =>
    s.request p.val t.val (.stRead ((s.engine p.val t.val).stateIndex w)) [w.dst]))
/-- Row SWR. -/
def execSwr (p : Fin 9) (t : Fin 64) (s : State) : Out :=
  .next (s.issue p.val t.val 0x29 (fun w s =>
    let e := s.engine p.val t.val
    s.request p.val t.val (.stWrite (e.stateIndex w) (e.opB w)) []))
/-- Row SADD. -/
def execSadd (p : Fin 9) (t : Fin 64) (s : State) : Out :=
  .next (s.issue p.val t.val 0x2A (fun w s =>
    let e := s.engine p.val t.val
    s.request p.val t.val (.stAdd (e.stateIndex w) (e.opB w)) [w.dst]))
/-- Row SCAS: the compared value is D as at issue. -/
def execScas (p : Fin 9) (t : Fin 64) (s : State) : Out :=
  .next (s.issue p.val t.val 0x2B (fun w s =>
    let e := s.engine p.val t.val
    s.request p.val t.val (.stSwap (e.stateIndex w) (e.reg w.dst) (e.opB w)) [w.dst]))
/-- Row DRD. -/
def execDrd (p : Fin 9) (t : Fin 64) (s : State) : Out :=
  .next (s.issue p.val t.val 0x30 (fun w s => s.dramWord p.val t.val w .dRead [w.dst]))
/-- Row DWR. -/
def execDwr (p : Fin 9) (t : Fin 64) (s : State) : Out :=
  .next (s.issue p.val t.val 0x31 (fun w s =>
    s.dramWord p.val t.val w (fun a r => .dWrite a r ((s.engine p.val t.val).opB w)) []))
/-- Row LKP. -/
def execLkp (p : Fin 9) (t : Fin 64) (s : State) : Out :=
  .next (s.issue p.val t.val 0x38 (fun w s => s.lookupWord p.val t.val w))
/-- Row MTR. -/
def execMtr (p : Fin 9) (t : Fin 64) (s : State) : Out :=
  .next (s.issue p.val t.val 0x3C (fun w s => s.meterWord p.val t.val w))
/-- Row CLONE. -/
def execClone (p : Fin 9) (t : Fin 64) (s : State) : Out :=
  .next (s.issue p.val t.val 0x40 (fun w s => s.cloneWord p.val t.val w))
/-- Row BR. -/
def execBr (p : Fin 9) (t : Fin 64) (s : State) : Out :=
  .next (s.issue p.val t.val 0x48 (fun w s => s.setEngine p.val t.val ((s.engine p.val t.val).goTo w.target 2)))
/-- Row BRR. -/
def execBrr (p : Fin 9) (t : Fin 64) (s : State) : Out :=
  .next (s.issue p.val t.val 0x49 (fun w s =>
    let e := s.engine p.val t.val
    s.setEngine p.val t.val (e.goTo ((e.opA w).toNat + w.target) 2)))
/-- Row CALL. -/
def execCall (p : Fin 9) (t : Fin 64) (s : State) : Out :=
  .next (s.issue p.val t.val 0x4A (fun w s =>
    let e := s.engine p.val t.val
    s.setEngine p.val t.val ((e.setReg w.dst (BitVec.ofNat 64 (e.upc + 1))).goTo w.target 2)))
/-- Row END. -/
def execEnd (p : Fin 9) (t : Fin 64) (s : State) : Out :=
  .next (s.issue p.val t.val 0x4B (fun _ s => s.endRoutine p.val t.val))
/-- Row RTN. -/
def execRtn (p : Fin 9) (t : Fin 64) (s : State) : Out :=
  .next (s.issue p.val t.val 0x4C (fun _ s => s.returnWord p.val t.val))
/-- Row TIME. -/
def execTime (p : Fin 9) (t : Fin 64) (s : State) : Out :=
  .next (s.issue p.val t.val 0x50 (fun w s =>
    let e := s.engine p.val t.val
    let sec := BitVec.ofNat 64 (timeSec s.now % 2 ^ 48)
    let sub := BitVec.ofNat 64 (timeNs s.now * 256 + timeSub s.now)
    s.setEngine p.val t.val (((e.setReg w.dst sec).setReg (w.dst + 1) sub).next 1)))

end Sys2Proof.Machine
end

