-- ==== Sys2Proof/Machine/Control.lean ====
section
/-!
DEFINITION. Control stores: images and their checks, loading, swapping and scrubbing; TENON_SETUP, state memory by
command, and the heartbeats of the service cluster (ch. 7, 8; R226, R238 to R247, R262 to R267).
-/
namespace Sys2Proof.Machine

/-! ### The checks of an image (R262, R263) -/

/-- Length of an image by its WORD_COUNT, and of one with every word (R262, R264). -/
def csLen (g : List Byte) : Nat := 1408 + 32 * csWords g
def csFull : Nat := 525696

/-- Causes with no handler (R232). -/
def reservedCause (c : Nat) : Bool := decide (c = 0 ∨ (0x0D ≤ c ∧ c ≤ 0x0F) ∨ 0x11 ≤ c)

/-- CRC of an image, computed with its own field at 0 (R262). -/
def csCrc (g : List Byte) : Nat := crc32 (putBytes g 16 [0, 0, 0, 0])

/-- Pass 1: bytes 0 to 255 but for CRC; n is the number of bytes of the image. DESIGN CHOICE (log entry 239): a load whose
length is not the image's own has a wrong IMAGE_LEN. -/
def csHeadChecks (g : List Byte) (n : Nat) : List Check :=
  [(decide (imW g 0 ≠ 0x4E4F4E54), 0), (decide (imH g 4 ≠ 1), 4),
   (decide (csWords g = 0 ∨ 16384 < csWords g), 8)] ++ zeroBytes g 10 2 ++
  [(decide (imW g 12 ≠ csLen g ∨ n ≠ csLen g), 12)] ++ zeroBytes g 20 236

/-- Dispatch entry o (R212, R263). DESIGN CHOICE (log entry 240): here and in the checks below, a failing field is reported
at the byte it begins in, a reserved, AUX or IMM field at its first byte that is not 0. -/
def csEntryChecks (g : List Byte) (o : Nat) : List Check :=
  let a := 256 + 4 * o
  let v := imW g a
  let valid := v.testBit 31
  [(valid && decide (csWords g ≤ v % 16384), a), (decide (v / 2 ^ 14 % 4 ≠ 0), a + 1),
   (valid && decide (2496 < bits v 27 16), a + 2), (decide (v / 2 ^ 28 % 8 ≠ 0), a + 3)]

/-- Vector c (R234, R262, R263). -/
def csVectorChecks (g : List Byte) (c : Nat) : List Check :=
  let a := 1280 + 4 * c
  let v := imW g a
  let valid := v.testBit 15
  [(valid && decide (csWords g ≤ v % 16384), a), ((valid && reservedCause c) || v.testBit 14, a + 1),
   (decide (v / 2 ^ 16 ≠ 0), a + 2)]

/-- The fields of a microword by use: D, operand A, operand B, NF, the memory fields, POS and WIDTH, TARGET (R249,
R256). -/
structure Uses where
  dst : Bool := false
  a : Bool := false
  b : Bool := false
  nf : Bool := false
  mem : Bool := false
  off : Bool := false
  pos : Bool := false
  target : Bool := false
  /-- Bits of AUX and IMM that the operation reads; IMM is operand B's as well. -/
  aux : Nat := 0
  imm : Nat := 0
  deriving DecidableEq, Repr

/-- The fields that an operation uses; none for an operation that R256 does not list. -/
def opUses (op : Nat) : Option Uses :=
  if op = 0x00 ∨ op = 0x4B ∨ op = 0x4C then some {}
  else if op = 0x01 then some { dst := true, b := true }
  else if (0x02 ≤ op ∧ op ≤ 0x0B) ∨ op = 0x10 ∨ op = 0x11 then some { dst := true, a := true, b := true, nf := true }
  else if op = 0x0C ∨ op = 0x0D then some { a := true, b := true, nf := true }
  else if op = 0x0E then some { dst := true, a := true, pos := true, nf := true }
  else if op = 0x0F then some { dst := true, a := true, b := true, pos := true, nf := true }
  else if op = 0x20 then some { dst := true, mem := true, off := true }
  else if op = 0x21 then some { mem := true, off := true, b := true }
  else if op = 0x22 then some { aux := 7, imm := 9 }
  else if op = 0x28 then some { dst := true, off := true, aux := 14 }
  else if op = 0x29 then some { b := true, off := true, aux := 14 }
  else if op = 0x2A ∨ op = 0x2B then some { dst := true, b := true, off := true, aux := 14 }
  else if op = 0x30 then some { dst := true, off := true, aux := 32 }
  else if op = 0x31 then some { b := true, off := true, aux := 32 }
  else if op = 0x38 then some { dst := true, a := true, aux := 2 }
  else if op = 0x3C then some { dst := true, b := true, off := true, aux := 19 }
  else if op = 0x40 ∨ op = 0x50 then some { dst := true }
  else if op = 0x48 then some { target := true }
  else if op = 0x49 then some { a := true, target := true }
  else if op = 0x4A then some { dst := true, target := true }
  else none

/-- Bits of a field from bit n on, byte by byte from byte a: those that an operation does not read (R249). -/
def spareBits (v n a size : Nat) : List Check :=
  if n = 0 then [(decide (v ≠ 0), a)]
  else (rangeFrom 0 size).map (fun k => (decide (v / 2 ^ n * 2 ^ n / 2 ^ (8 * k) % 256 ≠ 0), a + k))

/-- A microword at byte a of an image with wc words (R249, R251, R252, R257, R263). -/
def wordChecks (g : List Byte) (wc a : Nat) : List Check :=
  let w := mword (slice g a 32)
  match opUses w.op with
  | none => [(true, a)]
  | some u =>
    let useA := u.a || (u.off && w.offReg)
    let no (used : Bool) (v : Nat) : Bool := !used && decide (v ≠ 0)
    [(no u.dst w.dst || no useA w.srcA || decide (w.op = 0x38 ∧ (12 < w.dst ∨ (w.aux % 4 = 1 ∧ 13 < w.srcA))) ||
        decide (w.op = 0x50 ∧ w.dst = 15), a + 1),
     (no (u.b && !w.bImm) w.srcB || no u.b (b2n w.bImm) || no u.nf (b2n w.nf) || decide (w.cond = 15), a + 2),
     (decide (w.wait = 0 ∧ w.waitId ≠ 0) || decide (128 ≤ imB g (a + 3)), a + 3),
     (decide (w.wait ≠ 4 ∧ w.count ≠ 0), a + 4),
     (no u.mem w.space || no u.off (b2n w.offReg) || no u.mem (b2n w.net) || no u.mem w.size || decide (3 < w.size ∨ 5 < w.space) ||
        (u.mem && decide (3 < w.space)), a + 5),
     (no (u.mem || decide (w.op = 0x22) || decide (w.wait = 7)) w.offset, a + 6),
     (decide (2 ≤ imB g (a + 7)), a + 7),
     (no u.pos w.pos || no u.pos w.width || decide (64 < w.width) || (u.pos && decide (64 < w.pos + w.width)), a + 8),
     (decide (imB g (a + 9) / 32 % 2 = 1) || no u.target w.target || decide ((w.op = 0x48 ∨ w.op = 0x4A) ∧ wc ≤ w.target), a + 9),
     (decide (16 ≤ imB g (a + 11)), a + 11),
     (decide (w.op = 0x22 ∧ 64 < w.aux % 128), a + 12)] ++
    spareBits w.aux u.aux (a + 12) 4 ++
    (if u.b && w.bImm then [] else spareBits w.imm u.imm (a + 16) 8) ++ zeroBytes g (a + 24) 8

/-- Offset of the first failing field of an image of n bytes; none when it is good (R263). -/
def csFail (g : List Byte) (n : Nat) : Option Nat :=
  match firstBad (csHeadChecks g n) with
  | some k => some k
  | none =>
    if imW g 16 ≠ csCrc g then some 16
    else
      match firstBad ((rangeFrom 0 256).flatMap (csEntryChecks g) ++ (rangeFrom 0 32).flatMap (csVectorChecks g)) with
      | some k => some k
      | none => firstSome (fun k => firstBad (wordChecks g (csWords g) (1408 + 32 * k))) (rangeFrom 0 (csWords g))

/-! ### Banks (R238 to R241, R246) -/

def State.setStore (s : State) (p b : Nat) (g : List Byte) : State :=
  s.setPipe p (if b = 0 then { s.pipe p with store0 := g } else { s.pipe p with store1 := g })
def State.csShadow (s : State) (p : Nat) : Bool := s.rdb (wPipe p) Reg.PIPE_TENON_STATUS_SHADOW_VALID

/-- The identifiers of the active and the shadow bank reported (R246); dispatch and vector words are read from the image. -/
def State.csReport (s : State) (p : Nat) : State :=
  let a := s.csBank p
  (s.wr (wPipe p) Reg.PIPE_TENON_STATUS_ACTIVE_IMAGE_ID (imH (s.store p a) 6)).wr (wPipe p)
    Reg.PIPE_TENON_SHADOW_SHADOW_IMAGE_ID (imH (s.store p (1 - a)) 6)

/-- A shadow bank is no longer an image (R98, R241). -/
def State.csClear (s : State) (p : Nat) : State :=
  ((s.setStore p (1 - s.csBank p) []).wr (wPipe p) Reg.PIPE_TENON_STATUS_SHADOW_VALID 0).csReport p

/-- Whether a routine still runs in a bank (R239). -/
def State.csHolds (s : State) (p b : Nat) : Bool := (s.pipe p).engines.any (fun e => e.2.busy && decide (e.2.bank = b))

/-- A load that waited for the draining begins to write the shadow bank (R98, R239). -/
def State.csBegin (s : State) (p : Nat) : State :=
  match (s.pipe p).storeLoad with
  | some _ => (s.csClear p).wr (wPipe p) Reg.PIPE_TENON_STATUS_LOAD_BUSY 1
  | none => s

/-- TENON_CS_LOAD: the image is checked whole, and its writing starts (R98, R239, R263). -/
def csLoad (j : Job) (s : State) : Answer :=
  let a := j.le 8 8
  let n := j.le 16 4
  let m := j.byte 0 4
  let g := s.hostRd (s.jobLink j) a (min n (csFull + 1))
  if m = 0 then okA s
  else if a % 8 ≠ 0 then (s, some (St.CS_INVALID, leBytes 4 0xFFFFFFFF))
  else
    let r := s.countMoved 28 g.length
    match csFail g n with
    | some k => (r, some (St.CS_INVALID, leBytes 4 k))
    | none =>
      laterA (forEach (maskList m) (fun p s =>
        let s1 := s.setPipe p { s.pipe p with storeLoad := some { job := j, image := g, mask := m } }
        if s1.rdb (wPipe p) Reg.PIPE_TENON_STATUS_DRAINING then s1 else s1.csBegin p) r)

/-- Writing of a shadow bank ends; with the last bank of a load its job completes (R98, R239, R267). -/
def State.csWritten (s : State) (p : Nat) : State :=
  match (s.pipe p).storeLoad with
  | some l =>
    if s.rdb (wPipe p) Reg.PIPE_TENON_STATUS_LOAD_BUSY = false then s
    else
      let b := wPipe p
      let s1 := (s.setStore p (1 - s.csBank p) l.image).wr b Reg.PIPE_TENON_STATUS_LOAD_BUSY 0
      let s2 := (s1.wr b Reg.PIPE_TENON_STATUS_SHADOW_VALID 1).setPipe p { s1.pipe p with storeLoad := none }
      let s3 := (s2.csReport p).event Ev.CS_LOADED p l.mask (imH l.image 6) 0
      if (rangeFrom 0 8).any (fun q => decide (((s3.pipe q).storeLoad.map (·.job)) = some l.job)) then s3
      else s3.complete l.job St.SUCCESS []
  | none => s

/-- The banks of a pipeline change places (R239). -/
def State.csSwapBank (s : State) (p : Nat) : State :=
  let b := wPipe p
  let a := s.csBank p
  let old := imH (s.store p a) 6
  let was := s.rd b Reg.PIPE_TENON_STATUS_ACTIVE_VALID
  let s1 := (s.wr b Reg.PIPE_TENON_STATUS_ACTIVE_BANK (1 - a)).wr b Reg.PIPE_TENON_STATUS_ACTIVE_VALID 1
  let s2 := s1.wr b Reg.PIPE_TENON_STATUS_SHADOW_VALID was
  let s3 := s2.wr b Reg.PIPE_TENON_STATUS_DRAINING (b2n (s2.csHolds p a))
  (s3.csReport p).event Ev.CS_SWAPPED p p (imH (s3.store p (1 - a)) 6) old

/-- TENON_CS_SWAP (R239, R264). -/
def csSwap (j : Job) (s : State) : Answer :=
  let l := maskList (j.byte 0 4)
  if l.any (fun p => !s.csShadow p) then failA s St.CS_NO_SHADOW
  else okRes (forEach l (fun p s => s.csSwapBank p) s) [BitVec.ofNat 8 (j.byte 0 4)]

/-- The last routine of the old bank ends, and a load that waited begins (R98, R239). -/
def State.csDrained (s : State) (p : Nat) : State :=
  if s.rdb (wPipe p) Reg.PIPE_TENON_STATUS_DRAINING = false ∨ s.csHolds p (1 - s.csBank p) then s
  else (s.wr (wPipe p) Reg.PIPE_TENON_STATUS_DRAINING 0).csBegin p

/-- A bank as TENON_CS_READ writes it: 16,384 words, its length and CRC computed (R263, R264). -/
def csWhole (g : List Byte) : List Byte :=
  let fill := (List.replicate (16384 - csWords g) (0xFF#8 :: List.replicate 31 0)).flatten
  let h := putBytes (putBytes (g ++ fill) 8 (leBytes 2 16384)) 12 (leBytes 4 csFull)
  putBytes h 16 (leBytes 4 (csCrc h))

/-- TENON_CS_READ (R264). -/
def csRead (j : Job) (s : State) : Answer :=
  match oneOf (j.byte 0 4) with
  | none => failA s St.MASK_INVALID
  | some p =>
    let shadow := j.bit 5 0
    let a := s.csBank p
    let valid := if shadow then s.csShadow p else s.csValid p
    if !valid || decide (j.le 16 4 < csFull) then failA s St.CS_INVALID
    else okRes (s.jobWrite j (j.le 8 8) (csWhole (s.store p (if shadow then 1 - a else a)))) (leBytes 4 csFull)

/-! ### TENON_SETUP and state memory (R226, R265, R266) -/

/-- Whether TENON_SETUP refuses its parameters (R265). -/
def State.setupInvalid (s : State) (reserve size base : Nat) : Bool :=
  decide (16 < reserve ∨ base % 2 ^ 20 ≠ 0 ∨ 1024 < size ∨ 2 ^ 36 < base + size * 2 ^ 20) || s.inReserved base (size * 2 ^ 20)

/-- TENON_SETUP (R211, R236, R265). -/
def tenonSetup (j : Job) (s : State) : Answer :=
  let r := j.byte 0 5
  let size := j.le 6 2
  let base := j.le 8 8
  let l := maskList (j.byte 0 4)
  if l = [] then okA s
  else if s.setupInvalid r size base then failA s St.REGION_INVALID
  else
    okA (forEach l (fun p s =>
      let b := wPipe p
      let s1 := (s.wr b Reg.PIPE_TENON_CFG_RESERVE r).wr b Reg.PIPE_TENON_CFG_REGION_SIZE size
      let s2 := s1.wr b Reg.PIPE_REGION_BASE base
      s2.setPipe p { s2.pipe p with parkGoal := min (s2.pipe p).parkGoal (56 - r) }) s)

/-- TENON_STATE_READ: its words wait their turn at the arbiter of the state memory (R264, R266). -/
def tenonStateRead (j : Job) (s : State) : Answer :=
  let i := j.le 6 2
  let n := j.le 16 2
  match oneOf (j.byte 0 4) with
  | none => failA s St.MASK_INVALID
  | some p =>
    if 16384 < i + n then failA s St.STATE_RANGE
    else if n = 0 then okRes s (leBytes 4 0)
    else laterA (s.setReqs (s.tenon.reqs ++ (rangeFrom i n).map (fun k => { pipe := p, engine := 64, op := .hostRead k j })))

/-- TENON_STATE_WRITE: its words wait their turn at the arbiters of the state memories (R264, R266). -/
def tenonStateWrite (j : Job) (s : State) : Answer :=
  let i := j.le 6 2
  let n := j.le 16 2
  let l := maskList (j.byte 0 4)
  if l = [] then okA s
  else if 16384 < i + n then failA s St.STATE_RANGE
  else if n = 0 then okA s
  else
    let d := s.hostRd (s.jobLink j) (j.le 8 8) (8 * n)
    laterA ((s.countMoved 30 (8 * n)).setReqs (s.tenon.reqs ++ l.flatMap (fun p => (rangeFrom 0 n).map (fun k =>
      { pipe := p, engine := 64, op := .hostWrite (i + k) (BitVec.ofNat 64 (leNat (slice d (8 * k) 8))) j }))))

/-! ### Scrubbing and the service cluster (R241, R244, R245, R247) -/

/-- An ECC error of a control store, found by the scrubber or by a fetch (R241): 1 corrected, 2 in the shadow, 3 in the
active bank; 0 none. -/
def State.csError (s : State) (p k : Nat) : State :=
  if k = 1 then s.faultPipe p 5 0
  else if k = 2 then (s.wr (wPipe p) Reg.PIPE_TENON_STATUS_SHADOW_VALID 0).faultPipe p 6 0
  else if k = 3 then s.faultPipe p 7 0
  else s

def State.setSvc (s : State) (v st duty : Nat) : State :=
  (s.wr (wGlobal + 4 * v) Reg.GLOBAL_SVC_STATUS_STATE st).wr (wGlobal + 4 * v) Reg.GLOBAL_SVC_STATUS_DUTY duty

/-- A duty reports its heartbeat (R245, R247). -/
def State.svcBeat (s : State) (v : Nat) : State :=
  let b := wGlobal + 4 * v
  if s.svcLive v then
    s.wr b Reg.GLOBAL_SVC_STATUS_HEARTBEAT ((s.rd b Reg.GLOBAL_SVC_STATUS_HEARTBEAT + 1) % 65536)
  else s

/-- A heartbeat has stopped for 100 ms: the duty moves to a spare, or stops (R245, R606). -/
def State.svcStall (s : State) (v : Nat) : State :=
  if s.svcState v ≠ 1 ∨ 14 ≤ s.svcDuty v then s
  else
    let d := s.svcDuty v
    let s1 := s.setSvc v 2 31
    match (rangeFrom 0 16).find? (fun x => decide (s1.svcState x = 3)) with
    | some x => ((s1.setSvc x 1 d).event Ev.SVC_STALL 0 v d x).fault .glob 0 v
    | none => (s1.event Ev.SVC_STALL 0 v d 0xFF).fault .glob 1 v

/-- The device reaches SAFE: every service engine but v11 halts (R245), and with v13 the dump that is being written ends
with its SEQ as it stands (R589). -/
def State.svcSafe (s : State) : State :=
  forEach (rangeFrom 0 16) (fun v s => if v = 11 ∨ (s.svcState v ≠ 1 ∧ s.svcState v ≠ 3) then s
    else s.wr (wGlobal + 4 * v) Reg.GLOBAL_SVC_STATUS_STATE 4) { s with gauge := { s.gauge with dumping := none } }

/-! ### Rows -/

/-- A row over control stores: the three commands of a queue take effect in their order (R98, R239). -/
def storeRow (g : Gate) (j : Job) (s : State) (body : Job → State → Answer) : Out :=
  if s.inTurn j 0x38 0x3A then jobRow g j s body else .next s

/-- Row TENON_CS_LOAD. A load waits while an earlier load of one of its pipelines runs (R98). -/
def execTenonCsLoad (j : Job) (s : State) : Out :=
  if (maskList (j.byte 0 4)).any (fun p => (s.pipe p).storeLoad.isSome) then .next s else storeRow { op := 0x38 } j s csLoad
/-- Row TENON_SHADOW_WRITTEN. -/
def execTenonShadowWritten (p : Fin 8) (s : State) : Out := .next (s.csWritten p.val)
/-- Row TENON_CS_SWAP. A swap waits for an earlier load that has not begun (R98). -/
def execTenonCsSwap (j : Job) (s : State) : Out :=
  if (maskList (j.byte 0 4)).any (fun p => (s.pipe p).storeLoad.isSome && s.csShadow p) then .next s
  else storeRow { op := 0x39, safe := true } j s csSwap
/-- Row TENON_DRAIN_END. -/
def execTenonDrainEnd (p : Fin 8) (s : State) : Out := .next (s.csDrained p.val)
/-- Row TENON_CS_READ. -/
def execTenonCsRead (j : Job) (s : State) : Out := storeRow { op := 0x3A } j s csRead
/-- Row TENON_SETUP. -/
def execTenonSetup (j : Job) (s : State) : Out := jobRow { op := 0x3B, safe := true } j s tenonSetup
/-- Row TENON_STATE_READ. -/
def execTenonStateRead (j : Job) (s : State) : Out := jobRow { op := 0x3C } j s tenonStateRead
/-- Row TENON_STATE_WRITE. -/
def execTenonStateWrite (j : Job) (s : State) : Out := jobRow { op := 0x3D } j s tenonStateWrite
/-- Row CS_SCRUB_PASS: what the scrubber, or a fetch, found. -/
def execCsScrubPass (p : Fin 8) (k : Fin 4) (s : State) : Out := .next (s.csError p.val k.val)
/-- Row SVC_HEARTBEAT. -/
def execSvcHeartbeat (v : Fin 16) (s : State) : Out := .next (s.svcBeat v.val)
/-- Row SVC_HEARTBEAT_TIMEOUT. -/
def execSvcHeartbeatTimeout (v : Fin 16) (s : State) : Out := .next (s.svcStall v.val)

end Sys2Proof.Machine
end

