-- ==== Sys2Proof/Machine/Dmc.lean ====
section
/-!
DEFINITION. The controller of the stacked DRAM: request ports and order, refresh, errors and retries, retraining,
frequency steps, stack states and the DMC commands (ch. 18, R516 to R548).
-/
namespace Sys2Proof.Machine

/-! ### Addresses and pseudo-channels (R516) -/

/-- Key of pseudo-channel c of stack x. -/
def pchKey (x c : Nat) : Nat := 32 * x + c

/-- Pseudo-channel of an address within its stack (R516). -/
def pchOf (a : Nat) : Nat := a / 2 ^ 8 % 32

/-- Row and bank of an address together, and its bank alone (R516). -/
def rowOf (a : Nat) : Nat := a % 2 ^ 34 / 2 ^ 15
def bankOf (a : Nat) : Nat := rowOf a % 16

def State.pch (s : State) (x c : Nat) : PCh := tabGet (fun _ => {}) s.dmc.pch (pchKey x c)
def State.setPch (s : State) (x c : Nat) (y : PCh) : State :=
  { s with dmc := { s.dmc with pch := tabSet (fun _ => {}) s.dmc.pch (pchKey x c) y } }

/-- Register base of pseudo-channel c. -/
def wPch (x c : Nat) : Nat := wDmc x + 4 * c

def State.debt (s : State) (x c : Nat) : Nat := s.rd (wPch x c) Reg.DMC_PC_DEBT
def State.setDebt (s : State) (x c n : Nat) : State := s.wr (wPch x c) Reg.DMC_PC_DEBT n
def State.pcTraining (s : State) (x c : Nat) : Bool := s.rdb (wPch x c) Reg.DMC_PC_TRAINING
def State.repaying (s : State) (x c : Nat) : Bool := s.rdb (wPch x c) Reg.DMC_PC_REPAYING

/-- A counter of stack x's Gauge page. -/
def State.dmcCount (s : State) (x slot n : Nat) : State := s.count (153 + x) slot n

/-- Device-wide fields live in the first window (R546). -/
def State.dmcCfg (s : State) (f : Fld) : Nat := s.rd (wDmc 0) f

/-- TARGET_NS of a port (R522). -/
def State.portTarget (s : State) (x : Nat) : Nat := s.rd (wDmc 0 + 4 * x) Reg.DMC_PORT_TARGET_TARGET_NS

/-! ### Urgency and order (R523 to R525) -/

/-- Port number of the controller's own write of a corrected word, which stays at level 0 (R532). -/
def ownPort : Nat := 13

/-- Urgency level of a request (R523). -/
def DmcReq.level (r : DmcReq) (now : Nat) : Nat :=
  let e := now - r.arrival
  if r.port = ownPort then 0
  else if 7 * r.target ≤ 8 * e then 3
  else if 3 * r.target ≤ 4 * e then 2
  else if r.target ≤ 2 * e then 1
  else 0

/-- Whether two requests touch one 64-byte granule. -/
def DmcReq.shares (r z : DmcReq) : Bool :=
  decide (r.addr / 64 ≤ (z.addr + z.len - 1) / 64 ∧ z.addr / 64 ≤ (r.addr + r.len - 1) / 64)

/-- Whether a row holds a queued read behind an older queued write (R525). -/
def inOrder (row : Nat) : List DmcReq → Bool
  | [] => false
  | r :: t => (r.write && decide (rowOf r.addr = row) && t.any (fun z => !z.write && decide (rowOf z.addr = row))) || inOrder row t

/-- HAZARD of a queue (R525). -/
def hazard (l : List DmcReq) : Bool := l.any (fun r => inOrder (rowOf r.addr) l)

/-- Requests that R525 lets issue, oldest first; `older` are those before the list, newest first. -/
def readyFrom (whole older : List DmcReq) : List DmcReq → List DmcReq
  | [] => []
  | r :: t =>
    let blocked := older.any (fun z => r.shares z || (inOrder (rowOf r.addr) whole && decide (rowOf z.addr = rowOf r.addr)))
    (if blocked then [] else [r]) ++ readyFrom whole (r :: older) t

def PCh.ready (y : PCh) : List DmcReq := readyFrom y.queue [] y.queue

/-- Whether a request at a level or above waits at a pseudo-channel (R524, R528). -/
def PCh.holds (y : PCh) (lvl now : Nat) : Bool := (y.queue ++ y.waiting).any (fun r => decide (lvl ≤ r.level now))

/-- The request of a list with the earliest deadline, the oldest of those (R524). -/
def earliest : List DmcReq → Option DmcReq
  | [] => none
  | r :: t =>
    match earliest t with
    | some z => if r.arrival + r.target ≤ z.arrival + z.target then some r else some z
    | none => some r

/-- A pseudo-channel replaced, with its HAZARD bit. -/
def State.putPch (s : State) (x c : Nat) (y : PCh) : State :=
  (s.setPch x c y).wr (wPch x c) Reg.DMC_PC_HAZARD (b2n (hazard y.queue))

/-- Every held request of a pseudo-channel waits for a cause of R526. -/
def PCh.excuse (y : PCh) : PCh :=
  { y with queue := y.queue.map (fun r => { r with excused := true }), waiting := y.waiting.map (fun r => { r with excused := true }) }

/-! ### Completion (R526, R533, R548) -/

/-- The sustained figure of a running step and refresh rate for the device, in units of 10 GB/s (R535). -/
def sustained (step rate : Nat) : Nat := (([[320, 297, 251], [256, 238, 201], [192, 178, 151]].getD step []).getD rate 0)

/-- Whether the demand on a pseudo-channel exceeds its part of the sustained figure, 1 in 128 (R526, R535). DESIGN CHOICE (log
entry 245): the demand is that of the bytes requested since it last held no request. -/
def State.overDemand (s : State) (x c : Nat) : Bool :=
  let y := s.pch x c
  let b := wDmc x
  decide (10 * sustained (s.rd b Reg.DMC_STATUS_STEP) (s.rd b Reg.DMC_STATUS_RATE) * (s.clock.up - y.busyFrom) <
    128 * y.demand)

/-- A request completes or gives up, and is judged against its target (R533, R547, R548). -/
def State.judge (s : State) (x : Nat) (r : DmcReq) (info : Nat) : State :=
  let e := s.clock.up - r.arrival
  if r.port = ownPort ∨ e ≤ r.target then s
  else
    let m := tabGet (fun _ => {}) s.dmc.misses r.port
    let l := (s.clock.up, e) :: m.recent.filter (fun z => decide (s.clock.up - z.1 < 10 ^ 9))
    let due := match m.last with
      | some t => decide (10 ^ 9 ≤ s.clock.up - t)
      | none => true
    let n : MissSt := { recent := l, last := if due then some s.clock.up else m.last }
    let s1 := ({ s with dmc := { s.dmc with misses := tabSet (fun _ => {}) s.dmc.misses r.port n } } : State).dmcCount x
      (40 + r.port) 1
    let s2 := if due then s1.event Ev.TARGET_MISSED x r.port l.length (l.foldl (fun a z => max a z.2) 0) else s1
    if r.excused || s.stackOffline x || s.overDemand x (pchOf r.addr) then s2 else s2.faultDmc x 6 info

/-- The requests in flight that `ended` names complete. -/
def State.flightOver (s : State) (x c : Nat) (ended : DmcReq → Bool) : State :=
  let y := s.pch x c
  forEach (y.flight.filter ended) (fun r s => s.judge x r 0) (s.putPch x c { y with flight := y.flight.filter (fun r => !ended r) })

/-- Writes in flight are over when their pseudo-channel goes on. -/
def State.finishWrites (s : State) (x c : Nat) : State := s.flightOver x c (·.write)

/-- A request joins its pseudo-channel's queue, or waits in its port (R523). -/
def PCh.join (y : PCh) (r : DmcReq) : PCh :=
  if y.queue.length < 64 ∧ y.waiting = [] then { y with queue := y.queue ++ [r] } else { y with waiting := y.waiting ++ [r] }

/-- A bucket that the update unit could not read holds no entry from then on; the keys it held are gone (R532; log entry
209). -/
def State.bucketLost (s : State) (b : Nat) : State :=
  let l := (rangeFrom (4 * b) 4).filter (fun k => decide (s.emAt 0 k ≠ []))
  let keys := (l.map (fun k => emKey (s.emAt 0 k))).eraseDups
  forEach keys (fun key s => s.emSettle key false true) (forEach l (fun k s => s.emWrite k []) s)

/-- A word that ECC cannot correct held the link of a pool's list head: the link fails (R479, R532). -/
def State.linkWordLost (s : State) (a : Nat) : State :=
  match (rangeFrom 0 64).find? (fun k => decide (s.poolState k ≠ 0) && s.poolInDram k &&
      decide ((s.pool k).head ≠ listEnd ∧ (s.pool k).head / 8 = a / 8)) with
  | some k => s.linkLost k
  | none => s

/-- A word that ECC cannot correct (R532). -/
def State.eccLost (s : State) (x a port tag : Nat) : State :=
  let s1 := ((s.dmcCount x 62 1).event Ev.ECC_UNCORRECTABLE x (a / 64) port tag).faultDmc x 1
    (if tag = 0 then a / 64 % 2 ^ 32 else tag)
  if port = 10 ∧ a % 2 ^ 34 < 2 ^ 29 then s1.bucketLost (a % 2 ^ 34 / 128 * 4 + x)
  else if port = 12 then s1.linkWordLost a
  else s1

/-- A single-bit error is corrected and its word rewritten at level 0 (R532). -/
def State.eccFixed (s : State) (x a : Nat) : State :=
  let c := pchOf a
  let r : DmcReq := { port := ownPort, addr := a, len := 8, write := true, arrival := s.clock.up, target := 0 }
  ((s.putPch x c ((s.pch x c).join r)).dmcCount x 61 1).faultDmc x 0 (a / 64 % 2 ^ 32)

/-- DMC_REQUEST_ARRIVAL (R522, R523, R525, R542). -/
def State.dmcArrive (s : State) (port a len : Nat) (write : Bool) : State :=
  let x := stackOf a
  let c := pchOf a
  if s.stackOffline x then s
  else
    let excused := decide (s.stackState x = 3) || s.pcTraining x c || s.repaying x c || decide (0 < (s.pch x c).urgent)
    let r : DmcReq := { port := port, addr := a, len := max 1 len, write := write, arrival := s.clock.up,
                        target := s.portTarget port, excused := excused }
    let y := s.pch x c
    let idle := decide (y.queue = [] ∧ y.waiting = [] ∧ y.flight = [])
    let z := { y with busyFrom := if idle then s.clock.up else y.busyFrom, demand := (if idle then 0 else y.demand) + r.len }
    ((s.putPch x c (z.join r)).dmcCount x port r.len).dmcCount x (16 + port) 1

/-! ### Commands of a pseudo-channel (R524, R527 to R531) -/

/-- Leaving power-down, with its time counted (R531). -/
def State.leavePd (s : State) (x c : Nat) : State :=
  if s.rdb (wPch x c) Reg.DMC_PC_POWER_DOWN = false then s
  else
    let old := tabGet (fun _ => 0) s.dmc.pdNs x
    let n := old + (s.clock.up - (s.pch x c).pdSince)
    let s1 := { s with dmc := { s.dmc with pdNs := tabSet (fun _ => 0) s.dmc.pdNs x n } }
    (s1.wr (wPch x c) Reg.DMC_PC_POWER_DOWN 0).dmcCount x 65 (n / 1000 - old / 1000)

/-- A refresh of all banks; their rows are closed (R527). -/
def State.refresh (s : State) (x c : Nat) : State :=
  let s1 := s.leavePd x c
  (s1.putPch x c { s1.pch x c with rows := [] }).dmcCount x 57 1

/-- An owed refresh is repaid (R528 to R530). -/
def State.repay (s : State) (x c : Nat) : State :=
  let d := s.debt x c - 1
  let s1 := ((s.refresh x c).setDebt x c d).dmcCount x 60 1
  if d = 0 then s1.wr (wPch x c) Reg.DMC_PC_REPAYING 0 else s1

/-- A request issues: it leaves the queue, and the oldest in the ports takes its place. -/
def State.issueReq (s : State) (x c : Nat) (r : DmcReq) : State :=
  let s0 := s.leavePd x c
  let y := s0.pch x c
  let q := y.queue.erase r
  let hit := decide (tabGet (fun _ => none) y.rows (bankOf r.addr) = some (rowOf r.addr))
  let y1 : PCh := { y with queue := q ++ y.waiting.take 1, waiting := y.waiting.drop 1, flight := y.flight ++ [r],
                           rows := tabSet (fun _ => none) y.rows (bankOf r.addr) (some (rowOf r.addr)) }
  let s1 := (s0.putPch x c y1).dmcCount x (32 + r.level s.clock.up) 1
  if hit then s1.dmcCount x 56 1 else s1

/-- DMC_COMMAND_ISSUE: the next item of a pseudo-channel (R524). -/
def State.dmcIssue (s0 : State) (x c : Nat) : State :=
  if s0.stackState x ≠ 2 ∨ s0.pcTraining x c then s0
  else
    let s := s0.finishWrites x c
    let y := s.pch x c
    let now := s.clock.up
    let ready := y.ready
    let owed := decide (0 < s.debt x c)
    if 0 < y.urgent then
      ((s.setPch x c { y with urgent := y.urgent - 1 }).refresh x c).dmcCount x 59 1
    else
      match earliest (ready.filter (fun r => decide (r.level now = 3))) with
      | some r => s.issueReq x c r
      | none =>
        if (owed && s.repaying x c) || (owed && !y.holds 1 now) then s.repay x c
        else
          match ready.find? (fun r => decide (tabGet (fun _ => none) y.rows (bankOf r.addr) = some (rowOf r.addr))) with
          | some r => s.issueReq x c r
          | none =>
            match ready with
            | r :: _ => s.issueReq x c r
            | [] => s

/-- REFRESH_DUE (R528 to R530). -/
def State.refreshDue (s : State) (x c : Nat) : State :=
  if s.stackState x ≠ 2 then s
  else
    let y := s.pch x c
    if s.pcTraining x c ∨ s.repaying x c ∨ y.holds 1 s.clock.up then
      if 8 ≤ s.debt x c then s.setPch x c { y with urgent := y.urgent + 1 }
      else (s.setDebt x c (s.debt x c + 1)).dmcCount x 58 1
    else s.refresh x c

/-- PD_TIMER_EXPIRY (R531): the writes in flight are over by then. -/
def State.powerDown (s : State) (x c : Nat) : State :=
  let s1 := s.finishWrites x c
  let y := s1.pch x c
  if s.stackState x ≠ 2 ∨ s.pcTraining x c ∨ s.rdb (wPch x c) Reg.DMC_PC_POWER_DOWN ∨ y.queue ≠ [] ∨ y.flight ≠ [] then s
  else (s1.setPch x c { y with pdSince := s.clock.up }).wr (wPch x c) Reg.DMC_PC_POWER_DOWN 1

/-! ### Stack states (R540 to R543) -/

/-- LIVE of a lasting condition of a stack: HOT, FAILED or CONTENTS_LOST (R547, R602). -/
def State.levelDmc (s : State) (x i : Nat) (on : Bool) : State :=
  if h : x < 4 then s.faultLevel (.dmc ⟨x, h⟩) i 0 on else s

/-- A stack changes state (R541). -/
def State.setStack (s : State) (x new : Nat) : State :=
  let old := s.stackState x
  (s.wr (wDmc x) Reg.DMC_STATUS_STATE new).event Ev.STACK_STATE x x old new

/-- The rate that a temperature requires: 0 1×, 1 2×, 2 4×; a lower one holds from 3 °C below its threshold (R527). -/
def rateFor (old : Nat) (t : Int) : Nat :=
  let up := if 105 * 16 < t then 2 else if 85 * 16 < t then 1 else 0
  let down := if 102 * 16 < t then 2 else if 82 * 16 < t then 1 else 0
  if old ≤ up then up else min old down

/-- TEMP of a stack in 1/16 °C. -/
def State.stackTemp (s : State) (x : Nat) : Int := sInt 16 (s.rd (wDmc x) Reg.DMC_TEMP_TEMP)

/-- A retraining round starts on an ONLINE stack (R537); none starts in SAFE (R543). One that starts while Mint defers goes on
whatever Mint defers (R537, R545). -/
def State.startRound (s : State) (x : Nat) : State :=
  if s.stackState x ≠ 2 ∨ s.devState = 5 then s
  else
    let s1 := (s.wr (wDmc x) Reg.DMC_STATUS_RETRAIN_ACTIVE 1).wr (wDmc x) Reg.DMC_STATUS_RETRAIN_DEFERRED 0
    let d := s1.dmc
    { s1 with dmc := { d with nextPc := tabSet (fun _ => 0) d.nextPc x 0
                              overdue := d.overdue.erase x
                              forced := if s.rdb wMint Reg.MINT_STATUS_DEFERRING then x :: d.forced.erase x
                                        else d.forced.erase x } }

/-- A retraining round falls due on an ONLINE stack: while Mint defers, it waits (R537, R539, R541, R564). -/
def State.dueRound (s : State) (x : Nat) : State :=
  if s.stackState x = 2 ∧ s.devState ≠ 5 ∧ s.rdb wMint Reg.MINT_STATUS_DEFERRING then
    let s1 := s.wr (wDmc x) Reg.DMC_STATUS_RETRAIN_DEFERRED 1
    { s1 with dmc := { s1.dmc with overdue := x :: s1.dmc.overdue.erase x } }
  else s.startRound x

/-- The refresh state of every pseudo-channel of a stack starts afresh (R539, R540). -/
def State.freshRefresh (s : State) (x : Nat) : State :=
  forEach (rangeFrom 0 32) (fun c s =>
    let s1 := ((s.leavePd x c).setDebt x c 0).wr (wPch x c) Reg.DMC_PC_REPAYING 0
    s1.setPch x c { s1.pch x c with urgent := 0, rows := [] }) s

/-- The DMC_FREQ_SET jobs that wait complete, with the effective step; once the safe-state line has risen they are refused
(R538, R540, R611). -/
def State.answerFreq (s : State) (jobs : List Job) (code step : Nat) : State :=
  forEach jobs (fun j s => if s.halting then s.complete j St.SAFE_STATE [] else s.complete j code [BitVec.ofNat 8 step]) s

/-- A pending change of step that every ONLINE stack has taken is recorded; one whose next stack gathers training data
is deferred (R538, R540, R563). -/
def State.freqNext (s : State) : State :=
  if s.dmc.pendingFreq = false then s
  else
    match s.dmc.changing with
    | [] =>
      if (rangeFrom 0 4).any (fun x => decide (s.stackState x = 1 ∨ s.stackState x = 3)) then s
      else
        let eff := s.dmcCfg Reg.DMC_FREQ_EFFECTIVE_STEP
        let jobs := s.dmc.freqJobs
        let s1 := { s with dmc := { s.dmc with pendingFreq := false, freqJobs := [] } }
        let s2 := (s1.event Ev.FREQ_CHANGED 0 s.dmc.oldStep eff s.dmc.source).wr wMint Reg.MINT_STATUS_STEP_PENDING 0
        s2.answerFreq jobs St.SUCCESS eff
    | x :: _ =>
      if s.stackState x = 2 ∧ (rangeFrom 0 32).any (s.pcTraining x) then
        let jobs := s.dmc.freqJobs
        let s1 := { s with dmc := { s.dmc with freqJobs := [], discard := if s.dmc.discard.contains x then s.dmc.discard
                                                                       else x :: s.dmc.discard } }
        let s2 := s1.answerFreq jobs St.DEFERRED (s.dmcCfg Reg.DMC_FREQ_EFFECTIVE_STEP)
        if s.dmc.source = 1 then s2.wr wMint Reg.MINT_STATUS_STEP_PENDING 1 else s2
      else s

/-- A stack is offline: the requests queued for it complete as offline, commands in flight complete in their turn, and a
training step is discarded (R541, R542, R285). -/
def State.goOffline (s : State) (x : Nat) : State :=
  let s1 := forEach (rangeFrom 0 32) (fun c s =>
    let s1 := (s.leavePd x c).wr (wPch x c) Reg.DMC_PC_TRAINING 0
    s1.putPch x c { s1.pch x c with queue := [], waiting := [], afterGiveUp := false }) s
  let s2 := (s1.wr (wDmc x) Reg.DMC_STATUS_RETRAIN_ACTIVE 0).wr (wDmc x) Reg.DMC_STATUS_RETRAIN_DEFERRED 0
  let d : Dmc := { s2.dmc with changing := s2.dmc.changing.erase x, discard := s2.dmc.discard.erase x
                               overdue := s2.dmc.overdue.erase x, forced := s2.dmc.forced.erase x }
  ({ s2 with dmc := d }.deepOffline x).freqNext

/-- A stack comes ONLINE at the effective step and the rate of its temperature; the writes of EM that waited for it go on
(R204, R538, R541). -/
def State.goOnline (s : State) (x : Nat) : State :=
  let b := wDmc x
  let s1 := (s.setStack x 2).wr b Reg.DMC_STATUS_STEP (s.dmcCfg Reg.DMC_FREQ_EFFECTIVE_STEP)
  let s2 := ((s1.wr b Reg.DMC_STATUS_RATE (rateFor 0 (s.stackTemp x))).freshRefresh x).deepOnline x
  ((forEach (rangeFrom 0 8) (fun p s => s.present p) s2).emAdvance 64).giveUndo

/-- DEBT follows a change of rate (R529). -/
def State.changeRate (s : State) (x new : Nat) : State :=
  let old := s.rd (wDmc x) Reg.DMC_STATUS_RATE
  if old = new then s
  else
    forEach (rangeFrom 0 32) (fun c s =>
      let d := s.debt x c
      if old < new then
        let n := d * 2 ^ (new - old)
        let s1 := (s.setDebt x c (min 8 n)).wr (wPch x c) Reg.DMC_PC_REPAYING (b2n (decide (0 < n)))
        let s2 := s1.setPch x c { (s1.pch x c).excuse with urgent := (s1.pch x c).urgent + (n - 8) }
        s2.event Ev.URGENT_REFRESH x (pchKey x c) (n - 8) new
      else s.setDebt x c ((d + 2 ^ (old - new) - 1) / 2 ^ (old - new))) (s.wr (wDmc x) Reg.DMC_STATUS_RATE new)

/-- DMC_TEMP_SAMPLE (R527, R540, R541). -/
def State.dmcTemp (s : State) (x : Nat) (t : BitVec 16) : State :=
  let b := wDmc x
  let first := !s.dmc.sampled.contains x
  let s1 := s.wr b Reg.DMC_TEMP_TEMP t.toNat
  let s2 := if first || decide (sInt 16 (s.rd b Reg.DMC_TEMP_MAX_TEMP) < t.toInt) then s1.wr b Reg.DMC_TEMP_MAX_TEMP t.toNat else s1
  let s3 := if first then { s2 with dmc := { s2.dmc with sampled := x :: s2.dmc.sampled } } else s2
  let st := s.stackState x
  let s4 := if 125 * 16 < t.toInt ∧ (st = 2 ∨ st = 3) then
      (((s3.setStack x 4).wr b Reg.DMC_STATUS_RATE 3).goOffline x).levelDmc x 3 true
    else s3
  if s4.stackState x = 4 then
    if 135 * 16 < t.toInt ∧ s4.rdb b Reg.DMC_STATUS_CONTENTS_LOST = false then
      (s4.wr b Reg.DMC_STATUS_CONTENTS_LOST 1).levelDmc x 5 true
    else s4
  else if st = 2 then s4.changeRate x (rateFor (s.rd b Reg.DMC_STATUS_RATE) t.toInt)
  else s4

/-- STACK_HOT_EXIT (R541). -/
def State.hotExit (s : State) (x : Nat) : State :=
  if s.stackState x = 4 ∧ s.stackTemp x ≤ 120 * 16 then (((s.levelDmc x 3 false).goOnline x).dueRound x).freqNext else s

/-! ### Errors and retries (R532 to R534) -/

/-- DMC_READ_RETURN: the oldest read in flight returns; 1 is a single-bit error, 2 a word past correction. -/
def State.readReturn (s0 : State) (x c ecc : Nat) : State :=
  let s := s0.finishWrites x c
  let y := s.pch x c
  match y.flight with
  | [] => s
  | r :: t =>
    let s1 := s.putPch x c { y with flight := t }
    let s2 := if ecc = 1 then s1.eccFixed x r.addr else if ecc = 2 then s1.eccLost x r.addr r.port 0 else s1
    s2.judge x r 0

/-- CRC_ERROR of the oldest request in flight: it is retried, or gives up (R533). -/
def State.crcError (s : State) (x c : Nat) : State :=
  let y := s.pch x c
  match y.flight with
  | [] => s
  | r :: t =>
    let b := wPch x c
    let r1 : DmcReq := { r with tries := r.tries + 1, firstErr := if r.tries = 0 then s.clock.up else r.firstErr, excused := true }
    let w := s.dmcCfg Reg.DMC_CFG2_CRC_WINDOW_NS
    if r1.tries ≤ s.dmcCfg Reg.DMC_CFG_CRC_RETRIES ∧ w ≠ 0 ∧ s.clock.up - r1.firstErr ≤ w then
      (s.setPch x c { y with flight := r1 :: t }).dmcCount x 63 1
    else
      let n := (s.rd b Reg.DMC_PC_GIVE_UPS + 1) % 65536
      let tag := corrTag 0x0F (pchKey x c) n
      let s1 := ((s.setPch x c { ({ y with flight := t } : PCh).excuse with afterGiveUp := decide (s.stackState x = 2) }).wr b
        Reg.DMC_PC_GIVE_UPS n).dmcCount x 64 1
      let s2 := (s1.event Ev.CRC_RETRY_FAILED x (pchKey x c) (b2n r.write) tag).faultDmc x 2 tag
      let s3 := (if r.write then s2 else s2.eccLost x r.addr r.port tag).judge x r1 tag
      if s.stackState x = 2 then (s3.wr b Reg.DMC_PC_TRAINING 1).wr (wDmc x) Reg.DMC_STATUS_RETRAIN_PC c else s3

/-- PATROL_SCRUB_PASS of a stack, with what a word of it showed (R534, R543). -/
def State.patrol (s : State) (x off ecc : Nat) : State :=
  let a := x * 2 ^ 34 + off
  if s.stackOffline x ∨ s.devState = 5 then s
  else if s.rdb wMint Reg.MINT_STATUS_DEFERRING then s.wr (wDmc x) Reg.DMC_STATUS_SCRUB_DEFERRED 1
  else
    let s1 := s.wr (wDmc x) Reg.DMC_STATUS_SCRUB_DEFERRED 0
    if ecc = 1 then s1.eccFixed x a else if ecc = 2 then s1.eccLost x a ownPort 0 else s1

/-! ### Retraining (R537, R540) -/

/-- RETRAIN_ROUND_DUE: v12 starts a round on each ONLINE stack; one that Mint's deferral holds back starts when the next
falls due (R245, R537). -/
def State.roundDue (s : State) : State :=
  forEach (rangeFrom 0 4) (fun x s =>
    if s.stackState x ≠ 2 ∨ s.dutyRuns 12 = false then s
    else if s.dmc.overdue.contains x then s.startRound x
    else s.dueRound x) s

/-- Whether Mint's deferral holds the running round of a stack at its next step (R537, R555, R564). -/
def State.roundHeld (s : State) (x : Nat) : Bool :=
  s.rdb wMint Reg.MINT_STATUS_DEFERRING && s.rdb (wDmc x) Reg.DMC_STATUS_RETRAIN_ACTIVE && !s.dmc.forced.contains x

/-- Mint's deferral begins or ends for the DMC: a round that waits starts, and one that was held goes on (R534, R537,
R564). -/
def State.dmcDefer (s : State) (on : Bool) : State :=
  forEach (rangeFrom 0 4) (fun x s =>
    let s1 := s.wr (wDmc x) Reg.DMC_STATUS_SCRUB_DEFERRED (b2n on)
    if on then (if s1.roundHeld x then s1.wr (wDmc x) Reg.DMC_STATUS_RETRAIN_DEFERRED 1 else s1)
    else if s1.dmc.overdue.contains x then s1.startRound x
    else s1.wr (wDmc x) Reg.DMC_STATUS_RETRAIN_DEFERRED 0) s

/-- RETRAIN_STEP_START of the next pseudo-channel of a round, which stops with v12 and waits while Mint defers it (R526, R537,
R543, R564). -/
def State.stepStart (s : State) (x : Nat) : State :=
  let c := tabGet (fun _ => 0) s.dmc.nextPc x
  if s.stackState x ≠ 2 ∨ s.dutyRuns 12 = false ∨ s.rdb (wDmc x) Reg.DMC_STATUS_RETRAIN_ACTIVE = false ∨ 32 ≤ c ∨
     s.roundHeld x ∨ (rangeFrom 0 32).any (s.pcTraining x) then s
  else
    let s1 := (s.leavePd x c).setPch x c ((s.leavePd x c).pch x c).excuse
    (s1.wr (wPch x c) Reg.DMC_PC_TRAINING 1).wr (wDmc x) Reg.DMC_STATUS_RETRAIN_PC c

/-- RETRAIN_STEP_DONE (R537, R540, R541). -/
def State.stepDone (s : State) (x c : Nat) (ok : Bool) : State :=
  let y := s.pch x c
  if s.pcTraining x c = false then s
  else
    let s1 := (s.setPch x c { y with afterGiveUp := false }).wr (wPch x c) Reg.DMC_PC_TRAINING 0
    if s.dmc.discard.contains x then
      if y.afterGiveUp then { s1 with dmc := { s1.dmc with discard := s1.dmc.discard.erase x } } else s1
    else if y.afterGiveUp then
      if ok then s1 else ((s1.setStack x 5).goOffline x).levelDmc x 4 true
    else
      let s2 := { s1 with dmc := { s1.dmc with nextPc := tabSet (fun _ => 0) s1.dmc.nextPc x (c + 1) } }
      if c = 31 then s2.wr (wDmc x) Reg.DMC_STATUS_RETRAIN_ACTIVE 0 else s2

/-! ### Frequency steps (R535, R538 to R540) -/

/-- HOST_STEP and MINT_STEP take effect: whether the change is deferred, and the state (R538, R540). -/
def State.changeStep (s : State) (source : Nat) : Bool × State :=
  let old := s.dmcCfg Reg.DMC_FREQ_EFFECTIVE_STEP
  let new := max (s.dmcCfg Reg.DMC_FREQ_HOST_STEP) (s.dmcCfg Reg.DMC_FREQ_MINT_STEP)
  if new = old then (false, s)
  else
    let late (x : Nat) : Bool := decide ((s.stackState x = 2 ∧ s.rd (wDmc x) Reg.DMC_STATUS_STEP ≠ new) ∨
      (s.stackState x = 3 ∧ tabGet (fun _ => 0) s.dmc.target x ≠ new))
    let s1 := s.wr (wDmc 0) Reg.DMC_FREQ_EFFECTIVE_STEP new
    let s2 := { s1 with dmc := { s1.dmc with pendingFreq := true, source := source, changing := (rangeFrom 0 4).filter late,
                                             oldStep := if s.dmc.pendingFreq then s.dmc.oldStep else old } }
    let first := s2.dmc.changing.take 1
    (first.any (fun x => decide (s2.stackState x = 2) && (rangeFrom 0 32).any (s2.pcTraining x)) ||
      (rangeFrom 0 4).any (fun x => decide (s2.stackState x = 1)), s2)

/-- MINT_STEP is written (R538, R563). -/
def State.mintStep (s : State) (step : Nat) : State :=
  let r := (s.wr (wDmc 0) Reg.DMC_FREQ_MINT_STEP step).changeStep 1
  let s1 := if r.1 then r.2.wr wMint Reg.MINT_STATUS_STEP_PENDING 1 else r.2
  s1.freqNext

/-- STACK_FREQ_CHANGE_START: the first stack that must still change stops service (R538, R539, R541, R543). -/
def State.freqStart (s : State) (x : Nat) : State :=
  if s.dmc.changing.head? ≠ some x ∨ s.stackState x ≠ 2 ∨ s.halting ∨ (rangeFrom 0 32).any (s.pcTraining x) ∨
     (rangeFrom 0 4).any (fun z => decide (s.stackState z = 3)) then s
  else
    let s1 := forEach (rangeFrom 0 32) (fun c s =>
      let s1 := (s.flightOver x c (fun _ => true)).refresh x c
      s1.putPch x c (s1.pch x c).excuse) s
    let s2 := ((s1.setStack x 3).wr (wDmc x) Reg.DMC_STATUS_RATE 3).freshRefresh x
    { s2 with dmc := { s2.dmc with target := tabSet (fun _ => 0) s2.dmc.target x (s.dmcCfg Reg.DMC_FREQ_EFFECTIVE_STEP) } }

/-- STACK_FREQ_CHANGE_DONE: service resumes at the new step, and a round starts or goes on (R539, R540). -/
def State.freqDone (s : State) (x : Nat) : State :=
  if s.stackState x ≠ 3 then s
  else
    let b := wDmc x
    let step := tabGet (fun _ => 0) s.dmc.target x
    let s1 := ((s.setStack x 2).wr b Reg.DMC_STATUS_STEP step).wr b Reg.DMC_STATUS_RATE (rateFor 0 (s.stackTemp x))
    let again := s.dmc.discard.contains x
    let keep := step ≠ s.dmcCfg Reg.DMC_FREQ_EFFECTIVE_STEP
    let s2 := { s1 with dmc := { s1.dmc with changing := if keep then s1.dmc.changing else s1.dmc.changing.erase x,
                                             discard := s1.dmc.discard.erase x } }
    (if again then s2 else s2.dueRound x).freqNext

/-- The device reaches SAFE: no further stack changes step, and the DMC_FREQ_SET that waits for one completes with
SAFE_STATE (R543, R611). -/
def State.freqSafe (s : State) : State :=
  forEach s.dmc.freqJobs (fun j s => s.complete j St.SAFE_STATE []) { s with dmc := { s.dmc with freqJobs := [] } }

/-- DRAM boot training starts (R536, R541). -/
def State.trainStacks (s : State) : State :=
  forEach (rangeFrom 0 4) (fun x s => if s.stackState x = 0 then s.setStack x 1 else s) s

/-- DRAM boot training ends; bit x of `good` tells whether stack x trained (R536, R540, R541). -/
def State.stacksTrained (s : State) (good : Nat) : State :=
  (forEach (rangeFrom 0 4) (fun x s =>
    if s.stackState x ≠ 1 then s
    else if good.testBit x then s.goOnline x
    else (s.setStack x 5).levelDmc x 4 true) s).freqNext

/-! ### Commands (R544, R545) -/

/-- The smallest TARGET_NS of the 13 ports, port x taken as t (R533). -/
def State.leastTarget (s : State) (x t : Nat) : Nat :=
  (rangeFrom 0 13).foldl (fun a k => min a (if k = x then t else s.portTarget k)) 65535

/-- DMC_SETUP (R531, R533, R534, R537, R545). -/
def dmcSetup (j : Job) (s : State) : Answer :=
  let w := j.le 12 2
  if !j.only [(8, 3), (12, 4)] || decide (8 ≤ j.byte 0 10) || decide (s.leastTarget 13 0 < 4 * w) then failA s St.DMC_INVALID
  else
    let b := wDmc 0
    let s1 := (s.wr b Reg.DMC_CFG_PD_TIMER (j.le 8 2)).wr b Reg.DMC_CFG_CRC_RETRIES (j.byte 0 10)
    okA (((s1.wr b Reg.DMC_CFG2_CRC_WINDOW_NS w).wr b Reg.DMC_CFG2_RETRAIN_MIN (j.byte 0 14)).wr b Reg.DMC_CFG2_SCRUB_HOURS (j.byte 0 15))

/-- DMC_PORT_SET (R522, R533, R545). -/
def dmcPortSet (j : Job) (s : State) : Answer :=
  let x := j.byte 0 4
  let t := j.le 8 2
  if !j.only [(4, 1), (8, 2)] || decide (12 < x ∨ s.leastTarget x t < 4 * s.dmcCfg Reg.DMC_CFG2_CRC_WINDOW_NS) then
    failA s St.DMC_INVALID
  else okA (s.wr (wDmc 0 + 4 * x) Reg.DMC_PORT_TARGET_TARGET_NS t)

/-- Whether an extent meets a Tenon region or the buffers of a DRAM pool (R545). -/
def State.inUse (s : State) (a n : Nat) : Bool :=
  s.inRegion a n || (rangeFrom 0 64).any (fun k =>
    decide (s.poolState k ≠ 0) && s.poolInDram k && overlaps a n (s.poolAddr k) (s.poolCount k * 2 ^ s.poolShift k))

/-- DMC_MAP_SET (R518, R545). -/
def dmcMapSet (j : Job) (s : State) : Answer :=
  let m := j.byte 0 4
  let g := j.byte 0 5
  let l := (rangeFrom 0 4).filter (fun x => m.testBit x)
  if !j.only [(4, 2)] || decide (16 ≤ m ∨ 16 ≤ g) then failA s St.DMC_INVALID
  else if l.any (fun x => s.deepHolds x || s.inUse ((x + 1) * 2 ^ 34 - g * 2 ^ 30) (g * 2 ^ 30)) then failA s St.DMC_BUSY
  else okA (forEach l (fun x s => s.wr (wDmc x) Reg.DMC_MAP_SPILL_GIB g) s)

/-- DMC_FREQ_SET (R538, R540, R545). -/
def dmcFreqSet (j : Job) (s : State) : Answer :=
  let h := j.byte 0 4
  if !j.only [(4, 1)] || decide (2 < h) then failA s St.DMC_INVALID
  else
    let old := s.dmcCfg Reg.DMC_FREQ_EFFECTIVE_STEP
    let r := (s.wr (wDmc 0) Reg.DMC_FREQ_HOST_STEP h).changeStep 0
    let eff := r.2.dmcCfg Reg.DMC_FREQ_EFFECTIVE_STEP
    if eff = old then okRes r.2 [BitVec.ofNat 8 eff]
    else
      let s1 := { r.2 with dmc := { r.2.dmc with freqJobs := r.2.dmc.freqJobs ++ (if r.1 then [] else [j]) } }
      if r.1 then (s1.freqNext, some (St.DEFERRED, [BitVec.ofNat 8 eff])) else laterA s1.freqNext

/-- DMC_RETRAIN (R545). -/
def dmcRetrain (j : Job) (s : State) : Answer :=
  let m := j.byte 0 4
  let l := (rangeFrom 0 4).filter (fun x => m.testBit x)
  if !j.only [(4, 1)] || decide (16 ≤ m) then failA s St.DMC_INVALID
  else if l.any (fun x => decide (s.stackState x ≠ 2)) then failA s St.DMC_BUSY
  else okA (forEach l (fun x s => s.startRound x) s)

/-! ### Rows -/

/-- Row DMC_REQUEST_ARRIVAL. -/
def execDmcRequestArrival (port : Fin 13) (a : BitVec 36) (len : Fin 129) (write : Bool) (s : State) : Out :=
  .next (s.dmcArrive port.val a.toNat len.val write)
/-- Row DMC_COMMAND_ISSUE. -/
def execDmcCommandIssue (x : Fin 4) (c : Fin 32) (s : State) : Out := .next (s.dmcIssue x.val c.val)
/-- Row DMC_READ_RETURN: no error, a single-bit error, or a word past correction. -/
def execDmcReadReturn (x : Fin 4) (c : Fin 32) (ecc : Fin 3) (s : State) : Out := .next (s.readReturn x.val c.val ecc.val)
/-- Row CRC_ERROR. -/
def execCrcError (x : Fin 4) (c : Fin 32) (s : State) : Out := .next (s.crcError x.val c.val)
/-- Row REFRESH_DUE. -/
def execRefreshDue (x : Fin 4) (c : Fin 32) (s : State) : Out := .next (s.refreshDue x.val c.val)
/-- Row DMC_TEMP_SAMPLE, in 1/16 °C. -/
def execDmcTempSample (x : Fin 4) (t : BitVec 16) (s : State) : Out := .next (s.dmcTemp x.val t)
/-- Row PD_TIMER_EXPIRY. -/
def execPdTimerExpiry (x : Fin 4) (c : Fin 32) (s : State) : Out := .next (s.powerDown x.val c.val)
/-- Row PATROL_SCRUB_PASS: of a stack, with a word's offset and what it showed. -/
def execPatrolScrubPass (x : Fin 4) (off : BitVec 34) (ecc : Fin 3) (s : State) : Out :=
  .next (s.patrol x.val off.toNat ecc.val)
/-- Row RETRAIN_ROUND_DUE. -/
def execRetrainRoundDue (s : State) : Out := .next s.roundDue
/-- Row RETRAIN_STEP_START. -/
def execRetrainStepStart (x : Fin 4) (s : State) : Out := .next (s.stepStart x.val)
/-- Row RETRAIN_STEP_DONE. -/
def execRetrainStepDone (x : Fin 4) (c : Fin 32) (ok : Bool) (s : State) : Out := .next (s.stepDone x.val c.val ok)
/-- Row STACK_FREQ_CHANGE_START. -/
def execStackFreqChangeStart (x : Fin 4) (s : State) : Out := .next (s.freqStart x.val)
/-- Row STACK_FREQ_CHANGE_DONE. -/
def execStackFreqChangeDone (x : Fin 4) (s : State) : Out := .next (s.freqDone x.val)
/-- Row STACK_HOT_EXIT. -/
def execStackHotExit (x : Fin 4) (s : State) : Out := .next (s.hotExit x.val)
/-- Row DMC_SETUP. -/
def execDmcSetup (j : Job) (s : State) : Out := jobRow { op := 0x80 } j s dmcSetup
/-- Row DMC_PORT_SET. -/
def execDmcPortSet (j : Job) (s : State) : Out := jobRow { op := 0x81 } j s dmcPortSet
/-- Row DMC_MAP_SET. -/
def execDmcMapSet (j : Job) (s : State) : Out := jobRow { op := 0x82, safe := true } j s dmcMapSet
/-- Row DMC_FREQ_SET. -/
def execDmcFreqSet (j : Job) (s : State) : Out := jobRow { op := 0x83, safe := true } j s dmcFreqSet
/-- Row DMC_RETRAIN. -/
def execDmcRetrain (j : Job) (s : State) : Out := jobRow { op := 0x84 } j s dmcRetrain

end Sys2Proof.Machine
end

