-- ==== Sys2Proof/Machine/Thyme.lean ====
section
/-!
DEFINITION. Thyme: the counter and its adjustments, pulse outputs, capture inputs, 1PPS, the ToD UART, the DPLL and the
recovered clocks (ch. 12, R355 to R388; R389 to R396 where they gate an adjustment).
-/
namespace Sys2Proof.Machine

/-! ### The counter (R355 to R357) -/

/-- Counter units in a nanosecond, and in 1/65,536 ns (R355). -/
def unitNs : Nat := 2 ^ 48
def unitFrac : Nat := 2 ^ 32

/-- A quotient of the counter's arithmetic; which neighbour one that is not whole becomes is free (log entry 30). -/
def unitQuot (a : Int) (b : Nat) : Int := if a % (b : Int) = 0 then a / b else a / b + b2n (Config.roundsUp a b)

/-- The counter as one number, and the counter set to one, modulo 2^48 s. -/
def State.counter (s : State) : Nat := (s.clock.sec * 10 ^ 9 + s.clock.ns) * unitNs + s.clock.sub
def State.setCounter (s : State) (t : Int) : State :=
  let n := (t % ((2 ^ 48 * 10 ^ 9 * unitNs : Nat) : Int)).toNat
  { s with clock := { s.clock with sec := n / unitNs / 10 ^ 9, ns := n / unitNs % 10 ^ 9, sub := n % unitNs } }

/-- FRAC of the counter (R355). -/
def State.frac (s : State) : Nat := s.clock.sub / unitFrac

def State.freqAdj (s : State) : Int := sInt 32 (s.rd wThyme Reg.THYME_FREQ_ADJ_FREQ_ADJ)

/-- Whether the counter runs: the Thyme PLL has not lost its lock (R356, R624). -/
def State.counting (s : State) : Bool := !s.rdb wThyme (Reg.FLT_LIVE_I 0)

/-- Counter units that a rate in 1/1,024 ppb gains in n cycles, and that the slew has gained after n cycles of a broadcast
interval (R355, R359). -/
def rateGain (y : Int) (n : Nat) : Int := unitQuot (y * n * unitNs) (1024 * 10 ^ 9)
def State.slewGain (s : State) (n : Nat) : Int := unitQuot (s.thyme.gain * n) 1024

/-- n cycles of the Thyme clock, within one broadcast interval (R355, R357, R398). -/
def State.cycles (s : State) (n : Nat) : State :=
  let pos := s.clock.up % 1024
  let s1 := { s with clock := { s.clock with up := s.clock.up + n } }
  if s.counting = false then s1
  else
    let y := s.freqAdj + s.thyme.offD
    let g := s.slewGain (pos + n) - s.slewGain pos
    let s2 := s1.setCounter (s.counter + (n * unitNs : Nat) + (rateGain y (pos + n) - rateGain y pos) + g)
    { s2 with thyme := { s2.thyme with accSum := s2.thyme.accSum + s.freqAdj * n * unitNs + g * (1024 * 10 ^ 9)
                                       accN := s2.thyme.accN + n } }

/-! ### Pulse outputs (R371 to R374) -/

/-- The seven words of TOUT i's setting (R387), and its fields (R371, R385). -/
def toutBase (i : Nat) : Nat := wThyme + 0x20 * i
def State.toutWord (s : State) (i w : Nat) : Nat := s.reg (toutBase i + 0x100 + 4 * w)

structure PulseCfg where
  mode : Nat := 0
  pol : Bool := false
  count : Nat := 0
  /-- START, the period, the width and OUT_COMP in 1/8 ns. -/
  start : Nat := 0
  period : Nat := 0
  width : Nat := 0
  comp : Int := 0
  deriving DecidableEq, Repr

/-- The fields of a setting's seven words: bytes 4 to 31 of the command. -/
def pulseCfg (w : List Nat) : PulseCfg :=
  let b (k : Nat) : Nat := w.getD k 0
  { mode := bits (b 0) 9 8, pol := bit (b 0) 10, count := bits (b 0) 31 16,
    start := ((b 1 + bits (b 2) 15 0 * 2 ^ 32) * 10 ^ 9 + b 3) * 8, period := (bits (b 4) 15 0 * 10 ^ 9 + b 5) * 8,
    width := b 6 * 8, comp := sInt 16 (bits (b 2) 31 16) }
def State.pulse (s : State) (i : Nat) : PulseCfg := pulseCfg ((rangeFrom 0 7).map (s.toutWord i))

def State.pulseSt (s : State) (i : Nat) : PulseSt := tabGet (fun _ => {}) s.thyme.pulses i
def State.setPulseSt (s : State) (i : Nat) (x : PulseSt) : State :=
  { s with thyme := { s.thyme with pulses := tabSet (fun _ => {}) s.thyme.pulses i x } }

/-- The present time in 1/8 ns, and the first eighth that is not before it. -/
def State.eighths (s : State) : Nat := s.counter * 8 / unitNs
def State.eighthsUp (s : State) : Nat := (s.counter * 8 + unitNs - 1) / unitNs

/-- Instants of pulse k at the ball, in 1/8 ns (R371, R372). -/
def PulseCfg.edgeAt (c : PulseCfg) (k : Nat) (trailing : Bool) : Int :=
  (c.start + k * c.period + (if trailing then c.width else 0) : Nat) + c.comp

/-- The first pulse whose instant is not before a time. -/
def PulseCfg.firstAt (c : PulseCfg) (t : Nat) : Nat :=
  if t ≤ c.start ∨ c.period = 0 then 0 else (t - c.start + c.period - 1) / c.period

/-- An output driven to its active or inactive level (R371, R374). -/
def State.drive (s : State) (name : Nat) (pol active : Bool) : State := s.emit (.pin name (b2n (active != pol)))

/-- An output is driven at an instant, in 1/8 ns. -/
def State.driveAt (s : State) (name : Nat) (pol active : Bool) (at8 : Int) : State := s.emit (.edge name (b2n (active != pol)) at8)

/-- A setting takes effect. One that waited for a trailing edge has passed over the pulses before it (R371, R373). -/
def State.pulseStart (s : State) (i : Nat) (w : List Word32) (k : Nat) : State :=
  let s1 := forEach ((rangeFrom 0 7).zip w) (fun e s => s.setReg (toutBase i + 0x100 + 4 * e.1) e.2.toNat) s
  let c := s1.pulse i
  let gone := c.mode = 1 ∧ c.start < s.eighthsUp
  let act := (c.mode = 1 ∧ ¬gone) ∨ c.mode = 3 ∨ (c.mode = 2 ∧ c.count ≠ 0)
  let s2 := (s1.wr (toutBase i) Reg.THYME_TOUT_STATUS_PULSES 0).wr (toutBase i) Reg.THYME_TOUT_STATUS_ACTIVE (b2n (decide act))
  let first := max k (c.firstAt s.eighthsUp)
  (s2.setPulseSt i { next := first, first := first }).drive i c.pol false

/-- A trailing edge at an instant; a setting that waited for it takes effect (R373). -/
def State.trailing (s : State) (i : Nat) (at8 : Int) : State :=
  let x := s.pulseSt i
  let s1 := (s.setPulseSt i { x with high := false }).driveAt i (s.pulse i).pol false at8
  match x.later with
  | some (w, k) => s1.pulseStart i w k
  | none => s1

/-- A leading edge (R371, R372). -/
def State.leading (s : State) (i : Nat) : State :=
  let x := s.pulseSt i
  let c := s.pulse i
  let b := toutBase i
  let n := s.rd b Reg.THYME_TOUT_STATUS_PULSES + 1
  let s1 := s.wr b Reg.THYME_TOUT_STATUS_PULSES (n % 65536)
  let s2 := if c.mode = 1 ∨ (c.mode = 2 ∧ n = c.count) then s1.wr b Reg.THYME_TOUT_STATUS_ACTIVE 0 else s1
  let s3 := s2.setPulseSt i { x with next := x.next + 1, first := x.next + 1, high := decide (c.width ≠ 0) }
  if c.width = 0 then s3 else s3.driveAt i c.pol true (c.edgeAt x.next false)

/-- PULSE_EDGE: the edge that falls due on an output. An edge is within 2 ns of its instant: before that none is due
(R372; log entry 208). -/
def State.pulseEdge (s : State) (i : Nat) : State :=
  let x := s.pulseSt i
  let a := (s.pulse i).edgeAt (if x.high then x.next - 1 else x.next) x.high
  if (s.eighths : Int) + 16 < a then s
  else if x.high then s.trailing i a
  else if s.rdb (toutBase i) Reg.THYME_TOUT_STATUS_ACTIVE then s.leading i
  else s

/-- The counter has been moved to the present time (R374): the trailing edge that it has passed is driven, the pulses that it
has passed are skipped, and after a backward change an output goes on with the first pulse after the last one emitted, those
that an earlier change skipped among them. -/
def State.pulseMove (s : State) (i : Nat) : State :=
  let x := s.pulseSt i
  let c := s.pulse i
  let t := s.eighths
  let s1 := if x.high && decide (c.start + (x.next - 1) * c.period + c.width ≤ t) then s.trailing i t else s
  let y := s1.pulseSt i
  let c1 := s1.pulse i
  let k := max y.first (if c1.mode = 1 then b2n (decide (c1.start < s.eighthsUp)) else c1.firstAt s.eighthsUp)
  let skippedOne := c1.mode = 1 ∧ y.first = 0 ∧ y.next = 1
  if s1.rdb (toutBase i) Reg.THYME_TOUT_STATUS_ACTIVE ∨ skippedOne then
    let s2 := s1.setPulseSt i { y with next := k }
    let s3 := if y.next < k then s2.event Ev.PULSE_SKIPPED 0 i (k - y.next) 0 else s2
    if c1.mode = 1 then s3.wr (toutBase i) Reg.THYME_TOUT_STATUS_ACTIVE (b2n (decide (k = 0))) else s3
  else s1

/-! ### Broadcasts and adjustments (R35, R36, R357 to R360) -/

/-- A time step, SET or SET_AT_PPS takes effect (R36, R66, R358, R360, R374). -/
def State.moveTime (s : State) (kind : Nat) (t : Int) : State :=
  let t0 : Int := s.counter
  let s1 := s.setCounter t
  let s2 := s1.event Ev.TIME_CHANGED 0 kind (uNat 32 ((t - t0).tdiv unitNs)) (s1.clock.sec % 2 ^ 32)
  forEach s.ports (fun e s => s.gclMove e.1) (forEach (rangeFrom 0 8) (fun i s => s.pulseMove i) s2)

/-- The slew's reports (R387). -/
def State.slewReport (s : State) : State :=
  let x := s.thyme.slew.getD {}
  let s1 := (s.wr wThyme Reg.THYME_STATUS_SLEWING (b2n s.thyme.slew.isSome)).wr wThyme Reg.THYME_SLEW_RATE_SLEW_PPB x.ppb
  s1.wr wThyme Reg.THYME_SLEW_LEFT (uNat 64 (x.left.tdiv unitFrac))

/-- One adjustment takes effect (R358 to R360). A SLEW of 0 ns completes at once, with its SLEW_DONE; one at 0 ppb is no
command's, but the end that HOLDOVER puts to a slew (R396). -/
def State.applyAdj (s : State) (a : Adj) : State :=
  match a with
  | .rate v => s.wr wThyme Reg.THYME_FREQ_ADJ_FREQ_ADJ (uNat 32 v)
  | .slew off ppb =>
    if ppb = 0 then { s with thyme := { s.thyme with slew := none } }
    else if off = 0 then ({ s with thyme := { s.thyme with slew := none } }).event Ev.SLEW_DONE 0 0 0 0
    else
      let x : SlewSt := { off := off * unitFrac, left := off * unitFrac, ppb := ppb, start := s.clock.up }
      { s with thyme := { s.thyme with slew := some x } }
  | .step off => s.moveTime 2 (s.counter + off * unitFrac)
  | .set t => s.moveTime 3 (t * unitFrac : Nat)
  | .setAtPps sec edge => s.moveTime 4 (((sec * 10 ^ 9 * 8 + s.clock.up * 8 : Nat) - edge) * (unitNs / 8 : Nat))

/-- What the slew adds over the next interval (R357, R359). -/
def State.nextGain (s : State) : Int :=
  match s.thyme.slew with
  | none => 0
  | some x =>
    let y : Int := 1024 * x.ppb
    if 0 ≤ x.left then min x.left (rateGain (min y (204800000 - s.freqAdj)) 1024)
    else max x.left (rateGain (max (-y) (-204800000 - s.freqAdj)) 1024)

/-- What of the slew the running interval leaves unapplied at its end. -/
def State.leftNext (s : State) (x : SlewSt) : Int := if s.counting then x.left - s.thyme.gain else x.left

/-- A broadcast: the slew's account, then the waiting adjustments in their order (R35, R36, R359, R360). -/
def State.broadcast (s : State) : State :=
  let s1 := match s.thyme.slew with
    | none => s
    | some x =>
      let left := s.leftNext x
      if left = 0 then
        ({ s with thyme := { s.thyme with slew := none } }).event Ev.SLEW_DONE 0 (uNat 32 (x.off.tdiv unitNs))
          ((s.clock.up - x.start) / 10 ^ 6) 0
      else { s with thyme := { s.thyme with slew := some { x with left := left } } }
  let l := s1.thyme.adj
  let s2 := forEach l (fun a s => s.applyAdj a) { s1 with thyme := { s1.thyme with adj := [] } }
  ({ s2 with thyme := { s2.thyme with gain := s2.nextGain, offD := if s2.syncTime then s2.dpllD else 0 } }).slewReport

/-- n cycles of the Thyme clock pass, and with them the core cycles that programmable counters count as event 0x01 (R580). -/
def State.pass (s : State) (n : Nat) : State :=
  let s1 := s.cycles n
  forEach (rangeFrom 0 8) (fun p x => x.pcEvent (some p) 0x01 (s1.ccNow - s.ccNow) (fun _ => true) {}) s1

/-! ### VDD_CORE over AVSBus (R622, R654 to R656) -/

/-- The VDD_CORE setpoint that the clock wants at a junction temperature, in mV: the higher one before a return to 1.6 GHz, the
lower one from 1 ms after a switch to 1.2 GHz (R622, R655). -/
def State.avsWanted (s : State) (tj : Int) : Nat :=
  let low := s.rdb wMint Reg.MINT_STATUS_CLOCK_LOW
  let want := s.mint.wantLow
  let fused (low : Bool) : Nat := 650 + 5 * (Config.avsTarget low tj % 41)
  if low && want then (if 10 ^ 6 ≤ s.clock.up - s.mint.switchedAt then fused true else s.dev.avs) else fused false

/-- Whether a setpoint may be written now: at most one in 100 ms, but for a clock change and for one that is repeated
because it was not acknowledged (R654 to R656). -/
def State.avsMay (s : State) : Bool :=
  s.dev.avsPending.isNone && (s.dev.avsClock || s.dev.avsRetry || s.since s.dev.avsAt (10 ^ 8))

/-- A setpoint write, at most 20 mV from the last (R654). -/
def State.avsWrite (s : State) (tj : Int) : State :=
  let w := s.avsWanted tj
  let v := if s.dev.avs < w then min w (s.dev.avs + 20) else max w (s.dev.avs - 20)
  if w = s.dev.avs then { s with dev := { s.dev with avsRetry := false } }
  else if s.avsMay = false then s
  else ({ s with dev := { s.dev with avsPending := some v, avsAt := some s.clock.up, avsRetry := false } }).emit (.avs v)

/-- In FUSED, where Mint does not evaluate yet, the setpoint is written at the first time broadcast that R654 allows, for a junction
temperature that nothing has read and that is free (R622; log entry 132). -/
def State.avsFused (s : State) : State :=
  if s.devState = 1 ∧ s.avsMay then
    let d := s.draw 16
    d.2.avsWrite d.1.toInt
  else s

/-- TIME_BUS_BROADCAST: the rest of the 1,024 ns passes, and the broadcast follows. -/
def State.timeBus (s : State) : State :=
  if s.devState = 0 then s else (s.pass (1024 - s.clock.up % 1024)).broadcast.avsFused

/-- A step on an empty queue: one cycle of the Thyme clock, with the broadcast that may fall on it (log entry 2). In
reset nothing runs. -/
def State.idle (s : State) : State :=
  if s.devState = 0 then s
  else
    let s1 := s.pass 1
    if s1.clock.up % 1024 = 0 then s1.broadcast.avsFused else s1

/-! ### THYME_ADJUST (R358 to R360, R385, R390 to R392) -/

def State.holdMode (s : State) : Nat := s.rd wThyme Reg.THYME_HOLD_STATUS_MODE
def State.holdState (s : State) : Nat := s.rd wThyme Reg.THYME_HOLD_STATUS_HOLD_STATE
def State.slewMax (s : State) : Nat := s.rd wThyme Reg.THYME_HOLD_SLEW_MAX_SLEW_MAX_PPB
def State.stepLimit (s : State) : Nat := s.rd wThyme Reg.THYME_HOLD_STEP_LIMIT_STEP_LIMIT

/-- An adjustment that waits for the next broadcast. -/
def State.addAdj (s : State) (a : Adj) : State := { s with thyme := { s.thyme with adj := s.thyme.adj ++ [a] } }

/-- Kind RATE (R358, R390, R392); an undefined KIND is refused here too. -/
def adjustRate (j : Job) (s : State) : Answer :=
  let v := sInt 32 (j.le 8 4)
  let d := v - s.freqAdj
  if decide (0 < j.byte 0 4) then failA s St.THYME_INVALID
  else if s.holdState = 3 then failA s St.HOLD_ACTIVE
  else if !j.only [(4, 1), (8, 4)] || decide (204800000 < v.natAbs) then failA s St.THYME_INVALID
  else if s.holdMode = 1 ∧ 1024 * s.slewMax < d.natAbs then failA s St.SLEW_LIMIT
  else okA (s.addAdj (.rate v))

/-- Offset of a SLEW or STEP, and whether it is out of range (R358). -/
def adjOffset (j : Job) : Int := sInt 64 (j.le 8 8)
def offsetBad (v : Int) : Bool := decide (10 ^ 9 * 65536 < v.natAbs)

/-- Offset that a waiting slew, or the running one at the broadcast that replaces it, leaves unapplied, in ns (R359). -/
def State.slewLeft (s : State) : Int :=
  let waiting := s.thyme.adj.foldl (fun v a => match a with
    | .slew o _ => some o
    | _ => v) none
  match waiting with
  | some o => o.tdiv 65536
  | none => ((s.thyme.slew.map s.leftNext).getD 0).tdiv unitNs

/-- Kind SLEW (R358, R359, R390). -/
def adjustSlew (j : Job) (s : State) : Answer :=
  let v := adjOffset j
  let ppb := j.le 16 4
  if s.holdState = 3 then failA s St.HOLD_ACTIVE
  else if !j.only [(4, 1), (8, 12)] || offsetBad v || decide (ppb = 0) then failA s St.THYME_INVALID
  else if (if s.holdMode = 1 then s.slewMax else 200000) < ppb then failA s St.SLEW_LIMIT
  else okRes (s.addAdj (.slew v ppb)) (leBytes 6 (uNat 48 s.slewLeft))

/-- A refused step is flagged (R391). -/
def State.flagStep (s : State) (v : Int) : State :=
  let s1 := (s.wr wThyme Reg.THYME_HOLD_STATUS_STEP_FLAG 1).noteSet (wThyme + 0x2000) (2 ^ 26)
  let s2 := s1.wr wThyme Reg.THYME_HOLD_REFUSED_STEPS_REFUSED ((s.rd wThyme Reg.THYME_HOLD_REFUSED_STEPS_REFUSED + 1) % 65536)
  s2.event Ev.STEP_FLAGGED 0 s.holdMode (uNat 32 (v.tdiv 65536)) s.stepLimit

/-- The refusal of a STEP, if any: none in HOLDOVER or in SERVICE, whatever it holds, and none beyond STEP_LIMIT (R358, R390,
R391). -/
def State.stepRefused (s : State) (j : Job) : Option Nat :=
  let v := adjOffset j
  if s.holdState = 3 then some St.HOLD_ACTIVE
  else if s.holdMode = 1 then some St.STEP_REFUSED
  else if !j.only [(4, 1), (8, 8)] || offsetBad v then some St.THYME_INVALID
  else if s.stepLimit = 0 ∨ s.stepLimit * 65536 < v.natAbs then some St.STEP_REFUSED
  else none

/-- Kind STEP (R358, R390, R391): every refused STEP is flagged. -/
def adjustStep (j : Job) (s : State) : Answer :=
  match s.stepRefused j with
  | some code => failA (s.flagStep (adjOffset j)) code
  | none => okA (s.addAdj (.step (adjOffset j)))

/-- A STEP that a gate turns away, in SAFE among others, is a refused STEP too (R385, R391; log entry 112). -/
def State.flagGated (s : State) (g : Gate) (j : Job) : State :=
  if s.jobReady j ∧ j.opcode = g.op ∧ (s.gate g j).isSome then s.flagStep (adjOffset j) else s

/-- A row of THYME_ADJUST: the adjustments take effect in the order in which the admin queue completes them (R360, R451). -/
def adjRow (g : Gate) (j : Job) (s : State) (mine : Bool) (body : Job → State → Answer) : Out :=
  if s.inTurn j 0x68 0x68 then opRow g j s mine body else .next s

/-- Kind SET (R358). -/
def adjustSet (j : Job) (s : State) : Answer :=
  let ns := j.le 16 4
  if !j.only [(4, 1), (8, 6), (16, 6)] || decide (10 ^ 9 ≤ ns) then failA s St.THYME_INVALID
  else if s.holdMode ≠ 0 ∨ s.holdState ≠ 0 then failA s St.THYME_STATE
  else okA (s.addAdj (.set ((j.le 8 6 * 10 ^ 9 + ns) * 65536 + j.le 20 2)))

/-- Kind SET_AT_PPS (R358). -/
def adjustSetAtPps (j : Job) (s : State) : Answer :=
  if !j.only [(4, 1), (8, 6)] then failA s St.THYME_INVALID
  else if s.holdMode ≠ 0 ∨ s.holdState ≠ 0 then failA s St.THYME_STATE
  else okA { s with thyme := { s.thyme with ppsArm := some (j.le 8 6) } }

/-! ### THYME_PULSE_SET (R371, R373) -/

/-- Whether a setting is out of range (R371). -/
def PulseCfg.bad (c : PulseCfg) (startNs periodNs : Nat) : Bool :=
  decide (10 ^ 9 ≤ startNs ∨ 10 ^ 9 ≤ periodNs ∨ (0 < c.width ∧ c.width < 32) ∨ (c.mode = 1 ∧ c.period ≠ 0) ∨
    (c.mode ≠ 1 ∧ (c.period < 8000 ∨ 8 * 10 ^ 12 < c.period ∨ c.period < c.width + 32)))

/-- THYME_PULSE_SET (R371, R373, R386). -/
def pulseSet (j : Job) (s : State) : Answer :=
  let i := j.byte 0 4
  let w := (rangeFrom 0 7).map (fun k => j.le (4 + 4 * k) 4)
  let c := pulseCfg w
  let k := c.firstAt (s.eighthsUp + 8 * 2048)
  if !j.only [(4, 18), (24, 8)] || decide (7 < i ∨ 8 ≤ j.byte 0 5) || c.bad (j.le 16 4) (j.le 24 4) then
    failA s St.THYME_INVALID
  else if c.mode = 1 ∧ c.start < s.eighthsUp + 8 * 2048 then failA s St.PULSE_LATE
  else
    let x := s.pulseSt i
    let ws := w.map (BitVec.ofNat 32)
    okA (if x.high then s.setPulseSt i { x with later := some (ws, k) } else s.pulseStart i ws k)

/-! ### Inputs, 1PPS and the ToD UART (R375 to R380) -/

/-- Word w of THYME.IO[x]: bytes 4 + 4w on of the THYME_IO_SET in effect (R387). -/
def State.ioWord (s : State) (x w : Nat) : Nat := s.reg (wThyme + 0x200 + 0x10 * x + 4 * w)

/-- EDGE and CAP_Q of an input, and ENABLE of the other targets (R375, R385). -/
def State.ioEdge (s : State) (x : Nat) : Nat := bits (s.ioWord x 0) 9 8
def State.ioQueue (s : State) (x : Nat) : Nat := bits (s.ioWord x 0) 31 16
def State.ioEnable (s : State) (x : Nat) : Bool := (s.ioWord x 0).testBit 8

/-- Whether a function's queue index names an EVENT queue of it, or none (R386). -/
def State.eventQ (s : State) (f i : Nat) : Bool :=
  decide (i = 0xFFFF) || (match s.findQ f i with
    | some q => decide ((s.queue q).typ = .event)
    | none => false)

/-- Whether THYME_IO_SET's fields are in range (R375, R385). -/
def ioOk (j : Job) (s : State) : Bool :=
  let x := j.byte 0 4
  let b := j.byte 0 5
  let f := s.jobFn j
  if x ≤ 4 then j.only [(4, 6)] && decide (b ≤ 3) && s.eventQ f (j.le 6 2)
  else if x = 5 then
    j.only [(4, 2), (8, 6)] && decide (b < 12 ∧ (j.le 8 4 = 0 ∨ (4 ≤ j.le 8 4 ∧ j.le 8 4 ≤ 999999996)))
  else if x = 6 then j.only [(4, 2)] && decide (b ≤ 1)
  else if x = 7 then
    j.only [(4, 12)] && decide (b ≤ 1 ∧ 9600 ≤ j.le 8 4 ∧ j.le 8 4 ≤ 921600 ∧ j.le 12 4 < 10 ^ 9) && s.eventQ f (j.le 6 2)
  else false

/-- 1PPS_OUT stays at the inactive level of its POL: from now on, or, when a pulse is in progress, from its end (R378). -/
def State.ppsRest (s : State) : State :=
  let pol := (s.ioWord 5 0).testBit 9
  if s.thyme.ppsEnd ≤ s.eighths then s.drive 8 pol false else s.driveAt 8 pol false s.thyme.ppsEnd

/-- THYME_IO_SET (R375, R386, R387). -/
def ioSet (j : Job) (s : State) : Answer :=
  if ioOk j s then
    let s1 := forEach (rangeFrom 0 4) (fun w s => s.setReg (wThyme + 0x200 + 0x10 * j.byte 0 4 + 4 * w) (j.le (4 + 4 * w) 4)) s
    okA (if j.byte 0 4 = 5 then s1.ppsRest else s1)
  else failA s St.THYME_INVALID

/-- Time of an edge of input x, less IN_COMP, in 1/256 ns with a resolution of 1/8 ns (R375, R376). -/
def State.inComp (s : State) (x : Nat) : Int := sInt 16 (bits (s.ioWord x 1) 15 0)
def State.edgeTime (s : State) (x : Nat) : Nat :=
  (((s.eighths : Int) - s.inComp x) % (2 ^ 48 * 10 ^ 9 * 8 : Nat)).toNat * 32

/-- An edge of input x, 4 for 1PPS_IN: captured where EDGE asks for it (R376); the answer tells whether it was. -/
def State.captureEdge (s : State) (x : Nat) (rising : Bool) : Bool × State :=
  let e := s.ioEdge x
  let wanted := if rising then e = 1 ∨ e = 3 else e = 2 ∨ e = 3
  if !decide wanted then (false, s)
  else
    let near := match tabGet (fun _ => none) s.thyme.lastCap x with
      | some t => decide (s.clock.up - t < 100)
      | none => false
    if near then (false, s.count 151 10 1)
    else
      let kind := if x = 4 then 2 else 1
      let r := captureBytes kind (if x = 4 then 0 else x) (if rising then 1 else 2) 0 0 0 (s.edgeTime x)
      let s1 := { s with thyme := { s.thyme with lastCap := tabSet (fun _ => none) s.thyme.lastCap x (some s.clock.up) } }
      (true, s1.capture s.owner (s.ioQueue x) kind r)

/-- Signed offset in ns of a time from the nearest second boundary (R377). -/
def ppsError (t : Nat) : Int :=
  let n : Int := (t / 256 % 10 ^ 9 : Nat)
  if 2 * n ≤ 10 ^ 9 then n else n - 10 ^ 9

/-- PPS_IN_EDGE (R358, R377). -/
def State.ppsEdge (s : State) (rising : Bool) : State :=
  let r := s.captureEdge 4 rising
  if !(r.1 && rising) then r.2
  else
    let t := s.edgeTime 4
    let e := ppsError t
    let spaced := match s.thyme.ppsLast with
      | some t0 => decide ((((t : Int) - t0) - 256 * 10 ^ 9).natAbs ≤ 256 * 1000)
      | none => false
    let run := if spaced then s.thyme.ppsRun + 1 else 1
    let s1 := r.2.wr wThyme Reg.THYME_PPS_IN_ERR_PPS_IN_ERR (uNat 32 e)
    let s2 := { s1 with thyme := { s1.thyme with ppsLast := some t, ppsRun := run, ppsArm := none } }
    let s3 := match s.thyme.ppsArm with
      | some sec => s2.addAdj (.setAtPps sec ((8 * s.clock.up : Nat) - s.inComp 4))
      | none => s2
    if 3 ≤ run ∧ s.rdb wThyme Reg.THYME_STATUS_PPS_IN_OK = false then
      (s3.wr wThyme Reg.THYME_STATUS_PPS_IN_OK 1).event Ev.PPS_IN_RESTORED 0 (uNat 32 e) 0 0
    else s3

/-- PPS_IN_TIMEOUT (R377): once after each last edge, whether or not PPS_IN_OK was set. -/
def State.ppsTimeout (s : State) : State :=
  match s.thyme.ppsLast with
  | some t =>
    let s1 := (s.wr wThyme Reg.THYME_STATUS_PPS_IN_OK 0).event Ev.PPS_IN_LOST 0 (timeSec t % 2 ^ 32) 0 0
    { s1 with thyme := { s1.thyme with ppsRun := 0, ppsLast := none } }
  | none => s

/-- PPS_OUT_EDGE: the pulse of a second boundary, under its gate; at another time than the boundary's, by up to 2 ns, none
is due (R378; log entry 208). -/
def State.ppsOut (s : State) : State :=
  let w := s.ioWord 5 0
  let gate := bits w 11 10
  let open_ := gate = 0 ∨ (gate = 1 ∧ 2 ≤ s.holdState) ∨ (gate = 2 ∧ s.holdState = 2)
  let comp := sInt 16 (bits (s.ioWord 5 2) 15 0)
  let t : Int := s.eighths - comp + 16
  if s.ioEnable 5 ∧ open_ ∧ t % (8 * 10 ^ 9) ≤ 32 then
    let s1 := s.count 151 8 1
    let a := t - t % (8 * 10 ^ 9) + comp
    let e : Int := a + (8 * s.ioWord 5 1 : Nat)
    if s.ioWord 5 1 = 0 then s1
    else
      ((({ s1 with thyme := { s1.thyme with ppsEnd := e } } : State).driveAt 8 (w.testBit 9) true a).driveAt 8
        (w.testBit 9) false e)
  else s

/-- THYME_TOD_SEND (R379). -/
def todSend (j : Job) (s : State) : Answer :=
  let n := j.le 16 2
  if !j.only [(8, 10)] || decide (128 < n) then failA s St.THYME_INVALID
  else if n = 0 then okA s
  else if s.thyme.todTx.isSome then failA s St.THYME_BUSY
  else
    let sec := (s.counter + 10 ^ 6 * unitNs + 10 ^ 9 * unitNs - 1) / (10 ^ 9 * unitNs) % 2 ^ 48
    let x : TodSt := { job := j, bytes := s.hostRd (s.jobLink j) (j.le 8 8) n, sec := sec }
    laterA (({ s.countMoved 30 n with thyme := { s.thyme with todTx := some x } }).wr wThyme Reg.THYME_STATUS_TOD_TX_BUSY 1)

/-- TOD_TRANSMIT_START: not before TX_OFFSET_NS after the second chosen (R379). -/
def State.todStart (s : State) : State :=
  match s.thyme.todTx with
  | some x =>
    if x.started ∨ s.counter < (x.sec * 10 ^ 9 + s.ioWord 7 2) * unitNs then s
    else ({ s with thyme := { s.thyme with todTx := some { x with started := true } } }).emit (.tod x.bytes)
  | none => s

/-- TOD_TRANSMIT_DONE (R379). -/
def State.todDone (s : State) : State :=
  match s.thyme.todTx with
  | some x =>
    if x.started then
      (({ s with thyme := { s.thyme with todTx := none } }).wr wThyme Reg.THYME_STATUS_TOD_TX_BUSY 0).complete x.job
        St.SUCCESS (leBytes 6 x.sec)
    else s
  | none => s

/-- TOD_RX_BYTE (R380). -/
def State.todByte (s : State) (b : Byte) : State :=
  if s.ioEnable 7 = false then s
  else
    let m := match s.thyme.todMsg with
      | some (t, n) => (t, n + 1)
      | none => (s.eighths * 32, 1)
    let s1 := { s with thyme := { s.thyme with todMsg := some m } }
    if 256 ≤ s.thyme.todRx.length then s1.count 151 11 1
    else { s1 with thyme := { s1.thyme with todRx := s1.thyme.todRx ++ [b] } }

/-- TOD_RX_IDLE (R368, R380). -/
def State.todIdle (s : State) : State :=
  match s.thyme.todMsg with
  | some (t, n) =>
    ({ s with thyme := { s.thyme with todMsg := none } }).capture s.owner (s.ioQueue 7) 3
      (captureBytes 3 0 (n % 65536) 0 0 0 t)
  | none => s

/-! ### The DPLL and the recovered clocks (R381 to R384) -/

/-- DPLL_LOCK_ACHIEVED, with the offset d that the DPLL has reached, in 1/1,024 ppb (R357, R383). -/
def State.dpllLock (s : State) (d : BitVec 32) : State :=
  let r := s.dpllWord 3
  if s.dpllState = 1 ∧ d.toInt.natAbs ≤ 1024 * r then
    let s1 := s.wr wThyme Reg.THYME_DPLL_OFFSET_D d.toNat
    ({ s1 with thyme := { s1.thyme with lockedAt := s.clock.up } } : State).setDpll 2 s.dpllSel
  else s

/-- Whether a THYME_DPLL_SET is out of range (R381, R386). -/
def dpllBad (j : Job) : Bool :=
  let cand (k : Nat) : Bool :=
    let v := j.le (8 + 2 * k) 2
    let src := v % 256
    let prio := v / 256
    decide (16 ≤ prio ∨ (128 ≤ src ∧ src < 0xFE) ∨ (src ≠ 0xFF ∧ prio = 0))
  !j.only [(4, 2), (8, 14), (24, 2)] || decide (2 < j.byte 0 4 ∨ 16 ≤ j.byte 0 5 ∨ 200000 < j.le 16 4 ∨ 3600 < j.le 20 2 ∨
    32 ≤ j.byte 0 24 ∨ 32 ≤ j.byte 0 25) || (rangeFrom 0 4).any cand

/-- THYME_DPLL_SET: a candidate whose source changes must qualify anew, and RANGE_PPB bounds d (R357, R381 to R384). -/
def dpllSet (j : Job) (s : State) : Answer :=
  if dpllBad j then failA s St.THYME_INVALID
  else
    let s1 := forEach (rangeFrom 0 6) (fun w s => s.setReg (wThyme + 0x300 + 4 * w) (j.le (4 + 4 * w) 4)) s
    let same (k : Nat) : Bool := decide (s1.candSrc k = s.candSrc k)
    let kept := s.thyme.qualified.filter same
    let r : Int := 1024 * s1.dpllWord 3
    let s2 := s1.wr wThyme Reg.THYME_DPLL_OFFSET_D (uNat 32 (max (-r) (min r s1.dpllD)))
    okA ((({ s2 with thyme := { s2.thyme with qualified := kept, waits := s.thyme.waits.filter same } }).dpllRun true).squelch)

/-- REF10M_IN becomes present or absent, with its offset where it is measured (R375, R382, R387). -/
def State.ref10m (s : State) (present : Bool) (off : BitVec 32) : State :=
  let s1 := s.wr wThyme Reg.THYME_STATUS_REF10M_OK (b2n present)
  let s2 := if present && s.ioEnable 6 then s1.wr wThyme Reg.THYME_REF10M_OFFSET_REF10M_OFFSET off.toNat else s1
  if present then s2 else forEach (rangeFrom 0 4) (fun j s => if s.candSrc j = 0xFE then s.disqualify j else s) s2

/-- THYME_PORT_SET: TS_Q of a port that the function holds (R385, R386). -/
def thymePortSet (j : Job) (s : State) : Answer :=
  let n := j.le 4 2
  let q := j.le 6 2
  let f := s.jobFn j
  if !j.only [(4, 4)] || decide (127 < n) then failA s St.THYME_INVALID
  else if s.portHolder n ≠ f then failA s St.NOT_OWNER
  else if s.eventQ f q = false then failA s St.THYME_INVALID
  else
    okA (({ s with thyme := { s.thyme with tsFn := tabSet (fun _ => 0) s.thyme.tsFn n f } }).wr (wThyme + 4 * n)
      Reg.THYME_PORT_TS_TS_Q q)

/-! ### Rows -/

/-- Row TIME_BUS_BROADCAST. -/
def execTimeBusBroadcast (s : State) : Out := .next s.timeBus
/-- Row THYME_ADJUST_RATE; an undefined KIND is refused here too. -/
def execThymeAdjustRate (j : Job) (s : State) : Out :=
  adjRow { op := 0x68, safe := decide (j.byte 0 4 = 0) } j s (decide (j.byte 0 4 = 0 ∨ 4 < j.byte 0 4)) adjustRate
/-- Row THYME_ADJUST_SLEW. -/
def execThymeAdjustSlew (j : Job) (s : State) : Out :=
  adjRow { op := 0x68, safe := true } j s (decide (j.byte 0 4 = 1)) adjustSlew
/-- Row THYME_ADJUST_STEP. -/
def execThymeAdjustStep (j : Job) (s : State) : Out :=
  adjRow { op := 0x68, safe := true } j (if j.byte 0 4 = 2 ∧ s.inTurn j 0x68 0x68 then s.flagGated { op := 0x68, safe := true } j
    else s) (decide (j.byte 0 4 = 2)) adjustStep
/-- Row THYME_ADJUST_SET. -/
def execThymeAdjustSet (j : Job) (s : State) : Out := adjRow { op := 0x68 } j s (decide (j.byte 0 4 = 3)) adjustSet
/-- Row THYME_ADJUST_SET_AT_PPS. -/
def execThymeAdjustSetAtPps (j : Job) (s : State) : Out :=
  adjRow { op := 0x68 } j s (decide (j.byte 0 4 = 4)) adjustSetAtPps
/-- Row THYME_PULSE_SET. -/
def execThymePulseSet (j : Job) (s : State) : Out := jobRow { op := 0x69 } j s pulseSet
/-- Row THYME_IO_SET. -/
def execThymeIoSet (j : Job) (s : State) : Out := jobRow { op := 0x6A } j s ioSet
/-- Row THYME_PORT_SET. -/
def execThymePortSet (j : Job) (s : State) : Out := jobRow { op := 0x6B, owner := false } j s thymePortSet
/-- Row THYME_DPLL_SET. -/
def execThymeDpllSet (j : Job) (s : State) : Out := jobRow { op := 0x6C } j s dpllSet
/-- Row THYME_TOD_SEND. -/
def execThymeTodSend (j : Job) (s : State) : Out := jobRow { op := 0x6D } j s todSend
/-- Row TOD_TRANSMIT_START. -/
def execTodTransmitStart (s : State) : Out := .next s.todStart
/-- Row TOD_TRANSMIT_DONE. -/
def execTodTransmitDone (s : State) : Out := .next s.todDone
/-- Row PULSE_EDGE. -/
def execPulseEdge (i : Fin 8) (s : State) : Out := .next (s.pulseEdge i.val)
/-- Row PPS_OUT_EDGE. -/
def execPpsOutEdge (s : State) : Out := .next s.ppsOut
/-- Row CAPTURE_EDGE. -/
def execCaptureEdge (x : Fin 4) (rising : Bool) (s : State) : Out := .next (s.captureEdge x.val rising).2
/-- Row PPS_IN_EDGE. -/
def execPpsInEdge (rising : Bool) (s : State) : Out := .next (s.ppsEdge rising)
/-- Row PPS_IN_TIMEOUT. -/
def execPpsInTimeout (s : State) : Out := .next s.ppsTimeout
/-- Row TOD_RX_BYTE. -/
def execTodRxByte (b : Byte) (s : State) : Out := .next (s.todByte b)
/-- Row TOD_RX_IDLE. -/
def execTodRxIdle (s : State) : Out := .next s.todIdle
/-- Row REF10M_PRESENCE_CHANGE. -/
def execRef10mPresenceChange (present : Bool) (off : BitVec 32) (s : State) : Out := .next (s.ref10m present off)
/-- Row CANDIDATE_DISQUALIFIED. -/
def execCandidateDisqualified (j : Fin 4) (s : State) : Out := .next (s.disqualify j.val)
/-- Row WTR_EXPIRY: the wait to restore of a candidate ends, and it qualifies if its reference is there and its frequency, in
ppb against SYNC_OSC_IN, is in range (R382; log entry 246). -/
def execWtrExpiry (j : Fin 4) (ppb : BitVec 32) (s : State) : Out := .next ((s.waitOver j.val).qualify j.val ppb.toInt)
/-- Row DPLL_LOCK_ACHIEVED. -/
def execDpllLockAchieved (d : BitVec 32) (s : State) : Out := .next (s.dpllLock d)
/-- Row CANDIDATE_QUALIFIED: a candidate whose wait has passed meets the conditions again, with its frequency in ppb against
SYNC_OSC_IN (R382; log entry 246). -/
def execCandidateQualified (j : Fin 4) (ppb : BitVec 32) (s : State) : Out := .next (s.qualify j.val ppb.toInt)
/-- Row THYME_PLL_LOCK: the counter and the time bus run (R624, R606). -/
def execThymePllLock (s : State) : Out := .next (s.faultLevel .thyme 0 0 false)

end Sys2Proof.Machine
end

