-- ==== Sys2Proof/Machine/Holdover.lean ====
section
/-!
DEFINITION. Holdover: modes, holdover states, the averaged rate, the temperature table and OSC_TSENSE (ch. 13, R389 to
R404).
-/
namespace Sys2Proof.Machine

/-! ### Quotients -/

/-- A quotient as an integer: the spec does not say how one that is not exact is rounded, so which of its two
neighbours it becomes is free (log entry 31). -/
def State.quotient (s : State) (a : Int) (b : Nat) : Int × State :=
  if b = 0 ∨ a % (b : Int) = 0 then (a / (b : Int), s)
  else
    let d := s.draw 1
    (a / (b : Int) + d.1.toNat, d.2)

/-! ### The temperature table (R399) -/

/-- Bin of a temperature in 1/16 °C. -/
def tempBin (x : Int) : Nat := (min 63 (max 0 ((2 * (x + 640)) / 75))).toNat

/-- Centre of a bin in 1/64 °C. -/
def binCentre (b : Nat) : Int := 150 * b - 2485

def wBin (b : Nat) : Nat := wThyme + 8 * b
def State.binValue (s : State) (b : Nat) : Int := sInt 32 (s.rd (wBin b) Reg.THYME_HOLD_BIN_A_VALUE)
def State.binCount (s : State) (b : Nat) : Nat := s.rd (wBin b) Reg.THYME_HOLD_BIN_B_COUNT
def State.binValid (s : State) (b : Nat) : Bool := s.rdb (wBin b) Reg.THYME_HOLD_BIN_B_VALID

/-- A bin replaced; VALID follows COUNT. -/
def State.setBin (s : State) (b : Nat) (v : Int) (n : Nat) : State :=
  ((s.wr (wBin b) Reg.THYME_HOLD_BIN_A_VALUE (uNat 32 v)).wr (wBin b) Reg.THYME_HOLD_BIN_B_COUNT n).wr (wBin b)
    Reg.THYME_HOLD_BIN_B_VALID (b2n (decide (16 ≤ n)))

/-- TABLE(x), x in 1/16 °C. -/
def State.table (s : State) (x : Int) : Int × State :=
  let l := (rangeFrom 0 64).filter s.binValid
  let lo := (l.filter (fun b => decide (binCentre b ≤ 4 * x))).getLast?
  let hi := (l.filter (fun b => decide (4 * x ≤ binCentre b))).head?
  match lo, hi with
  | some a, some b =>
    if a = b then (s.binValue a, s)
    else
      let q := s.quotient ((s.binValue b - s.binValue a) * (4 * x - binCentre a)) (150 * (b - a))
      (s.binValue a + q.1, q.2)
  | some a, none => (s.binValue a, s)
  | none, some b => (s.binValue b, s)
  | none, none => (0, s)

/-- A sample learned in the bin of its temperature (R399). -/
def State.learnBin (s : State) (sample t : Int) : State :=
  let b := tempBin t
  let n := min (s.binCount b + 1) 65535
  let q := s.quotient (sample - s.binValue b) (min n 256)
  q.2.setBin b (s.binValue b + q.1) n

/-! ### The rate window (R398) -/

def sumInt (l : List Int) : Int := l.foldl (· + ·) 0

/-- The window replaced, with AVG_COUNT, AVG_VALID, AVG_RATE and T_AVG; an empty window leaves the two means as they
are. -/
def State.setWindow (s : State) (l : List (Int × Int)) : State :=
  let n := l.length
  let b := wThyme
  let s1 := { s with thyme := { s.thyme with window := l } }
  let s2 := (s1.wr b Reg.THYME_HOLD_STATUS_AVG_COUNT n).wr b Reg.THYME_HOLD_STATUS_AVG_VALID (b2n (decide (n = 1000)))
  if n = 0 then s2
  else
    let q := s2.quotient (sumInt (l.map (·.1))) n
    let r := q.2.quotient (sumInt (l.map (·.2))) n
    (r.2.wr b Reg.THYME_HOLD_AVG_RATE_AVG_RATE (uNat 32 q.1)).wr b Reg.THYME_HOLD_TEMP_T_AVG (uNat 16 r.1)

def State.avgCount (s : State) : Nat := s.rd wThyme Reg.THYME_HOLD_STATUS_AVG_COUNT

/-- T: the mean of the readings of the past second, or while TSENSE_OK is 0 the last good T; where there has been none, a value
of the sensor's range that nothing else constrains (R398, R400; log entry 247). -/
def State.tempNow (s : State) : Int × State :=
  let l := (s.thyme.tsNow.filter (fun e => decide (s.clock.up - e.1 < 10 ^ 9))).map (fun e => e.2)
  if l ≠ [] ∧ s.rdb wThyme Reg.THYME_HOLD_STATUS_TSENSE_OK then s.quotient (sumInt l) l.length
  else match s.thyme.tsGood with
    | some t => (t, s)
    | none =>
      let d := s.draw 16
      ((d.1.toNat % 2401 : Nat) - 640, d.2)

/-- The T of a second that ends, kept as the last good one while TSENSE_OK is 1 (R400). -/
def State.keepTemp (s : State) : State :=
  if s.rdb wThyme Reg.THYME_HOLD_STATUS_TSENSE_OK then
    let t := s.tempNow
    { t.2 with thyme := { t.2.thyme with tsGood := some t.1 } }
  else s

/-- AVG_RATE as HOLDOVER uses it: free where the window holds no sample (R396, R398; log entry 31). -/
def State.avgRate (s : State) : Int × State :=
  if s.avgCount = 0 then
    let d := s.draw 32
    (d.1.toInt, d.2)
  else (sInt 32 (s.rd wThyme Reg.THYME_HOLD_AVG_RATE_AVG_RATE), s)

/-- HOLD_RATE computed and written, and FREQ_ADJ with it at the next broadcast (R396, R398, R400). -/
def State.holdRate (s : State) : State :=
  let a := s.avgRate
  let t := a.2.tempNow
  let x := t.2.table t.1
  let y := x.2.table (sInt 16 (s.rd wThyme Reg.THYME_HOLD_TEMP_T_AVG))
  let v := if s.syncTime then a.1 else a.1 + x.1 - y.1
  let c := max (-204800000) (min 204800000 v)
  let s1 := if s.syncTime then t.2 else y.2
  (s1.wr wThyme Reg.THYME_HOLD_RATE_HOLD_RATE (uNat 32 c)).addAdj (.rate c)

/-! ### The holdover states (R393 to R397) -/

/-- A change of holdover state (R393). -/
def State.setHold (s : State) (new cause : Nat) : State :=
  (s.wr wThyme Reg.THYME_HOLD_STATUS_HOLD_STATE new).event Ev.HOLD_STATE 0 s.holdState new cause

/-- Entry into HOLDOVER: a slew that runs or waits ends at the next broadcast, where the hold rate begins (R36, R396). -/
def State.enterHold (s : State) (cause : Nat) : State :=
  let short := s.rdb wThyme Reg.THYME_HOLD_STATUS_AVG_VALID = false
  let s1 := s.setHold 3 (if short then 3 else cause)
  ((s1.addAdj (.slew 0 0)).wr wThyme Reg.THYME_HOLD_ELAPSED_HOLD_ELAPSED 0).holdRate

/-- The master is lost in ACQUIRING or LOCKED: by report (0), timeout (1) or SAFE (2) (R393). -/
def State.loseMaster (s : State) (cause : Nat) : State :=
  if s.holdState = 2 ∨ (s.holdState = 1 ∧ 0 < s.avgCount) then s.enterHold cause
  else if s.holdState = 1 then s.setHold 0 cause
  else s

/-- The device enters SAFE (R393, R397). -/
def State.holdSafe (s : State) : State := s.loseMaster 2

/-- What a THYME_HOLD_CTL answers: the holdover state and the mode (R402). -/
def holdAns (s : State) : Answer := okRes s [BitVec.ofNat 8 s.holdState, BitVec.ofNat 8 s.holdMode]

/-- MODE (R389). -/
def holdModeSet (j : Job) (s : State) : Answer :=
  let m := j.byte 0 5
  let old := s.holdMode
  let ok := (old = 0 ∧ m = 1 ∧ s.holdState = 2) ∨ (old = 0 ∧ m = 2) ∨ (old = 2 ∧ m = 0) ∨ (old = 1 ∧ m = 3) ∨
    (old = 3 ∧ m = 1 ∧ s.holdState = 2) ∨ (old = 3 ∧ m = 0)
  if !j.only [(4, 2)] || decide (3 < j.byte 0 4) || !decide ok then failA s St.HOLD_INVALID
  else holdAns ((s.wr wThyme Reg.THYME_HOLD_STATUS_MODE m).event Ev.MODE_CHANGED 0 old m 0)

/-- A report that the table lists for some states (R393). -/
def holdReport (j : Job) (s : State) (ok : Bool) (f : State → State) : Answer :=
  if !j.only [(4, 2)] || decide (5 < j.byte 0 5) || !ok then failA s St.HOLD_INVALID else holdAns (f s)

/-- ACQUIRE, LOCKED, LOST, CHANGE, ALIVE and FORGET (R393). -/
def holdAcquire (j : Job) (s : State) : Answer :=
  holdReport j s (decide (s.holdState = 0 ∨ s.holdState = 3)) (fun s => s.setHold 1 0)
def holdLocked (j : Job) (s : State) : Answer :=
  holdReport j s (decide (s.holdState = 1)) (fun s => (s.setHold 2 0).setWindow [])
def holdLost (j : Job) (s : State) : Answer :=
  holdReport j s (decide (s.holdState = 1 ∨ s.holdState = 2)) (fun s => s.loseMaster 0)
def holdChange (j : Job) (s : State) : Answer :=
  holdReport j s (decide (s.holdState = 1 ∨ s.holdState = 2)) (fun s => (s.loseMaster 0).setHold 1 0)
def holdAlive (j : Job) (s : State) : Answer :=
  holdReport j s (decide (s.holdState = 1 ∨ s.holdState = 2)) (fun s => s)
def holdForget (j : Job) (s : State) : Answer :=
  holdReport j s (decide (s.holdState = 3)) (fun s => (s.setHold 0 0).setWindow [])

/-- LIMITS (R391, R392, R394, R402). -/
def holdLimits (j : Job) (s : State) : Answer :=
  let a := j.le 8 4
  let b := j.le 12 4
  let c := j.le 16 2
  if !j.only [(4, 1), (8, 10)] || decide (10 ^ 9 < a ∨ 200000 < b ∨ c = 0) then failA s St.HOLD_INVALID
  else holdAns (((s.wr wThyme Reg.THYME_HOLD_STEP_LIMIT_STEP_LIMIT a).wr wThyme Reg.THYME_HOLD_SLEW_MAX_SLEW_MAX_PPB b).wr wThyme
    Reg.THYME_HOLD_TIMEOUT_MASTER_TIMEOUT_MS c)

/-- TABLE_LOAD (R399, R402). -/
def holdTableLoad (j : Job) (s : State) : Answer :=
  let a := j.le 8 8
  let d := s.hostRd (s.jobLink j) a 512
  if !j.only [(4, 1), (8, 8)] || decide (a % 8 ≠ 0) then failA s St.HOLD_INVALID
  else if s.holdState = 3 then failA s St.HOLD_ACTIVE
  else
    let r := s.countMoved 30 512
    if (rangeFrom 0 64).any (fun b => decide (imH d (8 * b + 6) ≠ 0)) then failA r St.HOLD_INVALID
    else holdAns (forEach (rangeFrom 0 64) (fun b s => s.setBin b (sInt 32 (imW d (8 * b))) (imH d (8 * b + 4))) r)

/-- THYME_HOLD_QUERY (R402). -/
def holdQuery (j : Job) (s : State) : Answer :=
  if !j.only [(8, 8)] then failA s St.HOLD_INVALID
  else
    let d := (rangeFrom 0 64).flatMap (fun b => leBytes 4 (uNat 32 (s.binValue b)) ++ leBytes 2 (s.binCount b) ++ [0, 0])
    okRes (s.jobWrite j (j.le 8 8) d) (leBytes 4 512)

/-- The master timer expires; it does not run in SAFE (R394, R397). -/
def State.masterTimeout (s : State) : State := if s.devState = 5 then s else s.loseMaster 1

/-- A second: v11, while it runs, takes a rate sample while LOCKED and the hold rate in HOLDOVER, whose seconds count on
(R245, R396, R398, R399). -/
def State.holdSecond (s0 : State) : State :=
  let s := s0.keepTemp
  let s1 :=
    if s.holdState = 2 ∧ s.dutyRuns 11 then
      let q := if s.thyme.accN = 0 then (s.freqAdj, s) else s.quotient s.thyme.accSum (s.thyme.accN * unitNs)
      let t := q.2.tempNow
      let s2 := t.2.setWindow (((q.1, t.1) :: s.thyme.window).take 1000)
      if s.holdMode ≠ 2 ∧ s.syncTime = false ∧ s.rdb wThyme Reg.THYME_HOLD_STATUS_TSENSE_OK then s2.learnBin q.1 t.1 else s2
    else if s.holdState = 3 then
      (if s.dutyRuns 11 then s.holdRate else s).wr wThyme Reg.THYME_HOLD_ELAPSED_HOLD_ELAPSED
        ((s.rd wThyme Reg.THYME_HOLD_ELAPSED_HOLD_ELAPSED + 1) % 2 ^ 32)
    else s
  { s1 with thyme := { s1.thyme with accSum := 0, accN := 0 } }

/-- The reading of a voltage at OSC_TSENSE, in 0.1 mV, in 1/16 °C: 0.500 V + 10.0 mV/°C, by a conversion whose error of up to
±0.2 °C is free (R400, R667; log entry 247). -/
def State.tsenseRead (s : State) (v : Nat) : Int × State :=
  let x : Int := 4 * ((v : Int) - 5000)
  let lo := -((80 - x) / 25)
  let n := ((x + 80) / 25 - lo + 1).toNat
  let d := s.draw 8
  (lo + (d.1.toNat % n : Nat), d.2)

/-- A sample of OSC_TSENSE; an open or a shorted input reads outside its range (R400, R606, R667). -/
def State.tsense (s0 : State) (v : Nat) : State :=
  let r := s0.tsenseRead v
  let t := r.1
  let s := r.2
  let b := wThyme
  let s1 := s.wr b Reg.THYME_HOLD_TEMP_TSENSE (uNat 16 t)
  let faulty := s.rdb b (Reg.FLT_LIVE_I 1)
  if t < -640 ∨ 1760 < t then
    let s2 := { s1.wr b Reg.THYME_HOLD_STATUS_TSENSE_OK 0 with thyme := { s1.thyme with tsRun := 0, tsNow := [] } }
    (s2.event Ev.TSENSE_FAULT 0 (uNat 16 t) 1 0).faultLevel .thyme 1 0 true
  else
    let run := s.thyme.tsRun + 1
    let s2 := { s1 with thyme := { s1.thyme with tsRun := run, tsNow := ((s.clock.up, t) :: s1.thyme.tsNow).take 10 } }
    if run < 10 ∨ s.rdb b Reg.THYME_HOLD_STATUS_TSENSE_OK then s2
    else
      let s3 := s2.wr b Reg.THYME_HOLD_STATUS_TSENSE_OK 1
      if faulty then (s3.event Ev.TSENSE_FAULT 0 (uNat 16 t) 0 0).faultLevel .thyme 1 0 false else s3

/-! ### Rows -/

/-- Row HOLD_CTL_MODE; an undefined operation is refused here too. -/
def execHoldCtlMode (j : Job) (s : State) : Out :=
  opRow { op := 0x6E } j s (decide (j.byte 0 4 = 0 ∨ 3 < j.byte 0 4)) holdModeSet
/-- Row REPORT_ACQUIRE; an undefined report is refused here too. -/
def execReportAcquire (j : Job) (s : State) : Out :=
  opRow { op := 0x6E, safe := true } j s (decide (j.byte 0 4 = 1 ∧ (j.byte 0 5 = 0 ∨ 5 < j.byte 0 5))) holdAcquire
/-- Row REPORT_LOCKED. -/
def execReportLocked (j : Job) (s : State) : Out :=
  opRow { op := 0x6E, safe := true } j s (decide (j.byte 0 4 = 1 ∧ j.byte 0 5 = 1)) holdLocked
/-- Row REPORT_LOST. -/
def execReportLost (j : Job) (s : State) : Out :=
  opRow { op := 0x6E, safe := true } j s (decide (j.byte 0 4 = 1 ∧ j.byte 0 5 = 2)) holdLost
/-- Row REPORT_CHANGE. -/
def execReportChange (j : Job) (s : State) : Out :=
  opRow { op := 0x6E, safe := true } j s (decide (j.byte 0 4 = 1 ∧ j.byte 0 5 = 3)) holdChange
/-- Row REPORT_ALIVE: the master timer restarts. -/
def execReportAlive (j : Job) (s : State) : Out :=
  opRow { op := 0x6E, safe := true } j s (decide (j.byte 0 4 = 1 ∧ j.byte 0 5 = 4)) holdAlive
/-- Row REPORT_FORGET. -/
def execReportForget (j : Job) (s : State) : Out :=
  opRow { op := 0x6E } j s (decide (j.byte 0 4 = 1 ∧ j.byte 0 5 = 5)) holdForget
/-- Row HOLD_CTL_LIMITS. -/
def execHoldCtlLimits (j : Job) (s : State) : Out := opRow { op := 0x6E } j s (decide (j.byte 0 4 = 2)) holdLimits
/-- Row HOLD_CTL_TABLE_LOAD. -/
def execHoldCtlTableLoad (j : Job) (s : State) : Out := opRow { op := 0x6E } j s (decide (j.byte 0 4 = 3)) holdTableLoad
/-- Row THYME_HOLD_QUERY. -/
def execThymeHoldQuery (j : Job) (s : State) : Out := jobRow { op := 0x6F } j s holdQuery
/-- Row MASTER_TIMER_EXPIRY. -/
def execMasterTimerExpiry (s : State) : Out := .next s.masterTimeout
/-- Row HOLD_SECOND. -/
def execHoldSecond (s : State) : Out := .next s.holdSecond
/-- Row TSENSE_SAMPLE: of the voltage at OSC_TSENSE, in 0.1 mV. -/
def execTsenseSample (v : BitVec 16) (s : State) : Out := .next (s.tsense v.toNat)

end Sys2Proof.Machine
end

