-- ==== Sys2Proof/Machine/Mint.lean ====
section
/-!
DEFINITION. Mint: sensing, the state of an evaluation, its actions, the clock switch with the VDD_CORE setpoint, THERMTRIP
and the Mint commands (ch. 19, R549 to R572; R654 to R656, R661).
-/
namespace Sys2Proof.Machine

/-! ### Settings -/

def State.setMint (s : State) (m : Mint) : State := { s with mint := m }
def State.mintCap (s : State) : Nat := s.rd wMint Reg.MINT_POWER_CAP
def State.mintState (s : State) : Nat := s.rd wMint Reg.MINT_STATUS_STATE

/-- Word w of the action set of a state, and its fields (R556). -/
def State.actWord (s : State) (st w : Nat) : Nat := s.reg (wMint + 0x100 + 0x20 * st + 4 * w)
def actLow (w : Nat) : Bool := w.testBit 31
def actDefer (w : Nat) : Bool := w.testBit 30
def actStep (w : Nat) : Nat := bits w 29 28
def actPark (w : Nat) : Nat := bits w 21 16
def actLimit (w : Nat) : Nat := bits w 10 8
def actForce (w : Nat) : Nat := bits w 6 4
def State.relief (s : State) (st : Nat) : Nat := bits (s.actWord st 4) 15 0

/-- A device vector asserted for an event (R419; log entry 33). -/
def State.strobe (s : State) (d : Nat) : State := (s.setVector d true).setVector d false

/-! ### Sensing (R549, R551, R565) -/

/-- A value of w bits that nothing constrains, as a number. -/
def State.drawNat (s : State) (w : Nat) : Nat × State := ((s.draw w).1.toNat, (s.draw w).2)

/-- Reading of an on-die sensor (R551, R565); the raw reading of a missed conversion is free (log entry 216). -/
def State.readSensor (s : State) (i : Nat) (r : Option (BitVec 16)) : State :=
  let b := wMint + 4 * i
  let bad := match r with
    | some v => decide (v.toInt < -55 * 16 ∨ 170 * 16 < v.toInt)
    | none => true
  let (raw, s1) := match r with
    | some v => (v.toNat, s.wr b Reg.MINT_SENSOR_TEMP v.toNat)
    | none => s.drawNat 16
  let failed := s.mint.failed.contains i
  let run := tabGet (fun _ => 0) s.mint.goodRun i + 1
  let put (s : State) (f : List Nat) (n : Nat) : State :=
    s.setMint { s.mint with failed := f, goodRun := tabSet (fun _ => 0) s.mint.goodRun i n }
  if bad then
    if failed then put s1 s.mint.failed 0
    else (((put s1 (i :: s.mint.failed) 0).wr b Reg.MINT_SENSOR_VALID 0).event Ev.SENSOR_FAULT 0 i raw 1).fault .mint 0 i
  else
    let s2 := if failed = false then s1.wr b Reg.MINT_SENSOR_VALID 1
      else if run < 10 then put s1 s.mint.failed run
      else ((put s1 (s.mint.failed.erase i) 0).wr b Reg.MINT_SENSOR_VALID 1).event Ev.SENSOR_FAULT 0 i raw 0
    if s2.rdb b Reg.MINT_SENSOR_VALID ∧ 150 * 16 < sInt 16 raw then s2.fault .mint 3 i else s2

/-- Source 1 holds while any supply monitor has failed, and a further failure is an occurrence of its own (R551, R602). -/
def State.railFault (s : State) (r : Nat) (fails : Bool) : State :=
  let any := s.mint.failed.any (fun i => decide (64 ≤ i))
  if fails && s.rdb wMint (Reg.FLT_LIVE_I 1) then s.fault .mint 1 r else s.faultLevel .mint 1 r any

/-- Reading of a supply monitor (R549, R551); the raw reading of a failed one is free (log entry 216). -/
def State.readRail (s : State) (r : Nat) (v : Option (BitVec 16)) : State :=
  let b := wMint + 4 * r
  let failed := s.mint.failed.contains (64 + r)
  match v with
  | none =>
    if failed then s
    else
      let (raw, s1) := s.drawNat 16
      (((s1.setMint { s1.mint with failed := (64 + r) :: s1.mint.failed }).wr b Reg.MINT_RAIL_VALID 0).event Ev.SENSOR_FAULT 0
        (64 + r) raw 1).railFault r true
  | some x =>
    let s1 := (s.wr b Reg.MINT_RAIL_POWER x.toNat).wr b Reg.MINT_RAIL_VALID 1
    if failed then
      ((s1.setMint { s1.mint with failed := s1.mint.failed.erase (64 + r) }).event Ev.SENSOR_FAULT 0 (64 + r) x.toNat 0).railFault
        r false
    else s1

/-- The hottest valid sensor (R549). -/
def State.hottest (s : State) : Option (Nat × Int) :=
  (rangeFrom 0 64).foldl (fun a i =>
    let b := wMint + 4 * i
    let t := sInt 16 (s.rd b Reg.MINT_SENSOR_TEMP)
    if s.rdb b Reg.MINT_SENSOR_VALID = false then a
    else match a with
      | some (_, u) => if u < t then some (i, t) else a
      | none => some (i, t)) none

/-- Sum and number of the sample powers that p is the mean of, raised to CAP while a monitor has failed, with an
addition to p (R549, R551, R553). -/
def State.powerSum (s : State) (more : Nat) : Nat × Nat :=
  let l := s.mint.powers.take (s.rd wMint Reg.MINT_CFG_P_AVG)
  let n := l.length
  let sum := l.foldl (· + ·) 0
  ((if s.mint.failed.any (fun i => decide (64 ≤ i)) then max sum (s.mintCap * n) else sum) + more * n, n)

/-- The inputs of an evaluation, with TJ, STACK_MAX, the counts and p (R549, R551). -/
def State.mintSense (s : State) (r : MintReading) : State :=
  let s1 := forEach ((rangeFrom 0 64).zip r.sensors) (fun e s => s.readSensor e.1 e.2) s
  let s2 := forEach ((rangeFrom 0 8).zip r.rails) (fun e s => s.readRail e.1 e.2) s1
  let valid := 64 - (s2.mint.failed.filter (fun i => decide (i < 64))).length
  let s3 := s2.wr wMint Reg.MINT_STATUS_VALID_SENSORS valid
  let s4 := match s3.hottest with
    | some (i, t) => (s3.wr wMint Reg.MINT_TEMP_TJ (uNat 16 t)).wr wMint Reg.MINT_STATUS_HOT_SENSOR i
    | none => s3
  let x := (rangeFrom 1 3).foldl (fun a k => max a (s4.stackTemp k)) (s4.stackTemp 0)
  let s5 := s4.wr wMint Reg.MINT_TEMP_STACK_MAX (uNat 16 x)
  let p := r.rails.foldl (fun a v => a + (v.map (·.toNat)).getD 0) 0
  let s6 := s5.setMint { s5.mint with powers := (p :: s5.mint.powers).take 16 }
  let l := s6.powerSum 0
  let q := s6.quotient (l.1 : Nat) l.2
  q.2.wr wMint Reg.MINT_POWER_P (min 65535 q.1.toNat)

/-! ### The state (R552, R553) -/

/-- Whether p is above k per cent of CAP; with a CAP of 0 it always is (R552). -/
def State.powerOver (s : State) (more k : Nat) : Bool :=
  let x := s.powerSum more
  decide (s.mintCap = 0 ∨ k * s.mintCap * x.2 < 100 * x.1)

/-- Power state: p and thresholds relaxed or not, with CRITICAL by its run (R552, R553). -/
def State.powerState (s : State) (relaxed : Bool) : Nat :=
  let more := if relaxed then s.relief s.mintState else 0
  let low := if relaxed then 2 else 0
  let run := if relaxed then s.mint.overRelaxed else s.mint.overRuns
  if 10 ≤ run then 3 else if s.powerOver more (100 - low) then 2 else if s.powerOver more (90 - low) then 1 else 0

def State.mintHyst (s : State) : Nat := s.rd wMint Reg.MINT_CFG_HYST
def State.stackMax (s : State) : Int := sInt 16 (s.rd wMint Reg.MINT_TEMP_STACK_MAX)
def State.stackS1 (s : State) : Nat := s.rd wMint Reg.MINT_SLIM_STACK_S1
def State.stackS2 (s : State) : Nat := s.rd wMint Reg.MINT_SLIM_STACK_S2

/-- State by on-die temperature, each threshold lowered by h °C (R552, R553). -/
def State.dieState (s : State) (h : Nat) : Nat :=
  let t := sInt 16 (s.rd wMint Reg.MINT_TEMP_TJ)
  let above (c : Nat) : Bool := decide (16 * ((c : Int) - h) < t)
  if above (s.rd wMint Reg.MINT_TLIM_T_CRIT) then 3 else if above (s.rd wMint Reg.MINT_TLIM_T_HOT) then 2
  else if above (s.rd wMint Reg.MINT_TLIM_T_WARM) then 1 else 0

/-- State by the stacks and by the number of sensors (R551, R552). -/
def State.otherState (s : State) (h : Nat) : Nat :=
  max (b2n (decide (16 * ((s.stackS1 : Int) - h) < s.stackMax)))
    (if s.rd wMint Reg.MINT_STATUS_VALID_SENSORS < 56 then 2 else 0)

/-- What each cause derives: power, on-die temperature, stacks or sensors, MIN_STATE (R552, R572). -/
def State.derivedBy (s : State) (relaxed : Bool) : List Nat :=
  let h := if relaxed then s.mintHyst else 0
  [s.powerState relaxed, s.dieState h, s.otherState h, s.rd wMint Reg.MINT_STATUS_MIN_STATE]

/-- The runs above 1.1 CAP (R552, R553). -/
def State.mintRuns (s : State) : State :=
  let m := s.mint
  s.setMint { m with overRuns := if s.powerOver 0 110 then m.overRuns + 1 else 0
                     overRelaxed := if s.powerOver (s.relief s.mintState) 108 then m.overRelaxed + 1 else 0 }

/-- A change of state (R554, R571, R572); the cause of a fall is free (log entry 34). -/
def State.mintMove (s : State) (new cause : Nat) : State :=
  let old := s.mintState
  let s1 := (s.wr wMint Reg.MINT_STATUS_STATE new).wr wMint Reg.MINT_STATUS_LAST_CAUSE cause
  let s2 := ((s1.wr wRidge Reg.RIDGE_STATUS_SPILL_OFF (b2n (decide (new = 3)))).event Ev.MINT_STATE 0 old new cause).strobe 34
  let s3 := s2.setMint { s2.mint with lower := 0 }
  if new = 3 then s3.fault .mint 2 0 else s3

/-- The next state (R553). -/
def State.mintNext (s : State) : State :=
  let cur := s.mintState
  let by_ := s.derivedBy false
  let up := by_.foldl max 0
  let down := (s.derivedBy true).foldl max 0
  if cur < up then s.mintMove up (by_.idxOf up)
  else if down < cur then
    let n := s.mint.lower + 1
    if s.rd wMint Reg.MINT_CFG_HOLD_MS * 10 < n then
      let d := s.draw 2
      d.2.mintMove (cur - 1) d.1.toNat
    else s.setMint { s.mint with lower := n }
  else s.setMint { s.mint with lower := 0 }

/-! ### Actions (R554 to R564) -/

/-- T_J as last evaluated (R551), and the setpoint written for it. -/
def State.tjNow (s : State) : Int := sInt 16 (s.rd wMint Reg.MINT_TEMP_TJ)
def State.avsNow (s : State) : State := s.avsWrite s.tjNow

/-- Background work is deferred, or deferral ends (R124, R157, R300, R534, R537, R564). -/
def State.setDefer (s : State) (on : Bool) : State :=
  if s.rdb wMint Reg.MINT_STATUS_DEFERRING = on then s
  else
    let s1 := (s.wr wMint Reg.MINT_STATUS_DEFERRING (b2n on)).wr wRidge Reg.RIDGE_STATUS_AUDIT_DEFERRED (b2n on)
    let s2 := forEach (rangeFrom 0 8) (fun p s =>
      (s.wr (wPipe p) Reg.PIPE_MORTISE_STATUS_SCRUB_DEFERRED (b2n on)).setPipe p
        { s.pipe p with agePaused := if on then 8192 else 0 }) s1
    s2.dmcDefer on

/-- Heat budgets of the state written into ESCH, and the counters reloaded (R322, R554). -/
def State.heatReload (s : State) : State :=
  let st := s.mintState
  let w := s.actWord st 0
  let s1 := (s.wr wEsch Reg.ESCH_HEAT_MASK_LIMIT_EN (actLimit w)).wr wEsch Reg.ESCH_HEAT_MASK_FORCE (actForce w)
  forEach (rangeFrom 1 3) (fun h s =>
    let b := wEsch + 8 * (h - 1)
    let s2 := s.wr b Reg.ESCH_HEAT_BUDGET_HEAT_BUDGET (s.actWord st h)
    let limited := (actLimit w).testBit (h - 1)
    let v : Int := s.actWord st h + min 0 (sInt 32 (s.rd b Reg.ESCH_HEAT_LEFT_HEAT_LEFT))
    let s3 := if limited then s2.wr b Reg.ESCH_HEAT_LEFT_HEAT_LEFT (uNat 32 v) else s2
    let masked := limited && ((actForce w).testBit (h - 1) || decide (v ≤ 0))
    let m := s3.rd wEsch Reg.ESCH_HEAT_MASK_HEAT_MASK
    let s4 := match tabGet (fun _ => none) s3.esch.maskedAt h with
      | some t => s3.count 150 h ((s3.clock.up - t) / 1000)
      | none => s3
    let since := if masked then some s4.clock.up else none
    ({ s4 with esch := { s4.esch with maskedAt := tabSet (fun _ => none) s4.esch.maskedAt h since } }).wr wEsch
      Reg.ESCH_HEAT_MASK_HEAT_MASK (setBits m (h - 1) (h - 1) (b2n masked))) s1

/-- The stack step: 1 above STACK_S1, 2 above STACK_S2, each released HYST below (R563). -/
def State.nextStackStep (s : State) : Nat :=
  let t := s.stackMax
  let above (c : Nat) (held : Bool) : Bool := decide (16 * ((c : Int) - (if held then s.mintHyst else 0)) < t)
  let old := s.mint.stackStep
  if above s.stackS2 (decide (2 ≤ old)) then 2 else if above s.stackS1 (decide (1 ≤ old)) then 1 else 0

/-- MINT_STEP, written when its value changes (R563). -/
def State.stepAction (s : State) : State :=
  let k := s.nextStackStep
  let v := max (min 2 (actStep (s.actWord s.mintState 0))) k
  let s1 := s.setMint { s.mint with stackStep := k }
  if v = s1.rd wMint Reg.MINT_STATUS_MINT_STEP then s1
  else ((s1.wr wMint Reg.MINT_STATUS_MINT_STEP v).wr wMint Reg.MINT_STATUS_STEP_PENDING 0).mintStep v

/-- Parking of every pipeline (R236, R562). -/
def State.parkAction (s : State) : State :=
  let n := actPark (s.actWord s.mintState 0)
  forEach (rangeFrom 0 8) (fun p s => s.setPipe p { s.pipe p with parkGoal := min n (56 - s.csReserve p) }) s

/-- Time in the state and parked engine-cycles of an evaluation (R578). -/
def State.mintCounts (s : State) : State :=
  let st := s.mintState
  let n := tabGet (fun _ => 0) s.mint.evals st + 1
  let parked := (rangeFrom 0 8).foldl (fun a p => a + ((s.pipe p).engines.filter (fun e => e.2.parked)).length) 0
  let s1 := (s.setMint { s.mint with evals := tabSet (fun _ => 0) s.mint.evals st n }).count 152 st (n / 10 - (n - 1) / 10)
  s1.count 152 5 (parked * s.ccOf 100000)

/-- The clock that the state's action set asks for: CLOCK_SWITCH follows it, and a return to 1.6 GHz wants its setpoint
first (R554, R561, R655). -/
def State.clockAction (s : State) : State :=
  let want := actLow (s.actWord s.mintState 0)
  let s1 := s.setMint { s.mint with wantLow := want }
  if s.rdb wMint Reg.MINT_STATUS_CLOCK_LOW ∧ want = false then { s1 with dev := { s1.dev with avsClock := true } } else s1

/-- MINT_EVALUATE (R550, R554). -/
def State.mintEvaluate (s : State) (r : MintReading) : State :=
  if s.devState < 2 then s
  else
    let s1 := ((s.mintSense r).mintRuns).mintNext
    let s2 := ((s1.clockAction.avsNow.parkAction).setDefer (actDefer (s1.actWord s1.mintState 0))).stepAction
    let s3 := s2.heatReload.mintCounts
    forEach s3.mint.holds (fun j s => s.complete j St.SUCCESS [BitVec.ofNat 8 s.mintState]) (s3.setMint { s3.mint with holds := [] })

/-- CLOCK_SWITCH: the core clock follows the action set of the last evaluation; a return to 1.6 GHz waits for its setpoint
(R554, R561, R655, R656). -/
def State.clockSwitch (s : State) : State :=
  let low := s.rdb wMint Reg.MINT_STATUS_CLOCK_LOW
  let want := s.mint.wantLow
  let settled := decide (s.dev.avs = s.avsWanted s.tjNow) && s.dev.avsPending.isNone && s.since s.dev.avsAckAt (10 ^ 4)
  if low = want ∨ (low = true ∧ settled = false) then s
  else
    let s1 := (s.wr wMint Reg.MINT_STATUS_CLOCK_LOW (b2n want)).setMint
      { s.mint with switchedAt := s.clock.up, ccBase := s.ccNow }
    let s2 := { s1 with dev := { s1.dev with avsClock := want } }
    (s2.event Ev.CLOCK_CHANGED 0 (if want then 1200 else 1600) s2.mintState 0).count 152 4 1

/-- AVS_SETPOINT_ACK (R654): a clock change goes on to its next setpoint at once (R655). -/
def State.avsAck (s : State) : State :=
  match s.dev.avsPending with
  | some v =>
    let s1 := { s with dev := { s.dev with avs := v, avsPending := none, avsAckAt := some s.clock.up } }
    if s1.dev.avsClock && decide (s1.avsWanted s1.tjNow ≠ v) then s1.avsNow
    else if s1.rdb wMint Reg.MINT_STATUS_CLOCK_LOW && s1.since (some s1.mint.switchedAt) (10 ^ 6) then
      { s1 with dev := { s1.dev with avsClock := false } }
    else s1
  | none => s

/-- AVS_ACK_TIMEOUT: the last acknowledged setpoint stays in effect; the next evaluation writes again (R656). -/
def State.avsTimeout (s : State) : State :=
  if s.dev.avsPending.isSome then { s with dev := { s.dev with avsPending := none, avsRetry := true } } else s

/-- THERMTRIP asserts, or its latch clears (R566, R630, R661). -/
def State.thermtrip (s : State) (on : Bool) : State :=
  if s.dev.thermtrip = on then s else ({ s with dev := { s.dev with thermtrip := on } }).emit (.pin 11 (b2n on))

/-! ### Commands (R559, R568, R569) -/

/-- MINT_SETUP. -/
def mintSetup (j : Job) (s : State) : Answer :=
  let cap := j.le 8 2
  let avg := j.byte 0 10
  let hyst := j.byte 0 14
  let tw := j.byte 0 16
  let th := j.byte 0 17
  let tc := j.byte 0 18
  let s1 := j.byte 0 19
  let s2 := j.byte 0 20
  if !j.only [(8, 3), (12, 3), (16, 5)] || decide (4800 < cap ∨ avg = 0 ∨ 16 < avg ∨ 15 < hyst ∨ th ≤ tw ∨ tc ≤ th ∨ 150 < tc ∨
      s2 ≤ s1 ∨ 125 < s2) then failA s St.MINT_INVALID
  else
    let b := wMint
    let t1 := ((s.wr b Reg.MINT_POWER_CAP cap).wr b Reg.MINT_CFG_P_AVG avg).wr b Reg.MINT_CFG_HOLD_MS (j.le 12 2)
    let t2 := (t1.wr b Reg.MINT_CFG_HYST hyst).wr b Reg.MINT_TLIM_T_WARM tw
    okA ((((t2.wr b Reg.MINT_TLIM_T_HOT th).wr b Reg.MINT_TLIM_T_CRIT tc).wr b Reg.MINT_SLIM_STACK_S1 s1).wr b
      Reg.MINT_SLIM_STACK_S2 s2)

def State.mintFloor (s : State) (h : Nat) : Nat := s.reg (wMint + 0x200 + 4 * (h - 1))

/-- Whether an action set's image is refused (R556, R559, R569). -/
def State.actBad (s : State) (d : List Byte) : Bool :=
  let w := imW d 0
  decide (actStep w = 3 ∨ bits w 27 22 ≠ 0 ∨ bits w 15 11 ≠ 0 ∨ bits w 7 7 ≠ 0 ∨ bits w 3 0 ≠ 0 ∨ 56 < actPark w ∨
    bits (imW d 16) 31 16 ≠ 0 ∨ imW d 20 ≠ 0 ∨ imW d 24 ≠ 0 ∨ imW d 28 ≠ 0) ||
  (rangeFrom 1 3).any (fun h =>
    ((actLimit w).testBit (h - 1) && decide (imW d (4 * h) < s.mintFloor h)) ||
    ((actForce w).testBit (h - 1) && (decide (s.mintFloor h ≠ 0) || !(actLimit w).testBit (h - 1))))

/-- MINT_ACT_SET. -/
def mintActSet (j : Job) (s : State) : Answer :=
  let st := j.byte 0 4
  let d := s.hostRd (s.jobLink j) (j.le 8 8) 32
  if !j.only [(4, 1), (8, 8)] || decide (3 < st) then failA s St.MINT_INVALID
  else
    let s0 := s.countMoved 30 32
    if s.actBad d then failA s0 St.MINT_INVALID
    else okA (forEach (rangeFrom 0 8) (fun w s => s.setReg (wMint + 0x100 + 0x20 * st + 4 * w) (imW d (4 * w))) s0)

/-- MINT_FLOOR_SET. -/
def mintFloorSet (j : Job) (s : State) : Answer :=
  let f (h : Nat) : Nat := j.le (4 + 4 * h) 4
  let above := (rangeFrom 1 3).any (fun h => (rangeFrom 0 4).any (fun st =>
    (actLimit (s.actWord st 0)).testBit (h - 1) && decide (s.actWord st h < f h)))
  if !j.only [(8, 12)] || above then failA s St.MINT_INVALID
  else okA (forEach (rangeFrom 1 3) (fun h s => s.setReg (wMint + 0x200 + 4 * (h - 1)) (f h)) s)

/-- MINT_HOLD: the answer carries the state after the next evaluation. -/
def mintHold (j : Job) (s : State) : Answer :=
  let m := j.byte 0 4
  if !j.only [(4, 1)] || decide (3 < m) then failA s St.MINT_INVALID
  else
    let s1 := s.wr wMint Reg.MINT_STATUS_MIN_STATE m
    laterA (s1.setMint { s1.mint with holds := s1.mint.holds ++ [j] })

/-- MINT_QUERY. -/
def mintQuery (j : Job) (s : State) : Answer :=
  if !j.only [(16, 8)] then failA s St.MINT_INVALID
  else
    okRes (s.jobWrite j j.hostAddr (s.regBytes (wMint + 0x1000) 64 ++ s.regBytes (wMint + 0x1100) 8 ++ s.regBytes wMint 64))
      (leBytes 4 544)

/-! ### Rows -/

/-- Row MINT_EVALUATE, with what Mint reads. -/
def execMintEvaluate (r : MintReading) (s : State) : Out := .next (s.mintEvaluate r)
/-- Row CLOCK_SWITCH. -/
def execClockSwitch (s : State) : Out := .next s.clockSwitch
/-- Row AVS_SETPOINT_ACK. -/
def execAvsSetpointAck (s : State) : Out := .next s.avsAck
/-- Row AVS_ACK_TIMEOUT. -/
def execAvsAckTimeout (s : State) : Out := .next s.avsTimeout
/-- Row THERMTRIP_ASSERT. -/
def execThermtripAssert (s : State) : Out := .next (s.thermtrip true)
/-- Row THERMTRIP_LATCH_CLEAR. -/
def execThermtripLatchClear (s : State) : Out := .next (s.thermtrip false)
/-- Row MINT_SETUP. -/
def execMintSetup (j : Job) (s : State) : Out := jobRow { op := 0x88 } j s mintSetup
/-- Row MINT_ACT_SET. -/
def execMintActSet (j : Job) (s : State) : Out := jobRow { op := 0x89 } j s mintActSet
/-- Row MINT_FLOOR_SET. -/
def execMintFloorSet (j : Job) (s : State) : Out := jobRow { op := 0x8A } j s mintFloorSet
/-- Row MINT_HOLD. -/
def execMintHold (j : Job) (s : State) : Out := jobRow { op := 0x8B } j s mintHold
/-- Row MINT_QUERY. -/
def execMintQuery (j : Job) (s : State) : Out := jobRow { op := 0x8C } j s mintQuery

end Sys2Proof.Machine
end

