-- ==== Sys2Proof/Machine/Gauge.lean ====
section
/-!
DEFINITION. Gauge and Scribe: programmable counters, bandwidth, dumps, samples, and the recorders' commands (ch. 20,
R573 to R600).
-/
namespace Sys2Proof.Machine

/-! ### Programmable counters (R579 to R581) -/

/-- Whether a slot holds a fixed event counter (R576 to R578). -/
def fixedCounter (page x : Nat) : Bool :=
  decide ((page ≤ 140 ∧ (x ≤ 27 ∨ (32 ≤ x ∧ x ≤ 113) ∨ (114 ≤ x ∧ x ≤ 121))) ∨
    (141 ≤ page ∧ page ≤ 148 ∧ (x ≤ 50 ∨ (64 ≤ x ∧ x ≤ 99))) ∨ (page = 149 ∧ x ≤ 4) ∨ (page = 151 ∧ x ≤ 11) ∨
    (page = 152 ∧ (x = 4 ∨ x = 5)) ∨
    (153 ≤ page ∧ page ≤ 156 ∧ (x ≤ 12 ∨ (16 ≤ x ∧ x ≤ 28) ∨ (32 ≤ x ∧ x ≤ 35) ∨ (40 ≤ x ∧ x ≤ 52) ∨ (56 ≤ x ∧ x ≤ 64))) ∨
    (page = 157 ∧ (x ≤ 48 ∨ (64 ≤ x ∧ x ≤ 127))) ∨ (160 ≤ page ∧ page ≤ 191 ∧ x % 64 ≤ 10) ∨ (256 ≤ page ∧ page ≤ 511))

/-- Whether counter k may count event `sel` with `filter` (R579, R580). -/
def pcSourceOk (k src sel filter : Nat) : Bool :=
  if src = 0 then
    decide (sel < 2 ^ 18) && fixedCounter (sel / 512) (sel % 512) &&
      decide (512 ≤ k ∨ sel / 512 = 141 + k / 64 ∨ (sel / 512 < 128 ∧ sel / 512 / 16 = k / 64))
  else if k < 512 then
    match sel with
    | 1 | 2 | 3 => decide (filter = 0)
    | 4 => decide (filter ≤ 7)
    | 5 => decide (filter ≤ 0x1FF)
    | 6 => decide (1 ≤ filter ∧ filter ≤ 5)
    | 7 => decide (filter ≤ 65535)
    | _ => false
  else decide ((sel = 8 ∨ sel = 9) ∧ filter ≤ 65535)

/-- OVF of counter k (R581). -/
def State.ovf (s : State) (k : Nat) : Bool := (s.reg (wGauge + 0x100 + 4 * (k / 32))).testBit (k % 32)

/-- Vector 35 brought up to date (R581): asserted while OVF of a counter with INTR is 1. -/
def State.updateOvf (s : State) : State :=
  s.setVector 35 ((rangeFrom 0 576).any (fun k => s.ovf k && s.rdb (pcBase k) Reg.GAUGE_PC_A_INTR))

/-- The increments of the management-clock cycle now running to counter k are lost with the GAUGE_PC_SET that arms it, those
to come as those before it (R581). -/
def State.loseIncrements (s : State) (k : Nat) : State :=
  let c := s.clock.up / 10
  let g := s.gauge
  { s with gauge := { g with armedAt := some c
                             armedNow := k :: (if g.armedAt = some c then g.armedNow else [])
                             fresh := tabErase g.fresh (512 * pcPage k + pcSlot k) } }

/-- Counter k armed (R579, R581). -/
def State.pcArm (s0 : State) (k flags sel filter preset : Nat) : State :=
  let s := s0.loseIncrements k
  let b := pcBase k
  let o := wGauge + 0x100 + 4 * (k / 32)
  let s1 := s.setReg (b + 0x1000) (b2n (flags.testBit 0) * 2 ^ 31 + b2n (flags.testBit 1) * 2 ^ 30 +
    b2n (flags.testBit 2) * 2 ^ 29 + b2n (flags.testBit 3) * 2 ^ 28 + sel)
  let s2 := (s1.setReg (b + 0x1004) filter).wr b Reg.GAUGE_PRESET preset
  let s3 := s2.setReg o (setBits (s2.reg o) (k % 32) (k % 32) 0)
  (s3.setSlot (pcPage k) (pcSlot k) preset).updateOvf

/-- GAUGE_PC_SET (R579 to R581, R598). -/
def gaugePcSet (j : Job) (s : State) : Answer :=
  let k := j.le 4 2
  let fl := j.byte 0 6
  let sel := j.le 8 4
  if 576 ≤ k ∨ 16 ≤ fl ∨ j.only [(4, 3), (8, 14)] = false then failA s St.GAUGE_INVALID
  else if fl.testBit 0 = false then okA (s.wr (pcBase k) Reg.GAUGE_PC_A_ENABLE 0)
  else if (fl.testBit 2 ∧ 512 ≤ k) ∨ pcSourceOk k (b2n (fl.testBit 3)) sel (j.le 12 4) = false then
    failA s St.GAUGE_INVALID
  else okA (s.pcArm k fl sel (j.le 12 4) (j.le 16 6))

/-- GAUGE_CLEAR (R575). -/
def gaugeClear (j : Job) (s : State) : Answer :=
  if 512 ≤ j.le 4 2 ∨ j.only [(4, 2)] = false then failA s St.GAUGE_INVALID else okA (s.clearPage (j.le 4 2))

/-! ### Port bandwidth (R584, R585) -/

/-- Window of port n. -/
def State.bwWindow (s : State) (n : Nat) : Nat := s.rd (wGauge + 4 * n) Reg.GAUGE_BW_BW_WINDOW_US

/-- The sub-windows of port n start afresh with a window of w, and the rate slots read 0. -/
def State.bwStart (s : State) (n w : Nat) : State :=
  let g := s.gauge
  let s1 := { s with gauge := { g with
    sub := tabErase (tabErase g.sub (2 * n)) (2 * n + 1), cur := tabErase (tabErase g.cur (2 * n)) (2 * n + 1),
    bwUsed := tabSet (fun _ => 1000) g.bwUsed n w } }
  (s1.setSlot n 128 0).setSlot n 129 0

/-- GAUGE_BW_SET (R584): a value of 0 stops measurement at once. -/
def gaugeBwSet (j : Job) (s : State) : Answer :=
  let n := j.le 4 2
  let w := j.le 8 4
  if 128 ≤ n ∨ 1000000 < w ∨ j.only [(4, 2), (8, 4)] = false then failA s St.GAUGE_INVALID
  else
    let old := s.bwWindow n
    let s1 := s.wr (wGauge + 4 * n) Reg.GAUGE_BW_BW_WINDOW_US w
    okA (if w = 0 ∨ old = 0 then s1.bwStart n w else s1)

/-- One direction of port n at the end of a sub-window: the bytes of the last 16 sub-windows, in kbit/s (R585). -/
def State.bwSlot (s : State) (n d w : Nat) : State :=
  let k := 2 * n + d
  let l := (tabGet (fun _ => 0) s.gauge.cur k :: tabGet (fun _ => []) s.gauge.sub k).take 16
  let s1 := { s with gauge := { s.gauge with sub := tabSet (fun _ => []) s.gauge.sub k l, cur := tabErase s.gauge.cur k } }
  if l.length < 16 then s1.setSlot n (128 + d) 0
  else
    let q := s1.quotient ((l.foldl (· + ·) 0) * 8000 : Nat) w
    q.2.setSlot n (128 + d) q.1.toNat

/-- A sub-window of port n ends (R585). -/
def State.bwEnd (s : State) (n : Nat) : State :=
  let w := s.bwWindow n
  if w = 0 then s
  else if tabGet (fun _ => 1000) s.gauge.bwUsed n ≠ w then s.bwStart n w
  else (s.bwSlot n 0 w).bwSlot n 1 w

/-! ### Periodic dumps (R586 to R589) -/

/-- Pages of a mask, ascending. -/
def maskPages (m : Nat) : List Nat := (rangeFrom 0 512).filter (fun k => m.testBit k)

/-- GAUGE_DUMP_SET (R586). -/
def gaugeDumpSet (j : Job) (s : State) : Answer :=
  let ms := j.le 4 2
  let n := j.byte 0 6
  let base := j.le 8 8
  if 10000 < ms ∨ n = 0 ∨ 64 < n ∨ base % 64 ≠ 0 ∨ j.only [(4, 3), (8, 16)] = false then failA s St.GAUGE_INVALID
  else
    let mask := leNat (s.hostRd (s.jobLink j) j.hostAddr 64)
    let s1 := ((s.countMoved 30 64).wr wGauge Reg.GAUGE_DUMP_PERIOD_MS ms).wr wGauge Reg.GAUGE_DUMP_BUFFERS n
    okA { s1 with gauge := { s1.gauge with dumpMask := mask, dumpBase := base, dumpNext := 1, skipped := 0 } }

/-- Slot x of a page as it reads now (R573, R576): the time slots of power-down and of heat masking count on while the time
runs. -/
def State.slotNow (s : State) (page x : Nat) : Nat :=
  if 153 ≤ page ∧ page ≤ 156 ∧ x = 65 then
    let d := page - 153
    let done := tabGet (fun _ => 0) s.dmc.pdNs d
    let running := (rangeFrom 0 32).foldl (fun a c =>
      if s.rdb (wPch d c) Reg.DMC_PC_POWER_DOWN then a + (s.clock.up - (s.pch d c).pdSince) else a) done
    (s.slot page x + (running / 1000 - done / 1000)) % 2 ^ 48
  else if page = 150 ∧ 1 ≤ x ∧ x ≤ 3 then
    match tabGet (fun _ => none) s.esch.maskedAt x with
    | some t => (s.slot page x + (s.clock.up - t) / 1000) % 2 ^ 48
    | none => s.slot page x
  else s.slot page x

/-- A time in the format of R587. -/
def gaugeTime (s : State) : Nat := s.clock.ns + s.clock.sec % 2 ^ 34 * 2 ^ 30

/-- A dump falls due while the engine with duty v13 runs: it starts, or is skipped while one is being written (R245, R586,
R588, R589). -/
def State.dumpDue (s : State) : State :=
  if s.rd wGauge Reg.GAUGE_DUMP_PERIOD_MS = 0 ∨ s.dutyRuns 13 = false then s
  else
    let g := s.gauge
    match g.dumping with
    | some _ => { s with gauge := { g with skipped := min (g.skipped + 1) 65535 } }
    | none =>
      let size := 128 + 4096 * (maskPages g.dumpMask).length
      let addr := g.dumpBase + ((g.dumpNext - 1) % s.rd wGauge Reg.GAUGE_DUMP_BUFFERS) * size
      let x : Dump := { seq := g.dumpNext, skipped := g.skipped, addr := addr, mask := g.dumpMask }
      let s1 := { s with gauge := { g with dumping := some x, dumpNext := g.dumpNext + 1, skipped := 0 } }
      (s1.hostWr (s1.fnLink s1.owner) (addr + 4) (leBytes 4 0xFFFFFFFF)).count 157 29 4

/-- Bytes of a counter page (R573). -/
def State.pageBytes (s : State) (page : Nat) : List Byte := (rangeFrom 0 512).flatMap (fun x => leBytes 8 (s.slotNow page x))

/-- A dump's writes complete, or one fails and the dump is abandoned (R588, R589). All counters are read at one time, that of
the completion, which START and END both give (R587; log entry 243). -/
def State.dumpDone (s : State) (ok : Bool) : State :=
  match s.gauge.dumping with
  | none => s
  | some x =>
    let s0 := { s with gauge := { s.gauge with dumping := none } }
    if ok = false then s0.fault .gauge 0 x.seq
    else
      let l := s0.fnLink s0.owner
      let pages := maskPages x.mask
      let s1 := s0.hostWr l (x.addr + 128) (pages.flatMap s0.pageBytes)
      let s2 := s1.hostWr l x.addr (leBytes 4 0x47554147)
      let s3 := s2.hostWr l (x.addr + 8) (leBytes 8 (gaugeTime s) ++ leBytes 8 (gaugeTime s) ++ leBytes 2 pages.length ++
        leBytes 2 x.skipped ++ List.replicate 36 0 ++ leBytes 64 x.mask)
      let s4 := (s3.hostWr l (x.addr + 4) (leBytes 4 x.seq)).wr wGauge Reg.GAUGE_DUMP_SEQ_LAST_SEQ x.seq
      (s4.count 157 29 (128 + 4096 * pages.length)).strobe 36

/-! ### Precise samples (R582) -/

/-- GAUGE_SAMPLE_READ. -/
def gaugeSampleRead (j : Job) (s : State) : Answer :=
  let p := j.byte 0 4
  if 8 ≤ p ∨ 4096 < j.le 8 4 ∨ j.only [(4, 1), (8, 4), (16, 8)] = false then failA s St.GAUGE_INVALID
  else
    let l := tabGet (fun _ => []) s.gauge.samples p
    let n := min (j.le 8 4) l.length
    let b := wGauge + 4 * p
    let lost := s.rd b Reg.GAUGE_SAMPLE_SAMPLES_LOST
    let s1 := { s with gauge := { s.gauge with samples := tabSet (fun _ => []) s.gauge.samples p (l.drop n) } }
    let s2 := (s1.wr b Reg.GAUGE_SAMPLE_SAMPLES_LOST 0).wr b Reg.GAUGE_SAMPLE_HELD (l.length - n)
    okRes (s2.jobWrite j j.hostAddr (l.take n).flatten) (leBytes 4 n ++ leBytes 3 lost)

/-! ### Scribe's commands (R594 to R598) -/

/-- SCRIBE_READ (R596). -/
def scribeRead (j : Job) (s : State) : Answer :=
  let r := j.byte 0 4
  let first := j.le 8 4
  let n := j.le 12 4
  if 9 ≤ r ∨ recorderSize r < first + n ∨ j.only [(4, 1), (8, 8), (16, 8)] = false then failA s St.SCRIBE_INVALID
  else
    let l := (s.recorder r).log.reverse
    let slotBytes (k : Nat) : List Byte :=
      match l[k]? with
      | some e => e.bytes false
      | none => List.replicate 32 0
    okRes (s.jobWrite j j.hostAddr ((rangeFrom first n).flatMap slotBytes)) (leBytes 4 n)

/-- The levels of vectors 37 and 38 after a clear (R595): a vector drops when every log it covers is below its
WATERMARK. -/
def State.scribeDrop (s : State) (r : Nat) : State :=
  if r = 0 then (if s.atWatermark 0 then s else s.setVector 37 false)
  else if (rangeFrom 1 8).any s.atWatermark then s else s.setVector 38 false

/-- A log emptied (R596). -/
def State.clearLog (s : State) (r : Nat) : State :=
  let b := recBase r
  let s1 := s.setRecorder r { s.recorder r with log := [] }
  let s2 := ((s1.wr b Reg.SCRIBE_REC_A_FULL 0).wr b Reg.SCRIBE_REC_A_NEXT 0).wr b Reg.SCRIBE_REC_B_LOST 0
  s2.scribeDrop r

/-- SCRIBE_CLEAR (R596). -/
def scribeClear (j : Job) (s : State) : Answer :=
  let r := j.byte 0 4
  let stale := match (s.recorder r).log with
    | e :: _ => j.bit 5 0 && decide (e.seq ≠ j.le 8 4)
    | [] => false
  if 9 ≤ r ∨ 2 ≤ j.byte 0 5 ∨ j.only [(4, 2), (8, 4)] = false then failA s St.SCRIBE_INVALID
  else if stale then failA s St.SCRIBE_STALE
  else okA (s.clearLog r)

/-- SCRIBE_RATE_SET (R594). -/
def scribeRateSet (j : Job) (s : State) : Answer :=
  let e := j.byte 0 4
  if 40 < e ∨ j.only [(4, 1), (8, 2)] = false then failA s St.SCRIBE_INVALID
  else okA (s.wr (wScribe + 4 * e) Reg.SCRIBE_RATE_LIMIT (j.le 8 2))

/-- SCRIBE_MIRROR_SET (R597). -/
def scribeMirrorSet (j : Job) (s : State) : Answer :=
  let r := j.byte 0 4
  let i := j.le 6 2
  let ok := decide (i < 512) && (match s.findQ s.owner i with
    | some q => decide ((s.queue q).typ = .event)
    | none => false)
  if 9 ≤ r ∨ j.only [(4, 1), (6, 2)] = false ∨ (i ≠ 0xFFFF ∧ ok = false) then failA s St.SCRIBE_INVALID
  else okA ((s.wr (recBase r) Reg.SCRIBE_REC_D_MIRROR_Q i).wr (recBase r) Reg.SCRIBE_REC_A_MIRROR_EN (b2n (decide (i ≠ 0xFFFF))))

/-- SCRIBE_SETUP (R595). -/
def scribeSetup (j : Job) (s : State) : Answer :=
  let r := j.byte 0 4
  if 9 ≤ r ∨ recorderSize r < j.le 8 4 ∨ j.only [(4, 1), (8, 4)] = false then failA s St.SCRIBE_INVALID
  else okA ((s.wr (recBase r) Reg.SCRIBE_REC_D_WATERMARK (j.le 8 4)).scribeRiseW wh2 r)

/-- An event reaches its recorder's arbiter (R593). -/
def State.eventArrival (s : State) (x : Rec) : State := if recorderOf x.code x.source x.p0 ≤ 8 then s.eventW wh2 x else s

/-- A second of the management clock ends: the rate counts restart (R594). -/
def State.rateSecond (s : State) : State :=
  forEach (rangeFrom 1 8) (fun r s => s.setRecorder r { s.recorder r with rate := [] }) s

/-! ### Rows -/

/-- Row BW_SUBWINDOW_END, of port n. -/
def execBwSubwindowEnd (n : Fin 128) (s : State) : Out := .next (s.bwEnd n.val)
/-- Row GAUGE_DUMP_DUE. -/
def execGaugeDumpDue (s : State) : Out := .next s.dumpDue
/-- Row GAUGE_DUMP_DONE; `ok` unless a write failed under R507. -/
def execGaugeDumpDone (ok : Bool) (s : State) : Out := .next (s.dumpDone ok)
/-- Row GAUGE_PC_SET. -/
def execGaugePcSet (j : Job) (s : State) : Out := jobRow { op := 0x90 } j s gaugePcSet
/-- Row GAUGE_CLEAR. -/
def execGaugeClear (j : Job) (s : State) : Out := jobRow { op := 0x91 } j s gaugeClear
/-- Row GAUGE_BW_SET. -/
def execGaugeBwSet (j : Job) (s : State) : Out := jobRow { op := 0x92 } j s gaugeBwSet
/-- Row GAUGE_DUMP_SET. -/
def execGaugeDumpSet (j : Job) (s : State) : Out := jobRow { op := 0x93 } j s gaugeDumpSet
/-- Row GAUGE_SAMPLE_READ. -/
def execGaugeSampleRead (j : Job) (s : State) : Out := jobRow { op := 0x94 } j s gaugeSampleRead
/-- Row SCRIBE_EVENT_ARRIVAL: an event with its code, source, FIRMWARE and parameters. -/
def execScribeEventArrival (code : BitVec 16) (source : BitVec 15) (firmware : Bool) (p0 p1 p2 : Word32) (s : State) : Out :=
  .next (s.eventArrival { code := code.toNat, source := source.toNat, firmware := firmware, p0 := p0.toNat,
                          p1 := p1.toNat, p2 := p2.toNat })
/-- Row SCRIBE_RATE_SECOND. -/
def execScribeRateSecond (s : State) : Out := .next s.rateSecond
/-- Row SCRIBE_MIRROR_REPOST, of recorder r. -/
def execScribeMirrorRepost (r : Fin 9) (s : State) : Out := .next (s.mirrorRepostW wh2 r.val true)
/-- Row SCRIBE_READ. -/
def execScribeRead (j : Job) (s : State) : Out := jobRow { op := 0x98 } j s scribeRead
/-- Row SCRIBE_CLEAR. -/
def execScribeClear (j : Job) (s : State) : Out := jobRow { op := 0x99 } j s scribeClear
/-- Row SCRIBE_RATE_SET. -/
def execScribeRateSet (j : Job) (s : State) : Out := jobRow { op := 0x9A } j s scribeRateSet
/-- Row SCRIBE_MIRROR_SET. -/
def execScribeMirrorSet (j : Job) (s : State) : Out := jobRow { op := 0x9B } j s scribeMirrorSet
/-- Row SCRIBE_SETUP. -/
def execScribeSetup (j : Job) (s : State) : Out := jobRow { op := 0x9C } j s scribeSetup

end Sys2Proof.Machine
end

