-- ==== Sys2Proof/Machine/Hif.lean ====
section
/-!
DEFINITION. HIF: host links, function resets, completion timers, held messages, and the commands that assign resources
(ch. 14, R405 to R433).
-/
namespace Sys2Proof.Machine

/-! ### Completion timeouts (R424) -/

/-- Completion timeout in µs of a Device Control 2 value (R424; the coding of the ranges is log entry 35). -/
def ctoUs (v : Nat) : Nat :=
  match v with
  | 5 => 16000 | 6 => 55000 | 9 => 65000 | 10 => 210000 | 13 => 260000 | 14 => 900000 | _ => 50000

/-- RETRY_US of link j. -/
def State.retryUs (s : State) (j : Nat) : Nat := s.rd (wHif + 16 * j) Reg.HIF_LINK_CFG_RETRY_US

/-- CPL_RAISED of link j brought up to date (R424). -/
def State.updateCpl (s : State) (j : Nat) : State :=
  let raised := (rangeFrom 0 256).any (fun f => decide (s.fnLink? f = some j) && !(s.fn f).ctoDis &&
    decide (ctoUs (s.fn f).cto < 4 * s.retryUs j))
  s.wr (wHif + 16 * j) Reg.HIF_LINK_STATUS_CPL_RAISED (b2n raised)

/-! ### Function resets (R412) -/

/-- Registers from `lo` to `hi` of the window at b put back to their reset words. -/
def State.clearRegs (s : State) (b lo hi : Nat) : State :=
  { s with regs := s.regs.filter (fun e => !decide (b + lo ≤ e.1 ∧ e.1 < b + hi)) }

/-- Every MSI-X entry of function f masked and no bit pending (R412 step 4, R420). -/
def State.maskAll (s : State) (f : Nat) : State :=
  let b := s.fnBase f
  let s1 := { s with regs := s.regs.filter (fun e => !decide (b + 0x4000 ≤ e.1 ∧ e.1 < b + 0x6400 ∧ (e.1 - b) % 16 = 12)) }
  s1.clearRegs b 0x7000 0x7050

/-- The latches and held _LO writes of function f discarded (R10). -/
def State.dropLatches (s : State) (f : Nat) : State :=
  let lo := if f = s.owner then 0 else wFn f
  { s with host := { s.host with
      latch := s.host.latch.filter (fun e => decide (e.1 / 8 ≠ f))
      timeLatch := s.host.timeLatch.filter (fun e => decide (e.1 ≠ f))
      heldLo := s.host.heldLo.filter (fun e => !decide (lo ≤ e.1 ∧ e.1 < lo + 0x1000000)) } }

/-- A reset of function f begins, with its cause (R412). -/
def State.resetOne (s : State) (f cause : Nat) : State :=
  if s.fnExists f = false ∨ (s.fn f).resetting.isSome then s
  else
    let s1 := s.setFn f { resetting := some cause, quota := (s.fn f).quota }
    let s2 := (((s1.destroyAll f true).abortBatches f).maskAll f).dropLatches f
    let l := s2.link (s2.fnLink f)
    let s3 := s2.setLink (s2.fnLink f) { l with heldTimers := l.heldTimers.filter (fun t => decide (t.1 ≠ f)) }
    ({ s3 with dev := { s3.dev with heldEnable := s3.dev.heldEnable.filter (fun g => decide (g ≠ f)) } }).updateInt

/-- A reset of function f; a PF's VFs are reset with it, by the link's own reset with its cause (R412, R433). -/
def State.resetFn (s : State) (f cause : Nat) : State :=
  let vfs := if f < 4 then rangeFrom (s.vfBase f) (s.vfCount f) else []
  (forEach vfs (fun v s => s.resetOne v (if cause = 0 then 3 else cause)) s).resetOne f cause

/-- The reset of function f completes: its registers are back at their reset values (R412); what ST fields hold
stays (R12). -/
def State.resetDone (s : State) (f : Nat) : State :=
  match (s.fn f).resetting with
  | none => s
  | some cause =>
    let b := s.fnBase f
    let s1 := (s.setFn f { s.fn f with resetting := none }).clearRegs b 0x1000 0x8000
    let s2 := if f = s.owner ∨ 256 ≤ f then s1 else s1.clearRegs b 0xF008 0xF014
    let s3 := if h : f < 256 then s2.updateWin (.fn ⟨f, h⟩) else s2
    (s3.updateCpl (s3.fnLink f)).event Ev.FUNCTION_RESET (s3.fnLink f) f cause 0

/-! ### Links (R406, R423, R425, R426) -/

/-- L0 of link j. -/
def State.setL0 (s : State) (j : Nat) (b : Bool) : State :=
  (s.wr (wHif + 16 * j) Reg.HIF_LINK_STATUS_L0 (b2n b)).updateInt

/-- Strapped width of link j (R405). -/
def State.strapWidth (s : State) (j : Nat) : Nat :=
  match s.rd wHif Reg.HIF_STRAPS_BIFUR, j with
  | 0, _ => 16
  | 1, _ => 8
  | 2, 0 => 8
  | _, _ => 4

/-- Whether training can reach a rate code, a width and a mode on link j: a rate up to 64 GT/s, a width of the strapped lanes, and
Flit Mode at 64 GT/s (R407). -/
def State.trainable (s : State) (j rate width : Nat) (flit : Bool) : Bool :=
  decide (1 ≤ rate ∧ rate ≤ 6 ∧ width ≤ s.strapWidth j) && [1, 2, 4, 8, 16].contains width && (flit || decide (rate ≠ 6))

/-- Link j first enters L0 after training (R406, R407, R433). -/
def State.pcieUp (s : State) (j rate width : Nat) (flit : Bool) : State :=
  let l := s.link j
  if s.linkPresent j = false ∨ l.training = false ∨ l.perst ∨ l.up ∨ s.devState = 0 ∨
      s.trainable j rate width flit = false then s
  else
    let b := wHif + 16 * j
    let s1 := s.setLink j { l with up := true, dlActive := true, training := false }
    let s2 := (s1.wr b Reg.HIF_LINK_STATUS_RATE rate).wr b Reg.HIF_LINK_STATUS_WIDTH width
    ((s2.wr b Reg.HIF_LINK_STATUS_FLIT (b2n flit)).setL0 j true).event Ev.HOST_LINK_UP j j rate width

/-- What a timer that fires does to the block that made the request (R425, R461, R508). -/
def State.failRequest (s : State) (k : ReqKind) (tag : Nat) : State :=
  match k with
  | .ringRead q => s.queueFail q.val 4 tag
  | .ringWrite q => s.queueFail q.val 4 tag
  | .dmaBeat ch pos => s.dmaFail ch.val 3 pos.toNat false tag
  | .poolList x => s.listTimeout x.val
  | .other => s

/-- The completion timer of a request fires (R425). -/
def State.fireTimer (s : State) (f : Nat) (k : ReqKind) (t tag : Nat) : State :=
  let j := s.fnLink f
  let s1 := { s with host := { s.host with expired := (j * 2 ^ 14 + t) :: s.host.expired } }
  (s1.timeoutReport f tag).failRequest k tag

/-- A held timer forgotten. -/
def State.dropTimer (s : State) (j t : Nat) : State :=
  let l := s.link j
  s.setLink j { l with heldTimers := l.heldTimers.filter (fun e => decide (e.2.2 ≠ t)) }

/-- A completion timer expires; one that expires outside L0 is held (R424, R425, R612): L0 tells, unless the command says that the
link has left it. -/
def State.cplExpiry (s : State) (f : Nat) (k : ReqKind) (t : Nat) (outside : Bool) : State :=
  let j := s.fnLink f
  let l := s.link j
  if s.fnExists f = false ∨ (s.fn f).ctoDis ∨ l.up = false then s
  else
    let held := l.heldTimers.any (fun e => decide (e.2.2 = t))
    if outside || !s.inL0 j then
      let s1 := s.setL0 j false
      if held then s1 else s1.setLink j { s1.link j with heldTimers := (s1.link j).heldTimers ++ [(f, k, t)] }
    else (s.dropTimer j t).fireTimer f k t (if held then s.linkTag j else 0)

/-- A completion arrives (R425): one whose timer has fired is discarded. -/
def State.completionArrival (s : State) (f t : Nat) : State :=
  let j := s.fnLink f
  let key := j * 2 ^ 14 + t
  if s.fnExists f = false then s
  else if s.host.expired.contains key then { s with host := { s.host with expired := s.host.expired.erase key } }
  else s.dropTimer j t

/-- Link j completes a retraining of `us` microseconds (R423, R426). -/
def State.linkRecovery (s : State) (j us : Nat) : State :=
  if (s.link j).up = false then s
  else
    let s1 := ((s.setLink j { s.link j with l1 := false }).inc (wHif + 16 * j) Reg.HIF_LINK_STATUS_RECOVERIES 1).setL0 j true
    s1.event Ev.LINK_RECOVERY j j us (s1.linkTag j)

/-- Link j goes down: its functions are reset, and it trains again unless PERST_N holds it (R406, R412). -/
def State.linkDown (s : State) (j fnCause : Nat) : State :=
  let b := wHif + 16 * j
  let s1 := s.setLink j { s.link j with up := false, dlActive := false, training := !(s.link j).perst, l1 := false,
                                        heldTimers := [] }
  let s2 := ((s1.wr b Reg.HIF_LINK_STATUS_RATE 0).wr b Reg.HIF_LINK_STATUS_WIDTH 0).wr b Reg.HIF_LINK_STATUS_FLIT 0
  (s2.setL0 j false).resetFn j fnCause

/-- Link j gives up (R423, R425): the give-up is recorded first, then every held timer fires (R612). -/
def State.linkGiveUp (s : State) (j : Nat) : State :=
  let l := s.link j
  if l.up = false ∨ l.dlActive = false then s
  else
    let tag := s.linkTag j
    let s1 := (s.event Ev.HOST_LINK_DOWN j j 1 tag).fault .hif 9 tag
    let s2 := forEach l.heldTimers (fun e s => s.fireTimer e.1 e.2.1 e.2.2 tag) s1
    s2.linkDown j 2

/-- A hot reset, or the host takes link j down (R412, R433). -/
def State.hotReset (s : State) (j : Nat) (hot : Bool) : State :=
  if (s.link j).up = false then s
  else (s.event Ev.HOST_LINK_DOWN j j (if hot then 2 else 0) 0).linkDown j (if hot then 1 else 2)

/-- PERST_N of link j falls (R625). -/
def State.perstAssert (s : State) (j : Nat) : State :=
  let was := (s.link j).up
  let s0 := s.setLink j { s.link j with perst := true, training := false }
  if s.linkPresent j = false ∨ s.devState = 0 then s0
  else (if was then s0.event Ev.HOST_LINK_DOWN j j 0 0 else s0).linkDown j 2

/-- PERST_N of link j rises: training starts from FUSED on (R625, R636). -/
def State.perstRelease (s : State) (j : Nat) : State :=
  if (s.link j).perst = false then s
  else s.setLink j { s.link j with perst := false, training := s.linkPresent j && decide (s.devState ≠ 0) }

/-- A held message of entry i of function f is sent (R420). -/
def State.sendPending (s : State) (f i : Nat) : State :=
  if s.msixPending f i && s.canSend f i then (s.setPendingBit f i false).sendMessage f i else s

/-! ### ASSIGN_RESOURCES (R427 to R429) -/

/-- Base of each PF's VFs from their counts (R410). -/
def vfBases (c : List Nat) : List Nat := (rangeFrom 0 4).map (fun j => 4 + (c.take j).foldl (· + ·) 0)

/-- Blocks of a range. -/
def rangeBlocks (base n : Nat) : List Nat := rangeFrom base n

/-- Whether block b of pipeline p holds an entry with either liveness bit set (R107). -/
def State.blockLive (s : State) (p b : Nat) : Bool :=
  (s.pipe p).array.any (fun e => decide (e.1 / 256 = b ∧ recLive 0 e.2 ≠ 0))

/-- Whether R107 refuses range r of pipeline p the blocks [base, base + n). -/
def State.rangeRefused (s : State) (p r base n : Nat) : Bool :=
  let old := s.mrange p r
  let isIn (b n x : Nat) : Bool := decide (b ≤ x ∧ x < b + n)
  decide (64 < base + n) ||
    (rangeFrom 0 16).any (fun q => decide (q ≠ r) && overlaps base n (s.mrange p q).base (s.mrange p q).blocks) ||
    (rangeFrom 0 64).any (fun b => (isIn base n b != isIn old.base old.blocks b) && s.blockLive p b)

/-- Items [first, first + n) of a table of holders given to function f. -/
def holdSet (t : Tab (Option Nat)) (first n f : Nat) : Tab (Option Nat) :=
  forEach (rangeFrom first n) (fun k t => tabSet (fun _ => none) t k (some f)) t

/-- A tenant given to function f with its quotas (R428, R429). -/
def State.assignTenant (s : State) (t f em learn mask : Nat) : State :=
  forEach (rangeFrom 0 8) (fun p s =>
    let b := tenantBase p t
    let s1 := if s.tenantOwner p t = f then s else s.wr b Reg.PIPE_TENANT_A_EVENT_Q 0xFFFF
    let s2 := (s1.wr b Reg.PIPE_TENANT_A_OWNER f).wr b Reg.PIPE_TENANT_B_EM_QUOTA em
    if mask.testBit p then s2.wr b Reg.PIPE_TENANT_C_LEARN_QUOTA learn else s2) s

/-- A pool that goes to function f is uncreated (R476); an audit of it ends with POOL_INVALID (log entry 211). -/
def State.poolUncreate (s : State) (x f : Nat) : State :=
  let s1 := (s.poolDrop x).wr (poolBase x) Reg.PEG_POOL_A_FUNC f
  match s.peg.audit with
  | none => s1
  | some a =>
    if a.pool = x then ({ s1 with peg := { s1.peg with audit := none } }).complete a.job St.POOL_INVALID [] else s1

/-- The eight kinds carried out (R428). -/
def State.assign (s : State) (j : Job) (kind f first n : Nat) : State :=
  match kind with
  | 0 => { s with host := { s.host with portOwner := holdSet s.host.portOwner first n f } }
  | 1 => s.setFn f { s.fn f with quota := some n }
  | 2 =>
    let b := wPipe (j.byte 0 5) + 8 * first
    let s1 := ((s.wr b Reg.PIPE_MORTISE_RANGE_A_OWNER f).wr b Reg.PIPE_MORTISE_RANGE_A_BASE_BLOCK (j.byte 0 16)).wr b
      Reg.PIPE_MORTISE_RANGE_A_BLOCKS n
    ((s1.wr b Reg.PIPE_MORTISE_RANGE_A_WIDE (j.byte 0 17)).wr b Reg.PIPE_MORTISE_RANGE_B_MISS_OPCODE (j.byte 0 18)).wr b
      Reg.PIPE_MORTISE_RANGE_B_ERR_OPCODE (j.byte 0 19)
  | 3 => s.assignTenant first f n (j.le 16 4) (j.byte 0 5)
  | 4 =>
    let moved := (rangeFrom first n).filter (fun x => decide (s.poolHolder x ≠ f))
    let s1 := forEach moved (fun x s => s.poolUncreate x f) s
    { s1 with host := { s1.host with poolOwner := holdSet s1.host.poolOwner first n f } }
  | 5 => { s with host := { s.host with meterOwner := holdSet s.host.meterOwner first n f } }
  | 6 =>
    let c := (rangeFrom 0 4).map (fun k => if k = f then n else s.vfCount k)
    let s1 := forEach (rangeFrom 0 4) (fun k s =>
      (s.wr (wHif + 16 * k) Reg.HIF_VF_MAP_VF_BASE ((vfBases c).getD k 0)).wr (wHif + 16 * k) Reg.HIF_VF_MAP_VF_COUNT
        (c.getD k 0)) s
    forEach (rangeFrom 0 4) (fun k s => s.updateCpl k) s1
  | _ =>
    if n = 0 then s
    else
      let t := s.host.pageSlot.filter (fun e => decide (e.2 ≠ some first))
      { s with host := { s.host with pageSlot :=
          if f = s.owner then t else tabSet (fun _ => none) t (16 * f + j.byte 0 16) (some first) } }

/-- Whether the fields of the command are out of range (R428, R429). -/
def assignBad (j : Job) (kind f first n : Nat) : Bool :=
  let used := match kind with
    | 2 => [(4, 16)] | 3 => [(4, 16)] | 7 => [(4, 13)] | _ => [(4, 12)]
  let p := j.byte 0 5
  !j.only used || decide (j.byte 0 7 ≠ 0) ||
    (match kind with
     | 0 => decide (128 < first + n ∨ 128 ≤ first ∨ p ≠ 0)
     | 1 => decide (first ≠ 0 ∨ 511 < n ∨ p ≠ 0)
     | 2 => decide (7 < p ∨ 15 < first ∨ 64 < n ∨ 63 < j.byte 0 16 ∨ 1 < j.byte 0 17)
     | 3 => decide (3 < first ∨ 67108864 < n ∨ 262152 < j.le 16 4)
     | 4 => decide (64 < first + n ∨ 64 ≤ first ∨ p ≠ 0)
     | 5 => decide (262144 < first + n ∨ 262144 ≤ first ∨ p ≠ 0)
     | 6 => decide (first ≠ 0 ∨ 252 < n ∨ p ≠ 0 ∨ 4 ≤ f)
     | 7 => decide (512 ≤ first ∨ 1 < n ∨ 15 < j.byte 0 16 ∨ p ≠ 0)
     | _ => true)

/-- Whether the limits of R429 would be passed. -/
def State.assignLimit (s : State) (kind f n : Nat) : Bool :=
  match kind with
  | 1 => decide (3840 < ((rangeFrom 0 256).map (fun g => if g = f then n else s.quota g)).sum)
  | 6 => decide (252 < ((rangeFrom 0 4).map (fun k => if k = f then n else s.vfCount k)).sum)
  | _ => false

/-- The busy condition of the kind (R411, R428). -/
def State.assignBusy (s : State) (kind f first n : Nat) : Bool :=
  match kind with
  | 0 => (rangeFrom first n).any (fun k => s.rdb (wPort k) Reg.PORT_CFG_ENABLE)
  | 1 => decide (n < s.runQueues f)
  | 4 => (rangeFrom first n).any (fun x => decide (s.acctSum x (s.acctHeld x) ≠ 0))
  | 6 =>
    let c := (rangeFrom 0 4).map (fun k => if k = f then n else s.vfCount k)
    (rangeFrom 0 4).any (fun k => (s.fn k).vfEn &&
      decide (s.vfBase k ≠ (vfBases c).getD k 0 ∨ s.vfCount k ≠ c.getD k 0))
  | _ => false

/-- ASSIGN_RESOURCES. -/
def assignResources (j : Job) (s : State) : Answer :=
  let kind := j.byte 0 4
  let f := j.byte 0 6
  let first := j.le 8 4
  let n := j.le 12 4
  if assignBad j kind f first n then failA s St.RESOURCE_INVALID
  else if s.assignLimit kind f n then failA s St.RESOURCE_LIMIT
  else if s.fnExists f = false then failA s St.FUNC_INVALID
  else if s.assignBusy kind f first n then failA s St.RESOURCE_BUSY
  else if kind = 2 ∧ s.rangeRefused (j.byte 0 5) first (j.byte 0 16) n then failA s St.RANGE_INVALID
  else okA ((s.assign j kind f first n).event Ev.RESOURCE_ASSIGNED s.owner kind f first)

/-! ### RESOURCE_QUERY and HIF_SETUP (R430, R431) -/

/-- The runs of consecutive numbers below n that satisfy a test: first and count. -/
def runs (p : Nat → Bool) (n : Nat) : List (Nat × Nat) :=
  ((rangeFrom 0 n).foldl (fun (l : List (Nat × Nat)) k =>
    if p k = false then l
    else match l with
      | (a, c) :: t => if a + c = k then (a, c + 1) :: t else (k, 1) :: (a, c) :: t
      | [] => [(k, 1)]) []).reverse

/-- The runs that function f holds of a kind (R430); byte 5 names the pipeline of kind 2. -/
def State.holdings (s : State) (kind f p : Nat) : List (Nat × Nat) :=
  match kind with
  | 0 => runs (fun n => decide (s.portHolder n = f)) 128
  | 1 => [(0, s.quota f)]
  | 2 => runs (fun r => decide ((s.mrange p r).owner = f)) 16
  | 3 => runs (fun t => decide (s.tenantOwner 0 t = f)) 4
  | 4 => runs (fun x => decide (s.poolHolder x = f)) 64
  | 5 => runs (fun m => decide (s.meterHolder m = f)) 262144
  | 6 => [(0, s.vfCount f)]
  | _ =>
    let granted (k : Nat) : Option Nat := (s.host.pageSlot.find? (fun e => decide (e.2 = some k))).map (·.1 / 16)
    runs (fun k => decide ((granted k).getD s.owner = f)) 512

/-- RESOURCE_QUERY (R430): the owner names any function, and another reads its own holdings. No field of the command gives the
length of its buffer, so that how many whole records it takes is a free value (log entry 154). -/
def resourceQuery (j : Job) (s : State) : Answer :=
  let kind := j.byte 0 4
  let me := s.jobFn j
  let f := if me = s.owner then j.byte 0 6 else me
  if 7 < kind ∨ 7 < j.byte 0 5 ∨ (kind ≠ 2 ∧ j.byte 0 5 ≠ 0) ∨ j.byte 0 7 ≠ 0 ∨ j.only [(4, 4), (16, 8)] = false ∨
      (kind = 6 ∧ 4 ≤ f) then failA s St.RESOURCE_INVALID
  else if s.fnExists f = false then failA s St.FUNC_INVALID
  else
    let l := s.holdings kind f (j.byte 0 5)
    let d := s.draw 32
    let recs := (l.take d.1.toNat).flatMap (fun e => leBytes 4 e.1 ++ leBytes 4 e.2)
    okRes (d.2.jobWrite j j.hostAddr (leBytes 8 l.length ++ recs)) (leBytes 4 l.length)

/-- HIF_SETUP (R431). -/
def hifSetup (j : Job) (s : State) : Answer :=
  let k := j.byte 0 4
  let us := j.le 8 4
  if s.linkPresent k = false ∨ us < 100 ∨ 25000 < us ∨ 2 ≤ j.byte 0 12 ∨ j.only [(4, 1), (8, 4), (12, 1), (16, 8)] = false then
    failA s St.RESOURCE_INVALID
  else
    let s1 := (s.wr (wHif + 16 * k) Reg.HIF_LINK_CFG_RETRY_US us).updateCpl k
    okA (((s1.wr wHif Reg.HIF_PIN_PIN_ALL (j.byte 0 12)).wr wHif Reg.HIF_PIN_EN j.hostAddr).updateInt)

/-! ### Rows -/

/-- Row ASSIGN_RESOURCES. -/
def execAssignResources (j : Job) (s : State) : Out := jobRow { op := 0x10 } j s assignResources
/-- Row RESOURCE_QUERY. -/
def execResourceQuery (j : Job) (s : State) : Out := jobRow { op := 0x11, owner := false } j s resourceQuery
/-- Row HIF_SETUP. -/
def execHifSetup (j : Job) (s : State) : Out := jobRow { op := 0x12 } j s hifSetup
/-- Row PCIE_LINK_UP: the link with the rate code, the width and the mode that training reached. -/
def execPcieLinkUp (j : Fin 4) (rate : Fin 7) (width : Fin 17) (flit : Bool) (s : State) : Out :=
  .next (s.pcieUp j.val rate.val width.val flit)
/-- Row LINK_RECOVERY, with its duration in µs. -/
def execLinkRecovery (j : Fin 4) (us : Word32) (s : State) : Out := .next (s.linkRecovery j.val us.toNat)
/-- Row RETRY_US_EXPIRY. -/
def execRetryUsExpiry (j : Fin 4) (s : State) : Out := .next (s.linkGiveUp j.val)
/-- Row PCIE_HOT_RESET: a hot reset, or the host takes the link down. -/
def execPcieHotReset (j : Fin 4) (hot : Bool) (s : State) : Out := .next (s.hotReset j.val hot)
/-- Row FUNCTION_LEVEL_RESET. -/
def execFunctionLevelReset (f : Fin 256) (s : State) : Out := .next (s.resetFn f.val 0)
/-- Row FUNCTION_RESET_DONE. -/
def execFunctionResetDone (f : Fin 256) (s : State) : Out := .next (s.resetDone f.val)
/-- Row COMPLETION_ARRIVAL, of the function's request with a tag. -/
def execCompletionArrival (f : Fin 256) (tag : BitVec 14) (s : State) : Out := .next (s.completionArrival f.val tag.toNat)
/-- Row CPL_TIMER_EXPIRY; `outside` tells whether the link is outside L0. -/
def execCplTimerExpiry (f : Fin 256) (k : ReqKind) (tag : BitVec 14) (outside : Bool) (s : State) : Out :=
  .next (s.cplExpiry f.val k tag.toNat outside)
/-- Row MSIX_PENDING_SEND. -/
def execMsixPendingSend (f : Fin 256) (i : Fin 576) (s : State) : Out := .next (s.sendPending f.val i.val)
/-- Row PERST_N_ASSERT. -/
def execPerstNAssert (j : Fin 4) (s : State) : Out := .next (s.perstAssert j.val)
/-- Row PERST_N_RELEASE. -/
def execPerstNRelease (j : Fin 4) (s : State) : Out := .next (s.perstRelease j.val)

end Sys2Proof.Machine
end

