-- ==== Sys2Proof/Machine/Secure.lean ====
section
/-!
DEFINITION. Faults and security: occurrences, the safe state, the debug lifecycle and its commands (ch. 21, R601 to
R619).
-/
namespace Sys2Proof.Machine

/-! ### Device states (R631, R641) -/

/-- Milliseconds since the last reset. -/
def State.sinceReset (s : State) : Nat := s.clock.up / 10 ^ 6

/-- The device changes state: event DEV_STATE, and device vector 39 (R419, R631). -/
def State.changeState (s : State) (old new : Nat) : State :=
  let s1 := s.wr wGlobal Reg.GLOBAL_DEV_STATE_STATE new
  ((s1.event Ev.DEV_STATE 0 old new s1.sinceReset).strobe 39).updateInt

/-! ### Fault occurrences (R602, R608, R609) -/

/-- Whether a window exists: a function window only while its function does (R411). -/
def State.winExists (s : State) (w : FWin) : Bool :=
  match w with
  | .fn f => s.fnExists f.val
  | _ => true

/-- A word of Scribe's log memory is uncorrectable: a record that nothing constrains reads as one being written (R600). -/
def State.recordLost (s : State) : State :=
  let (v, s1) := s.drawNat 32
  let r := v % 9
  let y := s1.recorder r
  let k := v / 9 % y.log.length
  s1.setRecorder r { y with log := y.log.modify k (fun e => { e with lost := true }) }

/-- Cell k of Ridge's memory is uncorrectable: the frame that holds it is sent as a bad one (R607). -/
def State.cellBad (s : State) (k : Nat) : State :=
  match s.ridge.frames.find? (fun e => e.2.held.contains k) with
  | some (i, f) => s.setFrame i { f with bad := if f.bad = 0 then 1 else f.bad }
  | none => s

/-- What an uncorrectable error of a memory does beside the report (R101, R241, R600, R607); `info` names the cell. -/
def State.bankLost (s : State) (w : FWin) (mask info : Nat) : State :=
  match w with
  | .pipe p =>
    let s1 := if mask.testBit 1 then s.clearShadow p.val else s
    if mask.testBit 6 then s1.wr (wPipe p.val) Reg.PIPE_TENON_STATUS_SHADOW_VALID 0 else s1
  | .ridge => if mask.testBit 3 then s.cellBad info else s
  | .scribe => if mask.testBit 1 then s.recordLost else s
  | _ => s

/-- Sources of a window occur in one cycle, each with its own detail. `live` gives the occurring sources whose condition now
holds, and `ended` those whose condition has ended (R602, R605). -/
def State.occurrence (s : State) (w : FWin) (mask live ended : Nat) (info : Nat → Nat) : State :=
  if s.winExists w = false ∨ s.devState = 0 then s
  else
    let b := s.winBase w
    let def_ := s.winSources w
    let was := s.rd b Reg.FLT_LIVE_LIVE
    let now := ((was ||| (live &&& mask)) &&& (2 ^ 32 - 1 - (ended &&& (2 ^ 32 - 1)))) &&& def_
    let s1 := (s.wr b Reg.FLT_LIVE_LIVE now).bankLost w mask (info 3)
    if mask &&& def_ = 0 then s1 else s1.faultsW wh2 w mask info false

/-- The block that SAFE_CAUSE names for a window (R19, R609); which of a pipeline's five blocks is not stated, and
free. -/
def State.winBlockOf (s : State) (w : FWin) : Nat × State :=
  match w with
  | .pipe _ =>
    let d := s.draw 8
    (d.1.toNat, d.2)
  | w => (winBlock w 0, s)

/-- The two copies of a window's fault registers differ: the line rises at once (R608). -/
def State.miscompare (s : State) (w : FWin) : State :=
  let b := s.winBlockOf w
  b.2.raiseSafe 1 b.1 (s.winInst w) 0

/-- A miscompare that no one injected: STATUS and FAULT_FIRST of the window may be wrong, so their values are free
(R608). -/
def State.copyMiscompare (s : State) (w : FWin) : State :=
  if s.winExists w = false ∨ s.devState = 0 then s
  else
    let b := s.winBase w
    let a := s.draw 32
    let f := a.2.draw 32
    let s1 := f.2.wr b Reg.FLT_STATUS_STATUS (a.1.toNat &&& s.winSources w)
    let s2 := s1.setReg (b + 0xF014) (f.1.toNat &&& 0xF800001F)
    (s2.miscompare w).updateWin w

/-! ### The safe state (R609 to R611) -/

/-- The device reaches SAFE (R610 step 4). -/
def State.safeReached (s : State) : State :=
  let old := s.devState
  if s.dev.safeLine = false ∨ old = 5 ∨ old = 0 then s
  else
    let s1 := s.changeState old 5
    let s2 := s1.event Ev.SAFE_ENTERED 0 s.dev.safeKind s.dev.safeBlock s.dev.safeSrc
    let s3 := forEach (rangeFrom 0 8) (fun p s => (s.searchesSafe p).tenonSafe p) s2
    ((((s3.updatesSafe).svcSafe).holdSafe).freqSafe).wr wRidge Reg.RIDGE_STATUS_AUDIT_ACTIVE 0

/-- SAFE_ENTER. -/
def safeEnter (_ : Job) (s : State) : Answer := okA (s.raiseSafe 2 0 0 0)

/-- FAULT_FN_MASK (R606, R618). -/
def faultFnMask (j : Job) (s : State) : Answer :=
  let f := s.jobFn j
  let b := s.fnBase f
  let m := s.rd b Reg.FLT_MASK_MASK
  let s1 := s.wr b Reg.FLT_MASK_MASK (m / 16 * 16 + j.le 8 4 % 16)
  okA (if h : f < 256 then s1.updateWin (if f = s.owner then .hif else .fn ⟨f, h⟩) else s1)

/-! ### The debug lifecycle (R616, R617) -/

/-- LIFECYCLE: 0 OPEN, 1 LOCKED, 2 REOPENED. -/
def State.lifecycle (s : State) : Nat := s.rd wSec Reg.SEC_STATUS_LIFECYCLE

/-- The live nonce replaced, with NONCE_LIVE and its time of issue. -/
def State.setNonce (s : State) (n : Option (List Byte)) : State :=
  ({ s with dev := { s.dev with sec := { nonce := n, nonceAt := s.clock.up } } }).wr wSec Reg.SEC_STATUS_NONCE_LIVE (b2n n.isSome)

/-- A nonce is gone 60 s after its issue (R617). -/
def State.nonceDue (s : State) : State :=
  if s.dev.sec.nonce.isSome && s.since (some s.dev.sec.nonceAt) (60 * 10 ^ 9) then s.setNonce none else s

/-- A nonce from the entropy source, which is free; none in lockout (R616, R617). -/
def State.newNonce (s : State) : Option (List Byte) × State :=
  if s.rdb wSec Reg.SEC_STATUS_LOCKOUT then (none, s)
  else
    let d := s.draw 256
    let n := leBytes 32 d.1.toNat
    (some n, d.2.setNonce (some n))

/-- Debug access closes: what it had halted runs on (R616). -/
def State.closeDebug (s : State) : State :=
  ({ s with dev := { s.dev with halted := [], stepping := [] } }).wr wSec Reg.SEC_STATUS_SCOPE 0

/-- A refused response is counted (R616, R617); cause 0 is the key, 1 the signature. -/
def State.refuse (s : State) (source cause : Nat) : State :=
  let s1 := (s.setNonce none).incSat wSec Reg.SEC_STATUS_FAILURES 1
  let n := s1.rd wSec Reg.SEC_STATUS_FAILURES
  let s2 := (s1.fault .sec 0 0).event Ev.DEBUG_FAILED 0 n source cause
  if n = 3 then (s2.wr wSec Reg.SEC_STATUS_LOCKOUT 1).faultLevel .sec 1 0 true else s2

/-- A response (R616, R617), from an admin queue (source 0) or over JTAG (1), with its status; a refused one ends the nonce. -/
def State.response (s : State) (source scope : Nat) (key sig : List Byte) : State × Nat :=
  if s.lifecycle ≠ 1 then (s.setNonce none, St.SEC_STATE)
  else
    match s.nonceDue.dev.sec.nonce with
    | none => (s.nonceDue, St.NONCE_EXPIRED)
    | some n =>
      if Config.sha384 key ≠ s.dev.fuses.ownerHash then (s.refuse source 0, St.SIG_INVALID)
      else if Config.ecdsaVerify key (Config.sha384 (n ++ s.dev.fuses.uid ++ leBytes 4 scope)) sig = false then
        (s.refuse source 1, St.SIG_INVALID)
      else
        let s1 := ((s.setNonce none).wr wSec Reg.SEC_STATUS_LIFECYCLE 2).wr wSec Reg.SEC_STATUS_SCOPE scope
        (s1.event Ev.DEBUG_REOPENED 0 scope source 0, St.SUCCESS)

/-- SEC_CHALLENGE. -/
def secChallenge (j : Job) (s : State) : Answer :=
  match s.newNonce with
  | (some n, s1) => okA (s1.jobWrite j j.hostAddr n)
  | (none, s1) => failA s1 St.SEC_LOCKOUT

/-- SEC_RESPONSE. -/
def secResponse (j : Job) (s : State) : Answer :=
  let d := s.hostRd (s.jobLink j) j.hostAddr 193
  let r := (s.countMoved 30 193).response 0 (j.le 8 4) (d.take 97) (d.drop 97)
  if r.2 = St.SUCCESS then okRes r.1 (leBytes 1 r.1.lifecycle) else failA r.1 r.2

/-- The exchange over JTAG (R617). -/
def State.jtagSec (s : State) (x : SecReq) : State :=
  if s.devState = 0 then s
  else
    match x with
    | .challenge =>
      match s.newNonce with
      | (some n, s1) => s1.emit (.jtag n)
      | (none, s1) => s1
    | .response scope key sig => (s.response 1 scope.toNat key sig).1

/-- SEC_LOCK (R616, R618). -/
def secLock (j : Job) (s : State) : Answer :=
  if s.lifecycle ≠ 0 ∨ j.le 8 4 ≠ 0x4C4F434B then failA s St.SEC_STATE
  else
    let s1 := { s with dev := { s.dev with fuses := { s.dev.fuses with locked := true } } }
    okA ((s1.wr wSec Reg.SEC_STATUS_LIFECYCLE 1).closeDebug.event Ev.LIFECYCLE_LOCKED 0 0 0 0)

/-- A key slot (R615). -/
def State.keySlot (s : State) (k : Nat) : KeySlot := tabGet (fun _ => {}) s.dev.fuses.slots k

/-- SEC_FUSE operation 0 (R618). -/
def secRevoke (j : Job) (s : State) : Answer :=
  let k := j.byte 0 5
  let others := (rangeFrom 0 4).any (fun i => decide (i ≠ k) && !(s.keySlot i).revoked)
  if 1 < j.byte 0 4 ∨ 4 ≤ k ∨ ((s.keySlot k).revoked = false ∧ others = false) then failA s St.SEC_STATE
  else okA { s with dev := { s.dev with fuses := { s.dev.fuses with
    slots := tabSet (fun _ => {}) s.dev.fuses.slots k { s.keySlot k with revoked := true } } } }

/-- SEC_FUSE operation 1 (R618). -/
def secFloor (j : Job) (s : State) : Answer :=
  let v := j.le 8 4
  if v < s.dev.fuses.floor then failA s St.SEC_STATE
  else okA { s with dev := { s.dev with fuses := { s.dev.fuses with floor := v } } }

/-- Bytes drawn from one free value. -/
def State.freeBytes (s : State) (n : Nat) : List Byte × State :=
  let d := s.draw (8 * n)
  (leBytes n d.1.toNat, d.2)

/-- A key slot as SEC_QUERY reports it: bit 0 programmed, bit 1 revoked (DESIGN CHOICE: log entry 161). -/
def KeySlot.state (x : KeySlot) : Byte := BitVec.ofNat 8 (b2n x.hash.isSome + 2 * b2n x.revoked)

/-- SEC_QUERY (R618): SEC.STATUS, SEC.UID, a byte for each slot, and the floor; the rest is 0 (DESIGN CHOICE: log entry 161). -/
def secQuery (j : Job) (s : State) : Answer :=
  let slots := (rangeFrom 0 4).map (fun k => (s.keySlot k).state)
  let d := s.regBytes wSec 1 ++ s.regBytes (wSec + 0x10) 4 ++ slots ++ leBytes 4 s.dev.fuses.floor
  okRes (s.jobWrite j j.hostAddr (padTo 64 d)) (leBytes 4 64)

/-! ### JTAG (R616) -/

/-- Whether microcode debug is open: in OPEN, or in REOPENED with scope bit 1 (R616; log entry 163). -/
def State.debugOpen (s : State) : Bool :=
  decide (s.lifecycle = 0) || (decide (s.lifecycle = 2) && (s.rd wSec Reg.SEC_STATUS_SCOPE).testBit 1)

/-- A word of a control store: 32 bytes. -/
def State.storeWordOf (s : State) (e : Nat) (other : Bool) (w : Nat) : List Byte :=
  if 512 ≤ e then s.svcBytes w
  else
    let a := s.csBank (e / 64)
    padTo 32 (slice (csWhole (s.store (e / 64) (if other then 1 - a else a))) (1408 + 32 * w) 32)

/-- A TAP instruction is carried out as the lifecycle allows; the service engines are 512 to 527. What IDCODE and SAMPLE
return is free. -/
def State.jtag (s : State) (x : JtagOp) : State :=
  let dev (d : DevSt) : State := { s with dev := d }
  match x with
  | .bypass => s
  | .idcode =>
    let r := s.freeBytes 4
    r.2.emit (.jtag r.1)
  | .sample =>
    let r := s.freeBytes 4
    r.2.emit (.jtag r.1)
  | .extest => s
  | .halt e =>
    if s.debugOpen = false ∨ s.dev.halted.contains e.val then s else dev { s.dev with halted := e.val :: s.dev.halted }
  | .resume e =>
    if s.debugOpen = false then s
    else dev { s.dev with halted := s.dev.halted.erase e.val, stepping := s.dev.stepping.erase e.val }
  | .step e =>
    if s.debugOpen = false ∨ s.dev.halted.contains e.val = false ∨ s.dev.stepping.contains e.val then s
    else dev { s.dev with stepping := e.val :: s.dev.stepping }
  | .readReg e r =>
    if s.debugOpen = false then s else s.emit (.jtag (leBytes 8 ((s.engine (e.val / 64) (e.val % 64)).reg r.val).toNat))
  | .readStore e other w => if s.debugOpen = false then s else s.emit (.jtag (s.storeWordOf e.val other w.toNat))

/-! ### Rows -/

/-- The detail that a command gives source i; one that it does not list is 0 (R605). -/
def detailOf (l : List (Fin 32 × Word32)) (i : Nat) : Nat :=
  match l.find? (fun e => decide (e.1.val = i)) with
  | some e => e.2.toNat
  | none => 0

/-- Row FAULT_OCCURRENCE. -/
def execFaultOccurrence (w : FWin) (mask live ended : Word32) (info : List (Fin 32 × Word32)) (s : State) : Out :=
  .next (s.occurrence w mask.toNat live.toNat ended.toNat (detailOf info))
/-- Row FAULT_COPY_MISCOMPARE. -/
def execFaultCopyMiscompare (w : FWin) (s : State) : Out := .next (s.copyMiscompare w)
/-- Row SAFE_REACHED. -/
def execSafeReached (s : State) : Out := .next s.safeReached
/-- Row FAULT_FN_MASK. -/
def execFaultFnMask (j : Job) (s : State) : Out := jobRow { op := 0xA0, owner := false } j s faultFnMask
/-- Row SAFE_ENTER. -/
def execSafeEnter (j : Job) (s : State) : Out := jobRow { op := 0xA1 } j s safeEnter
/-- Row SEC_CHALLENGE. -/
def execSecChallenge (j : Job) (s : State) : Out := jobRow { op := 0xA2 } j s secChallenge
/-- Row SEC_RESPONSE. -/
def execSecResponse (j : Job) (s : State) : Out := jobRow { op := 0xA3 } j s secResponse
/-- Row JTAG_SEC_RESPONSE. -/
def execJtagSecResponse (x : SecReq) (s : State) : Out := .next (s.jtagSec x)
/-- Row NONCE_EXPIRY. -/
def execNonceExpiry (s : State) : Out := .next s.nonceDue
/-- Row SEC_LOCK. -/
def execSecLock (j : Job) (s : State) : Out := jobRow { op := 0xA4 } j s secLock
/-- Row SEC_FUSE_REVOKE; an operation of no row is this row's to refuse. -/
def execSecFuseRevoke (j : Job) (s : State) : Out := opRow { op := 0xA5 } j s (decide (j.byte 0 4 ≠ 1)) secRevoke
/-- Row SEC_FUSE_FLOOR. -/
def execSecFuseFloor (j : Job) (s : State) : Out := opRow { op := 0xA5 } j s (decide (j.byte 0 4 = 1)) secFloor
/-- Row SEC_QUERY. -/
def execSecQuery (j : Job) (s : State) : Out := jobRow { op := 0xA6 } j s secQuery
/-- Row JTAG_DEBUG_ACCESS. -/
def execJtagDebugAccess (x : JtagOp) (s : State) : Out := .next (s.jtag x)

end Sys2Proof.Machine
end

