-- ==== Sys2Proof/Machine/Boot.lean ====
section
/-!
DEFINITION. Bring-up: resets and straps, the boot flash, the device states, and the pins of the resets (ch. 22, R620 to
R641).
-/
namespace Sys2Proof.Machine

/-! ### What a reset leaves (R626 to R628) -/

/-- Every window of fault registers. -/
def allWindows : List FWin :=
  [.glob, .hif, .qmgr, .peg, .purlin] ++
  (rangeFrom 0 128).filterMap (fun n => if h : n < 128 then some (.port ⟨n, h⟩) else none) ++
  (rangeFrom 0 8).filterMap (fun p => if h : p < 8 then some (.pipe ⟨p, h⟩) else none) ++
  [.ridge, .esch, .joist, .thyme] ++
  (rangeFrom 0 4).filterMap (fun x => if h : x < 4 then some (.dmc ⟨x, h⟩) else none) ++
  [.mint, .gauge, .scribe, .sec, .boot] ++
  (rangeFrom 0 256).filterMap (fun f => if h : f < 256 then some (.fn ⟨f, h⟩) else none)

/-- The straps as sampled (R626): PCIE_BIFUR, PCIE_OWNER, OSC_SEL and SMB_ADDR. -/
structure Straps where
  bifur : Nat := 0
  owner : Nat := 0
  osc : Nat := 0
  smb : Nat := 0
  deriving DecidableEq, Repr

/-- Links of a PCIE_BIFUR value (R405), and the VFs that each then holds (R410). -/
def strapLinks (b : Nat) : Nat := b + 1
def strapVfs (b : Nat) : Nat := 252 / (b + 1)

/-- The owner link in effect (R406). -/
def Straps.ownerLink (x : Straps) : Nat := if x.owner < strapLinks x.bifur then x.owner else 0

/-- The registers that report the straps (R405, R406, R410, R427, R432, R387). -/
def State.strapRegs (s : State) (x : Straps) : State :=
  let n := strapLinks x.bifur
  let conflict := decide (n ≤ x.owner)
  let s1 := ((s.wr wHif Reg.HIF_STRAPS_BIFUR x.bifur).wr wHif Reg.HIF_STRAPS_OWNER_LINK x.ownerLink).wr wHif
    Reg.HIF_STRAPS_STRAP_CONFLICT (b2n conflict)
  let c := (rangeFrom 0 4).map (fun j => if j < n then strapVfs x.bifur else 0)
  let s2 := forEach (rangeFrom 0 4) (fun j s =>
    let b := wHif + 16 * j
    ((s.wr b Reg.HIF_LINK_STATUS_PRESENT (b2n (decide (j < n)))).wr b Reg.HIF_VF_MAP_VF_BASE ((vfBases c).getD j 0)).wr b
      Reg.HIF_VF_MAP_VF_COUNT (c.getD j 0)) s1
  let s3 := s2.wr wThyme Reg.THYME_STATUS_OSC_SEL x.osc
  if x.ownerLink = 0 then s3
  else
    forEach (rangeFrom 0 8) (fun p s =>
      let s1 := forEach (rangeFrom 0 16) (fun r s => s.wr (wPipe p + 8 * r) Reg.PIPE_MORTISE_RANGE_A_OWNER x.ownerLink) s
      forEach (rangeFrom 0 4) (fun t s => s.wr (tenantBase p t) Reg.PIPE_TENANT_A_OWNER x.ownerLink) s1) s3

/-- The registers that the fuses give (R72, R142, R616, R618). -/
def State.fuseRegs (s : State) : State :=
  let z := s.dev.fuses
  let s1 := s.wr wSec Reg.SEC_STATUS_LIFECYCLE (b2n z.locked)
  let s2 := forEach (rangeFrom 0 4) (fun w s => s.setReg (wSec + 0x10 + 4 * w) (leNat (slice z.uid (4 * w) 4))) s1
  let s3 := forEach z.seeds (fun e s => forEach (rangeFrom 0 8) (fun p s => s.setReg (wPipe p + e.1) e.2) s) s2
  forEach z.fixed (fun e s => (s.setReg (wPort (e.1 / 2) + 0x80 + 4 * (e.1 % 2)) e.2).calTotals (e.1 / 2)) s3

/-- The machine while a reset holds it: everything at reset but what no reset touches, which is the fuses, the THERMTRIP
latch, the level of PERST_N, the hosts' memories, and the model's own fields. STATE is 0, COLD. -/
def State.blank (s : State) : State :=
  let links := (rangeFrom 0 4).foldl (fun (t : Tab LinkSt) j =>
    tabSet (fun _ => {}) t j { perst := (s.link j).perst }) []
  let d : DevSt := { fuses := s.dev.fuses, thermtrip := s.dev.thermtrip, cold := s.dev.cold, warmPin := s.dev.warmPin }
  let h : HostIf := { links := links }
  let s1 : State := { pending := s.pending, hostMem := s.hostMem, out := s.out, freeCtr := s.freeCtr, host := h, dev := d,
                      wipes := s.wipes + 1 }
  s1.wr wGlobal Reg.GLOBAL_DEV_STATE_STATE 0

/-- The straps in effect. -/
def State.straps (s : State) : Straps :=
  let owner := s.rd wHif Reg.HIF_STRAPS_OWNER_LINK
  let b := s.rd wHif Reg.HIF_STRAPS_BIFUR
  { bifur := b, owner := if s.rdb wHif Reg.HIF_STRAPS_STRAP_CONFLICT then strapLinks b else owner,
    osc := s.rd wThyme Reg.THYME_STATUS_OSC_SEL, smb := s.dev.smbStrap }

/-- A machine in reset with its straps and fuses. -/
def State.strapped (s : State) (x : Straps) : State :=
  let s1 := (s.strapRegs x).fuseRegs
  { s1 with dev := { s1.dev with smbStrap := x.smb } }

/-- FUSED is entered: boot reads the primary copy, and links whose PERST_N is released start training (R629, R631, R635,
R636). `osc` tells whether the Thyme PLL locks (R624). -/
def State.enterFused (s : State) (old : Nat) (osc : Bool) : State :=
  let s1 := s.wr wBoot Reg.BOOT_STATUS_PHASE 1
  let s2 := forEach (rangeFrom 0 4) (fun j s =>
    if s.linkPresent j && !(s.link j).perst then s.setLink j { s.link j with training := true } else s) s1
  let s3 := s2.changeState old 1
  let s4 := if s3.rdb wHif Reg.HIF_STRAPS_STRAP_CONFLICT then s3.faultLevel .hif 8 0 true else s3
  let s5 := if osc then s4 else s4.faultLevel .thyme 0 0 true
  forEach (allWindows.filter (fun w => s5.winActive w)) (fun w s => s.updateWin w) s5

/-- POR_N falls: a cold reset (R627). -/
def State.porAssert (s : State) : State :=
  let s1 := s.blank
  { s1 with dev := { s1.dev with cold := true } }

/-- THYME source 0's LIVE while a reset holds the device: with no oscillator it is 1, and FUSED sets the source (R624). -/
def State.oscLevel (s : State) (osc : Bool) : State := if osc then s else s.wr wThyme (Reg.FLT_LIVE_I 0) 1

/-- POR_N rises: the straps are sampled and the device enters FUSED (R626, R631), unless WARM_RST_N holds it. -/
def State.porRelease (s : State) (x : Straps) (osc : Bool) : State :=
  if s.dev.cold = false then s
  else
    let s0 := { s with dev := { s.dev with cold := false } }
    let s1 := s0.strapped x
    if s1.dev.warmPin then s1.oscLevel osc else s1.enterFused 0 osc

/-- The registers of a window that a warm reset keeps (R601, R602, R611, R628). -/
def keptOffsets : List Nat := [0xF000, 0xF014, 0xF018, 0xF01C, 0xF020, 0xF024, 0xF030]

/-- A warm reset: everything resets but what R628 keeps. The device is left in reset. -/
def State.warmReset (s : State) (cause : Nat) : State :=
  let s1 := s.blank.strapped s.straps
  let keep (a : Nat) (x : State) : State := x.setReg a (s.reg a)
  let s2 := forEach allWindows (fun w x => forEach keptOffsets (fun o x => keep (s.winBase w + o) x) x) s1
  let s3 := forEach [0x08, 0x10, 0x14, 0x18, 0x1C] (fun o x => keep (wGlobal + o) x) s2
  (s3.wr wGlobal Reg.GLOBAL_RESET_CAUSE_CAUSE cause).incSat wGlobal Reg.GLOBAL_RESET_CAUSE_WARM_COUNT 1

/-- A warm reset that leads to FUSED at once (R629). -/
def State.warmBoot (s : State) (cause : Nat) : State :=
  if s.devState = 0 then s else (s.warmReset cause).enterFused s.devState s.counting

/-- WARM_RST_N falls (R625, R628): the reset holds until it rises. -/
def State.warmAssert (s : State) : State :=
  if s.dev.warmPin then s
  else if s.devState = 0 then { s with dev := { s.dev with warmPin := true } }
  else
    let s1 := (s.warmReset 1).oscLevel s.counting
    { s1 with dev := { s1.dev with warmPin := true, prior := s.devState } }

/-- WARM_RST_N rises: boot resumes from FUSED (R629). -/
def State.warmRelease (s : State) : State :=
  if s.dev.warmPin = false then s
  else
    let s1 := { s with dev := { s.dev with warmPin := false, prior := 0 } }
    if s1.dev.cold then s1
    else (s1.wr wThyme (Reg.FLT_LIVE_I 0) 0).enterFused s.dev.prior s.counting

/-! ### The boot flash (R634, R635) -/

/-- Length of a copy by its WORD_COUNT. -/
def fwLen (g : List Byte) : Nat := 512 + 32 * imW g 16

/-- Check 1 of R635: the header. -/
def fwHeaderOk (g : List Byte) : Bool :=
  decide (imW g 0 = 0x46575653 ∧ imH g 4 = 1 ∧ 1 ≤ imW g 16 ∧ imW g 16 ≤ 16384 ∧ imW g 20 = fwLen g ∧ imB g 12 < 4) &&
    (firstBad (zeroBytes g 13 3 ++ zeroBytes g 24 40 ++ zeroBytes g 161 95 ++ zeroBytes g 352 160)).isNone

/-- The order of the first failing check of a copy, and its FW_REJECTED code; none when it passes (R635). The microwords
are checked after the signature, as R263 checks them. -/
def State.fwFail (s : State) (g : List Byte) : Option (Nat × Nat) :=
  let k := imB g 12 % 4
  let slot := s.keySlot k
  let key := slice g 64 97
  let part := g.take 256 ++ (g.take (fwLen g)).drop 512
  if fwHeaderOk g = false then some (1, 3)
  else if slot.hash = none then some (2, 0)
  else if slot.revoked then some (3, 1)
  else if slot.hash ≠ some (Config.sha384 key) then some (4, 2)
  else if Config.ecdsaVerify key (Config.sha384 part) (slice g 256 96) = false then some (5, 3)
  else if ((rangeFrom 0 (imW g 16)).all (fun w => (firstBad (wordChecks g (imW g 16) (512 + 32 * w))).isNone)) = false then
    some (5, 3)
  else if imW g 8 < s.dev.fuses.floor then some (6, 4)
  else none

/-- BOOTED is entered with a copy's image (R243, R244, R631, R632, R637). -/
def State.enterBooted (s : State) (g : List Byte) (fallback : Bool) : State :=
  let b := wBoot
  let s1 := ((s.wr b Reg.BOOT_STATUS_PHASE 5).wr b Reg.BOOT_STATUS_FALLBACK (b2n fallback)).wr b Reg.BOOT_STATUS_SLOT (imB g 12 % 4)
  let s2 := (s1.wr b Reg.BOOT_STATUS_IMAGE_ID (imH g 6)).wr b Reg.BOOT_SEC_VERSION_SEC_VERSION (imW g 8)
  let s3 := (s2.wr wGlobal Reg.GLOBAL_DEV_STATE_FW_OK 1).wr wGlobal Reg.GLOBAL_DEV_STATE_FALLBACK (b2n fallback)
  let s4 := { s3 with dev := { s3.dev with svcStore := (g.take (fwLen g)).drop 512, heldEnable := [] } }
  let s5 := forEach (rangeFrom 0 16) (fun v s => if v < 14 then s.setSvc v 1 v else s.setSvc v 3 31) s4
  let s6 := (s5.changeState 1 2).trainStacks
  forEach s.dev.heldEnable (fun f s => if (s.queue f).st = .absent then s.adminCreate f else s) s6

/-- Whether a read of the flash returned no data: 0xF for the whole header (R635). -/
def noData (g : List Byte) : Bool := (padTo 512 (g.take 512)).all (fun b => decide (b.toNat = 0xFF))

/-- A flash copy has been read, after `retries` reads that returned no data, and is checked (R635); one that is itself without data
has been read again three times. -/
def State.flashChecked (s : State) (g : List Byte) (retries : Nat) : State :=
  let ph := s.rd wBoot Reg.BOOT_STATUS_PHASE
  if s.devState ≠ 1 ∨ (ph ≠ 1 ∧ ph ≠ 3) then s
  else
    let tries := if noData g then 3 else retries
    let s0 := forEach (rangeFrom 0 tries) (fun _ s => (s.inc wBoot Reg.BOOT_RETRIES_RETRIES 1).fault .boot 0 0) s
    match s.fwFail g with
    | none => s0.enterBooted g (decide (ph = 3))
    | some (order, code) =>
      let s1 := s0.event Ev.FW_REJECTED 0 (imB g 12 % 4) code (imW g 8)
      let f := if ph = 1 then Reg.BOOT_STATUS_PRIMARY_FAIL else Reg.BOOT_STATUS_FALLBACK_FAIL
      ((s1.fault .boot 1 0).wr wBoot f (1 + order)).wr wBoot Reg.BOOT_STATUS_PHASE (if ph = 1 then 3 else 6)

/-! ### BOOTED to READY (R631, R632) -/

/-- TRAINED is entered when all the work of BOOTED has ended. -/
def State.maybeTrained (s : State) : State :=
  if s.devState = 2 ∧ s.dev.memInit ∧ s.dev.serdes ∧ s.dev.dramTrained then s.changeState 2 3 else s

/-- On-die memory initialisation ends; its tables and arrays are as the reset left them, and the pipelines' head cells are
taken from the free list that it has built (R270, R632). -/
def State.memInitDone (s : State) : State :=
  if s.devState ≠ 2 ∨ s.dev.memInit then s
  else ({ s.fillHeads with dev := { s.dev with memInit := true } }).maybeTrained

/-- The ports that use the lane at port n's position, in one group mode or another (R42). -/
def lanePorts (n : Nat) : List Nat :=
  if n % 16 < 12 then [n] else distinct [n, n / 16 * 16 + 12, n / 2 * 2]

/-- SerDes calibration ends; bit n of `failed` is the lane at port n's position, which stays failed until a reset (R42, R632). -/
def State.serdesDone (s : State) (failed : Nat) : State :=
  if s.devState ≠ 2 ∨ s.dev.serdes then s
  else
    let bad := (rangeFrom 0 128).filter (fun n => failed.testBit n)
    let s1 := { s with dev := { s.dev with serdes := true, laneBad := bad } }
    (forEach bad (fun n s => forEach (lanePorts n) (fun k s => s.levelPort k 2 n true) s) s1).maybeTrained

/-- DRAM boot training ends (R536, R632). -/
def State.dramDone (s : State) (good : Nat) : State :=
  if (s.devState ≠ 2 ∧ s.devState ≠ 5) ∨ s.dev.dramTrained then s
  else
    let s1 := s.stacksTrained good
    ({ s1 with dev := { s1.dev with dramTrained := true } }).maybeTrained

/-- The EM areas of the ONLINE stacks are cleared: READY (R631, R632, R640). -/
def State.emClearDone (s : State) : State :=
  if s.devState ≠ 3 then s
  else
    let ok := (rangeFrom 0 4).foldl (fun a x => if s.stackState x = 2 then a + 2 ^ x else a) 0
    let s1 := (s.wr wGlobal Reg.GLOBAL_DEV_STATE_STACK_OK ok).wr wGlobal Reg.GLOBAL_DEV_STATE_BOOT_MS (min 65535 s.sinceReset)
    s1.changeState 3 4

/-! ### Rows -/

/-- Row POR_N_ASSERT. -/
def execPorNAssert (s : State) : Out := .next s.porAssert
/-- Row POR_N_RELEASE: the straps as sampled, and whether SYNC_OSC_IN lets the Thyme PLL lock. -/
def execPorNRelease (bifur owner osc : Fin 4) (smb : Fin 8) (oscGood : Bool) (s : State) : Out :=
  .next (s.porRelease { bifur := bifur.val, owner := owner.val, osc := osc.val, smb := smb.val } oscGood)
/-- Row WARM_RST_N_ASSERT. -/
def execWarmRstNAssert (s : State) : Out := .next s.warmAssert
/-- Row WARM_RST_N_RELEASE. -/
def execWarmRstNRelease (s : State) : Out := .next s.warmRelease
/-- Row FLASH_COPY_CHECKED: the copy as read, and the reads that were retried. -/
def execFlashCopyChecked (g : List Byte) (retries : Fin 4) (s : State) : Out := .next (s.flashChecked g retries.val)
/-- Row MEM_INIT_DONE. -/
def execMemInitDone (s : State) : Out := .next s.memInitDone
/-- Row SERDES_CALIB_DONE. -/
def execSerdesCalibDone (failed : BitVec 128) (s : State) : Out := .next (s.serdesDone failed.toNat)
/-- Row BOOT_TRAINING_DONE: which stacks trained. -/
def execBootTrainingDone (good : BitVec 4) (s : State) : Out := .next (s.dramDone good.toNat)
/-- Row EM_CLEAR_DONE. -/
def execEmClearDone (s : State) : Out := .next s.emClearDone

end Sys2Proof.Machine
end

