-- ==== Sys2Proof/Machine/Regs.lean ====
section
/-!
DEFINITION. Host and SMBus accesses to the registers: the maps of BAR0, BAR2 and BAR4, pairs and latches, the writable
registers, and reads with the views that are computed (R9 to R14, R408 to R418, R573, R574, R601 to R614, R637, R639).
-/
namespace Sys2Proof.Machine

/-! ### Maps -/

/-- Key of the register at BAR0 offset `off` of function f; none where the function has no register there (R11, R19,
R413, R414). The fault registers of ports 113 to 127 lie above the port windows; those of the ports below would lie in
another port's window, whose own registers the offset reads (log entry 10). -/
def State.regKey (s : State) (f off : Nat) : Option Nat :=
  if f = s.owner then
    if 0x180000 ≤ off ∧ off < 0x18F000 then
      (if off % 0x1000 < 0x40 then
         some (0x1000000000 + 0x10000 * (113 + (off - 0x180000) / 0x1000) + 0xF000 + off % 0x1000)
       else none)
    else if off < 0x900000 then some off else none
  else if off = 0 then some wGlobal
  else if off = 8 then some (wHif + 8)
  else if (0x1000 ≤ off ∧ off < 0x1100) ∨ (0x2000 ≤ off ∧ off < 0x3000) ∨ (0x4000 ≤ off ∧ off < 0x6400) ∨
      (0x7000 ≤ off ∧ off < 0x7050) ∨ (0xF000 ≤ off ∧ off < 0xF040) then some (wFn f + off)
  else none

/-- The window whose fault registers hold key a (R601). -/
def State.winAt (s : State) (a : Nat) : Option FWin :=
  allWindows.find? (fun w => decide (s.winBase w + 0xF000 ≤ a ∧ a < s.winBase w + 0xF040))

/-- The firmware has been verified since the last reset, so the device has left FUSED for BOOTED (R631, R637). -/
def State.booted (s : State) : Bool :=
  decide (s.devState = 2 ∨ s.devState = 3 ∨ s.devState = 4) || s.rdb wGlobal Reg.GLOBAL_DEV_STATE_FW_OK

/-- Whether the register at key a reads and writes normally: every one from BOOTED, and in FUSED the function windows
and GLOBAL, HIF, BOOT, SEC and the fault registers (R637). -/
def State.served (s : State) (a : Nat) : Bool :=
  s.booted || decide (a < 0x20000 ∨ (0x840000 ≤ a ∧ a < 0x860000) ∨ 0x1000000 ≤ a) || (s.winAt a).isSome

/-- Whether key a is the _LO half of a pair (R10).
FAULT_SEV_LO and FAULT_SEV_HI are two registers of 16 sources each in R601 and are no pair here (DESIGN CHOICE: log entry
189). -/
def State.pairLo (s : State) (f a : Nat) : Bool :=
  let b := s.fnBase f
  decide (a = b + 0x2000 ∨ a = b + 0x2008 ∨ a = wGlobal + 0x18 ∨ a = wHif + 0x10 ∨ a = wThyme + 0x0C ∨
    a = wThyme + 0x1C ∨
    (wPeg + 0x1000 ≤ a ∧ a < wPeg + 0x1800 ∧ a % 0x20 = 4) ∨
    (0x100000 ≤ a ∧ a < 0x180000 ∧ a % 0x1000 = 0x0C) ∨
    (0x200000 ≤ a ∧ a < 0x400000 ∧ (a % 0x40000 = 0x3000C ∨ a % 0x40000 = 0x30018)) ∨
    (wEsch + 0x1000 ≤ a ∧ a < wEsch + 0x1000 + 0x10 * 141 ∧ a % 0x10 = 4) ∨
    (wGauge + 0x1000 ≤ a ∧ a < wGauge + 0x1000 + 0x10 * 576 ∧ a % 0x10 = 8)) ||
  (match s.winAt a with
   | some w => decide (a = s.winBase w + 0xF01C)
   | none => false)

/-- The latch of function f for a BAR, and the same set (R10). -/
def State.latched (s : State) (f bar : Nat) : Nat := (tabGet (fun _ => 0) s.host.latch (8 * f + bar)).toNat
def State.latchHi (s : State) (f bar v : Nat) : State :=
  { s with host := { s.host with latch := tabSet (fun _ => 0) s.host.latch (8 * f + bar) (BitVec.ofNat 32 v) } }

/-! ### Registers that report state held elsewhere -/

/-- State, cause and index fields of a queue as QMGR.QUEUE_A (R473). -/
def queueA (x : Queue) : Nat :=
  if x.st = .absent then 0
  else x.st.code * 2 ^ 30 + x.cause % 8 * 2 ^ 27 + phaseBit x * 2 ^ 26 + x.typ.code * 2 ^ 21 + x.idx * 2 ^ 8 + x.fn

/-- Queues not ABSENT that satisfy a test. -/
def State.liveQueues (s : State) (ok : Nat → Queue → Bool) : Nat :=
  (s.host.queues.filter (fun e => decide (e.2.st ≠ .absent) && ok e.1 e.2)).length

/-- FN.INFO (R432). -/
def State.fnInfo (s : State) (f : Nat) : Nat :=
  b2n (decide (f = s.owner)) * 2 ^ 31 + b2n (decide (4 ≤ f)) * 2 ^ 30 + s.fnLink f * 2 ^ 8 + f

/-- FN.QUOTA (R432). -/
def State.fnQuota (s : State) (f : Nat) : Nat :=
  s.liveQueues (fun _ x => decide (x.fn = f)) % 2 ^ 10 * 2 ^ 16 + s.quota f % 2 ^ 9

/-- FN.ADMIN_STATUS (R464). -/
def State.adminStatus (s : State) (f : Nat) : Nat :=
  let x := s.queue f
  if x.st = .absent then 0 else x.st.code * 2 ^ 30 + x.cause % 8 * 2 ^ 27 + x.head % 2 ^ 16

/-- STATE of PIPE[p].TENON_ENGINE[t] (R246). -/
def State.engineState (s : State) (p t : Nat) : Nat :=
  let e := s.engine p t
  if e.parked then 5
  else if e.busy = false then 0
  else if 64 - (s.pipe p).parkGoal ≤ t ∧ s.csReserve p ≤ t then 4
  else if e.handler ≠ 0 then 3
  else if e.wait ≠ 0 then 2 else 1

/-- PIPE[p].TENON_ENGINE[t] (R246). -/
def State.engineWord (s : State) (p t : Nat) : Nat :=
  let e := s.engine p t
  s.engineState p t * 2 ^ 29 + e.bank % 2 * 2 ^ 28 + e.wait % 8 * 2 ^ 24 + e.upc % 2 ^ 14

/-- Engines of pipeline p that satisfy a test. -/
def State.engineCount (s : State) (p : Nat) (ok : Engine → Bool) : Nat :=
  ((rangeFrom 0 64).filter (fun t => ok (s.engine p t))).length

/-- The register at offset o of PIPE[p] (R103, R178, R246). -/
def State.pipeView (s : State) (p o : Nat) : Nat :=
  let bank := s.rd (wPipe p) Reg.PIPE_TRUSS_STATUS_ACTIVE_BANK
  let image := s.store p (s.csBank p)
  let parked (first : Nat) : Nat :=
    (rangeFrom 0 32).foldl (fun a t => a + b2n (s.engine p (first + t)).parked * 2 ^ t) 0
  if 0x1000 ≤ o ∧ o < 0x2000 then
    (let g := s.graph p bank
     if s.graphValid p ∧ (o - 0x1000) / 16 < grNodes g then imW g (grNode ((o - 0x1000) / 16) + o % 16) else 0)
  else if o = 0x20000 then setBits (s.reg (wPipe p + o)) 31 31 (b2n s.anyOffline)
  else if o = 0x30014 then
    s.engineCount p (fun e => e.busy && decide (e.wait ≠ 0)) * 2 ^ 16 + s.engineCount p (·.parked) * 2 ^ 8 +
      s.engineCount p (·.busy)
  else if o = 0x30018 then parked 0
  else if o = 0x3001C then parked 32
  else if 0x30100 ≤ o ∧ o < 0x30200 then s.engineWord p ((o - 0x30100) / 4)
  else if 0x31000 ≤ o ∧ o < 0x31400 then csDispatch image ((o - 0x31000) / 4)
  else if 0x31400 ≤ o ∧ o < 0x31480 then csVector image ((o - 0x31400) / 4) &&& 0xBFFF
  else s.reg (wPipe p + o)

/-- The reset value of the register at key a: what a reset leaves there with the present straps and fuses (R12, R637). -/
def State.resetWord (s : State) (a : Nat) : Nat := (s.blank.strapped s.straps).reg a

/-- What the register at key a reads for function f, without the effects of a read. -/
def State.peek (s : State) (f a : Nat) : Nat :=
  let b := s.fnBase f
  if s.served a = false then s.resetWord a
  else if a = b + 0x1000 then s.fnInfo f
  else if a = b + 0x1004 then s.fnQuota f
  else if a = b + 0x201C then s.adminStatus f
  else if a = wGlobal + 0x108 then s.reg (wGlobal + 0x100) &&& s.reg (wGlobal + 0x104)
  else if a = wQmgr then
    s.host.queues.foldl (fun n e => n + e.2.jobs.length) 0 % 2 ^ 16 * 2 ^ 16 + s.liveQueues (fun _ _ => true)
  else if wQmgr + 0x4000 ≤ a ∧ a < wQmgr + 0xC000 then
    (let x := s.queue ((a - wQmgr - 0x4000) / 8)
     if a % 8 = 0 then queueA x else if x.st = .absent then 0 else x.tail % 2 ^ 16 * 2 ^ 16 + x.head % 2 ^ 16)
  else if 0x200000 ≤ a ∧ a < 0x400000 then s.pipeView ((a - 0x200000) / 0x40000) (a % 0x40000)
  else if wRidge + 0x10000 ≤ a ∧ a < wRidge + 0x10000 + 0x100 * 141 ∧ a % 16 = 4 then
    setBits (s.reg a) 30 30 (b2n (s.lossless ((a - wRidge - 0x10000) / 0x100) ((a - wRidge) / 16 % 16)))
  else if a = wThyme + 4 then s.clock.ns
  else if a = wThyme + 8 then (tabGet (fun _ => (0, 0)) s.host.timeLatch f).2
  else if a = wThyme + 0x0C then (tabGet (fun _ => (0, 0)) s.host.timeLatch f).1 % 2 ^ 32
  else if a = wThyme + 0x10 then (tabGet (fun _ => (0, 0)) s.host.timeLatch f).1 / 2 ^ 32
  else if a = wThyme + 0x30 then
    (match s.thyme.todRx with
     | [] => 0
     | x :: _ => 2 ^ 8 + x.toNat)
  else if a % 0x1000 = 4 ∧ (s.winAt a).isSome then s.reg a ||| s.justSet a
  else if wDmc 0 ≤ a ∧ a < wDmc 4 ∧
      ((0x10 ≤ a % 0x10000 ∧ a % 0x10000 < 0x1C) ∨ (0x100 ≤ a % 0x10000 ∧ a % 0x10000 < 0x134)) then
    s.reg (wDmc 0 + a % 0x10000)
  else if 0x1000000 ≤ a ∧ a < 0x1000000000 ∧ (a % 0x1000000 = 0xF00C ∨ a % 0x1000000 = 0xF010) then 0
  else s.reg a

/-! ### Reads -/

/-- A read of the register at key a by function f (R10, R361, R380): its value and what the read changes. -/
def State.readReg (s : State) (f a : Nat) : Nat × State :=
  if s.pairLo f a then (s.peek f a, s.latchHi f 0 (s.peek f (a + 4)))
  else if 4 ≤ a ∧ s.pairLo f (a - 4) then (s.latched f 0, s)
  else if s.served a = false then (s.peek f a, s)
  else if a = wThyme + 4 then
    let s1 := { s with host := { s.host with timeLatch := tabSet (fun _ => (0, 0)) s.host.timeLatch f (s.clock.sec, s.frac) } }
    (s.peek f a, s1.latchHi f 0 (s.clock.sec / 2 ^ 32))
  else if a = wThyme + 0x30 then (s.peek f a, { s with thyme := { s.thyme with todRx := s.thyme.todRx.tail } })
  else (s.peek f a, s)

/-- The Gauge page that BAR4 of function f shows at a page offset (R417, R573). -/
def State.bar4Page (s : State) (f k : Nat) : Option Nat :=
  if f = s.owner then some k else tabGet (fun _ => none) s.host.pageSlot (16 * f + k)

/-- A read of `len` bytes of BAR4 (R417, R574). -/
def State.readBar4 (s : State) (f off len : Nat) : Nat × State :=
  let v := match s.bar4Page f (off / 4096) with
    | some p => s.slotNow p (off % 4096 / 8)
    | none => 0
  if len = 8 ∧ off % 8 = 0 then (v, s)
  else if len = 4 ∧ off % 8 = 0 then (v % 2 ^ 32, s.latchHi f 4 (v / 2 ^ 32))
  else if len = 4 ∧ off % 8 = 4 then (s.latched f 4, s)
  else (0, s)

/-- Size of a BAR of function f; 0 where it has none (R413). -/
def State.barSize (s : State) (f bar : Nat) : Nat :=
  let o := decide (f = s.owner)
  if bar = 0 then (if o then 0x1000000 else 0x10000)
  else if bar = 2 then 0x1000
  else if bar = 4 then (if o then 0x200000 else 0x10000)
  else 0

/-- A read of `len` bytes at an offset of a BAR, and its answer (R9, R10, R408, R442). One that names a function which the device
does not have addresses no implemented BAR. -/
def State.memRead (s : State) (f bar off len : Nat) : State :=
  if s.devState = 0 then s
  else if s.fnExists f = false then s.emit (.unsupported f)
  else if (s.fn f).mse = false ∨ s.barSize f bar ≤ off then (s.faultFn f 1 off).emit (.unsupported f)
  else
    let r : Nat × State :=
      if bar = 4 then s.readBar4 f off len
      else if bar = 2 ∨ len ≠ 4 ∨ off % 4 ≠ 0 then (0, s)
      else match s.regKey f off with
        | some a => s.readReg f a
        | none => (0, s)
    r.2.emit (.readData f bar off (BitVec.ofNat 64 r.1))

/-- Whether a BAR0 offset is a _LO register of function f, or a BAR4 offset a low half (R10, R574). -/
def State.isLo (s : State) (f off : Nat) (bar4 : Bool) : Bool :=
  if bar4 then decide (off % 8 = 0)
  else match s.regKey f off with
    | some a => s.pairLo f a
    | none => false

/-! ### Writes -/

/-- The function that reaches a fault window: its own for a function window, else the owner (R414). -/
def State.winFn (s : State) : FWin → Nat
  | .fn f => f.val
  | _ => s.owner

/-- Whether a window is a function window, whose MASK, SEV, INJECT and FAULT_CTL ignore writes (R606, R614). -/
def State.isFnWin (s : State) : FWin → Bool
  | .fn f => decide (f.val ≠ s.owner)
  | _ => false

/-- 1s written to FAULT_STATUS (R602): a bit whose LIVE is 1, or that an event sets in the same cycle, stays (R13). -/
def State.statusClear (s : State) (w : FWin) (v : Nat) : State :=
  let b := s.winBase w
  let live := s.rd b Reg.FLT_LIVE_LIVE
  (s.clearBits (b + 0xF000) (v - (v &&& live))).updateWin w

/-- 1 written to VALID of FAULT_FIRST (R13, R603). -/
def State.firstClear (s : State) (w : FWin) : State := s.clearBits (s.winBase w + 0xF014) (2 ^ 31)

/-- FAULT_MASK written (R604, R606). -/
def State.maskWrite (s : State) (w : FWin) (v : Nat) : State :=
  if s.isFnWin w then s else (s.wr (s.winBase w) Reg.FLT_MASK_MASK (v &&& s.winSources w)).updateWin w

/-- SEV of 16 sources written from a word: a value below the reset value leaves the reset value (R606). -/
def State.sevWrite (s : State) (w : FWin) (hi : Bool) (v : Nat) : State :=
  if s.isFnWin w then s
  else
    let b := s.winBase w
    forEach (rangeFrom (if hi then 16 else 0) 16) (fun i x =>
      if s.winSources w &&& 2 ^ i = 0 then x
      else
        let low := bits (regReset (b + (Reg.FLT_SEV_I i).off)) (Reg.FLT_SEV_I i).hi (Reg.FLT_SEV_I i).lo
        x.wr b (Reg.FLT_SEV_I i) (max low (v / 4 ^ (i % 16) % 4))) s

/-- 1s written to FAULT_INJECT (R614). -/
def State.inject (s : State) (w : FWin) (v : Nat) : State :=
  if s.isFnWin w ∨ v &&& s.winSources w = 0 then s else s.faultsW wh2 w v (fun _ => 0) true

/-- 1 written to DUP_INJECT (R608, R614). -/
def State.dupInject (s : State) (w : FWin) : State := if s.isFnWin w then s else s.miscompare w

/-- 1 written to SAFE of GLOBAL.SAFE_CAUSE (R13, R609). -/
def State.safeClear (s : State) : State := s.clearBits (wGlobal + 0x10) (2 ^ 31)

/-- 1s written to GAUGE.OVF[w] (R13, R599). -/
def State.ovfClear (s : State) (w v : Nat) : State :=
  if s.booted then (s.clearBits (wGauge + 0x100 + 4 * w) v).updateOvf else s

/-- 1 written to STEP_FLAG (R13, R403). -/
def State.stepClear (s : State) : State := if s.booted then s.clearBits (wThyme + 0x2000) (2 ^ 26) else s

/-- The owner's write of GLOBAL.WARM_RESET (R628). -/
def State.keyWrite (s : State) (v : Nat) : State := if v = 0x57525354 then s.warmBoot 2 else s

/-- A _LO write is held for the writing function and the pair (R10); one of an admin base has no effect while the admin queue is not
ABSENT (R464), and no other pair is writable. -/
def State.loWrite (s : State) (f a v : Nat) : State :=
  if (s.queue f).st ≠ .absent then s
  else { s with host := { s.host with heldLo := tabSet (fun _ => none) s.host.heldLo a (some (BitVec.ofNat 32 v)) } }

/-- A _HI write of the pair at a commits the pair; of the pairs, only the admin ring bases are writable, while the admin
queue is ABSENT (R10, R464). -/
def State.hiWrite (s : State) (f a v : Nat) : State :=
  let b := s.fnBase f
  let held := tabGet (fun _ => none) s.host.heldLo a
  let s1 := { s with host := { s.host with heldLo := tabSet (fun _ => none) s.host.heldLo a none } }
  if (a = b + 0x2000 ∨ a = b + 0x2008) ∧ (s.queue f).st = .absent then
    let s2 := s1.setReg (a + 4) v
    match held with
    | some lo => s2.setReg a lo.toNat
    | none => s2
  else s1

/-- A write of word k of an MSI-X table entry of function f (R418). -/
def State.msixWrite (s : State) (f o v : Nat) : State :=
  if (if f = s.owner then 0x6400 else 0x6000) ≤ o then s
  else s.setReg (s.fnBase f + o) (if o % 16 = 12 then v % 2 else if o % 16 = 0 then v / 4 * 4 else v)

/-- The effect of a write at a fault register's offset (R601). -/
def State.faultWrite (s : State) (w : FWin) (o v : Nat) : State :=
  if o = 0xF000 then s.statusClear w v
  else if o = 0xF008 then s.maskWrite w v
  else if o = 0xF00C then s.sevWrite w false v
  else if o = 0xF010 then s.sevWrite w true v
  else if o = 0xF014 then (if v.testBit 31 then s.firstClear w else s)
  else if o = 0xF028 then s.inject w v
  else if o = 0xF02C then (if v % 2 = 1 then s.dupInject w else s)
  else s

/-- A 32-bit write of the register at key a by function f (R11, R12). -/
def State.writeReg (s : State) (f a v : Nat) : State :=
  let b := s.fnBase f
  if s.inReset f ∧ b + 0x2000 ≤ a ∧ a < b + 0x3000 then s
  else if s.pairLo f a then s.loWrite f a v
  else if 4 ≤ a ∧ s.pairLo f (a - 4) then s.hiWrite f (a - 4) v
  else if a = b + 0x2010 ∨ a = b + 0x2014 then (if (s.queue f).st = .absent then s.setReg a (v % 2 ^ 13) else s)
  else if a = b + 0x2018 then (if v % 2 = 1 then s.adminEnable f else s.adminDisable f)
  else if b + 0x4000 ≤ a ∧ a < b + 0x6400 then s.msixWrite f (a - b) v
  else if a = wGlobal + 0x0C then s.keyWrite v
  else if a = wGlobal + 0x10 then (if v.testBit 31 then s.safeClear else s)
  else if a = wGlobal + 0x100 ∨ a = wGlobal + 0x104 then s.setReg a (v % 2 ^ 16)
  else if wGauge + 0x100 ≤ a ∧ a < wGauge + 0x148 then s.ovfClear ((a - wGauge - 0x100) / 4) v
  else if a = wThyme + 0x2000 then (if v.testBit 26 then s.stepClear else s)
  else match s.winAt a with
    | some w => s.faultWrite w (a - s.winBase w) v
    | none => s

/-- An aligned 32-bit write at an offset of a BAR (R9, R12, R415, R417). -/
def State.memWrite (s : State) (f bar off v : Nat) : State :=
  s.posted f off (fun s =>
    if s.barSize f bar ≤ off then s.faultFn f 1 off
    else if bar = 2 then
      (if off % 8 = 0 then s.tailDoorbell f (off / 8) (v % 2 ^ 16) else s.headDoorbell f (off / 8) (v % 2 ^ 16))
    else if bar = 0 then
      match s.regKey f off with
      | some a => s.writeReg f a v
      | none => s
    else s)

/-! ### Configuration space (R1, R407 to R413, R418, R420, R424) -/

/-- Word i of BARs of which the one that starts there has a size (0 for none) and may be prefetchable: 64-bit BARs, whose address
bits below the size read 0 (R413; log entry 177). -/
def barWord (size : Nat) (prefetch : Bool) (w : Nat) (high : Bool) : Nat :=
  if size = 0 then 0 else if high then w else w / size * size % 2 ^ 32 + 4 + 8 * b2n prefetch

/-- Word i of the BARs of function f, or of the VF BARs of a PF, whose windows are those of one VF (R413). -/
def State.cfgBar (s : State) (f i : Nat) (vf : Bool) : Nat :=
  let x := s.fn f
  let b := i / 2 * 2
  if 4 ≤ f then 0
  else barWord (s.barSize (if vf then 4 else f) b) (decide (b = 4)) (tabGet (fun _ => 0) (if vf then x.vfBars else x.bars) i)
    (decide (i % 2 = 1))

/-- The capabilities of a function (R407): SR-IOV is a PF's. -/
def hasCap (f : Nat) : PcieCap → Bool
  | .ari | .msix | .aer | .flr => true
  | .srIov => decide (f < 4)
  | .msi | .intx | .ats | .pri | .pasid => false

/-- A field of configuration space read (R407, R410, R413, R418; the codes are PCI Express's: log entry 177). VF m of a PF has the
routing identifier m, so that VF Offset and VF Stride are 1 (R410). -/
def State.cfgValue (s : State) (f : Nat) : CfgGet → Nat
  | .vendorId => 0x1F1D
  | .deviceId => if f < 4 then 0x7160 else 0x7161
  | .initialVfs => if f < 4 then s.vfCount f else 0
  | .totalVfs => if f < 4 then s.vfCount f else 0
  | .vfOffset => b2n (decide (f < 4))
  | .vfStride => b2n (decide (f < 4))
  | .bar i => s.cfgBar f i.val false
  | .vfBar i => s.cfgBar f i.val true
  | .cap c => b2n (hasCap f c)
  | .maxSpeed => 6
  | .maxWidth => s.strapWidth (s.fnLink f)
  | .flit => 1
  | .mpsSupported => 2
  | .tag10 => 1
  | .tag14 => 1
  | .aspmSupport => 2
  | .ctoRanges => 14
  | .ctoDisSupported => 1
  | .msixSize => if f = s.owner then 575 else 511
  | .mse => b2n (s.fn f).mse
  | .bme => b2n (s.fn f).bme
  | .msixEn => b2n (s.fn f).msixEn
  | .fnMask => b2n (s.fn f).fnMask
  | .vfEn => b2n (s.fn f).vfEn
  | .cto => (s.fn f).cto
  | .ctoDis => b2n (s.fn f).ctoDis
  | .mps => (s.fn f).mps
  | .mrrs => (s.fn f).mrrs
  | .aspmL1 => b2n (s.link (s.fnLink f)).aspm

/-- The address that the BAR of function f starts at: its own, or that of VF m at the VF BAR of its PF (R410, R413). -/
def State.barBase (s : State) (f bar : Nat) : Nat :=
  let size := s.barSize f bar
  let at_ (t : Tab Nat) : Nat := tabGet (fun _ => 0) t bar / size * size + 2 ^ 32 * tabGet (fun _ => 0) t (bar + 1)
  if f < 4 then at_ (s.fn f).bars
  else
    let pf := s.fnLink f
    at_ (s.fn pf).vfBars + (f - s.vfBase pf) * size

/-- The function and the BAR of link j that an address lies in, with Memory Space Enable 1 (R408, R413). -/
def State.decodeAddr (s : State) (j addr : Nat) : Option (Nat × Nat) :=
  ((rangeFrom 0 256).filter (fun f => decide (s.fnLink? f = some j) && (s.fn f).mse)).findSome? (fun f =>
    ([0, 2, 4].find? (fun bar => decide (s.barBase f bar ≤ addr ∧ addr < s.barBase f bar + s.barSize f bar))).map (fun bar =>
      (f, bar)))

/-- ASPM L1 of link j enabled or disabled: enabled, the link, idle between two commands, goes to L1, and it comes back for a message
or when ASPM is disabled (R407, R420; log entry 228). -/
def State.setAspm (s : State) (j : Nat) (on : Bool) : State :=
  let s1 := s.setLink j { s.link j with aspm := on }
  if on = false then s1.leaveL1 j
  else if (s1.link j).up ∧ s1.inL0 j then (s1.setLink j { s1.link j with l1 := true }).setL0 j false else s1

/-- A field of configuration space written. -/
def State.cfgWrite (s : State) (f : Nat) (c : CfgSet) : State :=
  let x := s.fn f
  match c with
  | .mse b => s.setFn f { x with mse := b }
  | .bme b => (s.setFn f { x with bme := b }).updateInt
  | .msixEn b => (s.setFn f { x with msixEn := b }).updateInt
  | .fnMask b => (s.setFn f { x with fnMask := b }).updateInt
  | .vfEn b => if f < 4 then s.setFn f { x with vfEn := b } else s
  | .cto v => (s.setFn f { x with cto := v.val }).updateCpl (s.fnLink f)
  | .ctoDis b => (s.setFn f { x with ctoDis := b }).updateCpl (s.fnLink f)
  | .mps v => s.setFn f { x with mps := v.val }
  | .mrrs v => s.setFn f { x with mrrs := v.val }
  | .bar i v => if f < 4 then s.setFn f { x with bars := tabSet (fun _ => 0) x.bars i.val v.toNat } else s
  | .vfBar i v => if f < 4 then s.setFn f { x with vfBars := tabSet (fun _ => 0) x.vfBars i.val v.toNat } else s
  | .aspmL1 b => if f < 4 then s.setAspm f b else s

/-- A non-posted request to function f, which the device completes: with data, without, or as unsupported where no function or no
BAR is addressed (R408). -/
def State.hostRequest (s : State) (f : Nat) (r : HostReq) : State :=
  if s.devState = 0 then s
  else if s.fnExists f = false then s.emit (.unsupported f)
  else match r with
    | .read bar off len => s.memRead f bar.val off.toNat len.toNat
    | .readAt addr len =>
      (match s.decodeAddr (s.fnLink f) addr.toNat with
       | some (g, bar) => s.memRead g bar (addr.toNat - s.barBase g bar) len.toNat
       | none => s.emit (.unsupported f))
    | .cfgRead g => s.emit (.config f (s.cfgValue f g))
    | .cfgWrite c => (s.cfgWrite f c).emit (.configDone f)

/-! ### SMBus (R639) -/

/-- Whether the target answers at a 7-bit address: at 0x58 + SMB_ADDR, and not in COLD (R626, R639). -/
def State.smbTakes (s : State) (dst : BitVec 7) : Bool := decide (s.devState ≠ 0 ∧ dst.toNat = 0x58 + s.dev.smbStrap)

/-- The CRC of the packet error check with one more bit of the message: the polynomial is x^8 + x^2 + x + 1 (PRESUMED: log entry
248). -/
def pecBit (c : Nat) (bit : Bool) : Nat := Nat.xor (2 * c % 256) (if Nat.testBit c 7 = bit then 0 else 7)

/-- The packet error code of a message (R639). -/
def pecOf (bytes : List Byte) : Nat :=
  bytes.foldl (fun c b => [7, 6, 5, 4, 3, 2, 1, 0].foldl (fun c i => pecBit c (b.toNat.testBit i)) c) 0

/-- Whether a write's PEC is right, if the master sends one: it covers the address byte, the command code and the data. -/
def pecOk (dst : BitVec 7) (bytes : List Byte) (pec : Option Byte) : Bool :=
  pec.all (fun c => decide (pecOf (BitVec.ofNat 8 (2 * dst.toNat) :: bytes) = c.toNat))

/-- Whether REG_READ serves a BAR0 offset: the GLOBAL, HIF, BOOT, SEC and MINT windows, and the fault registers. -/
def smbServed (off : Nat) (faults : Bool) : Bool :=
  decide (off < 0x20000 ∨ (0x800000 ≤ off ∧ off < 0x810000) ∨ (0x840000 ≤ off ∧ off < 0x860000)) || faults

/-- The word that REG_READ returns; a read over SMBus changes nothing, so that a _HI half is the present one. -/
def State.smbWord (s : State) (off : Nat) : Nat :=
  match s.regKey s.owner off with
  | none => 0
  | some a => if off % 4 = 0 ∧ smbServed off (s.winAt a).isSome then s.peek s.owner a else 0

/-! ### The rows -/

/-- REGISTER_WRITE (R12): a 32-bit aligned write; at a register with a row of its own, what that row does. -/
def execRegisterWrite (f : Fin 256) (bar : Fin 6) (off : BitVec 24) (v : Word32) (s : State) : Out :=
  .next (if off.toNat % 4 = 0 then s.memWrite f.val bar.val off.toNat v.toNat else s)
/-- MISALIGNED_ACCESS (R9): an access of BAR0 or BAR2 of another width or alignment has no effect, and a read returns
zero. -/
def execMisalignedAccess (f : Fin 256) (bar2 write : Bool) (off : BitVec 24) (len : BitVec 13) (s : State) : Out :=
  .next (if len.toNat = 4 ∧ off.toNat % 4 = 0 then s
    else if write then s.posted f.val off.toNat (fun s => s)
    else s.memRead f.val (if bar2 then 2 else 0) off.toNat len.toNat)
/-- PAIR_LO_READ (R10, R574). -/
def execPairLoRead (f : Fin 256) (bar4 : Bool) (off : BitVec 24) (s : State) : Out :=
  .next (if s.isLo f.val off.toNat bar4 then s.memRead f.val (if bar4 then 4 else 0) off.toNat 4 else s)
/-- PAIR_HI_READ (R10, R574): `off` is that of the _HI half. -/
def execPairHiRead (f : Fin 256) (bar4 : Bool) (off : BitVec 24) (s : State) : Out :=
  .next (if 4 ≤ off.toNat ∧ s.isLo f.val (off.toNat - 4) bar4 then s.memRead f.val (if bar4 then 4 else 0) off.toNat 4
    else s)
/-- PAIR_LO_WRITE (R10). -/
def execPairLoWrite (f : Fin 256) (off : BitVec 24) (v : Word32) (s : State) : Out :=
  .next (if s.isLo f.val off.toNat false then s.memWrite f.val 0 off.toNat v.toNat else s)
/-- PAIR_HI_WRITE (R10): `off` is that of the _HI half. -/
def execPairHiWrite (f : Fin 256) (off : BitVec 24) (v : Word32) (s : State) : Out :=
  .next (if 4 ≤ off.toNat ∧ s.isLo f.val (off.toNat - 4) false then s.memWrite f.val 0 off.toNat v.toNat else s)
/-- NOW_NS_READ (R361). -/
def execNowNsRead (f : Fin 256) (s : State) : Out := .next (s.memRead f.val 0 (wThyme + 4) 4)
/-- TOD_RX_READ (R380). -/
def execTodRxRead (f : Fin 256) (s : State) : Out := .next (s.memRead f.val 0 (wThyme + 0x30) 4)
/-- OVF_CLEAR (R599), by the owner. -/
def execOvfClear (w : Fin 18) (v : Word32) (s : State) : Out :=
  .next (s.posted s.owner (wGauge + 0x100 + 4 * w.val) (fun s => s.ovfClear w.val v.toNat))
/-- STEP_FLAG_CLEAR (R403), by the owner. -/
def execStepFlagClear (s : State) : Out := .next (s.posted s.owner (wThyme + 0x2000) (fun s => s.stepClear))
/-- FAULT_STATUS_CLEAR (R602), by the function that the window belongs to. -/
def execFaultStatusClear (w : FWin) (v : Word32) (s : State) : Out :=
  .next (s.posted (s.winFn w) 0xF000 (fun s => s.statusClear w v.toNat))
/-- FAULT_FIRST_CLEAR (R603). -/
def execFaultFirstClear (w : FWin) (s : State) : Out := .next (s.posted (s.winFn w) 0xF014 (fun s => s.firstClear w))
/-- FAULT_MASK_WRITE (R604). -/
def execFaultMaskWrite (w : FWin) (v : Word32) (s : State) : Out :=
  .next (s.posted (s.winFn w) 0xF008 (fun s => s.maskWrite w v.toNat))
/-- FAULT_SEV_WRITE (R606): of FAULT_SEV_HI where `hi` is set, else of FAULT_SEV_LO. -/
def execFaultSevWrite (w : FWin) (hi : Bool) (v : Word32) (s : State) : Out :=
  .next (s.posted (s.winFn w) 0xF00C (fun s => s.sevWrite w hi v.toNat))
/-- FAULT_INJECT_WRITE (R614). -/
def execFaultInjectWrite (w : FWin) (v : Word32) (s : State) : Out :=
  .next (s.posted (s.winFn w) 0xF028 (fun s => s.inject w v.toNat))
/-- DUP_INJECT_WRITE (R614). -/
def execDupInjectWrite (w : FWin) (s : State) : Out := .next (s.posted (s.winFn w) 0xF02C (fun s => s.dupInject w))
/-- SAFE_CAUSE_CLEAR (R609), by the owner. -/
def execSafeCauseClear (s : State) : Out := .next (s.posted s.owner (wGlobal + 0x10) (fun s => s.safeClear))
/-- WARM_RESET_KEY_WRITE (R628), by the owner. -/
def execWarmResetKeyWrite (v : Word32) (s : State) : Out :=
  .next (s.posted s.owner (wGlobal + 0x0C) (fun s => s.keyWrite v.toNat))
/-- MMIO_REQUEST (R408). -/
def execMmioRequest (f : Fin 256) (r : HostReq) (s : State) : Out := .next (s.hostRequest f.val r)
/-- SMB_REG_ADDR (R639), a block write of 4 bytes. -/
def execSmbRegAddr (dst : BitVec 7) (v : Word32) (pec : Option Byte) (s : State) : Out :=
  .next (if s.smbTakes dst && pecOk dst (1 :: 4 :: leBytes 4 v.toNat) pec then { s with dev := { s.dev with smbAddr := v.toNat } }
    else s)
/-- SMB_REG_READ (R639). -/
def execSmbRegRead (dst : BitVec 7) (s : State) : Out :=
  .next (if s.smbTakes dst then s.emit (.smbus (leBytes 4 (s.smbWord s.dev.smbAddr))) else s)
/-- SMB_DEV_VECTORS (R639). -/
def execSmbDevVectors (dst : BitVec 7) (s : State) : Out :=
  .next (if s.smbTakes dst then s.emit (.smbus (leBytes 8 s.host.devVec)) else s)
/-- SMB_WARM_RESET (R639), a write of one byte: values other than 0xA5 are ignored. -/
def execSmbWarmReset (dst : BitVec 7) (v : Byte) (pec : Option Byte) (s : State) : Out :=
  .next (if s.smbTakes dst && pecOk dst [4, v] pec && decide (v.toNat = 0xA5) then s.warmBoot 3 else s)

end Sys2Proof.Machine
end

