-- ==== Sys2Proof/Machine/Dispatch.lean ====
section
/-!
DEFINITION. The dispatch: one arm for each command, a direct call of its meaning.
-/
namespace Sys2Proof.Machine

/-- The effect of a command on everything but the queue. -/
def exec (i : Instr) (s : State) : Host.Outcome State Fault Refusal :=
  match i with
  | .registerWrite f bar off v => Sys2Proof.Machine.execRegisterWrite f bar off v s
  | .misalignedAccess f bar2 write off len => Sys2Proof.Machine.execMisalignedAccess f bar2 write off len s
  | .pairLoRead f bar4 off => Sys2Proof.Machine.execPairLoRead f bar4 off s
  | .pairHiRead f bar4 off => Sys2Proof.Machine.execPairHiRead f bar4 off s
  | .pairLoWrite f off v => Sys2Proof.Machine.execPairLoWrite f off v s
  | .pairHiWrite f off v => Sys2Proof.Machine.execPairHiWrite f off v s
  | .nowNsRead f => Sys2Proof.Machine.execNowNsRead f s
  | .todRxRead f => Sys2Proof.Machine.execTodRxRead f s
  | .ovfClear w v => Sys2Proof.Machine.execOvfClear w v s
  | .stepFlagClear => Sys2Proof.Machine.execStepFlagClear s
  | .faultStatusClear w v => Sys2Proof.Machine.execFaultStatusClear w v s
  | .faultFirstClear w => Sys2Proof.Machine.execFaultFirstClear w s
  | .faultMaskWrite w v => Sys2Proof.Machine.execFaultMaskWrite w v s
  | .faultSevWrite w hi v => Sys2Proof.Machine.execFaultSevWrite w hi v s
  | .faultInjectWrite w v => Sys2Proof.Machine.execFaultInjectWrite w v s
  | .dupInjectWrite w => Sys2Proof.Machine.execDupInjectWrite w s
  | .safeCauseClear => Sys2Proof.Machine.execSafeCauseClear s
  | .warmResetKeyWrite v => Sys2Proof.Machine.execWarmResetKeyWrite v s
  | .adminCtlEnable f => Sys2Proof.Machine.execAdminCtlEnable f s
  | .adminCtlDisable f => Sys2Proof.Machine.execAdminCtlDisable f s
  | .sqTailDoorbell f k v => Sys2Proof.Machine.execSqTailDoorbell f k v s
  | .cqHeadDoorbell f k v => Sys2Proof.Machine.execCqHeadDoorbell f k v s
  | .jobFetch => Sys2Proof.Machine.execJobFetch s
  | .undefinedOpcodeJob j => Sys2Proof.Machine.execUndefinedOpcodeJob j s
  | .completionWrite c => Sys2Proof.Machine.execCompletionWrite c s
  | .noticePost q => Sys2Proof.Machine.execNoticePost q s
  | .coalesceTimerExpiry q => Sys2Proof.Machine.execCoalesceTimerExpiry q s
  | .queueStopDone q => Sys2Proof.Machine.execQueueStopDone q s
  | .queueCreate j => Sys2Proof.Machine.execQueueCreate j s
  | .queueDestroy j => Sys2Proof.Machine.execQueueDestroy j s
  | .queueQuery j => Sys2Proof.Machine.execQueueQuery j s
  | .queueCoalesce j => Sys2Proof.Machine.execQueueCoalesce j s
  | .echo j => Sys2Proof.Machine.execEcho j s
  | .injectFrame j => Sys2Proof.Machine.execInjectFrame j s
  | .puntFrameWrite p => Sys2Proof.Machine.execPuntFrameWrite p s
  | .eventRecordPost q r => Sys2Proof.Machine.execEventRecordPost q r s
  | .assignResources j => Sys2Proof.Machine.execAssignResources j s
  | .resourceQuery j => Sys2Proof.Machine.execResourceQuery j s
  | .hifSetup j => Sys2Proof.Machine.execHifSetup j s
  | .pcieLinkUp j rate width flit => Sys2Proof.Machine.execPcieLinkUp j rate width flit s
  | .linkRecovery j us => Sys2Proof.Machine.execLinkRecovery j us s
  | .retryUsExpiry j => Sys2Proof.Machine.execRetryUsExpiry j s
  | .pcieHotReset j hot => Sys2Proof.Machine.execPcieHotReset j hot s
  | .functionLevelReset f => Sys2Proof.Machine.execFunctionLevelReset f s
  | .functionResetDone f => Sys2Proof.Machine.execFunctionResetDone f s
  | .mmioRequest f r => Sys2Proof.Machine.execMmioRequest f r s
  | .completionArrival f tag => Sys2Proof.Machine.execCompletionArrival f tag s
  | .cplTimerExpiry f k tag outside => Sys2Proof.Machine.execCplTimerExpiry f k tag outside s
  | .msixPendingSend f k => Sys2Proof.Machine.execMsixPendingSend f k s
  | .portConfig j => Sys2Proof.Machine.execPortConfig j s
  | .portEnable j => Sys2Proof.Machine.execPortEnable j s
  | .portQuery j => Sys2Proof.Machine.execPortQuery j s
  | .portCal j => Sys2Proof.Machine.execPortCal j s
  | .portPfcSet j => Sys2Proof.Machine.execPortPfcSet j s
  | .portPreemptSet j => Sys2Proof.Machine.execPortPreemptSet j s
  | .portGclLoad j => Sys2Proof.Machine.execPortGclLoad j s
  | .portGclQuery j => Sys2Proof.Machine.execPortGclQuery j s
  | .portEeeSet j => Sys2Proof.Machine.execPortEeeSet j s
  | .portExpressSet j => Sys2Proof.Machine.execPortExpressSet j s
  | .portDomainSet j => Sys2Proof.Machine.execPortDomainSet j s
  | .anResolved n common fec pause => Sys2Proof.Machine.execAnResolved n common fec pause s
  | .anTimerExpiry n => Sys2Proof.Machine.execAnTimerExpiry n s
  | .trainingReceiverReady n => Sys2Proof.Machine.execTrainingReceiverReady n s
  | .ltMaxWaitExpiry n lane => Sys2Proof.Machine.execLtMaxWaitExpiry n lane s
  | .alignmentAchieved n => Sys2Proof.Machine.execAlignmentAchieved n s
  | .linkLoss n cause => Sys2Proof.Machine.execLinkLoss n cause s
  | .varMeasured n rx tx => Sys2Proof.Machine.execVarMeasured n rx tx s
  | .lpiTimerExpiry n => Sys2Proof.Machine.execLpiTimerExpiry n s
  | .twSysTxExpiry n => Sys2Proof.Machine.execTwSysTxExpiry n s
  | .pfcFrameSend n => Sys2Proof.Machine.execPfcFrameSend n s
  | .pfcRefreshExpiry n j => Sys2Proof.Machine.execPfcRefreshExpiry n j s
  | .rxPfcFrame n vec times => Sys2Proof.Machine.execRxPfcFrame n vec times s
  | .rxPauseFrame n quanta => Sys2Proof.Machine.execRxPauseFrame n quanta s
  | .rxMacControlFrame n => Sys2Proof.Machine.execRxMacControlFrame n s
  | .rxPauseTimerExpiry n j => Sys2Proof.Machine.execRxPauseTimerExpiry n j s
  | .verifyTimeExpiry n => Sys2Proof.Machine.execVerifyTimeExpiry n s
  | .verifySucceeded n frag => Sys2Proof.Machine.execVerifySucceeded n frag s
  | .gclChangeTime n => Sys2Proof.Machine.execGclChangeTime n s
  | .gclEntryBoundary n => Sys2Proof.Machine.execGclEntryBoundary n s
  | .rxFrame n mac total bytes last fcs aborted broken frags phy svc => Sys2Proof.Machine.execRxFrame n mac total bytes last fcs aborted broken frags phy svc s
  | .slotGrant p ecc0 ecc1 => Sys2Proof.Machine.execSlotGrant p ecc0 ecc1 s
  | .packetEntry p ecc shadow => Sys2Proof.Machine.execPacketEntry p ecc shadow s
  | .parseResultDelivery p => Sys2Proof.Machine.execParseResultDelivery p s
  | .trussGraphLoad j => Sys2Proof.Machine.execTrussGraphLoad j s
  | .trussShadowWritten p => Sys2Proof.Machine.execTrussShadowWritten p s
  | .trussGraphSwap j => Sys2Proof.Machine.execTrussGraphSwap j s
  | .trussDrainEnd p => Sys2Proof.Machine.execTrussDrainEnd p s
  | .trussGraphRead j => Sys2Proof.Machine.execTrussGraphRead j s
  | .mortiseSearch j => Sys2Proof.Machine.execMortiseSearch j s
  | .mortiseSearchResult p => Sys2Proof.Machine.execMortiseSearchResult p s
  | .floorCreditEarn p => Sys2Proof.Machine.execFloorCreditEarn p s
  | .mortiseProfileSet j => Sys2Proof.Machine.execMortiseProfileSet j s
  | .mortisePortSet j => Sys2Proof.Machine.execMortisePortSet j s
  | .mortiseRead j => Sys2Proof.Machine.execMortiseRead j s
  | .mortiseScrubSet j => Sys2Proof.Machine.execMortiseScrubSet j s
  | .scrubPeriodExpiry p => Sys2Proof.Machine.execScrubPeriodExpiry p s
  | .scrubCheck p ecc => Sys2Proof.Machine.execScrubCheck p ecc s
  | .emBucketReadReturn p k ok => Sys2Proof.Machine.execEmBucketReadReturn p k ok s
  | .lookupResultsReady p k => Sys2Proof.Machine.execLookupResultsReady p k s
  | .learnApply p => Sys2Proof.Machine.execLearnApply p s
  | .noticeApply p => Sys2Proof.Machine.execNoticeApply p s
  | .learnMoveDelete p => Sys2Proof.Machine.execLearnMoveDelete p s
  | .learnNoticePost p => Sys2Proof.Machine.execLearnNoticePost p s
  | .ageTick p => Sys2Proof.Machine.execAgeTick p s
  | .ageingVisit p k => Sys2Proof.Machine.execAgeingVisit p k s
  | .refreshNoticeApply p => Sys2Proof.Machine.execRefreshNoticeApply p s
  | .spillCntRecount b => Sys2Proof.Machine.execSpillCntRecount b s
  | .emMoveRemove => Sys2Proof.Machine.execEmMoveRemove s
  | .tableSetupProfile j => Sys2Proof.Machine.execTableSetupProfile j s
  | .tableSetupPort j => Sys2Proof.Machine.execTableSetupPort j s
  | .tableSetupLearnAge j => Sys2Proof.Machine.execTableSetupLearnAge j s
  | .tableSetupLearnSeeds j => Sys2Proof.Machine.execTableSetupLearnSeeds j s
  | .tableSetupEmSeeds j => Sys2Proof.Machine.execTableSetupEmSeeds j s
  | .tableSetupEventQ j => Sys2Proof.Machine.execTableSetupEventQ j s
  | .tableLookup j => Sys2Proof.Machine.execTableLookup j s
  | .tableDump j => Sys2Proof.Machine.execTableDump j s
  | .updInsert j => Sys2Proof.Machine.execUpdInsert j s
  | .updModify j => Sys2Proof.Machine.execUpdModify j s
  | .updDelete j => Sys2Proof.Machine.execUpdDelete j s
  | .updMove j => Sys2Proof.Machine.execUpdMove j s
  | .batchOpen j => Sys2Proof.Machine.execBatchOpen j s
  | .batchCommit j => Sys2Proof.Machine.execBatchCommit j s
  | .batchAbort j => Sys2Proof.Machine.execBatchAbort j s
  | .updateSetup j => Sys2Proof.Machine.execUpdateSetup j s
  | .tableWriteLand p => Sys2Proof.Machine.execTableWriteLand p s
  | .stealWaitExpiry p arb => Sys2Proof.Machine.execStealWaitExpiry p arb s
  | .stealGapExpiry p => Sys2Proof.Machine.execStealGapExpiry p s
  | .batchDrainStart n => Sys2Proof.Machine.execBatchDrainStart n s
  | .groupParityFlip p => Sys2Proof.Machine.execGroupParityFlip p s
  | .batchDrainEnd n => Sys2Proof.Machine.execBatchDrainEnd n s
  | .normalisationWrite p => Sys2Proof.Machine.execNormalisationWrite p s
  | .abortUndoDone n => Sys2Proof.Machine.execAbortUndoDone n s
  | .drainWarnExpiry p => Sys2Proof.Machine.execDrainWarnExpiry p s
  | .tenonDispatch p => Sys2Proof.Machine.execTenonDispatch p s
  | .nop p t => Sys2Proof.Machine.execNop p t s
  | .mov p t => Sys2Proof.Machine.execMov p t s
  | .add p t => Sys2Proof.Machine.execAdd p t s
  | .sub p t => Sys2Proof.Machine.execSub p t s
  | .and p t => Sys2Proof.Machine.execAnd p t s
  | .or p t => Sys2Proof.Machine.execOr p t s
  | .xor p t => Sys2Proof.Machine.execXor p t s
  | .shl p t => Sys2Proof.Machine.execShl p t s
  | .shr p t => Sys2Proof.Machine.execShr p t s
  | .sar p t => Sys2Proof.Machine.execSar p t s
  | .rol p t => Sys2Proof.Machine.execRol p t s
  | .mul p t => Sys2Proof.Machine.execMul p t s
  | .cmp p t => Sys2Proof.Machine.execCmp p t s
  | .tst p t => Sys2Proof.Machine.execTst p t s
  | .ext p t => Sys2Proof.Machine.execExt p t s
  | .ins p t => Sys2Proof.Machine.execIns p t s
  | .crc p t => Sys2Proof.Machine.execCrc p t s
  | .csum p t => Sys2Proof.Machine.execCsum p t s
  | .ld p t => Sys2Proof.Machine.execLd p t s
  | .st p t => Sys2Proof.Machine.execSt p t s
  | .movb p t => Sys2Proof.Machine.execMovb p t s
  | .srd p t => Sys2Proof.Machine.execSrd p t s
  | .swr p t => Sys2Proof.Machine.execSwr p t s
  | .sadd p t => Sys2Proof.Machine.execSadd p t s
  | .scas p t => Sys2Proof.Machine.execScas p t s
  | .drd p t => Sys2Proof.Machine.execDrd p t s
  | .dwr p t => Sys2Proof.Machine.execDwr p t s
  | .lkp p t => Sys2Proof.Machine.execLkp p t s
  | .mtr p t => Sys2Proof.Machine.execMtr p t s
  | .clone p t => Sys2Proof.Machine.execClone p t s
  | .br p t => Sys2Proof.Machine.execBr p t s
  | .brr p t => Sys2Proof.Machine.execBrr p t s
  | .call p t => Sys2Proof.Machine.execCall p t s
  | .endFrame p t => Sys2Proof.Machine.execEnd p t s
  | .rtn p t => Sys2Proof.Machine.execRtn p t s
  | .time p t => Sys2Proof.Machine.execTime p t s
  | .lookupComplete p t bad => Sys2Proof.Machine.execLookupComplete p t bad s
  | .meterVerdict => Sys2Proof.Machine.execMeterVerdict s
  | .cellsReserved p t => Sys2Proof.Machine.execCellsReserved p t s
  | .stateAccessComplete p ecc => Sys2Proof.Machine.execStateAccessComplete p ecc s
  | .dramAccessComplete p t ok => Sys2Proof.Machine.execDramAccessComplete p t ok s
  | .waitTimerExpiry p t => Sys2Proof.Machine.execWaitTimerExpiry p t s
  | .windowByteArrival p t => Sys2Proof.Machine.execWindowByteArrival p t s
  | .routineLimitReached p t => Sys2Proof.Machine.execRoutineLimitReached p t s
  | .frameBadInterrupt p t => Sys2Proof.Machine.execFrameBadInterrupt p t s
  | .enginePark p t => Sys2Proof.Machine.execEnginePark p t s
  | .engineUnpark p t => Sys2Proof.Machine.execEngineUnpark p t s
  | .tenonCsLoad j => Sys2Proof.Machine.execTenonCsLoad j s
  | .tenonShadowWritten p => Sys2Proof.Machine.execTenonShadowWritten p s
  | .tenonCsSwap j => Sys2Proof.Machine.execTenonCsSwap j s
  | .tenonDrainEnd p => Sys2Proof.Machine.execTenonDrainEnd p s
  | .tenonCsRead j => Sys2Proof.Machine.execTenonCsRead j s
  | .tenonSetup j => Sys2Proof.Machine.execTenonSetup j s
  | .tenonStateRead j => Sys2Proof.Machine.execTenonStateRead j s
  | .tenonStateWrite j => Sys2Proof.Machine.execTenonStateWrite j s
  | .csScrubPass p k => Sys2Proof.Machine.execCsScrubPass p k s
  | .svcHeartbeat v => Sys2Proof.Machine.execSvcHeartbeat v s
  | .svcHeartbeatTimeout v => Sys2Proof.Machine.execSvcHeartbeatTimeout v s
  | .eschDecision n m => Sys2Proof.Machine.execEschDecision n m s
  | .txFrameStart n m => Sys2Proof.Machine.execTxFrameStart n m s
  | .txFrameEnd n m => Sys2Proof.Machine.execTxFrameEnd n m s
  | .launchTimeArrival q => Sys2Proof.Machine.execLaunchTimeArrival q s
  | .wdExpiry n c => Sys2Proof.Machine.execWdExpiry n c s
  | .wdRestoreExpiry n c => Sys2Proof.Machine.execWdRestoreExpiry n c s
  | .mcastHoldExpiry q k => Sys2Proof.Machine.execMcastHoldExpiry q k s
  | .spillWriteConfirm q => Sys2Proof.Machine.execSpillWriteConfirm q s
  | .refillReadReturn q ok => Sys2Proof.Machine.execRefillReadReturn q ok s
  | .cellAudit begins lost doubled => Sys2Proof.Machine.execCellAudit begins lost doubled s
  | .ridgePoolSet j => Sys2Proof.Machine.execRidgePoolSet j s
  | .ridgePairSet j => Sys2Proof.Machine.execRidgePairSet j s
  | .ridgePortSet j => Sys2Proof.Machine.execRidgePortSet j s
  | .ridgeDscpSet j => Sys2Proof.Machine.execRidgeDscpSet j s
  | .ridgeSamplerSet j => Sys2Proof.Machine.execRidgeSamplerSet j s
  | .ridgeMcastSet j => Sys2Proof.Machine.execRidgeMcastSet j s
  | .ridgeDeepSet j => Sys2Proof.Machine.execRidgeDeepSet j s
  | .ridgeQuery j => Sys2Proof.Machine.execRidgeQuery j s
  | .eschPortSet j => Sys2Proof.Machine.execEschPortSet j s
  | .eschNodeSet j => Sys2Proof.Machine.execEschNodeSet j s
  | .eschQueueSet j => Sys2Proof.Machine.execEschQueueSet j s
  | .eschQuery j => Sys2Proof.Machine.execEschQuery j s
  | .meterSet j => Sys2Proof.Machine.execMeterSet j s
  | .meterQuery j => Sys2Proof.Machine.execMeterQuery j s
  | .rxRetxFrame n bytes fcs => Sys2Proof.Machine.execRxRetxFrame n bytes fcs s
  | .rxAck n k => Sys2Proof.Machine.execRxAck n k s
  | .rxNak n k => Sys2Proof.Machine.execRxNak n k s
  | .rxResync n k => Sys2Proof.Machine.execRxResync n k s
  | .retxTimeoutExpiry n receiver => Sys2Proof.Machine.execRetxTimeoutExpiry n receiver s
  | .joistSetup j => Sys2Proof.Machine.execJoistSetup j s
  | .joistRouteSet j => Sys2Proof.Machine.execJoistRouteSet j s
  | .joistRouteQuery j => Sys2Proof.Machine.execJoistRouteQuery j s
  | .joistPortQuery j => Sys2Proof.Machine.execJoistPortQuery j s
  | .timeBusBroadcast => Sys2Proof.Machine.execTimeBusBroadcast s
  | .thymeAdjustRate j => Sys2Proof.Machine.execThymeAdjustRate j s
  | .thymeAdjustSlew j => Sys2Proof.Machine.execThymeAdjustSlew j s
  | .thymeAdjustStep j => Sys2Proof.Machine.execThymeAdjustStep j s
  | .thymeAdjustSet j => Sys2Proof.Machine.execThymeAdjustSet j s
  | .thymeAdjustSetAtPps j => Sys2Proof.Machine.execThymeAdjustSetAtPps j s
  | .thymePulseSet j => Sys2Proof.Machine.execThymePulseSet j s
  | .thymeIoSet j => Sys2Proof.Machine.execThymeIoSet j s
  | .thymePortSet j => Sys2Proof.Machine.execThymePortSet j s
  | .thymeDpllSet j => Sys2Proof.Machine.execThymeDpllSet j s
  | .thymeTodSend j => Sys2Proof.Machine.execThymeTodSend j s
  | .todTransmitStart => Sys2Proof.Machine.execTodTransmitStart s
  | .todTransmitDone => Sys2Proof.Machine.execTodTransmitDone s
  | .pulseEdge k => Sys2Proof.Machine.execPulseEdge k s
  | .ppsOutEdge => Sys2Proof.Machine.execPpsOutEdge s
  | .captureEdge x rising => Sys2Proof.Machine.execCaptureEdge x rising s
  | .ppsInEdge rising => Sys2Proof.Machine.execPpsInEdge rising s
  | .ppsInTimeout => Sys2Proof.Machine.execPpsInTimeout s
  | .todRxByte b => Sys2Proof.Machine.execTodRxByte b s
  | .todRxIdle => Sys2Proof.Machine.execTodRxIdle s
  | .ref10mPresenceChange present off => Sys2Proof.Machine.execRef10mPresenceChange present off s
  | .candidateDisqualified j => Sys2Proof.Machine.execCandidateDisqualified j s
  | .wtrExpiry j ppb => Sys2Proof.Machine.execWtrExpiry j ppb s
  | .dpllLockAchieved d => Sys2Proof.Machine.execDpllLockAchieved d s
  | .holdCtlMode j => Sys2Proof.Machine.execHoldCtlMode j s
  | .reportAcquire j => Sys2Proof.Machine.execReportAcquire j s
  | .reportLocked j => Sys2Proof.Machine.execReportLocked j s
  | .reportLost j => Sys2Proof.Machine.execReportLost j s
  | .reportChange j => Sys2Proof.Machine.execReportChange j s
  | .reportAlive j => Sys2Proof.Machine.execReportAlive j s
  | .reportForget j => Sys2Proof.Machine.execReportForget j s
  | .holdCtlLimits j => Sys2Proof.Machine.execHoldCtlLimits j s
  | .holdCtlTableLoad j => Sys2Proof.Machine.execHoldCtlTableLoad j s
  | .thymeHoldQuery j => Sys2Proof.Machine.execThymeHoldQuery j s
  | .masterTimerExpiry => Sys2Proof.Machine.execMasterTimerExpiry s
  | .holdSecond => Sys2Proof.Machine.execHoldSecond s
  | .tsenseSample v => Sys2Proof.Machine.execTsenseSample v s
  | .pegPoolCreate j => Sys2Proof.Machine.execPegPoolCreate j s
  | .pegPoolDestroy j => Sys2Proof.Machine.execPegPoolDestroy j s
  | .pegReserve j => Sys2Proof.Machine.execPegReserve j s
  | .pegAlloc j => Sys2Proof.Machine.execPegAlloc j s
  | .pegFree j => Sys2Proof.Machine.execPegFree j s
  | .pegAudit j => Sys2Proof.Machine.execPegAudit j s
  | .pegAuditDone => Sys2Proof.Machine.execPegAuditDone s
  | .pegQuery j => Sys2Proof.Machine.execPegQuery j s
  | .puntBufferGrant x => Sys2Proof.Machine.execPuntBufferGrant x s
  | .dmaCopy j => Sys2Proof.Machine.execDmaCopy j s
  | .dmaJobComplete ch => Sys2Proof.Machine.execDmaJobComplete ch s
  | .dmaBeatFailure ch cause pos late => Sys2Proof.Machine.execDmaBeatFailure ch cause pos late s
  | .lateError ch tag => Sys2Proof.Machine.execLateError ch tag s
  | .purlinChannelSet j => Sys2Proof.Machine.execPurlinChannelSet j s
  | .channelStop j => Sys2Proof.Machine.execChannelStop j s
  | .channelStopped ch => Sys2Proof.Machine.execChannelStopped ch s
  | .channelResume j => Sys2Proof.Machine.execChannelResume j s
  | .channelFlush j => Sys2Proof.Machine.execChannelFlush j s
  | .channelPolicy j => Sys2Proof.Machine.execChannelPolicy j s
  | .purlinQuery j => Sys2Proof.Machine.execPurlinQuery j s
  | .dmcRequestArrival port a len write => Sys2Proof.Machine.execDmcRequestArrival port a len write s
  | .dmcCommandIssue x c => Sys2Proof.Machine.execDmcCommandIssue x c s
  | .dmcReadReturn x c ecc => Sys2Proof.Machine.execDmcReadReturn x c ecc s
  | .crcError x c => Sys2Proof.Machine.execCrcError x c s
  | .refreshDue x c => Sys2Proof.Machine.execRefreshDue x c s
  | .dmcTempSample x t => Sys2Proof.Machine.execDmcTempSample x t s
  | .pdTimerExpiry x c => Sys2Proof.Machine.execPdTimerExpiry x c s
  | .patrolScrubPass x off ecc => Sys2Proof.Machine.execPatrolScrubPass x off ecc s
  | .retrainRoundDue => Sys2Proof.Machine.execRetrainRoundDue s
  | .retrainStepStart x => Sys2Proof.Machine.execRetrainStepStart x s
  | .retrainStepDone x c ok => Sys2Proof.Machine.execRetrainStepDone x c ok s
  | .stackFreqChangeStart x => Sys2Proof.Machine.execStackFreqChangeStart x s
  | .stackFreqChangeDone x => Sys2Proof.Machine.execStackFreqChangeDone x s
  | .stackHotExit x => Sys2Proof.Machine.execStackHotExit x s
  | .bootTrainingDone good => Sys2Proof.Machine.execBootTrainingDone good s
  | .dmcSetup j => Sys2Proof.Machine.execDmcSetup j s
  | .dmcPortSet j => Sys2Proof.Machine.execDmcPortSet j s
  | .dmcMapSet j => Sys2Proof.Machine.execDmcMapSet j s
  | .dmcFreqSet j => Sys2Proof.Machine.execDmcFreqSet j s
  | .dmcRetrain j => Sys2Proof.Machine.execDmcRetrain j s
  | .mintEvaluate r => Sys2Proof.Machine.execMintEvaluate r s
  | .clockSwitch => Sys2Proof.Machine.execClockSwitch s
  | .avsSetpointAck => Sys2Proof.Machine.execAvsSetpointAck s
  | .avsAckTimeout => Sys2Proof.Machine.execAvsAckTimeout s
  | .thermtripAssert => Sys2Proof.Machine.execThermtripAssert s
  | .thermtripLatchClear => Sys2Proof.Machine.execThermtripLatchClear s
  | .mintSetup j => Sys2Proof.Machine.execMintSetup j s
  | .mintActSet j => Sys2Proof.Machine.execMintActSet j s
  | .mintFloorSet j => Sys2Proof.Machine.execMintFloorSet j s
  | .mintHold j => Sys2Proof.Machine.execMintHold j s
  | .mintQuery j => Sys2Proof.Machine.execMintQuery j s
  | .bwSubwindowEnd n => Sys2Proof.Machine.execBwSubwindowEnd n s
  | .gaugeDumpDue => Sys2Proof.Machine.execGaugeDumpDue s
  | .gaugeDumpDone ok => Sys2Proof.Machine.execGaugeDumpDone ok s
  | .gaugePcSet j => Sys2Proof.Machine.execGaugePcSet j s
  | .gaugeClear j => Sys2Proof.Machine.execGaugeClear j s
  | .gaugeBwSet j => Sys2Proof.Machine.execGaugeBwSet j s
  | .gaugeDumpSet j => Sys2Proof.Machine.execGaugeDumpSet j s
  | .gaugeSampleRead j => Sys2Proof.Machine.execGaugeSampleRead j s
  | .scribeEventArrival code source firmware p0 p1 p2 => Sys2Proof.Machine.execScribeEventArrival code source firmware p0 p1 p2 s
  | .scribeRateSecond => Sys2Proof.Machine.execScribeRateSecond s
  | .scribeMirrorRepost r => Sys2Proof.Machine.execScribeMirrorRepost r s
  | .scribeRead j => Sys2Proof.Machine.execScribeRead j s
  | .scribeClear j => Sys2Proof.Machine.execScribeClear j s
  | .scribeRateSet j => Sys2Proof.Machine.execScribeRateSet j s
  | .scribeMirrorSet j => Sys2Proof.Machine.execScribeMirrorSet j s
  | .scribeSetup j => Sys2Proof.Machine.execScribeSetup j s
  | .faultOccurrence w mask live ended info => Sys2Proof.Machine.execFaultOccurrence w mask live ended info s
  | .faultCopyMiscompare w => Sys2Proof.Machine.execFaultCopyMiscompare w s
  | .safeReached => Sys2Proof.Machine.execSafeReached s
  | .faultFnMask j => Sys2Proof.Machine.execFaultFnMask j s
  | .safeEnter j => Sys2Proof.Machine.execSafeEnter j s
  | .secChallenge j => Sys2Proof.Machine.execSecChallenge j s
  | .secResponse j => Sys2Proof.Machine.execSecResponse j s
  | .jtagSecResponse x => Sys2Proof.Machine.execJtagSecResponse x s
  | .nonceExpiry => Sys2Proof.Machine.execNonceExpiry s
  | .secLock j => Sys2Proof.Machine.execSecLock j s
  | .secFuseRevoke j => Sys2Proof.Machine.execSecFuseRevoke j s
  | .secFuseFloor j => Sys2Proof.Machine.execSecFuseFloor j s
  | .secQuery j => Sys2Proof.Machine.execSecQuery j s
  | .porNAssert => Sys2Proof.Machine.execPorNAssert s
  | .porNRelease bifur owner osc smb oscGood => Sys2Proof.Machine.execPorNRelease bifur owner osc smb oscGood s
  | .warmRstNAssert => Sys2Proof.Machine.execWarmRstNAssert s
  | .warmRstNRelease => Sys2Proof.Machine.execWarmRstNRelease s
  | .perstNAssert j => Sys2Proof.Machine.execPerstNAssert j s
  | .perstNRelease j => Sys2Proof.Machine.execPerstNRelease j s
  | .flashCopyChecked g retries => Sys2Proof.Machine.execFlashCopyChecked g retries s
  | .memInitDone => Sys2Proof.Machine.execMemInitDone s
  | .serdesCalibDone failed => Sys2Proof.Machine.execSerdesCalibDone failed s
  | .emClearDone => Sys2Proof.Machine.execEmClearDone s
  | .smbRegAddr dst v pec => Sys2Proof.Machine.execSmbRegAddr dst v pec s
  | .smbRegRead dst => Sys2Proof.Machine.execSmbRegRead dst s
  | .smbDevVectors dst => Sys2Proof.Machine.execSmbDevVectors dst s
  | .smbWarmReset dst v pec => Sys2Proof.Machine.execSmbWarmReset dst v pec s
  | .lowPowerIdleReceived n enter => Sys2Proof.Machine.execLowPowerIdleReceived n enter s
  | .candidateQualified j ppb => Sys2Proof.Machine.execCandidateQualified j ppb s
  | .thymePllLock => Sys2Proof.Machine.execThymePllLock s
  | .jtagDebugAccess x => Sys2Proof.Machine.execJtagDebugAccess x s

end Sys2Proof.Machine
end

