-- ==== Sys2Proof/Safety.lean ====
section
/-!
DEFINITION. What counts as a good state and a safe run, in the terms that claims use.
-/
namespace Sys2Proof.Machine

/-- Every memory and the register file are in canonical form: keys strictly rising, and no entry equal to what an
unlisted key reads as, so that equal contents are equal data. -/
def State.canonical (s : State) : Prop :=
  tabWf regDefault s.regs = true ∧ Memory.wf s.hostMem = true ∧ Memory.wf s.dram = true

/-- Fuses b can follow fuses a: a blown bit stays blown (R615, R616), and what no command blows is as it was. -/
def Fuses.follow (a b : Fuses) : Prop :=
  (a.locked = true → b.locked = true) ∧ b.uid = a.uid ∧ b.ownerHash = a.ownerHash ∧ a.floor ≤ b.floor ∧
  (∀ k, (tabGet (fun _ => {}) b.slots k).hash = (tabGet (fun _ => {}) a.slots k).hash) ∧
  (∀ k, (tabGet (fun _ => {}) a.slots k).revoked = true → (tabGet (fun _ => {}) b.slots k).revoked = true) ∧
  b.seeds = a.seeds ∧ b.fixed = a.fixed

/-- The safe-state line has not been raised, so the data plane runs (R31, R609). -/
def State.running (s : State) : Prop := s.dev.safeLine = false

/-! ### Jobs -/

/-- Job j of s is taken by its row: it waits in its queue, carries the row's opcode, passes the row's gates g (R434,
R466, R611, R638), and b is s with the job taken. -/
def State.takes (s : State) (g : Gate) (j : Job) (b : State) : Prop :=
  s.jobReady j = true ∧ j.opcode = g.op ∧ s.gate g j = none ∧ b = s.startJob j

/-- A command ends with SUCCESS: its completion with result r is reported (R445). -/
def State.succeed (u : State) (j : Job) (r : List Byte) : State := u.complete j St.SUCCESS r

/-! ### Host accesses -/

/-- A host access to function f reaches the device: the device is not COLD, the function exists, and its Memory Space
Enable is 1 (R408, R411). -/
@[reducible] def State.reaches (s : State) (f : Nat) : Prop :=
  s.devState ≠ 0 ∧ s.fnExists f = true ∧ (s.fn f).mse = true

/-! ### Microwords -/

/-- Service engine v issues the word w of its firmware, of operation op, with its effect (R243, R250): it runs, is not halted, and the
word waits for nothing, its predicate holds, and the operation is none that a service engine lacks; u is s with the cycle spent. -/
def State.svcIssues (s : State) (v op : Nat) (w : MWord) (u : State) : Prop :=
  v < 16 ∧ s.svcState v = 1 ∧ (s.engine 8 v).handler = 0 ∧ s.mayIssue 8 v = true ∧ w = s.svcWord v ∧
  w.op = op ∧ op ≠ 0xFF ∧ ¬(w.wait = 4 ∧ w.count ≠ 0 ∧ (s.engine 8 v).timed = false) ∧ w.wait ≠ 7 ∧
  (s.engine 8 v).flags.holds w.cond = true ∧ w.lacksSpace = false ∧
  u = (s.wordSpent 8 v).setEngine 8 v { s.engine 8 v with wait := 0, timed := false }

/-- Engine t of group p issues the word w at its UPC, of operation op, with its effect. An engine of a pipeline (R224, R231, R250 to R255)
runs a routine, is not halted, has cycles left after its wait and no FRAME_BAD due, the word waits for nothing and its predicate holds; u
is s with the wait ended and the issue counted. Group 8 is the service engines. -/
def State.issues (s : State) (p t op : Nat) (w : MWord) (u : State) : Prop :=
  (p = 8 ∧ s.svcIssues t op w u) ∨
  (p ≠ 8 ∧ (s.engine p t).busy = true ∧ s.mayIssue p t = true ∧ (s.engine p t).exhausted = false ∧ s.frameBadDue p t = false ∧
    w = s.currentWord p t ∧ w.op = op ∧ op ≠ 0xFF ∧ s.blocked p t w = .go ∧
    (((s.wordSpent p t).endWait p t).engine p t).exhausted = false ∧ (s.engine p t).flags.holds w.cond = true ∧
    u = (((s.wordSpent p t).endWait p t).setEngine p t
      { ((s.wordSpent p t).endWait p t).engine p t with timed := false }).pcEvent (some p) 0x03 1 (fun _ => true)
      { engine := some t, upc := (s.engine p t).upc, cond := awaited (s.engine p t) w, atEnd := false })

/-- An arithmetic word writes its result and, unless its NF is 1, its flags, and takes its cycles (R249, R250). -/
def Engine.gives (e : Engine) (w : MWord) (r : Word64) (f : MFlags) (cycles : Nat) : Engine :=
  (if w.nf then e.setReg w.dst r else (e.setReg w.dst r).setFlags f).next cycles

/-- The microwords of engine t of group p, pipeline p or the service engines, and their operations (R256). -/
def microRows (p : Fin 9) (t : Fin 64) : List (Instr × Nat) :=
  [(.nop p t, 0x00), (.mov p t, 0x01), (.add p t, 0x02), (.sub p t, 0x03), (.and p t, 0x04), (.or p t, 0x05),
   (.xor p t, 0x06), (.shl p t, 0x07), (.shr p t, 0x08), (.sar p t, 0x09), (.rol p t, 0x0A), (.mul p t, 0x0B),
   (.cmp p t, 0x0C), (.tst p t, 0x0D), (.ext p t, 0x0E), (.ins p t, 0x0F), (.crc p t, 0x10), (.csum p t, 0x11),
   (.ld p t, 0x20), (.st p t, 0x21), (.movb p t, 0x22), (.srd p t, 0x28), (.swr p t, 0x29), (.sadd p t, 0x2A),
   (.scas p t, 0x2B), (.drd p t, 0x30), (.dwr p t, 0x31), (.lkp p t, 0x38), (.mtr p t, 0x3C), (.clone p t, 0x40),
   (.br p t, 0x48), (.brr p t, 0x49), (.call p t, 0x4A), (.endFrame p t, 0x4B), (.rtn p t, 0x4C), (.time p t, 0x50)]

/-! ### Job rows -/

/-- The job and the gates of a row that runs a job through the gates of its opcode alone (R434, R466, R611, R638). -/
def jobGate : Instr → Option (Job × Gate)
  | .queueCreate j => some (j, ⟨0x01, false, false⟩)
  | .queueDestroy j => some (j, ⟨0x02, false, false⟩)
  | .queueQuery j => some (j, ⟨0x03, false, false⟩)
  | .queueCoalesce j => some (j, ⟨0x04, false, false⟩)
  | .echo j => some (j, ⟨0x13, false, false⟩)
  | .injectFrame j => some (j, ⟨0x0A, false, true⟩)
  | .assignResources j => some (j, ⟨0x10, true, false⟩)
  | .resourceQuery j => some (j, ⟨0x11, false, false⟩)
  | .hifSetup j => some (j, ⟨0x12, true, false⟩)
  | .portConfig j => some (j, ⟨0x20, false, false⟩)
  | .portEnable j => some (j, ⟨0x21, false, false⟩)
  | .portQuery j => some (j, ⟨0x22, false, false⟩)
  | .portCal j => some (j, ⟨0x23, false, false⟩)
  | .portPfcSet j => some (j, ⟨0x24, false, false⟩)
  | .portPreemptSet j => some (j, ⟨0x25, false, false⟩)
  | .portGclLoad j => some (j, ⟨0x26, false, false⟩)
  | .portGclQuery j => some (j, ⟨0x27, false, false⟩)
  | .portEeeSet j => some (j, ⟨0x28, false, false⟩)
  | .portExpressSet j => some (j, ⟨0x29, false, false⟩)
  | .portDomainSet j => some (j, ⟨0x2A, false, false⟩)
  | .trussGraphRead j => some (j, ⟨0x32, true, false⟩)
  | .mortiseSearch j => some (j, ⟨0x4B, false, true⟩)
  | .mortiseProfileSet j => some (j, ⟨0x4C, true, false⟩)
  | .mortisePortSet j => some (j, ⟨0x4D, true, false⟩)
  | .mortiseRead j => some (j, ⟨0x4E, false, false⟩)
  | .mortiseScrubSet j => some (j, ⟨0x4F, true, false⟩)
  | .tableLookup j => some (j, ⟨0x49, false, false⟩)
  | .tableDump j => some (j, ⟨0x4A, false, false⟩)
  | .updateSetup j => some (j, ⟨0x47, true, false⟩)
  | .tenonCsRead j => some (j, ⟨0x3A, true, false⟩)
  | .tenonSetup j => some (j, ⟨0x3B, true, true⟩)
  | .tenonStateRead j => some (j, ⟨0x3C, true, false⟩)
  | .tenonStateWrite j => some (j, ⟨0x3D, true, false⟩)
  | .ridgePoolSet j => some (j, ⟨0x50, true, false⟩)
  | .ridgePairSet j => some (j, ⟨0x51, false, false⟩)
  | .ridgePortSet j => some (j, ⟨0x52, false, false⟩)
  | .ridgeDscpSet j => some (j, ⟨0x53, true, false⟩)
  | .ridgeSamplerSet j => some (j, ⟨0x54, true, false⟩)
  | .ridgeMcastSet j => some (j, ⟨0x55, true, false⟩)
  | .ridgeDeepSet j => some (j, ⟨0x56, false, false⟩)
  | .ridgeQuery j => some (j, ⟨0x57, false, false⟩)
  | .eschPortSet j => some (j, ⟨0x58, false, true⟩)
  | .eschNodeSet j => some (j, ⟨0x59, false, true⟩)
  | .eschQueueSet j => some (j, ⟨0x5A, false, true⟩)
  | .eschQuery j => some (j, ⟨0x5B, false, false⟩)
  | .meterSet j => some (j, ⟨0x5C, false, false⟩)
  | .meterQuery j => some (j, ⟨0x5D, false, false⟩)
  | .joistSetup j => some (j, ⟨0x60, true, false⟩)
  | .joistRouteSet j => some (j, ⟨0x61, true, false⟩)
  | .joistRouteQuery j => some (j, ⟨0x62, true, false⟩)
  | .joistPortQuery j => some (j, ⟨0x63, true, false⟩)
  | .thymePulseSet j => some (j, ⟨0x69, true, false⟩)
  | .thymeIoSet j => some (j, ⟨0x6A, true, false⟩)
  | .thymePortSet j => some (j, ⟨0x6B, false, false⟩)
  | .thymeDpllSet j => some (j, ⟨0x6C, true, false⟩)
  | .thymeTodSend j => some (j, ⟨0x6D, true, false⟩)
  | .thymeHoldQuery j => some (j, ⟨0x6F, true, false⟩)
  | .pegPoolCreate j => some (j, ⟨0x70, false, false⟩)
  | .pegPoolDestroy j => some (j, ⟨0x71, false, false⟩)
  | .pegReserve j => some (j, ⟨0x72, false, false⟩)
  | .pegAlloc j => some (j, ⟨0x73, false, false⟩)
  | .pegFree j => some (j, ⟨0x74, false, false⟩)
  | .pegAudit j => some (j, ⟨0x75, false, false⟩)
  | .pegQuery j => some (j, ⟨0x76, false, false⟩)
  | .purlinChannelSet j => some (j, ⟨0x79, true, false⟩)
  | .purlinQuery j => some (j, ⟨0x7B, false, false⟩)
  | .dmcSetup j => some (j, ⟨0x80, true, false⟩)
  | .dmcPortSet j => some (j, ⟨0x81, true, false⟩)
  | .dmcMapSet j => some (j, ⟨0x82, true, true⟩)
  | .dmcFreqSet j => some (j, ⟨0x83, true, true⟩)
  | .dmcRetrain j => some (j, ⟨0x84, true, false⟩)
  | .mintSetup j => some (j, ⟨0x88, true, false⟩)
  | .mintActSet j => some (j, ⟨0x89, true, false⟩)
  | .mintFloorSet j => some (j, ⟨0x8A, true, false⟩)
  | .mintHold j => some (j, ⟨0x8B, true, false⟩)
  | .mintQuery j => some (j, ⟨0x8C, true, false⟩)
  | .gaugePcSet j => some (j, ⟨0x90, true, false⟩)
  | .gaugeClear j => some (j, ⟨0x91, true, false⟩)
  | .gaugeBwSet j => some (j, ⟨0x92, true, false⟩)
  | .gaugeDumpSet j => some (j, ⟨0x93, true, false⟩)
  | .gaugeSampleRead j => some (j, ⟨0x94, true, false⟩)
  | .scribeRead j => some (j, ⟨0x98, true, false⟩)
  | .scribeClear j => some (j, ⟨0x99, true, false⟩)
  | .scribeRateSet j => some (j, ⟨0x9A, true, false⟩)
  | .scribeMirrorSet j => some (j, ⟨0x9B, true, false⟩)
  | .scribeSetup j => some (j, ⟨0x9C, true, false⟩)
  | .faultFnMask j => some (j, ⟨0xA0, false, false⟩)
  | .safeEnter j => some (j, ⟨0xA1, true, false⟩)
  | .secChallenge j => some (j, ⟨0xA2, true, false⟩)
  | .secResponse j => some (j, ⟨0xA3, true, false⟩)
  | .secLock j => some (j, ⟨0xA4, true, false⟩)
  | .secQuery j => some (j, ⟨0xA6, true, false⟩)
  | _ => none

/-- The row of a job whose turn in its queue has not come: a command on a graph or a control store while an earlier one
of its queue runs (R98, R239, R451), a search that is refused while an earlier one waits (R132). -/
def rowWaits (c : Instr) (s : State) : Bool :=
  match c with
  | .trussGraphRead j => !s.inTurn j 0x30 0x32
  | .tenonCsRead j => !s.inTurn j 0x38 0x3A
  | .mortiseSearch j => ((s.searchRefused j).isSome || s.halting) && !s.oldestJob j
  | _ => false

/-! ### Esch's nodes -/

/-- The node records recs of a kind may be set by function f, and u is s with them and the bytes read counted (R314, R315): no record is bad, the
ports of every node are f's before and after, no busy node changes its parent, and no queue is left without a path or
express where R317 does not allow it. -/
def State.nodesFit (s : State) (f kind : Nat) (recs : List (Nat × List Byte)) (u : State) : Prop :=
  (∀ e ∈ recs, badNode kind e.2 = false) ∧ (recs.any fun e => !s.holdsPort f (s.nodePort kind e.1)) = false ∧
  (∀ e ∈ recs, (parseNode e.2).parent = (s.node kind e.1).parent ∨ s.nodeBusy kind e.1 = false) ∧
  u = forEach recs (fun e s => s.putNode kind e.1 (parseNode e.2)) (s.countMoved 30 (32 * recs.length)) ∧
  (recs.any fun e => !u.holdsPort f (u.nodePort kind e.1)) = false ∧ u.brokenQueues = []

end Sys2Proof.Machine
end

