-- ==== Sys2Proof/Certificates/Slice0/Obligations.lean ====
section
/-!
DEFINITION. The statements for the provers.
-/
open Sys2Proof Sys2Proof.Machine

/-- A step runs the command at the front of the queue. A step of a state whose queue starts with a command is that
command's effect on the state with the queue's rest; on an empty queue one cycle of Thyme's clock passes, which is
the model's choice (log entry 2). (spec/95_what_each_step_holds.md, spec/01_architecture.md.) -/
def Obligations.StepRunsFront : Prop :=
  (∀ (c : Instr) (s : State) (rest : List Instr), s.pending = c :: rest → 
    step s = exec c { s with pending := rest }) ∧
  (∀ (s : State), s.pending = [] → 
    step s = .next s.idle)

/-- Every command answers a next state and leaves the waiting commands alone. Every command answers a next state in
every state: none faults and none is refused; from a canonical state, the queue of waiting commands is left as it
is. (Choices of the model that it rests on: log entry 6.) (spec/00_scope.md, spec/95_what_each_step_holds.md.) -/
def Obligations.EveryCommandAnswers : Prop :=
  ∀ (c : Instr) (s : State), 
    ∃ t, exec c s = .next t ∧ (s.canonical → t.pending = s.pending)

/-- Every step keeps the memories and the registers in canonical form. If host memory, DRAM and the register file
are in canonical form, keys strictly rising and no entry equal to what an unlisted key reads as, they are in
canonical form after every step. (Choices of the model that it rests on: log entry 8.) (R516, R8, R12.) -/
def Obligations.StepKeepsCanonical : Prop :=
  ∀ (s t : State), s.canonical → step s = .next t → 
    t.canonical

/-- No step unblows a fuse. From every canonical state, every step leaves a blown lock fuse and every blown
revocation fuse blown, does not lower the version floor, and changes neither the identifier, the key hashes nor the
other fuses. (R615, R616, R617.) -/
def Obligations.StepKeepsFuses : Prop :=
  ∀ (s t : State), s.canonical → step s = .next t → 
    s.dev.fuses.follow t.dev.fuses

/-- The state after reset. After a cold reset the device has entered FUSED (log entries 7, 9 and 11), nothing waits,
the memories list nothing, and the registers named read the reset values of their tables. (R54, R178, R211, R424,
R584, R595, R597, R599, R609, R616, R627, R631.) -/
def Obligations.ResetState : Prop :=
  
    State.reset.canonical ∧ State.reset.pending = [] ∧ State.reset.hostMem = [] ∧ State.reset.dram = [] ∧
      State.reset.devState = 1 ∧ State.reset.dev.safeLine = false ∧ State.reset.rd wGlobal
      Reg.GLOBAL_SAFE_CAUSE_SAFE = 0 ∧ State.reset.rd (wGauge + 4 * 127) Reg.GAUGE_BW_BW_WINDOW_US = 1000 ∧
      State.reset.rd (recBase 0) Reg.SCRIBE_REC_D_WATERMARK = 24576 ∧ State.reset.rd (recBase 8)
      Reg.SCRIBE_REC_D_WATERMARK = 1536 ∧ State.reset.rd (recBase 8) Reg.SCRIBE_REC_D_MIRROR_Q = 0xFFFF ∧
      State.reset.rd (recBase 8) Reg.SCRIBE_REC_C_NEXT_SEQ = 1 ∧ State.reset.rd (wScribe + 160)
      Reg.SCRIBE_RATE_LIMIT = 16 ∧ State.reset.csReserve 7 = 4 ∧ State.reset.prioOf 127 15 = 7 ∧
      State.reset.lifecycle = 0 ∧ (State.reset.queue 0).st = .absent

/-- The gates of the commands. A row whose job is not ready or carries another opcode does nothing, and so does a
row whose job's turn in its queue has not come; a ready job whose turn has come and that a gate turns away (the
queue's type, the device's state, SAFE, or the owner function) completes with the gate's status, and nothing but the
record of queues and jobs changes. (Choices of the model that it rests on: log entries 12, 220.) (R434, R466, R486,
R598, R611, R618, R638.) -/
def Obligations.JobGates : Prop :=
  (∀ (c : Instr) (j : Job) (g : Gate) (s : State), jobGate c = some (j, g) → s.jobReady j = false ∨ j.opcode ≠ g.op
    → 
    exec c s = .next s) ∧
  (∀ (c : Instr) (s : State), rowWaits c s = true → 
    exec c s = .next s) ∧
  (∀ (c : Instr) (j : Job) (g : Gate) (s : State) (x : Nat), jobGate c = some (j, g) → s.jobReady j = true ∧
    j.opcode = g.op ∧ rowWaits c s = false → s.gate g j = some x → 
    exec c s = .next ((s.startJob j).complete j x []) ∧ ∃ u : HostIf, exec c s = .next { s with host := u })

/-- When a microword does not issue. An engine of a pipeline that runs nothing or is halted issues nothing; at its
LIMIT, at a bad frame and at opcode 0xFF the engine traps, with the cycles of its wait counted; a word of another
row is left to that row; a word that must wait records what it waits for and since when, or traps if an earlier wait
took it to its LIMIT; a word whose request failed traps with it; and a word whose predicate is false takes one cycle
and nothing else. A service engine issues while it runs; it stops at opcode 0xFF, at a wait for the header window
and at an operation on a space that it lacks. (Choices of the model that it rests on: log entries 81, 96, 241.)
(R223, R224, R231, R232, R233, R250, R251, R253, R255.) -/
def Obligations.MicrowordGates : Prop :=
  (∀ (p : Fin 9) (t : Fin 64) (r : Instr × Nat) (s : State), r ∈ microRows p t ∧ p.val ≠ 8 → (s.engine p.val
    t.val).busy = false ∨ s.mayIssue p.val t.val = false → 
    exec r.1 s = .next s) ∧
  (∀ (p : Fin 9) (t : Fin 64) (r : Instr × Nat) (s : State), r ∈ microRows p t ∧ p.val ≠ 8 → (s.engine p.val
    t.val).busy = true ∧ s.mayIssue p.val t.val = true → (s.engine p.val t.val).exhausted = true → 
    exec r.1 s = .next (((s.wordSpent p.val t.val).endWait p.val t.val).raiseTrap p.val t.val 1 0 0 0)) ∧
  (∀ (p : Fin 9) (t : Fin 64) (r : Instr × Nat) (s u : State) (e : Engine), r ∈ microRows p t ∧ p.val ≠ 8 → e =
    s.engine p.val t.val ∧ e.busy = true ∧ s.mayIssue p.val t.val = true ∧ e.exhausted = false → s.frameBadDue
    p.val t.val = true → u = (s.wordSpent p.val t.val).endWait p.val t.val ∧ (u.engine p.val t.val).exhausted =
    false → 
    exec r.1 s = .next ((u.setEngine p.val t.val { u.engine p.val t.val with badSeen := true }).raiseTrap p.val
      t.val 0x10 0 ((s.wordSpent p.val t.val).engine p.val t.val).upc ((s.wordSpent p.val t.val).engine p.val
      t.val).wait)) ∧
  (∀ (p : Fin 9) (t : Fin 64) (r : Instr × Nat) (s : State), r ∈ microRows p t ∧ p.val ≠ 8 → (s.engine p.val
    t.val).busy = true ∧ s.mayIssue p.val t.val = true ∧ (s.engine p.val t.val).exhausted = false ∧ s.frameBadDue
    p.val t.val = false → (s.currentWord p.val t.val).op = 0xFF → 
    exec r.1 s = .next (((s.wordSpent p.val t.val).endWait p.val t.val).wordTrap p.val t.val 3 0)) ∧
  (∀ (p : Fin 9) (t : Fin 64) (r : Instr × Nat) (s : State), r ∈ microRows p t ∧ p.val ≠ 8 → (s.engine p.val
    t.val).busy = true ∧ s.mayIssue p.val t.val = true ∧ (s.engine p.val t.val).exhausted = false ∧ s.frameBadDue
    p.val t.val = false → (s.currentWord p.val t.val).op ≠ 0xFF ∧ (s.currentWord p.val t.val).op ≠ r.2 → 
    exec r.1 s = .next s) ∧
  (∀ (p : Fin 9) (t : Fin 64) (r : Instr × Nat) (s : State) (w : MWord) (k : Nat), r ∈ microRows p t ∧ p.val ≠ 8 →
    (s.engine p.val t.val).busy = true ∧ s.mayIssue p.val t.val = true ∧ (s.engine p.val t.val).exhausted = false ∧
    s.frameBadDue p.val t.val = false → w = s.currentWord p.val t.val ∧ w.op = r.2 ∧ w.op ≠ 0xFF ∧ s.blocked p.val
    t.val w = .wait k → k ≠ 0 → 
    exec r.1 s = .next (if (s.engine p.val t.val).wait = k then s else if (((s.wordSpent p.val t.val).endWait p.val
      t.val).engine p.val t.val).exhausted then ((s.wordSpent p.val t.val).endWait p.val t.val).raiseTrap p.val
      t.val 1 0 0 0 else s.startWait p.val t.val k)) ∧
  (∀ (p : Fin 9) (t : Fin 64) (r : Instr × Nat) (s u : State) (w : MWord) (k x : Nat), r ∈ microRows p t ∧ p.val ≠
    8 → (s.engine p.val t.val).busy = true ∧ s.mayIssue p.val t.val = true ∧ (s.engine p.val t.val).exhausted =
    false ∧ s.frameBadDue p.val t.val = false → w = s.currentWord p.val t.val ∧ w.op = r.2 ∧ w.op ≠ 0xFF ∧
    s.blocked p.val t.val w = .fail k x → u = (s.wordSpent p.val t.val).endWait p.val t.val ∧ (u.engine p.val
    t.val).exhausted = false → 
    exec r.1 s = .next ((u.takeFailed p.val t.val k x).wordTrap p.val t.val k x)) ∧
  (∀ (p : Fin 9) (t : Fin 64) (r : Instr × Nat) (s d u : State) (w : MWord), r ∈ microRows p t ∧ p.val ≠ 8 →
    (s.engine p.val t.val).busy = true ∧ s.mayIssue p.val t.val = true ∧ (s.engine p.val t.val).exhausted = false ∧
    s.frameBadDue p.val t.val = false → w = s.currentWord p.val t.val ∧ w.op = r.2 ∧ w.op ≠ 0xFF ∧ s.blocked p.val
    t.val w = .go ∧ (s.engine p.val t.val).flags.holds w.cond = false → d = (s.wordSpent p.val t.val).endWait p.val
    t.val ∧ (d.engine p.val t.val).exhausted = false → u = (d.setEngine p.val t.val { d.engine p.val t.val with
    timed := false }).pcEvent (some p.val) 0x03 1 (fun _ => true) {
      engine := some t.val, upc := (s.engine p.val t.val).upc, cond := awaited (s.engine p.val t.val) w, atEnd :=
        false } → 
    exec r.1 s = .next (u.setEngine p.val t.val ((u.engine p.val t.val).next 1))) ∧
  (∀ (t : Fin 64) (r : Instr × Nat) (s : State), r ∈ microRows 8 t → 16 ≤ t.val ∨ s.svcState t.val ≠ 1 ∨ (s.engine
    8 t.val).handler ≠ 0 ∨ s.mayIssue 8 t.val = false ∨ (s.svcWord t.val).op ≠ 0xFF ∧ (s.svcWord t.val).op ≠ r.2 → 
    exec r.1 s = .next s) ∧
  (∀ (t : Fin 64) (r : Instr × Nat) (s : State) (w : MWord), r ∈ microRows 8 t → t.val < 16 ∧ s.svcState t.val = 1
    ∧ (s.engine 8 t.val).handler = 0 ∧ s.mayIssue 8 t.val = true → w = s.svcWord t.val ∧ (w.op = 0xFF ∨ w.op = r.2
    ∧ w.wait = 7) → 
    exec r.1 s = .next ((s.wordSpent 8 t.val).svcBadOp t.val)) ∧
  (∀ (t : Fin 64) (r : Instr × Nat) (s : State) (w : MWord), r ∈ microRows 8 t → t.val < 16 ∧ s.svcState t.val = 1
    ∧ (s.engine 8 t.val).handler = 0 ∧ s.mayIssue 8 t.val = true → w = s.svcWord t.val ∧ w.op = r.2 ∧ w.op ≠ 0xFF ∧
    w.wait = 4 ∧ w.count ≠ 0 ∧ (s.engine 8 t.val).timed = false → 
    exec r.1 s = .next (s.setEngine 8 t.val { s.engine 8 t.val with wait := 4, since := s.ccNow })) ∧
  (∀ (t : Fin 64) (r : Instr × Nat) (s u : State) (w : MWord), r ∈ microRows 8 t → t.val < 16 ∧ s.svcState t.val =
    1 ∧ (s.engine 8 t.val).handler = 0 ∧ s.mayIssue 8 t.val = true → (w = s.svcWord t.val ∧ w.op = r.2 ∧ w.op ≠
    0xFF ∧ w.wait ≠ 7 ∧ (w.wait = 4 → w.count = 0 ∨ (s.engine 8 t.val).timed = true)) → u = (s.wordSpent 8
    t.val).setEngine 8 t.val { s.engine 8 t.val with wait := 0, timed := false } → 
    ((s.engine 8 t.val).flags.holds w.cond = false → exec r.1 s = .next (u.setEngine 8 t.val ((u.engine 8
      t.val).next 1))) ∧ ((s.engine 8 t.val).flags.holds w.cond = true → w.lacksSpace = true → exec r.1 s = .next
      (u.svcBadOp t.val)))

/-- Accesses of another width or alignment. In BAR0 and BAR2, an access that is not a naturally aligned 32-bit
access completes without effect, and a read of it gives zero data, whatever the register; BAR4 also serves naturally
aligned 8-byte reads. (R9.) -/
def Obligations.OtherAccesses : Prop :=
  (∀ (s : State) (f : Fin 256) (bar2 : Bool) (off : BitVec 24) (len : BitVec 13), s.reaches f.val ∧ (len.toNat ≠ 4
    ∨ off.toNat % 4 ≠ 0) → 
    exec (.misalignedAccess f bar2 true off len) s = .next s) ∧
  (∀ (s : State) (f : Fin 256) (bar2 : Bool) (off : BitVec 24) (len : BitVec 13), (s.reaches f.val ∧ (len.toNat ≠ 4
    ∨ off.toNat % 4 ≠ 0) ∧ off.toNat < s.barSize f.val (if bar2 then 2 else 0)) → 
    exec (.misalignedAccess f bar2 false off len) s = .next (s.emit (.readData f.val (if bar2 then 2 else 0)
      off.toNat 0))) ∧
  (∀ (s : State) (f : Fin 256) (off : BitVec 24) (x : Nat), off.toNat % 8 = 0 ∧ off.toNat < s.barSize f.val 4 ∧
    s.reaches f.val → x = (s.bar4Page f.val (off.toNat / 4096)).elim 0 (fun p => s.slotNow p (off.toNat % 4096 /
    8)) → 
    exec (.mmioRequest f (.read 4 off 8)) s = .next (s.emit (.readData f.val 4 off.toNat (BitVec.ofNat 64 x))))

/-- The halves of a 64-bit register pair. A read of the low half gives bits 31:0 and latches bits 63:32 as they were
then for the reading function and BAR; the next read of the high half gives the latched bits; the latch of another
function or BAR is as it was; a write to the high half with a held low half sets all 64 bits, and without one keeps
the low half; after reset every latch reads 0. (R10, R412, R414.) -/
def Obligations.RegisterPairs : Prop :=
  (∀ (s : State) (f : Fin 256) (off lo : BitVec 24) (a : Nat), lo.toNat % 4 = 0 ∧ off.toNat = lo.toNat + 4 ∧
    off.toNat < s.barSize f.val 0 ∧ s.reaches f.val → s.regKey f.val lo.toNat = some a ∧ s.regKey f.val off.toNat =
    some (a + 4) ∧ s.pairLo f.val a = true ∧ s.pairLo f.val (a + 4) = false → 
    ∃ t u, exec (.pairLoRead f false lo) s = .next t ∧ exec (.pairHiRead f false off) t = .next u ∧ t.out =
      .readData f.val 0 lo.toNat (BitVec.ofNat 64 (s.peek f.val a)) :: s.out ∧ u.out = .readData f.val 0 off.toNat
      (BitVec.ofNat 64 (s.peek f.val (a + 4) % 2 ^ 32)) :: t.out ∧ ∀ g b, ¬(8 * g + b = 8 * f.val) → u.latched g b
      = s.latched g b) ∧
  (∀ (s : State) (f a v : Nat) (lo : Word32), (a = s.fnBase f + 0x2000 ∨ a = s.fnBase f + 0x2008) ∧ (s.queue f).st
    = .absent → tabGet (fun _ => none) s.host.heldLo a = some lo → 
    (s.hiWrite f a v).reg a = lo.toNat ∧ (s.hiWrite f a v).reg (a + 4) = v % 2 ^ 32 ∧ tabGet (fun _ => none)
      (s.hiWrite f a v).host.heldLo a = none) ∧
  (∀ (s : State) (f a v : Nat), (a = s.fnBase f + 0x2000 ∨ a = s.fnBase f + 0x2008) ∧ (s.queue f).st = .absent →
    tabGet (fun _ => none) s.host.heldLo a = none → 
    (s.hiWrite f a v).reg a = s.reg a ∧ (s.hiWrite f a v).reg (a + 4) = v % 2 ^ 32) ∧
  (∀ (f b : Nat), 
    State.reset.latched f b = 0) ∧
  (∀ (s : State) (f b : Nat), b < 8 → 
    (s.dropLatches f).latched f b = 0)

/-- Doorbells without effect. A doorbell of an absent queue index, a tail doorbell of a queue that the device
writes, and a head doorbell of a submission queue other than the admin queue do nothing but set function fault
source 1; a doorbell of a queue in ERROR or STOPPING does nothing. (R444.) -/
def Obligations.Doorbells : Prop :=
  (∀ (s : State) (f : Fin 256) (off : BitVec 24) (v : Word32), s.reaches f.val ∧ s.inReset f.val = false ∧
    off.toNat < 0x1000 ∧ off.toNat % 4 = 0 → s.findQ f.val (off.toNat / 8) = none → 
    exec (.registerWrite f 2 off v) s = .next (s.fault (.fn f) 1 off.toNat)) ∧
  (∀ (s : State) (f : Fin 256) (off : BitVec 24) (v : Word32) (q : Nat), s.reaches f.val ∧ s.inReset f.val = false
    ∧ off.toNat < 0x1000 ∧ off.toNat % 8 = 0 → s.findQ f.val (off.toNat / 8) = some q ∧ (s.queue q).typ.submission
    = false → 
    exec (.registerWrite f 2 off v) s = .next (s.fault (.fn f) 1 off.toNat)) ∧
  (∀ (s : State) (f : Fin 256) (off : BitVec 24) (v : Word32) (q : Nat), s.reaches f.val ∧ s.inReset f.val = false
    ∧ off.toNat < 0x1000 ∧ off.toNat % 8 = 4 → s.findQ f.val (off.toNat / 8) = some q ∧ (s.queue q).typ.submission
    = true ∧ (s.queue q).typ ≠ .admin → 
    exec (.registerWrite f 2 off v) s = .next (s.fault (.fn f) 1 off.toNat)) ∧
  (∀ (s : State) (f : Fin 256) (off : BitVec 24) (v : Word32) (q : Nat), s.reaches f.val ∧ s.inReset f.val = false
    ∧ off.toNat < 0x1000 ∧ off.toNat % 4 = 0 → s.findQ f.val (off.toNat / 8) = some q ∧ ((s.queue q).st = .error ∨
    (s.queue q).st = .stopping) → (if off.toNat % 8 = 0 then (s.queue q).typ.submission = true else ((s.queue
    q).typ.submission = false ∨ (s.queue q).typ = .admin)) → 
    exec (.registerWrite f 2 off v) s = .next s)

/-- EXPRESS, EEE and PFC exclude one another. A command that would set both EEE_EN and EXPRESS on a port, or leave
on an express port a PFC enable of a priority to which TC 14 or 15 maps, is refused with EXPRESS_CONFLICT, and
changes nothing. (R52, R60.) -/
def Obligations.ExpressConflicts : Prop :=
  (∀ (s b : State) (j : Job) (n : Nat), s.takes { op := 0x28, owner := false } j b → n = j.le 4 2 ∧ n < 128 ∧
    b.portHolder n = b.jobFn j → j.only [(4, 3), (8, 4)] = true ∧ j.byte 0 6 = 1 → (b.settled n).express n = true → 
    exec (.portEeeSet j) s = .next (b.complete j St.EXPRESS_CONFLICT [])) ∧
  (∀ (s b : State) (j : Job) (n : Nat), s.takes { op := 0x29, owner := false } j b → n = j.le 4 2 ∧ n < 128 ∧
    b.portHolder n = b.jobFn j → j.only [(4, 3)] = true ∧ j.byte 0 6 = 1 → (b.settled n).rdb (wPort n)
    Reg.PORT_CFG_EEE_EN = true → 
    exec (.portExpressSet j) s = .next (b.complete j St.EXPRESS_CONFLICT [])) ∧
  (∀ (s b : State) (j : Job) (n : Nat), s.takes { op := 0x29, owner := false } j b → n = j.le 4 2 ∧ n < 128 ∧
    b.portHolder n = b.jobFn j → j.only [(4, 3)] = true ∧ j.byte 0 6 = 1 → expressPfcBad (b.prioOf n 14) (b.prioOf
    n 15) (b.rd (wPort n) Reg.PORT_PFC_CFG_PFC_TX_EN) (b.rd (wPort n) Reg.PORT_PFC_CFG_PFC_RX_EN) = true → 
    exec (.portExpressSet j) s = .next (b.complete j St.EXPRESS_CONFLICT [])) ∧
  (∀ (s b : State) (j : Job) (n : Nat) (nib : Nat → Nat), s.takes { op := 0x24, owner := false } j b → n = j.le 4 2
    ∧ n < 128 ∧ b.portHolder n = b.jobFn j → (∀ t, nib t = j.bits (10 + t / 2) (4 * (t % 2) + 3) (4 * (t % 2))) →
    j.len = 2 ∧ j.flagsPlain = true ∧ j.byte 0 6 < 3 ∧ j.byte 0 7 = 0 ∧ j.zero 1 4 2 = true ∧ j.zero 1 8 24 = true
    → ((rangeFrom 0 16).any fun t => decide (8 ≤ nib t)) = false → (b.settled n).express n = true ∧ expressPfcBad
    (nib 14) (nib 15) (j.byte 0 8) (j.byte 0 9) = true → 
    exec (.portPfcSet j) s = .next (b.complete j St.EXPRESS_CONFLICT []))

/-- What commands leave unchanged. An arithmetic microword changes its own engine alone, beside the count of issues;
FAULT_FIRST, SAFE_CAUSE and STEP_FLAG clears change one register word; a dump that falls due stores four bytes of
host memory, where no programmable counter watches that count; a spill recount stores one byte of DRAM; every other
byte, word and engine reads as before. (Choices of the model that it rests on: log entry 136.) (R160, R250, R256,
R403, R588, R603, R609.) -/
def Obligations.Frames : Prop :=
  (∀ (p : Fin 9) (t : Fin 64) (r : Instr × Nat) (s u : State) (w : MWord), r ∈ (microRows p t).take 18 → s.issues
    p.val t.val r.2 w u → 
    ∃ x : Engine, exec r.1 s = .next (u.setEngine p.val t.val x)) ∧
  (∀ (u : State) (p t : Nat) (x : Engine) (p' t' : Nat), ¬(p' = p ∧ t' = t) → 
    (u.setEngine p t x).engine p' t' = u.engine p' t' ∧ (u.setEngine p t x).regs = u.regs ∧ (u.setEngine p t
      x).hostMem = u.hostMem ∧ (u.setEngine p t x).dram = u.dram ∧ (u.setEngine p t x).host = u.host ∧ (u.setEngine
      p t x).tenon = u.tenon) ∧
  (∀ (s : State) (w : FWin) (a : Nat), s.reaches (s.winFn w) ∧ a = s.winBase w + 0xF014 → 
    ∃ x, exec (.faultFirstClear w) s = .next (s.setReg a x) ∧ ∀ k, k ≠ a → (s.setReg a x).reg k = s.reg k) ∧
  (∀ (s : State) (a : Nat), s.reaches s.owner ∧ a = wGlobal + 0x10 → 
    ∃ x, exec .safeCauseClear s = .next (s.setReg a x) ∧ ∀ k, k ≠ a → (s.setReg a x).reg k = s.reg k) ∧
  (∀ (s : State) (a : Nat), s.reaches s.owner ∧ s.booted = true ∧ a = wThyme + 0x2000 → 
    ∃ x, exec .stepFlagClear s = .next (s.setReg a x) ∧ ∀ k, k ≠ a → (s.setReg a x).reg k = s.reg k) ∧
  (∀ (s : State) (a l : Nat), s.rd wGauge Reg.GAUGE_DUMP_PERIOD_MS ≠ 0 ∧ s.dutyRuns 13 = true ∧ s.gauge.dumping =
    none → (∀ k ∈ s.armed, ¬(s.rd (pcBase k) Reg.GAUGE_PC_A_SRC = 0 ∧ s.rd (pcBase k) Reg.GAUGE_PC_A_SEL = 512 *
    157 + 29)) → l = s.fnLink s.owner ∧ a = hostKey l (s.gauge.dumpBase + ((s.gauge.dumpNext - 1) % s.rd wGauge
    Reg.GAUGE_DUMP_BUFFERS) * (128 + 4096 * (maskPages s.gauge.dumpMask).length) + 4) → 
    ∃ t, exec .gaugeDumpDue s = .next t ∧ t.dram = s.dram ∧ memRead t.hostMem a 4 = [0xFF, 0xFF, 0xFF, 0xFF] ∧ ∀ k,
      ¬(a ≤ k ∧ k < a + 4) → tabGet memDefault t.hostMem k = tabGet memDefault s.hostMem k) ∧
  (∀ (s : State) (k : BitVec 24) (a : Nat), s.spillCnt k.toNat = 15 ∧ s.anyOffline = false ∧ s.rdb wMint
    Reg.MINT_STATUS_DEFERRING = false ∧ s.dutyRuns 9 → a = emAddr k.toNat + 21 → 
    ∃ t, exec (.spillCntRecount k) s = .next t ∧ t.hostMem = s.hostMem ∧ t.regs = s.regs ∧ ∀ i, i ≠ s.dramKey a →
      tabGet memDefault t.dram i = tabGet memDefault s.dram i)

/-- The first cause that raises the safe-state line is recorded. Raising the line sets it; a line already raised is
left as it is; the cause is recorded, with its time, only while SAFE is 0, and a later cause leaves the record of
the first. (R609, R610, R618.) -/
def Obligations.SafeCause : Prop :=
  (∀ (s : State) (kind block inst src : Nat), s.dev.safeLine = true → 
    s.raiseSafe kind block inst src = s) ∧
  (∀ (s : State) (kind block inst src : Nat), s.rdb wGlobal Reg.GLOBAL_SAFE_CAUSE_SAFE = true → 
    (s.raiseSafe kind block inst src).regs = s.regs) ∧
  (∀ (s : State) (kind block inst src : Nat), s.dev.safeLine = false ∧ s.rdb wGlobal Reg.GLOBAL_SAFE_CAUSE_SAFE =
    false → kind < 4 ∧ block < 256 ∧ inst < 256 ∧ src < 32 → 
    (s.raiseSafe kind block inst src).dev.safeLine = true ∧ (s.raiseSafe kind block inst src).rd wGlobal
      Reg.GLOBAL_SAFE_CAUSE_SAFE = 1 ∧ (s.raiseSafe kind block inst src).rd wGlobal Reg.GLOBAL_SAFE_CAUSE_SAFE_KIND
      = kind ∧ (s.raiseSafe kind block inst src).rd wGlobal Reg.GLOBAL_SAFE_CAUSE_BLOCK = block ∧ (s.raiseSafe kind
      block inst src).rd wGlobal Reg.GLOBAL_SAFE_CAUSE_INSTANCE = inst ∧ (s.raiseSafe kind block inst src).rd
      wGlobal Reg.GLOBAL_SAFE_CAUSE_SRC = src)

/-- Reads and writes of registers by a host and by the SMBus. A read of a register gives its value; the low half of
a pair latches the high half, which the next read of the high half gives; a write to the low half is held until the
high half is written; an access of another length or alignment reads 0 and writes nothing; a doorbell in BAR2 moves
an index; the SMBus reads the registers it serves. (Choices of the model that it rests on: log entries 133, 174,
175, 178, 189, 248.) (R7, R8, R9, R10, R408, R413, R414, R415, R417.) -/
def Obligations.RegisterAccesses : Prop :=
  (∀ (s : State) (f : Fin 256) (bar : Fin 6) (off : BitVec 24) (len : BitVec 13) (a : Nat), bar = 0 ∧ len = 4 ∧
    off.toNat % 4 = 0 ∧ off.toNat < s.barSize f.val 0 ∧ s.reaches f.val → (s.regKey f.val off.toNat = some a ∧
    s.pairLo f.val a = false ∧ (4 ≤ a → s.pairLo f.val (a - 4) = false)) → s.served a = true ∧ a ≠ wThyme + 4 ∧ a ≠
    wThyme + 0x30 → 
    exec (.mmioRequest f (.read bar off len)) s = .next (s.emit (.readData f.val 0 off.toNat (BitVec.ofNat 64
      (s.peek f.val a))))) ∧
  (∀ (s : State) (f : Fin 256) (g : CfgGet), s.devState ≠ 0 ∧ s.fnExists f.val = true → 
    exec (.mmioRequest f (.cfgRead g)) s = .next (s.emit (.config f.val (s.cfgValue f.val g)))) ∧
  (∀ (s : State) (f : Fin 256) (v : CfgSet), s.devState ≠ 0 ∧ s.fnExists f.val = true → 
    exec (.mmioRequest f (.cfgWrite v)) s = .next ((s.cfgWrite f.val v).emit (.configDone f.val))) ∧
  (∀ (s : State) (f : Fin 256) (r : HostReq), s.devState ≠ 0 ∧ s.fnExists f.val = false → 
    exec (.mmioRequest f r) s = .next (s.emit (.unsupported f.val))) ∧
  (∀ (s : State) (f : Fin 256) (off : BitVec 24) (a : Nat), off.toNat % 4 = 0 ∧ off.toNat < s.barSize f.val 0 ∧
    s.reaches f.val → s.regKey f.val off.toNat = some a ∧ s.pairLo f.val a = true → 
    exec (.pairLoRead f false off) s = .next ((s.latchHi f.val 0 (s.peek f.val (a + 4))).emit (.readData f.val 0
      off.toNat (BitVec.ofNat 64 (s.peek f.val a))))) ∧
  (∀ (s : State) (f : Fin 256) (off : BitVec 24) (x : Nat), off.toNat % 8 = 0 ∧ off.toNat < s.barSize f.val 4 ∧
    s.reaches f.val → x = (s.bar4Page f.val (off.toNat / 4096)).elim 0 (fun p => s.slotNow p (off.toNat % 4096 /
    8)) → 
    exec (.pairLoRead f true off) s = .next ((s.latchHi f.val 4 (x / 2 ^ 32)).emit (.readData f.val 4 off.toNat
      (BitVec.ofNat 64 (x % 2 ^ 32))))) ∧
  (∀ (s : State) (f : Fin 256) (off : BitVec 24) (a : Nat), off.toNat % 4 = 0 ∧ 4 ≤ off.toNat ∧ off.toNat <
    s.barSize f.val 0 ∧ s.reaches f.val → s.isLo f.val (off.toNat - 4) false = true ∧ s.regKey f.val off.toNat =
    some (a + 4) ∧ s.pairLo f.val a = true ∧ s.pairLo f.val (a + 4) = false → 
    exec (.pairHiRead f false off) s = .next (s.emit (.readData f.val 0 off.toNat (BitVec.ofNat 64 (s.latched f.val
      0))))) ∧
  (∀ (s : State) (f : Fin 256) (off : BitVec 24), off.toNat % 8 = 4 ∧ off.toNat < s.barSize f.val 4 ∧ s.reaches
    f.val → 
    exec (.pairHiRead f true off) s = .next (s.emit (.readData f.val 4 off.toNat (BitVec.ofNat 64 (s.latched f.val
      4))))) ∧
  (∀ (s : State) (f : Fin 256) (off : BitVec 24) (v : Word32) (a : Nat), off.toNat < s.barSize f.val 0 ∧ s.reaches
    f.val ∧ s.inReset f.val = false → s.regKey f.val off.toNat = some a ∧ s.pairLo f.val a = true → 
    exec (.pairLoWrite f off v) s = .next (if (s.queue f.val).st ≠ .absent then s else { s with
      host := { s.host with heldLo := tabSet (fun _ => none) s.host.heldLo a (some v) } })) ∧
  (∀ (s : State) (f : Fin 256) (off : BitVec 24) (v : Word32) (a : Nat), 4 ≤ off.toNat ∧ off.toNat < s.barSize
    f.val 0 ∧ s.reaches f.val ∧ s.inReset f.val = false → s.isLo f.val (off.toNat - 4) false = true ∧ s.regKey
    f.val off.toNat = some (a + 4) ∧ s.pairLo f.val a = true ∧ s.pairLo f.val (a + 4) = false → 
    exec (.pairHiWrite f off v) s = .next (s.hiWrite f.val a v.toNat)) ∧
  (∀ (s : State) (f : Fin 256) (bar2 : Bool) (off : BitVec 24) (len : BitVec 13), s.reaches f.val ∧ (len.toNat ≠ 4
    ∨ off.toNat % 4 ≠ 0) → 
    exec (.misalignedAccess f bar2 true off len) s = .next s) ∧
  (∀ (s : State) (f : Fin 256) (bar2 : Bool) (off : BitVec 24) (len : BitVec 13), (s.reaches f.val ∧ (len.toNat ≠ 4
    ∨ off.toNat % 4 ≠ 0) ∧ off.toNat < s.barSize f.val (if bar2 then 2 else 0)) → 
    exec (.misalignedAccess f bar2 false off len) s = .next (s.emit (.readData f.val (if bar2 then 2 else 0)
      off.toNat 0))) ∧
  (∀ (s : State) (f : Fin 256) (off : BitVec 24) (v : Word32) (q : Nat), off.toNat % 8 = 0 ∧ off.toNat < 0x1000 ∧
    s.reaches f.val ∧ s.inReset f.val = false → s.findQ f.val (off.toNat / 8) = some q ∧ (s.queue q).typ.submission
    = true ∧ (s.queue q).st = .active ∧ v.toNat % 2 ^ 16 < (s.queue q).size → 
    exec (.registerWrite f 2 off v) s = .next (s.setQueue q { s.queue q with tail := v.toNat % 2 ^ 16 })) ∧
  (∀ (s : State) (f : Fin 256) (off : BitVec 24) (v : Word32) (a : Nat), off.toNat % 4 = 0 ∧ off.toNat < s.barSize
    f.val 0 ∧ s.reaches f.val ∧ s.regKey f.val off.toNat = some a → 
    exec (.registerWrite f 0 off v) s = .next (s.writeReg f.val a v.toNat)) ∧
  (∀ (s : State) (f : Fin 256) (u : State), f.val = s.owner ∧ s.reaches f.val ∧ s.booted = true → u = { s with
    host := { s.host with timeLatch := tabSet (fun _ => (0, 0)) s.host.timeLatch f.val (s.clock.sec, s.frac) } } → 
    exec (.nowNsRead f) s = .next ((u.latchHi f.val 0 (s.clock.sec / 2 ^ 32)).emit (.readData f.val 0 (wThyme + 4)
      (BitVec.ofNat 64 s.clock.ns)))) ∧
  (∀ (s : State) (f : Fin 256), f.val = s.owner ∧ s.reaches f.val ∧ s.booted = true → 
    exec (.todRxRead f) s = .next (State.emit { s with thyme := { s.thyme with todRx := s.thyme.todRx.tail } }
      (.readData f.val 0 (wThyme + 0x30) (BitVec.ofNat 64 (s.thyme.todRx.head?.elim 0 (fun x => 2 ^ 8 +
      x.toNat)))))) ∧
  (∀ (s : State) (dst : BitVec 7) (v : Word32) (pec : Option Byte), s.smbTakes dst = true ∧ pecOk dst (1 :: 4 ::
    leBytes 4 v.toNat) pec = true → 
    exec (.smbRegAddr dst v pec) s = .next { s with dev := { s.dev with smbAddr := v.toNat } }) ∧
  (∀ (s : State) (dst : BitVec 7) (v : Word32) (c : Byte) (b : Byte), dst.toNat ≠ 0x58 + s.dev.smbStrap ∨ (pecOk
    dst (1 :: 4 :: leBytes 4 v.toNat) (some c) = false ∧ pecOk dst [4, b] (some c) = false) → 
    exec (.smbRegAddr dst v (some c)) s = .next s ∧ exec (.smbWarmReset dst b (some c)) s = .next s) ∧
  (∀ (s : State) (dst : BitVec 7) (a : Nat), s.smbTakes dst = true → s.regKey s.owner s.dev.smbAddr = some a ∧
    s.dev.smbAddr % 4 = 0 ∧ smbServed s.dev.smbAddr (s.winAt a).isSome = true → 
    exec (.smbRegRead dst) s = .next (s.emit (.smbus (leBytes 4 (s.peek s.owner a))))) ∧
  (∀ (s : State) (dst : BitVec 7), s.smbTakes dst = true → 
    exec (.smbDevVectors dst) s = .next (s.emit (.smbus (leBytes 8 s.host.devVec))))

/-- The registers whose writes act. Writing 1s clears overflow bits, STATUS bits whose condition has gone, VALID,
SAFE_CAUSE and STEP_FLAG, but no bit that an event set in the same cycle; MASK and SEV are written within their
bounds; INJECT makes sources occur, DUP_INJECT a miscompare; the key and the SMBus command reset the device warm.
(Choices of the model that it rests on: log entries 178, 189, 248.) (R13, R599, R601, R602, R604, R606, R608, R609,
R614, R637.) -/
def Obligations.RegisterWrites : Prop :=
  (∀ (s : State) (w : Fin 18) (v : Word32) (a : Nat), s.reaches s.owner ∧ s.booted = true → a = wGauge + 0x100 + 4
    * w.val → 
    exec (.ovfClear w v) s = .next ((s.setReg a (s.reg a - (s.reg a &&& (v.toNat - (v.toNat &&& s.justSet
      a))))).updateOvf)) ∧
  (∀ (s : State), s.reaches s.owner ∧ s.booted = true → 
    exec .stepFlagClear s = .next (s.setReg (wThyme + 0x2000) (s.reg (wThyme + 0x2000) - (s.reg (wThyme + 0x2000)
      &&& (2 ^ 26 - (2 ^ 26 &&& s.justSet (wThyme + 0x2000))))))) ∧
  (∀ (s : State) (w : FWin) (v : Word32) (a m : Nat), s.reaches (s.winFn w) → a = s.winBase w + 0xF000 ∧ m =
    v.toNat - (v.toNat &&& s.rd (s.winBase w) Reg.FLT_LIVE_LIVE) → 
    exec (.faultStatusClear w v) s = .next ((s.setReg a (s.reg a - (s.reg a &&& (m - (m &&& s.justSet
      a))))).updateWin w)) ∧
  (∀ (s : State) (w : FWin), s.reaches (s.winFn w) → 
    exec (.faultFirstClear w) s = .next (s.setReg (s.winBase w + 0xF014) (s.reg (s.winBase w + 0xF014) - (s.reg
      (s.winBase w + 0xF014) &&& (2 ^ 31 - (2 ^ 31 &&& s.justSet (s.winBase w + 0xF014))))))) ∧
  (∀ (s : State) (w : FWin) (v : Word32), s.reaches (s.winFn w) ∧ s.isFnWin w = false → 
    exec (.faultMaskWrite w v) s = .next ((s.wr (s.winBase w) Reg.FLT_MASK_MASK (v.toNat &&& s.winSources
      w)).updateWin w)) ∧
  (∀ (s : State) (w : FWin) (hi : Bool) (v : Word32), s.reaches (s.winFn w) ∧ s.isFnWin w = false → 
    exec (.faultSevWrite w hi v) s = .next (forEach (rangeFrom (if hi then 16 else 0) 16) (fun i x => if
      s.winSources w &&& 2 ^ i = 0 then x else x.wr (s.winBase w) (Reg.FLT_SEV_I i) (max (bits (regReset (s.winBase
      w + (Reg.FLT_SEV_I i).off)) (Reg.FLT_SEV_I i).hi (Reg.FLT_SEV_I i).lo) (v.toNat / 4 ^ (i % 16) % 4))) s)) ∧
  (∀ (s : State) (w : FWin) (v : Word32), s.reaches (s.winFn w) ∧ s.isFnWin w = false ∧ v.toNat &&& s.winSources w
    ≠ 0 → 
    exec (.faultInjectWrite w v) s = .next (s.faultsW wh2 w v.toNat (fun _ => 0) true)) ∧
  (∀ (s : State) (w : FWin), s.reaches (s.winFn w) ∧ s.isFnWin w = false → 
    exec (.dupInjectWrite w) s = .next (s.miscompare w)) ∧
  (∀ (s : State), s.reaches s.owner → 
    exec .safeCauseClear s = .next (s.setReg (wGlobal + 0x10) (s.reg (wGlobal + 0x10) - (s.reg (wGlobal + 0x10) &&&
      (2 ^ 31 - (2 ^ 31 &&& s.justSet (wGlobal + 0x10))))))) ∧
  (∀ (s : State) (v : Word32), s.reaches s.owner ∧ v = 0x57525354 → 
    exec (.warmResetKeyWrite v) s = .next ((s.warmReset 2).enterFused s.devState s.counting)) ∧
  (∀ (s : State) (dst : BitVec 7) (v : Byte) (pec : Option Byte), s.smbTakes dst = true ∧ pecOk dst [4, v] pec =
    true ∧ v = 0xA5 → 
    exec (.smbWarmReset dst v pec) s = .next ((s.warmReset 3).enterFused s.devState s.counting))

/-- Admin enable and disable, and the two doorbells. A host write that reaches the device enables or disables the
admin queue, or moves the tail or head of a queue; a tail beyond the ring puts the queue in ERROR. In FUSED an
enable is held. (Choices of the model that it rests on: log entry 187.) (R408, R438, R443, R464, R465, R637.) -/
def Obligations.QueueDoorbells : Prop :=
  (∀ (s : State) (f : Fin 256), s.reaches f.val → s.inReset f.val = false → (s.setEnable f.val 1).devState = 1 → 
    ∃ t, exec (.adminCtlEnable f) s = .next t ∧ f.val ∈ t.dev.heldEnable ∧ t.regs = (s.setEnable f.val 1).regs ∧
      t.host = s.host) ∧
  (∀ (s e : State) (f : Fin 256), s.reaches f.val → s.inReset f.val = false → e = s.setEnable f.val 1 → e.devState
    ≠ 1 → (e.queue f.val).st = .absent → e.adminBase f.val 0x2000 % 256 = 0 ∧ e.adminBase f.val 0x2008 % 256 = 0 →
    16 ≤ e.reg (e.fnBase f.val + 0x2010) % 2 ^ 13 ∧ e.reg (e.fnBase f.val + 0x2010) % 2 ^ 13 ≤ 4096 ∧ isPow2 (e.reg
    (e.fnBase f.val + 0x2010) % 2 ^ 13) = true → 16 ≤ e.reg (e.fnBase f.val + 0x2014) % 2 ^ 13 ∧ e.reg (e.fnBase
    f.val + 0x2014) % 2 ^ 13 ≤ 4096 ∧ isPow2 (e.reg (e.fnBase f.val + 0x2014) % 2 ^ 13) = true → 
    exec (.adminCtlEnable f) s = .next (e.setQueue f.val {
      st := .active, typ := .admin, fn := f.val, idx := 0, base := e.adminBase f.val 0x2000, size := e.reg
        (e.fnBase f.val + 0x2010) % 2 ^ 13, cbase := e.adminBase f.val 0x2008, csize := e.reg (e.fnBase f.val +
        0x2014) % 2 ^ 13, nextSeq := (e.queue f.val).nextSeq })) ∧
  (∀ (s e : State) (f : Fin 256), s.reaches f.val → s.inReset f.val = false → e = s.setEnable f.val 0 → 
    exec (.adminCtlDisable f) s = .next (({ e with
      dev := { e.dev with heldEnable := e.dev.heldEnable.filter (fun g => decide (g ≠ f.val)) } } :
        State).destroyAll f.val false)) ∧
  (∀ (s : State) (f : Fin 256) (i : Fin 512) (v : Word32) (q : Nat), s.reaches f.val → s.inReset f.val = false →
    s.findQ f.val i.val = some q → (s.queue q).typ.submission = true → (s.queue q).st = .active → 
    (v.toNat % 2 ^ 16 < (s.queue q).size → exec (.sqTailDoorbell f i v) s = .next (s.setQueue q { s.queue q with
      tail := v.toNat % 2 ^ 16 })) ∧ ((s.queue q).size ≤ v.toNat % 2 ^ 16 → exec (.sqTailDoorbell f i v) s = .next
        (s.queueError q 1))) ∧
  (∀ (s : State) (f : Fin 256) (i : Fin 512) (v : Word32) (q n : Nat), s.reaches f.val → s.inReset f.val = false →
    s.findQ f.val i.val = some q → (s.queue q).st = .active → (s.queue q).typ = .completion → v.toNat % 2 ^ 16 <
    (s.queue q).size → n = (v.toNat % 2 ^ 16 + (s.queue q).size - (s.queue q).head) % (s.queue q).size → n ≤
    (s.queue q).written → 
    exec (.cqHeadDoorbell f i v) s = .next (s.setQueue q { s.queue q with
      head := v.toNat % 2 ^ 16, written := (s.queue q).written - n })) ∧
  (∀ (s : State) (f : Fin 256) (i : Fin 512) (v : Word32) (q n : Nat), s.reaches f.val → s.inReset f.val = false →
    s.findQ f.val i.val = some q → (s.queue q).st = .active → (s.queue q).typ = .admin → v.toNat % 2 ^ 16 <
    (s.queue q).csize → n = (v.toNat % 2 ^ 16 + (s.queue q).csize - (s.queue q).chead) % (s.queue q).csize → n ≤
    (s.queue q).written → 
    exec (.cqHeadDoorbell f i v) s = .next (s.setQueue q { s.queue q with
      chead := v.toNat % 2 ^ 16, written := (s.queue q).written - n })) ∧
  (∀ (s : State) (f : Fin 256) (i : Fin 512) (v : Word32) (q n : Nat), s.reaches f.val → s.inReset f.val = false →
    s.findQ f.val i.val = some q → (s.queue q).st = .active → (s.queue q).typ = .punt ∨ (s.queue q).typ = .event →
    v.toNat % 2 ^ 16 < (s.queue q).size → n = (v.toNat % 2 ^ 16 + (s.queue q).size - (s.queue q).head) % (s.queue
    q).size → n ≤ ((s.queue q).tail + (s.queue q).size - (s.queue q).head) % (s.queue q).size → 
    exec (.cqHeadDoorbell f i v) s = .next (s.setQueue q { s.queue q with head := v.toNat % 2 ^ 16 }))

/-- Fetching a job, writing completions and notices, EVENT records, vectors, and the end of a stopping queue. Each
of the queue engine's own commands completes with its effect: the next turn's job is fetched, the oldest completion
is written to its ring, a notice is posted, an EVENT record is written or lost, a vector is asserted when its timer
ends, and a stopping queue that holds nothing becomes ABSENT. (Choices of the model that it rests on: log entries
12, 33.) (R439, R441, R445, R446, R450, R451, R452, R454, R457, R460, R469.) -/
def Obligations.QueueTraffic : Prop :=
  (∀ (s m u : State) (q : Nat) (l : List (List Byte)) (x : Queue), s.nextTurn = some q → x = s.queue q → s.parseJob
    x = .job l → m = s.markPauses → u = (({ m with
    host := { m.host with lastFn := x.fn, lastIdx := tabSet (fun _ => 0) m.host.lastIdx x.fn x.idx } } :
      State).setQueue q { x with
      head := (x.head + l.length) % x.size, nextSeq := x.nextSeq + 1, paused := false, jobs := x.jobs ++ [{
        q := q, seq := x.nextSeq, sqHead := (x.head + l.length) % x.size, entries := l }] }).qmgrCount x.fn
          x.typ.code → u.chanOf q = none → 
    exec .jobFetch s = .next u) ∧
  (∀ (s : State) (j : Job), s.jobReady j = true → accepts (s.queue j.q).typ j.opcode = false → (s.queue j.q).typ ≠
    .dma → 
    exec (.undefinedOpcodeJob j) s = .next ((s.startJob j).complete j ((s.gate { op := j.opcode } j).getD
      St.BAD_OPCODE) [])) ∧
  (∀ (s u : State) (c : Fin 4096) (d : Compl), s.nextDone c.val = some d → (s.queue c.val).st ≠ .error → u =
    (s.retire d).ringPut c.val d.bytes false → 
    exec (.completionWrite c) s = .next (if (s.queue c.val).typ = .admin then (if d.intr then u.signal c.val else
      u) else u.coalesce c.val d.intr)) ∧
  (∀ (s : State) (q : Fin 4096) (x : Notice), s.host.notices.find? (fun e => decide (e.q = q.val)) = some x →
    (s.queue x.cq).st ≠ .error ∨ x.cq = x.q → s.freeSlots x.cq ≠ 0 → 
    exec (.noticePost q) s = .next ((({ s with host := { s.host with notices := s.host.notices.erase x } } :
      State).ringPut x.cq (leBytes 2 0xFFFF ++ leBytes 2 St.QUEUE_FAILED ++ leBytes 2 q.val ++ leBytes 2 x.head ++
      leBytes 2 x.cause) true).signal x.cq)) ∧
  (∀ (s : State) (q : Fin 4096), (s.queue q.val).st = .active → (s.queue q.val).typ = .completion ∨ (s.queue
    q.val).typ = .event → 0 < (s.queue q.val).unsig → 
    exec (.coalesceTimerExpiry q) s = .next (s.signal q.val)) ∧
  (∀ (s : State) (q : Fin 4096), (s.queue q.val).st = .stopping → (s.queue q.val).jobs = [] → (s.queue q.val).drawn
    = none → 
    exec (.queueStopDone q) s = .next (forEach (s.queue q.val).destroyers (fun j t => t.complete j St.SUCCESS [])
      (s.queueGone q.val))) ∧
  (∀ (s : State) (q : Fin 4096) (r : List Byte), (s.queue q.val).typ = .event → (s.queue q.val).st = .active → 
    ((s.queue q.val).full = false → exec (.eventRecordPost q r) s = .next ((((s.hostWr (s.fnLink (s.queue
      q.val).fn) ((s.queue q.val).base + 32 * (s.queue q.val).tail) (padTo 32 r)).setQueue q.val { s.queue q.val
      with tail := ((s.queue q.val).tail + 1) % (s.queue q.val).size }).writeBack q.val).coalesce q.val false)) ∧
      ((s.queue q.val).full = true → exec (.eventRecordPost q r) s = .next (s.setQueue q.val { s.queue q.val with
      lost := ((s.queue q.val).lost + 1) % 2 ^ 32 })))

/-- QUEUE_CREATE, QUEUE_DESTROY, QUEUE_QUERY, QUEUE_COALESCE and ECHO succeed. With valid operands each queue
command reports SUCCESS: a queue of each type is created at the lowest free number with its record as given, a queue
begins to stop, its record is written, its coalescing is set, and ECHO returns its bytes. (Choices of the model that
it rests on: log entries 12, 180.) (R435, R448, R449, R452, R460, R467, R468, R469, R470, R495.) -/
def Obligations.QueueCommands : Prop :=
  (∀ (s b : State) (j : Job) (q : Nat) (t : QType), s.takes { op := 0x01, owner := false } j b → j.byte 0 4 =
    t.code → t = .completion ∨ t = .event → (j.only [(4, 4), (8, 8), (16, 4), (20, 2), (22, 2), (24, if t = .event
    then 8 else 1)] = true) → j.byte 0 5 = 0 ∧ j.le 6 2 ≠ 0 ∧ j.le 6 2 < 512 ∧ j.le 8 8 % 256 = 0 → 16 ≤ j.le 16 4
    ∧ j.le 16 4 ≤ 65536 ∧ isPow2 (j.le 16 4) = true → (if t = .event then j.le 24 8 % 8 = 0 else j.byte 0 24 = 0) →
    b.findQ (b.jobFn j) (j.le 6 2) = none → b.runQueues (b.jobFn j) < b.quota (b.jobFn j) → b.freeQ = some q → 
    exec (.queueCreate j) s = .next ((b.setQueue q {
      st := .active, typ := t, fn := b.jobFn j, idx := j.le 6 2, base := j.le 8 8, size := j.le 16 4, cq := j.le 20
        2, creditMin := j.le 22 2, wb := if t = .event then j.le 24 8 else 0, coalUs := j.le 20 2, coalCount :=
        j.le 22 2, nextSeq := (b.queue q).nextSeq }).succeed j (leBytes 2 q ++ leBytes 2 (j.le 6 2)))) ∧
  (∀ (s b : State) (j : Job) (q c : Nat) (t : QType), s.takes { op := 0x01, owner := false } j b → j.byte 0 4 =
    t.code → t = .inject ∨ t = .update ∨ t = .search → j.only [(4, 4), (8, 8), (16, 4), (20, 2), (22, 2), (24, 1)]
    = true → j.byte 0 5 = 0 ∧ j.le 6 2 ≠ 0 ∧ j.le 6 2 < 512 ∧ j.le 8 8 % 256 = 0 → 16 ≤ j.le 16 4 ∧ j.le 16 4 ≤
    65536 ∧ isPow2 (j.le 16 4) = true → (if t = .inject then j.byte 0 24 < 16 else j.byte 0 24 = 0) → b.complQ
    (b.jobFn j) (j.le 20 2) = some c → b.findQ (b.jobFn j) (j.le 6 2) = none → b.runQueues (b.jobFn j) < b.quota
    (b.jobFn j) → b.freeQ = some q → b.creditSum c + j.le 22 2 ≤ (b.queue c).size → 
    exec (.queueCreate j) s = .next ((b.setQueue q {
      st := .active, typ := t, fn := b.jobFn j, idx := j.le 6 2, base := j.le 8 8, size := j.le 16 4, cq := j.le 20
        2, creditMin := j.le 22 2, tc := j.byte 0 24, nextSeq := (b.queue q).nextSeq }).succeed j (leBytes 2 q ++
        leBytes 2 (j.le 6 2)))) ∧
  (∀ (s b : State) (j : Job) (q c : Nat), s.takes { op := 0x01, owner := false } j b → j.byte 0 4 = 5 → j.only [(4,
    4), (8, 8), (16, 4), (20, 2), (22, 2), (24, 1)] = true → j.byte 0 5 = 0 ∧ j.le 6 2 ≠ 0 ∧ j.le 6 2 < 512 ∧ j.le
    8 8 % 256 = 0 → 16 ≤ j.le 16 4 ∧ j.le 16 4 ≤ 65536 ∧ isPow2 (j.le 16 4) = true → j.byte 0 24 < 28 ∧ b.chanBound
    (j.byte 0 24) = false → b.rd (chanBase (j.byte 0 24)) Reg.PURLIN_CHAN_B_CHAN_FUNC = 0xFFFF ∨ b.rd (chanBase
    (j.byte 0 24)) Reg.PURLIN_CHAN_B_CHAN_FUNC = b.jobFn j → b.complQ (b.jobFn j) (j.le 20 2) = some c → b.findQ
    (b.jobFn j) (j.le 6 2) = none → b.runQueues (b.jobFn j) < b.quota (b.jobFn j) → b.freeQ = some q → b.creditSum
    c + j.le 22 2 ≤ (b.queue c).size → 
    exec (.queueCreate j) s = .next ((((b.setQueue q {
      st := .active, typ := .dma, fn := b.jobFn j, idx := j.le 6 2, base := j.le 8 8, size := j.le 16 4, cq := j.le
        20 2, creditMin := j.le 22 2, tc := j.byte 0 24, nextSeq := (b.queue q).nextSeq }).setChanState (j.byte 0
        24) 1).wr (chanBase (j.byte 0 24)) Reg.PURLIN_CHAN_A_Q q).succeed j (leBytes 2 q ++ leBytes 2 (j.le 6 2))))
        ∧
  (∀ (s b u : State) (j : Job) (q a : Nat), s.takes { op := 0x01, owner := false } j b → j.byte 0 4 = 2 → j.only
    [(4, 4), (8, 8), (16, 4), (20, 2), (22, 2), (24, 8)] = true → j.byte 0 5 < 64 ∧ j.le 6 2 ≠ 0 ∧ j.le 6 2 < 512 ∧
    j.le 8 8 % 256 = 0 ∧ j.le 24 8 % 8 = 0 → 16 ≤ j.le 16 4 ∧ j.le 16 4 ≤ 65536 ∧ isPow2 (j.le 16 4) = true → j.le
    20 2 = 0xFFFF ∨ (b.complQ (b.jobFn j) (j.le 20 2)).isSome = true → b.poolHolder (j.byte 0 5) = b.jobFn j ∧
    b.poolState (j.byte 0 5) ≠ 0 ∧ b.poolInDram (j.byte 0 5) = false ∧ b.puntCount (j.byte 0 5) < 15 → b.findQ
    (b.jobFn j) (j.le 6 2) = none ∧ b.claimed (b.fnLink (b.jobFn j)) &&& j.le 22 2 = 0 → b.runQueues (b.jobFn j) <
    b.quota (b.jobFn j) → b.freeQ = some q → (b.setQueue q {
    st := .active, typ := .punt, fn := b.jobFn j, idx := j.le 6 2, base := j.le 8 8, size := j.le 16 4, cq := j.le
      20 2, creditMin := j.le 22 2, pool := j.byte 0 5, wb := j.le 24 8, nextSeq := (b.queue q).nextSeq }).acctMake
      (j.byte 0 5) (j.le 6 2) = some (a, u) → 
    exec (.queueCreate j) s = .next (u.succeed j (leBytes 2 q ++ leBytes 2 (j.le 6 2)))) ∧
  (∀ (s b : State) (j : Job) (q : Nat), s.takes { op := 0x02, owner := false } j b → j.le 6 2 ≠ 0 ∧ j.le 6 2 < 512
    ∧ j.one = true → b.findQ (b.jobFn j) (j.le 6 2) = some q → ((b.queue q).typ = .completion → (b.host.queues.any
    (fun e => binds (b.queue q) e || decide (e.2.typ = .punt ∧ e.2.st ≠ .absent ∧ e.2.fn = b.jobFn j ∧ e.2.cq =
    j.le 6 2))) = false) → 
    ((b.queue q).st = .stopping → exec (.queueDestroy j) s = .next ((b.setQueue q { b.queue q with
      destroyers := (b.queue q).destroyers ++ [j] }))) ∧ ((b.queue q).st ≠ .stopping → ∀ u, u = (if (b.queue q).typ
        = .punt then (b.chanUnbind q false).puntStop q (decide ((b.queue q).st = .active)) else b.chanUnbind q
        false) → exec (.queueDestroy j) s = .next ((u.setQueue q { u.queue q with
        st := .stopping, destroyers := [j] })))) ∧
  (∀ (s b : State) (j : Job) (q : Nat), s.takes { op := 0x03, owner := false } j b → j.le 6 2 < 512 ∧ j.one = true
    → b.findQ (b.jobFn j) (j.le 6 2) = some q → 
    exec (.queueQuery j) s = .next ((b.jobWrite j j.hostAddr (b.queueRecord q)).succeed j (leBytes 4 32))) ∧
  (∀ (s b : State) (j : Job) (q : Nat), s.takes { op := 0x04, owner := false } j b → j.le 6 2 < 512 ∧ j.one = true
    → b.findQ (b.jobFn j) (j.le 6 2) = some q → (b.queue q).typ = .completion ∨ (b.queue q).typ = .event → 
    exec (.queueCoalesce j) s = .next (((fun u : State => if (b.queue q).st = .active ∧ 0 < (b.queue q).unsig ∧
      (j.le 8 2 = 0 ∨ j.le 10 2 ≤ (b.queue q).unsig) then u.signal q else u) (b.setQueue q { b.queue q with
      coalUs := j.le 8 2, coalCount := j.le 10 2 })).succeed j [])) ∧
  (∀ (s b : State) (j : Job), s.takes { op := 0x13, owner := false } j b → 
    exec (.echo j) s = .next (b.succeed j (j.bytes 0 8 7)))

/-- Frames of the host and the resource commands. A well-formed injected frame whose pair has room is taken with its
cells charged, to its pipeline or straight to its egress queue; the write of a punted frame puts the frame and its
entry in host memory and moves the tail; an idle MAC starts the frame to be sent again, or else the chosen one. With
operands in range and within the limits, the owner's assignment of each kind is carried out and recorded, a query
writes the holdings as runs, as many whole records as the buffer holds, and HIF_SETUP sets the retry time and the
interrupt pin. (Choices of the model that it rests on: log entries 12, 154 to 157.) (R324, R427, R428, R429, R430,
R431, R455, R456, R458, R459, R483, R677.) -/
def Obligations.FrameAndResourceCommands : Prop :=
  (∀ (s b : State) (j : Job) (f g : Frame) (i k : Nat) (cs : List Nat) (u v : State), s.takes {
    op := 0x0A, owner := false, safe := true } j b → injectPlain j = true → j.byte 0 5 = (b.queue j.q).tc → (j.bit
      4 0 = true → b.injectAllowed (b.jobFn j) (j.le 16 2) = true) → (f = {
      bytes := b.hostRd (b.jobLink j) (j.le 8 8) (j.le 6 2), recv := b.hostRd (b.jobLink j) (j.le 8 8) (j.le 6 2),
        ended := true, inPort := 128 + b.jobLink j, inTc := j.byte 0 5, pairPort := 128 + b.jobLink j, pairTc :=
        j.byte 0 5, injected := true, rx := if j.bit 4 5 then some {
        t := (j.leAt 1 16 6 * 10 ^ 9 + j.leAt 1 24 4) * 256 + j.byte 1 28, cal := false } else none, outTc :=
          j.byte 0 5, ptp := {
          act := j.bits 18 1 0, residence := j.bit 18 2, tag := j.le 20 2, off := if j.bits 18 2 0 = 0 then none
            else some (j.byte 0 19), l4 := if j.bit 18 3 then some (j.byte 0 22) else none } }) → k = cellsFor
            (f.bytes.length + 4) → b.newFrame f = (i, u) → u.chargeCells (128 + b.jobLink j) (j.byte 0 5) k = (cs,
            v) → g = { f with cells := cs.length, held := cs } → 
    (cs.length < k → exec (.injectFrame j) s = .next (((v.setFrame i g).headroomDrop i k).succeed j [])) ∧ (k ≤
      cs.length → j.bit 4 0 = false → exec (.injectFrame j) s = .next (((v.setFrame i g).enterWait (j.bits 4 3 1)
      i).succeed j [])) ∧ (k ≤ cs.length → j.bit 4 0 = true → ∀ t w, (v.setFrame i g).launchTime (b.qPort (j.le 16
      2)) j = (t, w) → exec (.injectFrame j) s = .next (((w.admitTo i (j.le 16 2) t).offerFrame i).succeed j []))) ∧
  (∀ (s t u v w : State) (p : Fin 4096) (x : Queue) (f : Frame) (a q order n : Nat) (e : Copy) (l : List Byte) (cut
    : Bool), x = s.queue p.val → x.drawn = some a ∧ x.punting = some (q, order) → (s.egq q).all.find? (fun c =>
    decide (c.order = order)) = some e → f = s.frame e.frame ∧ n = 2 ^ s.poolShift x.pool - 64 → s.leaveInner (128
    + s.fnLink x.fn) { q := q, copy := e } = (l, t) ∧ cut = decide (n < l.length) → (u = ((t.hostWr (s.fnLink x.fn)
    a ((if e.sample then List.replicate 32 0 else padTo 32 f.user) ++ List.replicate 32 0 ++ l.take n)).hostWr
    (s.fnLink x.fn) (x.base + 32 * x.tail) (puntEntry a l.length f.inPort (s.qTc q) x.pool (l.take n).length cut
    e.sample f)).setQueue p.val { x with tail := (x.tail + 1) % x.size, drawn := none, punting := none }) → v =
    (u.writeBack p.val).leaveCounted q e (l.length + 4) → (w = if cut then v.count 157 (64 + x.pool) 1 else v) → 
    exec (.puntFrameWrite p) s = .next (if x.cq = 0xFFFF then w else (w.findQ x.fn x.cq).elim w (fun c =>
      w.coalesce c false))) ∧
  (∀ (s : State) (n : Fin 141) (m : Fin 2) (q k : Nat), s.macBusy n.val m.val = false → s.resendReady n.val m.val =
    none → s.chosen n.val m.val = some (q, k) → 
    exec (.txFrameStart n m) s = .next (if 128 ≤ n.val ∧ n.val < 132 then s.startPunt n.val q k else s.startChosen
      n.val m.val q k)) ∧
  (∀ (s : State) (n : Fin 141) (m : Fin 2) (e : Nat × Sending), s.macBusy n.val m.val = false → s.resendReady n.val
    m.val = some e → 
    exec (.txFrameStart n m) s = .next (if s.rdb (wPort n.val) Reg.PORT_STATUS_LPI_TX then s.wake n.val else
      s.startResend n.val m.val e)) ∧
  (∀ (s b : State) (j : Job), s.takes { op := 0x10 } j b → assignBad j (j.byte 0 4) (j.byte 0 6) (j.le 8 4) (j.le
    12 4) = false → b.assignLimit (j.byte 0 4) (j.byte 0 6) (j.le 12 4) = false → b.fnExists (j.byte 0 6) = true →
    b.assignBusy (j.byte 0 4) (j.byte 0 6) (j.le 8 4) (j.le 12 4) = false → (j.byte 0 4 = 2 → b.rangeRefused
    (j.byte 0 5) (j.le 8 4) (j.byte 0 16) (j.le 12 4) = false) → 
    exec (.assignResources j) s = .next (((b.assign j (j.byte 0 4) (j.byte 0 6) (j.le 8 4) (j.le 12 4)).event
      Ev.RESOURCE_ASSIGNED b.owner (j.byte 0 4) (j.byte 0 6) (j.le 8 4)).succeed j [])) ∧
  (∀ (s b : State) (j : Job) (l : List (Nat × Nat)) (f : Nat), s.takes { op := 0x11, owner := false } j b → (f = if
    b.jobFn j = b.owner then j.byte 0 6 else b.jobFn j) → j.byte 0 4 ≤ 7 ∧ j.byte 0 5 ≤ 7 ∧ j.byte 0 7 = 0 ∧ j.only
    [(4, 4), (16, 8)] = true → ((j.byte 0 4 ≠ 2 → j.byte 0 5 = 0) ∧ (j.byte 0 4 = 6 → f < 4)) → b.fnExists f = true
    → l = b.holdings (j.byte 0 4) f (j.byte 0 5) → 
    exec (.resourceQuery j) s = .next (((b.draw 32).2.jobWrite j j.hostAddr (leBytes 8 l.length ++ (l.take (b.draw
      32).1.toNat).flatMap (fun e => leBytes 4 e.1 ++ leBytes 4 e.2))).succeed j (leBytes 4 l.length))) ∧
  (∀ (s b : State) (j : Job), s.takes { op := 0x12 } j b → b.linkPresent (j.byte 0 4) = true → 100 ≤ j.le 8 4 ∧
    j.le 8 4 ≤ 25000 ∧ j.byte 0 12 < 2 ∧ j.only [(4, 1), (8, 4), (12, 1), (16, 8)] = true → 
    exec (.hifSetup j) s = .next ((((((b.wr (wHif + 16 * j.byte 0 4) Reg.HIF_LINK_CFG_RETRY_US (j.le 8
      4)).updateCpl (j.byte 0 4)).wr wHif Reg.HIF_PIN_PIN_ALL (j.byte 0 12)).wr wHif Reg.HIF_PIN_EN
      j.hostAddr).updateInt).succeed j []))

/-- Events on the host links and functions. A trained link enters L0 with its rate and width; a recovery is counted;
a link that gives up, resets or loses its reset pin goes down; a function reset begins and completes; a completion
or its expired timer is taken; a held message is sent. (Choices of the model that it rests on: log entries 144 to
153, 179.) (R406, R407, R412, R420, R423, R424, R425, R426, R433, R625, R636.) -/
def Obligations.HostLinks : Prop :=
  (∀ (s : State) (j : Fin 4) (rate : Fin 7) (width : Fin 17) (flit : Bool), s.linkPresent j.val = true ∧ (s.link
    j.val).training = true ∧ (s.link j.val).perst = false → (s.link j.val).up = false ∧ s.devState ≠ 0 ∧
    s.trainable j.val rate.val width.val flit = true → 
    exec (.pcieLinkUp j rate width flit) s = .next ((((((s.setLink j.val { s.link j.val with
      up := true, dlActive := true, training := false }).wr (wHif + 16 * j.val) Reg.HIF_LINK_STATUS_RATE
        rate.val).wr (wHif + 16 * j.val) Reg.HIF_LINK_STATUS_WIDTH width.val).wr (wHif + 16 * j.val)
        Reg.HIF_LINK_STATUS_FLIT (b2n flit)).setL0 j.val true).event Ev.HOST_LINK_UP j.val j.val rate.val
        width.val)) ∧
  (∀ (s u : State) (j : Fin 4) (us : Word32), (s.link j.val).up = true → u = ((s.setLink j.val { s.link j.val with
    l1 := false }).inc (wHif + 16 * j.val) Reg.HIF_LINK_STATUS_RECOVERIES 1).setL0 j.val true → 
    exec (.linkRecovery j us) s = .next (u.event Ev.LINK_RECOVERY j.val j.val us.toNat (u.linkTag j.val))) ∧
  (∀ (s : State) (j : Fin 4) (tag : Nat), (s.link j.val).up = true ∧ (s.link j.val).dlActive = true → tag =
    s.linkTag j.val → 
    exec (.retryUsExpiry j) s = .next ((forEach (s.link j.val).heldTimers (fun e t => t.fireTimer e.1 e.2.1 e.2.2
      tag) ((s.event Ev.HOST_LINK_DOWN j.val j.val 1 tag).fault .hif 9 tag)).linkDown j.val 2)) ∧
  (∀ (s : State) (j : Fin 4) (hot : Bool), (s.link j.val).up = true → 
    exec (.pcieHotReset j hot) s = .next ((s.event Ev.HOST_LINK_DOWN j.val j.val (if hot then 2 else 0) 0).linkDown
      j.val (if hot then 1 else 2))) ∧
  (∀ (s u w : State) (f : Fin 256), s.fnExists f.val = true ∧ (s.fn f.val).resetting = none ∧ 4 ≤ f.val → u =
    ((((s.setFn f.val { resetting := some 0, quota := (s.fn f.val).quota }).destroyAll f.val true).abortBatches
    f.val).maskAll f.val).dropLatches f.val → w = u.setLink (u.fnLink f.val) { u.link (u.fnLink f.val) with
    heldTimers := (u.link (u.fnLink f.val)).heldTimers.filter (fun t => decide (t.1 ≠ f.val)) } → 
    exec (.functionLevelReset f) s = .next (({ w with
      dev := { w.dev with heldEnable := w.dev.heldEnable.filter (fun g => decide (g ≠ f.val)) } } :
        State).updateInt)) ∧
  (∀ (s : State) (f : Fin 256), f.val < 4 → 
    exec (.functionLevelReset f) s = .next ((forEach (rangeFrom (s.vfBase f.val) (s.vfCount f.val)) (fun v s =>
      s.resetOne v 3) s).resetOne f.val 0)) ∧
  (∀ (s u v : State) (f : Fin 256) (c : Nat), (s.fn f.val).resetting = some c → u = (s.setFn f.val { s.fn f.val
    with resetting := none }).clearRegs (s.fnBase f.val) 0x1000 0x8000 → (v = (if f.val = s.owner then u else
    u.clearRegs (s.fnBase f.val) 0xF008 0xF014).updateWin (.fn f)) → 
    exec (.functionResetDone f) s = .next ((v.updateCpl (v.fnLink f.val)).event Ev.FUNCTION_RESET (v.fnLink f.val)
      f.val c 0)) ∧
  (∀ (s : State) (f : Fin 256) (tag : BitVec 14), s.fnExists f.val = true → 
    exec (.completionArrival f tag) s = .next (if s.host.expired.contains (s.fnLink f.val * 2 ^ 14 + tag.toNat)
      then { s with host := { s.host with expired := s.host.expired.erase (s.fnLink f.val * 2 ^ 14 + tag.toNat) } }
      else s.dropTimer (s.fnLink f.val) tag.toNat)) ∧
  (∀ (s : State) (f : Fin 256) (k : ReqKind) (tag : BitVec 14), s.fnExists f.val = true ∧ (s.fn f.val).ctoDis =
    false ∧ (s.link (s.fnLink f.val)).up = true → (s.link (s.fnLink f.val)).heldTimers = [] ∧ s.inL0 (s.fnLink
    f.val) = true → 
    exec (.cplTimerExpiry f k tag false) s = .next ((s.dropTimer (s.fnLink f.val) tag.toNat).fireTimer f.val k
      tag.toNat 0) ∧ exec (.cplTimerExpiry f k tag true) s = .next ((s.setL0 (s.fnLink f.val) false).setLink
      (s.fnLink f.val) { (s.setL0 (s.fnLink f.val) false).link (s.fnLink f.val) with
      heldTimers := ((s.setL0 (s.fnLink f.val) false).link (s.fnLink f.val)).heldTimers ++ [(f.val, k, tag.toNat)]
        })) ∧
  (∀ (s : State) (f : Fin 256) (i : Fin 576), s.msixPending f.val i.val = true → s.canSend f.val i.val = true → 
    exec (.msixPendingSend f i) s = .next ((s.setPendingBit f.val i.val false).sendMessage f.val i.val)) ∧
  (∀ (s u : State) (j : Fin 4), s.linkPresent j.val = true ∧ s.devState ≠ 0 → u = s.setLink j.val { s.link j.val
    with perst := true, training := false } → u.linkPresent j.val = s.linkPresent j.val → 
    exec (.perstNAssert j) s = .next ((if (s.link j.val).up then u.event Ev.HOST_LINK_DOWN j.val j.val 0 0 else
      u).linkDown j.val 2)) ∧
  (∀ (s : State) (j : Fin 4), (s.link j.val).perst = true → 
    exec (.perstNRelease j) s = .next (s.setLink j.val { s.link j.val with
      perst := false, training := s.linkPresent j.val && decide (s.devState ≠ 0) }))

/-- The commands of a front port succeed. Given by the port's holder with valid operands, each port command writes
the settings it carries, makes the change of link or table that the setting asks for, and reports SUCCESS. (Choices
of the model that it rests on: log entries 12, 24, 46, 190.) (R43, R44, R47, R53, R54, R60, R65, R67, R69, R76, R77,
R78.) -/
def Obligations.PortCommands : Prop :=
  (∀ (s b : State) (j : Job) (n w : Nat) (u v : State), s.takes { op := 0x20, owner := false } j b → n = j.le 4 2 ∧
    n < 128 ∧ b.portHolder n = b.jobFn j → j.only [(4, 7), (12, 6)] = true ∧ j.byte 0 9 < 16 ∧ j.byte 0 10 < 32 ∧
    j.bits 10 4 2 < 4 ∧ 64 ≤ j.le 6 2 ∧ j.le 6 2 ≤ 16384 → modeOk (j.byte 0 8) = true ∧ modeFits n (j.byte 0 8) =
    true ∧ fecOk (j.byte 0 8) (j.bits 9 3 0) = true → (13 ≤ n % 16 → groupActive (b.groupMode n) (n % 16) = true ∧
    j.byte 0 8 = b.groupMode n) → (n % 16 = 12 → j.byte 0 8 = b.cfgMode n ∨ (rangeFrom (16 * (n / 16) + 13) 3).any
    b.enabled = false) → ((b.settled n).express n = true → expressMode (j.byte 0 8) (j.bits 9 3 0) = true) → w =
    setBits (setBits (setBits (setBits (setBits (b.reg (wPort n)) 24 24 (j.bits 10 0 0)) 23 23 (j.bits 10 1 1)) 22
    20 (j.bits 10 4 2)) 19 16 (j.bits 9 3 0)) 15 8 (j.byte 0 8) → u = (((b.setReg (wPort n) w).wr (wPort n)
    Reg.PORT_FRAME_MAX_FRAME (j.le 6 2)).wr (wPort n) Reg.PORT_MAC_ADDR_LO_MAC_ADDR (beNat (j.bytes 0 12 6) % 2 ^
    32)).wr (wPort n) Reg.PORT_MAC_ADDR_HI_MAC_ADDR (beNat (j.bytes 0 12 6) / 2 ^ 32) → (u.autoHdrm n).reshare =
    some v → 
    exec (.portConfig j) s = .next ((if w = b.reg (wPort n) ∨ (v.lossyXon n).xonAll.enabled n = false then
      (v.lossyXon n).xonAll else (v.lossyXon n).xonAll.restartLink n).succeed j [])) ∧
  (∀ (s b : State) (j : Job) (n : Nat), s.takes { op := 0x21, owner := false } j b → n = j.le 4 2 ∧ n < 128 ∧
    b.portHolder n = b.jobFn j → j.only [(4, 3)] = true ∧ j.byte 0 6 < 2 → (j.bit 6 0 = true → (13 ≤ n % 16 →
    groupActive (b.groupMode n) (n % 16) = true) ∧ b.cfgMode n ≠ 0) → 
    exec (.portEnable j) s = .next (((b.wr (wPort n) Reg.PORT_CFG_ENABLE (b2n (j.bit 6 0))).restartLink n).succeed
      j [])) ∧
  (∀ (s b : State) (j : Job) (n : Nat), s.takes { op := 0x22, owner := false } j b → n = j.le 4 2 ∧ n < 128 ∧
    b.portHolder n = b.jobFn j → j.only [(4, 2), (8, 8)] = true → 
    exec (.portQuery j) s = .next ((b.jobWrite j (j.le 8 8) (b.regBytes (wPort n) 16)).succeed j [])) ∧
  (∀ (s b : State) (j : Job) (n : Nat) (u : State), s.takes { op := 0x23, owner := false } j b → n = j.le 4 2 ∧ n <
    128 ∧ b.portHolder n = b.jobFn j → j.only [(4, 3), (8, 8)] = true ∧ j.byte 0 6 < 2 → -262144 ≤ sInt 32 (j.le 8
    4) ∧ sInt 32 (j.le 8 4) ≤ 262143 ∧ -262144 ≤ sInt 32 (j.le 12 4) ∧ sInt 32 (j.le 12 4) ≤ 262143 → (j.bit 6 0 =
    true → b.portUp n = true) → u = ((b.setCal n 4 (sInt 32 (j.le 8 4))).setCal n 5 (sInt 32 (j.le 12
    4))).calTotals n → 
    exec (.portCal j) s = .next ((if j.bit 6 0 then u.setPort n { u.port n with measuring := true } else u).succeed
      j [])) ∧
  (∀ (s b : State) (j : Job) (n : Nat) (nib quanta : Nat → Nat) (u v x : State), s.takes {
    op := 0x24, owner := false } j b → n = j.le 4 2 ∧ n < 128 ∧ b.portHolder n = b.jobFn j → (∀ t, nib t = j.bits
      (10 + t / 2) (4 * (t % 2) + 3) (4 * (t % 2))) → (∀ k, quanta k = if k = 0 then j.leAt 1 6 2 else j.le (16 + 2
      * k) 2) → j.len = 2 ∧ j.flagsPlain = true ∧ j.byte 0 6 < 3 ∧ j.byte 0 7 = 0 ∧ j.zero 1 4 2 = true ∧ j.zero 1
      8 24 = true → ((rangeFrom 0 16).any fun t => decide (8 ≤ nib t)) = false → ((b.settled n).express n = true →
      expressPfcBad (nib 14) (nib 15) (j.byte 0 8) (j.byte 0 9) = false) → u = forEach (rangeFrom 0 8) (fun k s =>
      s.wr (wPort n + 4 * k) Reg.PORT_PFC_QUANTA_QUANTA (quanta k)) (forEach (rangeFrom 0 16) (fun t s => s.wr
      (wPort n) (Reg.PORT_PFC_MAP_TC t) (nib t)) (((b.wr (wPort n) Reg.PORT_CFG_PAUSE_MODE (j.byte 0 6)).wr (wPort
      n) Reg.PORT_PFC_CFG_PFC_TX_EN (j.byte 0 8)).wr (wPort n) Reg.PORT_PFC_CFG_PFC_RX_EN (j.byte 0 9))) →
      (u.autoHdrm n).reshare = some v → x = (v.lossyXon n).xonAll → 
    exec (.portPfcSet j) s = .next (((x.setPort n { x.port n with
      changed := (x.port n).changed ||| ((x.port n).sentXoff ^^^ x.xoffMask n) }).pauseReport n).succeed j [])) ∧
  (∀ (s b : State) (j : Job) (n : Nat) (x u v : State), s.takes { op := 0x25, owner := false } j b → n = j.le 4 2 ∧
    n < 128 ∧ b.portHolder n = b.jobFn j → j.only [(4, 5), (10, 2)] = true ∧ j.byte 0 6 < 4 ∧ j.byte 0 7 < 4 ∧
    j.byte 0 8 ≠ 0 ∧ j.byte 0 8 ≤ 128 → (x = if b.portSends n then b.settled n else b) → u = ((((x.wr (wPort n)
    Reg.PORT_CFG_PREEMPT_EN (j.bits 6 0 0)).wr (wPort n) Reg.PORT_PREEMPT_VERIFY_DIS (j.bits 6 1 1)).wr (wPort n)
    Reg.PORT_PREEMPT_FRAG_ADD_FRAG_SIZE (j.byte 0 7)).wr (wPort n) Reg.PORT_PREEMPT_VERIFY_TIME (j.byte 0 8)).wr
    (wPort n) Reg.PORT_PREEMPT_EXPRESS_TC (j.le 10 2 ||| 0xC000) → ((u.startVerify n).autoHdrm n).reshare = some v
    → 
    exec (.portPreemptSet j) s = .next ((if b.portSends n then b.putLater n (.preempt (j.bits 6 0 0) (j.bits 6 1 1)
      (j.byte 0 7) (j.byte 0 8) (j.le 10 2)) else (v.lossyXon n).xonAll).succeed j [])) ∧
  (∀ (s b : State) (j : Job) (n : Nat) (img : List Byte), s.takes { op := 0x26, owner := false } j b → n = j.le 4 2
    ∧ n < 128 ∧ b.portHolder n = b.jobFn j → j.only [(4, 3), (8, 12)] = true ∧ j.byte 0 6 < 2 ∧ j.le 8 8 % 8 = 0 →
    img = b.hostRd (b.jobLink j) (j.le 8 8) (min (j.le 16 4) 2080) → (j.bit 6 0 = true → gclBad img (j.le 16 4) =
    false ∧ gclReserved img = false) → 
    exec (.portGclLoad j) s = .next ((if j.bit 6 0 then (b.countMoved 30 img.length).gclLoad n (some (parseGcl
      img)) else b.gclLoad n none).succeed j [])) ∧
  (∀ (s b : State) (j : Job) (n : Nat), s.takes { op := 0x27, owner := false } j b → n = j.le 4 2 ∧ n < 128 ∧
    b.portHolder n = b.jobFn j → j.only [(4, 2), (8, 8)] = true → 
    (∀ g, (b.port n).gcl = some g → (b.port n).pending = none → exec (.portGclQuery j) s = .next ((b.jobWrite j
      (j.le 8 8) (g.image ++ [])).succeed j [])) ∧ (∀ g, (b.port n).gcl = none → (b.port n).pending = some g → exec
      (.portGclQuery j) s = .next ((b.jobWrite j (j.le 8 8) (g.image ++ (leBytes 6 ((b.port n).change / 10 ^ 9) ++
      [0, 0] ++ leBytes 4 ((b.port n).change % 10 ^ 9)))).succeed j []))) ∧
  (∀ (s b : State) (j : Job) (n : Nat) (x u v : State), s.takes { op := 0x28, owner := false } j b → n = j.le 4 2 ∧
    n < 128 ∧ b.portHolder n = b.jobFn j → j.only [(4, 3), (8, 4)] = true ∧ j.byte 0 6 < 2 → (j.bit 6 0 = true →
    (b.settled n).express n = false ∧ eeeMode (b.cfgMode n) = true) → (x = if b.portSends n then b.settled n else
    b) → u = ((x.wr (wPort n) Reg.PORT_CFG_EEE_EN (b2n (j.bit 6 0))).wr (wPort n) Reg.PORT_EEE_LPI_TIMER (j.le 8
    2)).wr (wPort n) Reg.PORT_EEE_TW_SYS_TX (j.le 10 2) → (((if b2n (j.bit 6 0) = 0 ∧ u.rdb (wPort n)
    Reg.PORT_STATUS_LPI_TX = true then u.wake n else u).autoHdrm n).reshare = some v) → 
    exec (.portEeeSet j) s = .next ((if b.portSends n then b.putLater n (.eee (b2n (j.bit 6 0)) (j.le 8 2) (j.le 10
      2)) else (v.lossyXon n).xonAll).succeed j [])) ∧
  (∀ (s b : State) (j : Job) (n : Nat), s.takes { op := 0x29, owner := false } j b → n = j.le 4 2 ∧ n < 128 ∧
    b.portHolder n = b.jobFn j → j.only [(4, 3)] = true ∧ j.byte 0 6 < 2 → (j.bit 6 0 = true → expressMode
    (b.cfgMode n) (b.cfgFec n) = true ∧ (b.settled n).rdb (wPort n) Reg.PORT_CFG_EEE_EN = false ∧ expressPfcBad
    (b.prioOf n 14) (b.prioOf n 15) (b.rd (wPort n) Reg.PORT_PFC_CFG_PFC_TX_EN) (b.rd (wPort n)
    Reg.PORT_PFC_CFG_PFC_RX_EN) = false) → (j.bit 6 0 = false → b.esch.nodes = []) → 
    exec (.portExpressSet j) s = .next ((if b.portSends n then b.putLater n (.express (b2n (j.bit 6 0))) else b.wr
      (wPort n) Reg.PORT_CFG_EXPRESS (b2n (j.bit 6 0))).succeed j []))

/-- The link of a front port: negotiation, training, up and down, low power, and delay. Each event of a link in the
state that awaits it moves the link on as the rules say, with the status fields and the record that go with it.
(Choices of the model that it rests on: log entries 41, 42, 45, 173, 183, 221.) (R45, R46, R48, R49, R50, R51, R63,
R71, R72, R277, R348, R676.) -/
def Obligations.PortLink : Prop :=
  (∀ (s : State) (n : Fin 128) (common : Bool) (fec : Fin 16) (pause : Fin 4), s.linkState n.val = 1 ∧ s.halting =
    false → 
    (common = false → exec (.anResolved n common fec pause) s = .next ((s.event Ev.AN_FAILED 0 n.val 0
      0).startState n.val 1)) ∧ (common = true → ∀ f, f = (if s.cfgFec n.val ≠ 0xF then s.cfgFec n.val else if
      fec.val ≠ 0xF ∧ fecOk (s.cfgMode n.val) fec.val then fec.val else fecDefault (s.cfgMode n.val)) → exec
      (.anResolved n common fec pause) s = .next ((((s.setPort n.val { s.port n.val with pauseAble := pause.val
      }).wr (wPort n.val) Reg.PORT_STATUS_FEC_RESOLVED f).setLink_ n.val (if s.rdb (wPort n.val) Reg.PORT_CFG_LT_EN
      then 2 else 3)).hdrmMoved n.val))) ∧
  (∀ (s : State) (n : Fin 128), s.linkState n.val = 1 ∧ s.halting = false → 
    exec (.anTimerExpiry n) s = .next ((s.event Ev.AN_FAILED 0 n.val 0 0).startState n.val 1)) ∧
  (∀ (s : State) (n : Fin 128), s.linkState n.val = 2 ∧ s.halting = false → 
    exec (.trainingReceiverReady n) s = .next (s.wr (wPort n.val) Reg.PORT_STATUS_LINK_STATE 3)) ∧
  (∀ (s : State) (n : Fin 128) (lane : BitVec 8), s.linkState n.val = 2 ∧ s.halting = false → 
    exec (.ltMaxWaitExpiry n lane) s = .next ((s.event Ev.LT_FAILED 0 n.val lane.toNat 0).startState n.val (if
      s.rdb (wPort n.val) Reg.PORT_CFG_AN_EN then 1 else 2))) ∧
  (∀ (s u v : State) (n : Fin 128), s.linkState n.val = 3 ∧ s.halting = false ∧ (s.lanesOf n.val).any
    s.dev.laneBad.contains = false → u = (s.setLink_ n.val 4).event Ev.LINK_UP 0 n.val (s.cfgMode n.val) (s.rd
    (wPort n.val) Reg.PORT_STATUS_FEC_RESOLVED) → v = ((u.setPort n.val { u.port n.val with
    measuring := true, sentXoff := 0, refresh := 0, changed := u.xoffMask n.val }).startVerify n.val).portHeadroom
      n.val → 
    exec (.alignmentAchieved n) s = .next (if v.domain n.val then v.sendLink n.val 2 (v.rd (joistBase n.val)
      Reg.JOIST_PORT_C_NEXT_SEQ) else v)) ∧
  (∀ (s : State) (n : Fin 128) (cause : Word32), s.linkState n.val = 4 ∧ s.halting = false → 
    exec (.linkLoss n cause) s = .next (((s.leaveUp n.val (s.firstState n.val)).startState n.val (s.firstState
      n.val)).event Ev.LINK_DOWN 0 n.val cause.toNat 0)) ∧
  (∀ (s : State) (n : Fin 128) (rx tx : Word32), s.linkState n.val = 4 ∧ (s.port n.val).measuring = true → 
    exec (.varMeasured n rx tx) s = .next ((((((s.setCal n.val 2 rx.toInt).setCal n.val 3 tx.toInt).calTotals
      n.val).setPort n.val { s.port n.val with measuring := false }).wr (wPort n.val) Reg.PORT_STATUS_CAL_DONE
      1).event Ev.CAL_DONE 0 n.val (uNat 32 rx.toInt) (uNat 32 tx.toInt))) ∧
  (∀ (s : State) (n : Fin 128), s.portUp n.val = true ∧ s.rdb (wPort n.val) Reg.PORT_CFG_EEE_EN = true ∧ s.rdb
    (wPort n.val) Reg.PORT_STATUS_LPI_TX = false → s.sending n.val 0 = none ∧ s.sending n.val 1 = none ∧ s.chosen
    n.val 0 = none ∧ s.chosen n.val 1 = none → eeeMode (s.cfgMode n.val) = true ∧ (s.port n.val).links = [] ∧
    s.resendReady n.val 0 = none ∧ s.resendReady n.val 1 = none → (s.port n.val).changed = 0 ∧ (s.port
    n.val).refresh = 0 ∧ (s.port n.val).waking = false → s.ridge.queues.any (fun e => decide (s.qPort e.1 = n.val ∧
    s.blockedBy e.1 = 0)) = false → 
    exec (.lpiTimerExpiry n) s = .next ((s.wr (wPort n.val) Reg.PORT_STATUS_LPI_TX 1).portCount n.val 24 1)) ∧
  (∀ (s : State) (n : Fin 128), 
    exec (.twSysTxExpiry n) s = .next ((s.setPort n.val { s.port n.val with waking := false }).flushLinks n.val)) ∧
  (∀ (s : State) (n : Fin 128) (enter : Bool), s.portUp n.val = true → 
    exec (.lowPowerIdleReceived n enter) s = .next (if enter = true ∧ s.rdb (wPort n.val) Reg.PORT_STATUS_LPI_RX =
      false then (s.wr (wPort n.val) Reg.PORT_STATUS_LPI_RX 1).portCount n.val 25 1 else s.wr (wPort n.val)
      Reg.PORT_STATUS_LPI_RX (b2n enter)))

/-- Priority flow control, PAUSE, preemption verification and gate lists at a front port. A PFC frame is sent or
refreshed as the pauses of the port stand, once the link is awake and the MAC is free; a received PFC, PAUSE or
other MAC Control frame is counted and pauses the classes it names; a pause ends at its timer; verification fails or
succeeds; a gate control list takes effect at its change time, and each entry boundary puts the gates and the hold
of its entry in force; and the end of a frame counts it as sent, or sends it round again, before the port's
boundary. (Choices of the model that it rests on: log entries 43, 44.) (R55, R56, R57, R58, R59, R62, R63, R66, R67,
R68, R271, R577.) -/
def Obligations.PortPauses : Prop :=
  (∀ (s u : State) (n : Fin 128) (mask : Nat), s.portUp n.val = true ∧ s.halting = false ∧ s.macFree n.val = true ∧
    (s.port n.val).waking = false → (s.port n.val).changed ≠ 0 ∨ (s.port n.val).refresh ≠ 0 → mask = (rangeFrom 0
    8).foldl (fun a j => a + b2n (((((s.port n.val).changed &&& ((s.port n.val).sentXoff ^^^ s.xoffMask
    n.val)).testBit j && ((s.xoffMask n.val).testBit j || decide (s.quanta n.val j ≠ 0))) || (((s.port
    n.val).refresh &&& (s.port n.val).sentXoff &&& s.xoffMask n.val).testBit j && decide (s.quanta n.val j ≠ 0))))
    * 2 ^ j) 0 → u = s.setPort n.val { s.port n.val with changed := 0, refresh := 0, sentXoff := s.xoffMask n.val }
    → 
    exec (.pfcFrameSend n) s = .next (if s.rdb (wPort n.val) Reg.PORT_STATUS_LPI_TX then s.wake n.val else if mask
      = 0 then u else u.pauseFrame n.val mask (s.xoffMask n.val))) ∧
  (∀ (s : State) (n : Fin 128) (j : Fin 8), s.portUp n.val = true ∧ s.halting = false ∧ (s.port
    n.val).sentXoff.testBit j.val = true ∧ (s.xoffMask n.val).testBit j.val = true ∧ s.quanta n.val j.val ≠ 0 → 
    exec (.pfcRefreshExpiry n j) s = .next (if s.macFree n.val = true ∧ s.rdb (wPort n.val) Reg.PORT_STATUS_LPI_TX
      = false ∧ (s.port n.val).waking = false then s.pauseFrame n.val (2 ^ j.val) (s.xoffMask n.val) else s.setPort
      n.val { s.port n.val with refresh := (s.port n.val).refresh ||| 2 ^ j.val })) ∧
  (∀ (s u : State) (n : Fin 128) (vec : BitVec 8) (times : List (BitVec 16)), s.portUp n.val = true → u = forEach
    ((rangeFrom 0 8).filter (fun j => vec.toNat.testBit j)) (fun j s => s.portCount n.val (40 + j) 1) (s.portCount
    n.val 11 1) → 
    exec (.rxPfcFrame n vec times) s = .next (if s.pauseMode n.val ≠ 2 then u else (u.setPort n.val { u.port n.val
      with rxPaused := (((rangeFrom 0 8).filter (fun j => vec.toNat.testBit j)).filter (fun j => (s.rd (wPort
      n.val) Reg.PORT_PFC_CFG_PFC_RX_EN).testBit j)).foldl (fun a j => setBits a j j (b2n (decide ((times.map
      (·.toNat)).getD j 0 ≠ 0)))) (u.port n.val).rxPaused }).pauseReport n.val)) ∧
  (∀ (s u : State) (n : Fin 128) (q : BitVec 16), s.portUp n.val = true → u = (s.portCount n.val 11 1).portCount
    n.val 13 1 → 
    exec (.rxPauseFrame n q) s = .next (if s.pauseMode n.val ≠ 1 ∨ u.pauseAble n.val 1 = false then u else
      (u.setPort n.val { u.port n.val with rxPauseAll := decide (q.toNat ≠ 0) }).pauseReport n.val)) ∧
  (∀ (s : State) (n : Fin 128), s.portUp n.val = true → 
    exec (.rxMacControlFrame n) s = .next ((s.portCount n.val 11 1).portCount n.val 14 1)) ∧
  (∀ (s : State) (n : Fin 128) (k : Fin 8), 
    exec (.rxPauseTimerExpiry n (some k)) s = .next ((s.setPort n.val { s.port n.val with
      rxPaused := setBits (s.port n.val).rxPaused k.val k.val 0 }).pauseReport n.val) ∧ exec (.rxPauseTimerExpiry n
        none) s = .next ((s.setPort n.val { s.port n.val with rxPauseAll := false }).pauseReport n.val)) ∧
  (∀ (s : State) (n : Fin 128), s.rd (wPort n.val) Reg.PORT_STATUS_VERIFY_STATUS = 2 → 
    exec (.verifyTimeExpiry n) s = .next (if (s.port n.val).attempts < 3 then s.setPort n.val { s.port n.val with
      attempts := (s.port n.val).attempts + 1 } else ((s.wr (wPort n.val) Reg.PORT_STATUS_VERIFY_STATUS 4).event
        Ev.VERIFY_FAILED 0 n.val 0 0).faultPort n.val 1 n.val)) ∧
  (∀ (s u : State) (n : Fin 128) (frag : Fin 4), s.rd (wPort n.val) Reg.PORT_STATUS_VERIFY_STATUS = 2 → u = (s.wr
    (wPort n.val) Reg.PORT_STATUS_VERIFY_STATUS 3).wr (wPort n.val) Reg.PORT_STATUS_PREEMPT_ACTIVE 1 → 
    exec (.verifySucceeded n frag) s = .next ((u.setPort n.val { u.port n.val with txFrag := some frag.val
      }).portHeadroom n.val)) ∧
  (∀ (s u : State) (n : Fin 128) (g : Gcl), (s.port n.val).pending = some g → (s.port n.val).change ≤ s.nowNs → u =
    ((s.setPort n.val { s.port n.val with
    gcl := some g, gclStart := (s.port n.val).change, pending := none, entry := g.entries.length - 1 }).wr (wPort
      n.val) Reg.PORT_STATUS_GCL_ACTIVE 1).wr (wPort n.val) Reg.PORT_STATUS_GCL_PENDING 0 → 
    exec (.gclChangeTime n) s = .next ((u.gclApply n.val).event Ev.GCL_CHANGED 0 n.val ((s.port n.val).change % 10
      ^ 9) 0)) ∧
  (∀ (s u : State) (n : Fin 128) (g : Gcl) (e : Nat) (hold : Bool), (s.port n.val).gcl = some g → e = (g.at (s.port
    n.val).changeAt s.nowNs).1 → (hold = if g.entries = [] then (s.port n.val).hold else (g.passed (s.port
    n.val).entry e).foldl (fun h x => if x.2.1 = 1 then true else if x.2.1 = 2 then false else h) (s.port
    n.val).hold) → u = s.setPort n.val { s.port n.val with
    entry := e, gates := (g.at (s.port n.val).changeAt s.nowNs).2.1, hold := hold } → 
    exec (.gclEntryBoundary n) s = .next (if hold && !(s.port n.val).hold then (if s.preempting n.val &&
      !s.uncuttable n.val then u.fragment n.val 0 else u).portCount n.val 22 1 else u)) ∧
  (∀ (s u v : State) (n : Fin 141) (m : Fin 2) (x : Sending) (l : List Byte) (d : Int) (one : Bool) (len : Nat),
    s.sending n.val m.val = some x → ((s.frame x.copy.frame).ended = true ∨ (s.frame x.copy.frame).bad ≠ 0) ∧
    s.yields n.val m.val = false ∧ ¬(132 ≤ n.val ∧ n.val < 140) → (u, l, d, one, len) = s.sendOut n.val x → (v =
    (((if n.val < 128 then (if x.copy.cut = true ∧ x.resend = false then ((u.count (256 + x.q / 256) (2 * (x.q %
    256)) 1).count (256 + x.q / 256) (2 * (x.q % 256) + 1) len).commit x.q len |>.passLost n.val else (u.count (256
    + x.q / 256) (2 * (x.q % 256)) 1).count (256 + x.q / 256) (2 * (x.q % 256) + 1) len).countBytes n.val 1 len
    else if x.copy.cut = true ∧ x.resend = false then ((u.count (256 + x.q / 256) (2 * (x.q % 256)) 1).count (256 +
    x.q / 256) (2 * (x.q % 256) + 1) len).commit x.q len |>.passLost n.val else (u.count (256 + x.q / 256) (2 *
    (x.q % 256)) 1).count (256 + x.q / 256) (2 * (x.q % 256) + 1) len).txCapture n.val (s.frame x.copy.frame) x l d
    one).offerTx n.val x.copy.frame l).setSending n.val m.val none) → 
    exec (.txFrameEnd n m) s = .next ((if x.seq.any (fun k => (v.jport n.val).kept.any (fun e => decide (e.1 = k)))
      then v else v.unref x.copy.frame).boundary n.val)) ∧
  (∀ (s u : State) (n : Fin 141) (m : Fin 2) (x : Sending) (l : List Byte) (len : Nat), s.sending n.val m.val =
    some x → ((s.frame x.copy.frame).ended = true ∨ (s.frame x.copy.frame).bad ≠ 0) ∧ s.yields n.val m.val = false
    ∧ 132 ≤ n.val ∧ n.val < 140 → (l, u) = s.leaveInner n.val x ∧ len = l.length + 4 → 
    exec (.txFrameEnd n m) s = .next (((((u.count (256 + x.q / 256) (2 * (x.q % 256)) 1).count (256 + x.q / 256) (2
      * (x.q % 256) + 1) len).setSending n.val m.val none).recirculate n.val x l).boundary n.val))

/-- A packet's way to dispatch, and the search slots. A slot cycle grants two slots; the packet granted a slot
enters, is parsed, and waits with its lookups; its parse result is delivered as the graph's slow-path action says;
and it becomes ready when its lookups are and none earlier of its port and class waits. (Choices of the model that
it rests on: log entries 64, 71 to 75, 92.) (R23, R80, R84, R94, R95, R101, R138, R141, R148, R210.) -/
def Obligations.PacketPath : Prop :=
  (∀ (s : State) (p : Fin 8) (e f : Fin 3), (s.pipe p.val).granted = [] → s.admits = true → (s.pipe
    p.val).expiredClaim = none → 
    exec (.slotGrant p e f) s = .next ((s.grantSlot p.val e.val).grantSlot p.val f.val)) ∧
  (∀ (s u : State) (p : Fin 8) (ecc shadow : Fin 3) (i : Nat) (t : List Grant), (s.pipe p.val).granted = .packet i
    :: t → (s.pipe p.val).waiting.contains i = true → u = s.setPipe p.val { s.pipe p.val with
    granted := t, waiting := (s.pipe p.val).waiting.erase i } → s.graphValid p.val = false → 
    exec (.packetEntry p ecc shadow) s = .next ((u.pipeCount p.val 0 1).dropFrame i)) ∧
  (∀ (s u v : State) (p : Fin 8) (ecc shadow : Fin 3) (i : Nat) (t : List Grant) (x : Packet), (s.pipe
    p.val).granted = .packet i :: t → (s.pipe p.val).waiting.contains i = true → s.graphValid p.val = true → u =
    ((s.setPipe p.val { s.pipe p.val with granted := t, waiting := (s.pipe p.val).waiting.erase i }).pcEvent (some
    p.val) 0x02 1 (fun _ => true) {}).inFlightAdd p.val (s.parity p.val) 1 → x = u.parsed p.val i → v = u.setFrame
    i { u.frame i with sysport := u.learnedPort p.val (u.frame i).inPort x.bank x.parse (u.frame i).bytes } → 
    exec (.packetEntry p ecc shadow) s = .next (((v.slotLookups p.val shadow.val x).2.setPipe p.val {
      (v.slotLookups p.val shadow.val x).2.pipe p.val with packets := ((v.slotLookups p.val shadow.val x).2.pipe
      p.val).packets ++ [(v.slotLookups p.val shadow.val x).1] }).bankError p.val (if ecc.val = 2 then 3 else
      ecc.val))) ∧
  (∀ (s u v : State) (p : Fin 8) (x : Packet) (r : Nat), (s.pipe p.val).packets.find? (fun z => decide (z.stage =
    0)) = some x → r = prReason x.parse → (u = if r = 0 then s else s.pipeCount p.val r 1) → (v = if slowEvent
    (s.graph p.val x.bank) r then u.event Ev.SLOW_PATH p.val (prPort x.parse) r (imB x.parse 108) else u) → 
    exec (.parseResultDelivery p) s = .next (if slowAction (s.graph p.val x.bank) r = 0 then v.discardPacket p.val
      x else v.setPacket p.val { x with stage := 1 })) ∧
  (∀ (s : State) (p : Fin 8) (i : Nat) (x : Packet), (s.pipe p.val).packets.find? (fun z => decide (z.frame = i)) =
    some x → x.stage = 1 ∧ x.em = none → ((s.pipe p.val).packets.takeWhile (fun z => decide (z.frame ≠ i))).any
    (fun z => decide ((s.frame z.frame).inPort = (s.frame i).inPort ∧ (s.frame z.frame).inTc = (s.frame i).inTc ∧
    z.stage < 2)) = false → 
    exec (.lookupResultsReady p i) s = .next (s.setPacket p.val { x with stage := 2 }))

/-- Loading, swapping and reading a parse graph. A valid image is loaded into the shadow banks of the masked
pipelines, each shadow becomes valid as it is written and the last one completes the job; a swap exchanges the
banks; a drain that has ended lets a waiting load begin; a read writes the image. (Choices of the model that it
rests on: log entries 12, 49, 65, 192 to 196.) (R95, R97, R98, R99, R102.) -/
def Obligations.GraphLoads : Prop :=
  (∀ (s b : State) (j : Job) (g : List Byte), s.inTurn j 0x30 0x32 = true → s.takes { op := 0x30 } j b → g =
    b.hostRd (b.jobLink j) (j.le 8 8) (min (j.le 16 4) 69889) → j.byte 0 4 ≠ 0 ∧ j.le 8 8 % 8 = 0 → graphFail g
    (j.le 16 4) = none → 
    exec (.trussGraphLoad j) s = .next ((forEach (maskList (j.byte 0 4)) (fun p s => if (s.setPipe p { s.pipe p
      with load := some { job := j, image := g, mask := j.byte 0 4 } }).rdb (wPipe p)
      Reg.PIPE_TRUSS_STATUS_DRAINING then s.setPipe p { s.pipe p with
      load := some { job := j, image := g, mask := j.byte 0 4 } } else (s.setPipe p { s.pipe p with
        load := some { job := j, image := g, mask := j.byte 0 4 } }).beginLoad p) (b.countMoved 28 g.length)))) ∧
  (∀ (s u v : State) (p : Fin 8) (l : GraphLoad), (s.pipe p.val).load = some l → s.rdb (wPipe p.val)
    Reg.PIPE_TRUSS_STATUS_LOAD_BUSY = true → u = ((s.setGraph p.val (1 - s.trussBank p.val) l.image).wr (wPipe
    p.val) Reg.PIPE_TRUSS_STATUS_LOAD_BUSY 0) → v = (((u.wr (wPipe p.val) Reg.PIPE_TRUSS_STATUS_SHADOW_VALID
    1).setPipe p.val { u.pipe p.val with load := none }).trussReport p.val).event Ev.GRAPH_LOADED p.val l.mask (imH
    l.image 6) 0 → 
    exec (.trussShadowWritten p) s = .next (if (rangeFrom 0 8).any (fun q => decide (((v.pipe q).load.map (·.job))
      = some l.job)) then v else v.complete l.job St.SUCCESS [])) ∧
  (∀ (s b : State) (j : Job), s.inTurn j 0x30 0x32 = true → s.takes { op := 0x31, safe := true } j b → (maskList
    (j.byte 0 4)).any (fun p => !b.trussShadow p) = false → 
    exec (.trussGraphSwap j) s = .next ((forEach (maskList (j.byte 0 4)) (fun p s => s.swapBank p) b).succeed j
      [BitVec.ofNat 8 (j.byte 0 4)])) ∧
  (∀ (s : State) (p : Fin 8), s.rdb (wPipe p.val) Reg.PIPE_TRUSS_STATUS_DRAINING = true → s.trussHolds p.val (1 -
    s.trussBank p.val) = false → 
    exec (.trussDrainEnd p) s = .next ((s.wr (wPipe p.val) Reg.PIPE_TRUSS_STATUS_DRAINING 0).beginLoad p.val)) ∧
  (∀ (s b : State) (j : Job) (p : Nat) (g : List Byte), s.takes { op := 0x32 } j b → s.inTurn j 0x30 0x32 = true →
    oneOf (j.byte 0 4) = some p → (g = b.graph p (if j.bit 5 0 then 1 - b.trussBank p else b.trussBank p)) → ((if
    j.bit 5 0 then b.trussShadow p else b.graphValid p) = true) → g.length ≤ j.le 16 4 → 
    exec (.trussGraphRead j) s = .next ((b.jobWrite j (j.le 8 8) g).succeed j (leBytes 4 g.length)))

/-- The commands of Mortise, and its scrubbing. With valid operands a host search waits for its slot and its result
is delivered in order; profiles, port words and the scrubber's settings are written to every masked pipeline;
records are read from the shadow; credits are earned up to 16; and a scrub pass starts, steps and reports a period
that ended too soon. (Choices of the model that it rests on: log entries 12, 49, 62, 63, 197 to 199.) (R123, R124,
R125, R128, R129, R130, R131, R132, R133, R134.) -/
def Obligations.MortiseCommands : Prop :=
  (∀ (s b : State) (j : Job), s.takes { op := 0x4B, owner := false, safe := true } j b → (j.len = if (b.mrange
    (j.bits 4 2 0) (j.bits 5 3 0)).wide then 6 else 3) → j.bit 6 0 = (b.mrange (j.bits 4 2 0) (j.bits 5 3 0)).wide
    → (b.mrange (j.bits 4 2 0) (j.bits 5 3 0)).owner = b.jobFn j → s.searchRefused j = none ∧ s.halting = false → 
    exec (.mortiseSearch j) s = .next ((b.setPipe (j.bits 4 2 0) { b.pipe (j.bits 4 2 0) with
      searches := (b.pipe (j.bits 4 2 0)).searches ++ [{ job := j }] }))) ∧
  (∀ (s : State) (p : Fin 8) (y : Search), (s.pipe p.val).results.find? (fun z => !(s.inFlight z.job) ||
    s.oldestJob z.job) = some y → 
    exec (.mortiseSearchResult p) s = .next (((fun u : State => if y.served then u.inFlightAdd p.val y.epoch (-1)
      else u) (s.setPipe p.val { s.pipe p.val with results := (s.pipe p.val).results.erase y })).complete y.job
      y.status y.result)) ∧
  (∀ (s : State) (p : Fin 8), 
    exec (.floorCreditEarn p) s = .next (s.wr (wPipe p.val) Reg.PIPE_MORTISE_FLOOR_CREDITS (min 16 (s.rd (wPipe
      p.val) Reg.PIPE_MORTISE_FLOOR_CREDITS + 1)))) ∧
  (∀ (s b : State) (j : Job) (g : List Byte), s.takes { op := 0x4C } j b → g = b.hostRd (b.jobLink j) (j.le 8 8)
    160 → maskList (j.byte 0 4) ≠ [] → (j.only [(4, 2), (8, 8)] = true ∧ j.byte 0 5 < 16 ∧ j.le 8 8 % 8 = 0) ∧ bits
    (imW g 0) 30 4 = 0 ∧ imW g 156 = 0 → (maskList (j.byte 0 4)).any (fun p => (rangeFrom 1 38).any (fun k =>
    badExtractor (imW g (4 * k)) (!(b.mrange p (imW g 0 % 16)).wide && decide (18 < k)))) = false → 
    exec (.mortiseProfileSet j) s = .next ((forEach (maskList (j.byte 0 4)) (fun p s => forEach (rangeFrom 0 39)
      (fun k s => s.setReg (mprofWord p (j.byte 0 5) k) (imW g (4 * k))) s) (b.countMoved 28 160)).succeed j [])) ∧
  (∀ (s b : State) (j : Job), s.takes { op := 0x4D } j b → maskList (j.byte 0 4) ≠ [] → j.byte 0 5 ≤ 16 ∧ bits
    (j.le 8 4) 29 21 = 0 ∧ bits (j.le 8 4) 15 12 = 0 ∧ bits (j.le 8 4) 7 4 = 0 → 
    exec (.mortisePortSet j) s = .next ((forEach (maskList (j.byte 0 4)) (fun p s => s.setReg (wPipe p + 0x10200 +
      4 * j.byte 0 5) (j.le 8 4)) b).succeed j [])) ∧
  (∀ (s b : State) (j : Job) (p : Nat), s.takes { op := 0x4E, owner := false } j b → oneOf (j.byte 0 4) = some p →
    (rangeFrom (j.le 6 2) (j.le 16 2)).all (fun y => (b.rangeOf p y).any (fun m => decide (m.owner = b.jobFn j))) =
    true → 
    exec (.mortiseRead j) s = .next (((b.shadowBytes p (j.le 6 2) (j.le 16 2)).2.jobWrite j (j.le 8 8)
      (b.shadowBytes p (j.le 6 2) (j.le 16 2)).1).succeed j (leBytes 4 (176 * j.le 16 2)))) ∧
  (∀ (s b : State) (j : Job), s.takes { op := 0x4F } j b → 
    exec (.mortiseScrubSet j) s = .next ((forEach (maskList (j.byte 0 4)) (fun p s => if j.bit 5 0 then (s.wr
      (wPipe p) Reg.PIPE_MORTISE_STATUS_SCRUB_EN (j.bits 5 0 0)).wr (wPipe p) Reg.PIPE_MORTISE_STATUS_PERIOD_MS
      (j.le 6 2) else ((s.wr (wPipe p) Reg.PIPE_MORTISE_STATUS_SCRUB_EN (j.bits 5 0 0)).wr (wPipe p)
      Reg.PIPE_MORTISE_STATUS_PERIOD_MS (j.le 6 2)).wr (wPipe p) Reg.PIPE_MORTISE_STATUS_SCRUB_ACTIVE 0) b).succeed
      j [])) ∧
  (∀ (s : State) (p : Fin 8), s.scrubRuns p.val = true → 
    exec (.scrubPeriodExpiry p) s = .next (if s.rdb (wPipe p.val) Reg.PIPE_MORTISE_STATUS_SCRUB_ACTIVE then
      (s.setPipe p.val { s.pipe p.val with scrubLate := true }).event Ev.SCRUB_LATE p.val p.val (s.rd (wPipe p.val)
      Reg.PIPE_MORTISE_SCRUB_POS_NEXT_INDEX) 0 else s.startPass p.val)) ∧
  (∀ (s : State) (p : Fin 8) (ecc : Fin 3) (x : Nat), s.scrubRuns p.val = true ∧ s.rdb (wPipe p.val)
    Reg.PIPE_MORTISE_STATUS_SCRUB_ACTIVE = true ∧ (s.pipe p.val).scrubTail = false → x = s.rd (wPipe p.val)
    Reg.PIPE_MORTISE_SCRUB_POS_NEXT_INDEX → x < 16383 ∧ (s.pipe p.val).writing x = false → s.slotFree p.val = true
    → 
    exec (.scrubCheck p ecc) s = .next ((s.scrubEntry p.val x ecc.val).wr (wPipe p.val)
      Reg.PIPE_MORTISE_SCRUB_POS_NEXT_INDEX (x + 1)))

/-- The operations of TABLE_SETUP succeed. With valid fields, each operation writes its registers in every masked
pipeline (the age keep-up count in all eight) and reports SUCCESS; seeds are written only while no entry they place
would move. (Choices of the model that it rests on: log entry 12.) (R137, R142, R155, R176, R177, R178.) -/
def Obligations.TableSetup : Prop :=
  (∀ (s b : State) (j : Job) (g : List Byte), s.takes { op := 0x48, owner := true } j b → j.byte 0 5 = 0 → g =
    b.hostRd (b.jobLink j) (j.le 8 8) 32 → j.only [(4, 3), (8, 8)] = true ∧ j.byte 0 6 < 16 ∧ j.le 8 8 % 8 = 0 →
    bits (imW g 0) 24 24 = 0 ∧ bits (imW g 0) 19 15 = 0 ∧ bits (imW g 8) 31 25 = 0 ∧ bits (imW g 8) 24 16 ≤ 510 →
    (rangeFrom 0 5).any (fun i => decide (6 ≤ bits (imW g 0) (3 * i + 2) (3 * i))) = false → (rangeFrom 3 5).any
    (fun k => badExtractor (imW g (4 * k)) false) = false → 
    exec (.tableSetupProfile j) s = .next ((forEach (maskList (j.byte 0 4)) (fun p s => forEach (rangeFrom 0 8)
      (fun k s => s.setReg (tprofWord p (j.byte 0 6) k) (imW g (4 * k))) s) (if maskList (j.byte 0 4) = [] then b
      else b.countMoved 30 32)).succeed j [])) ∧
  (∀ (s b : State) (j : Job) (k : Nat), s.takes { op := 0x48, owner := true } j b → j.byte 0 5 = 1 → k = j.byte 0 6
    ∧ k ≤ 16 ∧ j.only [(4, 3), (8, 8)] = true → bits (j.le 8 4) 28 26 = 0 ∧ bits (j.le 8 4) 23 21 = 0 ∧ bits (j.le
    8 4) 15 12 = 0 ∧ bits (j.le 8 4) 7 4 = 0 → bits (j.le 12 4) 31 30 = 0 ∧ bits (j.le 12 4) 15 12 = 0 → 
    exec (.tableSetupPort j) s = .next ((forEach (maskList (j.byte 0 4)) (fun p s => (s.setReg (wPipe p + 0x20100 +
      8 * k) (j.le 8 4)).setReg (wPipe p + 0x20104 + 8 * k) (j.le 12 4)) b).succeed j [])) ∧
  (∀ (s b : State) (j : Job), s.takes { op := 0x48, owner := true } j b → j.byte 0 5 = 2 → maskList (j.byte 0 4) ≠
    [] → j.only [(4, 2), (8, 16)] = true ∧ bits (j.le 8 4) 31 23 = 0 ∧ bits (j.le 12 4) 30 30 = 0 ∧ bits (j.le 12
    4) 15 13 = 0 ∧ bits (j.le 12 4) 12 0 ≠ 0 → j.le 16 4 ≠ 0 ∧ j.le 16 4 ≤ 65535 ∧ j.le 20 4 ≤ 31 → 
    exec (.tableSetupLearnAge j) s = .next ((forEach (rangeFrom 0 8) (fun p s => s.setReg (wPipe p + 0x2003C) (j.le
      20 4)) (forEach (maskList (j.byte 0 4)) (fun p s => ((s.setReg (wPipe p + 0x20030) (j.le 8 4)).setReg (wPipe
      p + 0x20034) (j.le 12 4)).setReg (wPipe p + 0x20038) (j.le 16 4)) b)).succeed j [])) ∧
  (∀ (s b : State) (j : Job), s.takes { op := 0x48, owner := true } j b → j.byte 0 5 = 3 → j.only [(4, 2), (8, 16)]
    = true → (∀ p ∈ maskList (j.byte 0 4), (b.pipe p).learn = []) → 
    exec (.tableSetupLearnSeeds j) s = .next ((forEach (maskList (j.byte 0 4)) (fun p s => forEach (rangeFrom 0 4)
      (fun w s => s.setReg (wPipe p + 0x20010 + 4 * w) (j.le (8 + 4 * w) 4)) s) b).succeed j [])) ∧
  (∀ (s b : State) (j : Job), s.takes { op := 0x48, owner := true } j b → j.byte 0 5 = 4 → j.byte 0 4 = 0xFF ∧
    j.only [(4, 2), (8, 16)] = true → b.em.used = [] ∧ (rangeFrom 0 8).any (fun p => decide ((b.pipe p).nexthop ≠
    [])) = false → 
    exec (.tableSetupEmSeeds j) s = .next ((forEach (maskList 0xFF) (fun p s => forEach (rangeFrom 0 4) (fun k s =>
      s.setReg (wPipe p + 0x20020 + 4 * k) (j.le (8 + 4 * k) 4)) s) b).succeed j [])) ∧
  (∀ (s b : State) (j : Job) (i t : Nat), s.takes { op := 0x48, owner := false } j b → j.byte 0 5 = 5 → i = j.le 8
    2 ∧ t = j.byte 0 6 ∧ t < 4 ∧ j.only [(4, 3), (8, 2)] = true → b.tenantOwner 0 t = b.jobFn j → i = 0xFFFF ∨ 1 ≤
    i ∧ i ≤ 511 ∧ (b.findQ (b.jobFn j) i).any (fun q => decide ((b.queue q).typ = .event)) = true → 
    exec (.tableSetupEventQ j) s = .next ((forEach (maskList (j.byte 0 4)) (fun p s => s.wr (tenantBase p t)
      Reg.PIPE_TENANT_A_EVENT_Q i) b).succeed j []))

/-- TABLE_LOOKUP, TABLE_DUMP and the return of a bucket read. A lookup of a table that the caller may read reports
whether its key is found and where, and writes the record; a dump writes the entries of the caller's tenants from a
position; a bucket read that returns resolves the lookup that waits. (Choices of the model that it rests on: log
entries 12, 28, 53, 181.) (R161, R162, R166, R172, R176, R177.) -/
def Obligations.TableReads : Prop :=
  (∀ (s b : State) (j : Job) (p e tenant n : Nat) (key : List Byte) (r : Option (List Byte) × Nat), s.takes {
    op := 0x49, owner := false } j b → oneOf (j.byte 0 4) = some p → j.byte 0 5 ≤ 3 ∧ j.byte 0 6 ≤ 2 → (e = if
      j.byte 0 6 = 2 then b.parity p else j.byte 0 6 % 2) → n = [8, 21, 20].getD (j.byte 0 5) 4 → key = b.hostRd
      (b.jobLink j) (j.le 8 8) n → (tenant = if j.byte 0 5 = 0 then lrTenant key else imB key 20 % 4) → (if j.byte
      0 5 ≤ 1 then b.tenantOwner p tenant = b.jobFn j else b.jobFn j = b.owner) → (j.byte 0 5 = 3 → leNat key <
      131072) → (j.byte 0 5 = 0 → r = ((b.learnFind p key e).map (b.learnAt p), 3)) → (j.byte 0 5 = 1 → r =
      b.emPeek p (emKey key) e) → (j.byte 0 5 = 2 → r = (b.lpmFind p (rtVrf key) (rtAf key) (key.take (if rtAf key
      = 0 then 4 else 16)) e, 3)) → (j.byte 0 5 = 3 → r = ((some (b.nhAt p (leNat key))).filter (fun x => liveIn 4
      e x), 3)) → 
    exec (.tableLookup j) s = .next ((r.1.elim (b.countMoved 30 n) (fun x => (b.countMoved 30 n).jobWrite j (j.le
      16 8) (padTo 32 x))).succeed j [BitVec.ofNat 8 (b2n r.1.isSome), BitVec.ofNat 8 r.2])) ∧
  (∀ (s b : State) (j : Job) (p n : Nat) (l : List Nat), s.takes { op := 0x4A, owner := false } j b → oneOf (j.byte
    0 4) = some p → j.byte 0 5 = 0 ∧ n = min 16777215 (min l.length (j.le 16 4 / 16)) ∧ l.length ≤ n → l = ((b.pipe
    p).learn.map (·.1)).filter (fun k => decide (j.le 20 4 ≤ k) && b.learnAt p k != [] && decide (b.tenantOwner p
    (lrTenant (b.learnAt p k)) = b.jobFn j)) → 
    exec (.tableDump j) s = .next ((b.jobWrite j (j.le 8 8) (l.flatMap (b.learnAt p))).succeed j (leBytes 3
      l.length ++ leBytes 4 0xFFFFFFFF))) ∧
  (∀ (s b : State) (j : Job) (p n : Nat) (l : List Nat), s.takes { op := 0x4A, owner := false } j b → oneOf (j.byte
    0 4) = some p → j.byte 0 5 = 1 ∧ n = min 16777215 (min l.length (j.le 16 4 / 32)) ∧ l.length ≤ n → l =
    (b.emListed ++ (b.pipe p).emStash.map (fun e => emStash0 + e.1)).filter (fun k => decide (j.le 20 4 ≤ k) &&
    b.emAt p k != [] && decide (b.tenantOwner p (imB (b.emAt p k) 20 % 4) = b.jobFn j)) → 
    exec (.tableDump j) s = .next ((b.jobWrite j (j.le 8 8) (l.flatMap (b.emAt p))).succeed j (leBytes 3 l.length
      ++ leBytes 4 0xFFFFFFFF))) ∧
  (∀ (s u v : State) (p : Fin 8) (i bk : Nat) (x y z : Packet) (w : EmWait) (r : List Byte), (s.pipe
    p.val).packets.find? (fun z => decide (z.frame = i)) = some x → x.em = some w ∧ s.anyOffline = false → (bk = if
    w.second then s.emB2 w.key else s.emB1 w.key) → s.bucketFind bk w.key x.epoch = some r → u = s.emFill p.val w
    (some r) ∧ y = { x with look := x.look.emFound r 2, em := none } → ((z, v) = if y.nhSrc = 2 then u.nhLookup
    p.val y else (y, u)) → 
    exec (.emBucketReadReturn p i true) s = .next (v.setPipe p.val { v.pipe p.val with
      packets := (v.pipe p.val).packets.map (fun q => if q.frame = i then z.resolved else q) })) ∧
  (∀ (s : State) (p : Fin 8) (i bk : Nat) (x : Packet) (w : EmWait), (s.pipe p.val).packets.find? (fun z => decide
    (z.frame = i)) = some x → x.em = some w ∧ s.anyOffline = false ∧ w.second = false → bk = s.emB1 w.key →
    s.bucketFind bk w.key x.epoch = none ∧ s.spillCnt bk ≠ 0 → 
    exec (.emBucketReadReturn p i true) s = .next ((s.pipeCount p.val 37 1).setPipe p.val { (s.pipeCount p.val 37
      1).pipe p.val with packets := ((s.pipeCount p.val 37 1).pipe p.val).packets.map (fun q => if q.frame = i then
      { x with em := some { w with second := true } } else q) }))

/-- Learning and ageing. The learn arbiter of a pipeline applies its oldest request, a local learn or a notice; the
tick count advances modulo 65,536; the sweep visits an entry; a refresh notice marks its entry's hit; a learn notice
is posted to its tenant's queue. (Choices of the model that it rests on: log entries 58 to 61, 69, 70.) (R149, R150,
R151, R152, R155, R156, R157, R244.) -/
def Obligations.Learning : Prop :=
  (∀ (s : State) (p : Fin 8) (key : List Byte) (port : Nat) (t : List LearnReq), (s.pipe p.val).arbIdle = true ∧
    s.halting = false → (s.pipe p.val).arbQ = .own key port :: t → 
    exec (.learnApply p) s = .next (((s.setPipe p.val { s.pipe p.val with arbQ := t }).applyOwn p.val key
      port).arbAdvance p.val)) ∧
  (∀ (s : State) (p : Fin 8) (key : List Byte) (port o : Nat) (t : List LearnReq), (s.pipe p.val).arbIdle = true ∧
    s.halting = false → (s.pipe p.val).arbQ = .notice key port o :: t → 
    exec (.noticeApply p) s = .next (((s.setPipe p.val { s.pipe p.val with arbQ := t }).applyNotice p.val key
      port).arbAdvance p.val)) ∧
  (∀ (s : State) (p : Fin 8), 
    exec (.ageTick p) s = .next (s.setPipe p.val { s.pipe p.val with
      tick := (s.tick p.val + 1) % 65536, agePaused := (s.pipe p.val).agePaused - 1 })) ∧
  (∀ (s : State) (p : Fin 8) (k : Fin 262152), s.learnAt p.val k.val ≠ [] ∧ s.halting = false ∧ s.sweepPaused p.val
    = false ∧ s.dutyRuns p.val = true → s.sweepRefreshes p.val (s.learnAt p.val k.val) = false → 
    (s.sweepWrite p.val k.val = none → exec (.ageingVisit p k) s = .next s) ∧ (∀ op, s.sweepWrite p.val k.val =
      some op → exec (.ageingVisit p k) s = .next ((s.arbPush p.val (.sweep (learnKey (s.learnAt p.val k.val))
      op)).arbAdvance p.val))) ∧
  (∀ (s : State) (p : Fin 8) (key : List Byte) (t : List (List Byte)), (s.pipe p.val).refreshes = key :: t →
    s.halting = false → 
    exec (.refreshNoticeApply p) s = .next (s.setPipe p.val { s.pipe p.val with
      refreshes := t, learn := (s.learnCopies p.val key).foldl (fun a k => tabSet (fun _ => []) a k (withHit
        (s.learnAt p.val k) (s.tick p.val))) (s.pipe p.val).learn })) ∧
  (∀ (s u : State) (p : Fin 8) (t q : Nat) (r : List Byte) (rest : List (Nat × List Byte)), (s.pipe p.val).posts =
    (t, r) :: rest ∧ s.dutyRuns 8 = true → s.findQ (s.tenantOwner p.val t) (s.rd (tenantBase p.val t)
    Reg.PIPE_TENANT_A_EVENT_Q) = some q → u = s.setPipe p.val { s.pipe p.val with posts := rest } → 
    exec (.learnNoticePost p) s = .next (if ((u.postEvent q r).queue q).lost ≠ (u.queue q).lost then (u.postEvent q
      r).pipeCount p.val 32 1 else u.postEvent q r))

/-- UPD_INSERT, UPD_MODIFY, UPD_DELETE, UPD_MOVE and UPDATE_SETUP. When it is its queue's oldest job and the units
of its pipelines are idle, an update that names a pipeline, is well formed, passes its batch and its table's checks
and fits the journal begins with the plan of writes those checks make; one of the learning table joins the learn
arbiters of its pipelines in the order of arrival; UPDATE_SETUP writes its three settings in every masked pipeline.
(Choices of the model that it rests on: log entries 12, 49, 50, 54 to 57, 67, 68, 182, 204.) (R181, R184, R185,
R186, R187, R188, R195, R196, R206.) -/
def Obligations.UpdateCommands : Prop :=
  (∀ (s b : State) (j : Job) (c : UpdCmd) (a : Plan) (t : State), s.updReady j = true → s.takes {
    op := 0x40, owner := false, safe := true } j b → c = updCmd b j ∧ c.mask ≠ 0 ∧ c.table ≠ 1 ∧ updMalformed j c =
      false → t = forEach (maskList c.mask) (fun p s => s.setPipe p { s.pipe p with lastUpd := j.q }) b ∧ c =
      updCmd t j → t.batchRefuses j c = none → t.planAll c ((updScopes c.table c.mask).getD []) = .ok a →
      (c.batched = true → ∀ y, t.batch (j.le 8 2) = some y → (a.journal y.journal).length ≤ 4096) → 
    exec (.updInsert j) s = .next ((t.startUpdate j c a))) ∧
  (∀ (s b : State) (j : Job) (c : UpdCmd) (t : State), s.updReady j = true → s.takes {
    op := 0x40, owner := false, safe := true } j b → c = updCmd b j ∧ c.mask ≠ 0 ∧ c.table = 1 ∧ updMalformed j c =
      false → t = forEach (maskList c.mask) (fun p s => s.setPipe p { s.pipe p with
      arbQ := (s.pipe p).arbQ ++ [.host j] }) (forEach (maskList c.mask) (fun p s => s.setPipe p { s.pipe p with
        lastUpd := j.q }) b) → 
    exec (.updInsert j) s = .next ((forEach (maskList c.mask) (fun p s => s.arbAdvance p) t))) ∧
  (∀ (s b : State) (j : Job) (c : UpdCmd) (a : Plan) (t : State), s.updReady j = true → s.takes {
    op := 0x41, owner := false, safe := true } j b → c = updCmd b j ∧ c.mask ≠ 0 ∧ c.table ≠ 1 ∧ updMalformed j c =
      false → t = forEach (maskList c.mask) (fun p s => s.setPipe p { s.pipe p with lastUpd := j.q }) b ∧ c =
      updCmd t j → t.batchRefuses j c = none → t.planAll c ((updScopes c.table c.mask).getD []) = .ok a →
      (c.batched = true → ∀ y, t.batch (j.le 8 2) = some y → (a.journal y.journal).length ≤ 4096) → 
    exec (.updModify j) s = .next ((t.startUpdate j c a))) ∧
  (∀ (s b : State) (j : Job) (c : UpdCmd) (t : State), s.updReady j = true → s.takes {
    op := 0x41, owner := false, safe := true } j b → c = updCmd b j ∧ c.mask ≠ 0 ∧ c.table = 1 ∧ updMalformed j c =
      false → t = forEach (maskList c.mask) (fun p s => s.setPipe p { s.pipe p with
      arbQ := (s.pipe p).arbQ ++ [.host j] }) (forEach (maskList c.mask) (fun p s => s.setPipe p { s.pipe p with
        lastUpd := j.q }) b) → 
    exec (.updModify j) s = .next ((forEach (maskList c.mask) (fun p s => s.arbAdvance p) t))) ∧
  (∀ (s b : State) (j : Job) (c : UpdCmd) (a : Plan) (t : State), s.updReady j = true → s.takes {
    op := 0x42, owner := false, safe := true } j b → c = updCmd b j ∧ c.mask ≠ 0 ∧ c.table ≠ 1 ∧ updMalformed j c =
      false → t = forEach (maskList c.mask) (fun p s => s.setPipe p { s.pipe p with lastUpd := j.q }) b ∧ c =
      updCmd t j → t.batchRefuses j c = none → t.planAll c ((updScopes c.table c.mask).getD []) = .ok a →
      (c.batched = true → ∀ y, t.batch (j.le 8 2) = some y → (a.journal y.journal).length ≤ 4096) → 
    exec (.updDelete j) s = .next ((t.startUpdate j c a))) ∧
  (∀ (s b : State) (j : Job) (c : UpdCmd) (t : State), s.updReady j = true → s.takes {
    op := 0x42, owner := false, safe := true } j b → c = updCmd b j ∧ c.mask ≠ 0 ∧ c.table = 1 ∧ updMalformed j c =
      false → t = forEach (maskList c.mask) (fun p s => s.setPipe p { s.pipe p with
      arbQ := (s.pipe p).arbQ ++ [.host j] }) (forEach (maskList c.mask) (fun p s => s.setPipe p { s.pipe p with
        lastUpd := j.q }) b) → 
    exec (.updDelete j) s = .next ((forEach (maskList c.mask) (fun p s => s.arbAdvance p) t))) ∧
  (∀ (s b : State) (j : Job) (c : UpdCmd) (a : Plan) (t : State), s.updReady j = true → s.takes {
    op := 0x43, owner := false, safe := true } j b → c = updCmd b j ∧ c.mask ≠ 0 ∧ c.table ≠ 1 ∧ updMalformed j c =
      false → t = forEach (maskList c.mask) (fun p s => s.setPipe p { s.pipe p with lastUpd := j.q }) b ∧ c =
      updCmd t j → t.batchRefuses j c = none → t.planAll c ((updScopes c.table c.mask).getD []) = .ok a →
      (c.batched = true → ∀ y, t.batch (j.le 8 2) = some y → (a.journal y.journal).length ≤ 4096) → 
    exec (.updMove j) s = .next ((t.startUpdate j c a))) ∧
  (∀ (s b : State) (j : Job), s.takes { op := 0x47 } j b → 
    exec (.updateSetup j) s = .next ((forEach (maskList (j.byte 0 4)) (fun p s => ((s.wr (wPipe p)
      Reg.PIPE_UPD_CFG_STEAL_WAIT (j.le 8 2)).wr (wPipe p) Reg.PIPE_UPD_CFG_STEAL_GAP (j.byte 0 10)).wr (wPipe p)
      Reg.PIPE_UPD_DRAIN_DRAIN_WARN_US (j.le 12 2)) b).succeed j []))

/-- Epoch batches: opening, commit, drain, abort and what ends them. A batch opens on pipelines that are in no other
with the next number; a commit begins its drain when its writes have landed; each pipeline flips its parity; the
drain ends when no packet of the old parity remains, and the batch is committed; an abort undoes its writes and ends
when they are undone. (Choices of the model that it rests on: log entries 12, 29.) (R194, R198, R199, R200, R201,
R202, R204, R205.) -/
def Obligations.BatchCommands : Prop :=
  (∀ (s b : State) (j : Job) (f n m : Nat) (u : State), s.oldestJob j = true → s.takes {
    op := 0x44, owner := false, safe := true } j b → m = j.byte 0 4 ∧ m ≠ 0 ∧ n = b.upd.next ∧ f = b.jobFn j →
      (maskList m).any (fun p => decide (b.rd (wPipe p) Reg.PIPE_UPD_STATUS_GROUP_STATE ≠ 0)) = false → (u =
      forEach (maskList m) (fun p s => ((s.wr (wPipe p) Reg.PIPE_UPD_STATUS_BATCH_FUNC f).wr (wPipe p)
      Reg.PIPE_UPD_STATUS_BATCH_NUM n).wr (wPipe p) Reg.PIPE_UPD_JOURNAL_JOURNAL_USED 0) { b with
      upd := { b.upd with
        batches := b.upd.batches ++ [{ num := n, fn := f, mask := m }], next := if n = 65535 then 1 else n + 1 } })
          → 
    exec (.batchOpen j) s = .next ((u.groupStates m 1).succeed j (leBytes 2 n ++ [BitVec.ofNat 8 (1 - b.parity
      ((maskList m).headD 0))]))) ∧
  (∀ (s b : State) (j : Job) (y : Batch), s.oldestJob j = true → s.takes {
    op := 0x45, owner := false, safe := true } j b → b.batch (j.le 8 2) = some y → y.fn = b.jobFn j ∧ y.st = 1 →
      (y.em = true → b.anyOffline = false) → 
    exec (.batchCommit j) s = .next (((b.setBatch { y with st := 2, job := some j }).groupStates y.mask 2))) ∧
  (∀ (s b : State) (j : Job) (y : Batch), s.oldestJob j = true → s.takes {
    op := 0x46, owner := false, safe := true } j b → b.batch (j.le 8 2) = some y → y.fn = b.jobFn j ∨ b.jobFn j =
      b.owner → y.st = 1 → 
    exec (.batchAbort j) s = .next ((b.startAbort y (some j) (if y.fn = b.jobFn j then 0 else 2)))) ∧
  (∀ (s : State) (n : BitVec 16) (y : Batch), s.batch n.toNat = some y → y.st = 2 ∧ s.halting = false → (∀ p < 8, ∀
    w ∈ (s.pipe p).writes, w.job.bind batchOf ≠ some n.toNat) → (∀ j, EmStep.done j ∈ s.em.steps → batchOf j ≠ some
    n.toNat) → (maskList y.mask).any (fun p => s.rdb (wPipe p) Reg.PIPE_UPD_STATUS_NORMALISING) = false → 
    exec (.batchDrainStart n) s = .next ((s.setBatch { y with st := 3 }).groupStates y.mask 3)) ∧
  (∀ (s u v : State) (p : Fin 8), s.draining p.val = true ∧ (s.pipe p.val).flipped = none → u = s.wr (wPipe p.val)
    Reg.PIPE_UPD_STATUS_PARITY (1 - s.parity p.val) → v = u.setPipe p.val { u.pipe p.val with
    flipped := some s.clock.up, warned := false } → 
    exec (.groupParityFlip p) s = .next (if s.rd (wPipe p.val) Reg.PIPE_UPD_DRAIN_DRAIN_WARN_US = 0 then
      v.drainSlow p.val else v)) ∧
  (∀ (s : State) (p : Fin 8) (t : Nat), s.draining p.val = true ∧ (s.pipe p.val).flipped = some t ∧ (s.pipe
    p.val).warned = false → 
    exec (.drainWarnExpiry p) s = .next (s.drainSlow p.val)) ∧
  (∀ (s u v : State) (n : BitVec 16) (y : Batch), s.batch n.toNat = some y → y.st = 3 → (maskList y.mask).any (fun
    p => decide ((s.pipe p).flipped = none ∨ s.inFlightOf p (1 - s.parity p) ≠ 0)) = false → u = forEach (maskList
    y.mask) (fun p s => (((((s.wr (wPipe p) Reg.PIPE_UPD_DRAIN_LAST_DRAIN_NS (min 65535 (s.clock.up - (s.pipe
    p).flipped.getD s.clock.up))).wr (wPipe p) Reg.PIPE_UPD_STATUS_NORMALISING 1).setPipe p { ((s.wr (wPipe p)
    Reg.PIPE_UPD_DRAIN_LAST_DRAIN_NS (min 65535 (s.clock.up - (s.pipe p).flipped.getD s.clock.up))).wr (wPipe p)
    Reg.PIPE_UPD_STATUS_NORMALISING 1).pipe p with flipped := none }).setNorm p (y.journal.filter (fun e =>
    e.mask.testBit p))).pipeCount p 48 1)) ((s.dropBatch n.toNat).groupStates y.mask 0) → v = (u.event
    Ev.BATCH_COMMITTED ((maskList y.mask).headD 0) n.toNat y.mask (s.clock.up - (maskList y.mask).foldl (fun a p =>
    min a ((s.pipe p).flipped.getD a)) s.clock.up)).batchDone y → 
    exec (.batchDrainEnd n) s = .next (forEach (maskList y.mask) (fun p s => s.present p) v)) ∧
  (∀ (s : State) (n : BitVec 16) (y : Batch), s.batch n.toNat = some y → y.st = 4 → s.undoLeft y = false → 
    exec (.abortUndoDone n) s = .next (((forEach (maskList y.mask) (fun p s => s.pipeCount p 49 1) ((s.dropBatch
      n.toNat).groupStates y.mask 0)).event Ev.BATCH_ABORTED ((maskList y.mask).headD 0) n.toNat y.mask
      y.cause).batchDone y))

/-- The writes of the tables land in their slots. A write granted a slot lands under the row of its kind and frees
its claimant; a wait or a gap of the slot arbiter ends; the removal that ends a move of the EM table is made once no
earlier lookup is outstanding; and a saturated spill count is recounted. (Choices of the model that it rests on: log
entries 26, 59, 202, 203.) (R23, R119, R126, R153, R160, R164, R167, R189, R190, R191, R197.) -/
def Obligations.TableWrites : Prop :=
  (∀ (s : State) (p : Fin 8) (w : Shown), (s.pipe p.val).writeGrant = some .unit → (s.pipe p.val).shown = some w →
    w.write.op.landing = .table → 
    exec (.tableWriteLand p) s = .next (if s.mayPresent w.write.table w.write.op then (s.setPipe p.val { s.pipe
      p.val with granted := (s.pipe p.val).granted.drop 1, shown := none }).landWrite p.val w.write else (s.setPipe
      p.val { s.pipe p.val with
      granted := (s.pipe p.val).granted.drop 1, shown := none, unit := w.write.waits ++ (s.pipe p.val).unit
        }).present p.val)) ∧
  (∀ (s : State) (p : Fin 8) (w : Shown), (s.pipe p.val).writeGrant = some .arbiter → (s.pipe p.val).arbShown =
    some w → w.write.op.landing = .table → 
    exec (.tableWriteLand p) s = .next ((s.setPipe p.val { s.pipe p.val with
      granted := (s.pipe p.val).granted.drop 1, arbShown := none }).landWrite p.val w.write)) ∧
  (∀ (s : State) (p : Fin 8) (w : Shown), (s.pipe p.val).writeGrant = some .unit → (s.pipe p.val).shown = some w →
    w.write.op.landing = .norm → 
    exec (.normalisationWrite p) s = .next (if s.mayPresent w.write.table w.write.op then (s.setPipe p.val { s.pipe
      p.val with granted := (s.pipe p.val).granted.drop 1, shown := none }).landWrite p.val w.write else (s.setPipe
      p.val { s.pipe p.val with
      granted := (s.pipe p.val).granted.drop 1, shown := none, unit := w.write.waits ++ (s.pipe p.val).unit
        }).present p.val)) ∧
  (∀ (s : State) (p : Fin 8) (w : Shown), (s.pipe p.val).writeGrant = some .arbiter → (s.pipe p.val).arbShown =
    some w → w.write.op.landing = .norm → 
    exec (.normalisationWrite p) s = .next ((s.setPipe p.val { s.pipe p.val with
      granted := (s.pipe p.val).granted.drop 1, arbShown := none }).landWrite p.val w.write)) ∧
  (∀ (s : State) (p : Fin 8) (w : Shown), (s.pipe p.val).writeGrant = some .unit → (s.pipe p.val).shown = some w →
    w.write.op.landing = .moveDelete → 
    exec (.learnMoveDelete p) s = .next (if s.mayPresent w.write.table w.write.op then (s.setPipe p.val { s.pipe
      p.val with granted := (s.pipe p.val).granted.drop 1, shown := none }).landWrite p.val w.write else (s.setPipe
      p.val { s.pipe p.val with
      granted := (s.pipe p.val).granted.drop 1, shown := none, unit := w.write.waits ++ (s.pipe p.val).unit
        }).present p.val)) ∧
  (∀ (s : State) (p : Fin 8) (w : Shown), (s.pipe p.val).writeGrant = some .arbiter → (s.pipe p.val).arbShown =
    some w → w.write.op.landing = .moveDelete → 
    exec (.learnMoveDelete p) s = .next ((s.setPipe p.val { s.pipe p.val with
      granted := (s.pipe p.val).granted.drop 1, arbShown := none }).landWrite p.val w.write)) ∧
  (∀ (s : State) (p : Fin 8) (x y : Nat) (t : List (Nat × Nat)), (s.pipe p.val).writeGrant = some .repair → (s.pipe
    p.val).repairs = (x, y) :: t → 
    exec (.tableWriteLand p) s = .next ((s.setPipe p.val { s.pipe p.val with
      granted := (s.pipe p.val).granted.drop 1, repairs := t }).rewriteEntry p.val x)) ∧
  (∀ (s : State) (p : Fin 8), 
    exec (.stealWaitExpiry p true) s = .next (s.setPipe p.val { s.pipe p.val with
      arbShown := (s.pipe p.val).arbShown.map (fun w => { w with expired := true }) }) ∧ exec (.stealWaitExpiry p
        false) s = .next (s.setPipe p.val { s.pipe p.val with
        shown := (s.pipe p.val).shown.map (fun w => { w with expired := true }) })) ∧
  (∀ (s : State) (p : Fin 8), 
    exec (.stealGapExpiry p) s = .next (s.setPipe p.val { s.pipe p.val with gap := false })) ∧
  (∀ (s n u v w : State) (a b : Nat) (t rest : List EmStep) (l : List Nat) (key : List Byte), s.em.steps = .moved a
    b :: t ∧ s.em.waitFor = some l → s.emBusy = false ∧ s.anyOffline = false ∧ s.halting = false ∧ l.any (fun i =>
    s.emOutstanding.contains i) = false → n = s.normKey (emKey (s.emAll a)) ∧ rest = t ++ n.em.steps.drop
    s.em.steps.length ∧ n.moveWhole a b = true ∧ key = emKey (n.emAll a) → u = n.setSteps rest → v = u.emWrite a []
    → (w = if (n.emOuts key).isEmpty && !(v.emOuts key).isEmpty then v.spillUp (n.emB1 key) else v) → 
    exec .emMoveRemove s = .next (State.giveUndo (if emStash0 ≤ a then u.emSlots (.stash (a - emStash0) []) else
      (if !(n.emOuts key).isEmpty && (v.emOuts key).isEmpty then w.setSteps (.lower (n.emB1 key) :: rest) else
      w).emSlots (.em key)))) ∧
  (∀ (s : State) (k : BitVec 24), s.spillCnt k.toNat = 15 ∧ s.anyOffline = false ∧ s.rdb wMint
    Reg.MINT_STATUS_DEFERRING = false ∧ s.dutyRuns 9 = true → 
    exec (.spillCntRecount k) s = .next (s.setSpill k.toNat (min 15 (((s.spillKeys k.toNat).filter (fun key =>
      !s.raiseDue key)).length + s.em.steps.count (.lower k.toNat)))))

/-- Dispatch, waits, limits and parking of the routine engines. The next packet is dispatched to a free engine with
a fresh context; a wait ends at its timer or its byte; a routine at its cycle limit, and one whose frame is bad,
trap; an idle engine beyond Mint's goal is parked, and one within it is not. (Choices of the model that it rests on:
log entries 80, 89, 90, 92.) (R209, R210, R212, R222, R224, R231, R232, R236, R237, R253, R255.) -/
def Obligations.TenonEngines : Prop :=
  (∀ (s u v w : State) (p : Fin 8) (x : Packet) (t : Nat) (e : Engine), s.halting = false ∧ s.csValid p.val = true
    → s.nextDispatch p.val = some (x, t) → e = s.freshEngine p.val t x → u = s.setPipe p.val { s.pipe p.val with
    packets := (s.pipe p.val).packets.filter (fun z => decide (z.frame ≠ x.frame)) } → v = { u.setEngine p.val t e
      with tenon := { u.tenon with next := u.tenon.next + 1 } } → (w = (v.setMarks p.val ((v.marks p.val).map (fun
      m => if m.engine = none then { m with engine := some t } else m))).countDispatch p.val e.opcode) → 
    exec (.tenonDispatch p) s = .next (if (csDispatch (s.store p.val e.bank) e.opcode).testBit 31 then w else
      w.raiseTrap p.val t 4 0 e.upc 0)) ∧
  (∀ (s u : State) (p : Fin 9) (t : Fin 64), p.val ≠ 8 ∧ (s.engine p.val t.val).busy = true ∧ (s.engine p.val
    t.val).wait = 4 → u = s.setEngine p.val t.val { s.engine p.val t.val with timed := true } → 
    (∀ k, u.blocked p.val t.val (u.currentWord p.val t.val) = .wait k → exec (.waitTimerExpiry p t) s = .next (if k
      = 4 then u else u.startWait p.val t.val k)) ∧ ((∀ k, u.blocked p.val t.val (u.currentWord p.val t.val) ≠
      .wait k) → exec (.waitTimerExpiry p t) s = .next (u.endWait p.val t.val))) ∧
  (∀ (s : State) (t : Fin 64), (s.engine 8 t.val).wait = 4 → 
    exec (.waitTimerExpiry 8 t) s = .next (s.setEngine 8 t.val { s.engine 8 t.val with timed := true, wait := 0 }))
      ∧
  (∀ (s : State) (p : Fin 8) (t : Fin 64), (s.engine p.val t.val).busy = true ∧ (s.engine p.val t.val).wait = 7 → 
    (∀ k, s.blocked p.val t.val (s.currentWord p.val t.val) = .wait k → exec (.windowByteArrival p t) s = .next (if
      k = 7 then s else s.startWait p.val t.val k)) ∧ ((∀ k, s.blocked p.val t.val (s.currentWord p.val t.val) ≠
      .wait k) → exec (.windowByteArrival p t) s = .next (s.endWait p.val t.val))) ∧
  (∀ (s u : State) (p : Fin 8) (t : Fin 64), (s.engine p.val t.val).busy = true → u = s.endWait p.val t.val →
    (u.engine p.val t.val).left = 0 → 
    exec (.routineLimitReached p t) s = .next (u.raiseTrap p.val t.val 1 0 0 0)) ∧
  (∀ (s u : State) (p : Fin 8) (t : Fin 64), s.frameBadDue p.val t.val = true → u = s.endWait p.val t.val → 
    exec (.frameBadInterrupt p t) s = .next (if (u.engine p.val t.val).left = 0 then u.raiseTrap p.val t.val 1 0 0
      0 else (u.setEngine p.val t.val { u.engine p.val t.val with badSeen := true }).raiseTrap p.val t.val 0x10 0
      (s.engine p.val t.val).upc (s.engine p.val t.val).wait)) ∧
  (∀ (s : State) (p : Fin 8) (t : Fin 64), (s.engine p.val t.val).busy = false → 64 - (s.pipe p.val).parkGoal ≤
    t.val ∧ s.csReserve p.val ≤ t.val → 
    exec (.enginePark p t) s = .next (s.setEngine p.val t.val { s.engine p.val t.val with parked := true })) ∧
  (∀ (s : State) (p : Fin 8) (t : Fin 64), t.val < 64 - (s.pipe p.val).parkGoal ∨ t.val < s.csReserve p.val → 
    exec (.engineUnpark p t) s = .next (s.setEngine p.val t.val { s.engine p.val t.val with parked := false }))

/-- The requests of routines complete. A lookup returns its record, a meter its verdict, a reservation its cells; a
state or DRAM access reads or writes its word and returns the old one, in issue order, and one that fails is held
for the word that waits on it. (Choices of the model that it rests on: log entries 76, 82, 91, 207.) (R223, R225,
R226, R227, R228, R230, R254, R266.) -/
def Obligations.TenonRequests : Prop :=
  (∀ (s : State) (p : Fin 8) (t : Fin 64) (bad : Fin 4) (r : Req) (n : Nat) (key : List Byte), s.tenon.reqs.find?
    (fun r => r.isLookup p.val && decide (r.engine = t.val) && r.slotted) = some r → r.op = .lookup n key → 
    (∀ rec, r.found = some rec → exec (.lookupComplete p t bad) s = .next (s.finish r ((rangeFrom 0 4).map (fun i
      => BitVec.ofNat 64 (leNat (slice rec (8 * i) 8)))))) ∧ (r.found = none → exec (.lookupComplete p t bad) s =
      .next ((s.dramLookup p.val r.epoch key bad.val).2.finish r ((rangeFrom 0 4).map (fun i => BitVec.ofNat 64
      (leNat (slice (lookupRecord (s.dramLookup p.val r.epoch key bad.val).1) (8 * i) 8))))))) ∧
  (∀ (s : State) (r : Req) (m len colour : Nat) (writes : Bool) (v : Nat × State), s.oldestReq 2 none none = some r
    → r.op = .meter m len colour writes → v = s.meterCall m len colour → 
    exec .meterVerdict s = .next ((if writes && s.reqAlive r then v.2.setEngine r.pipe r.engine { v.2.engine r.pipe
      r.engine with md := setColour (v.2.engine r.pipe r.engine).md v.1 } else v.2).finish r [BitVec.ofNat 64
      v.1])) ∧
  (∀ (s : State) (p : Fin 8) (t : Fin 64) (r : Req) (k n : Nat) (c : CloneSt) (e : Engine) (v : List Nat × State),
    s.oldestReq 3 (some p.val) (some t.val) = some r → r.op = .cells k → e = s.engine p.val t.val → c =
    e.clones.getD k {} → n = e.headCells c.md → v = s.chargeCells (s.frame e.frame).pairPort (s.frame
    e.frame).pairTc n → n ≤ v.1.length → 
    exec (.cellsReserved p t) s = .next ((v.2.setEngine p.val t.val { e with
      clones := e.clones.set k { c with cells := some v.1 } }).finish r [BitVec.ofNat 64 k])) ∧
  (∀ (s u : State) (p : Fin 8) (e : Fin 3) (r : Req) (i : Nat), s.oldestReq 5 (some p.val) none = some r → (u = if
    e.val = 1 then s.pipeCount p.val 99 1 else s) → 
    (∀ v, r.op = .stWrite i v → exec (.stateAccessComplete p e) s = .next ((s.setStateWord p.val i v).finish r []))
      ∧ (r.op = .stRead i → e.val ≠ 2 → exec (.stateAccessComplete p e) s = .next (u.finish r [s.stateWord p.val
      i])) ∧ (∀ v, r.op = .stAdd i v → e.val ≠ 2 → exec (.stateAccessComplete p e) s = .next ((u.setStateWord p.val
      i (s.stateWord p.val i + v)).finish r [s.stateWord p.val i])) ∧ (∀ o v, r.op = .stSwap i o v → e.val ≠ 2 →
      exec (.stateAccessComplete p e) s = .next ((if s.stateWord p.val i = o then u.setStateWord p.val i v else
      u).finish r [s.stateWord p.val i])) ∧ (e.val = 2 → (r.op = .stRead i ∨ (∃ v, r.op = .stAdd i v) ∨ ∃ o v, r.op
      = .stSwap i o v) → exec (.stateAccessComplete p e) s = .next ((s.failReq r 0x0C 0).faultPipe p.val 8 0)) ∧ (∀
      j, r.op = .hostRead i j → exec (.stateAccessComplete p e) s = .next (u.spanRead r p.val i e.val j)) ∧ (∀ v j,
      r.op = .hostWrite i v j → exec (.stateAccessComplete p e) s = .next ((s.setStateWord p.val i v).spanDone r
      j))) ∧
  (∀ (s : State) (p : Fin 8) (t : Fin 64) (ok : Bool) (r : Req) (a d : Nat) (v : Word64), s.oldestReq 6 (some
    p.val) (some t.val) = some r → 
    (r.op = .dRead a d → exec (.dramAccessComplete p t ok) s = .next (if ok && !s.stackOffline (stackOf a) then
      s.finish r [BitVec.ofNat 64 (leNat (s.dramRd a 8))] else s.failReq r 0x0B (d % 2 ^ 32))) ∧ (r.op = .dWrite a
      d v → exec (.dramAccessComplete p t ok) s = .next (if s.stackOffline (stackOf a) then s.failReq r 0x0B (d % 2
      ^ 32) else (s.dramWr a (leBytes 8 v.toNat)).finish r [])))

/-- The arithmetic and memory microwords. A word that issues, of an arithmetic operation, writes the result of the
operation to its destination register and, unless its NF is 1, the flags that its row of the table names, and takes
its cycles. A load returns the bytes at its address in its byte order, a store of bytes that it may write writes
them, and a block move copies within the window; an access beyond its space, or a store to a read-only field, raises
WINDOW. (R215, R231, R232, R249, R250, R251, R252, R256, R257.) -/
def Obligations.MicroArithmeticAndMemory : Prop :=
  (∀ (s u : State) (p : Fin 9) (t : Fin 64) (w : MWord) (e : Engine), s.issues p.val t.val 0x00 w u → e = u.engine
    p.val t.val → 
    exec (.nop p t) s = .next (u.setEngine p.val t.val (e.next 1))) ∧
  (∀ (s u : State) (p : Fin 9) (t : Fin 64) (w : MWord) (e : Engine), s.issues p.val t.val 0x01 w u → e = u.engine
    p.val t.val → 
    exec (.mov p t) s = .next (u.setEngine p.val t.val ((e.setReg w.dst (e.opB w)).next 1))) ∧
  (∀ (s u : State) (p : Fin 9) (t : Fin 64) (w : MWord) (e : Engine) (a b r : Word64), s.issues p.val t.val 0x02 w
    u → e = u.engine p.val t.val → a = e.opA w → b = e.opB w → r = a + b → 
    exec (.add p t) s = .next (u.setEngine p.val t.val (e.gives w r {
      z := decide (r = 0), n := r.msb, c := decide (2 ^ 64 ≤ a.toNat + b.toNat), v := decide (a.msb = b.msb ∧ r.msb
        ≠ a.msb) } 1))) ∧
  (∀ (s u : State) (p : Fin 9) (t : Fin 64) (w : MWord) (e : Engine) (a b r : Word64), s.issues p.val t.val 0x03 w
    u → e = u.engine p.val t.val → a = e.opA w → b = e.opB w → r = a - b → 
    exec (.sub p t) s = .next (u.setEngine p.val t.val (e.gives w r {
      z := decide (r = 0), n := r.msb, c := decide (b.toNat ≤ a.toNat), v := decide (a.msb ≠ b.msb ∧ r.msb ≠ a.msb)
        } 1))) ∧
  (∀ (s u : State) (p : Fin 9) (t : Fin 64) (w : MWord) (e : Engine) (a b r : Word64), s.issues p.val t.val 0x04 w
    u → e = u.engine p.val t.val → a = e.opA w → b = e.opB w → r = a &&& b → 
    exec (.and p t) s = .next (u.setEngine p.val t.val (e.gives w r {
      z := decide (r = 0), n := r.msb, c := false, v := false } 1))) ∧
  (∀ (s u : State) (p : Fin 9) (t : Fin 64) (w : MWord) (e : Engine) (a b r : Word64), s.issues p.val t.val 0x05 w
    u → e = u.engine p.val t.val → a = e.opA w → b = e.opB w → r = a ||| b → 
    exec (.or p t) s = .next (u.setEngine p.val t.val (e.gives w r {
      z := decide (r = 0), n := r.msb, c := false, v := false } 1))) ∧
  (∀ (s u : State) (p : Fin 9) (t : Fin 64) (w : MWord) (e : Engine) (a b r : Word64), s.issues p.val t.val 0x06 w
    u → e = u.engine p.val t.val → a = e.opA w → b = e.opB w → r = a ^^^ b → 
    exec (.xor p t) s = .next (u.setEngine p.val t.val (e.gives w r {
      z := decide (r = 0), n := r.msb, c := false, v := false } 1))) ∧
  (∀ (s u : State) (p : Fin 9) (t : Fin 64) (w : MWord) (e : Engine) (a b r : Word64), s.issues p.val t.val 0x07 w
    u → e = u.engine p.val t.val → a = e.opA w → b = e.opB w → r = a <<< (b.toNat % 64) → 
    exec (.shl p t) s = .next (u.setEngine p.val t.val (e.gives w r {
      z := decide (r = 0), n := r.msb, c := decide (b.toNat % 64 ≠ 0) && a.getLsbD (64 - b.toNat % 64), v := false
        } 1))) ∧
  (∀ (s u : State) (p : Fin 9) (t : Fin 64) (w : MWord) (e : Engine) (a b r : Word64), s.issues p.val t.val 0x08 w
    u → e = u.engine p.val t.val → a = e.opA w → b = e.opB w → r = a >>> (b.toNat % 64) → 
    exec (.shr p t) s = .next (u.setEngine p.val t.val (e.gives w r {
      z := decide (r = 0), n := r.msb, c := decide (b.toNat % 64 ≠ 0) && a.getLsbD (b.toNat % 64 - 1), v := false }
        1))) ∧
  (∀ (s u : State) (p : Fin 9) (t : Fin 64) (w : MWord) (e : Engine) (a b r : Word64), s.issues p.val t.val 0x09 w
    u → e = u.engine p.val t.val → a = e.opA w → b = e.opB w → r = a.sshiftRight (b.toNat % 64) → 
    exec (.sar p t) s = .next (u.setEngine p.val t.val (e.gives w r {
      z := decide (r = 0), n := r.msb, c := decide (b.toNat % 64 ≠ 0) && a.getLsbD (b.toNat % 64 - 1), v := false }
        1))) ∧
  (∀ (s u : State) (p : Fin 9) (t : Fin 64) (w : MWord) (e : Engine) (a b r : Word64), s.issues p.val t.val 0x0A w
    u → e = u.engine p.val t.val → a = e.opA w → b = e.opB w → r = a.rotateLeft (b.toNat % 64) → 
    exec (.rol p t) s = .next (u.setEngine p.val t.val (e.gives w r {
      z := decide (r = 0), n := r.msb, c := e.c, v := e.v } 1))) ∧
  (∀ (s u : State) (p : Fin 9) (t : Fin 64) (w : MWord) (e : Engine) (a b r : Word64), s.issues p.val t.val 0x0B w
    u → e = u.engine p.val t.val → a = e.opA w → b = e.opB w → r = a * b → 
    exec (.mul p t) s = .next (u.setEngine p.val t.val (e.gives w r {
      z := decide (r = 0), n := r.msb, c := e.c, v := e.v } 3))) ∧
  (∀ (s u : State) (p : Fin 9) (t : Fin 64) (w : MWord) (e : Engine) (a b r : Word64), s.issues p.val t.val 0x0C w
    u → e = u.engine p.val t.val → a = e.opA w → b = e.opB w → r = a - b → 
    exec (.cmp p t) s = .next (u.setEngine p.val t.val ((if w.nf then e else e.setFlags {
      z := decide (r = 0), n := r.msb, c := decide (b.toNat ≤ a.toNat), v := decide (a.msb ≠ b.msb ∧ r.msb ≠ a.msb)
        }).next 1))) ∧
  (∀ (s u : State) (p : Fin 9) (t : Fin 64) (w : MWord) (e : Engine) (a b r : Word64), s.issues p.val t.val 0x0D w
    u → e = u.engine p.val t.val → a = e.opA w → b = e.opB w → r = a &&& b → 
    exec (.tst p t) s = .next (u.setEngine p.val t.val ((if w.nf then e else e.setFlags {
      z := decide (r = 0), n := r.msb, c := false, v := false }).next 1))) ∧
  (∀ (s u : State) (p : Fin 9) (t : Fin 64) (w : MWord) (e : Engine) (a b r : Word64), s.issues p.val t.val 0x0E w
    u → e = u.engine p.val t.val → a = e.opA w → b = e.opB w → r = (a >>> w.pos) &&& ones w.width → 
    exec (.ext p t) s = .next (u.setEngine p.val t.val (e.gives w r {
      z := decide (r = 0), n := r.msb, c := e.c, v := e.v } 1))) ∧
  (∀ (s u : State) (p : Fin 9) (t : Fin 64) (w : MWord) (e : Engine) (a b r : Word64), s.issues p.val t.val 0x0F w
    u → e = u.engine p.val t.val → a = e.opA w → b = e.opB w → r = (a &&& ~~~(ones w.width <<< w.pos)) ||| ((b <<<
    w.pos) &&& (ones w.width <<< w.pos)) → 
    exec (.ins p t) s = .next (u.setEngine p.val t.val (e.gives w r {
      z := decide (r = 0), n := r.msb, c := e.c, v := e.v } 1))) ∧
  (∀ (s u : State) (p : Fin 9) (t : Fin 64) (w : MWord) (e : Engine) (a b r : Word64), s.issues p.val t.val 0x10 w
    u → e = u.engine p.val t.val → a = e.opA w → b = e.opB w → r = ((leBytes 8 b.toNat).foldl crcCByte (a.truncate
    32)).zeroExtend 64 → 
    exec (.crc p t) s = .next (u.setEngine p.val t.val (e.gives w r {
      z := decide (r = 0), n := e.n, c := e.c, v := e.v } 2))) ∧
  (∀ (s u : State) (p : Fin 9) (t : Fin 64) (w : MWord) (e : Engine) (a b r : Word64), s.issues p.val t.val 0x11 w
    u → e = u.engine p.val t.val → a = e.opA w → b = e.opB w → r = BitVec.ofNat 64 (fold16 (a.toNat % 65536 +
    b.toNat % 65536 + b.toNat / 2 ^ 16 % 65536 + b.toNat / 2 ^ 32 % 65536 + b.toNat / 2 ^ 48 % 65536)) → 
    exec (.csum p t) s = .next (u.setEngine p.val t.val (e.gives w r {
      z := decide (r = 0), n := e.n, c := e.c, v := e.v } 1))) ∧
  (∀ (s u : State) (p : Fin 9) (t : Fin 64) (w : MWord) (e : Engine), s.issues p.val t.val 0x20 w u → e = u.engine
    p.val t.val → e.address w + 2 ^ w.size ≤ spaceSize w.space → 
    exec (.ld p t) s = .next (u.setEngine p.val t.val ((e.setReg w.dst (memValue w.net (e.spaceBytes (u.frame
      e.frame).recv w.space (e.address w) (2 ^ w.size)))).next 1))) ∧
  (∀ (s u : State) (p : Fin 9) (t : Fin 64) (w : MWord) (e : Engine), s.issues p.val t.val 0x20 w u → e = u.engine
    p.val t.val → spaceSize w.space < e.address w + 2 ^ w.size → 
    exec (.ld p t) s = .next (u.wordTrap p.val t.val 2 (w.space * 65536 + e.address w % 65536))) ∧
  (∀ (s u : State) (p : Fin 9) (t : Fin 64) (w : MWord) (e : Engine), s.issues p.val t.val 0x21 w u → e = u.engine
    p.val t.val → e.storeTraps w.space (e.address w) (2 ^ w.size) = false → 
    exec (.st p t) s = .next (u.setEngine p.val t.val ((e.store w.space (e.address w) (memBytes w.net (2 ^ w.size)
      (e.opB w))).next 1))) ∧
  (∀ (s u : State) (p : Fin 9) (t : Fin 64) (w : MWord) (e : Engine), s.issues p.val t.val 0x21 w u → e = u.engine
    p.val t.val → e.storeTraps w.space (e.address w) (2 ^ w.size) = true → 
    exec (.st p t) s = .next (u.wordTrap p.val t.val 2 (w.space * 65536 + e.address w % 65536))) ∧
  (∀ (s u : State) (p : Fin 9) (t : Fin 64) (w : MWord) (e : Engine), s.issues p.val t.val 0x22 w u → e = u.engine
    p.val t.val → w.imm % 512 + w.aux % 128 ≤ 256 ∧ w.offset + w.aux % 128 ≤ 256 → 
    exec (.movb p t) s = .next (u.setEngine p.val t.val (Engine.next { e with
      win := winWrite e.win w.offset (winBytes e.win (u.frame e.frame).recv (w.imm % 512) (w.aux % 128)) } (1 +
        (w.aux % 128 + 31) / 32))))

/-- The microwords that issue requests. A state, DRAM, lookup, meter or clone word issues its request of its kind,
with its operands as they stand at issue and the registers that it will write; at a bad DRAM offset, for a fifth
request of a kind, for table 3 or for a meter index of 262,144 or more, it traps instead. (Choices of the model that
it rests on: log entries 94, 96.) (R223, R225, R226, R227, R228, R229, R230, R232, R254, R256, R258, R259.) -/
def Obligations.MicroRequests : Prop :=
  (∀ (s u : State) (p : Fin 9) (t : Fin 64) (w : MWord) (e : Engine), s.issues p.val t.val 0x28 w u → e = u.engine
    p.val t.val → 
    exec (.srd p t) s = .next (u.request p.val t.val (.stRead ((w.aux % 16384 + e.off w) % 16384)) [w.dst])) ∧
  (∀ (s u : State) (p : Fin 9) (t : Fin 64) (w : MWord) (e : Engine), s.issues p.val t.val 0x29 w u → e = u.engine
    p.val t.val → 
    exec (.swr p t) s = .next (u.request p.val t.val (.stWrite ((w.aux % 16384 + e.off w) % 16384) (e.opB w)) [])) ∧
  (∀ (s u : State) (p : Fin 9) (t : Fin 64) (w : MWord) (e : Engine), s.issues p.val t.val 0x2A w u → e = u.engine
    p.val t.val → 
    exec (.sadd p t) s = .next (u.request p.val t.val (.stAdd ((w.aux % 16384 + e.off w) % 16384) (e.opB w))
      [w.dst])) ∧
  (∀ (s u : State) (p : Fin 9) (t : Fin 64) (w : MWord) (e : Engine), s.issues p.val t.val 0x2B w u → e = u.engine
    p.val t.val → 
    exec (.scas p t) s = .next (u.request p.val t.val (.stSwap ((w.aux % 16384 + e.off w) % 16384) (e.reg w.dst)
      (e.opB w)) [w.dst])) ∧
  (∀ (s u : State) (p : Fin 9) (t : Fin 64) (w : MWord) (e : Engine) (r : Nat), s.issues p.val t.val 0x30 w u → e =
    u.engine p.val t.val → r = w.aux + e.off w → u.dramTraps p.val r = false → 
    exec (.drd p t) s = .next (u.request p.val t.val (.dRead ((u.region p.val).1 + r) r) [w.dst])) ∧
  (∀ (s u : State) (p : Fin 9) (t : Fin 64) (w : MWord) (e : Engine) (r : Nat), s.issues p.val t.val 0x30 w u → e =
    u.engine p.val t.val → r = w.aux + e.off w → u.dramTraps p.val r = true → 
    exec (.drd p t) s = .next (u.wordTrap p.val t.val 0x0B (r % 2 ^ 32))) ∧
  (∀ (s u : State) (p : Fin 9) (t : Fin 64) (w : MWord) (e : Engine) (r : Nat), s.issues p.val t.val 0x31 w u → e =
    u.engine p.val t.val → r = w.aux + e.off w → u.dramTraps p.val r = false → 
    exec (.dwr p t) s = .next (u.request p.val t.val (.dWrite ((u.region p.val).1 + r) r (e.opB w)) [])) ∧
  (∀ (s u : State) (p : Fin 9) (t : Fin 64) (w : MWord) (e : Engine) (r : Nat), s.issues p.val t.val 0x31 w u → e =
    u.engine p.val t.val → r = w.aux + e.off w → u.dramTraps p.val r = true → 
    exec (.dwr p t) s = .next (u.wordTrap p.val t.val 0x0B (r % 2 ^ 32))) ∧
  (∀ (s u : State) (p : Fin 9) (t : Fin 64) (w : MWord) (e : Engine), s.issues p.val t.val 0x38 w u → e = u.engine
    p.val t.val → w.aux % 4 ≠ 3 ∧ e.count 1 < 4 → 
    exec (.lkp p t) s = .next (u.request p.val t.val (.lookup (w.aux % 4) (e.lookupKey w)) (rangeFrom w.dst 4))) ∧
  (∀ (s u : State) (p : Fin 9) (t : Fin 64) (w : MWord) (e : Engine), s.issues p.val t.val 0x38 w u → e = u.engine
    p.val t.val → w.aux % 4 = 3 ∨ 4 ≤ e.count 1 → 
    exec (.lkp p t) s = .next (u.wordTrap p.val t.val 8 0)) ∧
  (∀ (s u : State) (p : Fin 9) (t : Fin 64) (w : MWord) (e : Engine) (m len : Nat), s.issues p.val t.val 0x3C w u →
    e = u.engine p.val t.val → m = w.aux % 2 ^ 18 + e.off w → len = (e.opB w).toNat % 2 ^ 15 → m < 262144 ∧ e.count
    2 < 4 → 
    exec (.mtr p t) s = .next ((u.request p.val t.val (.meter m len (mdColour e.md) (w.aux.testBit 18))
      [w.dst]).noteCharge e.frame len)) ∧
  (∀ (s u : State) (p : Fin 9) (t : Fin 64) (w : MWord) (e : Engine) (m len : Nat), s.issues p.val t.val 0x3C w u →
    e = u.engine p.val t.val → m = w.aux % 2 ^ 18 + e.off w → len = (e.opB w).toNat % 2 ^ 15 → 262144 ≤ m ∨ 4 ≤
    e.count 2 → 
    exec (.mtr p t) s = .next (u.wordTrap p.val t.val 7 (m % 2 ^ 32))) ∧
  (∀ (s u : State) (p : Fin 9) (t : Fin 64) (w : MWord) (e : Engine), s.issues p.val t.val 0x40 w u → e = u.engine
    p.val t.val → e.count 3 < 4 → 
    exec (.clone p t) s = .next ((u.setEngine p.val t.val { e with
      clones := e.clones ++ [{ win := e.win, md := e.md }] }).request p.val t.val (.cells e.clones.length)
        [w.dst])) ∧
  (∀ (s u : State) (p : Fin 9) (t : Fin 64) (w : MWord) (e : Engine), s.issues p.val t.val 0x40 w u → e = u.engine
    p.val t.val → 4 ≤ e.count 3 → 
    exec (.clone p t) s = .next (u.wordTrap p.val t.val 9 0))

/-- The microwords that control the routine. A branch goes to its target, a call also keeps the return address, TIME
reads the clock, RTN in a handler restores the flags and goes to the resume address, and traps outside one; END
checks the packet and hands it and its clones over. (Choices of the model that it rests on: log entries 83 to 88,
95.) (R213, R218, R221, R230, R232, R233, R235, R256, R260, R343.) -/
def Obligations.MicroControl : Prop :=
  (∀ (s u : State) (p : Fin 9) (t : Fin 64) (w : MWord) (e : Engine), s.issues p.val t.val 0x48 w u → e = u.engine
    p.val t.val → 
    exec (.br p t) s = .next (u.setEngine p.val t.val (e.goTo w.target 2))) ∧
  (∀ (s u : State) (p : Fin 9) (t : Fin 64) (w : MWord) (e : Engine), s.issues p.val t.val 0x49 w u → e = u.engine
    p.val t.val → 
    exec (.brr p t) s = .next (u.setEngine p.val t.val (e.goTo ((e.opA w).toNat + w.target) 2))) ∧
  (∀ (s u : State) (p : Fin 9) (t : Fin 64) (w : MWord) (e : Engine), s.issues p.val t.val 0x4A w u → e = u.engine
    p.val t.val → 
    exec (.call p t) s = .next (u.setEngine p.val t.val ((e.setReg w.dst (BitVec.ofNat 64 (e.upc + 1))).goTo
      w.target 2))) ∧
  (∀ (s u : State) (p : Fin 9) (t : Fin 64) (w : MWord) (e : Engine), s.issues p.val t.val 0x4C w u → e = u.engine
    p.val t.val → 2 ≤ e.handler → 
    exec (.rtn p t) s = .next (u.setEngine p.val t.val (Engine.goTo {
      e.setFlags {
        z := (imB e.trap 5).testBit 3, n := (imB e.trap 5).testBit 2, c := (imB e.trap 5).testBit 1, v := (imB
          e.trap 5).testBit 0 } with handler := 0 } (imH e.trap 0) 2))) ∧
  (∀ (s u : State) (p : Fin 9) (t : Fin 64) (w : MWord) (e : Engine), s.issues p.val t.val 0x4C w u → e = u.engine
    p.val t.val → e.handler ≤ 1 → 
    exec (.rtn p t) s = .next (u.wordTrap p.val t.val 3 0)) ∧
  (∀ (s u : State) (p : Fin 9) (t : Fin 64) (w : MWord) (e : Engine), s.issues p.val t.val 0x50 w u → e = u.engine
    p.val t.val → 
    exec (.time p t) s = .next (u.setEngine p.val t.val (((e.setReg w.dst (BitVec.ofNat 64 (timeSec u.now % 2 ^
      48))).setReg (w.dst + 1) (BitVec.ofNat 64 (timeNs u.now * 256 + timeSub u.now))).next 1))) ∧
  (∀ (s u : State) (p : Fin 9) (t : Fin 64) (w : MWord) (e : Engine) (f g : Frame), s.issues p.val t.val 0x4B w u →
    e = u.engine p.val t.val → f = u.frame e.frame → g = e.build f e.win e.md → u.destInvalid e.md = true → 
    exec (.endFrame p t) s = .next (u.wordTrap p.val t.val 0x05 0)) ∧
  (∀ (s u : State) (p : Fin 9) (t : Fin 64) (w : MWord) (e : Engine) (f g : Frame), s.issues p.val t.val 0x4B w u →
    e = u.engine p.val t.val → f = u.frame e.frame → g = e.build f e.win e.md → u.destInvalid e.md = false ∧ mdKind
    e.md = 4 ∧ f.pass = 7 → 
    exec (.endFrame p t) s = .next (u.wordTrap p.val t.val 0x0A 0)) ∧
  (∀ (s u : State) (p : Fin 9) (t : Fin 64) (w : MWord) (e : Engine) (f g : Frame), s.issues p.val t.val 0x4B w u →
    e = u.engine p.val t.val → f = u.frame e.frame → g = e.build f e.win e.md → (u.destInvalid e.md = false ∧
    (mdKind e.md = 4 → f.pass ≠ 7) ∧ u.lengthInvalid g e.md e.len = true) → 
    exec (.endFrame p t) s = .next (u.wordTrap p.val t.val 0x06 0)) ∧
  (∀ (s u : State) (p : Fin 9) (t : Fin 64) (w : MWord) (e : Engine) (f g : Frame), s.issues p.val t.val 0x4B w u →
    e = u.engine p.val t.val → f = u.frame e.frame → g = e.build f e.win e.md → (u.destInvalid e.md = false ∧
    (mdKind e.md = 4 → f.pass ≠ 7) ∧ u.lengthInvalid g e.md e.len = false) → u.handOf e.frame g e.md = none → 
    exec (.endFrame p t) s = .next ((u.setEngine p.val t.val (e.spend 1)).discardRoutine p.val t.val 96)) ∧
  (∀ (s u : State) (p : Fin 9) (t : Fin 64) (w : MWord) (e : Engine) (f g : Frame) (h : Hand) (v : State), s.issues
    p.val t.val 0x4B w u → e = u.engine p.val t.val → f = u.frame e.frame → g = e.build f e.win e.md →
    (u.destInvalid e.md = false ∧ (mdKind e.md = 4 → f.pass ≠ 7) ∧ u.lengthInvalid g e.md e.len = false) → u.handOf
    e.frame g e.md = some h → v = ((((((u.emitClones p.val e e.clones).2.setFrame e.frame { g with
    refs := ((u.emitClones p.val e e.clones).2.frame e.frame).refs }).repack p.val e.frame (mdHeadEnd e.md -
      mdHeadStart e.md)).endLearn p.val e).setEngine p.val t.val (e.spend 1)).freeEngine p.val t.val false) → 
    exec (.endFrame p t) s = .next ((v.setPipe p.val { v.pipe p.val with
      held := (v.pipe p.val).held ++ [{
        routine := e.routine, port := f.inPort, tc := f.inTc, hands := (u.emitClones p.val e e.clones).1 ++ [h] }]
          }).flushHeld p.val ((v.pipe p.val).held.length + 1)))

/-- The control store and the Tenon commands. A valid control-store image is written to the shadow bank of every
masked pipeline, once no routine runs in it, and its load completes with the last; a swap exchanges the banks; a
read returns the full image; a scrub error is reported; a service engine's heartbeat counts, and one that stops
gives its duty to a spare. Valid settings of the masked pipelines are written, the parking goal kept within them;
the words of a state read and of a state write wait their turn, after the requests that wait already, at the
arbiters of their state memories. (Choices of the model that it rests on: log entries 12, 65, 98 to 100.) (R211,
R236, R238, R239, R240, R241, R244, R245, R263, R264, R265, R266.) -/
def Obligations.ControlStoreAndAccess : Prop :=
  (∀ (s b : State) (j : Job) (img : List Byte), ((maskList (j.byte 0 4)).any fun p => (s.pipe p).storeLoad.isSome)
    = false → s.inTurn j 0x38 0x3A = true → s.takes { op := 0x38 } j b → j.byte 0 4 ≠ 0 ∧ j.le 8 8 % 8 = 0 → img =
    b.hostRd (b.jobLink j) (j.le 8 8) (min (j.le 16 4) 525697) → csFail img (j.le 16 4) = none → 
    exec (.tenonCsLoad j) s = .next ((forEach (maskList (j.byte 0 4)) (fun p s => if (s.setPipe p { s.pipe p with
      storeLoad := some { job := j, image := img, mask := j.byte 0 4 } }).rdb (wPipe p)
        Reg.PIPE_TENON_STATUS_DRAINING then s.setPipe p { s.pipe p with
        storeLoad := some { job := j, image := img, mask := j.byte 0 4 } } else (s.setPipe p { s.pipe p with
          storeLoad := some { job := j, image := img, mask := j.byte 0 4 } }).csBegin p) (b.countMoved 28
            img.length)))) ∧
  (∀ (s u v : State) (p : Fin 8) (l : GraphLoad), (s.pipe p.val).storeLoad = some l → s.rdb (wPipe p.val)
    Reg.PIPE_TENON_STATUS_LOAD_BUSY = true → u = ((s.setStore p.val (1 - s.csBank p.val) l.image).wr (wPipe p.val)
    Reg.PIPE_TENON_STATUS_LOAD_BUSY 0).wr (wPipe p.val) Reg.PIPE_TENON_STATUS_SHADOW_VALID 1 → v = ((u.setPipe
    p.val { ((s.setStore p.val (1 - s.csBank p.val) l.image).wr (wPipe p.val) Reg.PIPE_TENON_STATUS_LOAD_BUSY
    0).pipe p.val with storeLoad := none }).csReport p.val).event Ev.CS_LOADED p.val l.mask (imH l.image 6) 0 → 
    exec (.tenonShadowWritten p) s = .next (if (rangeFrom 0 8).any (fun q => decide (((v.pipe q).storeLoad.map
      (·.job)) = some l.job)) then v else v.complete l.job St.SUCCESS [])) ∧
  (∀ (s b : State) (j : Job), ((maskList (j.byte 0 4)).any fun p => (s.pipe p).storeLoad.isSome && s.csShadow p) =
    false → s.inTurn j 0x38 0x3A = true → s.takes { op := 0x39, safe := true } j b → ((maskList (j.byte 0 4)).any
    fun p => !b.csShadow p) = false → 
    exec (.tenonCsSwap j) s = .next ((forEach (maskList (j.byte 0 4)) (fun p s => s.csSwapBank p) b).succeed j
      [BitVec.ofNat 8 (j.byte 0 4)])) ∧
  (∀ (s : State) (p : Fin 8), s.rdb (wPipe p.val) Reg.PIPE_TENON_STATUS_DRAINING = true ∧ s.csHolds p.val (1 -
    s.csBank p.val) = false → 
    exec (.tenonDrainEnd p) s = .next ((s.wr (wPipe p.val) Reg.PIPE_TENON_STATUS_DRAINING 0).csBegin p.val)) ∧
  (∀ (s b : State) (j : Job) (p bank : Nat), s.inTurn j 0x38 0x3A = true → s.takes { op := 0x3A } j b → oneOf
    (j.byte 0 4) = some p → (bank = (if j.bit 5 0 then 1 - b.csBank p else b.csBank p)) → ((if j.bit 5 0 then
    b.csShadow p else b.csValid p) = true) → 525696 ≤ j.le 16 4 → 
    exec (.tenonCsRead j) s = .next ((b.jobWrite j (j.le 8 8) (csWhole (b.store p bank))).succeed j (leBytes 4
      525696))) ∧
  (∀ (s : State) (p : Fin 8), 
    exec (.csScrubPass p 1) s = .next (s.faultPipe p.val 5 0) ∧ exec (.csScrubPass p 2) s = .next ((s.wr (wPipe
      p.val) Reg.PIPE_TENON_STATUS_SHADOW_VALID 0).faultPipe p.val 6 0) ∧ exec (.csScrubPass p 3) s = .next
      (s.faultPipe p.val 7 0) ∧ exec (.csScrubPass p 0) s = .next s) ∧
  (∀ (s : State) (v : Fin 16), s.svcLive v.val = true → 
    exec (.svcHeartbeat v) s = .next (s.wr (wGlobal + 4 * v.val) Reg.GLOBAL_SVC_STATUS_HEARTBEAT ((s.rd (wGlobal +
      4 * v.val) Reg.GLOBAL_SVC_STATUS_HEARTBEAT + 1) % 65536))) ∧
  (∀ (s u : State) (v : Fin 16) (d : Nat), s.svcState v.val = 1 ∧ d = s.svcDuty v.val ∧ d < 14 → u = s.setSvc v.val
    2 31 → 
    (∀ x, (rangeFrom 0 16).find? (fun x => decide (u.svcState x = 3)) = some x → exec (.svcHeartbeatTimeout v) s =
      .next (((u.setSvc x 1 d).event Ev.SVC_STALL 0 v.val d x).fault .glob 0 v.val)) ∧ ((rangeFrom 0 16).find? (fun
      x => decide (u.svcState x = 3)) = none → exec (.svcHeartbeatTimeout v) s = .next ((u.event Ev.SVC_STALL 0
      v.val d 0xFF).fault .glob 1 v.val))) ∧
  (∀ (s b : State) (j : Job), s.takes { op := 0x3B, safe := true } j b → maskList (j.byte 0 4) ≠ [] →
    b.setupInvalid (j.byte 0 5) (j.le 6 2) (j.le 8 8) = false → 
    exec (.tenonSetup j) s = .next ((forEach (maskList (j.byte 0 4)) (fun p s => (fun u : State => u.setPipe p {
      u.pipe p with parkGoal := min (u.pipe p).parkGoal (56 - j.byte 0 5) }) (((s.wr (wPipe p)
      Reg.PIPE_TENON_CFG_RESERVE (j.byte 0 5)).wr (wPipe p) Reg.PIPE_TENON_CFG_REGION_SIZE (j.le 6 2)).wr (wPipe p)
      Reg.PIPE_REGION_BASE (j.le 8 8))) b).succeed j [])) ∧
  (∀ (s b : State) (j : Job) (p : Nat), s.takes { op := 0x3C } j b → oneOf (j.byte 0 4) = some p → j.le 6 2 + j.le
    16 2 ≤ 16384 ∧ j.le 16 2 ≠ 0 → 
    exec (.tenonStateRead j) s = .next ((b.setReqs (b.tenon.reqs ++ (rangeFrom (j.le 6 2) (j.le 16 2)).map (fun k
      => { pipe := p, engine := 64, op := .hostRead k j }))))) ∧
  (∀ (s b : State) (j : Job) (d : List Byte), s.takes { op := 0x3D } j b → maskList (j.byte 0 4) ≠ [] → j.le 6 2 +
    j.le 16 2 ≤ 16384 ∧ j.le 16 2 ≠ 0 → d = b.hostRd (b.jobLink j) (j.le 8 8) (8 * j.le 16 2) → 
    exec (.tenonStateWrite j) s = .next (((b.countMoved 30 (8 * j.le 16 2)).setReqs (b.tenon.reqs ++ (maskList
      (j.byte 0 4)).flatMap (fun p => (rangeFrom 0 (j.le 16 2)).map (fun k => {
      pipe := p, engine := 64, op := .hostWrite (j.le 6 2 + k) (BitVec.ofNat 64 (leNat (slice d (8 * k) 8))) j
        }))))))

/-- Ridge events and the meter commands. While Ridge admits, a storm begins on a class paused past its watchdog and
ends when the class is no longer paused; a copy past its hold time is dropped; a spill write is confirmed and a
refill read returns; an audit reclaims the cells that two audits found leaked. Valid records of meters that the
function holds replace the meters, with full buckets; a query writes a meter's record and its buckets refilled to
now. (Choices of the model that it rests on: log entries 12, 16, 18, 185, 200, 242.) (R280, R281, R282, R283, R285,
R297, R298, R299, R300, R328, R331, R333.) -/
def Obligations.RidgeEventsAndMeters : Prop :=
  (∀ (s u : State) (n : Fin 141) (c : Fin 16), s.rdb (rportBase n.val) Reg.RIDGE_PORT_A_WD_EN = true ∧ s.wdPaused
    n.val c.val = true ∧ s.inStorm n.val c.val = false ∧ s.admits = true → u = (s.setStorm n.val c.val
    true).stormDrop n.val c.val → 
    exec (.wdExpiry n c) s = .next (u.event Ev.PFC_STORM 0 (n.val * 16 + c.val) (u.stormDropped n.val c.val) 0)) ∧
  (∀ (s u : State) (n : Fin 141) (c : Fin 16), s.inStorm n.val c.val = true ∧ s.wdPaused n.val c.val = false ∧
    s.admits = true → u = (s.setStorm n.val c.val false).event Ev.PFC_STORM_END 0 (n.val * 16 + c.val)
    (s.stormDropped n.val c.val) 0 → 
    exec (.wdRestoreExpiry n c) s = .next { u with
      ridge := { u.ridge with storms := tabErase u.ridge.storms (stormKey n.val c.val) } }) ∧
  (∀ (s : State) (q : BitVec 16) (k : Nat) (c : Copy) (g : Nat), (s.egq q.toNat).mc[k]? = some c → s.punted q.toNat
    c = false ∧ c.group = some g ∧ s.admits = true ∧ c.time + 1000 * c.holdUs ≤ s.clock.up → 
    exec (.mcastHoldExpiry q k) s = .next (((((s.leaveQueue q.toNat c).portCount (s.qPort q.toNat) (80 + s.qTc
      q.toNat) 1).event Ev.MCAST_HOLD_DROP 0 g (s.qPort q.toNat) c.holdUs).pcEvent none 0x08 1 (fun x => decide (x
      = g)) {}).unref c.frame)) ∧
  (∀ (s u v : State) (q : BitVec 16) (c : Copy), (s.egq q.toNat).dram.find? (fun e => !e.2) = some (c, false) →
    s.admits = true ∧ s.stackOffline (s.egq q.toNat).stack = false → (u = s.setEgq q.toNat { s.egq q.toNat with
    dram := (s.egq q.toNat).dram.map (fun e => if e.1 = c then (e.1, true) else e) }) → v = (u.freeCells
      c.frame).count 149 0 ((u.frame c.frame).bytes.length + 4) → 
    exec (.spillWriteConfirm q) s = .next (v.setFrame c.frame { v.frame c.frame with store := 3 })) ∧
  (∀ (s u v : State) (q : BitVec 16) (ok : Bool) (x : EgQ) (c : Copy) (t : List (Copy × Bool)) (f : Frame) (k :
    Nat), x = s.egq q.toNat → x.dram = (c, true) :: t → f = s.frame c.frame → k = cellsFor (f.bytes.length + 4) →
    s.admits = true ∧ s.stackOffline x.stack = false ∧ s.copyCells x.head < x.refill → s.rd wRidge
    Reg.RIDGE_POOL_USE_DEEP_USED + k ≤ s.rd wRidge Reg.RIDGE_POOLS_DEEP_CELLS → u = (s.wr wRidge
    Reg.RIDGE_POOL_USE_DEEP_USED (s.rd wRidge Reg.RIDGE_POOL_USE_DEEP_USED + k)).addFree (-(k : Int)) → (v =
    (u.takeCells k).2.setFrame c.frame { f with
    cells := k, held := (u.takeCells k).1, store := 2, bad := if ok then f.bad else 1 }) → 
    exec (.refillReadReturn q ok) s = .next ((((v.setEgq q.toNat { x with dram := t, head := x.head ++ [c] }).count
      149 1 (f.bytes.length + 4)).spillReport x.stack).joinTail q.toNat)) ∧
  (∀ (s : State) (lost : List (Fin 524288 × Fin 141 × Fin 16)) (doubled : List (Fin 524288)), s.audits = true ∧
    s.rdb wRidge Reg.RIDGE_STATUS_AUDIT_ACTIVE = false → 
    exec (.cellAudit true lost doubled) s = .next (({ s with ridge := { s.ridge with touched := [] } } : State).wr
      wRidge Reg.RIDGE_STATUS_AUDIT_ACTIVE 1)) ∧
  (∀ (s t : State) (lost : List (Fin 524288 × Fin 141 × Fin 16)) (doubled : List (Fin 524288)) (found again : List
    (Nat × Nat × Nat)) (both : List Nat) (u v w : State), s.audits = true ∧ s.rdb wRidge
    Reg.RIDGE_STATUS_AUDIT_ACTIVE = true → t = forEach (doubled.map (fun k => k.val)) (fun k s => s.cellDoubled k)
    (forEach (lost.map (fun e => (e.1.val, e.2.1.val, e.2.2.val))) (fun e s => s.cellLost e) s) → found =
    t.ridge.leaked.filter (fun e => t.cellNeither e.1) ∧ again = found.filter (fun e => t.ridge.suspects.contains
    e.1) → both = t.cellsInUse.filter (fun k => t.cellFree k && !t.ridge.touched.contains k) → u = (t.wr wRidge
    Reg.RIDGE_STATUS_AUDIT_ACTIVE 0).inc wRidge Reg.RIDGE_AUDIT_AUDITS 1 → v = forEach again (fun e s =>
    s.cellFound e) { u with
    ridge := { u.ridge with
      suspects := (found.map (fun e => e.1)).filter (fun k => !t.ridge.suspects.contains k), touched := [] } } → (w
        = if again = [] then v else (((v.inc wRidge Reg.RIDGE_LEAKED_RECLAIMED again.length).count 149 2
        again.length).eventFw Ev.CELL_LEAK 0 again.length ((again.head?.map (·.1)).getD 0) (v.rd wRidge
        Reg.RIDGE_AUDIT_AUDITS)).fault .ridge 0 again.length) → 
    exec (.cellAudit false lost doubled) s = .next (if both = [] then w else w.fault .ridge 1 (both.headD 0))) ∧
  (∀ (s b : State) (j : Job) (recs : List (Nat × List Byte)), s.takes { op := 0x5C, owner := false } j b → j.le 8 4
    + j.le 12 4 ≤ 262144 ∧ j.one = true → recs = (rangeFrom 0 (min (j.le 12 4) 262144)).map (fun k => (j.le 8 4 +
    k, b.hostRd (b.jobLink j) (j.hostAddr + 32 * k) 32)) → (recs.any fun e => decide (b.meterHolder e.1 ≠ b.jobFn
    j)) = false → recs.findIdx? (fun e => badMeter e.2) = none → 
    exec (.meterSet j) s = .next ((forEach recs (fun e s => s.setMeter e.1 (parseMeter e.2 s.nowNs)) (if j.le 12 4
      = 0 then b else b.countMoved 30 (32 * j.le 12 4))).succeed j [])) ∧
  (∀ (s b : State) (j : Job) (x : Meter), s.takes { op := 0x5D, owner := false } j b → j.le 8 4 < 262144 ∧ j.one =
    true ∧ b.meterHolder (j.le 8 4) = b.jobFn j → x = (b.meter (j.le 8 4)).refill b.nowNs → 
    exec (.meterQuery j) s = .next ((b.jobWrite j j.hostAddr (x.bytes ++ tokenField x.tc.tokens ++ tokenField
      x.tp.tokens ++ leBytes 5 x.green ++ leBytes 5 x.yellow ++ leBytes 5 x.red ++ List.replicate 9 0)).succeed j
      (leBytes 4 64)))

/-- The RIDGE admin commands. Valid fields are written to their registers and tables: the pools, the masked pairs of
a port, a port's settings, a DSCP table, a sampler, a multicast group and deep queues, each where SHARED_CELLS does
not become negative; a query writes a record. (Choices of the model that it rests on: log entries 12, 17.) (R274,
R276, R277, R278, R280, R282, R287, R292, R295, R301, R302, R303.) -/
def Obligations.RidgeCommands : Prop :=
  (∀ (s b : State) (j : Job) (u v : State), s.takes { op := 0x50 } j b → j.one = true → u = ((b.wr wRidge
    Reg.RIDGE_POOLS_MIRROR_CELLS (j.le 8 2)).wr wRidge Reg.RIDGE_POOLS_DEEP_CELLS (j.le 10 2)).wr wRidge
    Reg.RIDGE_AUDIT_AUDIT_MS (j.le 12 2) → u.reshare = some v → 
    exec (.ridgePoolSet j) s = .next (v.xonAll.succeed j (leBytes 4 (v.rd wRidge Reg.RIDGE_SHARED_SHARED_CELLS)))) ∧
  (∀ (s b : State) (j : Job) (n : Nat) (k : Int) (u v : State), s.takes { op := 0x51, owner := false } j b → n =
    j.le 4 2 ∧ n ≤ 140 ∧ b.holdsPort (b.jobFn j) n = true → k = sInt 8 (j.byte 0 12) ∧ -4 ≤ k ∧ k ≤ 3 ∧ j.one =
    true → (u = forEach ((rangeFrom 0 16).filter (fun c => (j.le 6 2).testBit c)) (fun c s => (fun u : State => if
    j.bit 13 0 = false then u.wr (pairBase n c) Reg.RIDGE_PAIR_CFG_HDRM_CELLS (j.le 10 2) else u) ((((s.wr
    (pairBase n c) Reg.RIDGE_PAIR_CFG_MIN_CELLS (j.le 8 2)).wr (pairBase n c) Reg.RIDGE_PAIR_CTL_ALPHA_K (uNat 3
    k)).wr (pairBase n c) Reg.RIDGE_PAIR_CTL_HDRM_AUTO (b2n (j.bit 13 0))).wr (pairBase n c)
    Reg.RIDGE_PAIR_CTL_XON_DELTA (j.le 14 2))) b) → (u.autoHdrm n).reshare = some v → 
    exec (.ridgePairSet j) s = .next (v.xonAll.succeed j (leBytes 4 (v.rd wRidge Reg.RIDGE_SHARED_SHARED_CELLS)))) ∧
  (∀ (s b : State) (j : Job) (n : Nat) (u v : State), s.takes { op := 0x52, owner := false } j b → n = j.le 4 2 ∧ n
    ≤ 140 ∧ b.holdsPort (b.jobFn j) n = true → j.bits 6 2 0 < 5 ∧ j.byte 0 7 < 16 ∧ j.le 16 2 < 4096 ∧ j.one = true
    → u = ((((b.setReg (rportBase n + 0x1000) (b2n (j.bit 6 5) * 2 ^ 31 + b2n (j.bit 6 6) * 2 ^ 30 + j.bits 6 2 0 *
    2 ^ 27 + j.bits 6 4 3 * 2 ^ 25 + j.byte 0 7)).setReg (rportBase n + 0x1004) (j.le 8 4)).setReg (rportBase n +
    0x1008) (j.le 14 2 * 2 ^ 16 + j.le 12 2)).setReg (rportBase n + 0x100C) (b2n (j.bit 22 1) * 2 ^ 31 + b2n (j.bit
    22 0) * 2 ^ 30 + j.byte 0 21 * 2 ^ 22 + j.byte 0 20 * 2 ^ 14 + j.le 16 2)).wr (rportBase n)
    Reg.RIDGE_PORT_E_PEER_NS (j.le 18 2) → (u.autoHdrm n).reshare = some v → 
    exec (.ridgePortSet j) s = .next ((v.lossyXon n).xonAll.succeed j [])) ∧
  (∀ (s b : State) (j : Job), s.takes { op := 0x53 } j b → j.byte 0 4 < 4 ∧ j.one = true → 
    exec (.ridgeDscpSet j) s = .next ((forEach (rangeFrom 0 8) (fun w s => s.setReg (wRidge + 0x200 + 0x20 * j.byte
      0 4 + 4 * w) (leNat (s.hostRd (s.jobLink j) (j.le 8 8 + 4 * w) 4))) (b.countMoved 30 32)).succeed j [])) ∧
  (∀ (s b : State) (j : Job) (i : Nat) (u : State), s.takes { op := 0x54 } j b → i = j.byte 0 4 ∧ j.le 8 4 < 2 ^ 24
    ∧ j.byte 0 13 ≤ 131 ∧ j.one = true → u = (b.setReg (samplerBase i + 0x20000) (b2n (j.bit 12 0) * 2 ^ 31 + j.le
    8 4)).setReg (samplerBase i + 0x20004) (j.le 16 2 * 2 ^ 16 + j.bits 14 3 0 * 2 ^ 12 + j.byte 0 13) → 
    exec (.ridgeSamplerSet j) s = .next ((if b.rd (samplerBase i) Reg.RIDGE_SAMPLER_A_N = j.le 8 4 then u else { u
      with ridge := { u.ridge with offers := tabSet (fun _ => 0) u.ridge.offers i 0 } }).succeed j [])) ∧
  (∀ (s b : State) (j : Job) (g n : Nat) (l : List (Nat × Nat)), s.takes { op := 0x55 } j b → g = j.le 8 2 ∧ n =
    j.le 10 2 ∧ n ≤ 4096 ∧ j.one = true → l = b.readMembers (b.jobLink j) j.hostAddr (min n 4096) → (l.any fun m =>
    decide (139 < m.1)) = false → b.otherMembers g + n ≤ 131072 → 
    exec (.ridgeMcastSet j) s = .next (((b.countMoved 30 (4 * n)).setGroup g {
      members := l, holdUs := j.le 12 2, prune := j.bit 14 0 }).succeed j [])) ∧
  (∀ (s b : State) (j : Job) (l : List Nat), s.takes { op := 0x56, owner := false } j b → j.le 8 2 + j.le 12 4 ≤
    65536 ∧ j.le 22 2 < 16384 ∧ j.one = true → l = rangeFrom (j.le 8 2) (min (j.le 12 4) 65536) → (l.any fun q =>
    !b.holdsPort (b.jobFn j) (b.qPort q)) = false → 
    exec (.ridgeDeepSet j) s = .next ((forEach l (fun q s => s.setEgq q { s.egq q with
      deep := j.bit 16 0, stack := j.bits 16 2 1, spillOn := j.le 18 2, refill := j.le 20 2, limit := j.le 22 2 })
        b).succeed j [])) ∧
  (∀ (s b : State) (j : Job) (r : List Byte), s.takes { op := 0x57, owner := false } j b → j.byte 0 5 < 2 ∧ j.one =
    true → (j.byte 0 5 = 0 → b.holdsPort (b.jobFn j) (b.qPort (j.le 8 2)) = true) → (r = if j.byte 0 5 = 0 then
    b.egqRecord (j.le 8 2) else b.groupRecord (j.le 8 2)) → 
    exec (.ridgeQuery j) s = .next ((b.jobWrite j j.hostAddr r).succeed j (leBytes 4 r.length)))

/-- A scheduling decision, and the launch time of a frame. While the MAC may start a frame and none is chosen for
it, and the port is neither waking nor restarting, a decision takes the turns of children that have become
ineligible away, then wakes a port in low-power idle that has an eligible queue, else descends from the port node to
one queue and chooses its head frame, else counts the first reason that its queues are blocked for; a frame's launch
time arrives once the port's clock reaches it. (Choices of the model that it rests on: log entries 23, 40.) (R51,
R313, R315, R316, R317, R318, R319, R324.) -/
def Obligations.EschDecisions : Prop :=
  (∀ (s u v : State) (n : Fin 141) (m : Fin 2) (q : Nat) (el : List Nat), (s.macBusy n.val m.val = false ∧ s.chosen
    n.val m.val = none ∧ (m.val = 1 → s.preempting n.val = true) ∧ (s.port n.val).waking = false ∧ (s.port
    n.val).restart = false) → el = (s.portQueues n.val m.val).filter (fun q => decide (s.blockedBy q = 0)) → el =
    [] ∨ 128 ≤ n.val ∨ s.rdb (wPort n.val) Reg.PORT_STATUS_LPI_TX = false → v = s.loseTurns n.val (el ++
    (s.portQueues n.val (1 - m.val)).filter (fun q => decide (s.blockedBy q = 0))) → v.descend n.val el = some (q,
    u) → 
    exec (.eschDecision n m) s = .next (u.setChosen n.val m.val ((s.egq q).headCopy.map (fun c => (q, c.order))))) ∧
  (∀ (s : State) (n : Fin 141) (m : Fin 2) (el : List Nat), (s.macBusy n.val m.val = false ∧ s.chosen n.val m.val =
    none ∧ (m.val = 1 → s.preempting n.val = true) ∧ (s.port n.val).waking = false ∧ (s.port n.val).restart =
    false) → el = (s.portQueues n.val m.val).filter (fun q => decide (s.blockedBy q = 0)) → el ≠ [] ∧ n.val < 128 ∧
    s.rdb (wPort n.val) Reg.PORT_STATUS_LPI_TX = true → 
    exec (.eschDecision n m) s = .next ((s.loseTurns n.val (el ++ (s.portQueues n.val (1 - m.val)).filter (fun q =>
      decide (s.blockedBy q = 0)))).wake n.val)) ∧
  (∀ (s v : State) (n : Fin 141) (m : Fin 2) (k : Nat) (t : List Nat), (s.macBusy n.val m.val = false ∧ s.chosen
    n.val m.val = none ∧ (m.val = 1 → s.preempting n.val = true) ∧ (s.port n.val).waking = false ∧ (s.port
    n.val).restart = false) → (s.portQueues n.val m.val).filter (fun q => decide (s.blockedBy q = 0)) = [] →
    (s.portQueues n.val m.val).map s.blockedBy = k :: t → v = s.loseTurns n.val ((s.portQueues n.val (1 -
    m.val)).filter (fun q => decide (s.blockedBy q = 0))) → 
    exec (.eschDecision n m) s = .next (v.portCount n.val (113 + t.foldl min k) 1)) ∧
  (∀ (s : State) (q : BitVec 16) (c : Copy) (t : Nat), (s.egq q.toNat).headCopy = some c → c.launch = some t →
    s.launchAt (s.qPort q.toNat) t ≤ s.now → 
    exec (.launchTimeArrival q) s = .next (s.setEgq q.toNat { s.egq q.toNat with
      head := (s.egq q.toNat).head.map (fun d => if d = c then { d with due := true } else d) }))

/-- ESCH_PORT_SET, ESCH_NODE_SET, ESCH_QUEUE_SET and ESCH_QUERY. Valid records of nodes whose ports the function
holds replace the nodes, with full buckets where a rate or burst changes; a port's class map and launch guard are
written; a query gives a node and its buckets as they stand now. (Choices of the model that it rests on: log entries
12, 19.) (R307, R308, R309, R311, R312, R323, R324, R325, R332, R333, R334.) -/
def Obligations.EschCommands : Prop :=
  (∀ (s b : State) (j : Job) (n : Nat) (img : List Byte), s.takes { op := 0x58, owner := false, safe := true } j b
    → n = j.le 4 2 ∧ n ≤ 140 ∧ j.le 16 4 ≤ 10 ^ 6 ∧ j.one = true → b.holdsPort (b.jobFn j) n = true → ((rangeFrom 0
    16).any fun c => decide (65535 < j.le 6 2 + j.bits (8 + c / 2) (4 * (c % 2) + 3) (4 * (c % 2)) ∨ b.qPort (j.le
    6 2 + j.bits (8 + c / 2) (4 * (c % 2) + 3) (4 * (c % 2))) ≠ n)) = false → img = b.hostRd (b.jobLink j) (j.le 20
    4) 32 → (j.le 20 4 ≠ 0 → badNode 3 img = false) → 
    exec (.eschPortSet j) s = .next (State.succeed ((fun u : State => if j.le 20 4 = 0 then u else u.putNode 3 n
      (parseNode img)) (((((if j.le 20 4 = 0 then b else b.countMoved 30 32).setReg (wEsch + 16 * n + 0x1000) (j.le
      6 2)).setReg (wEsch + 16 * n + 0x1004) (j.le 8 4)).setReg (wEsch + 16 * n + 0x1008) (j.le 12 4)).wr (wEsch +
      16 * n) Reg.ESCH_PORT_LAUNCH_LAUNCH_MAX_US (j.le 16 4))) j [])) ∧
  (∀ (s b : State) (j : Job) (u : State), s.takes { op := 0x59, owner := false, safe := true } j b → (j.le 8 2 ≠ 0
    ∧ j.byte 0 4 < 2 ∧ j.le 8 2 ≤ 8192 ∧ j.le 6 2 + j.le 8 2 ≤ (if j.byte 0 4 = 0 then 1024 else 8192) ∧ j.one =
    true) → b.nodesFit (b.jobFn j) (j.byte 0 4) (b.readRecs (b.jobLink j) j.hostAddr (j.le 6 2) (j.le 8 2)) u → 
    exec (.eschNodeSet j) s = .next (u.succeed j [])) ∧
  (∀ (s b : State) (j : Job) (u : State), s.takes { op := 0x5A, owner := false, safe := true } j b → j.le 8 4 ≠ 0 ∧
    j.le 6 2 + j.le 8 4 ≤ 65536 ∧ j.one = true → b.nodesFit (b.jobFn j) 2 (b.readRecs (b.jobLink j) j.hostAddr
    (j.le 6 2) (j.le 8 4)) u → 
    exec (.eschQueueSet j) s = .next (u.succeed j [])) ∧
  (∀ (s b : State) (j : Job) (k n : Nat) (d : Node) (x : NodeSt), s.takes { op := 0x5B, owner := false } j b → (k =
    j.byte 0 4 ∧ n = j.le 6 2 ∧ k < 4 ∧ n < (if k = 0 then 1024 else if k = 1 then 8192 else if k = 2 then 65536
    else 141)) → j.one = true ∧ b.holdsPort (b.jobFn j) (b.nodePort k n) = true → x = b.nodeNow k n → (d = if k = 3
    then { b.node 3 n with weight := 0 } else b.node k n) → 
    exec (.eschQuery j) s = .next ((b.jobWrite j j.hostAddr (d.bytes ++ tokenField x.cb.tokens ++ tokenField
      x.pb.tokens ++ leBytes 4 (uNat 32 x.deficit) ++ leBytes 1 (b2n (decide (b.nodeBlocked k n = 0)) + 2 * b2n
      (b.committed k n)) ++ leBytes 1 (b.nodeBlocked k n) ++ List.replicate 18 0)).succeed j (leBytes 4 64)))

/-- Joist: link retransmit and the Joist commands. At a domain port that is up, an ACK releases the frames kept up
to it, a NAK and the transmit timer resend from a frame, a RESYNC sets the expected number and is acknowledged, and
the receive timer lets the next NAK be sent. A frame received is taken piece by piece; a frame of the service
cluster's firmware enters at port 140. With valid operands the domain settings, routes and port settings are
written, queries write the records they read, and each reports SUCCESS. (Choices of the model that it rests on: log
entries 12, 173, 244.) (R47, R243, R338, R339, R343, R347, R348, R349, R350, R352.) -/
def Obligations.JoistTraffic : Prop :=
  (∀ (s : State) (n : Fin 128) (k : BitVec 12) (i : Nat), s.retxRuns n.val = true → (s.jport n.val).kept.findIdx?
    (fun e => decide (e.1 = k.toNat)) = some i → 
    exec (.rxAck n k) s = .next (((s.setJport n.val { s.jport n.val with
      kept := (s.jport n.val).kept.drop (i + 1), tries := 0, resend := (s.jport n.val).resend.filter (fun e =>
        !((s.jport n.val).kept.take (i + 1)).any (fun g => decide (g.1 = e.1))) }).releaseKept n.val ((s.jport
        n.val).kept.take (i + 1))).jportReport n.val)) ∧
  (∀ (s : State) (n : Fin 128) (k : BitVec 12) (l : List (Nat × Sending)), s.retxRuns n.val = true → l = (s.jport
    n.val).kept.dropWhile (fun e => decide (e.1 ≠ k.toNat)) → l ≠ [] → (s.jport n.val).tries + 1 ≤ s.rd (joistBase
    n.val) Reg.JOIST_PORT_B_RETX_TRIES → 
    exec (.rxNak n k) s = .next (s.setJport n.val { s.jport n.val with
      resend := l, tries := (s.jport n.val).tries + 1 })) ∧
  (∀ (s : State) (n : Fin 128) (k : BitVec 12), s.retxRuns n.val = true → 
    exec (.rxResync n k) s = .next (((s.wr (joistBase n.val) Reg.JOIST_PORT_D_RX_EXPECT k.toNat).setJport n.val {
      s.jport n.val with nakSent := false }).sendLink n.val 0 (k.toNat + 4095))) ∧
  (∀ (s : State) (n : Fin 128) (e : Nat × Sending) (l : List (Nat × Sending)), (s.jport n.val).kept = e :: l →
    s.retxRuns n.val = true → 
    exec (.retxTimeoutExpiry n false) s = .next (s.resendFrom n.val e.1)) ∧
  (∀ (s : State) (n : Fin 128), 
    exec (.retxTimeoutExpiry n true) s = .next (s.setJport n.val { s.jport n.val with nakSent := false })) ∧
  (∀ (s : State) (n : Fin 128) (l : List Byte) (fcs : Word32), s.joisted n.val l = true ∧ joistVersion l = 1 ∧
    joistSeqValid l = true → s.reception n.val 0 = none → 
    exec (.rxRetxFrame n l fcs) s = .next (s.rxPiece {
      port := n.val, mac := 0, total := l.length, bytes := l, last := true, fcs := fcs.toNat, aborted := false,
        broken := false, frags := 0 })) ∧
  (∀ (s b u : State) (n : Fin 128) (mac : Fin 2) (total : BitVec 15) (l : List Byte) (fcs : Word32) (ab br : Bool)
    (frags : BitVec 8) (phy : PhyCounts) (x : Piece) (r : Receiving), b = s.phyCount n.val phy ∧ b.portUp n.val =
    true → x = {
    port := n.val, mac := mac.val, total := total.toNat, bytes := l, last := true, fcs := fcs.toNat, aborted := ab,
      broken := br, frags := frags.toNat } → (u = if (b.reception n.val mac.val).isNone then b.startReception x
      else b) → u.reception n.val mac.val = some r → 
    exec (.rxFrame n mac total l true fcs ab br frags phy none) s = .next ((((u.takeBytes x r).reception n.val
      mac.val).map ((u.takeBytes x r).endReception x)).getD (u.takeBytes x r))) ∧
  (∀ (s b u : State) (n : Fin 128) (mac : Fin 2) (total : BitVec 15) (l : List Byte) (fcs : Word32) (ab br : Bool)
    (frags : BitVec 8) (phy : PhyCounts) (x : Piece) (r : Receiving), b = s.phyCount n.val phy ∧ b.portUp n.val =
    true → x = {
    port := n.val, mac := mac.val, total := total.toNat, bytes := l, last := false, fcs := fcs.toNat, aborted :=
      ab, broken := br, frags := frags.toNat } → (u = if (b.reception n.val mac.val).isNone then b.startReception x
      else b) → u.reception n.val mac.val = some r → 
    exec (.rxFrame n mac total l false fcs ab br frags phy none) s = .next (u.takeBytes x r)) ∧
  (∀ (s : State) (n : Fin 128) (mac : Fin 2) (total : BitVec 15) (l : List Byte) (last : Bool) (fcs : Word32) (ab
    br : Bool) (frags : BitVec 8) (phy : PhyCounts) (p : Fin 8) (tc : Fin 16), 
    exec (.rxFrame n mac total l last fcs ab br frags phy (some (p, tc))) s = .next (s.firmwareFrame p.val tc.val
      l)) ∧
  (∀ (s b : State) (j : Job), s.takes { op := 0x60 } j b → j.le 4 2 < 16384 ∧ j.byte 0 6 < 64 ∧ j.one = true →
    ((rangeFrom 0 128).any fun n => retryBreaks (b.rd (joistBase n) Reg.JOIST_PORT_A_RETX_TC) (b.rd (joistBase n)
    Reg.JOIST_PORT_B_RETX_TIMEOUT_US) (b.rd (joistBase n) Reg.JOIST_PORT_B_RETX_TRIES) (j.le 8 2)) = false → j.le 4
    2 = b.devNum ∨ ((rangeFrom 0 128).any fun n => b.domain n && decide (b.linkState n ≠ 0)) = false → 
    exec (.joistSetup j) s = .next ((((b.wr wJoist Reg.JOIST_CFG_DEV_NUM (j.le 4 2)).wr wJoist
      Reg.JOIST_CFG_HOP_LIMIT (j.byte 0 6)).wr wJoist Reg.JOIST_HOST_TIMEOUT_HOST_TIMEOUT_MS (j.le 8 2)).succeed j
      [])) ∧
  (∀ (s b : State) (j : Job) (recs : List (List Byte)), s.takes { op := 0x61 } j b → recs = (rangeFrom 0 (min (j.le
    10 2) 16384)).map (fun k => b.hostRd (b.jobLink j) (j.hostAddr + 8 * k) 8) → j.le 8 2 + j.le 10 2 ≤ 16384 ∧
    j.le 10 2 ≠ 0 ∧ j.one = true → recs.any (fun r => decide (4 < beAt r 0 1 ∨ leNat (slice r 1 3) ≠ 0) ||
    ((((r.drop 4).take 4).map (·.toNat)).take (beAt r 0 1)).any (fun p => decide (127 < p))) = false → 
    exec (.joistRouteSet j) s = .next ((forEach ((rangeFrom (j.le 8 2) (j.le 10 2)).zip recs) (fun e s => { s with
      joist := { s.joist with
        routes := tabSet (fun _ => [0, 0, 0, 0, 0]) s.joist.routes e.1 (beAt e.2 0 1 :: ((e.2.drop 4).take 4).map
          (·.toNat)) } }) (b.countMoved 30 (8 * j.le 10 2))).succeed j [])) ∧
  (∀ (s b : State) (j : Job), s.takes { op := 0x62 } j b → j.le 8 2 < 16384 ∧ j.one = true → 
    exec (.joistRouteQuery j) s = .next ((b.jobWrite j j.hostAddr (leBytes 1 ((b.routeRecord (j.le 8 2)).getD 0 0)
      ++ [0, 0, 0] ++ ((b.routeRecord (j.le 8 2)).drop 1).map (BitVec.ofNat 8))).succeed j (leBytes 4 8))) ∧
  (∀ (s b : State) (j : Job), s.takes { op := 0x63 } j b → j.le 4 2 < 128 ∧ j.one = true → 
    exec (.joistPortQuery j) s = .next ((b.jobWrite j j.hostAddr (b.regBytes (joistBase (j.le 4 2) + 0x1000)
      4)).succeed j (leBytes 4 16))) ∧
  (∀ (s b : State) (j : Job) (n : Nat), s.takes { op := 0x2A, owner := false } j b → n = j.le 4 2 ∧ n < 128 ∧
    b.portHolder n = b.jobFn j → j.byte 0 6 < 2 ∧ j.only [(4, 2), (6, 1), (8, 2), (10, 2), (12, 2), (14, 1)] = true
    ∧ j.bit 9 6 = false ∧ j.bit 9 7 = false → j.le 10 2 ≠ 0 ∧ j.le 10 2 ≤ 2047 ∧ j.le 12 2 ≠ 0 ∧ j.byte 0 14 ≠ 0 ∧
    j.byte 0 14 ≤ 15 → retryBreaks (j.le 8 2) (j.le 12 2) (j.byte 0 14) (b.rd wJoist
    Reg.JOIST_HOST_TIMEOUT_HOST_TIMEOUT_MS) = false → b.linkState n = 0 → 
    exec (.portDomainSet j) s = .next ((((((b.wr (wPort n) Reg.PORT_CFG_DOMAIN (j.byte 0 6)).wr (joistBase n)
      Reg.JOIST_PORT_A_RETX_TC (j.le 8 2)).wr (joistBase n) Reg.JOIST_PORT_A_RETX_WINDOW (j.le 10 2)).wr (joistBase
      n) Reg.JOIST_PORT_B_RETX_TIMEOUT_US (j.le 12 2)).wr (joistBase n) Reg.JOIST_PORT_B_RETX_TRIES (j.byte 0
      14)).succeed j []))

/-- The five kinds of THYME_ADJUST. An adjustment of valid fields that the mode and the holdover state allow, within
its limits, joins the queue of adjustments for the next broadcast; SET_AT_PPS waits for the pulse; a refused STEP is
flagged. (Choices of the model that it rests on: log entries 12, 30, 111, 112, 188.) (R357, R358, R359, R360, R390,
R391, R392.) -/
def Obligations.ThymeAdjustments : Prop :=
  (∀ (s b : State) (j : Job) (v : Int), s.inTurn j 0x68 0x68 = true ∧ j.byte 0 4 = 0 → s.takes {
    op := 0x68, safe := true } j b → v = sInt 32 (j.le 8 4) ∧ v.natAbs ≤ 204800000 ∧ j.only [(4, 1), (8, 4)] = true
      → (b.holdState ≠ 3 ∧ (b.holdMode = 1 → (v - b.freqAdj).natAbs ≤ 1024 * b.slewMax)) → 
    exec (.thymeAdjustRate j) s = .next ((b.addAdj (.rate v)).succeed j [])) ∧
  (∀ (s b : State) (j : Job) (v : Int), s.inTurn j 0x68 0x68 = true ∧ j.byte 0 4 = 1 → s.takes {
    op := 0x68, safe := true } j b → v = adjOffset j ∧ j.only [(4, 1), (8, 12)] = true ∧ offsetBad v = false ∧ j.le
      16 4 ≠ 0 → (b.holdState ≠ 3 ∧ j.le 16 4 ≤ (if b.holdMode = 1 then b.slewMax else 200000)) → 
    exec (.thymeAdjustSlew j) s = .next ((b.addAdj (.slew v (j.le 16 4))).succeed j (leBytes 6 (uNat 48
      b.slewLeft)))) ∧
  (∀ (s b : State) (j : Job) (v : Int), s.inTurn j 0x68 0x68 = true ∧ j.byte 0 4 = 2 → s.takes {
    op := 0x68, safe := true } j b → v = adjOffset j ∧ j.only [(4, 1), (8, 8)] = true ∧ offsetBad v = false →
      b.holdState ≠ 3 ∧ b.holdMode ≠ 1 ∧ b.stepLimit ≠ 0 ∧ v.natAbs ≤ b.stepLimit * 65536 → 
    exec (.thymeAdjustStep j) s = .next ((b.addAdj (.step v)).succeed j [])) ∧
  (∀ (s b : State) (j : Job) (v : Int) (code : Nat), s.inTurn j 0x68 0x68 = true ∧ j.byte 0 4 = 2 → s.takes {
    op := 0x68, safe := true } j b → v = adjOffset j → (code = if b.holdState = 3 then St.HOLD_ACTIVE else if
      b.holdMode = 1 then St.STEP_REFUSED else if j.only [(4, 1), (8, 8)] = false ∨ offsetBad v = true then
      St.THYME_INVALID else St.STEP_REFUSED) → b.holdState = 3 ∨ b.holdMode = 1 ∨ j.only [(4, 1), (8, 8)] = false ∨
      offsetBad v = true ∨ b.stepLimit = 0 ∨ b.stepLimit * 65536 < v.natAbs → 
    exec (.thymeAdjustStep j) s = .next ((b.flagStep v).complete j code [])) ∧
  (∀ (s u : State) (j : Job) (code : Nat), s.inTurn j 0x68 0x68 = true ∧ j.byte 0 4 = 2 → s.jobReady j = true ∧
    j.opcode = 0x68 ∧ s.gate { op := 0x68, safe := true } j ≠ none → u = s.flagStep (adjOffset j) → u.inTurn j 0x68
    0x68 = true ∧ u.jobReady j = true ∧ u.gate { op := 0x68, safe := true } j = some code → 
    exec (.thymeAdjustStep j) s = .next ((u.startJob j).complete j code [])) ∧
  (∀ (s b : State) (j : Job), s.inTurn j 0x68 0x68 = true ∧ j.byte 0 4 = 3 → s.takes { op := 0x68 } j b → j.only
    [(4, 1), (8, 6), (16, 6)] = true ∧ j.le 16 4 < 10 ^ 9 → b.holdMode = 0 ∧ b.holdState = 0 → 
    exec (.thymeAdjustSet j) s = .next ((b.addAdj (.set ((j.le 8 6 * 10 ^ 9 + j.le 16 4) * 65536 + j.le 20
      2))).succeed j [])) ∧
  (∀ (s b : State) (j : Job), s.inTurn j 0x68 0x68 = true ∧ j.byte 0 4 = 4 → s.takes { op := 0x68 } j b → j.only
    [(4, 1), (8, 6)] = true → b.holdMode = 0 ∧ b.holdState = 0 → 
    exec (.thymeAdjustSetAtPps j) s = .next (State.succeed { b with
      thyme := { b.thyme with ppsArm := some (j.le 8 6) } } j []))

/-- THYME_PULSE_SET, THYME_IO_SET, THYME_PORT_SET, THYME_DPLL_SET and THYME_TOD_SEND. A valid pulse setting takes
effect now, or after the pulse in progress; a valid setting of an input or output, of a port's capture queue and of
the DPLL is written; a message for TOD_TX is read and starts at the next second boundary. (Choices of the model that
it rests on: log entries 12, 114, 118, 119.) (R371, R373, R375, R379, R381, R383, R385, R386.) -/
def Obligations.ThymeCommands : Prop :=
  (∀ (s b : State) (j : Job) (i k : Nat) (w : List Nat), s.takes { op := 0x69 } j b → i = j.byte 0 4 ∧ i ≤ 7 ∧
    j.byte 0 5 < 8 ∧ j.only [(4, 18), (24, 8)] = true → w = (rangeFrom 0 7).map (fun k => j.le (4 + 4 * k) 4) → k =
    (pulseCfg w).firstAt (b.eighthsUp + 8 * 2048) → ((pulseCfg w).bad (j.le 16 4) (j.le 24 4) = false ∧ ((pulseCfg
    w).mode = 1 → b.eighthsUp + 8 * 2048 ≤ (pulseCfg w).start)) → 
    exec (.thymePulseSet j) s = .next ((if (b.pulseSt i).high then b.setPulseSt i { b.pulseSt i with
      later := some (w.map (BitVec.ofNat 32), k) } else b.pulseStart i (w.map (BitVec.ofNat 32)) k).succeed j [])) ∧
  (∀ (s b : State) (j : Job), s.takes { op := 0x6A } j b → ioOk j b = true → 
    exec (.thymeIoSet j) s = .next ((forEach (rangeFrom 0 4) (fun w s => s.setReg (wThyme + 0x200 + 0x10 * j.byte 0
      4 + 4 * w) (j.le (4 + 4 * w) 4)) b |> fun u : State => if j.byte 0 4 = 5 then u.ppsRest else u).succeed j
      [])) ∧
  (∀ (s b : State) (j : Job) (n f : Nat), s.takes { op := 0x6B, owner := false } j b → n = j.le 4 2 ∧ n ≤ 127 ∧
    j.only [(4, 4)] = true ∧ f = b.jobFn j → b.portHolder n = f ∧ b.eventQ f (j.le 6 2) = true → 
    exec (.thymePortSet j) s = .next ((({ b with
      thyme := { b.thyme with tsFn := tabSet (fun _ => 0) b.thyme.tsFn n f } } : State).wr (wThyme + 4 * n)
        Reg.THYME_PORT_TS_TS_Q (j.le 6 2)).succeed j [])) ∧
  (∀ (s b : State) (j : Job) (u v : State), s.takes { op := 0x6C } j b → dpllBad j = false → u = forEach (rangeFrom
    0 6) (fun w s => s.setReg (wThyme + 0x300 + 4 * w) (j.le (4 + 4 * w) 4)) b → v = u.wr wThyme
    Reg.THYME_DPLL_OFFSET_D (uNat 32 (max (-(1024 * u.dpllWord 3 : Int)) (min (1024 * u.dpllWord 3 : Int)
    u.dpllD))) → 
    exec (.thymeDpllSet j) s = .next (((({ v with
      thyme := { v.thyme with
        qualified := b.thyme.qualified.filter (fun k => decide (u.candSrc k = b.candSrc k)), waits :=
          b.thyme.waits.filter (fun k => decide (u.candSrc k = b.candSrc k)) } } : State).dpllRun
          true).squelch).succeed j [])) ∧
  (∀ (s b : State) (j : Job) (x : TodSt), s.takes { op := 0x6D } j b → j.only [(8, 10)] = true ∧ j.le 16 2 ≤ 128 ∧
    j.le 16 2 ≠ 0 ∧ b.thyme.todTx = none → x = {
    job := j, bytes := b.hostRd (b.jobLink j) (j.le 8 8) (j.le 16 2), sec := (b.counter + 10 ^ 6 * unitNs + 10 ^ 9
      * unitNs - 1) / (10 ^ 9 * unitNs) % 2 ^ 48 } → 
    exec (.thymeTodSend j) s = .next ((({ b.countMoved 30 (j.le 16 2) with
      thyme := { b.thyme with todTx := some x } } : State).wr wThyme Reg.THYME_STATUS_TOD_TX_BUSY 1)))

/-- The time bus, the pulse outputs and TOD_TX. A broadcast runs the clock to its next 1,024-cycle boundary and
takes the waiting adjustments; an edge of a pulse output ends or begins its pulse; 1PPS_OUT pulses while its gate is
open; a message's first bit and its last byte; the PLL locks. (Choices of the model that it rests on: log entries 2,
113, 208.) (R35, R36, R356, R360, R371, R372, R373, R378, R379.) -/
def Obligations.ThymeOutputs : Prop :=
  (∀ (s : State), s.devState ≠ 0 → 
    exec .timeBusBroadcast s = .next ((s.pass (1024 - s.clock.up % 1024)).broadcast.avsFused)) ∧
  (∀ (s : State) (i : Fin 8) (a : Int), (a = (s.pulse i.val).start + (if (s.pulseSt i.val).high then (((s.pulseSt
    i.val).next - 1) * (s.pulse i.val).period + (s.pulse i.val).width : Nat) else ((s.pulseSt i.val).next *
    (s.pulse i.val).period : Nat) : Nat) + (s.pulse i.val).comp) → a ≤ s.eighths + 16 → (s.pulseSt i.val).high =
    true ∨ s.rdb (toutBase i.val) Reg.THYME_TOUT_STATUS_ACTIVE = true → 
    exec (.pulseEdge i) s = .next (if (s.pulseSt i.val).high then s.trailing i.val a else s.leading i.val)) ∧
  (∀ (s : State) (gate : Nat) (comp t a : Int), gate = bits (s.ioWord 5 0) 11 10 → s.ioEnable 5 = true ∧ (gate = 0
    ∨ (gate = 1 ∧ 2 ≤ s.holdState) ∨ (gate = 2 ∧ s.holdState = 2)) → comp = sInt 16 (bits (s.ioWord 5 2) 15 0) → t
    = s.eighths - comp + 16 → t % (8 * 10 ^ 9) ≤ 32 → a = t - t % (8 * 10 ^ 9) + comp → 
    exec .ppsOutEdge s = .next (if s.ioWord 5 1 = 0 then s.count 151 8 1 else (State.driveAt { s.count 151 8 1 with
      thyme := { (s.count 151 8 1).thyme with ppsEnd := a + (8 * s.ioWord 5 1 : Nat) } } 8 ((s.ioWord 5 0).testBit
        9) true a).driveAt 8 ((s.ioWord 5 0).testBit 9) false (a + (8 * s.ioWord 5 1 : Nat)))) ∧
  (∀ (s : State) (x : TodSt), s.thyme.todTx = some x → x.started = false ∧ (x.sec * 10 ^ 9 + s.ioWord 7 2) * unitNs
    ≤ s.counter → 
    exec .todTransmitStart s = .next (State.emit { s with
      thyme := { s.thyme with todTx := some { x with started := true } } } (.tod x.bytes))) ∧
  (∀ (s : State) (x : TodSt), s.thyme.todTx = some x → x.started = true → 
    exec .todTransmitDone s = .next ((({ s with thyme := { s.thyme with todTx := none } } : State).wr wThyme
      Reg.THYME_STATUS_TOD_TX_BUSY 0).complete x.job St.SUCCESS (leBytes 6 x.sec))) ∧
  (∀ (s : State), 
    exec .thymePllLock s = .next (s.faultLevel .thyme 0 0 false))

/-- Captures, 1PPS_IN, TOD_RX and the candidates of the DPLL. A configured edge that is not within 100 cycles of the
last one posts a capture; three evenly spaced pulses restore 1PPS_IN and a missing one loses it; received bytes fill
the ToD FIFO and an idle line posts the message; a candidate is qualified or disqualified, and the DPLL locks.
(Choices of the model that it rests on: log entries 115 to 117, 119, 120, 246.) (R368, R376, R377, R380, R382, R383,
R384.) -/
def Obligations.ThymeInputs : Prop :=
  (∀ (s : State) (x : Fin 4) (rising : Bool) (e : List Byte), (s.ioEdge x.val = 3 ∨ s.ioEdge x.val = (if rising
    then 1 else 2)) → (tabGet (fun _ => none) s.thyme.lastCap x.val).elim true (fun t => decide (100 ≤ s.clock.up -
    t)) = true → (e = captureBytes 1 x.val (if rising then 1 else 2) 0 0 0 (s.edgeTime x.val)) → 
    exec (.captureEdge x rising) s = .next (State.capture { s with
      thyme := { s.thyme with lastCap := tabSet (fun _ => none) s.thyme.lastCap x.val (some s.clock.up) } } s.owner
        (s.ioQueue x.val) 1 e)) ∧
  (∀ (s : State) (rising : Bool) (u v w : State) (t : Nat) (e : Int) (spaced : Bool) (run : Nat), s.captureEdge 4
    rising = (true, u) → rising = true → t = s.edgeTime 4 ∧ e = ppsError t → spaced = s.thyme.ppsLast.elim false
    (fun t0 => decide ((((t : Int) - t0) - 256 * 10 ^ 9).natAbs ≤ 256 * 1000)) → (run = if spaced then
    s.thyme.ppsRun + 1 else 1) → v = u.wr wThyme Reg.THYME_PPS_IN_ERR_PPS_IN_ERR (uNat 32 e) → w =
    s.thyme.ppsArm.elim { v with thyme := { v.thyme with ppsLast := some t, ppsRun := run, ppsArm := none } } (fun
    sec => State.addAdj { v with thyme := { v.thyme with ppsLast := some t, ppsRun := run, ppsArm := none } }
    (.setAtPps sec ((8 * s.clock.up : Nat) - s.inComp 4))) → 
    exec (.ppsInEdge rising) s = .next (if 3 ≤ run ∧ s.rdb wThyme Reg.THYME_STATUS_PPS_IN_OK = false then (w.wr
      wThyme Reg.THYME_STATUS_PPS_IN_OK 1).event Ev.PPS_IN_RESTORED 0 (uNat 32 e) 0 0 else w)) ∧
  (∀ (s : State) (t : Nat), s.thyme.ppsLast = some t → 
    exec .ppsInTimeout s = .next ((fun u : State => { u with
      thyme := { u.thyme with ppsRun := 0, ppsLast := none } }) ((s.wr wThyme Reg.THYME_STATUS_PPS_IN_OK 0).event
        Ev.PPS_IN_LOST 0 (timeSec t % 2 ^ 32) 0 0))) ∧
  (∀ (s u : State) (y : Byte), s.ioEnable 7 = true → u = { s with
    thyme := { s.thyme with todMsg := some (s.thyme.todMsg.elim (s.eighths * 32, 1) (fun m => (m.1, m.2 + 1))) } }
      → 
    exec (.todRxByte y) s = .next (if 256 ≤ s.thyme.todRx.length then u.count 151 11 1 else { u with
      thyme := { u.thyme with todRx := s.thyme.todRx ++ [y] } })) ∧
  (∀ (s : State) (t n : Nat), s.thyme.todMsg = some (t, n) → 
    exec .todRxIdle s = .next (State.capture { s with thyme := { s.thyme with todMsg := none } } s.owner (s.ioQueue
      7) 3 (captureBytes 3 0 (n % 65536) 0 0 0 t))) ∧
  (∀ (s u : State) (off : BitVec 32), u = s.wr wThyme Reg.THYME_STATUS_REF10M_OK 1 → 
    exec (.ref10mPresenceChange true off) s = .next (if s.ioEnable 6 then u.wr wThyme
      Reg.THYME_REF10M_OFFSET_REF10M_OFFSET off.toNat else u) ∧ exec (.ref10mPresenceChange false off) s = .next
      (forEach (rangeFrom 0 4) (fun j s => if s.candSrc j = 0xFE then s.disqualify j else s) (s.wr wThyme
      Reg.THYME_STATUS_REF10M_OK 0))) ∧
  (∀ (s u : State) (j : Fin 4) (ppb : BitVec 32), u.candSrc j.val ≠ 0xFF ∧ u.thyme.qualified.contains j.val = false
    ∧ u.candPresent j.val = true ∧ u.thyme.waits.contains j.val = false ∧ ppb.toInt.natAbs ≤ u.dpllWord 3 → 
    (u = s → exec (.candidateQualified j ppb) s = .next (((State.dpllRun { u with
      thyme := { u.thyme with qualified := j.val :: u.thyme.qualified } } true)).squelch)) ∧ (u = s.waitOver j.val
        → exec (.wtrExpiry j ppb) s = .next (((State.dpllRun { u with
        thyme := { u.thyme with qualified := j.val :: u.thyme.qualified } } true)).squelch))) ∧
  (∀ (s : State) (j : Fin 4) (ppb : BitVec 32), s.thyme.waits.contains j.val = true ∨ s.dpllWord 3 <
    ppb.toInt.natAbs → 
    exec (.candidateQualified j ppb) s = .next s) ∧
  (∀ (s : State) (j : Fin 4), s.thyme.qualified.contains j.val = true → 
    exec (.candidateDisqualified j) s = .next (((State.dpllRun { s with
      thyme := { s.thyme with
        qualified := s.thyme.qualified.erase j.val, waits := if s.dpllWord 4 % 2 ^ 16 = 0 then s.thyme.waits else
          j.val :: s.thyme.waits } } false)).squelch)) ∧
  (∀ (s : State) (d : BitVec 32), s.dpllState = 1 ∧ d.toInt.natAbs ≤ 1024 * s.dpllWord 3 → 
    exec (.dpllLockAchieved d) s = .next (State.setDpll { s.wr wThyme Reg.THYME_DPLL_OFFSET_D d.toNat with
      thyme := { (s.wr wThyme Reg.THYME_DPLL_OFFSET_D d.toNat).thyme with lockedAt := s.clock.up } } 2 s.dpllSel))

/-- Holdover: its reports, commands and ticks. A change of mode and a report that the machines allow take their
transitions and answer the state and the mode; valid limits and a valid table are written while the state allows;
the query writes the table. Outside SAFE the master timer loses the master; each second LOCKED samples the mean
adjustment and the temperature and learns its bin, and HOLDOVER steers by the table and counts; a reading in range
counts towards a good sensor, one out of range faults it. (Choices of the model that it rests on: log entries 12,
31, 122 to 124, 247.) (R389, R393, R394, R395, R396, R397, R398, R399, R400, R402.) -/
def Obligations.HoldoverReportsAndTicks : Prop :=
  (∀ (s b : State) (j : Job) (m : Nat), j.byte 0 4 = 0 → s.takes { op := 0x6E } j b → m = j.byte 0 5 ∧ j.only [(4,
    2)] = true → (b.holdMode = 0 ∧ m = 1 ∧ b.holdState = 2) ∨ (b.holdMode = 0 ∧ m = 2) ∨ (b.holdMode = 2 ∧ m = 0) ∨
    (b.holdMode = 1 ∧ m = 3) ∨ (b.holdMode = 3 ∧ m = 1 ∧ b.holdState = 2) ∨ (b.holdMode = 3 ∧ m = 0) → 
    exec (.holdCtlMode j) s = .next ((fun u : State => u.succeed j [BitVec.ofNat 8 u.holdState, BitVec.ofNat 8
      u.holdMode]) ((b.wr wThyme Reg.THYME_HOLD_STATUS_MODE m).event Ev.MODE_CHANGED 0 b.holdMode m 0))) ∧
  (∀ (s b : State) (j : Job), j.byte 0 4 = 1 ∧ j.byte 0 5 = 0 → s.takes { op := 0x6E, safe := true } j b → j.only
    [(4, 2)] = true → b.holdState = 0 ∨ b.holdState = 3 → 
    exec (.reportAcquire j) s = .next ((fun u : State => u.succeed j [BitVec.ofNat 8 u.holdState, BitVec.ofNat 8
      u.holdMode]) (b.setHold 1 0))) ∧
  (∀ (s b : State) (j : Job), j.byte 0 4 = 1 ∧ j.byte 0 5 = 1 → s.takes { op := 0x6E, safe := true } j b → j.only
    [(4, 2)] = true → b.holdState = 1 → 
    exec (.reportLocked j) s = .next ((fun u : State => u.succeed j [BitVec.ofNat 8 u.holdState, BitVec.ofNat 8
      u.holdMode]) ((b.setHold 2 0).setWindow []))) ∧
  (∀ (s b : State) (j : Job), j.byte 0 4 = 1 ∧ j.byte 0 5 = 2 → s.takes { op := 0x6E, safe := true } j b → j.only
    [(4, 2)] = true → b.holdState = 1 ∨ b.holdState = 2 → 
    exec (.reportLost j) s = .next ((fun u : State => u.succeed j [BitVec.ofNat 8 u.holdState, BitVec.ofNat 8
      u.holdMode]) (b.loseMaster 0))) ∧
  (∀ (s b : State) (j : Job), j.byte 0 4 = 1 ∧ j.byte 0 5 = 3 → s.takes { op := 0x6E, safe := true } j b → j.only
    [(4, 2)] = true → b.holdState = 1 ∨ b.holdState = 2 → 
    exec (.reportChange j) s = .next ((fun u : State => u.succeed j [BitVec.ofNat 8 u.holdState, BitVec.ofNat 8
      u.holdMode]) ((b.loseMaster 0).setHold 1 0))) ∧
  (∀ (s b : State) (j : Job), j.byte 0 4 = 1 ∧ j.byte 0 5 = 4 → s.takes { op := 0x6E, safe := true } j b → j.only
    [(4, 2)] = true → b.holdState = 1 ∨ b.holdState = 2 → 
    exec (.reportAlive j) s = .next (b.succeed j [BitVec.ofNat 8 b.holdState, BitVec.ofNat 8 b.holdMode])) ∧
  (∀ (s b : State) (j : Job), j.byte 0 4 = 1 ∧ j.byte 0 5 = 5 → s.takes { op := 0x6E } j b → j.only [(4, 2)] = true
    → b.holdState = 3 → 
    exec (.reportForget j) s = .next ((fun u : State => u.succeed j [BitVec.ofNat 8 u.holdState, BitVec.ofNat 8
      u.holdMode]) ((b.setHold 0 0).setWindow []))) ∧
  (∀ (s b : State) (j : Job), j.byte 0 4 = 2 → s.takes { op := 0x6E } j b → j.only [(4, 1), (8, 10)] = true ∧ j.le
    8 4 ≤ 10 ^ 9 ∧ j.le 12 4 ≤ 200000 ∧ j.le 16 2 ≠ 0 → 
    exec (.holdCtlLimits j) s = .next ((fun u : State => u.succeed j [BitVec.ofNat 8 u.holdState, BitVec.ofNat 8
      u.holdMode]) (((b.wr wThyme Reg.THYME_HOLD_STEP_LIMIT_STEP_LIMIT (j.le 8 4)).wr wThyme
      Reg.THYME_HOLD_SLEW_MAX_SLEW_MAX_PPB (j.le 12 4)).wr wThyme Reg.THYME_HOLD_TIMEOUT_MASTER_TIMEOUT_MS (j.le 16
      2)))) ∧
  (∀ (s b : State) (j : Job) (d : List Byte), j.byte 0 4 = 3 → s.takes { op := 0x6E } j b → j.only [(4, 1), (8, 8)]
    = true ∧ j.le 8 8 % 8 = 0 ∧ b.holdState ≠ 3 → d = b.hostRd (b.jobLink j) (j.le 8 8) 512 → ((rangeFrom 0 64).any
    fun k => decide (imH d (8 * k + 6) ≠ 0)) = false → 
    exec (.holdCtlTableLoad j) s = .next ((fun u : State => u.succeed j [BitVec.ofNat 8 u.holdState, BitVec.ofNat 8
      u.holdMode]) (forEach (rangeFrom 0 64) (fun k s => s.setBin k (sInt 32 (imW d (8 * k))) (imH d (8 * k + 4)))
      (b.countMoved 30 512)))) ∧
  (∀ (s b : State) (j : Job), s.takes { op := 0x6F } j b → j.only [(8, 8)] = true → 
    exec (.thymeHoldQuery j) s = .next ((b.jobWrite j (j.le 8 8) ((rangeFrom 0 64).flatMap (fun k => leBytes 4
      (uNat 32 (b.binValue k)) ++ leBytes 2 (b.binCount k) ++ [0, 0]))).succeed j (leBytes 4 512))) ∧
  (∀ (s : State), s.devState ≠ 5 → 
    exec .masterTimerExpiry s = .next (s.loseMaster 1)) ∧
  (∀ (s k u v : State) (q : Int × State) (t : Int × State), k = s.keepTemp ∧ k.holdState = 2 ∧ k.dutyRuns 11 = true
    → (q = if k.thyme.accN = 0 then (k.freqAdj, k) else k.quotient k.thyme.accSum (k.thyme.accN * unitNs)) → t =
    q.2.tempNow → u = t.2.setWindow (((q.1, t.1) :: k.thyme.window).take 1000) → (v = if k.holdMode ≠ 2 ∧
    k.syncTime = false ∧ k.rdb wThyme Reg.THYME_HOLD_STATUS_TSENSE_OK = true then u.learnBin q.1 t.1 else u) → 
    exec .holdSecond s = .next { v with thyme := { v.thyme with accSum := 0, accN := 0 } }) ∧
  (∀ (s k u : State), k = s.keepTemp ∧ k.holdState = 3 → (u = (if k.dutyRuns 11 then k.holdRate else k).wr wThyme
    Reg.THYME_HOLD_ELAPSED_HOLD_ELAPSED ((k.rd wThyme Reg.THYME_HOLD_ELAPSED_HOLD_ELAPSED + 1) % 2 ^ 32)) → 
    exec .holdSecond s = .next { u with thyme := { u.thyme with accSum := 0, accN := 0 } }) ∧
  (∀ (s k : State), k = s.keepTemp ∧ (k.holdState ≠ 2 ∨ k.dutyRuns 11 = false) ∧ k.holdState ≠ 3 → 
    exec .holdSecond s = .next { k with thyme := { k.thyme with accSum := 0, accN := 0 } }) ∧
  (∀ (s y u v : State) (x : BitVec 16) (t : Int), s.tsenseRead x.toNat = (t, y) ∧ (t < -640 ∨ 1760 < t) → u = y.wr
    wThyme Reg.THYME_HOLD_TEMP_TSENSE (uNat 16 t) → v = { u.wr wThyme Reg.THYME_HOLD_STATUS_TSENSE_OK 0 with
    thyme := { u.thyme with tsRun := 0, tsNow := [] } } → 
    exec (.tsenseSample x) s = .next ((v.event Ev.TSENSE_FAULT 0 (uNat 16 t) 1 0).faultLevel .thyme 1 0 true)) ∧
  (∀ (s y u v w : State) (x : BitVec 16) (t : Int) (run : Nat), s.tsenseRead x.toNat = (t, y) ∧ -640 ≤ t ∧ t ≤ 1760
    → u = y.wr wThyme Reg.THYME_HOLD_TEMP_TSENSE (uNat 16 t) → run = y.thyme.tsRun + 1 → v = { u with
    thyme := { u.thyme with tsRun := run, tsNow := ((y.clock.up, t) :: u.thyme.tsNow).take 10 } } → w = v.wr wThyme
      Reg.THYME_HOLD_STATUS_TSENSE_OK 1 → 
    exec (.tsenseSample x) s = .next (if run < 10 ∨ y.rdb wThyme Reg.THYME_HOLD_STATUS_TSENSE_OK = true then v else
      if y.rdb wThyme (Reg.FLT_LIVE_I 1) then (w.event Ev.TSENSE_FAULT 0 (uNat 16 t) 0 0).faultLevel .thyme 1 0
      false else w))

/-- The PEG commands on buffer pools. A pool of valid fields is created, empty; one that is not in use is destroyed;
a reserve that fits is set; buffers are handed out and taken back against their accounts; an audit takes the free
list offline and ends with its findings; a query writes the pool and its accounts; a waiting PUNT queue is served.
(Choices of the model that it rests on: log entries 12, 14, 210 to 213.) (R474, R476, R477, R480, R481, R482, R483,
R484, R485, R487, R488, R489.) -/
def Obligations.Pools : Prop :=
  (∀ (s b : State) (j : Job) (x shift base count : Nat) (u : State), s.takes { op := 0x70, owner := false } j b → x
    = j.byte 0 4 ∧ x < 64 ∧ b.jobFn j = b.poolHolder x ∧ decide (b.poolState x ≠ 0) = false ∧ j.only [(4, 1), (5,
    1), (6, 1), (8, 8), (16, 4)] = true → shift = j.byte 0 6 ∧ base = j.le 8 8 ∧ count = j.le 16 4 → j.byte 0 5 < 2
    ∧ 8 ≤ shift ∧ shift ≤ 16 ∧ count ≤ 2 ^ 20 ∧ base % 2 ^ shift = 0 ∧ base + count * 2 ^ shift ≤ 2 ^ 64 → (j.bit 5
    0 = true → b.poolClash x base (count * 2 ^ shift) = false) → u = (((b.setReg (poolBase x + 0x1000) (2 ^ 30 +
    b2n (j.bit 5 0) * 2 ^ 29 + shift * 2 ^ 16 + b.jobFn j)).wr (poolBase x) Reg.PEG_BASE base).wr (poolBase x)
    Reg.PEG_POOL_COUNT_COUNT count).wr (poolBase x) Reg.PEG_POOL_FRESH_FRESH 0 → 
    exec (.pegPoolCreate j) s = .next ((((u.setPool x {}).setReg (acctBase x 0 + 0x4000) (2 ^ 31)).poolReport
      x).succeed j [])) ∧
  (∀ (s b : State) (j : Job) (x : Nat), s.takes { op := 0x71, owner := false } j b → x = j.byte 0 4 ∧ x < 64 ∧
    b.jobFn j = b.poolHolder x ∧ decide (b.poolState x ≠ 0) = true ∧ j.only [(4, 1), (5, 1)] = true → j.byte 0 5 <
    2 ∧ b.puntNames x none = false ∧ b.poolState x ≠ 2 → j.bit 5 0 = true ∨ accounts.any (fun a => b.acctUsed x a
    && decide (b.acctHeld x a ≠ 0)) = false → 
    exec (.pegPoolDestroy j) s = .next ((b.poolDrop x).succeed j [])) ∧
  (∀ (s b : State) (j : Job) (x c v a : Nat) (u w : State), s.takes { op := 0x72, owner := false } j b → x = j.byte
    0 4 ∧ x < 64 ∧ b.jobFn j = b.poolHolder x ∧ decide (b.poolState x ≠ 0) = true ∧ j.only [(4, 1), (6, 2), (8, 4)]
    = true → c = j.le 6 2 ∧ v = j.le 8 4 ∧ c < 512 → b.acctSum x (b.acctRsv x) - (b.acctOf x c).elim 0 (b.acctRsv
    x) + v ≤ b.poolCount x → v ≠ 0 ∨ b.acctOf x c ≠ none → b.acctMake x c = some (a, u) → w = ((u.wr (acctBase x a)
    Reg.PEG_ACCT_RSV_RESERVE v).acctTidy x).poolReport x → 
    exec (.pegReserve j) s = .next (w.succeed j (leBytes 4 (w.poolShared x)))) ∧
  (∀ (s b : State) (j : Job) (x n : Nat) (got : List Nat) (u : State), s.takes { op := 0x73, owner := false } j b →
    x = j.byte 0 4 ∧ x < 64 ∧ b.jobFn j = b.poolHolder x ∧ decide (b.poolState x ≠ 0) = true ∧ j.only [(4, 1), (8,
    4), (16, 8)] = true → n = j.le 8 4 ∧ n ≤ 1024 ∧ j.hostAddr % 8 = 0 → (b.grantAll x).allocN x n [] = (0, got, u)
    → 
    exec (.pegAlloc j) s = .next ((u.jobWrite j j.hostAddr (got.reverse.flatMap (leBytes 8))).succeed j (leBytes 4
      n))) ∧
  (∀ (s b : State) (j : Job) (x n a : Nat) (l : List Nat), s.takes { op := 0x74, owner := false } j b → x = j.byte
    0 4 ∧ x < 64 ∧ b.jobFn j = b.poolHolder x ∧ decide (b.poolState x ≠ 0) = true ∧ j.only [(4, 1), (6, 2), (8, 4),
    (16, 8)] = true → n = j.le 8 4 ∧ n ≤ 1024 ∧ j.le 6 2 < 512 → l = hostAddrs b j n → (rangeFrom 0 n).find? (fun k
    => !b.bufferOk x (l.getD k 0)) = none → b.acctOf x (j.le 6 2) = some a ∧ n ≤ b.acctHeld x a → 
    exec (.pegFree j) s = .next ((((forEach l (fun y s => s.release x y) ((b.countMoved 30 (8 * n)).addHeld x a
      (-(n : Int)))).acctTidy x).poolReport x).succeed j [])) ∧
  (∀ (s b : State) (j : Job) (x : Nat) (u v : State), s.takes { op := 0x75, owner := false } j b → x = j.byte 0 4 ∧
    x < 64 ∧ b.jobFn j = b.poolHolder x ∧ decide (b.poolState x ≠ 0) = true ∧ j.only [(4, 1), (16, 8)] = true →
    b.peg.audit = none ∧ b.anyOffline = false → u = ((b.setPool x { b.pool x with
    head := listEnd, len := 0, offHead := (b.pool x).head, offLen := (b.pool x).len }).wr (poolBase x)
      Reg.PEG_POOL_A_STATE 2).wr (poolBase x) Reg.PEG_POOL_A_CORRUPT 0 → v = u.dramWr auditArea (bitMap
      (b.poolCount x) (fun k => decide (k < b.poolFresh x) && !(b.pool x).cache.contains (b.poolAddr x + k * 2 ^
      b.poolShift x))) → 
    exec (.pegAudit j) s = .next (({ v with
      peg := { v.peg with audit := some { pool := x, job := j, held := b.acctSum x (b.acctHeld x) } } } : State))) ∧
  (∀ (s b : State) (j : Job) (x : Nat), s.takes { op := 0x76, owner := false } j b → x = j.byte 0 4 ∧ x < 64 ∧
    b.jobFn j = b.poolHolder x ∧ decide (b.poolState x ≠ 0) = true ∧ j.only [(4, 1), (16, 8)] = true → 
    exec (.pegQuery j) s = .next ((b.jobWrite j j.hostAddr (b.regBytes (poolBase x + 0x1000) 7 ++ leBytes 4 0 ++
      accounts.flatMap (fun a => b.regBytes (acctBase x a + 0x4000) 3))).succeed j (leBytes 4 224))) ∧
  (∀ (s u v : State) (au : AuditSt) (x : Nat) (m : List Byte) (w : Walk) (free : Nat → Bool) (out : Nat) (bad :
    Bool), s.peg.audit = some au ∧ x = au.pool → m = s.dramRd auditArea ((s.poolCount x + 7) / 8) ∧ w = s.walkList
    x (mapMarked m) (s.poolCount x) (s.pool x).offHead {} → (∀ k, free k = (mapMarked m k || w.seen.contains
    (s.poolAddr x + k * 2 ^ s.poolShift x))) → out = ((rangeFrom 0 (s.poolCount x)).filter (fun k => !free
    k)).length ∧ bad = (decide (w.seen.length ≠ (s.pool x).offLen ∨ 0 < w.dups ∨ out ≠ au.held) || w.bad) → (u = if
    (s.pool x).offHead = listEnd then s else if (s.pool x).head = listEnd then s.setPool x { s.pool x with
    head := (s.pool x).offHead } else s.poolWrite x (s.listLast x (s.pool x).len (s.pool x).head) (leBytes 8
      (s.pool x).offHead)) → v = ((u.setPool x { u.pool x with
      len := (s.pool x).len + w.seen.length, offHead := listEnd, offLen := 0 }).topUp x).dramWr auditArea (bitMap
        (s.poolCount x) (fun k => !free k)) → 
    exec .pegAuditDone s = .next (State.complete ((fun y : State => { y with peg := { y.peg with audit := none } })
      (((fun y : State => if bad then (y.event Ev.POOL_MISMATCH 0 x (s.pool x).offLen (w.dups * 2 + b2n
      w.bad)).fault .peg 1 x else y) ((if au.job.hostAddr = 0 then v else v.jobWrite au.job au.job.hostAddr (bitMap
      (s.poolCount x) (fun k => !free k))).event Ev.POOL_AUDIT 0 x w.seen.length out)).wr (poolBase x)
      Reg.PEG_POOL_A_STATE 1 |>.poolReport x)) au.job St.SUCCESS (leBytes 4 w.seen.length ++ leBytes 2 (min w.dups
      65535) ++ [BitVec.ofNat 8 (b2n bad + 2 * b2n w.bad)]))) ∧
  (∀ (s u : State) (x : Fin 64) (q a : Nat), s.nextWaiter x.val = some q → s.serve x.val (s.queue q).idx = .buffer
    a u → 
    exec (.puntBufferGrant x) s = .next ((u.setPool x.val { u.pool x.val with
      waiting := (u.pool x.val).waiting.erase q }).setQueue q { u.queue q with drawn := some a }))

/-- DMA_COPY: its start, its end, a failed beat and a late error. The oldest descriptor of a running channel that
passes its checks starts its copy, and one that fails a check completes with its status; a copy ends with its bytes
written and SUCCESS; a failed beat ends it with the bytes before it written, the line it fell in open; a late error
is recorded; each failure halts the channel under its policy. (Choices of the model that it rests on: log entries
12, 15, 148, 186, 214.) (R494, R495, R498, R500, R503, R504, R506, R507, R508, R509, R510, R511.) -/
def Obligations.DmaTransfers : Prop :=
  (∀ (s b : State) (j : Job) (ch : Nat), s.chanOf j.q = some ch ∧ s.chanState ch = 1 ∧ (s.chan ch).running = none ∧
    (s.chanHeld ch).head? = some j ∧ j.opcode = 0x78 → b = (s.startJob j).chanReport ch → b.gate {
    op := 0x78, owner := false } j = none → b.dmaCheck j = none → 
    exec (.dmaCopy j) s = .next ((b.setChan ch { b.chan ch with
      running := some j, issued := 0, buffer := b.dmaRead (b.jobLink j) (dmaSide j 0) }).wr (chanBase ch)
        Reg.PURLIN_CHAN_C_COUNT (dmaSide j 0).total)) ∧
  (∀ (s b u : State) (j : Job) (ch code : Nat) (v : BitVec 32), s.chanOf j.q = some ch ∧ s.chanState ch = 1 ∧
    (s.chan ch).running = none ∧ (s.chanHeld ch).head? = some j ∧ j.opcode = 0x78 → b = (s.startJob j).chanReport
    ch → b.gate { op := 0x78, owner := false } j = none → b.dmaCheck j = some code → b.draw 32 = (v, u) → 
    exec (.dmaCopy j) s = .next (if code = St.PURLIN_OFFLINE then (u.dmaComplete j code 0 v.toNat []).dmaHalt ch
      code 0 j.tag ch else u.dmaComplete j code 0 v.toNat [])) ∧
  (∀ (s u : State) (ch : Fin 28) (j : Job) (d : Side), (s.chan ch.val).running = some j → d = dmaSide j 1 → u =
    (s.dmaWrite (s.jobLink j) d (s.chan ch.val).buffer d.lines).count 157 ch.val d.total → 
    exec (.dmaJobComplete ch) s = .next (((if (j.bit 1 2 && !d.dram) = true then u.count 157 48 1 else u).chanClear
      ch.val).dmaComplete j St.SUCCESS 0 0 [])) ∧
  (∀ (s b u v : State) (ch : Fin 28) (cause : Fin 7) (pos : Word32) (late whole : Bool) (j : Job) (d : Side) (line
    left : Nat) (tag : Nat), ((s.chan ch.val).running = some j ∧ (b.chan ch.val).running = some j ∧ tag = s.linkTag
    (s.jobLink j) ∧ b = (if cause.val + 1 = 3 then s.timeoutReport (s.jobFn j) tag else s)) → d = dmaSide j 1 →
    line = min pos.toNat (d.total - 1) / d.len → whole = (late || decide (cause.val + 1 = 7)) → (left = (if whole
    then 0 else d.total - min pos.toNat (d.total - 1))) → (u = ((b.dmaWrite (b.jobLink j) d (b.chan ch.val).buffer
    (if whole then d.lines else line)).dmaScramble (b.jobLink j) d line).count 157 ch.val (d.total - left)) → (v =
    (if cause.val + 1 = 7 then u.count 157 48 1 else u)) → 
    exec (.dmaBeatFailure ch cause pos late) s = .next (((v.chanClear ch.val).dmaComplete j (if whole then
      St.BEAT_ERROR else St.TRANSFER_ERROR) (cause.val + 1) left (if cause.val + 1 = 3 then leBytes 2 tag else
      [])).dmaHalt ch.val (if whole then St.BEAT_ERROR else St.TRANSFER_ERROR) (cause.val + 1) j.tag (if cause.val
      + 1 = 3 then tag else ch.val))) ∧
  (∀ (s : State) (ch : Fin 28) (tag : BitVec 16), 
    exec (.lateError ch tag) s = .next (((s.event Ev.LATE_ERROR 0 ch.val tag.toNat 5).fault .purlin 1
      ch.val).dmaHalt ch.val St.SUCCESS 5 tag.toNat ch.val))

/-- PURLIN_CHANNEL_SET, PURLIN_CHANNEL_CTL and PURLIN_QUERY. A channel that is bound to no queue is given a
function; STOP waits for the job in progress, RESUME and FLUSH act on a stopped or halted channel, POLICY sets its
policy, each for the channel's function or the owner; a query writes its registers. (Choices of the model that it
rests on: log entries 12, 15, 215.) (R494, R495, R496, R501, R511, R512, R513, R514.) -/
def Obligations.Channels : Prop :=
  (∀ (s b : State) (j : Job) (ch : Nat), s.takes { op := 0x79 } j b → ch = j.byte 0 4 ∧ ch ≤ 27 ∧ (j.le 6 2 < 256 ∨
    j.le 6 2 = 0xFFFF) ∧ j.only [(4, 1), (6, 2)] = true → b.chanState ch = 0 ∧ b.chanBound ch = false → 
    exec (.purlinChannelSet j) s = .next ((b.wr (chanBase ch) Reg.PURLIN_CHAN_B_CHAN_FUNC (j.le 6 2)).succeed j
      [])) ∧
  (∀ (s b : State) (j : Job) (ch : Nat), j.byte 0 5 = 0 → s.takes { op := 0x7A, owner := false } j b → ch = j.byte
    0 4 ∧ ch ≤ 27 ∧ j.byte 0 5 ≤ 3 ∧ j.byte 0 6 ≤ 1 ∧ (j.byte 0 5 = 3 ∨ j.byte 0 6 = 0) ∧ j.only [(4, 3)] = true →
    b.jobFn j = b.owner ∨ (b.chanState ch ≠ 0 ∧ (b.queue (b.chanQ ch)).fn = b.jobFn j) → b.chanState ch = 1 ∨
    b.chanState ch = 2 → 
    exec (.channelStop j) s = .next (((b.setChanState ch 2).setChan ch { b.chan ch with
      stops := (b.chan ch).stops ++ [j] }))) ∧
  (∀ (s b : State) (j : Job) (ch : Nat), j.byte 0 5 = 0 → s.takes { op := 0x7A, owner := false } j b → ch = j.byte
    0 4 ∧ ch ≤ 27 ∧ j.byte 0 5 ≤ 3 ∧ j.byte 0 6 ≤ 1 ∧ (j.byte 0 5 = 3 ∨ j.byte 0 6 = 0) ∧ j.only [(4, 3)] = true →
    b.jobFn j = b.owner ∨ (b.chanState ch ≠ 0 ∧ (b.queue (b.chanQ ch)).fn = b.jobFn j) → b.chanState ch = 3 ∨
    b.chanState ch = 4 → 
    exec (.channelStop j) s = .next (b.succeed j (leBytes 1 (b.chanState ch)))) ∧
  (∀ (s b : State) (j : Job) (ch : Nat), j.byte 0 5 = 1 → s.takes { op := 0x7A, owner := false } j b → ch = j.byte
    0 4 ∧ ch ≤ 27 ∧ j.byte 0 5 ≤ 3 ∧ j.byte 0 6 ≤ 1 ∧ (j.byte 0 5 = 3 ∨ j.byte 0 6 = 0) ∧ j.only [(4, 3)] = true →
    b.jobFn j = b.owner ∨ (b.chanState ch ≠ 0 ∧ (b.queue (b.chanQ ch)).fn = b.jobFn j) → b.chanState ch = 3 ∨
    b.chanState ch = 4 → 
    exec (.channelResume j) s = .next ((fun u : State => u.succeed j (leBytes 1 (u.chanState ch)))
      (((b.setChanState ch 1).setChan ch { b.chan ch with resuming := true }).chanReport ch))) ∧
  (∀ (s b : State) (j : Job) (ch : Nat), j.byte 0 5 = 2 → s.takes { op := 0x7A, owner := false } j b → ch = j.byte
    0 4 ∧ ch ≤ 27 ∧ j.byte 0 5 ≤ 3 ∧ j.byte 0 6 ≤ 1 ∧ (j.byte 0 5 = 3 ∨ j.byte 0 6 = 0) ∧ j.only [(4, 3)] = true →
    b.jobFn j = b.owner ∨ (b.chanState ch ≠ 0 ∧ (b.queue (b.chanQ ch)).fn = b.jobFn j) → b.chanState ch = 3 ∨
    b.chanState ch = 4 → 
    exec (.channelFlush j) s = .next ((fun u : State => u.succeed j (leBytes 1 (u.chanState ch))) ((forEach
      (b.chanHeld ch) (fun k s => s.dmaCancel (dmaSide k 0).total k) b).chanReport ch))) ∧
  (∀ (s b : State) (j : Job) (ch : Nat), j.byte 0 5 = 3 → s.takes { op := 0x7A, owner := false } j b → ch = j.byte
    0 4 ∧ ch ≤ 27 ∧ j.byte 0 5 ≤ 3 ∧ j.byte 0 6 ≤ 1 ∧ (j.byte 0 5 = 3 ∨ j.byte 0 6 = 0) ∧ j.only [(4, 3)] = true →
    b.jobFn j = b.owner ∨ (b.chanState ch ≠ 0 ∧ (b.queue (b.chanQ ch)).fn = b.jobFn j) → 
    exec (.channelPolicy j) s = .next ((fun u : State => u.succeed j (leBytes 1 (u.chanState ch))) (b.wr (chanBase
      ch) Reg.PURLIN_CHAN_A_ON_ERROR (j.byte 0 6)))) ∧
  (∀ (s : State) (ch : Fin 28), s.chanState ch.val = 2 ∧ (s.chan ch.val).running = none → 
    exec (.channelStopped ch) s = .next (forEach (s.chan ch.val).stops (fun j s => s.complete j St.SUCCESS [3])
      ((s.setChanState ch.val 3).setChan ch.val { s.chan ch.val with stops := [] }))) ∧
  (∀ (s b : State) (j : Job) (ch : Nat), s.takes { op := 0x7B, owner := false } j b → ch = j.byte 0 4 ∧ ch ≤ 27 ∧
    j.only [(4, 1), (16, 8)] = true → b.jobFn j = b.owner ∨ (b.chanState ch ≠ 0 ∧ (b.queue (b.chanQ ch)).fn =
    b.jobFn j) → 
    exec (.purlinQuery j) s = .next ((b.jobWrite j j.hostAddr (b.regBytes (chanBase ch + 0x1000) 4)).succeed j
      (leBytes 4 16)))

/-- DRAM requests, the order of commands, refresh, power-down and interface CRC. A request to an online stack joins
its pseudo-channel's queue with its port's target. At a command opportunity the pseudo-channel issues, in this
order: an urgent refresh, the earliest request at level 3, an owed refresh, an open-row request, the first request.
A refresh due under load is owed; an idle pseudo-channel powers down; a burst with a CRC error is retried within its
limits and then given up. (Choices of the model that it rests on: log entries 101 to 105.) (R516, R522, R523, R524,
R525, R526, R527, R528, R530, R531, R532, R533.) -/
def Obligations.DramRequests : Prop :=
  (∀ (s : State) (n : Fin 13) (a : BitVec 36) (len : Fin 129) (write : Bool) (x c : Nat) (r : DmcReq) (y : PCh), x
    = stackOf a.toNat ∧ c = pchOf a.toNat → s.stackOffline x = false → r = {
    port := n.val, addr := a.toNat, len := max 1 len.val, write := write, arrival := s.clock.up, target :=
      s.portTarget n.val, excused := decide (s.stackState x = 3) || s.pcTraining x c || s.repaying x c || decide (0
      < (s.pch x c).urgent) } → (y = if (s.pch x c).queue = [] ∧ (s.pch x c).waiting = [] ∧ (s.pch x c).flight = []
      then { s.pch x c with busyFrom := s.clock.up, demand := r.len } else { s.pch x c with
      demand := (s.pch x c).demand + r.len }) → 
    exec (.dmcRequestArrival n a len write) s = .next (((s.putPch x c (y.join r)).dmcCount x n.val r.len).dmcCount
      x (16 + n.val) 1)) ∧
  (∀ (s u : State) (x : Fin 4) (c : Fin 32) (y : PCh), s.stackState x.val = 2 ∧ s.pcTraining x.val c.val = false →
    u = s.finishWrites x.val c.val → y = u.pch x.val c.val → 0 < y.urgent → 
    exec (.dmcCommandIssue x c) s = .next (((u.setPch x.val c.val { y with urgent := y.urgent - 1 }).refresh x.val
      c.val).dmcCount x.val 59 1)) ∧
  (∀ (s u : State) (x : Fin 4) (c : Fin 32) (y : PCh) (r : DmcReq), s.stackState x.val = 2 ∧ s.pcTraining x.val
    c.val = false → u = s.finishWrites x.val c.val → y = u.pch x.val c.val → y.urgent = 0 → earliest
    (y.ready.filter (fun r => decide (r.level u.clock.up = 3))) = some r → 
    exec (.dmcCommandIssue x c) s = .next (u.issueReq x.val c.val r)) ∧
  (∀ (s u : State) (x : Fin 4) (c : Fin 32) (y : PCh), s.stackState x.val = 2 ∧ s.pcTraining x.val c.val = false →
    u = s.finishWrites x.val c.val → y = u.pch x.val c.val → y.urgent = 0 ∧ earliest (y.ready.filter (fun r =>
    decide (r.level u.clock.up = 3))) = none → 0 < u.debt x.val c.val ∧ (u.repaying x.val c.val = true ∨ y.holds 1
    u.clock.up = false) → 
    exec (.dmcCommandIssue x c) s = .next (u.repay x.val c.val)) ∧
  (∀ (s u : State) (x : Fin 4) (c : Fin 32) (y : PCh) (r : DmcReq), s.stackState x.val = 2 ∧ s.pcTraining x.val
    c.val = false → u = s.finishWrites x.val c.val → y = u.pch x.val c.val → y.urgent = 0 ∧ earliest
    (y.ready.filter (fun r => decide (r.level u.clock.up = 3))) = none ∧ u.debt x.val c.val = 0 → (y.ready.find?
    (fun r => decide (tabGet (fun _ => none) y.rows (bankOf r.addr) = some (rowOf r.addr)))).or y.ready.head? =
    some r → 
    exec (.dmcCommandIssue x c) s = .next (u.issueReq x.val c.val r)) ∧
  (∀ (s u v : State) (x : Fin 4) (c : Fin 32) (ecc : Fin 3) (r : DmcReq) (t : List DmcReq), u = s.finishWrites
    x.val c.val → (u.pch x.val c.val).flight = r :: t → v = u.putPch x.val c.val { u.pch x.val c.val with
    flight := t } → 
    exec (.dmcReadReturn x c ecc) s = .next ((if ecc.val = 1 then v.eccFixed x.val r.addr else if ecc.val = 2 then
      v.eccLost x.val r.addr r.port 0 else v).judge x.val r 0)) ∧
  (∀ (s : State) (x : Fin 4) (c : Fin 32) (r : DmcReq) (t : List DmcReq) (w : Nat) (r1 : DmcReq), (s.pch x.val
    c.val).flight = r :: t → w = s.dmcCfg Reg.DMC_CFG2_CRC_WINDOW_NS → (r1 = { r with
    tries := r.tries + 1, firstErr := if r.tries = 0 then s.clock.up else r.firstErr, excused := true }) → r1.tries
      ≤ s.dmcCfg Reg.DMC_CFG_CRC_RETRIES ∧ w ≠ 0 ∧ s.clock.up - r1.firstErr ≤ w → 
    exec (.crcError x c) s = .next ((s.setPch x.val c.val { s.pch x.val c.val with flight := r1 :: t }).dmcCount
      x.val 63 1)) ∧
  (∀ (s u v : State) (x : Fin 4) (c : Fin 32) (r : DmcReq) (t : List DmcReq) (w n tag : Nat) (r1 : DmcReq), (s.pch
    x.val c.val).flight = r :: t → w = s.dmcCfg Reg.DMC_CFG2_CRC_WINDOW_NS → (r1 = { r with
    tries := r.tries + 1, firstErr := if r.tries = 0 then s.clock.up else r.firstErr, excused := true }) →
      s.stackState x.val = 2 ∧ (s.dmcCfg Reg.DMC_CFG_CRC_RETRIES < r1.tries ∨ w = 0 ∨ w < s.clock.up - r1.firstErr)
      → n = (s.rd (wPch x.val c.val) Reg.DMC_PC_GIVE_UPS + 1) % 65536 → tag = corrTag 0x0F (pchKey x.val c.val) n →
      u = ((s.setPch x.val c.val { ({ s.pch x.val c.val with flight := t } : PCh).excuse with afterGiveUp := true
      }).wr (wPch x.val c.val) Reg.DMC_PC_GIVE_UPS n).dmcCount x.val 64 1 → v = (u.event Ev.CRC_RETRY_FAILED x.val
      (pchKey x.val c.val) (b2n r.write) tag).faultDmc x.val 2 tag → 
    exec (.crcError x c) s = .next ((((if r.write then v else v.eccLost x.val r.addr r.port tag).judge x.val r1
      tag).wr (wPch x.val c.val) Reg.DMC_PC_TRAINING 1).wr (wDmc x.val) Reg.DMC_STATUS_RETRAIN_PC c.val)) ∧
  (∀ (s : State) (x : Fin 4) (c : Fin 32), s.stackState x.val = 2 → 
    exec (.refreshDue x c) s = .next (if s.pcTraining x.val c.val = true ∨ s.repaying x.val c.val = true ∨ (s.pch
      x.val c.val).holds 1 s.clock.up = true then (if 8 ≤ s.debt x.val c.val then s.setPch x.val c.val { s.pch
      x.val c.val with urgent := (s.pch x.val c.val).urgent + 1 } else (s.setDebt x.val c.val (s.debt x.val c.val +
      1)).dmcCount x.val 58 1) else s.refresh x.val c.val)) ∧
  (∀ (s u : State) (x : Fin 4) (c : Fin 32), s.stackState x.val = 2 ∧ s.pcTraining x.val c.val = false → u =
    s.finishWrites x.val c.val → s.rdb (wPch x.val c.val) Reg.DMC_PC_POWER_DOWN = false ∧ (u.pch x.val c.val).queue
    = [] ∧ (u.pch x.val c.val).flight = [] → 
    exec (.pdTimerExpiry x c) s = .next ((u.setPch x.val c.val { u.pch x.val c.val with pdSince := s.clock.up }).wr
      (wPch x.val c.val) Reg.DMC_PC_POWER_DOWN 1))

/-- Temperature, patrol scrub, retraining and frequency of the stacks. A temperature sample is kept and may take the
stack to HOT or change its refresh rate; a scrubbed word corrects or reports its error; a round trains one
pseudo-channel after the other; a stack changes frequency with its queues waiting, and comes back at the new step.
(Choices of the model that it rests on: log entries 106 to 110.) (R527, R532, R534, R535, R536, R537, R538, R539,
R540, R541, R542, R543.) -/
def Obligations.DramStacks : Prop :=
  (∀ (s u v w : State) (x : Fin 4) (t : BitVec 16), (u = (fun y : State => if s.dmc.sampled.contains x.val = false
    ∨ sInt 16 (s.rd (wDmc x.val) Reg.DMC_TEMP_MAX_TEMP) < t.toInt then y.wr (wDmc x.val) Reg.DMC_TEMP_MAX_TEMP
    t.toNat else y) (s.wr (wDmc x.val) Reg.DMC_TEMP_TEMP t.toNat)) → (v = if s.dmc.sampled.contains x.val = false
    then { u with dmc := { u.dmc with sampled := x.val :: u.dmc.sampled } } else u) → (w = if 2000 < t.toInt ∧
    (s.stackState x.val = 2 ∨ s.stackState x.val = 3) then (((v.setStack x.val 4).wr (wDmc x.val)
    Reg.DMC_STATUS_RATE 3).goOffline x.val).levelDmc x.val 3 true else v) → 
    exec (.dmcTempSample x t) s = .next (if w.stackState x.val = 4 then (if 2160 < t.toInt ∧ w.rdb (wDmc x.val)
      Reg.DMC_STATUS_CONTENTS_LOST = false then (w.wr (wDmc x.val) Reg.DMC_STATUS_CONTENTS_LOST 1).levelDmc x.val 5
      true else w) else if s.stackState x.val = 2 then w.changeRate x.val (rateFor (s.rd (wDmc x.val)
      Reg.DMC_STATUS_RATE) t.toInt) else w)) ∧
  (∀ (s u : State) (x : Fin 4) (off : BitVec 34) (ecc : Fin 3), s.stackOffline x.val = false ∧ s.devState ≠ 5 ∧
    s.rdb wMint Reg.MINT_STATUS_DEFERRING = false → u = s.wr (wDmc x.val) Reg.DMC_STATUS_SCRUB_DEFERRED 0 → 
    exec (.patrolScrubPass x off ecc) s = .next (if ecc.val = 1 then u.eccFixed x.val (x.val * 2 ^ 34 + off.toNat)
      else if ecc.val = 2 then u.eccLost x.val (x.val * 2 ^ 34 + off.toNat) ownPort 0 else u)) ∧
  (∀ (s : State), 
    exec .retrainRoundDue s = .next (forEach (rangeFrom 0 4) (fun x s => if s.stackState x ≠ 2 ∨ s.dutyRuns 12 =
      false then s else if s.dmc.overdue.contains x then s.startRound x else s.dueRound x) s)) ∧
  (∀ (s u : State) (x : Fin 4) (c : Nat), s.stackState x.val = 2 ∧ s.dutyRuns 12 = true ∧ s.rdb (wDmc x.val)
    Reg.DMC_STATUS_RETRAIN_ACTIVE = true → c = tabGet (fun _ => 0) s.dmc.nextPc x.val ∧ c < 32 ∧ s.roundHeld x.val
    = false ∧ (rangeFrom 0 32).any (s.pcTraining x.val) = false → u = (s.leavePd x.val c).setPch x.val c
    ((s.leavePd x.val c).pch x.val c).excuse → 
    exec (.retrainStepStart x) s = .next ((u.wr (wPch x.val c) Reg.DMC_PC_TRAINING 1).wr (wDmc x.val)
      Reg.DMC_STATUS_RETRAIN_PC c)) ∧
  (∀ (s u v : State) (x : Fin 4) (c : Fin 32) (ok : Bool) (y : PCh), s.pcTraining x.val c.val = true ∧ y = s.pch
    x.val c.val → u = (s.setPch x.val c.val { y with afterGiveUp := false }).wr (wPch x.val c.val)
    Reg.DMC_PC_TRAINING 0 → v = { u with
    dmc := { u.dmc with nextPc := tabSet (fun _ => 0) u.dmc.nextPc x.val (c.val + 1) } } → 
    exec (.retrainStepDone x c ok) s = .next (if s.dmc.discard.contains x.val = true then (if y.afterGiveUp then {
      u with dmc := { u.dmc with discard := u.dmc.discard.erase x.val } } else u) else if y.afterGiveUp then (if ok
      then u else ((u.setStack x.val 5).goOffline x.val).levelDmc x.val 4 true) else if c.val = 31 then v.wr (wDmc
      x.val) Reg.DMC_STATUS_RETRAIN_ACTIVE 0 else v)) ∧
  (∀ (s u v : State) (x : Fin 4), s.dmc.changing.head? = some x.val ∧ s.stackState x.val = 2 ∧ s.halting = false →
    (rangeFrom 0 32).any (s.pcTraining x.val) = false ∧ (rangeFrom 0 4).any (fun z => decide (s.stackState z = 3))
    = false → u = forEach (rangeFrom 0 32) (fun c s => ((s.flightOver x.val c (fun _ => true)).refresh x.val
    c).putPch x.val c ((((s.flightOver x.val c (fun _ => true)).refresh x.val c).pch x.val c).excuse)) s → v =
    ((u.setStack x.val 3).wr (wDmc x.val) Reg.DMC_STATUS_RATE 3).freshRefresh x.val → 
    exec (.stackFreqChangeStart x) s = .next { v with
      dmc := { v.dmc with target := tabSet (fun _ => 0) v.dmc.target x.val (s.dmcCfg Reg.DMC_FREQ_EFFECTIVE_STEP) }
        }) ∧
  (∀ (s u v : State) (x : Fin 4) (step : Nat), s.stackState x.val = 3 ∧ step = tabGet (fun _ => 0) s.dmc.target
    x.val → u = ((s.setStack x.val 2).wr (wDmc x.val) Reg.DMC_STATUS_STEP step).wr (wDmc x.val) Reg.DMC_STATUS_RATE
    (rateFor 0 (s.stackTemp x.val)) → (v = { u with
    dmc := { u.dmc with
      changing := if step = s.dmcCfg Reg.DMC_FREQ_EFFECTIVE_STEP then u.dmc.changing.erase x.val else
        u.dmc.changing, discard := u.dmc.discard.erase x.val } }) → 
    exec (.stackFreqChangeDone x) s = .next ((if s.dmc.discard.contains x.val then v else v.dueRound
      x.val).freqNext)) ∧
  (∀ (s : State) (x : Fin 4), s.stackState x.val = 4 ∧ s.stackTemp x.val ≤ 1920 → 
    exec (.stackHotExit x) s = .next ((((s.levelDmc x.val 3 false).goOnline x.val).dueRound x.val).freqNext))

/-- The DMC admin commands. DMC_SETUP, DMC_PORT_SET and DMC_MAP_SET write valid settings; DMC_FREQ_SET changes the
effective step, now or when Mint lets it; DMC_RETRAIN starts a round on the masked online stacks. (Choices of the
model that it rests on: log entry 12.) (R522, R527, R533, R534, R537, R538, R544, R545, R546.) -/
def Obligations.DmcCommands : Prop :=
  (∀ (s b : State) (j : Job) (w : Nat), s.takes { op := 0x80 } j b → w = j.le 12 2 ∧ j.only [(8, 3), (12, 4)] =
    true ∧ j.byte 0 10 < 8 ∧ 4 * w ≤ b.leastTarget 13 0 → 
    exec (.dmcSetup j) s = .next ((((((b.wr (wDmc 0) Reg.DMC_CFG_PD_TIMER (j.le 8 2)).wr (wDmc 0)
      Reg.DMC_CFG_CRC_RETRIES (j.byte 0 10)).wr (wDmc 0) Reg.DMC_CFG2_CRC_WINDOW_NS w).wr (wDmc 0)
      Reg.DMC_CFG2_RETRAIN_MIN (j.byte 0 14)).wr (wDmc 0) Reg.DMC_CFG2_SCRUB_HOURS (j.byte 0 15)).succeed j [])) ∧
  (∀ (s b : State) (j : Job) (x t : Nat), s.takes { op := 0x81 } j b → x = j.byte 0 4 ∧ t = j.le 8 2 ∧ j.only [(4,
    1), (8, 2)] = true ∧ x ≤ 12 ∧ 4 * b.dmcCfg Reg.DMC_CFG2_CRC_WINDOW_NS ≤ b.leastTarget x t → 
    exec (.dmcPortSet j) s = .next ((b.wr (wDmc 0 + 4 * x) Reg.DMC_PORT_TARGET_TARGET_NS t).succeed j [])) ∧
  (∀ (s b : State) (j : Job) (g : Nat) (l : List Nat), s.takes { op := 0x82, safe := true } j b → g = j.byte 0 5 ∧
    j.only [(4, 2)] = true ∧ j.byte 0 4 < 16 ∧ g < 16 → l = (rangeFrom 0 4).filter (fun x => (j.byte 0 4).testBit
    x) → l.any (fun x => b.deepHolds x || b.inUse ((x + 1) * 2 ^ 34 - g * 2 ^ 30) (g * 2 ^ 30)) = false → 
    exec (.dmcMapSet j) s = .next ((forEach l (fun x s => s.wr (wDmc x) Reg.DMC_MAP_SPILL_GIB g) b).succeed j [])) ∧
  (∀ (s b : State) (j : Job) (r : Bool × State) (eff : Nat) (u : State), s.takes { op := 0x83, safe := true } j b →
    j.only [(4, 1)] = true ∧ j.byte 0 4 ≤ 2 → r = (b.wr (wDmc 0) Reg.DMC_FREQ_HOST_STEP (j.byte 0 4)).changeStep 0
    → eff = r.2.dmcCfg Reg.DMC_FREQ_EFFECTIVE_STEP → (u = { r.2 with
    dmc := { r.2.dmc with freqJobs := r.2.dmc.freqJobs ++ (if r.1 then [] else [j]) } }) → 
    (eff = b.dmcCfg Reg.DMC_FREQ_EFFECTIVE_STEP → exec (.dmcFreqSet j) s = .next (r.2.succeed j [BitVec.ofNat 8
      eff])) ∧ (eff ≠ b.dmcCfg Reg.DMC_FREQ_EFFECTIVE_STEP → r.1 = false → exec (.dmcFreqSet j) s = .next
      (u.freqNext)) ∧ (eff ≠ b.dmcCfg Reg.DMC_FREQ_EFFECTIVE_STEP → r.1 = true → exec (.dmcFreqSet j) s = .next
      (u.freqNext.complete j St.DEFERRED [BitVec.ofNat 8 eff]))) ∧
  (∀ (s b : State) (j : Job) (l : List Nat), s.takes { op := 0x84 } j b → j.only [(4, 1)] = true ∧ j.byte 0 4 < 16
    → l = (rangeFrom 0 4).filter (fun x => (j.byte 0 4).testBit x) → l.any (fun x => decide (b.stackState x ≠ 2)) =
    false → 
    exec (.dmcRetrain j) s = .next ((forEach l (fun x s => s.startRound x) b).succeed j []))

/-- Reset inputs and the steps of boot. POR_N low blanks the device; its release samples the straps and, unless
WARM_RST_N is low, takes the device to FUSED; WARM_RST_N low resets it warm, and its release takes it to FUSED. In
FUSED a good copy of the firmware is booted, a bad one is recorded and counted and the other copy is tried; in
BOOTED the memories, the lanes and the stacks report, and TRAINED follows when all have; in TRAINED the cleared EM
table leads to READY. (Choices of the model that it rests on: log entries 7, 8, 9, 11, 168 to 172.) (R625, R626,
R627, R628, R629, R630, R631, R632, R633, R634, R635, R636.) -/
def Obligations.ResetAndBoot : Prop :=
  (∀ (s : State), 
    exec .porNAssert s = .next { s.blank with dev := { s.blank.dev with cold := true } }) ∧
  (∀ (s u : State) (bifur owner osc : Fin 4) (smb : Fin 8) (good : Bool), s.dev.cold = true → u = State.strapped {
    s with dev := { s.dev with cold := false } } {
    bifur := bifur.val, owner := owner.val, osc := osc.val, smb := smb.val } → 
    exec (.porNRelease bifur owner osc smb good) s = .next (if u.dev.warmPin then u.oscLevel good else u.enterFused
      0 good)) ∧
  (∀ (s : State), s.dev.warmPin = false ∧ s.devState ≠ 0 → 
    exec .warmRstNAssert s = .next ((fun u : State => { u with
      dev := { u.dev with warmPin := true, prior := s.devState } }) ((s.warmReset 1).oscLevel s.counting))) ∧
  (∀ (s : State), s.dev.warmPin = false ∧ s.devState = 0 → 
    exec .warmRstNAssert s = .next { s with dev := { s.dev with warmPin := true } }) ∧
  (∀ (s u : State), s.dev.warmPin = true → u = { s with dev := { s.dev with warmPin := false, prior := 0 } } → 
    exec .warmRstNRelease s = .next (if s.dev.cold then u else (u.wr wThyme (Reg.FLT_LIVE_I 0) 0).enterFused
      s.dev.prior s.counting)) ∧
  (∀ (s u : State) (g : List Byte) (retries : Fin 4) (ph k : Nat), s.devState = 1 ∧ ph = s.rd wBoot
    Reg.BOOT_STATUS_PHASE ∧ (ph = 1 ∨ ph = 3) → (k = (if noData g then 3 else retries.val)) → u = forEach
    (rangeFrom 0 k) (fun _ s => (s.inc wBoot Reg.BOOT_RETRIES_RETRIES 1).fault .boot 0 0) s → 
    exec (.flashCopyChecked g retries) s = .next ((s.fwFail g).elim (u.enterBooted g (decide (ph = 3))) (fun f =>
      (((u.event Ev.FW_REJECTED 0 (imB g 12 % 4) f.2 (imW g 8)).fault .boot 1 0).wr wBoot (if ph = 1 then
      Reg.BOOT_STATUS_PRIMARY_FAIL else Reg.BOOT_STATUS_FALLBACK_FAIL) (1 + f.1)).wr wBoot Reg.BOOT_STATUS_PHASE
      (if ph = 1 then 3 else 6)))) ∧
  (∀ (s : State), s.devState = 2 ∧ s.dev.memInit = false → 
    exec .memInitDone s = .next (State.maybeTrained ((fun u : State => { u with
      dev := { u.dev with memInit := true } }) s.fillHeads))) ∧
  (∀ (s u : State) (failed : BitVec 128) (bad : List Nat), s.devState = 2 ∧ s.dev.serdes = false → bad = (rangeFrom
    0 128).filter (fun n => failed.toNat.testBit n) → u = { s with
    dev := { s.dev with serdes := true, laneBad := bad } } → 
    exec (.serdesCalibDone failed) s = .next (forEach bad (fun n s => forEach (lanePorts n) (fun k s => s.levelPort
      k 2 n true) s) u).maybeTrained) ∧
  (∀ (s : State) (good : BitVec 4), (s.devState = 2 ∨ s.devState = 5) ∧ s.dev.dramTrained = false → 
    exec (.bootTrainingDone good) s = .next ((fun u : State => { u with dev := { u.dev with dramTrained := true }
      }) (s.stacksTrained good.toNat)).maybeTrained) ∧
  (∀ (s : State), s.devState = 3 → 
    exec .emClearDone s = .next (((s.wr wGlobal Reg.GLOBAL_DEV_STATE_STACK_OK ((rangeFrom 0 4).foldl (fun a x => if
      s.stackState x = 2 then a + 2 ^ x else a) 0)).wr wGlobal Reg.GLOBAL_DEV_STATE_BOOT_MS (min 65535
      s.sinceReset)).changeState 3 4))

/-- The heat budget's evaluation, the core clock, the AVSBus and THERMTRIP. From BOOTED on, an evaluation takes the
readings, derives the state, applies its actions in order and completes the commands that waited for it; the clock
is lowered or raised as the last evaluation wants, and raised only 10 us after the voltage's setpoint was
acknowledged; an acknowledged setpoint is the device's, a lost one is written again; THERMTRIP is driven. (Choices
of the model that it rests on: log entries 34, 125 to 128, 130, 132, 170, 216.) (R550, R551, R552, R553, R554, R555,
R622, R655, R656, R566, R630.) -/
def Obligations.HeatSteps : Prop :=
  (∀ (s u v : State) (r : MintReading), 2 ≤ s.devState → u = ((s.mintSense r).mintRuns).mintNext → v =
    (((u.clockAction.avsNow.parkAction).setDefer (actDefer (u.actWord u.mintState
    0))).stepAction).heatReload.mintCounts → 
    exec (.mintEvaluate r) s = .next (forEach v.mint.holds (fun j t => t.complete j St.SUCCESS [BitVec.ofNat 8
      t.mintState]) (v.setMint { v.mint with holds := [] }))) ∧
  (∀ (s v u : State) (want : Bool), want = s.mint.wantLow → s.rdb wMint Reg.MINT_STATUS_CLOCK_LOW = !want → want =
    true ∨ (s.dev.avs = s.avsWanted s.tjNow ∧ s.dev.avsPending = none ∧ s.since s.dev.avsAckAt (10 ^ 4) = true) → v
    = (s.wr wMint Reg.MINT_STATUS_CLOCK_LOW (b2n want)).setMint { s.mint with
    switchedAt := s.clock.up, ccBase := s.ccNow } → u = { v with dev := { v.dev with avsClock := want } } → 
    exec .clockSwitch s = .next ((u.event Ev.CLOCK_CHANGED 0 (if want then 1200 else 1600) u.mintState 0).count 152
      4 1)) ∧
  (∀ (s u : State) (v : Nat), s.dev.avsPending = some v → u = { s with
    dev := { s.dev with avs := v, avsPending := none, avsAckAt := some s.clock.up } } → 
    exec .avsSetpointAck s = .next (if (u.dev.avsClock && decide (u.avsWanted u.tjNow ≠ v)) = true then u.avsNow
      else if (u.rdb wMint Reg.MINT_STATUS_CLOCK_LOW && u.since (some u.mint.switchedAt) (10 ^ 6)) = true then { u
      with dev := { u.dev with avsClock := false } } else u)) ∧
  (∀ (s : State), s.dev.avsPending.isSome = true → 
    exec .avsAckTimeout s = .next { s with dev := { s.dev with avsPending := none, avsRetry := true } }) ∧
  (∀ (s : State), s.dev.thermtrip = false → 
    exec .thermtripAssert s = .next (State.emit { s with dev := { s.dev with thermtrip := true } } (.pin 11 1))) ∧
  (∀ (s : State), s.dev.thermtrip = true → 
    exec .thermtripLatchClear s = .next (State.emit { s with dev := { s.dev with thermtrip := false } } (.pin 11
      0)))

/-- The MINT admin commands. Valid limits, action sets and floors are written; a hold of a least state completes
with the next evaluation; a query writes the registers. (Choices of the model that it rests on: log entries 12, 129,
131.) (R552, R553, R556, R559, R568, R569.) -/
def Obligations.MintCommands : Prop :=
  (∀ (s b : State) (j : Job), s.takes { op := 0x88 } j b → j.only [(8, 3), (12, 3), (16, 5)] = true ∧ j.le 8 2 ≤
    4800 ∧ j.byte 0 10 ≠ 0 ∧ j.byte 0 10 ≤ 16 ∧ j.byte 0 14 ≤ 15 → j.byte 0 16 < j.byte 0 17 ∧ j.byte 0 17 < j.byte
    0 18 ∧ j.byte 0 18 ≤ 150 ∧ j.byte 0 19 < j.byte 0 20 ∧ j.byte 0 20 ≤ 125 → 
    exec (.mintSetup j) s = .next ((((((((((b.wr wMint Reg.MINT_POWER_CAP (j.le 8 2)).wr wMint Reg.MINT_CFG_P_AVG
      (j.byte 0 10)).wr wMint Reg.MINT_CFG_HOLD_MS (j.le 12 2)).wr wMint Reg.MINT_CFG_HYST (j.byte 0 14)).wr wMint
      Reg.MINT_TLIM_T_WARM (j.byte 0 16)).wr wMint Reg.MINT_TLIM_T_HOT (j.byte 0 17)).wr wMint Reg.MINT_TLIM_T_CRIT
      (j.byte 0 18)).wr wMint Reg.MINT_SLIM_STACK_S1 (j.byte 0 19)).wr wMint Reg.MINT_SLIM_STACK_S2 (j.byte 0
      20)).succeed j [])) ∧
  (∀ (s b : State) (j : Job) (d : List Byte), s.takes { op := 0x89 } j b → j.only [(4, 1), (8, 8)] = true ∧ j.byte
    0 4 ≤ 3 → d = b.hostRd (b.jobLink j) (j.le 8 8) 32 → b.actBad d = false → 
    exec (.mintActSet j) s = .next ((forEach (rangeFrom 0 8) (fun w s => s.setReg (wMint + 0x100 + 0x20 * j.byte 0
      4 + 4 * w) (imW d (4 * w))) (b.countMoved 30 32)).succeed j [])) ∧
  (∀ (s b : State) (j : Job), s.takes { op := 0x8A } j b → j.only [(8, 12)] = true → (rangeFrom 1 3).any (fun h =>
    (rangeFrom 0 4).any (fun st => (actLimit (b.actWord st 0)).testBit (h - 1) && decide (b.actWord st h < j.le (4
    + 4 * h) 4))) = false → 
    exec (.mintFloorSet j) s = .next ((forEach (rangeFrom 1 3) (fun h s => s.setReg (wMint + 0x200 + 4 * (h - 1))
      (j.le (4 + 4 * h) 4)) b).succeed j [])) ∧
  (∀ (s b : State) (j : Job) (u : State), s.takes { op := 0x8B } j b → j.only [(4, 1)] = true ∧ j.byte 0 4 ≤ 3 → u
    = b.wr wMint Reg.MINT_STATUS_MIN_STATE (j.byte 0 4) → 
    exec (.mintHold j) s = .next ((u.setMint { u.mint with holds := u.mint.holds ++ [j] }))) ∧
  (∀ (s b : State) (j : Job), s.takes { op := 0x8C } j b → j.only [(16, 8)] = true → 
    exec (.mintQuery j) s = .next ((b.jobWrite j j.hostAddr (b.regBytes (wMint + 0x1000) 64 ++ b.regBytes (wMint +
      0x1100) 8 ++ b.regBytes wMint 64)).succeed j (leBytes 4 544)))

/-- The Gauge commands, the bandwidth sub-windows and the dumps. Valid Gauge commands arm or stop a counter, clear a
page, set a window or the dumps, and move the sample records; the end of a sub-window, a due dump and the end of a
dump have the effects of the chapter. (Choices of the model that it rests on: log entries 12, 134 to 139, 217.)
(R575, R579, R581, R582, R584, R585, R586, R588, R589, R598.) -/
def Obligations.GaugeRows : Prop :=
  (∀ (s b : State) (j : Job) (k sel : Nat), s.takes { op := 0x90 } j b → k = j.le 4 2 ∧ sel = j.le 8 4 ∧ k < 576 ∧
    j.byte 0 6 < 16 ∧ j.only [(4, 3), (8, 14)] = true → ((j.byte 0 6).testBit 0 = true ∧ ((j.byte 0 6).testBit 2 =
    true → k < 512) ∧ pcSourceOk k (b2n ((j.byte 0 6).testBit 3)) sel (j.le 12 4) = true) → 
    exec (.gaugePcSet j) s = .next ((b.pcArm k (j.byte 0 6) sel (j.le 12 4) (j.le 16 6)).succeed j [])) ∧
  (∀ (s b : State) (j : Job), s.takes { op := 0x90 } j b → j.le 4 2 < 576 ∧ j.byte 0 6 < 16 ∧ j.only [(4, 3), (8,
    14)] = true ∧ (j.byte 0 6).testBit 0 = false → 
    exec (.gaugePcSet j) s = .next ((b.wr (pcBase (j.le 4 2)) Reg.GAUGE_PC_A_ENABLE 0).succeed j [])) ∧
  (∀ (s b : State) (j : Job), s.takes { op := 0x91 } j b → j.le 4 2 < 512 ∧ j.only [(4, 2)] = true → 
    exec (.gaugeClear j) s = .next ((b.clearPage (j.le 4 2)).succeed j [])) ∧
  (∀ (s b : State) (j : Job) (n w : Nat), s.takes { op := 0x92 } j b → n = j.le 4 2 ∧ w = j.le 8 4 ∧ n < 128 ∧ w ≤
    1000000 ∧ j.only [(4, 2), (8, 4)] = true → 
    exec (.gaugeBwSet j) s = .next ((if w = 0 ∨ b.bwWindow n = 0 then (b.wr (wGauge + 4 * n)
      Reg.GAUGE_BW_BW_WINDOW_US w).bwStart n w else b.wr (wGauge + 4 * n) Reg.GAUGE_BW_BW_WINDOW_US w).succeed j
      [])) ∧
  (∀ (s b : State) (j : Job), s.takes { op := 0x93 } j b → j.le 4 2 ≤ 10000 ∧ 1 ≤ j.byte 0 6 ∧ j.byte 0 6 ≤ 64 ∧
    j.le 8 8 % 64 = 0 ∧ j.only [(4, 3), (8, 16)] = true → 
    exec (.gaugeDumpSet j) s = .next ((fun u : State => { u with
      gauge := { u.gauge with
        dumpMask := leNat (b.hostRd (b.jobLink j) j.hostAddr 64), dumpBase := j.le 8 8, dumpNext := 1, skipped := 0
          } }.succeed j []) (((b.countMoved 30 64).wr wGauge Reg.GAUGE_DUMP_PERIOD_MS (j.le 4 2)).wr wGauge
          Reg.GAUGE_DUMP_BUFFERS (j.byte 0 6)))) ∧
  (∀ (s b : State) (j : Job) (p n : Nat) (l : List (List Byte)) (u : State), s.takes { op := 0x94 } j b → p =
    j.byte 0 4 ∧ p < 8 ∧ j.le 8 4 ≤ 4096 ∧ j.only [(4, 1), (8, 4), (16, 8)] = true → l = tabGet (fun _ => [])
    b.gauge.samples p → n = min (j.le 8 4) l.length → u = { b with
    gauge := { b.gauge with samples := tabSet (fun _ => []) b.gauge.samples p (l.drop n) } } → 
    exec (.gaugeSampleRead j) s = .next (((u.wr (wGauge + 4 * p) Reg.GAUGE_SAMPLE_SAMPLES_LOST 0).wr (wGauge + 4 *
      p) Reg.GAUGE_SAMPLE_HELD (l.length - n)).jobWrite j j.hostAddr (l.take n).flatten |>.succeed j (leBytes 4 n
      ++ leBytes 3 (b.rd (wGauge + 4 * p) Reg.GAUGE_SAMPLE_SAMPLES_LOST)))) ∧
  (∀ (s : State) (n : Fin 128) (w : Nat), w = s.bwWindow n.val ∧ w ≠ 0 → 
    exec (.bwSubwindowEnd n) s = .next (if tabGet (fun _ => 1000) s.gauge.bwUsed n.val ≠ w then s.bwStart n.val w
      else (s.bwSlot n.val 0 w).bwSlot n.val 1 w)) ∧
  (∀ (s : State) (x : Dump), s.rd wGauge Reg.GAUGE_DUMP_PERIOD_MS ≠ 0 ∧ s.dutyRuns 13 = true → s.gauge.dumping =
    some x → 
    exec .gaugeDumpDue s = .next { s with gauge := { s.gauge with skipped := min (s.gauge.skipped + 1) 65535 } }) ∧
  (∀ (s u : State) (x : Dump), s.rd wGauge Reg.GAUGE_DUMP_PERIOD_MS ≠ 0 ∧ s.dutyRuns 13 = true → s.gauge.dumping =
    none → x = {
    seq := s.gauge.dumpNext, skipped := s.gauge.skipped, addr := s.gauge.dumpBase + ((s.gauge.dumpNext - 1) % s.rd
      wGauge Reg.GAUGE_DUMP_BUFFERS) * (128 + 4096 * (maskPages s.gauge.dumpMask).length), mask := s.gauge.dumpMask
      } → u = { s with gauge := { s.gauge with dumping := some x, dumpNext := s.gauge.dumpNext + 1, skipped := 0 }
      } → 
    exec .gaugeDumpDue s = .next ((u.hostWr (u.fnLink u.owner) (x.addr + 4) (leBytes 4 0xFFFFFFFF)).count 157 29
      4)) ∧
  (∀ (s u : State) (x : Dump), s.gauge.dumping = some x → u = { s with gauge := { s.gauge with dumping := none } }
    → 
    exec (.gaugeDumpDone false) s = .next (u.fault .gauge 0 x.seq)) ∧
  (∀ (s u v : State) (x : Dump) (l : Nat) (pages : List Nat), s.gauge.dumping = some x → u = { s with
    gauge := { s.gauge with dumping := none } } → l = u.fnLink u.owner ∧ pages = maskPages x.mask → v = (((u.hostWr
      l (x.addr + 128) (pages.flatMap u.pageBytes)).hostWr l x.addr (leBytes 4 0x47554147)).hostWr l (x.addr + 8)
      (leBytes 8 (gaugeTime s) ++ leBytes 8 (gaugeTime s) ++ leBytes 2 pages.length ++ leBytes 2 x.skipped ++
      List.replicate 36 0 ++ leBytes 64 x.mask)) → 
    exec (.gaugeDumpDone true) s = .next ((((v.hostWr l (x.addr + 4) (leBytes 4 x.seq)).wr wGauge
      Reg.GAUGE_DUMP_SEQ_LAST_SEQ x.seq).count 157 29 (128 + 4096 * pages.length)).strobe 36))

/-- The recorders' events and commands. An event is handled by its recorder's arbiter; a second restarts the rate
counts; a folded record is reposted once 100 ms have passed since the last repost; valid Scribe commands copy slots,
empty a log, and set a rate, a mirror queue or a watermark; a conditional clear whose sequence is old is refused
SCRIBE_STALE. (Choices of the model that it rests on: log entries 12, 140 to 142, 218.) (R593, R594, R595, R596,
R597, R598.) -/
def Obligations.ScribeRows : Prop :=
  (∀ (s : State) (code : BitVec 16) (source : BitVec 15) (fw : Bool) (p0 p1 p2 : Word32), recorderOf code.toNat
    source.toNat p0.toNat ≤ 8 → 
    exec (.scribeEventArrival code source fw p0 p1 p2) s = .next (s.eventW wh2 {
      code := code.toNat, source := source.toNat, firmware := fw, p0 := p0.toNat, p1 := p1.toNat, p2 := p2.toNat
        })) ∧
  (∀ (s : State), 
    exec .scribeRateSecond s = .next (forEach (rangeFrom 1 8) (fun r s => s.setRecorder r { s.recorder r with
      rate := [] }) s)) ∧
  (∀ (s : State) (r : Fin 9) (e : Rec), (s.recorder r.val).folded = some e ∧ s.since (s.recorder r.val).repostAt
    (10 ^ 8) = true → 
    exec (.scribeMirrorRepost r) s = .next ((s.setRecorder r.val { s.recorder r.val with
      folded := none, repostAt := some s.clock.up }).mirrorPostW wh2 r.val e true)) ∧
  (∀ (s b : State) (j : Job) (r first n : Nat), s.takes { op := 0x98 } j b → r = j.byte 0 4 ∧ first = j.le 8 4 ∧ n
    = j.le 12 4 ∧ r < 9 ∧ first + n ≤ recorderSize r ∧ j.only [(4, 1), (8, 8), (16, 8)] = true → 
    exec (.scribeRead j) s = .next ((b.jobWrite j j.hostAddr ((rangeFrom first n).flatMap (fun k => ((b.recorder
      r).log.reverse[k]?).elim (List.replicate 32 0) (fun e => e.bytes false)))).succeed j (leBytes 4 n))) ∧
  (∀ (s b : State) (j : Job), s.takes { op := 0x99 } j b → j.byte 0 4 < 9 ∧ j.byte 0 5 < 2 ∧ j.only [(4, 2), (8,
    4)] = true → j.bit 5 0 = false ∨ (b.recorder (j.byte 0 4)).log = [] ∨ ((b.recorder (j.byte 0 4)).log.head?.map
    Rec.seq) = some (j.le 8 4) → 
    exec (.scribeClear j) s = .next ((b.clearLog (j.byte 0 4)).succeed j [])) ∧
  (∀ (s b : State) (j : Job) (e : Rec) (l : List Rec), s.takes { op := 0x99 } j b → j.byte 0 4 < 9 ∧ j.byte 0 5 < 2
    ∧ j.only [(4, 2), (8, 4)] = true → j.bit 5 0 = true ∧ (b.recorder (j.byte 0 4)).log = e :: l ∧ e.seq ≠ j.le 8 4
    → 
    exec (.scribeClear j) s = .next (b.complete j St.SCRIBE_STALE [])) ∧
  (∀ (s b : State) (j : Job), s.takes { op := 0x9A } j b → j.byte 0 4 ≤ 40 ∧ j.only [(4, 1), (8, 2)] = true → 
    exec (.scribeRateSet j) s = .next ((b.wr (wScribe + 4 * j.byte 0 4) Reg.SCRIBE_RATE_LIMIT (j.le 8 2)).succeed j
      [])) ∧
  (∀ (s b : State) (j : Job) (r : Nat), s.takes { op := 0x9B } j b → r = j.byte 0 4 ∧ r < 9 ∧ j.only [(4, 1), (6,
    2)] = true ∧ j.le 6 2 = 0xFFFF → 
    exec (.scribeMirrorSet j) s = .next (((b.wr (recBase r) Reg.SCRIBE_REC_D_MIRROR_Q 0xFFFF).wr (recBase r)
      Reg.SCRIBE_REC_A_MIRROR_EN 0).succeed j [])) ∧
  (∀ (s b : State) (j : Job) (r i q : Nat), s.takes { op := 0x9B } j b → r = j.byte 0 4 ∧ i = j.le 6 2 ∧ r < 9 ∧
    j.only [(4, 1), (6, 2)] = true → i < 512 ∧ b.findQ b.owner i = some q ∧ (b.queue q).typ = .event → 
    exec (.scribeMirrorSet j) s = .next (((b.wr (recBase r) Reg.SCRIBE_REC_D_MIRROR_Q i).wr (recBase r)
      Reg.SCRIBE_REC_A_MIRROR_EN 1).succeed j [])) ∧
  (∀ (s b : State) (j : Job), s.takes { op := 0x9C } j b → j.byte 0 4 < 9 ∧ j.le 8 4 ≤ recorderSize (j.byte 0 4) ∧
    j.only [(4, 1), (8, 4)] = true → 
    exec (.scribeSetup j) s = .next (((b.wr (recBase (j.byte 0 4)) Reg.SCRIBE_REC_D_WATERMARK (j.le 8
      4)).scribeRiseW wh2 (j.byte 0 4)).succeed j []))

/-- Faults, the safe state, security and the debug port. A source's occurrence updates LIVE and sets STATUS; a
miscompare of the two copies raises the safe-state line; SAFE is entered with its event; FAULT_FN_MASK writes MASK
bits 3 to 0 of the issuer's own window; SAFE_ENTER raises the line. A challenge makes and gives a nonce, which
expires after 60 s; a response in LOCKED with a live nonce reopens the device or is refused; SEC_LOCK, key
revocation and the version floor write the fuses under their conditions; SEC_QUERY reports; the debug port halts,
steps and reads engines while debug is open. (Choices of the model that it rests on: log entries 12, 158 to 168,
219.) (R32, R602, R608, R609, R610, R618, R615, R616, R617.) -/
def Obligations.FaultsAndSecurity : Prop :=
  (∀ (s u : State) (w : FWin) (mask live ended : Word32) (info : List (Fin 32 × Word32)), s.winExists w = true ∧
    s.devState ≠ 0 ∧ mask.toNat &&& s.winSources w ≠ 0 → u = s.wr (s.winBase w) Reg.FLT_LIVE_LIVE (((s.rd
    (s.winBase w) Reg.FLT_LIVE_LIVE ||| (live.toNat &&& mask.toNat)) &&& (2 ^ 32 - 1 - (ended.toNat &&& (2 ^ 32 -
    1)))) &&& s.winSources w) → 
    exec (.faultOccurrence w mask live ended info) s = .next ((u.bankLost w mask.toNat (detailOf info 3)).faultsW
      wh2 w mask.toNat (detailOf info) false)) ∧
  (∀ (s : State) (w : FWin), s.winExists w = true ∧ s.devState ≠ 0 → 
    exec (.faultCopyMiscompare w) s = .next ((fun a f : BitVec 32 × State => (((f.2.wr (s.winBase w)
      Reg.FLT_STATUS_STATUS (a.1.toNat &&& s.winSources w)).setReg (s.winBase w + 0xF014) (f.1.toNat &&&
      0xF800001F)).miscompare w).updateWin w) (s.draw 32) ((s.draw 32).2.draw 32))) ∧
  (∀ (s u : State), s.dev.safeLine = true ∧ s.devState ≠ 5 ∧ s.devState ≠ 0 → u = forEach (rangeFrom 0 8) (fun p t
    => (t.searchesSafe p).tenonSafe p) ((s.changeState s.devState 5).event Ev.SAFE_ENTERED 0 s.dev.safeKind
    s.dev.safeBlock s.dev.safeSrc) → 
    exec .safeReached s = .next (((((u.updatesSafe).svcSafe).holdSafe).freqSafe).wr wRidge
      Reg.RIDGE_STATUS_AUDIT_ACTIVE 0)) ∧
  (∀ (s b : State) (j : Job) (m x : Nat), s.takes { op := 0xA0, owner := false } j b → m = b.rd (b.fnBase (b.jobFn
    j)) Reg.FLT_MASK_MASK ∧ x = m / 16 * 16 + j.le 8 4 % 16 → b.jobFn j = b.owner → 
    exec (.faultFnMask j) s = .next (((b.wr (b.fnBase (b.jobFn j)) Reg.FLT_MASK_MASK x).updateWin .hif).succeed j
      [])) ∧
  (∀ (s b : State) (j : Job) (f : Fin 256) (x : Nat), s.takes { op := 0xA0, owner := false } j b → b.jobFn j =
    f.val ∧ f.val ≠ b.owner → x = b.rd (b.fnBase f.val) Reg.FLT_MASK_MASK / 16 * 16 + j.le 8 4 % 16 → 
    exec (.faultFnMask j) s = .next (((b.wr (b.fnBase f.val) Reg.FLT_MASK_MASK x).updateWin (.fn f)).succeed j []))
      ∧
  (∀ (s b : State) (j : Job), s.takes { op := 0xA1 } j b → 
    exec (.safeEnter j) s = .next ((b.raiseSafe 2 0 0 0).succeed j [])) ∧
  (∀ (s b : State) (j : Job) (n : List Byte) (u : State), s.takes { op := 0xA2 } j b → b.rdb wSec
    Reg.SEC_STATUS_LOCKOUT = false → n = leBytes 32 (b.draw 256).1.toNat → u = (b.draw 256).2.setNonce (some n) → 
    exec (.secChallenge j) s = .next ((u.jobWrite j j.hostAddr n).succeed j [])) ∧
  (∀ (s b : State) (j : Job), s.takes { op := 0xA2 } j b → b.rdb wSec Reg.SEC_STATUS_LOCKOUT = true → 
    exec (.secChallenge j) s = .next (b.complete j St.SEC_LOCKOUT [])) ∧
  (∀ (s b : State) (j : Job) (u : State) (d n key sig : List Byte) (scope : Nat), s.takes { op := 0xA3 } j b → d =
    b.hostRd (b.jobLink j) j.hostAddr 193 ∧ key = d.take 97 ∧ sig = d.drop 97 ∧ scope = j.le 8 4 → u = b.countMoved
    30 193 ∧ u.lifecycle = 1 ∧ u.nonceDue.dev.sec.nonce = some n → Config.sha384 key = u.dev.fuses.ownerHash → 
    exec (.secResponse j) s = .next (if Config.ecdsaVerify key (Config.sha384 (n ++ u.dev.fuses.uid ++ leBytes 4
      scope)) sig then (fun u : State => u.succeed j (leBytes 1 u.lifecycle)) ((((u.setNonce none).wr wSec
      Reg.SEC_STATUS_LIFECYCLE 2).wr wSec Reg.SEC_STATUS_SCOPE scope).event Ev.DEBUG_REOPENED 0 scope 0 0) else
      (u.refuse 0 1).complete j St.SIG_INVALID [])) ∧
  (∀ (s : State), s.devState ≠ 0 ∧ s.rdb wSec Reg.SEC_STATUS_LOCKOUT = false → 
    exec (.jtagSecResponse .challenge) s = .next (((s.draw 256).2.setNonce (some (leBytes 32 (s.draw
      256).1.toNat))).emit (.jtag (leBytes 32 (s.draw 256).1.toNat)))) ∧
  (∀ (s : State) (scope : Word32) (key sig n : List Byte), s.devState ≠ 0 ∧ s.lifecycle = 1 ∧
    s.nonceDue.dev.sec.nonce = some n → Config.sha384 key = s.dev.fuses.ownerHash → 
    exec (.jtagSecResponse (.response scope key sig)) s = .next (if Config.ecdsaVerify key (Config.sha384 (n ++
      s.dev.fuses.uid ++ leBytes 4 scope.toNat)) sig then (((s.setNonce none).wr wSec Reg.SEC_STATUS_LIFECYCLE
      2).wr wSec Reg.SEC_STATUS_SCOPE scope.toNat).event Ev.DEBUG_REOPENED 0 scope.toNat 1 0 else s.refuse 1 1)) ∧
  (∀ (s : State), s.dev.sec.nonce.isSome = true ∧ s.since (some s.dev.sec.nonceAt) (60 * 10 ^ 9) = true → 
    exec .nonceExpiry s = .next (({ s with dev := { s.dev with sec := { nonce := none, nonceAt := s.clock.up } } }
      : State).wr wSec Reg.SEC_STATUS_NONCE_LIVE 0)) ∧
  (∀ (s b : State) (j : Job) (u : State), s.takes { op := 0xA4 } j b → b.lifecycle = 0 ∧ j.le 8 4 = 0x4C4F434B → u
    = { b with dev := { b.dev with fuses := { b.dev.fuses with locked := true } } } → 
    exec (.secLock j) s = .next (((u.wr wSec Reg.SEC_STATUS_LIFECYCLE 1).closeDebug.event Ev.LIFECYCLE_LOCKED 0 0 0
      0).succeed j [])) ∧
  (∀ (s b : State) (j : Job) (k : Nat), j.byte 0 4 = 0 → s.takes { op := 0xA5 } j b → k = j.byte 0 5 ∧ k < 4 →
    (b.keySlot k).revoked = true ∨ (rangeFrom 0 4).any (fun i => decide (i ≠ k) && !(b.keySlot i).revoked) = true → 
    exec (.secFuseRevoke j) s = .next ((fun u : State => u.succeed j []) { b with
      dev := { b.dev with
        fuses := { b.dev.fuses with
          slots := tabSet (fun _ => {}) b.dev.fuses.slots k { b.keySlot k with revoked := true } } } })) ∧
  (∀ (s b : State) (j : Job) (v : Nat), j.byte 0 4 = 1 → s.takes { op := 0xA5 } j b → v = j.le 8 4 ∧
    b.dev.fuses.floor ≤ v → 
    exec (.secFuseFloor j) s = .next ((fun u : State => u.succeed j []) { b with
      dev := { b.dev with fuses := { b.dev.fuses with floor := v } } })) ∧
  (∀ (s b : State) (j : Job), s.takes { op := 0xA6 } j b → 
    exec (.secQuery j) s = .next ((b.jobWrite j j.hostAddr (padTo 64 (b.regBytes wSec 1 ++ b.regBytes (wSec + 0x10)
      4 ++ (rangeFrom 0 4).map (fun k => (b.keySlot k).state) ++ leBytes 4 b.dev.fuses.floor))).succeed j (leBytes
      4 64))) ∧
  (∀ (s : State) (e : Fin 528), s.debugOpen = true ∧ s.dev.halted.contains e.val = false → 
    exec (.jtagDebugAccess (.halt e)) s = .next { s with dev := { s.dev with halted := e.val :: s.dev.halted } }) ∧
  (∀ (s : State) (e : Fin 528), s.debugOpen = true → 
    exec (.jtagDebugAccess (.resume e)) s = .next { s with
      dev := { s.dev with halted := s.dev.halted.erase e.val, stepping := s.dev.stepping.erase e.val } }) ∧
  (∀ (s : State) (e : Fin 528), s.debugOpen = true ∧ s.dev.halted.contains e.val = true ∧ s.dev.stepping.contains
    e.val = false → 
    exec (.jtagDebugAccess (.step e)) s = .next { s with dev := { s.dev with stepping := e.val :: s.dev.stepping }
      }) ∧
  (∀ (s : State) (e : Fin 528) (r : Fin 16), s.debugOpen = true → 
    exec (.jtagDebugAccess (.readReg e r)) s = .next (s.emit (.jtag (leBytes 8 ((s.engine (e.val / 64) (e.val %
      64)).reg r.val).toNat)))) ∧
  (∀ (s : State) (e : Fin 528) (other : Bool) (w : BitVec 14), s.debugOpen = true → 
    exec (.jtagDebugAccess (.readStore e other w)) s = .next (s.emit (.jtag (s.storeWordOf e.val other w.toNat))))
end

