-- ==== Sys2Proof/Laws/Tables.lean ====
section
/-!
SUPPORT. Finite maps: what a read gives after a write or an erasure, and that each keeps the canonical form.
-/
namespace Sys2Proof.Machine

variable {α : Type}

/-! ### Reads after writes -/

@[simp] theorem tabGet_nil (d : Nat → α) (k : Nat) : tabGet d [] k = d k := rfl

theorem tabGet_erase (d : Nat → α) (t : Tab α) (k i : Nat) :
    tabGet d (tabErase t k) i = if i = k then d i else tabGet d t i := by
  induction t with
  | nil => simp [tabErase]
  | cons e t ih =>
    obtain ⟨a, v⟩ := e
    simp only [tabErase, tabGet]
    by_cases h : a = k
    · simp only [h, if_true, ih]
      by_cases hi : i = k
      · simp [hi]
      · simp [hi, Ne.symm hi]
    · simp only [h, if_false, tabGet]
      by_cases ha : a = i
      · subst ha; simp [h]
      · simp only [ha, if_false, ih]

theorem tabGet_insert (d : Nat → α) (t : Tab α) (k : Nat) (v : α) (i : Nat) (h : ∀ e ∈ t, e.1 ≠ k) :
    tabGet d (tabInsert t k v) i = if i = k then v else tabGet d t i := by
  induction t with
  | nil =>
    simp only [tabInsert, tabGet]
    by_cases hi : i = k
    · simp [hi]
    · simp [hi, Ne.symm hi]
  | cons e t ih =>
    obtain ⟨a, w⟩ := e
    have ha : a ≠ k := h (a, w) (by simp)
    simp only [tabInsert]
    by_cases hl : k < a
    · simp only [hl, if_true, tabGet]; by_cases hi : i = k
      · simp [hi]
      · simp [hi, Ne.symm hi]
    · simp only [hl, if_false, tabGet, ih (fun e he => h e (by simp [he]))]
      by_cases hi : a = i
      · subst hi; simp [ha]
      · simp [hi]

theorem tabErase_no_key (t : Tab α) (k : Nat) : ∀ e ∈ tabErase t k, e.1 ≠ k := by
  induction t with
  | nil => simp [tabErase]
  | cons e t ih =>
    obtain ⟨a, w⟩ := e
    simp only [tabErase]
    by_cases h : a = k
    · simpa [h] using ih
    · simp only [h, if_false, List.mem_cons, forall_eq_or_imp]
      exact ⟨h, ih⟩

/-- A read after a write: the value written at that key, and what was there before at every other key. -/
theorem tabGet_set [DecidableEq α] (d : Nat → α) (t : Tab α) (k : Nat) (v : α) (i : Nat) :
    tabGet d (tabSet d t k v) i = if i = k then v else tabGet d t i := by
  unfold tabSet
  split
  · rename_i h; rw [tabGet_erase]; by_cases hi : i = k <;> simp [hi, h]
  · rw [tabGet_insert _ _ _ _ _ (tabErase_no_key t k), tabGet_erase]; by_cases hi : i = k <;> simp [hi]

@[simp] theorem tabGet_set_self [DecidableEq α] (d : Nat → α) (t : Tab α) (k : Nat) (v : α) :
    tabGet d (tabSet d t k v) k = v := by simp [tabGet_set]

theorem tabGet_set_ne [DecidableEq α] (d : Nat → α) (t : Tab α) (k i : Nat) (v : α) (h : i ≠ k) :
    tabGet d (tabSet d t k v) i = tabGet d t i := by simp [tabGet_set, h]

/-! ### The canonical form -/

/-- Strictly rising keys, as a relation between entries. -/
theorem tabSorted_iff (t : Tab α) : tabSorted t = true ↔ t.Pairwise (fun a b => a.1 < b.1) := by
  induction t with
  | nil => simp [tabSorted]
  | cons e t ih =>
    obtain ⟨a, v⟩ := e
    cases t with
    | nil => simp [tabSorted]
    | cons e' t' =>
      obtain ⟨b, w⟩ := e'
      simp only [tabSorted, Bool.and_eq_true, decide_eq_true_eq, ih, List.pairwise_cons, List.mem_cons, forall_eq_or_imp]
      constructor
      · rintro ⟨hab, hb, ht⟩
        exact ⟨⟨hab, fun e he => Nat.lt_trans hab (hb e he)⟩, hb, ht⟩
      · rintro ⟨⟨hab, _⟩, hb, ht⟩
        exact ⟨hab, hb, ht⟩

theorem tabErase_sublist (t : Tab α) (k : Nat) : (tabErase t k).Sublist t := by
  induction t with
  | nil => simp [tabErase]
  | cons e t ih =>
    obtain ⟨a, v⟩ := e
    simp only [tabErase]
    by_cases h : a = k
    · simp only [h, if_true]; exact ih.cons _
    · simp only [h, if_false]; exact ih.cons_cons _

theorem tabInsert_mem (t : Tab α) (k : Nat) (v : α) (e : Nat × α) (h : e ∈ tabInsert t k v) : e = (k, v) ∨ e ∈ t := by
  induction t with
  | nil => simpa [tabInsert] using h
  | cons e' t ih =>
    obtain ⟨a, w⟩ := e'
    simp only [tabInsert] at h
    split at h
    · simpa using h
    · rcases List.mem_cons.1 h with h | h
      · exact .inr (by simp [h])
      · rcases ih h with h | h
        · exact .inl h
        · exact .inr (by simp [h])

theorem tabInsert_sorted (t : Tab α) (k : Nat) (v : α) (hs : t.Pairwise (fun a b => a.1 < b.1)) (h : ∀ e ∈ t, e.1 ≠ k) :
    (tabInsert t k v).Pairwise (fun a b => a.1 < b.1) := by
  induction t with
  | nil => simp [tabInsert]
  | cons e t ih =>
    obtain ⟨a, w⟩ := e
    rw [List.pairwise_cons] at hs
    have ha : a ≠ k := h (a, w) (by simp)
    simp only [tabInsert]
    split
    · rename_i hk
      rw [List.pairwise_cons]
      refine ⟨fun e he => ?_, List.pairwise_cons.2 hs⟩
      rcases List.mem_cons.1 he with he | he
      · rw [he]; exact hk
      · exact Nat.lt_trans hk (hs.1 e he)
    · rename_i hk
      rw [List.pairwise_cons]
      refine ⟨fun e he => ?_, ih hs.2 (fun e he => h e (by simp [he]))⟩
      rcases tabInsert_mem t k v e he with he | he
      · rw [he]; show a < k; omega
      · exact hs.1 e he

theorem tabWf_iff [DecidableEq α] (d : Nat → α) (t : Tab α) :
    tabWf d t = true ↔ t.Pairwise (fun a b => a.1 < b.1) ∧ ∀ e ∈ t, e.2 ≠ d e.1 := by
  simp [tabWf, tabSorted_iff]

/-- A write keeps the canonical form. -/
theorem tabWf_set [DecidableEq α] (d : Nat → α) (t : Tab α) (k : Nat) (v : α) (h : tabWf d t = true) :
    tabWf d (tabSet d t k v) = true := by
  rw [tabWf_iff] at h ⊢
  have hs := h.1.sublist (tabErase_sublist t k)
  have hd : ∀ e ∈ tabErase t k, e.2 ≠ d e.1 := fun e he => h.2 e ((tabErase_sublist t k).subset he)
  unfold tabSet
  split
  · exact ⟨hs, hd⟩
  · rename_i hv
    refine ⟨tabInsert_sorted _ _ _ hs (tabErase_no_key t k), fun e he => ?_⟩
    rcases tabInsert_mem _ _ _ _ he with he | he
    · rw [he]; exact hv
    · exact hd e he

/-- An erasure keeps the canonical form. -/
theorem tabWf_erase [DecidableEq α] (d : Nat → α) (t : Tab α) (k : Nat) (h : tabWf d t = true) :
    tabWf d (tabErase t k) = true := by
  rw [tabWf_iff] at h ⊢
  exact ⟨h.1.sublist (tabErase_sublist t k), fun e he => h.2 e ((tabErase_sublist t k).subset he)⟩

/-- Erasing entries keeps the canonical form. -/
theorem tabWf_filter [DecidableEq α] (d : Nat → α) (t : Tab α) (q : Nat × α → Bool) (h : tabWf d t = true) :
    tabWf d (t.filter q) = true := by
  rw [tabWf_iff] at h ⊢
  exact ⟨h.1.sublist List.filter_sublist, fun e he => h.2 e ((List.mem_filter.1 he).1)⟩

/-! ### Memories -/

/-- Writing bytes keeps the canonical form. -/
theorem memory_wf_write (m : List Host.Cell) (a : Nat) (bs : List Byte) (h : Memory.wf m = true) :
    Memory.wf (memWrite m a bs) = true := by
  induction bs generalizing m a with
  | nil => exact h
  | cons b t ih => exact ih _ _ (tabWf_set _ _ _ _ h)

/-- A byte read after bytes were written: the byte written there, and what was there before outside them. -/
theorem memWrite_get (m : List Host.Cell) (a : Nat) (bs : List Byte) (i : Nat) :
    tabGet memDefault (memWrite m a bs) i =
      if a ≤ i ∧ i < a + bs.length then bs.getD (i - a) 0 else tabGet memDefault m i := by
  induction bs generalizing m a with
  | nil => simp only [memWrite, List.length_nil, Nat.add_zero]; rw [if_neg (by omega)]
  | cons b t ih =>
    simp only [memWrite, ih, List.length_cons, tabGet_set]
    by_cases h1 : i = a
    · subst h1
      rw [if_neg (by omega), if_pos rfl, if_pos (by omega)]; simp
    · by_cases h2 : a + 1 ≤ i ∧ i < a + 1 + t.length
      · rw [if_pos h2, if_pos (by omega)]
        obtain ⟨k, hk⟩ : ∃ k, i - a = k + 1 := ⟨i - a - 1, by omega⟩
        rw [hk, List.getD_cons_succ]; congr 1; omega
      · rw [if_neg h2, if_neg h1, if_neg (by omega)]

@[simp] theorem memRead_length (m : List Host.Cell) (a n : Nat) : (memRead m a n).length = n := by
  induction n generalizing a with
  | zero => rfl
  | succ n ih => simp [memRead, ih]

/-- The bytes read where bytes were just written are those bytes. -/
theorem memRead_write (m : List Host.Cell) (a : Nat) (bs : List Byte) : memRead (memWrite m a bs) a bs.length = bs := by
  have key : ∀ n k, k + n = bs.length → memRead (memWrite m a bs) (a + k) n = bs.drop k := by
    intro n
    induction n with
    | zero => intro k hk; simp [memRead]; omega
    | succ n ih =>
      intro k hk
      rw [memRead, memWrite_get, if_pos (by omega), Nat.add_assoc, ih (k + 1) (by omega)]
      have : a + k - a = k := by omega
      rw [this, List.drop_eq_getElem_cons (i := k) (by omega)]
      simp only [List.getD_eq_getElem?_getD, List.getElem?_eq_getElem (show k < bs.length by omega), Option.getD_some]
  simpa using key bs.length 0 (by omega)

end Sys2Proof.Machine
end

