-- ==== Sys2Proof/Laws/Keeps.lean ====
section
/-!
SUPPORT. What every operation of the machine keeps: the queue of waiting commands, the canonical form of its memories and
registers, and every blown fuse.
-/
namespace Sys2Proof.Machine

/-- State t has the queue `p`, its memories and registers in canonical form, and fuses that can follow `z`. -/
structure Keeps (p : List Instr) (z : Fuses) (t : State) : Prop where
  pending : t.pending = p
  regs : tabWf regDefault t.regs = true
  hostMem : Memory.wf t.hostMem = true
  dram : Memory.wf t.dram = true
  fuses : z.follow t.dev.fuses

theorem Fuses.follow_refl (z : Fuses) : z.follow z := ⟨id, rfl, rfl, Nat.le_refl _, fun _ => rfl, fun _ => id, rfl,
    rfl⟩

theorem Fuses.follow_trans {a b c : Fuses} (h : a.follow b) (k : b.follow c) : a.follow c :=
  ⟨fun x => k.1 (h.1 x), k.2.1.trans h.2.1, k.2.2.1.trans h.2.2.1, Nat.le_trans h.2.2.2.1 k.2.2.2.1,
    fun i => (k.2.2.2.2.1 i).trans (h.2.2.2.2.1 i), fun i x => k.2.2.2.2.2.1 i (h.2.2.2.2.2.1 i x),
    k.2.2.2.2.2.2.1.trans h.2.2.2.2.2.2.1, k.2.2.2.2.2.2.2.trans h.2.2.2.2.2.2.2⟩

variable {p : List Instr} {z : Fuses}

/-- A record update that leaves the queue, the memories, the registers and the fuses. -/
theorem keeps_mk {t : State} {a0 : List Instr} {a1 : Tab Word32} {a2 : HostIf} {a3 : Scribe} {a4 : Gauge} {a5 :
    Clock} {a6 : DevSt} {a7 : Mint} {a8 : Peg} {a9 : Tab ChanSt} {a10 : Dmc} {a11 : Thyme} {a12 : Ridge} {a13 : Tab
    PortSt} {a14 : Esch} {a15 : Tab Meter} {a16 : Joist} {a17 : Tab Pipe} {a18 : Tenon} {a19 : Em} {a20 : Upd} {a21
    : List Host.Cell} {a22 : List Host.Cell} {a23 : List Output} {a24 a25 : Nat}
    (h : Keeps p z t) (e1 : a0 = t.pending) (e2 : a1 = t.regs) (e3 : a6.fuses = t.dev.fuses) (e4 : a21 = t.hostMem)
    (e5 : a22 = t.dram) : Keeps p z ⟨a0, a1, a2, a3, a4, a5, a6, a7, a8, a9, a10, a11, a12, a13, a14, a15, a16,
    a17, a18, a19, a20, a21, a22, a23, a24, a25⟩ := by
  subst e1 e2 e4 e5
  exact ⟨h.1, h.2, h.3, h.4, by show z.follow a6.fuses; rw [e3]; exact h.5⟩

/-! ### The operations that write -/

theorem State.setReg_keeps {s : State} (h : Keeps p z s) (a v : Nat) : Keeps p z (s.setReg a v) :=
  ⟨h.1, tabWf_set _ _ _ _ h.2, h.3, h.4, h.5⟩

theorem State.hostWr_keeps {s : State} (h : Keeps p z s) (j a : Nat) (bs : List Byte) : Keeps p z (s.hostWr j a bs) :=
  ⟨h.1, h.2, memory_wf_write _ _ _ h.3, h.4, h.5⟩

theorem State.dramWr_keeps {s : State} (h : Keeps p z s) (a : Nat) (bs : List Byte) : Keeps p z (s.dramWr a bs) :=
  ⟨h.1, h.2, h.3, memory_wf_write _ _ _ h.4, h.5⟩

/-! ### Control -/

theorem ite_keeps {c : Prop} [Decidable c] {a b : State} (ha : Keeps p z a) (hb : Keeps p z b) :
    Keeps p z (if c then a else b) := by split <;> assumption

theorem ite_fst_keeps {α : Type} {c : Prop} [Decidable c] {a b : State × α} (ha : Keeps p z a.1) (hb : Keeps p z b.1) :
    Keeps p z (if c then a else b).1 := by split <;> assumption

theorem ite_snd_keeps {α : Type} {c : Prop} [Decidable c] {a b : α × State} (ha : Keeps p z a.2) (hb : Keeps p z b.2) :
    Keeps p z (if c then a else b).2 := by split <;> assumption

theorem foldl_keeps {α : Type} {l : List α} {f : State → α → State} {s : State} (hf : ∀ s a, Keeps p z s → Keeps p
    z (f s a))
    (h : Keeps p z s) : Keeps p z (l.foldl f s) := by
  induction l generalizing s with
  | nil => exact h
  | cons a t ih => exact ih (hf s a h)

theorem forEach_keeps {α : Type} {l : List α} {f : α → State → State} {s : State}
    (hf : ∀ a s, Keeps p z s → Keeps p z (f a s)) (h : Keeps p z s) : Keeps p z (forEach l f s) :=
  foldl_keeps (fun s a => hf a s) h

/-! ### Answers with a state in them -/

theorem keeps_fst {α : Type} {r : State × α} {t : State} {a : α} (e : r = (t, a)) (h : Keeps p z r.1) : Keeps p z t := by
  subst e; exact h

theorem keeps_snd {α : Type} {r : α × State} {t : State} {a : α} (e : r = (a, t)) (h : Keeps p z r.2) : Keeps p z t := by
  subst e; exact h

theorem keeps_thd {α β : Type} {r : α × β × State} {t : State} {a : α} {b : β} (e : r = (a, b, t)) (h : Keeps p z r.2.2) :
    Keeps p z t := by
  subst e; exact h

theorem keeps_fth {α β γ : Type} {r : α × β × γ × State} {t : State} {a : α} {b : β} {c : γ} (e : r = (a, b, c, t))
    (h : Keeps p z r.2.2.2) : Keeps p z t := by
  subst e; exact h

end Sys2Proof.Machine
end

