-- ==== Sys2Proof/Laws/KeepsOps.lean ====
section
/-!
SUPPORT. Every operation of Machine/Ops.lean keeps the queue, the canonical form and the blown fuses.
-/
namespace Sys2Proof.Machine

variable {p : List Instr} {z : Fuses}

theorem State.draw_keeps {s : State} (w : Nat) (hs : Keeps p z s) : Keeps p z (State.draw s w).2 := by
  unfold State.draw
  try dsimp only [okA, okRes, failA, laterA]
  repeat' (first
    | (with_reducible assumption) | (intro _) | (with_reducible apply ite_keeps)
    | (with_reducible apply ite_fst_keeps) | (with_reducible apply ite_snd_keeps)
    | (with_reducible apply foldl_keeps) | (with_reducible apply forEach_keeps)
    | (with_reducible refine keeps_fst (by assumption) ?_)
    | (with_reducible refine keeps_snd (by assumption) ?_)
    | (with_reducible refine keeps_thd (by assumption) ?_)
    | (with_reducible refine keeps_fth (by assumption) ?_) | (dsimp only) | split
    | ((conv => arg 3; arg 26); with_reducible refine keeps_mk ?_ rfl rfl rfl rfl rfl))

theorem State.wr_keeps {s : State} (base : Nat) (f : Sys2Proof.Machine.Fld) (v : Nat) (hs : Keeps p z s) : Keeps p
    z (State.wr s base f v) := by
  unfold State.wr
  try dsimp only [okA, okRes, failA, laterA]
  repeat' (first
    | (with_reducible assumption) | (intro _) | (with_reducible apply State.setReg_keeps)
    | (with_reducible apply ite_keeps) | (with_reducible apply ite_fst_keeps)
    | (with_reducible apply ite_snd_keeps) | (with_reducible apply foldl_keeps)
    | (with_reducible apply forEach_keeps) | (with_reducible refine keeps_fst (by assumption) ?_)
    | (with_reducible refine keeps_snd (by assumption) ?_)
    | (with_reducible refine keeps_thd (by assumption) ?_)
    | (with_reducible refine keeps_fth (by assumption) ?_) | (dsimp only) | split
    | ((conv => arg 3; arg 26); with_reducible refine keeps_mk ?_ rfl rfl rfl rfl rfl))

theorem State.inc_keeps {s : State} (base : Nat) (f : Sys2Proof.Machine.Fld) (n : Nat) (hs : Keeps p z s) : Keeps p
    z (State.inc s base f n) := by
  unfold State.inc
  try dsimp only [okA, okRes, failA, laterA]
  repeat' (first
    | (with_reducible assumption) | (intro _) | (with_reducible apply State.wr_keeps)
    | (with_reducible apply ite_keeps) | (with_reducible apply ite_fst_keeps)
    | (with_reducible apply ite_snd_keeps) | (with_reducible apply foldl_keeps)
    | (with_reducible apply forEach_keeps) | (with_reducible refine keeps_fst (by assumption) ?_)
    | (with_reducible refine keeps_snd (by assumption) ?_)
    | (with_reducible refine keeps_thd (by assumption) ?_)
    | (with_reducible refine keeps_fth (by assumption) ?_) | (dsimp only) | split
    | ((conv => arg 3; arg 26); with_reducible refine keeps_mk ?_ rfl rfl rfl rfl rfl))

theorem State.incSat_keeps {s : State} (base : Nat) (f : Sys2Proof.Machine.Fld) (n : Nat) (hs : Keeps p z s) :
    Keeps p z (State.incSat s base f n) := by
  unfold State.incSat
  try dsimp only [okA, okRes, failA, laterA]
  repeat' (first
    | (with_reducible assumption) | (intro _) | (with_reducible apply State.wr_keeps)
    | (with_reducible apply ite_keeps) | (with_reducible apply ite_fst_keeps)
    | (with_reducible apply ite_snd_keeps) | (with_reducible apply foldl_keeps)
    | (with_reducible apply forEach_keeps) | (with_reducible refine keeps_fst (by assumption) ?_)
    | (with_reducible refine keeps_snd (by assumption) ?_)
    | (with_reducible refine keeps_thd (by assumption) ?_)
    | (with_reducible refine keeps_fth (by assumption) ?_) | (dsimp only) | split
    | ((conv => arg 3; arg 26); with_reducible refine keeps_mk ?_ rfl rfl rfl rfl rfl))

theorem State.setFresh_keeps {s : State} (a : Nat) (m : Nat) (hs : Keeps p z s) : Keeps p z (State.setFresh s a m)
    := by
  unfold State.setFresh
  try dsimp only [okA, okRes, failA, laterA]
  repeat' (first
    | (with_reducible assumption) | (intro _) | (with_reducible apply ite_keeps)
    | (with_reducible apply ite_fst_keeps) | (with_reducible apply ite_snd_keeps)
    | (with_reducible apply foldl_keeps) | (with_reducible apply forEach_keeps)
    | (with_reducible refine keeps_fst (by assumption) ?_)
    | (with_reducible refine keeps_snd (by assumption) ?_)
    | (with_reducible refine keeps_thd (by assumption) ?_)
    | (with_reducible refine keeps_fth (by assumption) ?_) | (dsimp only) | split
    | ((conv => arg 3; arg 26); with_reducible refine keeps_mk ?_ rfl rfl rfl rfl rfl))

theorem State.noteSet_keeps {s : State} (a : Nat) (m : Nat) (hs : Keeps p z s) : Keeps p z (State.noteSet s a m) :=
    by
  unfold State.noteSet
  try dsimp only [okA, okRes, failA, laterA]
  repeat' (first
    | (with_reducible assumption) | (intro _) | (with_reducible apply State.setFresh_keeps)
    | (with_reducible apply ite_keeps) | (with_reducible apply ite_fst_keeps)
    | (with_reducible apply ite_snd_keeps) | (with_reducible apply foldl_keeps)
    | (with_reducible apply forEach_keeps) | (with_reducible refine keeps_fst (by assumption) ?_)
    | (with_reducible refine keeps_snd (by assumption) ?_)
    | (with_reducible refine keeps_thd (by assumption) ?_)
    | (with_reducible refine keeps_fth (by assumption) ?_) | (dsimp only) | split
    | ((conv => arg 3; arg 26); with_reducible refine keeps_mk ?_ rfl rfl rfl rfl rfl))

theorem State.clearBits_keeps {s : State} (a : Nat) (m : Nat) (hs : Keeps p z s) : Keeps p z (State.clearBits s a
    m) := by
  unfold State.clearBits
  try dsimp only [okA, okRes, failA, laterA]
  repeat' (first
    | (with_reducible assumption) | (intro _) | (with_reducible apply State.setReg_keeps)
    | (with_reducible apply ite_keeps) | (with_reducible apply ite_fst_keeps)
    | (with_reducible apply ite_snd_keeps) | (with_reducible apply foldl_keeps)
    | (with_reducible apply forEach_keeps) | (with_reducible refine keeps_fst (by assumption) ?_)
    | (with_reducible refine keeps_snd (by assumption) ?_)
    | (with_reducible refine keeps_thd (by assumption) ?_)
    | (with_reducible refine keeps_fth (by assumption) ?_) | (dsimp only) | split
    | ((conv => arg 3; arg 26); with_reducible refine keeps_mk ?_ rfl rfl rfl rfl rfl))

theorem State.setLink_keeps {s : State} (j : Nat) (l : Sys2Proof.Machine.LinkSt) (hs : Keeps p z s) : Keeps p z
    (State.setLink s j l) := by
  unfold State.setLink
  try dsimp only [okA, okRes, failA, laterA]
  repeat' (first
    | (with_reducible assumption) | (intro _) | (with_reducible apply ite_keeps)
    | (with_reducible apply ite_fst_keeps) | (with_reducible apply ite_snd_keeps)
    | (with_reducible apply foldl_keeps) | (with_reducible apply forEach_keeps)
    | (with_reducible refine keeps_fst (by assumption) ?_)
    | (with_reducible refine keeps_snd (by assumption) ?_)
    | (with_reducible refine keeps_thd (by assumption) ?_)
    | (with_reducible refine keeps_fth (by assumption) ?_) | (dsimp only) | split
    | ((conv => arg 3; arg 26); with_reducible refine keeps_mk ?_ rfl rfl rfl rfl rfl))

theorem State.setFn_keeps {s : State} (f : Nat) (x : Sys2Proof.Machine.FnSt) (hs : Keeps p z s) : Keeps p z
    (State.setFn s f x) := by
  unfold State.setFn
  try dsimp only [okA, okRes, failA, laterA]
  repeat' (first
    | (with_reducible assumption) | (intro _) | (with_reducible apply ite_keeps)
    | (with_reducible apply ite_fst_keeps) | (with_reducible apply ite_snd_keeps)
    | (with_reducible apply foldl_keeps) | (with_reducible apply forEach_keeps)
    | (with_reducible refine keeps_fst (by assumption) ?_)
    | (with_reducible refine keeps_snd (by assumption) ?_)
    | (with_reducible refine keeps_thd (by assumption) ?_)
    | (with_reducible refine keeps_fth (by assumption) ?_) | (dsimp only) | split
    | ((conv => arg 3; arg 26); with_reducible refine keeps_mk ?_ rfl rfl rfl rfl rfl))

theorem State.emit_keeps {s : State} (o : Sys2Proof.Machine.Output) (hs : Keeps p z s) : Keeps p z (State.emit s o)
    := by
  unfold State.emit
  try dsimp only [okA, okRes, failA, laterA]
  repeat' (first
    | (with_reducible assumption) | (intro _) | (with_reducible apply ite_keeps)
    | (with_reducible apply ite_fst_keeps) | (with_reducible apply ite_snd_keeps)
    | (with_reducible apply foldl_keeps) | (with_reducible apply forEach_keeps)
    | (with_reducible refine keeps_fst (by assumption) ?_)
    | (with_reducible refine keeps_snd (by assumption) ?_)
    | (with_reducible refine keeps_thd (by assumption) ?_)
    | (with_reducible refine keeps_fth (by assumption) ?_) | (dsimp only) | split
    | ((conv => arg 3; arg 26); with_reducible refine keeps_mk ?_ rfl rfl rfl rfl rfl))

end Sys2Proof.Machine
end

