-- ==== Sys2Proof/Laws/KeepsReport.lean ====
section
/-!
SUPPORT. Every operation of Machine/Report.lean keeps the queue, the canonical form and the blown fuses.
-/
namespace Sys2Proof.Machine

variable {p : List Instr} {z : Fuses}

theorem State.setPendingBit_keeps {s : State} (f : Nat) (i : Nat) (b : Bool) (hs : Keeps p z s) : Keeps p z
    (State.setPendingBit s f i b) := by
  unfold State.setPendingBit
  try dsimp only [okA, okRes, failA, laterA]
  repeat' (first
    | (with_reducible assumption) | (intro _) | (with_reducible apply State.setReg_keeps)
    | (with_reducible apply ite_keeps) | (with_reducible apply ite_fst_keeps)
    | (with_reducible apply ite_snd_keeps) | (with_reducible apply foldl_keeps)
    | (with_reducible apply forEach_keeps) | (with_reducible refine keeps_fst (by assumption) ?_)
    | (with_reducible refine keeps_snd (by assumption) ?_)
    | (with_reducible refine keeps_thd (by assumption) ?_)
    | (with_reducible refine keeps_fth (by assumption) ?_) | (dsimp only) | split
    | ((conv => arg 3; arg 26); with_reducible refine keeps_mk ?_ rfl rfl rfl rfl rfl))

theorem State.updateInt_keeps {s : State} (hs : Keeps p z s) : Keeps p z (State.updateInt s) := by
  unfold State.updateInt
  try dsimp only [okA, okRes, failA, laterA]
  repeat' (first
    | (with_reducible assumption) | (intro _) | (with_reducible apply State.wr_keeps)
    | (with_reducible apply ite_keeps) | (with_reducible apply ite_fst_keeps)
    | (with_reducible apply ite_snd_keeps) | (with_reducible apply foldl_keeps)
    | (with_reducible apply forEach_keeps) | (with_reducible refine keeps_fst (by assumption) ?_)
    | (with_reducible refine keeps_snd (by assumption) ?_)
    | (with_reducible refine keeps_thd (by assumption) ?_)
    | (with_reducible refine keeps_fth (by assumption) ?_) | (dsimp only) | split
    | ((conv => arg 3; arg 26); with_reducible refine keeps_mk ?_ rfl rfl rfl rfl rfl))

theorem State.setSlot_keeps {s : State} (page : Nat) (x : Nat) (v : Nat) (hs : Keeps p z s) : Keeps p z
    (State.setSlot s page x v) := by
  unfold State.setSlot
  try dsimp only [okA, okRes, failA, laterA]
  repeat' (first
    | (with_reducible assumption) | (intro _) | (with_reducible apply ite_keeps)
    | (with_reducible apply ite_fst_keeps) | (with_reducible apply ite_snd_keeps)
    | (with_reducible apply foldl_keeps) | (with_reducible apply forEach_keeps)
    | (with_reducible refine keeps_fst (by assumption) ?_)
    | (with_reducible refine keeps_snd (by assumption) ?_)
    | (with_reducible refine keeps_thd (by assumption) ?_)
    | (with_reducible refine keeps_fth (by assumption) ?_) | (dsimp only) | split
    | ((conv => arg 3; arg 26); with_reducible refine keeps_mk ?_ rfl rfl rfl rfl rfl))

theorem State.addSlot_keeps {s : State} (page : Nat) (x : Nat) (n : Nat) (hs : Keeps p z s) : Keeps p z
    (State.addSlot s page x n) := by
  unfold State.addSlot
  try dsimp only [okA, okRes, failA, laterA]
  repeat' (first
    | (with_reducible assumption) | (intro _) | (with_reducible apply State.setSlot_keeps)
    | (with_reducible apply ite_keeps) | (with_reducible apply ite_fst_keeps)
    | (with_reducible apply ite_snd_keeps) | (with_reducible apply foldl_keeps)
    | (with_reducible apply forEach_keeps) | (with_reducible refine keeps_fst (by assumption) ?_)
    | (with_reducible refine keeps_snd (by assumption) ?_)
    | (with_reducible refine keeps_thd (by assumption) ?_)
    | (with_reducible refine keeps_fth (by assumption) ?_) | (dsimp only) | split
    | ((conv => arg 3; arg 26); with_reducible refine keeps_mk ?_ rfl rfl rfl rfl rfl))

theorem State.clearPage_keeps {s : State} (page : Nat) (hs : Keeps p z s) : Keeps p z (State.clearPage s page) := by
  unfold State.clearPage
  try dsimp only [okA, okRes, failA, laterA]
  repeat' (first
    | (with_reducible assumption) | (intro _) | (with_reducible apply ite_keeps)
    | (with_reducible apply ite_fst_keeps) | (with_reducible apply ite_snd_keeps)
    | (with_reducible apply foldl_keeps) | (with_reducible apply forEach_keeps)
    | (with_reducible refine keeps_fst (by assumption) ?_)
    | (with_reducible refine keeps_snd (by assumption) ?_)
    | (with_reducible refine keeps_thd (by assumption) ?_)
    | (with_reducible refine keeps_fth (by assumption) ?_) | (dsimp only) | split
    | ((conv => arg 3; arg 26); with_reducible refine keeps_mk ?_ rfl rfl rfl rfl rfl))

theorem State.setMarks_keeps {s : State} (x1 : Nat) (l : List Sys2Proof.Machine.SampleMark) (hs : Keeps p z s) :
    Keeps p z (State.setMarks s x1 l) := by
  unfold State.setMarks
  try dsimp only [okA, okRes, failA, laterA]
  repeat' (first
    | (with_reducible assumption) | (intro _) | (with_reducible apply ite_keeps)
    | (with_reducible apply ite_fst_keeps) | (with_reducible apply ite_snd_keeps)
    | (with_reducible apply foldl_keeps) | (with_reducible apply forEach_keeps)
    | (with_reducible refine keeps_fst (by assumption) ?_)
    | (with_reducible refine keeps_snd (by assumption) ?_)
    | (with_reducible refine keeps_thd (by assumption) ?_)
    | (with_reducible refine keeps_fth (by assumption) ?_) | (dsimp only) | split
    | ((conv => arg 3; arg 26); with_reducible refine keeps_mk ?_ rfl rfl rfl rfl rfl))

theorem State.markSample_keeps {s : State} (k : Nat) (m : Sys2Proof.Machine.SampleMark) (hs : Keeps p z s) : Keeps
    p z (State.markSample s k m) := by
  unfold State.markSample
  try dsimp only [okA, okRes, failA, laterA]
  repeat' (first
    | (with_reducible assumption) | (intro _) | (with_reducible apply State.incSat_keeps)
    | (with_reducible apply State.setMarks_keeps) | (with_reducible apply ite_keeps)
    | (with_reducible apply ite_fst_keeps) | (with_reducible apply ite_snd_keeps)
    | (with_reducible apply foldl_keeps) | (with_reducible apply forEach_keeps)
    | (with_reducible refine keeps_fst (by assumption) ?_)
    | (with_reducible refine keeps_snd (by assumption) ?_)
    | (with_reducible refine keeps_thd (by assumption) ?_)
    | (with_reducible refine keeps_fth (by assumption) ?_) | (dsimp only) | split
    | ((conv => arg 3; arg 26); with_reducible refine keeps_mk ?_ rfl rfl rfl rfl rfl))

theorem State.leaveL1_keeps {s : State} (j : Nat) (hs : Keeps p z s) : Keeps p z (State.leaveL1 s j) := by
  unfold State.leaveL1
  try dsimp only [okA, okRes, failA, laterA]
  repeat' (first
    | (with_reducible assumption) | (intro _) | (with_reducible apply State.updateInt_keeps)
    | (with_reducible apply State.wr_keeps) | (with_reducible apply State.setLink_keeps)
    | (with_reducible apply ite_keeps) | (with_reducible apply ite_fst_keeps)
    | (with_reducible apply ite_snd_keeps) | (with_reducible apply foldl_keeps)
    | (with_reducible apply forEach_keeps) | (with_reducible refine keeps_fst (by assumption) ?_)
    | (with_reducible refine keeps_snd (by assumption) ?_)
    | (with_reducible refine keeps_thd (by assumption) ?_)
    | (with_reducible refine keeps_fth (by assumption) ?_) | (dsimp only) | split
    | ((conv => arg 3; arg 26); with_reducible refine keeps_mk ?_ rfl rfl rfl rfl rfl))

theorem State.sendMessage_keeps {s : State} (f : Nat) (i : Nat) (hs : Keeps p z s) : Keeps p z (State.sendMessage s
    f i) := by
  unfold State.sendMessage
  try dsimp only [okA, okRes, failA, laterA]
  repeat' (first
    | (with_reducible assumption) | (intro _) | (with_reducible apply State.emit_keeps)
    | (with_reducible apply State.leaveL1_keeps) | (with_reducible apply ite_keeps)
    | (with_reducible apply ite_fst_keeps) | (with_reducible apply ite_snd_keeps)
    | (with_reducible apply foldl_keeps) | (with_reducible apply forEach_keeps)
    | (with_reducible refine keeps_fst (by assumption) ?_)
    | (with_reducible refine keeps_snd (by assumption) ?_)
    | (with_reducible refine keeps_thd (by assumption) ?_)
    | (with_reducible refine keeps_fth (by assumption) ?_) | (dsimp only) | split
    | ((conv => arg 3; arg 26); with_reducible refine keeps_mk ?_ rfl rfl rfl rfl rfl))

theorem State.messageW_keeps {wh : Withheld} {s : State} (f : Nat) (i : Nat) (hwh : ∀ f s, Keeps p z s → Keeps p z
    (wh f s)) (hs : Keeps p z s) : Keeps p z (State.messageW wh s f i) := by
  unfold State.messageW
  try dsimp only [okA, okRes, failA, laterA]
  repeat' (first
    | (with_reducible assumption) | (intro _) | (with_reducible apply hwh)
    | (with_reducible apply State.sendMessage_keeps) | (with_reducible apply State.setPendingBit_keeps)
    | (with_reducible apply ite_keeps) | (with_reducible apply ite_fst_keeps)
    | (with_reducible apply ite_snd_keeps) | (with_reducible apply foldl_keeps)
    | (with_reducible apply forEach_keeps) | (with_reducible refine keeps_fst (by assumption) ?_)
    | (with_reducible refine keeps_snd (by assumption) ?_)
    | (with_reducible refine keeps_thd (by assumption) ?_)
    | (with_reducible refine keeps_fth (by assumption) ?_) | (dsimp only) | split
    | ((conv => arg 3; arg 26); with_reducible refine keeps_mk ?_ rfl rfl rfl rfl rfl))

theorem State.setVectorW_keeps {wh : Withheld} {s : State} (d : Nat) (level : Bool) (hwh : ∀ f s, Keeps p z s →
    Keeps p z (wh f s)) (hs : Keeps p z s) : Keeps p z (State.setVectorW wh s d level) := by
  unfold State.setVectorW
  try dsimp only [okA, okRes, failA, laterA]
  repeat' (first
    | (with_reducible assumption) | (intro _) | (with_reducible apply hwh)
    | (with_reducible apply State.updateInt_keeps) | (with_reducible apply State.messageW_keeps)
    | (with_reducible apply ite_keeps) | (with_reducible apply ite_fst_keeps)
    | (with_reducible apply ite_snd_keeps) | (with_reducible apply foldl_keeps)
    | (with_reducible apply forEach_keeps) | (with_reducible refine keeps_fst (by assumption) ?_)
    | (with_reducible refine keeps_snd (by assumption) ?_)
    | (with_reducible refine keeps_thd (by assumption) ?_)
    | (with_reducible refine keeps_fth (by assumption) ?_) | (dsimp only) | split
    | ((conv => arg 3; arg 26); with_reducible refine keeps_mk ?_ rfl rfl rfl rfl rfl))

theorem State.updateWinW_keeps {wh : Withheld} {s : State} (w : Sys2Proof.FWin) (hwh : ∀ f s, Keeps p z s → Keeps p
    z (wh f s)) (hs : Keeps p z s) : Keeps p z (State.updateWinW wh s w) := by
  unfold State.updateWinW
  try dsimp only [okA, okRes, failA, laterA]
  repeat' (first
    | (with_reducible assumption) | (intro _) | (with_reducible apply hwh)
    | (with_reducible apply State.setVectorW_keeps) | (with_reducible apply State.messageW_keeps)
    | (with_reducible apply ite_keeps) | (with_reducible apply ite_fst_keeps)
    | (with_reducible apply ite_snd_keeps) | (with_reducible apply foldl_keeps)
    | (with_reducible apply forEach_keeps) | (with_reducible refine keeps_fst (by assumption) ?_)
    | (with_reducible refine keeps_snd (by assumption) ?_)
    | (with_reducible refine keeps_thd (by assumption) ?_)
    | (with_reducible refine keeps_fth (by assumption) ?_) | (dsimp only) | split
    | ((conv => arg 3; arg 26); with_reducible refine keeps_mk ?_ rfl rfl rfl rfl rfl))

theorem State.setQueue_keeps {s : State} (q : Nat) (x : Sys2Proof.Machine.Queue) (hs : Keeps p z s) : Keeps p z
    (State.setQueue s q x) := by
  unfold State.setQueue
  try dsimp only [okA, okRes, failA, laterA]
  repeat' (first
    | (with_reducible assumption) | (intro _) | (with_reducible apply ite_keeps)
    | (with_reducible apply ite_fst_keeps) | (with_reducible apply ite_snd_keeps)
    | (with_reducible apply foldl_keeps) | (with_reducible apply forEach_keeps)
    | (with_reducible refine keeps_fst (by assumption) ?_)
    | (with_reducible refine keeps_snd (by assumption) ?_)
    | (with_reducible refine keeps_thd (by assumption) ?_)
    | (with_reducible refine keeps_fth (by assumption) ?_) | (dsimp only) | split
    | ((conv => arg 3; arg 26); with_reducible refine keeps_mk ?_ rfl rfl rfl rfl rfl))

theorem State.writeBack_keeps {s : State} (q : Nat) (hs : Keeps p z s) : Keeps p z (State.writeBack s q) := by
  unfold State.writeBack
  try dsimp only [okA, okRes, failA, laterA]
  repeat' (first
    | (with_reducible assumption) | (intro _) | (with_reducible apply State.hostWr_keeps)
    | (with_reducible apply ite_keeps) | (with_reducible apply ite_fst_keeps)
    | (with_reducible apply ite_snd_keeps) | (with_reducible apply foldl_keeps)
    | (with_reducible apply forEach_keeps) | (with_reducible refine keeps_fst (by assumption) ?_)
    | (with_reducible refine keeps_snd (by assumption) ?_)
    | (with_reducible refine keeps_thd (by assumption) ?_)
    | (with_reducible refine keeps_fth (by assumption) ?_) | (dsimp only) | split
    | ((conv => arg 3; arg 26); with_reducible refine keeps_mk ?_ rfl rfl rfl rfl rfl))

theorem State.signalW_keeps {wh : Withheld} {s : State} (q : Nat) (hwh : ∀ f s, Keeps p z s → Keeps p z (wh f s))
    (hs : Keeps p z s) : Keeps p z (State.signalW wh s q) := by
  unfold State.signalW
  try dsimp only [okA, okRes, failA, laterA]
  repeat' (first
    | (with_reducible assumption) | (intro _) | (with_reducible apply hwh)
    | (with_reducible apply State.messageW_keeps) | (with_reducible apply State.setQueue_keeps)
    | (with_reducible apply ite_keeps) | (with_reducible apply ite_fst_keeps)
    | (with_reducible apply ite_snd_keeps) | (with_reducible apply foldl_keeps)
    | (with_reducible apply forEach_keeps) | (with_reducible refine keeps_fst (by assumption) ?_)
    | (with_reducible refine keeps_snd (by assumption) ?_)
    | (with_reducible refine keeps_thd (by assumption) ?_)
    | (with_reducible refine keeps_fth (by assumption) ?_) | (dsimp only) | split
    | ((conv => arg 3; arg 26); with_reducible refine keeps_mk ?_ rfl rfl rfl rfl rfl))

theorem State.coalesceW_keeps {wh : Withheld} {s : State} (q : Nat) (force : Bool) (hwh : ∀ f s, Keeps p z s →
    Keeps p z (wh f s)) (hs : Keeps p z s) : Keeps p z (State.coalesceW wh s q force) := by
  unfold State.coalesceW
  try dsimp only [okA, okRes, failA, laterA]
  repeat' (first
    | (with_reducible assumption) | (intro _) | (with_reducible apply hwh)
    | (with_reducible apply State.setQueue_keeps) | (with_reducible apply State.signalW_keeps)
    | (with_reducible apply ite_keeps) | (with_reducible apply ite_fst_keeps)
    | (with_reducible apply ite_snd_keeps) | (with_reducible apply foldl_keeps)
    | (with_reducible apply forEach_keeps) | (with_reducible refine keeps_fst (by assumption) ?_)
    | (with_reducible refine keeps_snd (by assumption) ?_)
    | (with_reducible refine keeps_thd (by assumption) ?_)
    | (with_reducible refine keeps_fth (by assumption) ?_) | (dsimp only) | split
    | ((conv => arg 3; arg 26); with_reducible refine keeps_mk ?_ rfl rfl rfl rfl rfl))

theorem State.postEventW_keeps {wh : Withheld} {s : State} (q : Nat) (r : List Sys2Proof.Byte) (hwh : ∀ f s, Keeps
    p z s → Keeps p z (wh f s)) (hs : Keeps p z s) : Keeps p z (State.postEventW wh s q r) := by
  unfold State.postEventW
  try dsimp only [okA, okRes, failA, laterA]
  repeat' (first
    | (with_reducible assumption) | (intro _) | (with_reducible apply hwh)
    | (with_reducible apply State.hostWr_keeps) | (with_reducible apply State.setQueue_keeps)
    | (with_reducible apply State.coalesceW_keeps) | (with_reducible apply State.writeBack_keeps)
    | (with_reducible apply ite_keeps) | (with_reducible apply ite_fst_keeps)
    | (with_reducible apply ite_snd_keeps) | (with_reducible apply foldl_keeps)
    | (with_reducible apply forEach_keeps) | (with_reducible refine keeps_fst (by assumption) ?_)
    | (with_reducible refine keeps_snd (by assumption) ?_)
    | (with_reducible refine keeps_thd (by assumption) ?_)
    | (with_reducible refine keeps_fth (by assumption) ?_) | (dsimp only) | split
    | ((conv => arg 3; arg 26); with_reducible refine keeps_mk ?_ rfl rfl rfl rfl rfl))

theorem State.pcAddW_keeps {wh : Withheld} {s : State} (k : Nat) (n : Nat) (m : Sys2Proof.Machine.SampleMark) (hwh
    : ∀ f s, Keeps p z s → Keeps p z (wh f s)) (hs : Keeps p z s) : Keeps p z (State.pcAddW wh s k n m) := by
  unfold State.pcAddW
  try dsimp only [okA, okRes, failA, laterA]
  repeat' (first
    | (with_reducible assumption) | (intro _) | (with_reducible apply hwh)
    | (with_reducible apply State.addSlot_keeps) | (with_reducible apply State.setSlot_keeps)
    | (with_reducible apply State.noteSet_keeps) | (with_reducible apply State.setReg_keeps)
    | (with_reducible apply State.setVectorW_keeps) | (with_reducible apply State.incSat_keeps)
    | (with_reducible apply State.markSample_keeps) | (with_reducible apply ite_keeps)
    | (with_reducible apply ite_fst_keeps) | (with_reducible apply ite_snd_keeps)
    | (with_reducible apply foldl_keeps) | (with_reducible apply forEach_keeps)
    | (with_reducible refine keeps_fst (by assumption) ?_)
    | (with_reducible refine keeps_snd (by assumption) ?_)
    | (with_reducible refine keeps_thd (by assumption) ?_)
    | (with_reducible refine keeps_fth (by assumption) ?_) | (dsimp only) | split
    | ((conv => arg 3; arg 26); with_reducible refine keeps_mk ?_ rfl rfl rfl rfl rfl))

theorem State.countW_keeps {wh : Withheld} {s : State} (page : Nat) (x : Nat) (n : Nat) (hwh : ∀ f s, Keeps p z s →
    Keeps p z (wh f s)) (hs : Keeps p z s) : Keeps p z (State.countW wh s page x n) := by
  unfold State.countW
  try dsimp only [okA, okRes, failA, laterA]
  repeat' (first
    | (with_reducible assumption) | (intro _) | (with_reducible apply hwh)
    | (with_reducible apply State.addSlot_keeps) | (with_reducible apply forEach_keeps)
    | (with_reducible apply State.pcAddW_keeps) | (with_reducible apply ite_keeps)
    | (with_reducible apply ite_fst_keeps) | (with_reducible apply ite_snd_keeps)
    | (with_reducible apply foldl_keeps) | (with_reducible apply forEach_keeps)
    | (with_reducible refine keeps_fst (by assumption) ?_)
    | (with_reducible refine keeps_snd (by assumption) ?_)
    | (with_reducible refine keeps_thd (by assumption) ?_)
    | (with_reducible refine keeps_fth (by assumption) ?_) | (dsimp only) | split
    | ((conv => arg 3; arg 26); with_reducible refine keeps_mk ?_ rfl rfl rfl rfl rfl))

theorem State.pcEventW_keeps {wh : Withheld} {s : State} (scope : Option Nat) (sel : Nat) (n : Nat) (pass : Nat →
    Bool) (m : Sys2Proof.Machine.SampleMark) (hwh : ∀ f s, Keeps p z s → Keeps p z (wh f s)) (hs : Keeps p z s) :
    Keeps p z (State.pcEventW wh s scope sel n pass m) := by
  unfold State.pcEventW
  try dsimp only [okA, okRes, failA, laterA]
  repeat' (first
    | (with_reducible assumption) | (intro _) | (with_reducible apply hwh)
    | (with_reducible apply forEach_keeps) | (with_reducible apply State.pcAddW_keeps)
    | (with_reducible apply ite_keeps) | (with_reducible apply ite_fst_keeps)
    | (with_reducible apply ite_snd_keeps) | (with_reducible apply foldl_keeps)
    | (with_reducible apply forEach_keeps) | (with_reducible refine keeps_fst (by assumption) ?_)
    | (with_reducible refine keeps_snd (by assumption) ?_)
    | (with_reducible refine keeps_thd (by assumption) ?_)
    | (with_reducible refine keeps_fth (by assumption) ?_) | (dsimp only) | split
    | ((conv => arg 3; arg 26); with_reducible refine keeps_mk ?_ rfl rfl rfl rfl rfl))

theorem State.portCountW_keeps {wh : Withheld} {s : State} (n : Nat) (x : Nat) (k : Nat) (hwh : ∀ f s, Keeps p z s
    → Keeps p z (wh f s)) (hs : Keeps p z s) : Keeps p z (State.portCountW wh s n x k) := by
  unfold State.portCountW
  try dsimp only [okA, okRes, failA, laterA]
  repeat' (first
    | (with_reducible assumption) | (intro _) | (with_reducible apply hwh)
    | (with_reducible apply State.countW_keeps) | (with_reducible apply ite_keeps)
    | (with_reducible apply ite_fst_keeps) | (with_reducible apply ite_snd_keeps)
    | (with_reducible apply foldl_keeps) | (with_reducible apply forEach_keeps)
    | (with_reducible refine keeps_fst (by assumption) ?_)
    | (with_reducible refine keeps_snd (by assumption) ?_)
    | (with_reducible refine keeps_thd (by assumption) ?_)
    | (with_reducible refine keeps_fth (by assumption) ?_) | (dsimp only) | split
    | ((conv => arg 3; arg 26); with_reducible refine keeps_mk ?_ rfl rfl rfl rfl rfl))

theorem State.pipeCountW_keeps {wh : Withheld} {s : State} (x2 : Nat) (x : Nat) (k : Nat) (hwh : ∀ f s, Keeps p z s
    → Keeps p z (wh f s)) (hs : Keeps p z s) : Keeps p z (State.pipeCountW wh s x2 x k) := by
  unfold State.pipeCountW
  try dsimp only [okA, okRes, failA, laterA]
  repeat' (first
    | (with_reducible assumption) | (intro _) | (with_reducible apply hwh)
    | (with_reducible apply State.countW_keeps) | (with_reducible apply ite_keeps)
    | (with_reducible apply ite_fst_keeps) | (with_reducible apply ite_snd_keeps)
    | (with_reducible apply foldl_keeps) | (with_reducible apply forEach_keeps)
    | (with_reducible refine keeps_fst (by assumption) ?_)
    | (with_reducible refine keeps_snd (by assumption) ?_)
    | (with_reducible refine keeps_thd (by assumption) ?_)
    | (with_reducible refine keeps_fth (by assumption) ?_) | (dsimp only) | split
    | ((conv => arg 3; arg 26); with_reducible refine keeps_mk ?_ rfl rfl rfl rfl rfl))

theorem State.setRecorder_keeps {s : State} (r : Nat) (x : Sys2Proof.Machine.Recorder) (hs : Keeps p z s) : Keeps p
    z (State.setRecorder s r x) := by
  unfold State.setRecorder
  try dsimp only [okA, okRes, failA, laterA]
  repeat' (first
    | (with_reducible assumption) | (intro _) | (with_reducible apply ite_keeps)
    | (with_reducible apply ite_fst_keeps) | (with_reducible apply ite_snd_keeps)
    | (with_reducible apply foldl_keeps) | (with_reducible apply forEach_keeps)
    | (with_reducible refine keeps_fst (by assumption) ?_)
    | (with_reducible refine keeps_snd (by assumption) ?_)
    | (with_reducible refine keeps_thd (by assumption) ?_)
    | (with_reducible refine keeps_fth (by assumption) ?_) | (dsimp only) | split
    | ((conv => arg 3; arg 26); with_reducible refine keeps_mk ?_ rfl rfl rfl rfl rfl))

theorem State.mirrorPostW_keeps {wh : Withheld} {s : State} (r : Nat) (x : Sys2Proof.Machine.Rec) (update : Bool)
    (hwh : ∀ f s, Keeps p z s → Keeps p z (wh f s)) (hs : Keeps p z s) : Keeps p z (State.mirrorPostW wh s r x
    update) := by
  unfold State.mirrorPostW
  try dsimp only [okA, okRes, failA, laterA]
  repeat' (first
    | (with_reducible assumption) | (intro _) | (with_reducible apply hwh)
    | (with_reducible apply State.postEventW_keeps) | (with_reducible apply State.countW_keeps)
    | (with_reducible apply ite_keeps) | (with_reducible apply ite_fst_keeps)
    | (with_reducible apply ite_snd_keeps) | (with_reducible apply foldl_keeps)
    | (with_reducible apply forEach_keeps) | (with_reducible refine keeps_fst (by assumption) ?_)
    | (with_reducible refine keeps_snd (by assumption) ?_)
    | (with_reducible refine keeps_thd (by assumption) ?_)
    | (with_reducible refine keeps_fth (by assumption) ?_) | (dsimp only) | split
    | ((conv => arg 3; arg 26); with_reducible refine keeps_mk ?_ rfl rfl rfl rfl rfl))

theorem State.mirrorRepostW_keeps {wh : Withheld} {s : State} (r : Nat) (timed : Bool) (hwh : ∀ f s, Keeps p z s →
    Keeps p z (wh f s)) (hs : Keeps p z s) : Keeps p z (State.mirrorRepostW wh s r timed) := by
  unfold State.mirrorRepostW
  try dsimp only [okA, okRes, failA, laterA]
  repeat' (first
    | (with_reducible assumption) | (intro _) | (with_reducible apply hwh)
    | (with_reducible apply State.mirrorPostW_keeps) | (with_reducible apply State.setRecorder_keeps)
    | (with_reducible apply ite_keeps) | (with_reducible apply ite_fst_keeps)
    | (with_reducible apply ite_snd_keeps) | (with_reducible apply foldl_keeps)
    | (with_reducible apply forEach_keeps) | (with_reducible refine keeps_fst (by assumption) ?_)
    | (with_reducible refine keeps_snd (by assumption) ?_)
    | (with_reducible refine keeps_thd (by assumption) ?_)
    | (with_reducible refine keeps_fth (by assumption) ?_) | (dsimp only) | split
    | ((conv => arg 3; arg 26); with_reducible refine keeps_mk ?_ rfl rfl rfl rfl rfl))

theorem State.scribeRiseW_keeps {wh : Withheld} {s : State} (r : Nat) (hwh : ∀ f s, Keeps p z s → Keeps p z (wh f
    s)) (hs : Keeps p z s) : Keeps p z (State.scribeRiseW wh s r) := by
  unfold State.scribeRiseW
  try dsimp only [okA, okRes, failA, laterA]
  repeat' (first
    | (with_reducible assumption) | (intro _) | (with_reducible apply hwh)
    | (with_reducible apply State.setVectorW_keeps) | (with_reducible apply ite_keeps)
    | (with_reducible apply ite_fst_keeps) | (with_reducible apply ite_snd_keeps)
    | (with_reducible apply foldl_keeps) | (with_reducible apply forEach_keeps)
    | (with_reducible refine keeps_fst (by assumption) ?_)
    | (with_reducible refine keeps_snd (by assumption) ?_)
    | (with_reducible refine keeps_thd (by assumption) ?_)
    | (with_reducible refine keeps_fth (by assumption) ?_) | (dsimp only) | split
    | ((conv => arg 3; arg 26); with_reducible refine keeps_mk ?_ rfl rfl rfl rfl rfl))

theorem State.newRecordW_keeps {wh : Withheld} {s : State} (r : Nat) (x : Sys2Proof.Machine.Rec) (hwh : ∀ f s,
    Keeps p z s → Keeps p z (wh f s)) (hs : Keeps p z s) : Keeps p z (State.newRecordW wh s r x) := by
  unfold State.newRecordW
  try dsimp only [okA, okRes, failA, laterA]
  repeat' (first
    | (with_reducible assumption) | (intro _) | (with_reducible apply hwh)
    | (with_reducible apply State.mirrorRepostW_keeps) | (with_reducible apply State.wr_keeps)
    | (with_reducible apply State.setRecorder_keeps) | (with_reducible apply State.inc_keeps)
    | (with_reducible apply State.scribeRiseW_keeps) | (with_reducible apply State.mirrorPostW_keeps)
    | (with_reducible apply State.messageW_keeps) | (with_reducible apply ite_keeps)
    | (with_reducible apply ite_fst_keeps) | (with_reducible apply ite_snd_keeps)
    | (with_reducible apply foldl_keeps) | (with_reducible apply forEach_keeps)
    | (with_reducible refine keeps_fst (by assumption) ?_)
    | (with_reducible refine keeps_snd (by assumption) ?_)
    | (with_reducible refine keeps_thd (by assumption) ?_)
    | (with_reducible refine keeps_fth (by assumption) ?_) | (dsimp only) | split
    | ((conv => arg 3; arg 26); with_reducible refine keeps_mk ?_ rfl rfl rfl rfl rfl))

theorem State.recordFitW_keeps {wh : Withheld} {s : State} (r : Nat) (x : Sys2Proof.Machine.Rec) (hwh : ∀ f s,
    Keeps p z s → Keeps p z (wh f s)) (hs : Keeps p z s) : Keeps p z (State.recordFitW wh s r x) := by
  unfold State.recordFitW
  try dsimp only [okA, okRes, failA, laterA]
  repeat' (first
    | (with_reducible assumption) | (intro _) | (with_reducible apply hwh)
    | (with_reducible apply State.incSat_keeps) | (with_reducible apply State.newRecordW_keeps)
    | (with_reducible apply ite_keeps) | (with_reducible apply ite_fst_keeps)
    | (with_reducible apply ite_snd_keeps) | (with_reducible apply foldl_keeps)
    | (with_reducible apply forEach_keeps) | (with_reducible refine keeps_fst (by assumption) ?_)
    | (with_reducible refine keeps_snd (by assumption) ?_)
    | (with_reducible refine keeps_thd (by assumption) ?_)
    | (with_reducible refine keeps_fth (by assumption) ?_) | (dsimp only) | split
    | ((conv => arg 3; arg 26); with_reducible refine keeps_mk ?_ rfl rfl rfl rfl rfl))

theorem State.recordNewW_keeps {wh : Withheld} {s : State} (r : Nat) (x : Sys2Proof.Machine.Rec) (hwh : ∀ f s,
    Keeps p z s → Keeps p z (wh f s)) (hs : Keeps p z s) : Keeps p z (State.recordNewW wh s r x) := by
  unfold State.recordNewW
  try dsimp only [okA, okRes, failA, laterA]
  repeat' (first
    | (with_reducible assumption) | (intro _) | (with_reducible apply hwh)
    | (with_reducible apply State.inc_keeps) | (with_reducible apply State.setRecorder_keeps)
    | (with_reducible apply State.recordFitW_keeps) | (with_reducible apply ite_keeps)
    | (with_reducible apply ite_fst_keeps) | (with_reducible apply ite_snd_keeps)
    | (with_reducible apply foldl_keeps) | (with_reducible apply forEach_keeps)
    | (with_reducible refine keeps_fst (by assumption) ?_)
    | (with_reducible refine keeps_snd (by assumption) ?_)
    | (with_reducible refine keeps_thd (by assumption) ?_)
    | (with_reducible refine keeps_fth (by assumption) ?_) | (dsimp only) | split
    | ((conv => arg 3; arg 26); with_reducible refine keeps_mk ?_ rfl rfl rfl rfl rfl))

theorem State.recordAtW_keeps {wh : Withheld} {s : State} (r : Nat) (x : Sys2Proof.Machine.Rec) (hwh : ∀ f s, Keeps
    p z s → Keeps p z (wh f s)) (hs : Keeps p z s) : Keeps p z (State.recordAtW wh s r x) := by
  unfold State.recordAtW
  try dsimp only [okA, okRes, failA, laterA]
  repeat' (first
    | (with_reducible assumption) | (intro _) | (with_reducible apply hwh)
    | (with_reducible apply State.setRecorder_keeps) | (with_reducible apply State.recordNewW_keeps)
    | (with_reducible apply ite_keeps) | (with_reducible apply ite_fst_keeps)
    | (with_reducible apply ite_snd_keeps) | (with_reducible apply foldl_keeps)
    | (with_reducible apply forEach_keeps) | (with_reducible refine keeps_fst (by assumption) ?_)
    | (with_reducible refine keeps_snd (by assumption) ?_)
    | (with_reducible refine keeps_thd (by assumption) ?_)
    | (with_reducible refine keeps_fth (by assumption) ?_) | (dsimp only) | split
    | ((conv => arg 3; arg 26); with_reducible refine keeps_mk ?_ rfl rfl rfl rfl rfl))

theorem State.eventW_keeps {wh : Withheld} {s : State} (x : Sys2Proof.Machine.Rec) (hwh : ∀ f s, Keeps p z s →
    Keeps p z (wh f s)) (hs : Keeps p z s) : Keeps p z (State.eventW wh s x) := by
  unfold State.eventW
  try dsimp only [okA, okRes, failA, laterA]
  repeat' (first
    | (with_reducible assumption) | (intro _) | (with_reducible apply hwh)
    | (with_reducible apply State.recordAtW_keeps) | (with_reducible apply ite_keeps)
    | (with_reducible apply ite_fst_keeps) | (with_reducible apply ite_snd_keeps)
    | (with_reducible apply foldl_keeps) | (with_reducible apply forEach_keeps)
    | (with_reducible refine keeps_fst (by assumption) ?_)
    | (with_reducible refine keeps_snd (by assumption) ?_)
    | (with_reducible refine keeps_thd (by assumption) ?_)
    | (with_reducible refine keeps_fth (by assumption) ?_) | (dsimp only) | split
    | ((conv => arg 3; arg 26); with_reducible refine keeps_mk ?_ rfl rfl rfl rfl rfl))

theorem State.raiseSafe_keeps {s : State} (kind : Nat) (block : Nat) (inst : Nat) (src : Nat) (hs : Keeps p z s) :
    Keeps p z (State.raiseSafe s kind block inst src) := by
  unfold State.raiseSafe
  try dsimp only [okA, okRes, failA, laterA]
  repeat' (first
    | (with_reducible assumption) | (intro _) | (with_reducible apply State.noteSet_keeps)
    | (with_reducible apply State.setReg_keeps) | (with_reducible apply State.wr_keeps)
    | (with_reducible apply ite_keeps) | (with_reducible apply ite_fst_keeps)
    | (with_reducible apply ite_snd_keeps) | (with_reducible apply foldl_keeps)
    | (with_reducible apply forEach_keeps) | (with_reducible refine keeps_fst (by assumption) ?_)
    | (with_reducible refine keeps_snd (by assumption) ?_)
    | (with_reducible refine keeps_thd (by assumption) ?_)
    | (with_reducible refine keeps_fth (by assumption) ?_) | (dsimp only) | split
    | ((conv => arg 3; arg 26); with_reducible refine keeps_mk ?_ rfl rfl rfl rfl rfl))

theorem State.faultsW_keeps {wh : Withheld} {s : State} (w : Sys2Proof.FWin) (mask : Nat) (info : Nat → Nat)
    (injected : Bool) (hwh : ∀ f s, Keeps p z s → Keeps p z (wh f s)) (hs : Keeps p z s) : Keeps p z (State.faultsW
    wh s w mask info injected) := by
  unfold State.faultsW
  try dsimp only [okA, okRes, failA, laterA]
  repeat' (first
    | (with_reducible assumption) | (intro _) | (with_reducible apply hwh)
    | (with_reducible apply State.noteSet_keeps) | (with_reducible apply State.wr_keeps)
    | (with_reducible apply State.incSat_keeps) | (with_reducible apply State.setReg_keeps)
    | (with_reducible apply forEach_keeps) | (with_reducible apply State.eventW_keeps)
    | (with_reducible apply State.updateWinW_keeps) | (with_reducible apply State.raiseSafe_keeps)
    | (with_reducible apply ite_keeps) | (with_reducible apply ite_fst_keeps)
    | (with_reducible apply ite_snd_keeps) | (with_reducible apply foldl_keeps)
    | (with_reducible apply forEach_keeps) | (with_reducible refine keeps_fst (by assumption) ?_)
    | (with_reducible refine keeps_snd (by assumption) ?_)
    | (with_reducible refine keeps_thd (by assumption) ?_)
    | (with_reducible refine keeps_fth (by assumption) ?_) | (dsimp only) | split
    | ((conv => arg 3; arg 26); with_reducible refine keeps_mk ?_ rfl rfl rfl rfl rfl))

theorem wh0_keeps {p : List Instr} {z : Fuses} (f : Nat) (s : State) (h : Keeps p z s) : Keeps p z (wh0 f s) := by
  unfold wh0
  try dsimp only [okA, okRes, failA, laterA]
  repeat' (first
    | (with_reducible assumption) | (intro _) | (with_reducible apply ite_keeps)
    | (with_reducible apply ite_fst_keeps) | (with_reducible apply ite_snd_keeps)
    | (with_reducible apply foldl_keeps) | (with_reducible apply forEach_keeps)
    | (with_reducible refine keeps_fst (by assumption) ?_)
    | (with_reducible refine keeps_snd (by assumption) ?_)
    | (with_reducible refine keeps_thd (by assumption) ?_)
    | (with_reducible refine keeps_fth (by assumption) ?_) | (dsimp only) | split
    | ((conv => arg 3; arg 26); with_reducible refine keeps_mk ?_ rfl rfl rfl rfl rfl))

theorem wh1_keeps {p : List Instr} {z : Fuses} (f : Nat) (s : State) (h : Keeps p z s) : Keeps p z (wh1 f s) := by
  unfold wh1
  try dsimp only [okA, okRes, failA, laterA]
  repeat' (first
    | (with_reducible assumption) | (intro _) | (with_reducible apply State.faultsW_keeps)
    | (with_reducible apply wh0_keeps) | (with_reducible apply ite_keeps)
    | (with_reducible apply ite_fst_keeps) | (with_reducible apply ite_snd_keeps)
    | (with_reducible apply foldl_keeps) | (with_reducible apply forEach_keeps)
    | (with_reducible refine keeps_fst (by assumption) ?_)
    | (with_reducible refine keeps_snd (by assumption) ?_)
    | (with_reducible refine keeps_thd (by assumption) ?_)
    | (with_reducible refine keeps_fth (by assumption) ?_) | (dsimp only) | split
    | ((conv => arg 3; arg 26); with_reducible refine keeps_mk ?_ rfl rfl rfl rfl rfl))

theorem wh2_keeps {p : List Instr} {z : Fuses} (f : Nat) (s : State) (h : Keeps p z s) : Keeps p z (wh2 f s) := by
  unfold wh2
  try dsimp only [okA, okRes, failA, laterA]
  repeat' (first
    | (with_reducible assumption) | (intro _) | (with_reducible apply State.faultsW_keeps)
    | (with_reducible apply wh1_keeps) | (with_reducible apply ite_keeps)
    | (with_reducible apply ite_fst_keeps) | (with_reducible apply ite_snd_keeps)
    | (with_reducible apply foldl_keeps) | (with_reducible apply forEach_keeps)
    | (with_reducible refine keeps_fst (by assumption) ?_)
    | (with_reducible refine keeps_snd (by assumption) ?_)
    | (with_reducible refine keeps_thd (by assumption) ?_)
    | (with_reducible refine keeps_fth (by assumption) ?_) | (dsimp only) | split
    | ((conv => arg 3; arg 26); with_reducible refine keeps_mk ?_ rfl rfl rfl rfl rfl))

theorem State.message_keeps {s : State} (f : Nat) (i : Nat) (hs : Keeps p z s) : Keeps p z (State.message s f i) :=
    by
  unfold State.message
  try dsimp only [okA, okRes, failA, laterA]
  repeat' (first
    | (with_reducible assumption) | (intro _) | (with_reducible apply State.messageW_keeps)
    | (with_reducible apply wh2_keeps) | (with_reducible apply ite_keeps)
    | (with_reducible apply ite_fst_keeps) | (with_reducible apply ite_snd_keeps)
    | (with_reducible apply foldl_keeps) | (with_reducible apply forEach_keeps)
    | (with_reducible refine keeps_fst (by assumption) ?_)
    | (with_reducible refine keeps_snd (by assumption) ?_)
    | (with_reducible refine keeps_thd (by assumption) ?_)
    | (with_reducible refine keeps_fth (by assumption) ?_) | (dsimp only) | split
    | ((conv => arg 3; arg 26); with_reducible refine keeps_mk ?_ rfl rfl rfl rfl rfl))

theorem State.setVector_keeps {s : State} (d : Nat) (level : Bool) (hs : Keeps p z s) : Keeps p z (State.setVector
    s d level) := by
  unfold State.setVector
  try dsimp only [okA, okRes, failA, laterA]
  repeat' (first
    | (with_reducible assumption) | (intro _) | (with_reducible apply State.setVectorW_keeps)
    | (with_reducible apply wh2_keeps) | (with_reducible apply ite_keeps)
    | (with_reducible apply ite_fst_keeps) | (with_reducible apply ite_snd_keeps)
    | (with_reducible apply foldl_keeps) | (with_reducible apply forEach_keeps)
    | (with_reducible refine keeps_fst (by assumption) ?_)
    | (with_reducible refine keeps_snd (by assumption) ?_)
    | (with_reducible refine keeps_thd (by assumption) ?_)
    | (with_reducible refine keeps_fth (by assumption) ?_) | (dsimp only) | split
    | ((conv => arg 3; arg 26); with_reducible refine keeps_mk ?_ rfl rfl rfl rfl rfl))

theorem State.updateWin_keeps {s : State} (w : Sys2Proof.FWin) (hs : Keeps p z s) : Keeps p z (State.updateWin s w)
    := by
  unfold State.updateWin
  try dsimp only [okA, okRes, failA, laterA]
  repeat' (first
    | (with_reducible assumption) | (intro _) | (with_reducible apply State.updateWinW_keeps)
    | (with_reducible apply wh2_keeps) | (with_reducible apply ite_keeps)
    | (with_reducible apply ite_fst_keeps) | (with_reducible apply ite_snd_keeps)
    | (with_reducible apply foldl_keeps) | (with_reducible apply forEach_keeps)
    | (with_reducible refine keeps_fst (by assumption) ?_)
    | (with_reducible refine keeps_snd (by assumption) ?_)
    | (with_reducible refine keeps_thd (by assumption) ?_)
    | (with_reducible refine keeps_fth (by assumption) ?_) | (dsimp only) | split
    | ((conv => arg 3; arg 26); with_reducible refine keeps_mk ?_ rfl rfl rfl rfl rfl))

theorem State.postEvent_keeps {s : State} (q : Nat) (r : List Sys2Proof.Byte) (hs : Keeps p z s) : Keeps p z
    (State.postEvent s q r) := by
  unfold State.postEvent
  try dsimp only [okA, okRes, failA, laterA]
  repeat' (first
    | (with_reducible assumption) | (intro _) | (with_reducible apply State.postEventW_keeps)
    | (with_reducible apply wh2_keeps) | (with_reducible apply ite_keeps)
    | (with_reducible apply ite_fst_keeps) | (with_reducible apply ite_snd_keeps)
    | (with_reducible apply foldl_keeps) | (with_reducible apply forEach_keeps)
    | (with_reducible refine keeps_fst (by assumption) ?_)
    | (with_reducible refine keeps_snd (by assumption) ?_)
    | (with_reducible refine keeps_thd (by assumption) ?_)
    | (with_reducible refine keeps_fth (by assumption) ?_) | (dsimp only) | split
    | ((conv => arg 3; arg 26); with_reducible refine keeps_mk ?_ rfl rfl rfl rfl rfl))

theorem State.coalesce_keeps {s : State} (q : Nat) (force : Bool) (hs : Keeps p z s) : Keeps p z (State.coalesce s
    q force) := by
  unfold State.coalesce
  try dsimp only [okA, okRes, failA, laterA]
  repeat' (first
    | (with_reducible assumption) | (intro _) | (with_reducible apply State.coalesceW_keeps)
    | (with_reducible apply wh2_keeps) | (with_reducible apply ite_keeps)
    | (with_reducible apply ite_fst_keeps) | (with_reducible apply ite_snd_keeps)
    | (with_reducible apply foldl_keeps) | (with_reducible apply forEach_keeps)
    | (with_reducible refine keeps_fst (by assumption) ?_)
    | (with_reducible refine keeps_snd (by assumption) ?_)
    | (with_reducible refine keeps_thd (by assumption) ?_)
    | (with_reducible refine keeps_fth (by assumption) ?_) | (dsimp only) | split
    | ((conv => arg 3; arg 26); with_reducible refine keeps_mk ?_ rfl rfl rfl rfl rfl))

theorem State.signal_keeps {s : State} (q : Nat) (hs : Keeps p z s) : Keeps p z (State.signal s q) := by
  unfold State.signal
  try dsimp only [okA, okRes, failA, laterA]
  repeat' (first
    | (with_reducible assumption) | (intro _) | (with_reducible apply State.signalW_keeps)
    | (with_reducible apply wh2_keeps) | (with_reducible apply ite_keeps)
    | (with_reducible apply ite_fst_keeps) | (with_reducible apply ite_snd_keeps)
    | (with_reducible apply foldl_keeps) | (with_reducible apply forEach_keeps)
    | (with_reducible refine keeps_fst (by assumption) ?_)
    | (with_reducible refine keeps_snd (by assumption) ?_)
    | (with_reducible refine keeps_thd (by assumption) ?_)
    | (with_reducible refine keeps_fth (by assumption) ?_) | (dsimp only) | split
    | ((conv => arg 3; arg 26); with_reducible refine keeps_mk ?_ rfl rfl rfl rfl rfl))

theorem State.count_keeps {s : State} (page : Nat) (x : Nat) (n : Nat) (hs : Keeps p z s) : Keeps p z (State.count
    s page x n) := by
  unfold State.count
  try dsimp only [okA, okRes, failA, laterA]
  repeat' (first
    | (with_reducible assumption) | (intro _) | (with_reducible apply State.countW_keeps)
    | (with_reducible apply wh2_keeps) | (with_reducible apply ite_keeps)
    | (with_reducible apply ite_fst_keeps) | (with_reducible apply ite_snd_keeps)
    | (with_reducible apply foldl_keeps) | (with_reducible apply forEach_keeps)
    | (with_reducible refine keeps_fst (by assumption) ?_)
    | (with_reducible refine keeps_snd (by assumption) ?_)
    | (with_reducible refine keeps_thd (by assumption) ?_)
    | (with_reducible refine keeps_fth (by assumption) ?_) | (dsimp only) | split
    | ((conv => arg 3; arg 26); with_reducible refine keeps_mk ?_ rfl rfl rfl rfl rfl))

theorem State.portCount_keeps {s : State} (n : Nat) (x : Nat) (k : Nat) (hs : Keeps p z s) : Keeps p z
    (State.portCount s n x k) := by
  unfold State.portCount
  try dsimp only [okA, okRes, failA, laterA]
  repeat' (first
    | (with_reducible assumption) | (intro _) | (with_reducible apply State.portCountW_keeps)
    | (with_reducible apply wh2_keeps) | (with_reducible apply ite_keeps)
    | (with_reducible apply ite_fst_keeps) | (with_reducible apply ite_snd_keeps)
    | (with_reducible apply foldl_keeps) | (with_reducible apply forEach_keeps)
    | (with_reducible refine keeps_fst (by assumption) ?_)
    | (with_reducible refine keeps_snd (by assumption) ?_)
    | (with_reducible refine keeps_thd (by assumption) ?_)
    | (with_reducible refine keeps_fth (by assumption) ?_) | (dsimp only) | split
    | ((conv => arg 3; arg 26); with_reducible refine keeps_mk ?_ rfl rfl rfl rfl rfl))

theorem State.pipeCount_keeps {s : State} (x1 : Nat) (x : Nat) (k : Nat) (hs : Keeps p z s) : Keeps p z
    (State.pipeCount s x1 x k) := by
  unfold State.pipeCount
  try dsimp only [okA, okRes, failA, laterA]
  repeat' (first
    | (with_reducible assumption) | (intro _) | (with_reducible apply State.pipeCountW_keeps)
    | (with_reducible apply wh2_keeps) | (with_reducible apply ite_keeps)
    | (with_reducible apply ite_fst_keeps) | (with_reducible apply ite_snd_keeps)
    | (with_reducible apply foldl_keeps) | (with_reducible apply forEach_keeps)
    | (with_reducible refine keeps_fst (by assumption) ?_)
    | (with_reducible refine keeps_snd (by assumption) ?_)
    | (with_reducible refine keeps_thd (by assumption) ?_)
    | (with_reducible refine keeps_fth (by assumption) ?_) | (dsimp only) | split
    | ((conv => arg 3; arg 26); with_reducible refine keeps_mk ?_ rfl rfl rfl rfl rfl))

theorem State.pcEvent_keeps {s : State} (scope : Option Nat) (sel : Nat) (n : Nat) (pass : Nat → Bool) (m :
    Sys2Proof.Machine.SampleMark) (hs : Keeps p z s) : Keeps p z (State.pcEvent s scope sel n pass m) := by
  unfold State.pcEvent
  try dsimp only [okA, okRes, failA, laterA]
  repeat' (first
    | (with_reducible assumption) | (intro _) | (with_reducible apply State.pcEventW_keeps)
    | (with_reducible apply wh2_keeps) | (with_reducible apply ite_keeps)
    | (with_reducible apply ite_fst_keeps) | (with_reducible apply ite_snd_keeps)
    | (with_reducible apply foldl_keeps) | (with_reducible apply forEach_keeps)
    | (with_reducible refine keeps_fst (by assumption) ?_)
    | (with_reducible refine keeps_snd (by assumption) ?_)
    | (with_reducible refine keeps_thd (by assumption) ?_)
    | (with_reducible refine keeps_fth (by assumption) ?_) | (dsimp only) | split
    | ((conv => arg 3; arg 26); with_reducible refine keeps_mk ?_ rfl rfl rfl rfl rfl))

theorem State.event_keeps {s : State} (code : Nat) (source : Nat) (p0 : Nat) (p1 : Nat) (p2 : Nat) (hs : Keeps p z
    s) : Keeps p z (State.event s code source p0 p1 p2) := by
  unfold State.event
  try dsimp only [okA, okRes, failA, laterA]
  repeat' (first
    | (with_reducible assumption) | (intro _) | (with_reducible apply State.eventW_keeps)
    | (with_reducible apply wh2_keeps) | (with_reducible apply ite_keeps)
    | (with_reducible apply ite_fst_keeps) | (with_reducible apply ite_snd_keeps)
    | (with_reducible apply foldl_keeps) | (with_reducible apply forEach_keeps)
    | (with_reducible refine keeps_fst (by assumption) ?_)
    | (with_reducible refine keeps_snd (by assumption) ?_)
    | (with_reducible refine keeps_thd (by assumption) ?_)
    | (with_reducible refine keeps_fth (by assumption) ?_) | (dsimp only) | split
    | ((conv => arg 3; arg 26); with_reducible refine keeps_mk ?_ rfl rfl rfl rfl rfl))

theorem State.eventFw_keeps {s : State} (code : Nat) (source : Nat) (p0 : Nat) (p1 : Nat) (p2 : Nat) (hs : Keeps p
    z s) : Keeps p z (State.eventFw s code source p0 p1 p2) := by
  unfold State.eventFw
  try dsimp only [okA, okRes, failA, laterA]
  repeat' (first
    | (with_reducible assumption) | (intro _) | (with_reducible apply State.eventW_keeps)
    | (with_reducible apply wh2_keeps) | (with_reducible apply ite_keeps)
    | (with_reducible apply ite_fst_keeps) | (with_reducible apply ite_snd_keeps)
    | (with_reducible apply foldl_keeps) | (with_reducible apply forEach_keeps)
    | (with_reducible refine keeps_fst (by assumption) ?_)
    | (with_reducible refine keeps_snd (by assumption) ?_)
    | (with_reducible refine keeps_thd (by assumption) ?_)
    | (with_reducible refine keeps_fth (by assumption) ?_) | (dsimp only) | split
    | ((conv => arg 3; arg 26); with_reducible refine keeps_mk ?_ rfl rfl rfl rfl rfl))

theorem State.fault_keeps {s : State} (w : Sys2Proof.FWin) (i : Nat) (info : Nat) (hs : Keeps p z s) : Keeps p z
    (State.fault s w i info) := by
  unfold State.fault
  try dsimp only [okA, okRes, failA, laterA]
  repeat' (first
    | (with_reducible assumption) | (intro _) | (with_reducible apply State.faultsW_keeps)
    | (with_reducible apply wh2_keeps) | (with_reducible apply ite_keeps)
    | (with_reducible apply ite_fst_keeps) | (with_reducible apply ite_snd_keeps)
    | (with_reducible apply foldl_keeps) | (with_reducible apply forEach_keeps)
    | (with_reducible refine keeps_fst (by assumption) ?_)
    | (with_reducible refine keeps_snd (by assumption) ?_)
    | (with_reducible refine keeps_thd (by assumption) ?_)
    | (with_reducible refine keeps_fth (by assumption) ?_) | (dsimp only) | split
    | ((conv => arg 3; arg 26); with_reducible refine keeps_mk ?_ rfl rfl rfl rfl rfl))

theorem State.faultPort_keeps {s : State} (n : Nat) (i : Nat) (info : Nat) (hs : Keeps p z s) : Keeps p z
    (State.faultPort s n i info) := by
  unfold State.faultPort
  try dsimp only [okA, okRes, failA, laterA]
  repeat' (first
    | (with_reducible assumption) | (intro _) | (with_reducible apply State.fault_keeps)
    | (with_reducible apply ite_keeps) | (with_reducible apply ite_fst_keeps)
    | (with_reducible apply ite_snd_keeps) | (with_reducible apply foldl_keeps)
    | (with_reducible apply forEach_keeps) | (with_reducible refine keeps_fst (by assumption) ?_)
    | (with_reducible refine keeps_snd (by assumption) ?_)
    | (with_reducible refine keeps_thd (by assumption) ?_)
    | (with_reducible refine keeps_fth (by assumption) ?_) | (dsimp only) | split
    | ((conv => arg 3; arg 26); with_reducible refine keeps_mk ?_ rfl rfl rfl rfl rfl))

theorem State.faultPipe_keeps {s : State} (x1 : Nat) (i : Nat) (info : Nat) (hs : Keeps p z s) : Keeps p z
    (State.faultPipe s x1 i info) := by
  unfold State.faultPipe
  try dsimp only [okA, okRes, failA, laterA]
  repeat' (first
    | (with_reducible assumption) | (intro _) | (with_reducible apply State.fault_keeps)
    | (with_reducible apply ite_keeps) | (with_reducible apply ite_fst_keeps)
    | (with_reducible apply ite_snd_keeps) | (with_reducible apply foldl_keeps)
    | (with_reducible apply forEach_keeps) | (with_reducible refine keeps_fst (by assumption) ?_)
    | (with_reducible refine keeps_snd (by assumption) ?_)
    | (with_reducible refine keeps_thd (by assumption) ?_)
    | (with_reducible refine keeps_fth (by assumption) ?_) | (dsimp only) | split
    | ((conv => arg 3; arg 26); with_reducible refine keeps_mk ?_ rfl rfl rfl rfl rfl))

theorem State.faultDmc_keeps {s : State} (x : Nat) (i : Nat) (info : Nat) (hs : Keeps p z s) : Keeps p z
    (State.faultDmc s x i info) := by
  unfold State.faultDmc
  try dsimp only [okA, okRes, failA, laterA]
  repeat' (first
    | (with_reducible assumption) | (intro _) | (with_reducible apply State.fault_keeps)
    | (with_reducible apply ite_keeps) | (with_reducible apply ite_fst_keeps)
    | (with_reducible apply ite_snd_keeps) | (with_reducible apply foldl_keeps)
    | (with_reducible apply forEach_keeps) | (with_reducible refine keeps_fst (by assumption) ?_)
    | (with_reducible refine keeps_snd (by assumption) ?_)
    | (with_reducible refine keeps_thd (by assumption) ?_)
    | (with_reducible refine keeps_fth (by assumption) ?_) | (dsimp only) | split
    | ((conv => arg 3; arg 26); with_reducible refine keeps_mk ?_ rfl rfl rfl rfl rfl))

theorem State.faultFn_keeps {s : State} (f : Nat) (i : Nat) (info : Nat) (hs : Keeps p z s) : Keeps p z
    (State.faultFn s f i info) := by
  unfold State.faultFn
  try dsimp only [okA, okRes, failA, laterA]
  repeat' (first
    | (with_reducible assumption) | (intro _) | (with_reducible apply State.fault_keeps)
    | (with_reducible apply ite_keeps) | (with_reducible apply ite_fst_keeps)
    | (with_reducible apply ite_snd_keeps) | (with_reducible apply foldl_keeps)
    | (with_reducible apply forEach_keeps) | (with_reducible refine keeps_fst (by assumption) ?_)
    | (with_reducible refine keeps_snd (by assumption) ?_)
    | (with_reducible refine keeps_thd (by assumption) ?_)
    | (with_reducible refine keeps_fth (by assumption) ?_) | (dsimp only) | split
    | ((conv => arg 3; arg 26); with_reducible refine keeps_mk ?_ rfl rfl rfl rfl rfl))

theorem State.faultLevel_keeps {s : State} (w : Sys2Proof.FWin) (i : Nat) (info : Nat) (level : Bool) (hs : Keeps p
    z s) : Keeps p z (State.faultLevel s w i info level) := by
  unfold State.faultLevel
  try dsimp only [okA, okRes, failA, laterA]
  repeat' (first
    | (with_reducible assumption) | (intro _) | (with_reducible apply State.wr_keeps)
    | (with_reducible apply State.fault_keeps) | (with_reducible apply State.setFresh_keeps)
    | (with_reducible apply ite_keeps) | (with_reducible apply ite_fst_keeps)
    | (with_reducible apply ite_snd_keeps) | (with_reducible apply foldl_keeps)
    | (with_reducible apply forEach_keeps) | (with_reducible refine keeps_fst (by assumption) ?_)
    | (with_reducible refine keeps_snd (by assumption) ?_)
    | (with_reducible refine keeps_thd (by assumption) ?_)
    | (with_reducible refine keeps_fth (by assumption) ?_) | (dsimp only) | split
    | ((conv => arg 3; arg 26); with_reducible refine keeps_mk ?_ rfl rfl rfl rfl rfl))

theorem State.levelPort_keeps {s : State} (n : Nat) (i : Nat) (info : Nat) (on : Bool) (hs : Keeps p z s) : Keeps p
    z (State.levelPort s n i info on) := by
  unfold State.levelPort
  try dsimp only [okA, okRes, failA, laterA]
  repeat' (first
    | (with_reducible assumption) | (intro _) | (with_reducible apply State.faultLevel_keeps)
    | (with_reducible apply ite_keeps) | (with_reducible apply ite_fst_keeps)
    | (with_reducible apply ite_snd_keeps) | (with_reducible apply foldl_keeps)
    | (with_reducible apply forEach_keeps) | (with_reducible refine keeps_fst (by assumption) ?_)
    | (with_reducible refine keeps_snd (by assumption) ?_)
    | (with_reducible refine keeps_thd (by assumption) ?_)
    | (with_reducible refine keeps_fth (by assumption) ?_) | (dsimp only) | split
    | ((conv => arg 3; arg 26); with_reducible refine keeps_mk ?_ rfl rfl rfl rfl rfl))

end Sys2Proof.Machine
end

