-- ==== Sys2Proof/Laws/KeepsJobs.lean ====
section
/-!
SUPPORT. Every operation of Machine/Jobs.lean keeps the queue, the canonical form and the blown fuses.
-/
namespace Sys2Proof.Machine

variable {p : List Instr} {z : Fuses}

theorem State.startJob_keeps {s : State} (j : Sys2Proof.Job) (hs : Keeps p z s) : Keeps p z (State.startJob s j) :=
    by
  unfold State.startJob
  try dsimp only [okA, okRes, failA, laterA]
  repeat' (first
    | (with_reducible assumption) | (intro _) | (with_reducible apply ite_keeps)
    | (with_reducible apply ite_fst_keeps) | (with_reducible apply ite_snd_keeps)
    | (with_reducible apply foldl_keeps) | (with_reducible apply forEach_keeps)
    | (with_reducible refine keeps_fst (by assumption) ?_)
    | (with_reducible refine keeps_snd (by assumption) ?_)
    | (with_reducible refine keeps_thd (by assumption) ?_)
    | (with_reducible refine keeps_fth (by assumption) ?_) | (dsimp only) | split
    | ((conv => arg 3; arg 26); with_reducible refine keeps_mk ?_ rfl rfl rfl rfl rfl))

theorem State.complete_keeps {s : State} (j : Sys2Proof.Job) (status : Nat) (result : List Sys2Proof.Byte) (hs :
    Keeps p z s) : Keeps p z (State.complete s j status result) := by
  unfold State.complete
  try dsimp only [okA, okRes, failA, laterA]
  repeat' (first
    | (with_reducible assumption) | (intro _) | (with_reducible apply ite_keeps)
    | (with_reducible apply ite_fst_keeps) | (with_reducible apply ite_snd_keeps)
    | (with_reducible apply foldl_keeps) | (with_reducible apply forEach_keeps)
    | (with_reducible refine keeps_fst (by assumption) ?_)
    | (with_reducible refine keeps_snd (by assumption) ?_)
    | (with_reducible refine keeps_thd (by assumption) ?_)
    | (with_reducible refine keeps_fth (by assumption) ?_) | (dsimp only) | split
    | ((conv => arg 3; arg 26); with_reducible refine keeps_mk ?_ rfl rfl rfl rfl rfl))

theorem okA_keeps {s : State} (hs : Keeps p z s) : Keeps p z (okA s).1 := by
  unfold okA
  try dsimp only [okA, okRes, failA, laterA]
  repeat' (first
    | (with_reducible assumption) | (intro _) | (with_reducible apply ite_keeps)
    | (with_reducible apply ite_fst_keeps) | (with_reducible apply ite_snd_keeps)
    | (with_reducible apply foldl_keeps) | (with_reducible apply forEach_keeps)
    | (with_reducible refine keeps_fst (by assumption) ?_)
    | (with_reducible refine keeps_snd (by assumption) ?_)
    | (with_reducible refine keeps_thd (by assumption) ?_)
    | (with_reducible refine keeps_fth (by assumption) ?_) | (dsimp only) | split
    | ((conv => arg 3; arg 26); with_reducible refine keeps_mk ?_ rfl rfl rfl rfl rfl))

theorem okRes_keeps {s : State} (r : List Sys2Proof.Byte) (hs : Keeps p z s) : Keeps p z (okRes s r).1 := by
  unfold okRes
  try dsimp only [okA, okRes, failA, laterA]
  repeat' (first
    | (with_reducible assumption) | (intro _) | (with_reducible apply ite_keeps)
    | (with_reducible apply ite_fst_keeps) | (with_reducible apply ite_snd_keeps)
    | (with_reducible apply foldl_keeps) | (with_reducible apply forEach_keeps)
    | (with_reducible refine keeps_fst (by assumption) ?_)
    | (with_reducible refine keeps_snd (by assumption) ?_)
    | (with_reducible refine keeps_thd (by assumption) ?_)
    | (with_reducible refine keeps_fth (by assumption) ?_) | (dsimp only) | split
    | ((conv => arg 3; arg 26); with_reducible refine keeps_mk ?_ rfl rfl rfl rfl rfl))

theorem failA_keeps {s : State} (code : Nat) (hs : Keeps p z s) : Keeps p z (failA s code).1 := by
  unfold failA
  try dsimp only [okA, okRes, failA, laterA]
  repeat' (first
    | (with_reducible assumption) | (intro _) | (with_reducible apply ite_keeps)
    | (with_reducible apply ite_fst_keeps) | (with_reducible apply ite_snd_keeps)
    | (with_reducible apply foldl_keeps) | (with_reducible apply forEach_keeps)
    | (with_reducible refine keeps_fst (by assumption) ?_)
    | (with_reducible refine keeps_snd (by assumption) ?_)
    | (with_reducible refine keeps_thd (by assumption) ?_)
    | (with_reducible refine keeps_fth (by assumption) ?_) | (dsimp only) | split
    | ((conv => arg 3; arg 26); with_reducible refine keeps_mk ?_ rfl rfl rfl rfl rfl))

theorem laterA_keeps {s : State} (hs : Keeps p z s) : Keeps p z (laterA s).1 := by
  unfold laterA
  try dsimp only [okA, okRes, failA, laterA]
  repeat' (first
    | (with_reducible assumption) | (intro _) | (with_reducible apply ite_keeps)
    | (with_reducible apply ite_fst_keeps) | (with_reducible apply ite_snd_keeps)
    | (with_reducible apply foldl_keeps) | (with_reducible apply forEach_keeps)
    | (with_reducible refine keeps_fst (by assumption) ?_)
    | (with_reducible refine keeps_snd (by assumption) ?_)
    | (with_reducible refine keeps_thd (by assumption) ?_)
    | (with_reducible refine keeps_fth (by assumption) ?_) | (dsimp only) | split
    | ((conv => arg 3; arg 26); with_reducible refine keeps_mk ?_ rfl rfl rfl rfl rfl))

theorem State.countMoved_keeps {s : State} (ch : Nat) (n : Nat) (hs : Keeps p z s) : Keeps p z (State.countMoved s
    ch n) := by
  unfold State.countMoved
  try dsimp only [okA, okRes, failA, laterA]
  repeat' (first
    | (with_reducible assumption) | (intro _) | (with_reducible apply State.count_keeps)
    | (with_reducible apply ite_keeps) | (with_reducible apply ite_fst_keeps)
    | (with_reducible apply ite_snd_keeps) | (with_reducible apply foldl_keeps)
    | (with_reducible apply forEach_keeps) | (with_reducible refine keeps_fst (by assumption) ?_)
    | (with_reducible refine keeps_snd (by assumption) ?_)
    | (with_reducible refine keeps_thd (by assumption) ?_)
    | (with_reducible refine keeps_fth (by assumption) ?_) | (dsimp only) | split
    | ((conv => arg 3; arg 26); with_reducible refine keeps_mk ?_ rfl rfl rfl rfl rfl))

theorem State.runJob_keeps {s : State} (g : Sys2Proof.Machine.Gate) (j : Sys2Proof.Job) {body :
    Sys2Proof.Machine.State → Sys2Proof.Machine.Answer} (hs : Keeps p z s) (hbody : ∀ (y0 :
    Sys2Proof.Machine.State), Keeps p z y0 → Keeps p z (body y0).1) : Keeps p z (State.runJob s g j body) := by
  unfold State.runJob
  try dsimp only [okA, okRes, failA, laterA]
  repeat' (first
    | (with_reducible assumption) | (intro _) | (with_reducible apply State.startJob_keeps)
    | (with_reducible apply State.complete_keeps) | (with_reducible apply hbody)
    | (with_reducible apply ite_keeps) | (with_reducible apply ite_fst_keeps)
    | (with_reducible apply ite_snd_keeps) | (with_reducible apply foldl_keeps)
    | (with_reducible apply forEach_keeps) | (with_reducible refine keeps_fst (by assumption) ?_)
    | (with_reducible refine keeps_snd (by assumption) ?_)
    | (with_reducible refine keeps_thd (by assumption) ?_)
    | (with_reducible refine keeps_fth (by assumption) ?_) | (dsimp only) | split
    | ((conv => arg 3; arg 26); with_reducible refine keeps_mk ?_ rfl rfl rfl rfl rfl))

theorem jobRow_keeps (g : Sys2Proof.Machine.Gate) (j : Sys2Proof.Job) {s : State} {body : Sys2Proof.Job →
    Sys2Proof.Machine.State → Sys2Proof.Machine.Answer} (hs : Keeps p z s) (hbody : ∀ (y0 : Sys2Proof.Job) (y1 :
    Sys2Proof.Machine.State), Keeps p z y1 → Keeps p z (body y0 y1).1) {t' : State} (e : jobRow g j s body = .next
    t') : Keeps p z t' := by
  unfold jobRow at e
  repeat' (first | cases e | split at e | (dsimp only at e))
  all_goals
    try dsimp only
    repeat' (first
      | (with_reducible assumption) | (intro _) | (with_reducible apply State.runJob_keeps)
      | (with_reducible apply hbody) | (with_reducible apply State.runJob_keeps)
      | (with_reducible apply ite_keeps) | (with_reducible apply ite_fst_keeps)
      | (with_reducible apply ite_snd_keeps) | (with_reducible apply foldl_keeps)
      | (with_reducible apply forEach_keeps) | (with_reducible refine keeps_fst (by assumption) ?_)
      | (with_reducible refine keeps_snd (by assumption) ?_)
      | (with_reducible refine keeps_thd (by assumption) ?_)
      | (with_reducible refine keeps_fth (by assumption) ?_) | (dsimp only) | split
      | ((conv => arg 3; arg 26); with_reducible refine keeps_mk ?_ rfl rfl rfl rfl rfl))

theorem State.jobWrite_keeps {s : State} (j : Sys2Proof.Job) (addr : Nat) (bs : List Sys2Proof.Byte) (hs : Keeps p
    z s) : Keeps p z (State.jobWrite s j addr bs) := by
  unfold State.jobWrite
  try dsimp only [okA, okRes, failA, laterA]
  repeat' (first
    | (with_reducible assumption) | (intro _) | (with_reducible apply State.countMoved_keeps)
    | (with_reducible apply State.hostWr_keeps) | (with_reducible apply ite_keeps)
    | (with_reducible apply ite_fst_keeps) | (with_reducible apply ite_snd_keeps)
    | (with_reducible apply foldl_keeps) | (with_reducible apply forEach_keeps)
    | (with_reducible refine keeps_fst (by assumption) ?_)
    | (with_reducible refine keeps_snd (by assumption) ?_)
    | (with_reducible refine keeps_thd (by assumption) ?_)
    | (with_reducible refine keeps_fth (by assumption) ?_) | (dsimp only) | split
    | ((conv => arg 3; arg 26); with_reducible refine keeps_mk ?_ rfl rfl rfl rfl rfl))

theorem State.timeoutReport_keeps {s : State} (f : Nat) (tag : Nat) (hs : Keeps p z s) : Keeps p z
    (State.timeoutReport s f tag) := by
  unfold State.timeoutReport
  try dsimp only [okA, okRes, failA, laterA]
  repeat' (first
    | (with_reducible assumption) | (intro _) | (with_reducible apply State.draw_keeps)
    | (with_reducible apply State.emit_keeps) | (with_reducible apply State.faultFn_keeps)
    | (with_reducible apply State.event_keeps) | (with_reducible apply ite_keeps)
    | (with_reducible apply ite_fst_keeps) | (with_reducible apply ite_snd_keeps)
    | (with_reducible apply foldl_keeps) | (with_reducible apply forEach_keeps)
    | (with_reducible refine keeps_fst (by assumption) ?_)
    | (with_reducible refine keeps_snd (by assumption) ?_)
    | (with_reducible refine keeps_thd (by assumption) ?_)
    | (with_reducible refine keeps_fth (by assumption) ?_) | (dsimp only) | split
    | ((conv => arg 3; arg 26); with_reducible refine keeps_mk ?_ rfl rfl rfl rfl rfl))

theorem State.posted_keeps {s : State} (f : Nat) (off : Nat) {k : Sys2Proof.Machine.State →
    Sys2Proof.Machine.State} (hs : Keeps p z s) (hk : ∀ (y0 : Sys2Proof.Machine.State), Keeps p z y0 → Keeps p z (k
    y0)) : Keeps p z (State.posted s f off k) := by
  unfold State.posted
  try dsimp only [okA, okRes, failA, laterA]
  repeat' (first
    | (with_reducible assumption) | (intro _) | (with_reducible apply State.faultFn_keeps)
    | (with_reducible apply hk) | (with_reducible apply ite_keeps) | (with_reducible apply ite_fst_keeps)
    | (with_reducible apply ite_snd_keeps) | (with_reducible apply foldl_keeps)
    | (with_reducible apply forEach_keeps) | (with_reducible refine keeps_fst (by assumption) ?_)
    | (with_reducible refine keeps_snd (by assumption) ?_)
    | (with_reducible refine keeps_thd (by assumption) ?_)
    | (with_reducible refine keeps_fth (by assumption) ?_) | (dsimp only) | split
    | ((conv => arg 3; arg 26); with_reducible refine keeps_mk ?_ rfl rfl rfl rfl rfl))

end Sys2Proof.Machine
end

