-- ==== Sys2Proof/Laws/KeepsPeg.lean ====
section
/-!
SUPPORT. Every operation of Machine/Peg.lean keeps the queue, the canonical form and the blown fuses.
-/
namespace Sys2Proof.Machine

variable {p : List Instr} {z : Fuses}

/-- The state in what a request for a buffer finds. -/
def takenState : Taken → State
  | .buffer _ s => s
  | .none s => s
  | .offline s => s

theorem keeps_buffer {r : Taken} {b : Nat} {t : State} (e : r = .buffer b t) (h : Keeps p z (takenState r)) : Keeps
    p z t := by
  subst e; exact h

theorem keeps_none {r : Taken} {t : State} (e : r = .none t) (h : Keeps p z (takenState r)) : Keeps p z t := by
  subst e; exact h

theorem keeps_offline {r : Taken} {t : State} (e : r = .offline t) (h : Keeps p z (takenState r)) : Keeps p z t :=
    by
  subst e; exact h

theorem keepsBuffer {b : Nat} {t : State} (h : Keeps p z t) : Keeps p z (takenState (.buffer b t)) := h
theorem keepsNone {t : State} (h : Keeps p z t) : Keeps p z (takenState (.none t)) := h
theorem keepsOffline {t : State} (h : Keeps p z t) : Keeps p z (takenState (.offline t)) := h

theorem State.setPool_keeps {s : State} (x : Nat) (x2 : Sys2Proof.Machine.PoolSt) (hs : Keeps p z s) : Keeps p z
    (State.setPool s x x2) := by
  unfold State.setPool
  try dsimp only [okA, okRes, failA, laterA]
  repeat' (first
    | (with_reducible assumption) | (intro _) | (with_reducible apply ite_keeps)
    | (with_reducible apply ite_fst_keeps) | (with_reducible apply ite_snd_keeps)
    | (with_reducible apply foldl_keeps) | (with_reducible apply forEach_keeps)
    | (with_reducible refine keeps_fst (by assumption) ?_)
    | (with_reducible refine keeps_snd (by assumption) ?_)
    | (with_reducible refine keeps_thd (by assumption) ?_)
    | (with_reducible refine keeps_fth (by assumption) ?_) | (dsimp only) | split
    | ((conv => arg 3; arg 26); with_reducible refine keeps_mk ?_ rfl rfl rfl rfl rfl))

theorem State.acctMake_keeps {s : State} (x : Nat) (c : Nat) (hs : Keeps p z s) {r'} {t' : State} (e :
    State.acctMake s x c = some (r', t')) : Keeps p z t' := by
  unfold State.acctMake at e
  repeat' (first
    | cases e | contradiction | split at e | (dsimp only at e)
    | (simp only [Option.map_eq_some_iff] at e; obtain ⟨_, _, e⟩ := e; cases e))
  all_goals
    try dsimp only
    repeat' (first
      | (with_reducible assumption) | (intro _) | (with_reducible apply State.wr_keeps)
      | (with_reducible apply ite_keeps) | (with_reducible apply ite_fst_keeps)
      | (with_reducible apply ite_snd_keeps) | (with_reducible apply foldl_keeps)
      | (with_reducible apply forEach_keeps) | (with_reducible refine keeps_fst (by assumption) ?_)
      | (with_reducible refine keeps_snd (by assumption) ?_)
      | (with_reducible refine keeps_thd (by assumption) ?_)
      | (with_reducible refine keeps_fth (by assumption) ?_) | (dsimp only) | split
      | ((conv => arg 3; arg 26); with_reducible refine keeps_mk ?_ rfl rfl rfl rfl rfl))

theorem State.poolReport_keeps {s : State} (x : Nat) (hs : Keeps p z s) : Keeps p z (State.poolReport s x) := by
  unfold State.poolReport
  try dsimp only [okA, okRes, failA, laterA]
  repeat' (first
    | (with_reducible assumption) | (intro _) | (with_reducible apply State.wr_keeps)
    | (with_reducible apply ite_keeps) | (with_reducible apply ite_fst_keeps)
    | (with_reducible apply ite_snd_keeps) | (with_reducible apply foldl_keeps)
    | (with_reducible apply forEach_keeps) | (with_reducible refine keeps_fst (by assumption) ?_)
    | (with_reducible refine keeps_snd (by assumption) ?_)
    | (with_reducible refine keeps_thd (by assumption) ?_)
    | (with_reducible refine keeps_fth (by assumption) ?_) | (dsimp only) | split
    | ((conv => arg 3; arg 26); with_reducible refine keeps_mk ?_ rfl rfl rfl rfl rfl))

theorem State.acctTidy_keeps {s : State} (x : Nat) (hs : Keeps p z s) : Keeps p z (State.acctTidy s x) := by
  unfold State.acctTidy
  try dsimp only [okA, okRes, failA, laterA]
  repeat' (first
    | (with_reducible assumption) | (intro _) | (with_reducible apply forEach_keeps)
    | (with_reducible apply State.setReg_keeps) | (with_reducible apply ite_keeps)
    | (with_reducible apply ite_fst_keeps) | (with_reducible apply ite_snd_keeps)
    | (with_reducible apply foldl_keeps) | (with_reducible apply forEach_keeps)
    | (with_reducible refine keeps_fst (by assumption) ?_)
    | (with_reducible refine keeps_snd (by assumption) ?_)
    | (with_reducible refine keeps_thd (by assumption) ?_)
    | (with_reducible refine keeps_fth (by assumption) ?_) | (dsimp only) | split
    | ((conv => arg 3; arg 26); with_reducible refine keeps_mk ?_ rfl rfl rfl rfl rfl))

theorem State.poolWrite_keeps {s : State} (x : Nat) (a : Nat) (bs : List Sys2Proof.Byte) (hs : Keeps p z s) : Keeps
    p z (State.poolWrite s x a bs) := by
  unfold State.poolWrite
  try dsimp only [okA, okRes, failA, laterA]
  repeat' (first
    | (with_reducible assumption) | (intro _) | (with_reducible apply State.dramWr_keeps)
    | (with_reducible apply State.hostWr_keeps) | (with_reducible apply ite_keeps)
    | (with_reducible apply ite_fst_keeps) | (with_reducible apply ite_snd_keeps)
    | (with_reducible apply foldl_keeps) | (with_reducible apply forEach_keeps)
    | (with_reducible refine keeps_fst (by assumption) ?_)
    | (with_reducible refine keeps_snd (by assumption) ?_)
    | (with_reducible refine keeps_thd (by assumption) ?_)
    | (with_reducible refine keeps_fth (by assumption) ?_) | (dsimp only) | split
    | ((conv => arg 3; arg 26); with_reducible refine keeps_mk ?_ rfl rfl rfl rfl rfl))

theorem State.linkFails_keeps {s : State} (x : Nat) (link : Nat) (hs : Keeps p z s) : Keeps p z (State.linkFails s
    x link) := by
  unfold State.linkFails
  try dsimp only [okA, okRes, failA, laterA]
  repeat' (first
    | (with_reducible assumption) | (intro _) | (with_reducible apply State.fault_keeps)
    | (with_reducible apply State.event_keeps) | (with_reducible apply State.wr_keeps)
    | (with_reducible apply State.setPool_keeps) | (with_reducible apply ite_keeps)
    | (with_reducible apply ite_fst_keeps) | (with_reducible apply ite_snd_keeps)
    | (with_reducible apply foldl_keeps) | (with_reducible apply forEach_keeps)
    | (with_reducible refine keeps_fst (by assumption) ?_)
    | (with_reducible refine keeps_snd (by assumption) ?_)
    | (with_reducible refine keeps_thd (by assumption) ?_)
    | (with_reducible refine keeps_fth (by assumption) ?_) | (dsimp only) | split
    | ((conv => arg 3; arg 26); with_reducible refine keeps_mk ?_ rfl rfl rfl rfl rfl))

theorem State.listPop_keeps {s : State} (x : Nat) (hs : Keeps p z s) : Keeps p z (State.listPop s x) := by
  unfold State.listPop
  try dsimp only [okA, okRes, failA, laterA]
  repeat' (first
    | (with_reducible assumption) | (intro _) | (with_reducible apply State.setPool_keeps)
    | (with_reducible apply State.linkFails_keeps) | (with_reducible apply ite_keeps)
    | (with_reducible apply ite_fst_keeps) | (with_reducible apply ite_snd_keeps)
    | (with_reducible apply foldl_keeps) | (with_reducible apply forEach_keeps)
    | (with_reducible refine keeps_fst (by assumption) ?_)
    | (with_reducible refine keeps_snd (by assumption) ?_)
    | (with_reducible refine keeps_thd (by assumption) ?_)
    | (with_reducible refine keeps_fth (by assumption) ?_) | (dsimp only) | split
    | ((conv => arg 3; arg 26); with_reducible refine keeps_mk ?_ rfl rfl rfl rfl rfl))

theorem State.linkLost_keeps {s : State} (x : Nat) (hs : Keeps p z s) : Keeps p z (State.linkLost s x) := by
  unfold State.linkLost
  try dsimp only [okA, okRes, failA, laterA]
  repeat' (first
    | (with_reducible assumption) | (intro _) | (with_reducible apply State.draw_keeps)
    | (with_reducible apply State.poolReport_keeps) | (with_reducible apply State.linkFails_keeps)
    | (with_reducible apply ite_keeps) | (with_reducible apply ite_fst_keeps)
    | (with_reducible apply ite_snd_keeps) | (with_reducible apply foldl_keeps)
    | (with_reducible apply forEach_keeps) | (with_reducible refine keeps_fst (by assumption) ?_)
    | (with_reducible refine keeps_snd (by assumption) ?_)
    | (with_reducible refine keeps_thd (by assumption) ?_)
    | (with_reducible refine keeps_fth (by assumption) ?_) | (dsimp only) | split
    | ((conv => arg 3; arg 26); with_reducible refine keeps_mk ?_ rfl rfl rfl rfl rfl))

theorem State.listTimeout_keeps {s : State} (x : Nat) (hs : Keeps p z s) : Keeps p z (State.listTimeout s x) := by
  unfold State.listTimeout
  try dsimp only [okA, okRes, failA, laterA]
  repeat' (first
    | (with_reducible assumption) | (intro _) | (with_reducible apply State.linkLost_keeps)
    | (with_reducible apply ite_keeps) | (with_reducible apply ite_fst_keeps)
    | (with_reducible apply ite_snd_keeps) | (with_reducible apply foldl_keeps)
    | (with_reducible apply forEach_keeps) | (with_reducible refine keeps_fst (by assumption) ?_)
    | (with_reducible refine keeps_snd (by assumption) ?_)
    | (with_reducible refine keeps_thd (by assumption) ?_)
    | (with_reducible refine keeps_fth (by assumption) ?_) | (dsimp only) | split
    | ((conv => arg 3; arg 26); with_reducible refine keeps_mk ?_ rfl rfl rfl rfl rfl))

theorem State.refill_keeps {s : State} (x : Nat) (x2 : Nat) (hs : Keeps p z s) : Keeps p z (State.refill s x x2) :=
    by
  induction x2 generalizing s x with
  | zero | succ n ih =>
    unfold State.refill
    try dsimp only [okA, okRes, failA, laterA]
    repeat' (first
      | (with_reducible assumption) | (intro _) | (with_reducible apply ih)
      | (with_reducible apply State.listPop_keeps) | (with_reducible apply ite_keeps)
      | (with_reducible apply ite_fst_keeps) | (with_reducible apply ite_snd_keeps)
      | (with_reducible apply foldl_keeps) | (with_reducible apply forEach_keeps)
      | (with_reducible refine keeps_fst (by assumption) ?_)
      | (with_reducible refine keeps_snd (by assumption) ?_)
      | (with_reducible refine keeps_thd (by assumption) ?_)
      | (with_reducible refine keeps_fth (by assumption) ?_) | (dsimp only) | split
      | ((conv => arg 3; arg 26); with_reducible refine keeps_mk ?_ rfl rfl rfl rfl rfl))

theorem State.topUp_keeps {s : State} (x : Nat) (hs : Keeps p z s) : Keeps p z (State.topUp s x) := by
  unfold State.topUp
  try dsimp only [okA, okRes, failA, laterA]
  repeat' (first
    | (with_reducible assumption) | (intro _) | (with_reducible apply State.refill_keeps)
    | (with_reducible apply ite_keeps) | (with_reducible apply ite_fst_keeps)
    | (with_reducible apply ite_snd_keeps) | (with_reducible apply foldl_keeps)
    | (with_reducible apply forEach_keeps) | (with_reducible refine keeps_fst (by assumption) ?_)
    | (with_reducible refine keeps_snd (by assumption) ?_)
    | (with_reducible refine keeps_thd (by assumption) ?_)
    | (with_reducible refine keeps_fth (by assumption) ?_) | (dsimp only) | split
    | ((conv => arg 3; arg 26); with_reducible refine keeps_mk ?_ rfl rfl rfl rfl rfl))

theorem State.take_keeps {s : State} (x : Nat) (hs : Keeps p z s) : Keeps p z (takenState (State.take s x)) := by
  unfold State.take
  try dsimp only [okA, okRes, failA, laterA]
  repeat' (first
    | (with_reducible assumption) | (intro _) | (with_reducible apply State.topUp_keeps)
    | (with_reducible apply State.setPool_keeps) | (with_reducible apply State.wr_keeps)
    | (with_reducible apply ite_keeps) | (with_reducible apply ite_fst_keeps)
    | (with_reducible apply ite_snd_keeps) | (with_reducible apply foldl_keeps)
    | (with_reducible apply forEach_keeps) | (with_reducible refine keeps_fst (by assumption) ?_)
    | (with_reducible refine keeps_snd (by assumption) ?_)
    | (with_reducible refine keeps_thd (by assumption) ?_)
    | (with_reducible refine keeps_fth (by assumption) ?_)
    | (with_reducible refine keeps_buffer (by assumption) ?_)
    | (with_reducible refine keeps_none (by assumption) ?_)
    | (with_reducible refine keeps_offline (by assumption) ?_) | (with_reducible apply keepsBuffer)
    | (with_reducible apply keepsNone) | (with_reducible apply keepsOffline) | (dsimp only) | split
    | ((conv => arg 3; arg 26); with_reducible refine keeps_mk ?_ rfl rfl rfl rfl rfl))

theorem State.listPush_keeps {s : State} (x : Nat) (a : Nat) (hs : Keeps p z s) : Keeps p z (State.listPush s x a)
    := by
  unfold State.listPush
  try dsimp only [okA, okRes, failA, laterA]
  repeat' (first
    | (with_reducible assumption) | (intro _) | (with_reducible apply State.setPool_keeps)
    | (with_reducible apply State.poolWrite_keeps) | (with_reducible apply ite_keeps)
    | (with_reducible apply ite_fst_keeps) | (with_reducible apply ite_snd_keeps)
    | (with_reducible apply foldl_keeps) | (with_reducible apply forEach_keeps)
    | (with_reducible refine keeps_fst (by assumption) ?_)
    | (with_reducible refine keeps_snd (by assumption) ?_)
    | (with_reducible refine keeps_thd (by assumption) ?_)
    | (with_reducible refine keeps_fth (by assumption) ?_) | (dsimp only) | split
    | ((conv => arg 3; arg 26); with_reducible refine keeps_mk ?_ rfl rfl rfl rfl rfl))

theorem State.spillCache_keeps {s : State} (x : Nat) (x2 : Nat) (hs : Keeps p z s) : Keeps p z (State.spillCache s
    x x2) := by
  induction x2 generalizing s x with
  | zero | succ n ih =>
    unfold State.spillCache
    try dsimp only [okA, okRes, failA, laterA]
    repeat' (first
      | (with_reducible assumption) | (intro _) | (with_reducible apply ih)
      | (with_reducible apply State.listPush_keeps) | (with_reducible apply ite_keeps)
      | (with_reducible apply ite_fst_keeps) | (with_reducible apply ite_snd_keeps)
      | (with_reducible apply foldl_keeps) | (with_reducible apply forEach_keeps)
      | (with_reducible refine keeps_fst (by assumption) ?_)
      | (with_reducible refine keeps_snd (by assumption) ?_)
      | (with_reducible refine keeps_thd (by assumption) ?_)
      | (with_reducible refine keeps_fth (by assumption) ?_) | (dsimp only) | split
      | ((conv => arg 3; arg 26); with_reducible refine keeps_mk ?_ rfl rfl rfl rfl rfl))

theorem State.release_keeps {s : State} (x : Nat) (a : Nat) (hs : Keeps p z s) : Keeps p z (State.release s x a) :=
    by
  unfold State.release
  try dsimp only [okA, okRes, failA, laterA]
  repeat' (first
    | (with_reducible assumption) | (intro _) | (with_reducible apply State.setPool_keeps)
    | (with_reducible apply State.spillCache_keeps) | (with_reducible apply State.topUp_keeps)
    | (with_reducible apply ite_keeps) | (with_reducible apply ite_fst_keeps)
    | (with_reducible apply ite_snd_keeps) | (with_reducible apply foldl_keeps)
    | (with_reducible apply forEach_keeps) | (with_reducible refine keeps_fst (by assumption) ?_)
    | (with_reducible refine keeps_snd (by assumption) ?_)
    | (with_reducible refine keeps_thd (by assumption) ?_)
    | (with_reducible refine keeps_fth (by assumption) ?_) | (dsimp only) | split
    | ((conv => arg 3; arg 26); with_reducible refine keeps_mk ?_ rfl rfl rfl rfl rfl))

theorem State.addHeld_keeps {s : State} (x : Nat) (a : Nat) (d : Int) (hs : Keeps p z s) : Keeps p z (State.addHeld
    s x a d) := by
  unfold State.addHeld
  try dsimp only [okA, okRes, failA, laterA]
  repeat' (first
    | (with_reducible assumption) | (intro _) | (with_reducible apply State.wr_keeps)
    | (with_reducible apply ite_keeps) | (with_reducible apply ite_fst_keeps)
    | (with_reducible apply ite_snd_keeps) | (with_reducible apply foldl_keeps)
    | (with_reducible apply forEach_keeps) | (with_reducible refine keeps_fst (by assumption) ?_)
    | (with_reducible refine keeps_snd (by assumption) ?_)
    | (with_reducible refine keeps_thd (by assumption) ?_)
    | (with_reducible refine keeps_fth (by assumption) ?_) | (dsimp only) | split
    | ((conv => arg 3; arg 26); with_reducible refine keeps_mk ?_ rfl rfl rfl rfl rfl))

theorem State.serve_keeps {s : State} (x : Nat) (c : Nat) (hs : Keeps p z s) : Keeps p z (takenState (State.serve s
    x c)) := by
  unfold State.serve
  try dsimp only [okA, okRes, failA, laterA]
  repeat' (first
    | (with_reducible assumption) | (intro _)
    | (with_reducible apply State.acctMake_keeps (e := by assumption))
    | (with_reducible apply State.take_keeps) | (with_reducible apply State.poolReport_keeps)
    | (with_reducible apply State.addHeld_keeps) | (with_reducible apply ite_keeps)
    | (with_reducible apply ite_fst_keeps) | (with_reducible apply ite_snd_keeps)
    | (with_reducible apply foldl_keeps) | (with_reducible apply forEach_keeps)
    | (with_reducible refine keeps_fst (by assumption) ?_)
    | (with_reducible refine keeps_snd (by assumption) ?_)
    | (with_reducible refine keeps_thd (by assumption) ?_)
    | (with_reducible refine keeps_fth (by assumption) ?_)
    | (with_reducible refine keeps_buffer (by assumption) ?_)
    | (with_reducible refine keeps_none (by assumption) ?_)
    | (with_reducible refine keeps_offline (by assumption) ?_) | (with_reducible apply keepsBuffer)
    | (with_reducible apply keepsNone) | (with_reducible apply keepsOffline) | (dsimp only) | split
    | ((conv => arg 3; arg 26); with_reducible refine keeps_mk ?_ rfl rfl rfl rfl rfl))

theorem State.grantOne_keeps {s : State} (x : Nat) (hs : Keeps p z s) : Keeps p z (State.grantOne s x) := by
  unfold State.grantOne
  try dsimp only [okA, okRes, failA, laterA]
  repeat' (first
    | (with_reducible assumption) | (intro _) | (with_reducible apply State.serve_keeps)
    | (with_reducible apply State.setQueue_keeps) | (with_reducible apply State.setPool_keeps)
    | (with_reducible apply ite_keeps) | (with_reducible apply ite_fst_keeps)
    | (with_reducible apply ite_snd_keeps) | (with_reducible apply foldl_keeps)
    | (with_reducible apply forEach_keeps) | (with_reducible refine keeps_fst (by assumption) ?_)
    | (with_reducible refine keeps_snd (by assumption) ?_)
    | (with_reducible refine keeps_thd (by assumption) ?_)
    | (with_reducible refine keeps_fth (by assumption) ?_)
    | (with_reducible refine keeps_buffer (by assumption) ?_)
    | (with_reducible refine keeps_none (by assumption) ?_)
    | (with_reducible refine keeps_offline (by assumption) ?_) | (with_reducible apply keepsBuffer)
    | (with_reducible apply keepsNone) | (with_reducible apply keepsOffline) | (dsimp only) | split
    | ((conv => arg 3; arg 26); with_reducible refine keeps_mk ?_ rfl rfl rfl rfl rfl))

theorem State.grantAll_keeps {s : State} (x : Nat) (hs : Keeps p z s) : Keeps p z (State.grantAll s x) := by
  unfold State.grantAll
  try dsimp only [okA, okRes, failA, laterA]
  repeat' (first
    | (with_reducible assumption) | (intro _) | (with_reducible apply forEach_keeps)
    | (with_reducible apply State.grantOne_keeps) | (with_reducible apply ite_keeps)
    | (with_reducible apply ite_fst_keeps) | (with_reducible apply ite_snd_keeps)
    | (with_reducible apply foldl_keeps) | (with_reducible apply forEach_keeps)
    | (with_reducible refine keeps_fst (by assumption) ?_)
    | (with_reducible refine keeps_snd (by assumption) ?_)
    | (with_reducible refine keeps_thd (by assumption) ?_)
    | (with_reducible refine keeps_fth (by assumption) ?_) | (dsimp only) | split
    | ((conv => arg 3; arg 26); with_reducible refine keeps_mk ?_ rfl rfl rfl rfl rfl))

theorem State.giveBack_keeps {s : State} (x : Nat) (i : Nat) (a : Nat) (hs : Keeps p z s) : Keeps p z
    (State.giveBack s x i a) := by
  unfold State.giveBack
  try dsimp only [okA, okRes, failA, laterA]
  repeat' (first
    | (with_reducible assumption) | (intro _) | (with_reducible apply State.addHeld_keeps)
    | (with_reducible apply State.poolReport_keeps) | (with_reducible apply State.acctTidy_keeps)
    | (with_reducible apply State.release_keeps) | (with_reducible apply ite_keeps)
    | (with_reducible apply ite_fst_keeps) | (with_reducible apply ite_snd_keeps)
    | (with_reducible apply foldl_keeps) | (with_reducible apply forEach_keeps)
    | (with_reducible refine keeps_fst (by assumption) ?_)
    | (with_reducible refine keeps_snd (by assumption) ?_)
    | (with_reducible refine keeps_thd (by assumption) ?_)
    | (with_reducible refine keeps_fth (by assumption) ?_) | (dsimp only) | split
    | ((conv => arg 3; arg 26); with_reducible refine keeps_mk ?_ rfl rfl rfl rfl rfl))

theorem State.pegGate_keeps {s : State} (j : Sys2Proof.Job) (spans : List (Nat × Nat)) (created : Bool) {body :
    Sys2Proof.Machine.State → Nat → Sys2Proof.Machine.Answer} (hs : Keeps p z s) (hbody : ∀ (y0 :
    Sys2Proof.Machine.State) (y1 : Nat), Keeps p z y0 → Keeps p z (body y0 y1).1) : Keeps p z (State.pegGate s j
    spans created body).1 := by
  unfold State.pegGate
  try dsimp only [okA, okRes, failA, laterA]
  repeat' (first
    | (with_reducible assumption) | (intro _) | (with_reducible apply failA_keeps)
    | (with_reducible apply hbody) | (with_reducible apply ite_keeps) | (with_reducible apply ite_fst_keeps)
    | (with_reducible apply ite_snd_keeps) | (with_reducible apply foldl_keeps)
    | (with_reducible apply forEach_keeps) | (with_reducible refine keeps_fst (by assumption) ?_)
    | (with_reducible refine keeps_snd (by assumption) ?_)
    | (with_reducible refine keeps_thd (by assumption) ?_)
    | (with_reducible refine keeps_fth (by assumption) ?_) | (dsimp only) | split
    | ((conv => arg 3; arg 26); with_reducible refine keeps_mk ?_ rfl rfl rfl rfl rfl))

theorem pegCreate_keeps (j : Sys2Proof.Job) {s : State} (hs : Keeps p z s) : Keeps p z (pegCreate j s).1 := by
  unfold pegCreate
  try dsimp only [okA, okRes, failA, laterA]
  repeat' (first
    | (with_reducible assumption) | (intro _) | (with_reducible apply State.pegGate_keeps)
    | (with_reducible apply failA_keeps) | (with_reducible apply State.setReg_keeps)
    | (with_reducible apply State.wr_keeps) | (with_reducible apply okA_keeps)
    | (with_reducible apply State.poolReport_keeps) | (with_reducible apply State.setPool_keeps)
    | (with_reducible apply ite_keeps) | (with_reducible apply ite_fst_keeps)
    | (with_reducible apply ite_snd_keeps) | (with_reducible apply foldl_keeps)
    | (with_reducible apply forEach_keeps) | (with_reducible refine keeps_fst (by assumption) ?_)
    | (with_reducible refine keeps_snd (by assumption) ?_)
    | (with_reducible refine keeps_thd (by assumption) ?_)
    | (with_reducible refine keeps_fth (by assumption) ?_) | (dsimp only) | split
    | ((conv => arg 3; arg 26); with_reducible refine keeps_mk ?_ rfl rfl rfl rfl rfl))

theorem State.poolDrop_keeps {s : State} (x : Nat) (hs : Keeps p z s) : Keeps p z (State.poolDrop s x) := by
  unfold State.poolDrop
  try dsimp only [okA, okRes, failA, laterA]
  repeat' (first
    | (with_reducible assumption) | (intro _) | (with_reducible apply forEach_keeps)
    | (with_reducible apply State.setReg_keeps) | (with_reducible apply State.setPool_keeps)
    | (with_reducible apply State.wr_keeps) | (with_reducible apply ite_keeps)
    | (with_reducible apply ite_fst_keeps) | (with_reducible apply ite_snd_keeps)
    | (with_reducible apply foldl_keeps) | (with_reducible apply forEach_keeps)
    | (with_reducible refine keeps_fst (by assumption) ?_)
    | (with_reducible refine keeps_snd (by assumption) ?_)
    | (with_reducible refine keeps_thd (by assumption) ?_)
    | (with_reducible refine keeps_fth (by assumption) ?_) | (dsimp only) | split
    | ((conv => arg 3; arg 26); with_reducible refine keeps_mk ?_ rfl rfl rfl rfl rfl))

theorem pegDestroy_keeps (j : Sys2Proof.Job) {s : State} (hs : Keeps p z s) : Keeps p z (pegDestroy j s).1 := by
  unfold pegDestroy
  try dsimp only [okA, okRes, failA, laterA]
  repeat' (first
    | (with_reducible assumption) | (intro _) | (with_reducible apply State.pegGate_keeps)
    | (with_reducible apply failA_keeps) | (with_reducible apply okA_keeps)
    | (with_reducible apply State.poolDrop_keeps) | (with_reducible apply ite_keeps)
    | (with_reducible apply ite_fst_keeps) | (with_reducible apply ite_snd_keeps)
    | (with_reducible apply foldl_keeps) | (with_reducible apply forEach_keeps)
    | (with_reducible refine keeps_fst (by assumption) ?_)
    | (with_reducible refine keeps_snd (by assumption) ?_)
    | (with_reducible refine keeps_thd (by assumption) ?_)
    | (with_reducible refine keeps_fth (by assumption) ?_) | (dsimp only) | split
    | ((conv => arg 3; arg 26); with_reducible refine keeps_mk ?_ rfl rfl rfl rfl rfl))

theorem pegReserve_keeps (j : Sys2Proof.Job) {s : State} (hs : Keeps p z s) : Keeps p z (pegReserve j s).1 := by
  unfold pegReserve
  try dsimp only [okA, okRes, failA, laterA]
  repeat' (first
    | (with_reducible assumption) | (intro _) | (with_reducible apply State.pegGate_keeps)
    | (with_reducible apply failA_keeps) | (with_reducible apply okRes_keeps)
    | (with_reducible apply State.acctMake_keeps (e := by assumption))
    | (with_reducible apply State.poolReport_keeps) | (with_reducible apply State.acctTidy_keeps)
    | (with_reducible apply State.wr_keeps) | (with_reducible apply ite_keeps)
    | (with_reducible apply ite_fst_keeps) | (with_reducible apply ite_snd_keeps)
    | (with_reducible apply foldl_keeps) | (with_reducible apply forEach_keeps)
    | (with_reducible refine keeps_fst (by assumption) ?_)
    | (with_reducible refine keeps_snd (by assumption) ?_)
    | (with_reducible refine keeps_thd (by assumption) ?_)
    | (with_reducible refine keeps_fth (by assumption) ?_) | (dsimp only) | split
    | ((conv => arg 3; arg 26); with_reducible refine keeps_mk ?_ rfl rfl rfl rfl rfl))

theorem State.allocN_keeps {s : State} (x : Nat) (x2 : Nat) (x3 : List Nat) (hs : Keeps p z s) : Keeps p z
    (State.allocN s x x2 x3).2.2 := by
  induction x2 generalizing s x x3 with
  | zero | succ n ih =>
    unfold State.allocN
    try dsimp only [okA, okRes, failA, laterA]
    repeat' (first
      | (with_reducible assumption) | (intro _) | (with_reducible apply ih)
      | (with_reducible apply State.serve_keeps) | (with_reducible apply ite_keeps)
      | (with_reducible apply ite_fst_keeps) | (with_reducible apply ite_snd_keeps)
      | (with_reducible apply foldl_keeps) | (with_reducible apply forEach_keeps)
      | (with_reducible refine keeps_fst (by assumption) ?_)
      | (with_reducible refine keeps_snd (by assumption) ?_)
      | (with_reducible refine keeps_thd (by assumption) ?_)
      | (with_reducible refine keeps_fth (by assumption) ?_)
      | (with_reducible refine keeps_buffer (by assumption) ?_)
      | (with_reducible refine keeps_none (by assumption) ?_)
      | (with_reducible refine keeps_offline (by assumption) ?_) | (with_reducible apply keepsBuffer)
      | (with_reducible apply keepsNone) | (with_reducible apply keepsOffline) | (dsimp only) | split
      | ((conv => arg 3; arg 26); with_reducible refine keeps_mk ?_ rfl rfl rfl rfl rfl))

theorem State.untake_keeps {s : State} (x : Nat) (fresh : Nat) (a : Nat) (hs : Keeps p z s) : Keeps p z
    (State.untake s x fresh a) := by
  unfold State.untake
  try dsimp only [okA, okRes, failA, laterA]
  repeat' (first
    | (with_reducible assumption) | (intro _) | (with_reducible apply State.addHeld_keeps)
    | (with_reducible apply State.wr_keeps) | (with_reducible apply State.release_keeps)
    | (with_reducible apply ite_keeps) | (with_reducible apply ite_fst_keeps)
    | (with_reducible apply ite_snd_keeps) | (with_reducible apply foldl_keeps)
    | (with_reducible apply forEach_keeps) | (with_reducible refine keeps_fst (by assumption) ?_)
    | (with_reducible refine keeps_snd (by assumption) ?_)
    | (with_reducible refine keeps_thd (by assumption) ?_)
    | (with_reducible refine keeps_fth (by assumption) ?_) | (dsimp only) | split
    | ((conv => arg 3; arg 26); with_reducible refine keeps_mk ?_ rfl rfl rfl rfl rfl))

theorem pegAlloc_keeps (j : Sys2Proof.Job) {s : State} (hs : Keeps p z s) : Keeps p z (pegAlloc j s).1 := by
  unfold pegAlloc
  try dsimp only [okA, okRes, failA, laterA]
  repeat' (first
    | (with_reducible assumption) | (intro _) | (with_reducible apply State.pegGate_keeps)
    | (with_reducible apply failA_keeps) | (with_reducible apply State.grantAll_keeps)
    | (with_reducible apply State.allocN_keeps) | (with_reducible apply okRes_keeps)
    | (with_reducible apply State.jobWrite_keeps) | (with_reducible apply State.poolReport_keeps)
    | (with_reducible apply forEach_keeps) | (with_reducible apply State.untake_keeps)
    | (with_reducible apply ite_keeps) | (with_reducible apply ite_fst_keeps)
    | (with_reducible apply ite_snd_keeps) | (with_reducible apply foldl_keeps)
    | (with_reducible apply forEach_keeps) | (with_reducible refine keeps_fst (by assumption) ?_)
    | (with_reducible refine keeps_snd (by assumption) ?_)
    | (with_reducible refine keeps_thd (by assumption) ?_)
    | (with_reducible refine keeps_fth (by assumption) ?_) | (dsimp only) | split
    | ((conv => arg 3; arg 26); with_reducible refine keeps_mk ?_ rfl rfl rfl rfl rfl))

theorem pegFree_keeps (j : Sys2Proof.Job) {s : State} (hs : Keeps p z s) : Keeps p z (pegFree j s).1 := by
  unfold pegFree
  try dsimp only [okA, okRes, failA, laterA]
  repeat' (first
    | (with_reducible assumption) | (intro _) | (with_reducible apply State.pegGate_keeps)
    | (with_reducible apply failA_keeps) | (with_reducible apply State.countMoved_keeps)
    | (with_reducible apply okA_keeps) | (with_reducible apply forEach_keeps)
    | (with_reducible apply State.release_keeps) | (with_reducible apply State.addHeld_keeps)
    | (with_reducible apply State.poolReport_keeps) | (with_reducible apply State.acctTidy_keeps)
    | (with_reducible apply ite_keeps) | (with_reducible apply ite_fst_keeps)
    | (with_reducible apply ite_snd_keeps) | (with_reducible apply foldl_keeps)
    | (with_reducible apply forEach_keeps) | (with_reducible refine keeps_fst (by assumption) ?_)
    | (with_reducible refine keeps_snd (by assumption) ?_)
    | (with_reducible refine keeps_thd (by assumption) ?_)
    | (with_reducible refine keeps_fth (by assumption) ?_) | (dsimp only) | split
    | ((conv => arg 3; arg 26); with_reducible refine keeps_mk ?_ rfl rfl rfl rfl rfl))

theorem pegAudit_keeps (j : Sys2Proof.Job) {s : State} (hs : Keeps p z s) : Keeps p z (pegAudit j s).1 := by
  unfold pegAudit
  try dsimp only [okA, okRes, failA, laterA]
  repeat' (first
    | (with_reducible assumption) | (intro _) | (with_reducible apply State.pegGate_keeps)
    | (with_reducible apply failA_keeps) | (with_reducible apply State.setPool_keeps)
    | (with_reducible apply State.wr_keeps) | (with_reducible apply State.dramWr_keeps)
    | (with_reducible apply laterA_keeps) | (with_reducible apply ite_keeps)
    | (with_reducible apply ite_fst_keeps) | (with_reducible apply ite_snd_keeps)
    | (with_reducible apply foldl_keeps) | (with_reducible apply forEach_keeps)
    | (with_reducible refine keeps_fst (by assumption) ?_)
    | (with_reducible refine keeps_snd (by assumption) ?_)
    | (with_reducible refine keeps_thd (by assumption) ?_)
    | (with_reducible refine keeps_fth (by assumption) ?_) | (dsimp only) | split
    | ((conv => arg 3; arg 26); with_reducible refine keeps_mk ?_ rfl rfl rfl rfl rfl))

theorem State.auditDone_keeps {s : State} (au : Sys2Proof.Machine.AuditSt) (hs : Keeps p z s) : Keeps p z
    (State.auditDone s au) := by
  unfold State.auditDone
  try dsimp only [okA, okRes, failA, laterA]
  repeat' (first
    | (with_reducible assumption) | (intro _) | (with_reducible apply State.setPool_keeps)
    | (with_reducible apply State.poolWrite_keeps) | (with_reducible apply State.dramWr_keeps)
    | (with_reducible apply State.topUp_keeps) | (with_reducible apply State.jobWrite_keeps)
    | (with_reducible apply State.event_keeps) | (with_reducible apply State.fault_keeps)
    | (with_reducible apply State.poolReport_keeps) | (with_reducible apply State.wr_keeps)
    | (with_reducible apply State.complete_keeps) | (with_reducible apply ite_keeps)
    | (with_reducible apply ite_fst_keeps) | (with_reducible apply ite_snd_keeps)
    | (with_reducible apply foldl_keeps) | (with_reducible apply forEach_keeps)
    | (with_reducible refine keeps_fst (by assumption) ?_)
    | (with_reducible refine keeps_snd (by assumption) ?_)
    | (with_reducible refine keeps_thd (by assumption) ?_)
    | (with_reducible refine keeps_fth (by assumption) ?_) | (dsimp only) | split
    | ((conv => arg 3; arg 26); with_reducible refine keeps_mk ?_ rfl rfl rfl rfl rfl))

theorem pegQuery_keeps (j : Sys2Proof.Job) {s : State} (hs : Keeps p z s) : Keeps p z (pegQuery j s).1 := by
  unfold pegQuery
  try dsimp only [okA, okRes, failA, laterA]
  repeat' (first
    | (with_reducible assumption) | (intro _) | (with_reducible apply State.pegGate_keeps)
    | (with_reducible apply okRes_keeps) | (with_reducible apply State.jobWrite_keeps)
    | (with_reducible apply ite_keeps) | (with_reducible apply ite_fst_keeps)
    | (with_reducible apply ite_snd_keeps) | (with_reducible apply foldl_keeps)
    | (with_reducible apply forEach_keeps) | (with_reducible refine keeps_fst (by assumption) ?_)
    | (with_reducible refine keeps_snd (by assumption) ?_)
    | (with_reducible refine keeps_thd (by assumption) ?_)
    | (with_reducible refine keeps_fth (by assumption) ?_) | (dsimp only) | split
    | ((conv => arg 3; arg 26); with_reducible refine keeps_mk ?_ rfl rfl rfl rfl rfl))

theorem execPegPoolCreate_keeps (j : Sys2Proof.Job) {s : State} (hs : Keeps p z s) {t' : State} (e :
    execPegPoolCreate j s = .next t') : Keeps p z t' := by
  unfold execPegPoolCreate at e
  repeat' (first | cases e | split at e | (dsimp only at e))
  all_goals
    try dsimp only
    repeat' (first
      | (with_reducible assumption) | (intro _) | (with_reducible apply jobRow_keeps (e := by assumption))
      | (with_reducible apply pegCreate_keeps) | (with_reducible apply State.runJob_keeps)
      | (with_reducible apply State.runJob_keeps) | (with_reducible apply ite_keeps)
      | (with_reducible apply ite_fst_keeps) | (with_reducible apply ite_snd_keeps)
      | (with_reducible apply foldl_keeps) | (with_reducible apply forEach_keeps)
      | (with_reducible refine keeps_fst (by assumption) ?_)
      | (with_reducible refine keeps_snd (by assumption) ?_)
      | (with_reducible refine keeps_thd (by assumption) ?_)
      | (with_reducible refine keeps_fth (by assumption) ?_) | (dsimp only) | split
      | ((conv => arg 3; arg 26); with_reducible refine keeps_mk ?_ rfl rfl rfl rfl rfl))

theorem execPegPoolDestroy_keeps (j : Sys2Proof.Job) {s : State} (hs : Keeps p z s) {t' : State} (e :
    execPegPoolDestroy j s = .next t') : Keeps p z t' := by
  unfold execPegPoolDestroy at e
  repeat' (first | cases e | split at e | (dsimp only at e))
  all_goals
    try dsimp only
    repeat' (first
      | (with_reducible assumption) | (intro _) | (with_reducible apply jobRow_keeps (e := by assumption))
      | (with_reducible apply pegDestroy_keeps) | (with_reducible apply State.runJob_keeps)
      | (with_reducible apply State.runJob_keeps) | (with_reducible apply ite_keeps)
      | (with_reducible apply ite_fst_keeps) | (with_reducible apply ite_snd_keeps)
      | (with_reducible apply foldl_keeps) | (with_reducible apply forEach_keeps)
      | (with_reducible refine keeps_fst (by assumption) ?_)
      | (with_reducible refine keeps_snd (by assumption) ?_)
      | (with_reducible refine keeps_thd (by assumption) ?_)
      | (with_reducible refine keeps_fth (by assumption) ?_) | (dsimp only) | split
      | ((conv => arg 3; arg 26); with_reducible refine keeps_mk ?_ rfl rfl rfl rfl rfl))

theorem execPegReserve_keeps (j : Sys2Proof.Job) {s : State} (hs : Keeps p z s) {t' : State} (e : execPegReserve j
    s = .next t') : Keeps p z t' := by
  unfold execPegReserve at e
  repeat' (first | cases e | split at e | (dsimp only at e))
  all_goals
    try dsimp only
    repeat' (first
      | (with_reducible assumption) | (intro _) | (with_reducible apply jobRow_keeps (e := by assumption))
      | (with_reducible apply pegReserve_keeps) | (with_reducible apply State.runJob_keeps)
      | (with_reducible apply State.runJob_keeps) | (with_reducible apply ite_keeps)
      | (with_reducible apply ite_fst_keeps) | (with_reducible apply ite_snd_keeps)
      | (with_reducible apply foldl_keeps) | (with_reducible apply forEach_keeps)
      | (with_reducible refine keeps_fst (by assumption) ?_)
      | (with_reducible refine keeps_snd (by assumption) ?_)
      | (with_reducible refine keeps_thd (by assumption) ?_)
      | (with_reducible refine keeps_fth (by assumption) ?_) | (dsimp only) | split
      | ((conv => arg 3; arg 26); with_reducible refine keeps_mk ?_ rfl rfl rfl rfl rfl))

theorem execPegAlloc_keeps (j : Sys2Proof.Job) {s : State} (hs : Keeps p z s) {t' : State} (e : execPegAlloc j s =
    .next t') : Keeps p z t' := by
  unfold execPegAlloc at e
  repeat' (first | cases e | split at e | (dsimp only at e))
  all_goals
    try dsimp only
    repeat' (first
      | (with_reducible assumption) | (intro _) | (with_reducible apply jobRow_keeps (e := by assumption))
      | (with_reducible apply pegAlloc_keeps) | (with_reducible apply State.runJob_keeps)
      | (with_reducible apply State.runJob_keeps) | (with_reducible apply ite_keeps)
      | (with_reducible apply ite_fst_keeps) | (with_reducible apply ite_snd_keeps)
      | (with_reducible apply foldl_keeps) | (with_reducible apply forEach_keeps)
      | (with_reducible refine keeps_fst (by assumption) ?_)
      | (with_reducible refine keeps_snd (by assumption) ?_)
      | (with_reducible refine keeps_thd (by assumption) ?_)
      | (with_reducible refine keeps_fth (by assumption) ?_) | (dsimp only) | split
      | ((conv => arg 3; arg 26); with_reducible refine keeps_mk ?_ rfl rfl rfl rfl rfl))

theorem execPegFree_keeps (j : Sys2Proof.Job) {s : State} (hs : Keeps p z s) {t' : State} (e : execPegFree j s =
    .next t') : Keeps p z t' := by
  unfold execPegFree at e
  repeat' (first | cases e | split at e | (dsimp only at e))
  all_goals
    try dsimp only
    repeat' (first
      | (with_reducible assumption) | (intro _) | (with_reducible apply jobRow_keeps (e := by assumption))
      | (with_reducible apply pegFree_keeps) | (with_reducible apply State.runJob_keeps)
      | (with_reducible apply State.runJob_keeps) | (with_reducible apply ite_keeps)
      | (with_reducible apply ite_fst_keeps) | (with_reducible apply ite_snd_keeps)
      | (with_reducible apply foldl_keeps) | (with_reducible apply forEach_keeps)
      | (with_reducible refine keeps_fst (by assumption) ?_)
      | (with_reducible refine keeps_snd (by assumption) ?_)
      | (with_reducible refine keeps_thd (by assumption) ?_)
      | (with_reducible refine keeps_fth (by assumption) ?_) | (dsimp only) | split
      | ((conv => arg 3; arg 26); with_reducible refine keeps_mk ?_ rfl rfl rfl rfl rfl))

theorem execPegAudit_keeps (j : Sys2Proof.Job) {s : State} (hs : Keeps p z s) {t' : State} (e : execPegAudit j s =
    .next t') : Keeps p z t' := by
  unfold execPegAudit at e
  repeat' (first | cases e | split at e | (dsimp only at e))
  all_goals
    try dsimp only
    repeat' (first
      | (with_reducible assumption) | (intro _) | (with_reducible apply jobRow_keeps (e := by assumption))
      | (with_reducible apply pegAudit_keeps) | (with_reducible apply State.runJob_keeps)
      | (with_reducible apply State.runJob_keeps) | (with_reducible apply ite_keeps)
      | (with_reducible apply ite_fst_keeps) | (with_reducible apply ite_snd_keeps)
      | (with_reducible apply foldl_keeps) | (with_reducible apply forEach_keeps)
      | (with_reducible refine keeps_fst (by assumption) ?_)
      | (with_reducible refine keeps_snd (by assumption) ?_)
      | (with_reducible refine keeps_thd (by assumption) ?_)
      | (with_reducible refine keeps_fth (by assumption) ?_) | (dsimp only) | split
      | ((conv => arg 3; arg 26); with_reducible refine keeps_mk ?_ rfl rfl rfl rfl rfl))

theorem execPegQuery_keeps (j : Sys2Proof.Job) {s : State} (hs : Keeps p z s) {t' : State} (e : execPegQuery j s =
    .next t') : Keeps p z t' := by
  unfold execPegQuery at e
  repeat' (first | cases e | split at e | (dsimp only at e))
  all_goals
    try dsimp only
    repeat' (first
      | (with_reducible assumption) | (intro _) | (with_reducible apply jobRow_keeps (e := by assumption))
      | (with_reducible apply pegQuery_keeps) | (with_reducible apply State.runJob_keeps)
      | (with_reducible apply State.runJob_keeps) | (with_reducible apply ite_keeps)
      | (with_reducible apply ite_fst_keeps) | (with_reducible apply ite_snd_keeps)
      | (with_reducible apply foldl_keeps) | (with_reducible apply forEach_keeps)
      | (with_reducible refine keeps_fst (by assumption) ?_)
      | (with_reducible refine keeps_snd (by assumption) ?_)
      | (with_reducible refine keeps_thd (by assumption) ?_)
      | (with_reducible refine keeps_fth (by assumption) ?_) | (dsimp only) | split
      | ((conv => arg 3; arg 26); with_reducible refine keeps_mk ?_ rfl rfl rfl rfl rfl))

theorem execPegAuditDone_keeps {s : State} (hs : Keeps p z s) {t' : State} (e : execPegAuditDone s = .next t') :
    Keeps p z t' := by
  unfold execPegAuditDone at e
  repeat' (first | cases e | split at e | (dsimp only at e))
  all_goals
    try dsimp only
    repeat' (first
      | (with_reducible assumption) | (intro _) | (with_reducible apply State.auditDone_keeps)
      | (with_reducible apply State.runJob_keeps) | (with_reducible apply ite_keeps)
      | (with_reducible apply ite_fst_keeps) | (with_reducible apply ite_snd_keeps)
      | (with_reducible apply foldl_keeps) | (with_reducible apply forEach_keeps)
      | (with_reducible refine keeps_fst (by assumption) ?_)
      | (with_reducible refine keeps_snd (by assumption) ?_)
      | (with_reducible refine keeps_thd (by assumption) ?_)
      | (with_reducible refine keeps_fth (by assumption) ?_) | (dsimp only) | split
      | ((conv => arg 3; arg 26); with_reducible refine keeps_mk ?_ rfl rfl rfl rfl rfl))

theorem execPuntBufferGrant_keeps (x : Fin 64) {s : State} (hs : Keeps p z s) {t' : State} (e : execPuntBufferGrant
    x s = .next t') : Keeps p z t' := by
  unfold execPuntBufferGrant at e
  repeat' (first | cases e | split at e | (dsimp only at e))
  all_goals
    try dsimp only
    repeat' (first
      | (with_reducible assumption) | (intro _) | (with_reducible apply State.grantOne_keeps)
      | (with_reducible apply State.runJob_keeps) | (with_reducible apply ite_keeps)
      | (with_reducible apply ite_fst_keeps) | (with_reducible apply ite_snd_keeps)
      | (with_reducible apply foldl_keeps) | (with_reducible apply forEach_keeps)
      | (with_reducible refine keeps_fst (by assumption) ?_)
      | (with_reducible refine keeps_snd (by assumption) ?_)
      | (with_reducible refine keeps_thd (by assumption) ?_)
      | (with_reducible refine keeps_fth (by assumption) ?_) | (dsimp only) | split
      | ((conv => arg 3; arg 26); with_reducible refine keeps_mk ?_ rfl rfl rfl rfl rfl))

end Sys2Proof.Machine
end

