-- ==== Sys2Proof/Laws/KeepsPurlin.lean ====
section
/-!
SUPPORT. Every operation of Machine/Purlin.lean keeps the queue, the canonical form and the blown fuses.
-/
namespace Sys2Proof.Machine

variable {p : List Instr} {z : Fuses}

theorem State.setChan_keeps {s : State} (ch : Nat) (c : Sys2Proof.Machine.ChanSt) (hs : Keeps p z s) : Keeps p z
    (State.setChan s ch c) := by
  unfold State.setChan
  try dsimp only [okA, okRes, failA, laterA]
  repeat' (first
    | (with_reducible assumption) | (intro _) | (with_reducible apply ite_keeps)
    | (with_reducible apply ite_fst_keeps) | (with_reducible apply ite_snd_keeps)
    | (with_reducible apply foldl_keeps) | (with_reducible apply forEach_keeps)
    | (with_reducible refine keeps_fst (by assumption) ?_)
    | (with_reducible refine keeps_snd (by assumption) ?_)
    | (with_reducible refine keeps_thd (by assumption) ?_)
    | (with_reducible refine keeps_fth (by assumption) ?_) | (dsimp only) | split
    | ((conv => arg 3; arg 26); with_reducible refine keeps_mk ?_ rfl rfl rfl rfl rfl))

theorem State.setChanState_keeps {s : State} (ch : Nat) (x : Nat) (hs : Keeps p z s) : Keeps p z
    (State.setChanState s ch x) := by
  unfold State.setChanState
  try dsimp only [okA, okRes, failA, laterA]
  repeat' (first
    | (with_reducible assumption) | (intro _) | (with_reducible apply State.wr_keeps)
    | (with_reducible apply ite_keeps) | (with_reducible apply ite_fst_keeps)
    | (with_reducible apply ite_snd_keeps) | (with_reducible apply foldl_keeps)
    | (with_reducible apply forEach_keeps) | (with_reducible refine keeps_fst (by assumption) ?_)
    | (with_reducible refine keeps_snd (by assumption) ?_)
    | (with_reducible refine keeps_thd (by assumption) ?_)
    | (with_reducible refine keeps_fth (by assumption) ?_) | (dsimp only) | split
    | ((conv => arg 3; arg 26); with_reducible refine keeps_mk ?_ rfl rfl rfl rfl rfl))

theorem State.chanReport_keeps {s : State} (ch : Nat) (hs : Keeps p z s) : Keeps p z (State.chanReport s ch) := by
  unfold State.chanReport
  try dsimp only [okA, okRes, failA, laterA]
  repeat' (first
    | (with_reducible assumption) | (intro _) | (with_reducible apply State.wr_keeps)
    | (with_reducible apply State.setChan_keeps) | (with_reducible apply ite_keeps)
    | (with_reducible apply ite_fst_keeps) | (with_reducible apply ite_snd_keeps)
    | (with_reducible apply foldl_keeps) | (with_reducible apply forEach_keeps)
    | (with_reducible refine keeps_fst (by assumption) ?_)
    | (with_reducible refine keeps_snd (by assumption) ?_)
    | (with_reducible refine keeps_thd (by assumption) ?_)
    | (with_reducible refine keeps_fth (by assumption) ?_) | (dsimp only) | split
    | ((conv => arg 3; arg 26); with_reducible refine keeps_mk ?_ rfl rfl rfl rfl rfl))

theorem State.spaceWrite_keeps {s : State} (link : Nat) (dram : Bool) (a : Nat) (bs : List Sys2Proof.Byte) (hs :
    Keeps p z s) : Keeps p z (State.spaceWrite s link dram a bs) := by
  unfold State.spaceWrite
  try dsimp only [okA, okRes, failA, laterA]
  repeat' (first
    | (with_reducible assumption) | (intro _) | (with_reducible apply State.dramWr_keeps)
    | (with_reducible apply State.hostWr_keeps) | (with_reducible apply ite_keeps)
    | (with_reducible apply ite_fst_keeps) | (with_reducible apply ite_snd_keeps)
    | (with_reducible apply foldl_keeps) | (with_reducible apply forEach_keeps)
    | (with_reducible refine keeps_fst (by assumption) ?_)
    | (with_reducible refine keeps_snd (by assumption) ?_)
    | (with_reducible refine keeps_thd (by assumption) ?_)
    | (with_reducible refine keeps_fth (by assumption) ?_) | (dsimp only) | split
    | ((conv => arg 3; arg 26); with_reducible refine keeps_mk ?_ rfl rfl rfl rfl rfl))

theorem State.dmaWrite_keeps {s : State} (link : Nat) (d : Sys2Proof.Machine.Side) (bs : List Sys2Proof.Byte) (n :
    Nat) (hs : Keeps p z s) : Keeps p z (State.dmaWrite s link d bs n) := by
  unfold State.dmaWrite
  try dsimp only [okA, okRes, failA, laterA]
  repeat' (first
    | (with_reducible assumption) | (intro _) | (with_reducible apply forEach_keeps)
    | (with_reducible apply State.spaceWrite_keeps) | (with_reducible apply ite_keeps)
    | (with_reducible apply ite_fst_keeps) | (with_reducible apply ite_snd_keeps)
    | (with_reducible apply foldl_keeps) | (with_reducible apply forEach_keeps)
    | (with_reducible refine keeps_fst (by assumption) ?_)
    | (with_reducible refine keeps_snd (by assumption) ?_)
    | (with_reducible refine keeps_thd (by assumption) ?_)
    | (with_reducible refine keeps_fth (by assumption) ?_) | (dsimp only) | split
    | ((conv => arg 3; arg 26); with_reducible refine keeps_mk ?_ rfl rfl rfl rfl rfl))

theorem State.drawBytes_keeps {s : State} (x1 : Nat) (hs : Keeps p z s) : Keeps p z (State.drawBytes s x1).2 := by
  induction x1 generalizing s with
  | zero | succ n ih =>
    unfold State.drawBytes
    try dsimp only [okA, okRes, failA, laterA]
    repeat' (first
      | (with_reducible assumption) | (intro _) | (with_reducible apply ih)
      | (with_reducible apply State.draw_keeps) | (with_reducible apply ite_keeps)
      | (with_reducible apply ite_fst_keeps) | (with_reducible apply ite_snd_keeps)
      | (with_reducible apply foldl_keeps) | (with_reducible apply forEach_keeps)
      | (with_reducible refine keeps_fst (by assumption) ?_)
      | (with_reducible refine keeps_snd (by assumption) ?_)
      | (with_reducible refine keeps_thd (by assumption) ?_)
      | (with_reducible refine keeps_fth (by assumption) ?_) | (dsimp only) | split
      | ((conv => arg 3; arg 26); with_reducible refine keeps_mk ?_ rfl rfl rfl rfl rfl))

theorem State.dmaScramble_keeps {s : State} (link : Nat) (d : Sys2Proof.Machine.Side) (k : Nat) (hs : Keeps p z s)
    : Keeps p z (State.dmaScramble s link d k) := by
  unfold State.dmaScramble
  try dsimp only [okA, okRes, failA, laterA]
  repeat' (first
    | (with_reducible assumption) | (intro _) | (with_reducible apply State.drawBytes_keeps)
    | (with_reducible apply State.spaceWrite_keeps) | (with_reducible apply ite_keeps)
    | (with_reducible apply ite_fst_keeps) | (with_reducible apply ite_snd_keeps)
    | (with_reducible apply foldl_keeps) | (with_reducible apply forEach_keeps)
    | (with_reducible refine keeps_fst (by assumption) ?_)
    | (with_reducible refine keeps_snd (by assumption) ?_)
    | (with_reducible refine keeps_thd (by assumption) ?_)
    | (with_reducible refine keeps_fth (by assumption) ?_) | (dsimp only) | split
    | ((conv => arg 3; arg 26); with_reducible refine keeps_mk ?_ rfl rfl rfl rfl rfl))

theorem State.dmaComplete_keeps {s : State} (j : Sys2Proof.Job) (status : Nat) (cause : Nat) (remaining : Nat)
    (extra : List Sys2Proof.Byte) (hs : Keeps p z s) : Keeps p z (State.dmaComplete s j status cause remaining
    extra) := by
  unfold State.dmaComplete
  try dsimp only [okA, okRes, failA, laterA]
  repeat' (first
    | (with_reducible assumption) | (intro _) | (with_reducible apply State.hostWr_keeps)
    | (with_reducible apply State.complete_keeps) | (with_reducible apply State.count_keeps)
    | (with_reducible apply ite_keeps) | (with_reducible apply ite_fst_keeps)
    | (with_reducible apply ite_snd_keeps) | (with_reducible apply foldl_keeps)
    | (with_reducible apply forEach_keeps) | (with_reducible refine keeps_fst (by assumption) ?_)
    | (with_reducible refine keeps_snd (by assumption) ?_)
    | (with_reducible refine keeps_thd (by assumption) ?_)
    | (with_reducible refine keeps_fth (by assumption) ?_) | (dsimp only) | split
    | ((conv => arg 3; arg 26); with_reducible refine keeps_mk ?_ rfl rfl rfl rfl rfl))

theorem State.dmaHalt_keeps {s : State} (ch : Nat) (status : Nat) (cause : Nat) (tag : Nat) (info : Nat) (hs :
    Keeps p z s) : Keeps p z (State.dmaHalt s ch status cause tag info) := by
  unfold State.dmaHalt
  try dsimp only [okA, okRes, failA, laterA]
  repeat' (first
    | (with_reducible assumption) | (intro _) | (with_reducible apply State.wr_keeps)
    | (with_reducible apply State.fault_keeps) | (with_reducible apply State.event_keeps)
    | (with_reducible apply State.setChanState_keeps) | (with_reducible apply forEach_keeps)
    | (with_reducible apply State.complete_keeps) | (with_reducible apply State.setChan_keeps)
    | (with_reducible apply ite_keeps) | (with_reducible apply ite_fst_keeps)
    | (with_reducible apply ite_snd_keeps) | (with_reducible apply foldl_keeps)
    | (with_reducible apply forEach_keeps) | (with_reducible refine keeps_fst (by assumption) ?_)
    | (with_reducible refine keeps_snd (by assumption) ?_)
    | (with_reducible refine keeps_thd (by assumption) ?_)
    | (with_reducible refine keeps_fth (by assumption) ?_) | (dsimp only) | split
    | ((conv => arg 3; arg 26); with_reducible refine keeps_mk ?_ rfl rfl rfl rfl rfl))

theorem State.chanClear_keeps {s : State} (ch : Nat) (hs : Keeps p z s) : Keeps p z (State.chanClear s ch) := by
  unfold State.chanClear
  try dsimp only [okA, okRes, failA, laterA]
  repeat' (first
    | (with_reducible assumption) | (intro _) | (with_reducible apply State.wr_keeps)
    | (with_reducible apply State.setChan_keeps) | (with_reducible apply ite_keeps)
    | (with_reducible apply ite_fst_keeps) | (with_reducible apply ite_snd_keeps)
    | (with_reducible apply foldl_keeps) | (with_reducible apply forEach_keeps)
    | (with_reducible refine keeps_fst (by assumption) ?_)
    | (with_reducible refine keeps_snd (by assumption) ?_)
    | (with_reducible refine keeps_thd (by assumption) ?_)
    | (with_reducible refine keeps_fth (by assumption) ?_) | (dsimp only) | split
    | ((conv => arg 3; arg 26); with_reducible refine keeps_mk ?_ rfl rfl rfl rfl rfl))

theorem State.dmaCancel_keeps {s : State} (remaining : Nat) (j : Sys2Proof.Job) (hs : Keeps p z s) : Keeps p z
    (State.dmaCancel s remaining j) := by
  unfold State.dmaCancel
  try dsimp only [okA, okRes, failA, laterA]
  repeat' (first
    | (with_reducible assumption) | (intro _) | (with_reducible apply State.dmaComplete_keeps)
    | (with_reducible apply ite_keeps) | (with_reducible apply ite_fst_keeps)
    | (with_reducible apply ite_snd_keeps) | (with_reducible apply foldl_keeps)
    | (with_reducible apply forEach_keeps) | (with_reducible refine keeps_fst (by assumption) ?_)
    | (with_reducible refine keeps_snd (by assumption) ?_)
    | (with_reducible refine keeps_thd (by assumption) ?_)
    | (with_reducible refine keeps_fth (by assumption) ?_) | (dsimp only) | split
    | ((conv => arg 3; arg 26); with_reducible refine keeps_mk ?_ rfl rfl rfl rfl rfl))

theorem State.dmaCut_keeps {s : State} (ch : Nat) (hs : Keeps p z s) : Keeps p z (State.dmaCut s ch).2 := by
  unfold State.dmaCut
  try dsimp only [okA, okRes, failA, laterA]
  repeat' (first
    | (with_reducible assumption) | (intro _) | (with_reducible apply State.draw_keeps)
    | (with_reducible apply State.spaceWrite_keeps) | (with_reducible apply State.dmaWrite_keeps)
    | (with_reducible apply State.count_keeps) | (with_reducible apply ite_keeps)
    | (with_reducible apply ite_fst_keeps) | (with_reducible apply ite_snd_keeps)
    | (with_reducible apply foldl_keeps) | (with_reducible apply forEach_keeps)
    | (with_reducible refine keeps_fst (by assumption) ?_)
    | (with_reducible refine keeps_snd (by assumption) ?_)
    | (with_reducible refine keeps_thd (by assumption) ?_)
    | (with_reducible refine keeps_fth (by assumption) ?_) | (dsimp only) | split
    | ((conv => arg 3; arg 26); with_reducible refine keeps_mk ?_ rfl rfl rfl rfl rfl))

theorem State.chanUnbind_keeps {s : State} (q : Nat) (drop : Bool) (hs : Keeps p z s) : Keeps p z (State.chanUnbind
    s q drop) := by
  unfold State.chanUnbind
  try dsimp only [okA, okRes, failA, laterA]
  repeat' (first
    | (with_reducible assumption) | (intro _) | (with_reducible apply State.dmaCut_keeps)
    | (with_reducible apply State.dmaCancel_keeps) | (with_reducible apply forEach_keeps)
    | (with_reducible apply State.complete_keeps) | (with_reducible apply State.wr_keeps)
    | (with_reducible apply State.setChan_keeps) | (with_reducible apply State.setChanState_keeps)
    | (with_reducible apply ite_keeps) | (with_reducible apply ite_fst_keeps)
    | (with_reducible apply ite_snd_keeps) | (with_reducible apply foldl_keeps)
    | (with_reducible apply forEach_keeps) | (with_reducible refine keeps_fst (by assumption) ?_)
    | (with_reducible refine keeps_snd (by assumption) ?_)
    | (with_reducible refine keeps_thd (by assumption) ?_)
    | (with_reducible refine keeps_fth (by assumption) ?_) | (dsimp only) | split
    | ((conv => arg 3; arg 26); with_reducible refine keeps_mk ?_ rfl rfl rfl rfl rfl))

theorem State.dmaStart_keeps {s : State} (j : Sys2Proof.Job) (hs : Keeps p z s) : Keeps p z (State.dmaStart s j) :=
    by
  unfold State.dmaStart
  try dsimp only [okA, okRes, failA, laterA]
  repeat' (first
    | (with_reducible assumption) | (intro _) | (with_reducible apply State.chanReport_keeps)
    | (with_reducible apply State.startJob_keeps) | (with_reducible apply State.draw_keeps)
    | (with_reducible apply State.dmaComplete_keeps) | (with_reducible apply State.dmaHalt_keeps)
    | (with_reducible apply State.wr_keeps) | (with_reducible apply State.setChan_keeps)
    | (with_reducible apply ite_keeps) | (with_reducible apply ite_fst_keeps)
    | (with_reducible apply ite_snd_keeps) | (with_reducible apply foldl_keeps)
    | (with_reducible apply forEach_keeps) | (with_reducible refine keeps_fst (by assumption) ?_)
    | (with_reducible refine keeps_snd (by assumption) ?_)
    | (with_reducible refine keeps_thd (by assumption) ?_)
    | (with_reducible refine keeps_fth (by assumption) ?_) | (dsimp only) | split
    | ((conv => arg 3; arg 26); with_reducible refine keeps_mk ?_ rfl rfl rfl rfl rfl))

theorem State.dmaFinish_keeps {s : State} (ch : Nat) (hs : Keeps p z s) : Keeps p z (State.dmaFinish s ch) := by
  unfold State.dmaFinish
  try dsimp only [okA, okRes, failA, laterA]
  repeat' (first
    | (with_reducible assumption) | (intro _) | (with_reducible apply State.dmaWrite_keeps)
    | (with_reducible apply State.count_keeps) | (with_reducible apply State.dmaComplete_keeps)
    | (with_reducible apply State.chanClear_keeps) | (with_reducible apply ite_keeps)
    | (with_reducible apply ite_fst_keeps) | (with_reducible apply ite_snd_keeps)
    | (with_reducible apply foldl_keeps) | (with_reducible apply forEach_keeps)
    | (with_reducible refine keeps_fst (by assumption) ?_)
    | (with_reducible refine keeps_snd (by assumption) ?_)
    | (with_reducible refine keeps_thd (by assumption) ?_)
    | (with_reducible refine keeps_fth (by assumption) ?_) | (dsimp only) | split
    | ((conv => arg 3; arg 26); with_reducible refine keeps_mk ?_ rfl rfl rfl rfl rfl))

theorem State.dmaFail_keeps {s : State} (ch : Nat) (cause : Nat) (pos : Nat) (late : Bool) (tag : Nat) (hs : Keeps
    p z s) : Keeps p z (State.dmaFail s ch cause pos late tag) := by
  unfold State.dmaFail
  try dsimp only [okA, okRes, failA, laterA]
  repeat' (first
    | (with_reducible assumption) | (intro _) | (with_reducible apply State.dmaWrite_keeps)
    | (with_reducible apply State.dmaScramble_keeps) | (with_reducible apply State.count_keeps)
    | (with_reducible apply State.dmaComplete_keeps) | (with_reducible apply State.chanClear_keeps)
    | (with_reducible apply State.dmaHalt_keeps) | (with_reducible apply ite_keeps)
    | (with_reducible apply ite_fst_keeps) | (with_reducible apply ite_snd_keeps)
    | (with_reducible apply foldl_keeps) | (with_reducible apply forEach_keeps)
    | (with_reducible refine keeps_fst (by assumption) ?_)
    | (with_reducible refine keeps_snd (by assumption) ?_)
    | (with_reducible refine keeps_thd (by assumption) ?_)
    | (with_reducible refine keeps_fth (by assumption) ?_) | (dsimp only) | split
    | ((conv => arg 3; arg 26); with_reducible refine keeps_mk ?_ rfl rfl rfl rfl rfl))

theorem State.dmaBeat_keeps {s : State} (ch : Nat) (cause : Nat) (pos : Nat) (late : Bool) (hs : Keeps p z s) :
    Keeps p z (State.dmaBeat s ch cause pos late) := by
  unfold State.dmaBeat
  try dsimp only [okA, okRes, failA, laterA]
  repeat' (first
    | (with_reducible assumption) | (intro _) | (with_reducible apply State.dmaFail_keeps)
    | (with_reducible apply State.timeoutReport_keeps) | (with_reducible apply ite_keeps)
    | (with_reducible apply ite_fst_keeps) | (with_reducible apply ite_snd_keeps)
    | (with_reducible apply foldl_keeps) | (with_reducible apply forEach_keeps)
    | (with_reducible refine keeps_fst (by assumption) ?_)
    | (with_reducible refine keeps_snd (by assumption) ?_)
    | (with_reducible refine keeps_thd (by assumption) ?_)
    | (with_reducible refine keeps_fth (by assumption) ?_) | (dsimp only) | split
    | ((conv => arg 3; arg 26); with_reducible refine keeps_mk ?_ rfl rfl rfl rfl rfl))

theorem ctlGate_keeps (j : Sys2Proof.Job) {s : State} {body : Sys2Proof.Machine.State → Nat →
    Sys2Proof.Machine.Answer} (hs : Keeps p z s) (hbody : ∀ (y0 : Sys2Proof.Machine.State) (y1 : Nat), Keeps p z y0
    → Keeps p z (body y0 y1).1) : Keeps p z (ctlGate j s body).1 := by
  unfold ctlGate
  try dsimp only [okA, okRes, failA, laterA]
  repeat' (first
    | (with_reducible assumption) | (intro _) | (with_reducible apply failA_keeps)
    | (with_reducible apply hbody) | (with_reducible apply ite_keeps) | (with_reducible apply ite_fst_keeps)
    | (with_reducible apply ite_snd_keeps) | (with_reducible apply foldl_keeps)
    | (with_reducible apply forEach_keeps) | (with_reducible refine keeps_fst (by assumption) ?_)
    | (with_reducible refine keeps_snd (by assumption) ?_)
    | (with_reducible refine keeps_thd (by assumption) ?_)
    | (with_reducible refine keeps_fth (by assumption) ?_) | (dsimp only) | split
    | ((conv => arg 3; arg 26); with_reducible refine keeps_mk ?_ rfl rfl rfl rfl rfl))

theorem ctlOk_keeps {s : State} (ch : Nat) (hs : Keeps p z s) : Keeps p z (ctlOk s ch).1 := by
  unfold ctlOk
  try dsimp only [okA, okRes, failA, laterA]
  repeat' (first
    | (with_reducible assumption) | (intro _) | (with_reducible apply okRes_keeps)
    | (with_reducible apply ite_keeps) | (with_reducible apply ite_fst_keeps)
    | (with_reducible apply ite_snd_keeps) | (with_reducible apply foldl_keeps)
    | (with_reducible apply forEach_keeps) | (with_reducible refine keeps_fst (by assumption) ?_)
    | (with_reducible refine keeps_snd (by assumption) ?_)
    | (with_reducible refine keeps_thd (by assumption) ?_)
    | (with_reducible refine keeps_fth (by assumption) ?_) | (dsimp only) | split
    | ((conv => arg 3; arg 26); with_reducible refine keeps_mk ?_ rfl rfl rfl rfl rfl))

theorem chanStop_keeps (j : Sys2Proof.Job) {s : State} (hs : Keeps p z s) : Keeps p z (chanStop j s).1 := by
  unfold chanStop
  try dsimp only [okA, okRes, failA, laterA]
  repeat' (first
    | (with_reducible assumption) | (intro _) | (with_reducible apply ctlGate_keeps)
    | (with_reducible apply laterA_keeps) | (with_reducible apply State.setChan_keeps)
    | (with_reducible apply State.setChanState_keeps) | (with_reducible apply ctlOk_keeps)
    | (with_reducible apply failA_keeps) | (with_reducible apply ite_keeps)
    | (with_reducible apply ite_fst_keeps) | (with_reducible apply ite_snd_keeps)
    | (with_reducible apply foldl_keeps) | (with_reducible apply forEach_keeps)
    | (with_reducible refine keeps_fst (by assumption) ?_)
    | (with_reducible refine keeps_snd (by assumption) ?_)
    | (with_reducible refine keeps_thd (by assumption) ?_)
    | (with_reducible refine keeps_fth (by assumption) ?_) | (dsimp only) | split
    | ((conv => arg 3; arg 26); with_reducible refine keeps_mk ?_ rfl rfl rfl rfl rfl))

theorem chanResume_keeps (j : Sys2Proof.Job) {s : State} (hs : Keeps p z s) : Keeps p z (chanResume j s).1 := by
  unfold chanResume
  try dsimp only [okA, okRes, failA, laterA]
  repeat' (first
    | (with_reducible assumption) | (intro _) | (with_reducible apply ctlGate_keeps)
    | (with_reducible apply ctlOk_keeps) | (with_reducible apply State.chanReport_keeps)
    | (with_reducible apply State.setChan_keeps) | (with_reducible apply State.setChanState_keeps)
    | (with_reducible apply failA_keeps) | (with_reducible apply ite_keeps)
    | (with_reducible apply ite_fst_keeps) | (with_reducible apply ite_snd_keeps)
    | (with_reducible apply foldl_keeps) | (with_reducible apply forEach_keeps)
    | (with_reducible refine keeps_fst (by assumption) ?_)
    | (with_reducible refine keeps_snd (by assumption) ?_)
    | (with_reducible refine keeps_thd (by assumption) ?_)
    | (with_reducible refine keeps_fth (by assumption) ?_) | (dsimp only) | split
    | ((conv => arg 3; arg 26); with_reducible refine keeps_mk ?_ rfl rfl rfl rfl rfl))

theorem chanFlush_keeps (j : Sys2Proof.Job) {s : State} (hs : Keeps p z s) : Keeps p z (chanFlush j s).1 := by
  unfold chanFlush
  try dsimp only [okA, okRes, failA, laterA]
  repeat' (first
    | (with_reducible assumption) | (intro _) | (with_reducible apply ctlGate_keeps)
    | (with_reducible apply ctlOk_keeps) | (with_reducible apply State.chanReport_keeps)
    | (with_reducible apply forEach_keeps) | (with_reducible apply State.dmaCancel_keeps)
    | (with_reducible apply failA_keeps) | (with_reducible apply ite_keeps)
    | (with_reducible apply ite_fst_keeps) | (with_reducible apply ite_snd_keeps)
    | (with_reducible apply foldl_keeps) | (with_reducible apply forEach_keeps)
    | (with_reducible refine keeps_fst (by assumption) ?_)
    | (with_reducible refine keeps_snd (by assumption) ?_)
    | (with_reducible refine keeps_thd (by assumption) ?_)
    | (with_reducible refine keeps_fth (by assumption) ?_) | (dsimp only) | split
    | ((conv => arg 3; arg 26); with_reducible refine keeps_mk ?_ rfl rfl rfl rfl rfl))

theorem chanPolicy_keeps (j : Sys2Proof.Job) {s : State} (hs : Keeps p z s) : Keeps p z (chanPolicy j s).1 := by
  unfold chanPolicy
  try dsimp only [okA, okRes, failA, laterA]
  repeat' (first
    | (with_reducible assumption) | (intro _) | (with_reducible apply ctlGate_keeps)
    | (with_reducible apply ctlOk_keeps) | (with_reducible apply State.wr_keeps)
    | (with_reducible apply ite_keeps) | (with_reducible apply ite_fst_keeps)
    | (with_reducible apply ite_snd_keeps) | (with_reducible apply foldl_keeps)
    | (with_reducible apply forEach_keeps) | (with_reducible refine keeps_fst (by assumption) ?_)
    | (with_reducible refine keeps_snd (by assumption) ?_)
    | (with_reducible refine keeps_thd (by assumption) ?_)
    | (with_reducible refine keeps_fth (by assumption) ?_) | (dsimp only) | split
    | ((conv => arg 3; arg 26); with_reducible refine keeps_mk ?_ rfl rfl rfl rfl rfl))

theorem chanSet_keeps (j : Sys2Proof.Job) {s : State} (hs : Keeps p z s) : Keeps p z (chanSet j s).1 := by
  unfold chanSet
  try dsimp only [okA, okRes, failA, laterA]
  repeat' (first
    | (with_reducible assumption) | (intro _) | (with_reducible apply failA_keeps)
    | (with_reducible apply okA_keeps) | (with_reducible apply State.wr_keeps)
    | (with_reducible apply ite_keeps) | (with_reducible apply ite_fst_keeps)
    | (with_reducible apply ite_snd_keeps) | (with_reducible apply foldl_keeps)
    | (with_reducible apply forEach_keeps) | (with_reducible refine keeps_fst (by assumption) ?_)
    | (with_reducible refine keeps_snd (by assumption) ?_)
    | (with_reducible refine keeps_thd (by assumption) ?_)
    | (with_reducible refine keeps_fth (by assumption) ?_) | (dsimp only) | split
    | ((conv => arg 3; arg 26); with_reducible refine keeps_mk ?_ rfl rfl rfl rfl rfl))

theorem purlinQuery_keeps (j : Sys2Proof.Job) {s : State} (hs : Keeps p z s) : Keeps p z (purlinQuery j s).1 := by
  unfold purlinQuery
  try dsimp only [okA, okRes, failA, laterA]
  repeat' (first
    | (with_reducible assumption) | (intro _) | (with_reducible apply failA_keeps)
    | (with_reducible apply okRes_keeps) | (with_reducible apply State.jobWrite_keeps)
    | (with_reducible apply ite_keeps) | (with_reducible apply ite_fst_keeps)
    | (with_reducible apply ite_snd_keeps) | (with_reducible apply foldl_keeps)
    | (with_reducible apply forEach_keeps) | (with_reducible refine keeps_fst (by assumption) ?_)
    | (with_reducible refine keeps_snd (by assumption) ?_)
    | (with_reducible refine keeps_thd (by assumption) ?_)
    | (with_reducible refine keeps_fth (by assumption) ?_) | (dsimp only) | split
    | ((conv => arg 3; arg 26); with_reducible refine keeps_mk ?_ rfl rfl rfl rfl rfl))

theorem opRow_keeps (g : Sys2Proof.Machine.Gate) (j : Sys2Proof.Job) {s : State} (mine : Bool) {body :
    Sys2Proof.Job → Sys2Proof.Machine.State → Sys2Proof.Machine.Answer} (hs : Keeps p z s) (hbody : ∀ (y0 :
    Sys2Proof.Job) (y1 : Sys2Proof.Machine.State), Keeps p z y1 → Keeps p z (body y0 y1).1) {t' : State} (e : opRow
    g j s mine body = .next t') : Keeps p z t' := by
  unfold opRow at e
  repeat' (first | cases e | split at e | (dsimp only at e))
  all_goals
    try dsimp only
    repeat' (first
      | (with_reducible assumption) | (intro _) | (with_reducible apply jobRow_keeps (e := by assumption))
      | (with_reducible apply State.runJob_keeps) | (with_reducible apply hbody)
      | (with_reducible apply State.runJob_keeps) | (with_reducible apply ite_keeps)
      | (with_reducible apply ite_fst_keeps) | (with_reducible apply ite_snd_keeps)
      | (with_reducible apply foldl_keeps) | (with_reducible apply forEach_keeps)
      | (with_reducible refine keeps_fst (by assumption) ?_)
      | (with_reducible refine keeps_snd (by assumption) ?_)
      | (with_reducible refine keeps_thd (by assumption) ?_)
      | (with_reducible refine keeps_fth (by assumption) ?_) | (dsimp only) | split
      | ((conv => arg 3; arg 26); with_reducible refine keeps_mk ?_ rfl rfl rfl rfl rfl))

theorem execDmaCopy_keeps (j : Sys2Proof.Job) {s : State} (hs : Keeps p z s) {t' : State} (e : execDmaCopy j s =
    .next t') : Keeps p z t' := by
  unfold execDmaCopy at e
  repeat' (first | cases e | split at e | (dsimp only at e))
  all_goals
    try dsimp only
    repeat' (first
      | (with_reducible assumption) | (intro _) | (with_reducible apply State.dmaStart_keeps)
      | (with_reducible apply State.runJob_keeps) | (with_reducible apply ite_keeps)
      | (with_reducible apply ite_fst_keeps) | (with_reducible apply ite_snd_keeps)
      | (with_reducible apply foldl_keeps) | (with_reducible apply forEach_keeps)
      | (with_reducible refine keeps_fst (by assumption) ?_)
      | (with_reducible refine keeps_snd (by assumption) ?_)
      | (with_reducible refine keeps_thd (by assumption) ?_)
      | (with_reducible refine keeps_fth (by assumption) ?_) | (dsimp only) | split
      | ((conv => arg 3; arg 26); with_reducible refine keeps_mk ?_ rfl rfl rfl rfl rfl))

theorem execDmaJobComplete_keeps (ch : Fin 28) {s : State} (hs : Keeps p z s) {t' : State} (e : execDmaJobComplete
    ch s = .next t') : Keeps p z t' := by
  unfold execDmaJobComplete at e
  repeat' (first | cases e | split at e | (dsimp only at e))
  all_goals
    try dsimp only
    repeat' (first
      | (with_reducible assumption) | (intro _) | (with_reducible apply State.dmaFinish_keeps)
      | (with_reducible apply State.runJob_keeps) | (with_reducible apply ite_keeps)
      | (with_reducible apply ite_fst_keeps) | (with_reducible apply ite_snd_keeps)
      | (with_reducible apply foldl_keeps) | (with_reducible apply forEach_keeps)
      | (with_reducible refine keeps_fst (by assumption) ?_)
      | (with_reducible refine keeps_snd (by assumption) ?_)
      | (with_reducible refine keeps_thd (by assumption) ?_)
      | (with_reducible refine keeps_fth (by assumption) ?_) | (dsimp only) | split
      | ((conv => arg 3; arg 26); with_reducible refine keeps_mk ?_ rfl rfl rfl rfl rfl))

theorem execDmaBeatFailure_keeps (ch : Fin 28) (cause : Fin 7) (pos : Sys2Proof.Word32) (late : Bool) {s : State}
    (hs : Keeps p z s) {t' : State} (e : execDmaBeatFailure ch cause pos late s = .next t') : Keeps p z t' := by
  unfold execDmaBeatFailure at e
  repeat' (first | cases e | split at e | (dsimp only at e))
  all_goals
    try dsimp only
    repeat' (first
      | (with_reducible assumption) | (intro _) | (with_reducible apply State.dmaBeat_keeps)
      | (with_reducible apply State.runJob_keeps) | (with_reducible apply ite_keeps)
      | (with_reducible apply ite_fst_keeps) | (with_reducible apply ite_snd_keeps)
      | (with_reducible apply foldl_keeps) | (with_reducible apply forEach_keeps)
      | (with_reducible refine keeps_fst (by assumption) ?_)
      | (with_reducible refine keeps_snd (by assumption) ?_)
      | (with_reducible refine keeps_thd (by assumption) ?_)
      | (with_reducible refine keeps_fth (by assumption) ?_) | (dsimp only) | split
      | ((conv => arg 3; arg 26); with_reducible refine keeps_mk ?_ rfl rfl rfl rfl rfl))

theorem execLateError_keeps (ch : Fin 28) (tag : BitVec 16) {s : State} (hs : Keeps p z s) {t' : State} (e :
    execLateError ch tag s = .next t') : Keeps p z t' := by
  unfold execLateError at e
  repeat' (first | cases e | split at e | (dsimp only at e))
  all_goals
    try dsimp only
    repeat' (first
      | (with_reducible assumption) | (intro _) | (with_reducible apply State.dmaHalt_keeps)
      | (with_reducible apply State.fault_keeps) | (with_reducible apply State.event_keeps)
      | (with_reducible apply State.runJob_keeps) | (with_reducible apply ite_keeps)
      | (with_reducible apply ite_fst_keeps) | (with_reducible apply ite_snd_keeps)
      | (with_reducible apply foldl_keeps) | (with_reducible apply forEach_keeps)
      | (with_reducible refine keeps_fst (by assumption) ?_)
      | (with_reducible refine keeps_snd (by assumption) ?_)
      | (with_reducible refine keeps_thd (by assumption) ?_)
      | (with_reducible refine keeps_fth (by assumption) ?_) | (dsimp only) | split
      | ((conv => arg 3; arg 26); with_reducible refine keeps_mk ?_ rfl rfl rfl rfl rfl))

theorem execPurlinChannelSet_keeps (j : Sys2Proof.Job) {s : State} (hs : Keeps p z s) {t' : State} (e :
    execPurlinChannelSet j s = .next t') : Keeps p z t' := by
  unfold execPurlinChannelSet at e
  repeat' (first | cases e | split at e | (dsimp only at e))
  all_goals
    try dsimp only
    repeat' (first
      | (with_reducible assumption) | (intro _) | (with_reducible apply jobRow_keeps (e := by assumption))
      | (with_reducible apply chanSet_keeps) | (with_reducible apply State.runJob_keeps)
      | (with_reducible apply State.runJob_keeps) | (with_reducible apply ite_keeps)
      | (with_reducible apply ite_fst_keeps) | (with_reducible apply ite_snd_keeps)
      | (with_reducible apply foldl_keeps) | (with_reducible apply forEach_keeps)
      | (with_reducible refine keeps_fst (by assumption) ?_)
      | (with_reducible refine keeps_snd (by assumption) ?_)
      | (with_reducible refine keeps_thd (by assumption) ?_)
      | (with_reducible refine keeps_fth (by assumption) ?_) | (dsimp only) | split
      | ((conv => arg 3; arg 26); with_reducible refine keeps_mk ?_ rfl rfl rfl rfl rfl))

theorem execChannelStop_keeps (j : Sys2Proof.Job) {s : State} (hs : Keeps p z s) {t' : State} (e : execChannelStop
    j s = .next t') : Keeps p z t' := by
  unfold execChannelStop at e
  repeat' (first | cases e | split at e | (dsimp only at e))
  all_goals
    try dsimp only
    repeat' (first
      | (with_reducible assumption) | (intro _) | (with_reducible apply opRow_keeps (e := by assumption))
      | (with_reducible apply chanStop_keeps) | (with_reducible apply jobRow_keeps (e := by assumption))
      | (with_reducible apply State.runJob_keeps) | (with_reducible apply ite_keeps)
      | (with_reducible apply ite_fst_keeps) | (with_reducible apply ite_snd_keeps)
      | (with_reducible apply foldl_keeps) | (with_reducible apply forEach_keeps)
      | (with_reducible refine keeps_fst (by assumption) ?_)
      | (with_reducible refine keeps_snd (by assumption) ?_)
      | (with_reducible refine keeps_thd (by assumption) ?_)
      | (with_reducible refine keeps_fth (by assumption) ?_) | (dsimp only) | split
      | ((conv => arg 3; arg 26); with_reducible refine keeps_mk ?_ rfl rfl rfl rfl rfl))

theorem execChannelResume_keeps (j : Sys2Proof.Job) {s : State} (hs : Keeps p z s) {t' : State} (e :
    execChannelResume j s = .next t') : Keeps p z t' := by
  unfold execChannelResume at e
  repeat' (first | cases e | split at e | (dsimp only at e))
  all_goals
    try dsimp only
    repeat' (first
      | (with_reducible assumption) | (intro _) | (with_reducible apply opRow_keeps (e := by assumption))
      | (with_reducible apply chanResume_keeps) | (with_reducible apply jobRow_keeps (e := by assumption))
      | (with_reducible apply State.runJob_keeps) | (with_reducible apply ite_keeps)
      | (with_reducible apply ite_fst_keeps) | (with_reducible apply ite_snd_keeps)
      | (with_reducible apply foldl_keeps) | (with_reducible apply forEach_keeps)
      | (with_reducible refine keeps_fst (by assumption) ?_)
      | (with_reducible refine keeps_snd (by assumption) ?_)
      | (with_reducible refine keeps_thd (by assumption) ?_)
      | (with_reducible refine keeps_fth (by assumption) ?_) | (dsimp only) | split
      | ((conv => arg 3; arg 26); with_reducible refine keeps_mk ?_ rfl rfl rfl rfl rfl))

theorem execChannelFlush_keeps (j : Sys2Proof.Job) {s : State} (hs : Keeps p z s) {t' : State} (e :
    execChannelFlush j s = .next t') : Keeps p z t' := by
  unfold execChannelFlush at e
  repeat' (first | cases e | split at e | (dsimp only at e))
  all_goals
    try dsimp only
    repeat' (first
      | (with_reducible assumption) | (intro _) | (with_reducible apply opRow_keeps (e := by assumption))
      | (with_reducible apply chanFlush_keeps) | (with_reducible apply jobRow_keeps (e := by assumption))
      | (with_reducible apply State.runJob_keeps) | (with_reducible apply ite_keeps)
      | (with_reducible apply ite_fst_keeps) | (with_reducible apply ite_snd_keeps)
      | (with_reducible apply foldl_keeps) | (with_reducible apply forEach_keeps)
      | (with_reducible refine keeps_fst (by assumption) ?_)
      | (with_reducible refine keeps_snd (by assumption) ?_)
      | (with_reducible refine keeps_thd (by assumption) ?_)
      | (with_reducible refine keeps_fth (by assumption) ?_) | (dsimp only) | split
      | ((conv => arg 3; arg 26); with_reducible refine keeps_mk ?_ rfl rfl rfl rfl rfl))

theorem execChannelPolicy_keeps (j : Sys2Proof.Job) {s : State} (hs : Keeps p z s) {t' : State} (e :
    execChannelPolicy j s = .next t') : Keeps p z t' := by
  unfold execChannelPolicy at e
  repeat' (first | cases e | split at e | (dsimp only at e))
  all_goals
    try dsimp only
    repeat' (first
      | (with_reducible assumption) | (intro _) | (with_reducible apply opRow_keeps (e := by assumption))
      | (with_reducible apply chanPolicy_keeps) | (with_reducible apply jobRow_keeps (e := by assumption))
      | (with_reducible apply State.runJob_keeps) | (with_reducible apply ite_keeps)
      | (with_reducible apply ite_fst_keeps) | (with_reducible apply ite_snd_keeps)
      | (with_reducible apply foldl_keeps) | (with_reducible apply forEach_keeps)
      | (with_reducible refine keeps_fst (by assumption) ?_)
      | (with_reducible refine keeps_snd (by assumption) ?_)
      | (with_reducible refine keeps_thd (by assumption) ?_)
      | (with_reducible refine keeps_fth (by assumption) ?_) | (dsimp only) | split
      | ((conv => arg 3; arg 26); with_reducible refine keeps_mk ?_ rfl rfl rfl rfl rfl))

theorem execChannelStopped_keeps (ch : Fin 28) {s : State} (hs : Keeps p z s) {t' : State} (e : execChannelStopped
    ch s = .next t') : Keeps p z t' := by
  unfold execChannelStopped at e
  repeat' (first | cases e | split at e | (dsimp only at e))
  all_goals
    try dsimp only
    repeat' (first
      | (with_reducible assumption) | (intro _) | (with_reducible apply forEach_keeps)
      | (with_reducible apply State.complete_keeps) | (with_reducible apply State.setChan_keeps)
      | (with_reducible apply State.setChanState_keeps) | (with_reducible apply State.runJob_keeps)
      | (with_reducible apply ite_keeps) | (with_reducible apply ite_fst_keeps)
      | (with_reducible apply ite_snd_keeps) | (with_reducible apply foldl_keeps)
      | (with_reducible apply forEach_keeps) | (with_reducible refine keeps_fst (by assumption) ?_)
      | (with_reducible refine keeps_snd (by assumption) ?_)
      | (with_reducible refine keeps_thd (by assumption) ?_)
      | (with_reducible refine keeps_fth (by assumption) ?_) | (dsimp only) | split
      | ((conv => arg 3; arg 26); with_reducible refine keeps_mk ?_ rfl rfl rfl rfl rfl))

theorem execPurlinQuery_keeps (j : Sys2Proof.Job) {s : State} (hs : Keeps p z s) {t' : State} (e : execPurlinQuery
    j s = .next t') : Keeps p z t' := by
  unfold execPurlinQuery at e
  repeat' (first | cases e | split at e | (dsimp only at e))
  all_goals
    try dsimp only
    repeat' (first
      | (with_reducible assumption) | (intro _) | (with_reducible apply jobRow_keeps (e := by assumption))
      | (with_reducible apply purlinQuery_keeps) | (with_reducible apply State.runJob_keeps)
      | (with_reducible apply State.runJob_keeps) | (with_reducible apply ite_keeps)
      | (with_reducible apply ite_fst_keeps) | (with_reducible apply ite_snd_keeps)
      | (with_reducible apply foldl_keeps) | (with_reducible apply forEach_keeps)
      | (with_reducible refine keeps_fst (by assumption) ?_)
      | (with_reducible refine keeps_snd (by assumption) ?_)
      | (with_reducible refine keeps_thd (by assumption) ?_)
      | (with_reducible refine keeps_fth (by assumption) ?_) | (dsimp only) | split
      | ((conv => arg 3; arg 26); with_reducible refine keeps_mk ?_ rfl rfl rfl rfl rfl))

end Sys2Proof.Machine
end

