-- ==== Sys2Proof/Laws/KeepsQmgr.lean ====
section
/-!
SUPPORT. Every operation of Machine/Qmgr.lean keeps the queue, the canonical form and the blown fuses.
-/
namespace Sys2Proof.Machine

variable {p : List Instr} {z : Fuses}

theorem State.qmgrCount_keeps {s : State} (f : Nat) (x : Nat) (hs : Keeps p z s) : Keeps p z (State.qmgrCount s f
    x) := by
  unfold State.qmgrCount
  try dsimp only [okA, okRes, failA, laterA]
  repeat' (first
    | (with_reducible assumption) | (intro _) | (with_reducible apply State.count_keeps)
    | (with_reducible apply ite_keeps) | (with_reducible apply ite_fst_keeps)
    | (with_reducible apply ite_snd_keeps) | (with_reducible apply foldl_keeps)
    | (with_reducible apply forEach_keeps) | (with_reducible refine keeps_fst (by assumption) ?_)
    | (with_reducible refine keeps_snd (by assumption) ?_)
    | (with_reducible refine keeps_thd (by assumption) ?_)
    | (with_reducible refine keeps_fth (by assumption) ?_) | (dsimp only) | split
    | ((conv => arg 3; arg 26); with_reducible refine keeps_mk ?_ rfl rfl rfl rfl rfl))

theorem State.puntStop_keeps {s : State} (q : Nat) (finish : Bool) (hs : Keeps p z s) : Keeps p z (State.puntStop s
    q finish) := by
  unfold State.puntStop
  try dsimp only [okA, okRes, failA, laterA]
  repeat' (first
    | (with_reducible assumption) | (intro _) | (with_reducible apply State.setPool_keeps)
    | (with_reducible apply State.giveBack_keeps) | (with_reducible apply State.setQueue_keeps)
    | (with_reducible apply ite_keeps) | (with_reducible apply ite_fst_keeps)
    | (with_reducible apply ite_snd_keeps) | (with_reducible apply foldl_keeps)
    | (with_reducible apply forEach_keeps) | (with_reducible refine keeps_fst (by assumption) ?_)
    | (with_reducible refine keeps_snd (by assumption) ?_)
    | (with_reducible refine keeps_thd (by assumption) ?_)
    | (with_reducible refine keeps_fth (by assumption) ?_) | (dsimp only) | split
    | ((conv => arg 3; arg 26); with_reducible refine keeps_mk ?_ rfl rfl rfl rfl rfl))

theorem State.owesNotice_keeps {s : State} (n : Sys2Proof.Machine.Notice) (hs : Keeps p z s) : Keeps p z
    (State.owesNotice s n) := by
  unfold State.owesNotice
  try dsimp only [okA, okRes, failA, laterA]
  repeat' (first
    | (with_reducible assumption) | (intro _) | (with_reducible apply State.qmgrCount_keeps)
    | (with_reducible apply ite_keeps) | (with_reducible apply ite_fst_keeps)
    | (with_reducible apply ite_snd_keeps) | (with_reducible apply foldl_keeps)
    | (with_reducible apply forEach_keeps) | (with_reducible refine keeps_fst (by assumption) ?_)
    | (with_reducible refine keeps_snd (by assumption) ?_)
    | (with_reducible refine keeps_thd (by assumption) ?_)
    | (with_reducible refine keeps_fth (by assumption) ?_) | (dsimp only) | split
    | ((conv => arg 3; arg 26); with_reducible refine keeps_mk ?_ rfl rfl rfl rfl rfl))

theorem State.queueFail_keeps {s : State} (q : Nat) (cause : Nat) (info : Nat) (hs : Keeps p z s) : Keeps p z
    (State.queueFail s q cause info) := by
  unfold State.queueFail
  try dsimp only [okA, okRes, failA, laterA]
  repeat' (first
    | (with_reducible assumption) | (intro _) | (with_reducible apply State.puntStop_keeps)
    | (with_reducible apply State.setQueue_keeps) | (with_reducible apply State.faultFn_keeps)
    | (with_reducible apply State.event_keeps) | (with_reducible apply State.owesNotice_keeps)
    | (with_reducible apply ite_keeps) | (with_reducible apply ite_fst_keeps)
    | (with_reducible apply ite_snd_keeps) | (with_reducible apply foldl_keeps)
    | (with_reducible apply forEach_keeps) | (with_reducible refine keeps_fst (by assumption) ?_)
    | (with_reducible refine keeps_snd (by assumption) ?_)
    | (with_reducible refine keeps_thd (by assumption) ?_)
    | (with_reducible refine keeps_fth (by assumption) ?_) | (dsimp only) | split
    | ((conv => arg 3; arg 26); with_reducible refine keeps_mk ?_ rfl rfl rfl rfl rfl))

theorem State.queueError_keeps {s : State} (q : Nat) (cause : Nat) (hs : Keeps p z s) : Keeps p z (State.queueError
    s q cause) := by
  unfold State.queueError
  try dsimp only [okA, okRes, failA, laterA]
  repeat' (first
    | (with_reducible assumption) | (intro _) | (with_reducible apply State.queueFail_keeps)
    | (with_reducible apply ite_keeps) | (with_reducible apply ite_fst_keeps)
    | (with_reducible apply ite_snd_keeps) | (with_reducible apply foldl_keeps)
    | (with_reducible apply forEach_keeps) | (with_reducible refine keeps_fst (by assumption) ?_)
    | (with_reducible refine keeps_snd (by assumption) ?_)
    | (with_reducible refine keeps_thd (by assumption) ?_)
    | (with_reducible refine keeps_fth (by assumption) ?_) | (dsimp only) | split
    | ((conv => arg 3; arg 26); with_reducible refine keeps_mk ?_ rfl rfl rfl rfl rfl))

theorem State.tailDoorbell_keeps {s : State} (f : Nat) (i : Nat) (v : Nat) (hs : Keeps p z s) : Keeps p z
    (State.tailDoorbell s f i v) := by
  unfold State.tailDoorbell
  try dsimp only [okA, okRes, failA, laterA]
  repeat' (first
    | (with_reducible assumption) | (intro _) | (with_reducible apply State.faultFn_keeps)
    | (with_reducible apply State.queueError_keeps) | (with_reducible apply State.setQueue_keeps)
    | (with_reducible apply ite_keeps) | (with_reducible apply ite_fst_keeps)
    | (with_reducible apply ite_snd_keeps) | (with_reducible apply foldl_keeps)
    | (with_reducible apply forEach_keeps) | (with_reducible refine keeps_fst (by assumption) ?_)
    | (with_reducible refine keeps_snd (by assumption) ?_)
    | (with_reducible refine keeps_thd (by assumption) ?_)
    | (with_reducible refine keeps_fth (by assumption) ?_) | (dsimp only) | split
    | ((conv => arg 3; arg 26); with_reducible refine keeps_mk ?_ rfl rfl rfl rfl rfl))

theorem State.headDoorbell_keeps {s : State} (f : Nat) (i : Nat) (v : Nat) (hs : Keeps p z s) : Keeps p z
    (State.headDoorbell s f i v) := by
  unfold State.headDoorbell
  try dsimp only [okA, okRes, failA, laterA]
  repeat' (first
    | (with_reducible assumption) | (intro _) | (with_reducible apply State.faultFn_keeps)
    | (with_reducible apply State.queueError_keeps) | (with_reducible apply State.setQueue_keeps)
    | (with_reducible apply ite_keeps) | (with_reducible apply ite_fst_keeps)
    | (with_reducible apply ite_snd_keeps) | (with_reducible apply foldl_keeps)
    | (with_reducible apply forEach_keeps) | (with_reducible refine keeps_fst (by assumption) ?_)
    | (with_reducible refine keeps_snd (by assumption) ?_)
    | (with_reducible refine keeps_thd (by assumption) ?_)
    | (with_reducible refine keeps_fth (by assumption) ?_) | (dsimp only) | split
    | ((conv => arg 3; arg 26); with_reducible refine keeps_mk ?_ rfl rfl rfl rfl rfl))

theorem State.markPauses_keeps {s : State} (hs : Keeps p z s) : Keeps p z (State.markPauses s) := by
  unfold State.markPauses
  try dsimp only [okA, okRes, failA, laterA]
  repeat' (first
    | (with_reducible assumption) | (intro _) | (with_reducible apply forEach_keeps)
    | (with_reducible apply State.qmgrCount_keeps) | (with_reducible apply State.setQueue_keeps)
    | (with_reducible apply ite_keeps) | (with_reducible apply ite_fst_keeps)
    | (with_reducible apply ite_snd_keeps) | (with_reducible apply foldl_keeps)
    | (with_reducible apply forEach_keeps) | (with_reducible refine keeps_fst (by assumption) ?_)
    | (with_reducible refine keeps_snd (by assumption) ?_)
    | (with_reducible refine keeps_thd (by assumption) ?_)
    | (with_reducible refine keeps_fth (by assumption) ?_) | (dsimp only) | split
    | ((conv => arg 3; arg 26); with_reducible refine keeps_mk ?_ rfl rfl rfl rfl rfl))

theorem State.fetchJob_keeps {s : State} (hs : Keeps p z s) : Keeps p z (State.fetchJob s) := by
  unfold State.fetchJob
  try dsimp only [okA, okRes, failA, laterA]
  repeat' (first
    | (with_reducible assumption) | (intro _) | (with_reducible apply State.markPauses_keeps)
    | (with_reducible apply State.setQueue_keeps) | (with_reducible apply State.qmgrCount_keeps)
    | (with_reducible apply State.chanReport_keeps) | (with_reducible apply State.queueError_keeps)
    | (with_reducible apply ite_keeps) | (with_reducible apply ite_fst_keeps)
    | (with_reducible apply ite_snd_keeps) | (with_reducible apply foldl_keeps)
    | (with_reducible apply forEach_keeps) | (with_reducible refine keeps_fst (by assumption) ?_)
    | (with_reducible refine keeps_snd (by assumption) ?_)
    | (with_reducible refine keeps_thd (by assumption) ?_)
    | (with_reducible refine keeps_fth (by assumption) ?_) | (dsimp only) | split
    | ((conv => arg 3; arg 26); with_reducible refine keeps_mk ?_ rfl rfl rfl rfl rfl))

theorem State.ringPut_keeps {s : State} (c : Nat) (first15 : List Sys2Proof.Byte) (notice : Bool) (hs : Keeps p z
    s) : Keeps p z (State.ringPut s c first15 notice) := by
  unfold State.ringPut
  try dsimp only [okA, okRes, failA, laterA]
  repeat' (first
    | (with_reducible assumption) | (intro _) | (with_reducible apply State.hostWr_keeps)
    | (with_reducible apply State.setQueue_keeps) | (with_reducible apply ite_keeps)
    | (with_reducible apply ite_fst_keeps) | (with_reducible apply ite_snd_keeps)
    | (with_reducible apply foldl_keeps) | (with_reducible apply forEach_keeps)
    | (with_reducible refine keeps_fst (by assumption) ?_)
    | (with_reducible refine keeps_snd (by assumption) ?_)
    | (with_reducible refine keeps_thd (by assumption) ?_)
    | (with_reducible refine keeps_fth (by assumption) ?_) | (dsimp only) | split
    | ((conv => arg 3; arg 26); with_reducible refine keeps_mk ?_ rfl rfl rfl rfl rfl))

theorem State.retire_keeps {s : State} (c : Sys2Proof.Machine.Compl) (hs : Keeps p z s) : Keeps p z (State.retire s
    c) := by
  unfold State.retire
  try dsimp only [okA, okRes, failA, laterA]
  repeat' (first
    | (with_reducible assumption) | (intro _) | (with_reducible apply State.setQueue_keeps)
    | (with_reducible apply ite_keeps) | (with_reducible apply ite_fst_keeps)
    | (with_reducible apply ite_snd_keeps) | (with_reducible apply foldl_keeps)
    | (with_reducible apply forEach_keeps) | (with_reducible refine keeps_fst (by assumption) ?_)
    | (with_reducible refine keeps_snd (by assumption) ?_)
    | (with_reducible refine keeps_thd (by assumption) ?_)
    | (with_reducible refine keeps_fth (by assumption) ?_) | (dsimp only) | split
    | ((conv => arg 3; arg 26); with_reducible refine keeps_mk ?_ rfl rfl rfl rfl rfl))

theorem State.writeDone_keeps {s : State} (c : Nat) (hs : Keeps p z s) : Keeps p z (State.writeDone s c) := by
  unfold State.writeDone
  try dsimp only [okA, okRes, failA, laterA]
  repeat' (first
    | (with_reducible assumption) | (intro _) | (with_reducible apply State.retire_keeps)
    | (with_reducible apply State.fault_keeps) | (with_reducible apply State.qmgrCount_keeps)
    | (with_reducible apply State.ringPut_keeps) | (with_reducible apply State.signal_keeps)
    | (with_reducible apply State.coalesce_keeps) | (with_reducible apply ite_keeps)
    | (with_reducible apply ite_fst_keeps) | (with_reducible apply ite_snd_keeps)
    | (with_reducible apply foldl_keeps) | (with_reducible apply forEach_keeps)
    | (with_reducible refine keeps_fst (by assumption) ?_)
    | (with_reducible refine keeps_snd (by assumption) ?_)
    | (with_reducible refine keeps_thd (by assumption) ?_)
    | (with_reducible refine keeps_fth (by assumption) ?_) | (dsimp only) | split
    | ((conv => arg 3; arg 26); with_reducible refine keeps_mk ?_ rfl rfl rfl rfl rfl))

theorem State.postNotice_keeps {s : State} (q : Nat) (hs : Keeps p z s) : Keeps p z (State.postNotice s q) := by
  unfold State.postNotice
  try dsimp only [okA, okRes, failA, laterA]
  repeat' (first
    | (with_reducible assumption) | (intro _) | (with_reducible apply State.fault_keeps)
    | (with_reducible apply State.qmgrCount_keeps) | (with_reducible apply State.signal_keeps)
    | (with_reducible apply State.ringPut_keeps) | (with_reducible apply ite_keeps)
    | (with_reducible apply ite_fst_keeps) | (with_reducible apply ite_snd_keeps)
    | (with_reducible apply foldl_keeps) | (with_reducible apply forEach_keeps)
    | (with_reducible refine keeps_fst (by assumption) ?_)
    | (with_reducible refine keeps_snd (by assumption) ?_)
    | (with_reducible refine keeps_thd (by assumption) ?_)
    | (with_reducible refine keeps_fth (by assumption) ?_) | (dsimp only) | split
    | ((conv => arg 3; arg 26); with_reducible refine keeps_mk ?_ rfl rfl rfl rfl rfl))

theorem State.clearProducers_keeps {s : State} (f : Nat) (i : Nat) (hs : Keeps p z s) : Keeps p z
    (State.clearProducers s f i) := by
  unfold State.clearProducers
  try dsimp only [okA, okRes, failA, laterA]
  repeat' (first
    | (with_reducible assumption) | (intro _) | (with_reducible apply forEach_keeps)
    | (with_reducible apply State.wr_keeps) | (with_reducible apply State.setReg_keeps)
    | (with_reducible apply ite_keeps) | (with_reducible apply ite_fst_keeps)
    | (with_reducible apply ite_snd_keeps) | (with_reducible apply foldl_keeps)
    | (with_reducible apply forEach_keeps) | (with_reducible refine keeps_fst (by assumption) ?_)
    | (with_reducible refine keeps_snd (by assumption) ?_)
    | (with_reducible refine keeps_thd (by assumption) ?_)
    | (with_reducible refine keeps_fth (by assumption) ?_) | (dsimp only) | split
    | ((conv => arg 3; arg 26); with_reducible refine keeps_mk ?_ rfl rfl rfl rfl rfl))

theorem State.queueGone_keeps {s : State} (q : Nat) (hs : Keeps p z s) : Keeps p z (State.queueGone s q) := by
  unfold State.queueGone
  try dsimp only [okA, okRes, failA, laterA]
  repeat' (first
    | (with_reducible assumption) | (intro _) | (with_reducible apply State.clearProducers_keeps)
    | (with_reducible apply State.setQueue_keeps) | (with_reducible apply State.poolReport_keeps)
    | (with_reducible apply State.acctTidy_keeps) | (with_reducible apply ite_keeps)
    | (with_reducible apply ite_fst_keeps) | (with_reducible apply ite_snd_keeps)
    | (with_reducible apply foldl_keeps) | (with_reducible apply forEach_keeps)
    | (with_reducible refine keeps_fst (by assumption) ?_)
    | (with_reducible refine keeps_snd (by assumption) ?_)
    | (with_reducible refine keeps_thd (by assumption) ?_)
    | (with_reducible refine keeps_fth (by assumption) ?_) | (dsimp only) | split
    | ((conv => arg 3; arg 26); with_reducible refine keeps_mk ?_ rfl rfl rfl rfl rfl))

theorem State.stopDone_keeps {s : State} (q : Nat) (hs : Keeps p z s) : Keeps p z (State.stopDone s q) := by
  unfold State.stopDone
  try dsimp only [okA, okRes, failA, laterA]
  repeat' (first
    | (with_reducible assumption) | (intro _) | (with_reducible apply forEach_keeps)
    | (with_reducible apply State.complete_keeps) | (with_reducible apply State.queueGone_keeps)
    | (with_reducible apply ite_keeps) | (with_reducible apply ite_fst_keeps)
    | (with_reducible apply ite_snd_keeps) | (with_reducible apply foldl_keeps)
    | (with_reducible apply forEach_keeps) | (with_reducible refine keeps_fst (by assumption) ?_)
    | (with_reducible refine keeps_snd (by assumption) ?_)
    | (with_reducible refine keeps_thd (by assumption) ?_)
    | (with_reducible refine keeps_fth (by assumption) ?_) | (dsimp only) | split
    | ((conv => arg 3; arg 26); with_reducible refine keeps_mk ?_ rfl rfl rfl rfl rfl))

theorem State.flushDone_keeps {s : State} (q : Nat) (hs : Keeps p z s) : Keeps p z (State.flushDone s q) := by
  unfold State.flushDone
  try dsimp only [okA, okRes, failA, laterA]
  repeat' (first
    | (with_reducible assumption) | (intro _) | (with_reducible apply forEach_keeps)
    | (with_reducible apply State.writeDone_keeps) | (with_reducible apply ite_keeps)
    | (with_reducible apply ite_fst_keeps) | (with_reducible apply ite_snd_keeps)
    | (with_reducible apply foldl_keeps) | (with_reducible apply forEach_keeps)
    | (with_reducible refine keeps_fst (by assumption) ?_)
    | (with_reducible refine keeps_snd (by assumption) ?_)
    | (with_reducible refine keeps_thd (by assumption) ?_)
    | (with_reducible refine keeps_fth (by assumption) ?_) | (dsimp only) | split
    | ((conv => arg 3; arg 26); with_reducible refine keeps_mk ?_ rfl rfl rfl rfl rfl))

theorem State.queueKill_keeps {s : State} (drop : Bool) (q : Nat) (hs : Keeps p z s) : Keeps p z (State.queueKill s
    drop q) := by
  unfold State.queueKill
  try dsimp only [okA, okRes, failA, laterA]
  repeat' (first
    | (with_reducible assumption) | (intro _) | (with_reducible apply State.chanUnbind_keeps)
    | (with_reducible apply State.flushDone_keeps) | (with_reducible apply State.puntStop_keeps)
    | (with_reducible apply State.queueGone_keeps) | (with_reducible apply ite_keeps)
    | (with_reducible apply ite_fst_keeps) | (with_reducible apply ite_snd_keeps)
    | (with_reducible apply foldl_keeps) | (with_reducible apply forEach_keeps)
    | (with_reducible refine keeps_fst (by assumption) ?_)
    | (with_reducible refine keeps_snd (by assumption) ?_)
    | (with_reducible refine keeps_thd (by assumption) ?_)
    | (with_reducible refine keeps_fth (by assumption) ?_) | (dsimp only) | split
    | ((conv => arg 3; arg 26); with_reducible refine keeps_mk ?_ rfl rfl rfl rfl rfl))

theorem State.destroyAll_keeps {s : State} (f : Nat) (reset : Bool) (hs : Keeps p z s) : Keeps p z
    (State.destroyAll s f reset) := by
  unfold State.destroyAll
  try dsimp only [okA, okRes, failA, laterA]
  repeat' (first
    | (with_reducible assumption) | (intro _) | (with_reducible apply State.queueKill_keeps)
    | (with_reducible apply forEach_keeps) | (with_reducible apply ite_keeps)
    | (with_reducible apply ite_fst_keeps) | (with_reducible apply ite_snd_keeps)
    | (with_reducible apply foldl_keeps) | (with_reducible apply forEach_keeps)
    | (with_reducible refine keeps_fst (by assumption) ?_)
    | (with_reducible refine keeps_snd (by assumption) ?_)
    | (with_reducible refine keeps_thd (by assumption) ?_)
    | (with_reducible refine keeps_fth (by assumption) ?_) | (dsimp only) | split
    | ((conv => arg 3; arg 26); with_reducible refine keeps_mk ?_ rfl rfl rfl rfl rfl))

theorem State.adminCreate_keeps {s : State} (f : Nat) (hs : Keeps p z s) : Keeps p z (State.adminCreate s f) := by
  unfold State.adminCreate
  try dsimp only [okA, okRes, failA, laterA]
  repeat' (first
    | (with_reducible assumption) | (intro _) | (with_reducible apply State.setQueue_keeps)
    | (with_reducible apply ite_keeps) | (with_reducible apply ite_fst_keeps)
    | (with_reducible apply ite_snd_keeps) | (with_reducible apply foldl_keeps)
    | (with_reducible apply forEach_keeps) | (with_reducible refine keeps_fst (by assumption) ?_)
    | (with_reducible refine keeps_snd (by assumption) ?_)
    | (with_reducible refine keeps_thd (by assumption) ?_)
    | (with_reducible refine keeps_fth (by assumption) ?_) | (dsimp only) | split
    | ((conv => arg 3; arg 26); with_reducible refine keeps_mk ?_ rfl rfl rfl rfl rfl))

theorem State.setEnable_keeps {s : State} (f : Nat) (v : Nat) (hs : Keeps p z s) : Keeps p z (State.setEnable s f
    v) := by
  unfold State.setEnable
  try dsimp only [okA, okRes, failA, laterA]
  repeat' (first
    | (with_reducible assumption) | (intro _) | (with_reducible apply State.wr_keeps)
    | (with_reducible apply ite_keeps) | (with_reducible apply ite_fst_keeps)
    | (with_reducible apply ite_snd_keeps) | (with_reducible apply foldl_keeps)
    | (with_reducible apply forEach_keeps) | (with_reducible refine keeps_fst (by assumption) ?_)
    | (with_reducible refine keeps_snd (by assumption) ?_)
    | (with_reducible refine keeps_thd (by assumption) ?_)
    | (with_reducible refine keeps_fth (by assumption) ?_) | (dsimp only) | split
    | ((conv => arg 3; arg 26); with_reducible refine keeps_mk ?_ rfl rfl rfl rfl rfl))

theorem State.adminEnable_keeps {s : State} (f : Nat) (hs : Keeps p z s) : Keeps p z (State.adminEnable s f) := by
  unfold State.adminEnable
  try dsimp only [okA, okRes, failA, laterA]
  repeat' (first
    | (with_reducible assumption) | (intro _) | (with_reducible apply State.setEnable_keeps)
    | (with_reducible apply State.adminCreate_keeps) | (with_reducible apply ite_keeps)
    | (with_reducible apply ite_fst_keeps) | (with_reducible apply ite_snd_keeps)
    | (with_reducible apply foldl_keeps) | (with_reducible apply forEach_keeps)
    | (with_reducible refine keeps_fst (by assumption) ?_)
    | (with_reducible refine keeps_snd (by assumption) ?_)
    | (with_reducible refine keeps_thd (by assumption) ?_)
    | (with_reducible refine keeps_fth (by assumption) ?_) | (dsimp only) | split
    | ((conv => arg 3; arg 26); with_reducible refine keeps_mk ?_ rfl rfl rfl rfl rfl))

theorem State.adminDisable_keeps {s : State} (f : Nat) (hs : Keeps p z s) : Keeps p z (State.adminDisable s f) := by
  unfold State.adminDisable
  try dsimp only [okA, okRes, failA, laterA]
  repeat' (first
    | (with_reducible assumption) | (intro _) | (with_reducible apply State.setEnable_keeps)
    | (with_reducible apply State.destroyAll_keeps) | (with_reducible apply ite_keeps)
    | (with_reducible apply ite_fst_keeps) | (with_reducible apply ite_snd_keeps)
    | (with_reducible apply foldl_keeps) | (with_reducible apply forEach_keeps)
    | (with_reducible refine keeps_fst (by assumption) ?_)
    | (with_reducible refine keeps_snd (by assumption) ?_)
    | (with_reducible refine keeps_thd (by assumption) ?_)
    | (with_reducible refine keeps_fth (by assumption) ?_) | (dsimp only) | split
    | ((conv => arg 3; arg 26); with_reducible refine keeps_mk ?_ rfl rfl rfl rfl rfl))

theorem queueCreate_keeps (j : Sys2Proof.Job) {s : State} (hs : Keeps p z s) : Keeps p z (queueCreate j s).1 := by
  unfold queueCreate
  try dsimp only [okA, okRes, failA, laterA]
  repeat' (first
    | (with_reducible assumption) | (intro _) | (with_reducible apply failA_keeps)
    | (with_reducible apply State.setQueue_keeps) | (with_reducible apply State.wr_keeps)
    | (with_reducible apply State.setChanState_keeps)
    | (with_reducible apply State.acctMake_keeps (e := by assumption)) | (with_reducible apply okRes_keeps)
    | (with_reducible apply ite_keeps) | (with_reducible apply ite_fst_keeps)
    | (with_reducible apply ite_snd_keeps) | (with_reducible apply foldl_keeps)
    | (with_reducible apply forEach_keeps) | (with_reducible refine keeps_fst (by assumption) ?_)
    | (with_reducible refine keeps_snd (by assumption) ?_)
    | (with_reducible refine keeps_thd (by assumption) ?_)
    | (with_reducible refine keeps_fth (by assumption) ?_) | (dsimp only) | split
    | ((conv => arg 3; arg 26); with_reducible refine keeps_mk ?_ rfl rfl rfl rfl rfl))

theorem queueDestroy_keeps (j : Sys2Proof.Job) {s : State} (hs : Keeps p z s) : Keeps p z (queueDestroy j s).1 := by
  unfold queueDestroy
  try dsimp only [okA, okRes, failA, laterA]
  repeat' (first
    | (with_reducible assumption) | (intro _) | (with_reducible apply failA_keeps)
    | (with_reducible apply laterA_keeps) | (with_reducible apply State.setQueue_keeps)
    | (with_reducible apply State.chanUnbind_keeps) | (with_reducible apply State.puntStop_keeps)
    | (with_reducible apply ite_keeps) | (with_reducible apply ite_fst_keeps)
    | (with_reducible apply ite_snd_keeps) | (with_reducible apply foldl_keeps)
    | (with_reducible apply forEach_keeps) | (with_reducible refine keeps_fst (by assumption) ?_)
    | (with_reducible refine keeps_snd (by assumption) ?_)
    | (with_reducible refine keeps_thd (by assumption) ?_)
    | (with_reducible refine keeps_fth (by assumption) ?_) | (dsimp only) | split
    | ((conv => arg 3; arg 26); with_reducible refine keeps_mk ?_ rfl rfl rfl rfl rfl))

theorem queueQuery_keeps (j : Sys2Proof.Job) {s : State} (hs : Keeps p z s) : Keeps p z (queueQuery j s).1 := by
  unfold queueQuery
  try dsimp only [okA, okRes, failA, laterA]
  repeat' (first
    | (with_reducible assumption) | (intro _) | (with_reducible apply failA_keeps)
    | (with_reducible apply okRes_keeps) | (with_reducible apply State.jobWrite_keeps)
    | (with_reducible apply ite_keeps) | (with_reducible apply ite_fst_keeps)
    | (with_reducible apply ite_snd_keeps) | (with_reducible apply foldl_keeps)
    | (with_reducible apply forEach_keeps) | (with_reducible refine keeps_fst (by assumption) ?_)
    | (with_reducible refine keeps_snd (by assumption) ?_)
    | (with_reducible refine keeps_thd (by assumption) ?_)
    | (with_reducible refine keeps_fth (by assumption) ?_) | (dsimp only) | split
    | ((conv => arg 3; arg 26); with_reducible refine keeps_mk ?_ rfl rfl rfl rfl rfl))

theorem queueCoalesce_keeps (j : Sys2Proof.Job) {s : State} (hs : Keeps p z s) : Keeps p z (queueCoalesce j s).1 :=
    by
  unfold queueCoalesce
  try dsimp only [okA, okRes, failA, laterA]
  repeat' (first
    | (with_reducible assumption) | (intro _) | (with_reducible apply failA_keeps)
    | (with_reducible apply State.setQueue_keeps) | (with_reducible apply okA_keeps)
    | (with_reducible apply State.signal_keeps) | (with_reducible apply ite_keeps)
    | (with_reducible apply ite_fst_keeps) | (with_reducible apply ite_snd_keeps)
    | (with_reducible apply foldl_keeps) | (with_reducible apply forEach_keeps)
    | (with_reducible refine keeps_fst (by assumption) ?_)
    | (with_reducible refine keeps_snd (by assumption) ?_)
    | (with_reducible refine keeps_thd (by assumption) ?_)
    | (with_reducible refine keeps_fth (by assumption) ?_) | (dsimp only) | split
    | ((conv => arg 3; arg 26); with_reducible refine keeps_mk ?_ rfl rfl rfl rfl rfl))

theorem echo_keeps (j : Sys2Proof.Job) {s : State} (hs : Keeps p z s) : Keeps p z (echo j s).1 := by
  unfold echo
  try dsimp only [okA, okRes, failA, laterA]
  repeat' (first
    | (with_reducible assumption) | (intro _) | (with_reducible apply okRes_keeps)
    | (with_reducible apply ite_keeps) | (with_reducible apply ite_fst_keeps)
    | (with_reducible apply ite_snd_keeps) | (with_reducible apply foldl_keeps)
    | (with_reducible apply forEach_keeps) | (with_reducible refine keeps_fst (by assumption) ?_)
    | (with_reducible refine keeps_snd (by assumption) ?_)
    | (with_reducible refine keeps_thd (by assumption) ?_)
    | (with_reducible refine keeps_fth (by assumption) ?_) | (dsimp only) | split
    | ((conv => arg 3; arg 26); with_reducible refine keeps_mk ?_ rfl rfl rfl rfl rfl))

theorem execAdminCtlEnable_keeps (f : Fin 256) {s : State} (hs : Keeps p z s) {t' : State} (e : execAdminCtlEnable
    f s = .next t') : Keeps p z t' := by
  unfold execAdminCtlEnable at e
  repeat' (first | cases e | split at e | (dsimp only at e))
  all_goals
    try dsimp only
    repeat' (first
      | (with_reducible assumption) | (intro _) | (with_reducible apply State.posted_keeps)
      | (with_reducible apply State.adminEnable_keeps) | (with_reducible apply State.runJob_keeps)
      | (with_reducible apply ite_keeps) | (with_reducible apply ite_fst_keeps)
      | (with_reducible apply ite_snd_keeps) | (with_reducible apply foldl_keeps)
      | (with_reducible apply forEach_keeps) | (with_reducible refine keeps_fst (by assumption) ?_)
      | (with_reducible refine keeps_snd (by assumption) ?_)
      | (with_reducible refine keeps_thd (by assumption) ?_)
      | (with_reducible refine keeps_fth (by assumption) ?_) | (dsimp only) | split
      | ((conv => arg 3; arg 26); with_reducible refine keeps_mk ?_ rfl rfl rfl rfl rfl))

theorem execAdminCtlDisable_keeps (f : Fin 256) {s : State} (hs : Keeps p z s) {t' : State} (e :
    execAdminCtlDisable f s = .next t') : Keeps p z t' := by
  unfold execAdminCtlDisable at e
  repeat' (first | cases e | split at e | (dsimp only at e))
  all_goals
    try dsimp only
    repeat' (first
      | (with_reducible assumption) | (intro _) | (with_reducible apply State.posted_keeps)
      | (with_reducible apply State.adminDisable_keeps) | (with_reducible apply State.runJob_keeps)
      | (with_reducible apply ite_keeps) | (with_reducible apply ite_fst_keeps)
      | (with_reducible apply ite_snd_keeps) | (with_reducible apply foldl_keeps)
      | (with_reducible apply forEach_keeps) | (with_reducible refine keeps_fst (by assumption) ?_)
      | (with_reducible refine keeps_snd (by assumption) ?_)
      | (with_reducible refine keeps_thd (by assumption) ?_)
      | (with_reducible refine keeps_fth (by assumption) ?_) | (dsimp only) | split
      | ((conv => arg 3; arg 26); with_reducible refine keeps_mk ?_ rfl rfl rfl rfl rfl))

theorem execSqTailDoorbell_keeps (f : Fin 256) (i : Fin 512) (v : Sys2Proof.Word32) {s : State} (hs : Keeps p z s)
    {t' : State} (e : execSqTailDoorbell f i v s = .next t') : Keeps p z t' := by
  unfold execSqTailDoorbell at e
  repeat' (first | cases e | split at e | (dsimp only at e))
  all_goals
    try dsimp only
    repeat' (first
      | (with_reducible assumption) | (intro _) | (with_reducible apply State.posted_keeps)
      | (with_reducible apply State.tailDoorbell_keeps) | (with_reducible apply State.runJob_keeps)
      | (with_reducible apply ite_keeps) | (with_reducible apply ite_fst_keeps)
      | (with_reducible apply ite_snd_keeps) | (with_reducible apply foldl_keeps)
      | (with_reducible apply forEach_keeps) | (with_reducible refine keeps_fst (by assumption) ?_)
      | (with_reducible refine keeps_snd (by assumption) ?_)
      | (with_reducible refine keeps_thd (by assumption) ?_)
      | (with_reducible refine keeps_fth (by assumption) ?_) | (dsimp only) | split
      | ((conv => arg 3; arg 26); with_reducible refine keeps_mk ?_ rfl rfl rfl rfl rfl))

theorem execCqHeadDoorbell_keeps (f : Fin 256) (i : Fin 512) (v : Sys2Proof.Word32) {s : State} (hs : Keeps p z s)
    {t' : State} (e : execCqHeadDoorbell f i v s = .next t') : Keeps p z t' := by
  unfold execCqHeadDoorbell at e
  repeat' (first | cases e | split at e | (dsimp only at e))
  all_goals
    try dsimp only
    repeat' (first
      | (with_reducible assumption) | (intro _) | (with_reducible apply State.posted_keeps)
      | (with_reducible apply State.headDoorbell_keeps) | (with_reducible apply State.runJob_keeps)
      | (with_reducible apply ite_keeps) | (with_reducible apply ite_fst_keeps)
      | (with_reducible apply ite_snd_keeps) | (with_reducible apply foldl_keeps)
      | (with_reducible apply forEach_keeps) | (with_reducible refine keeps_fst (by assumption) ?_)
      | (with_reducible refine keeps_snd (by assumption) ?_)
      | (with_reducible refine keeps_thd (by assumption) ?_)
      | (with_reducible refine keeps_fth (by assumption) ?_) | (dsimp only) | split
      | ((conv => arg 3; arg 26); with_reducible refine keeps_mk ?_ rfl rfl rfl rfl rfl))

theorem execJobFetch_keeps {s : State} (hs : Keeps p z s) {t' : State} (e : execJobFetch s = .next t') : Keeps p z
    t' := by
  unfold execJobFetch at e
  repeat' (first | cases e | split at e | (dsimp only at e))
  all_goals
    try dsimp only
    repeat' (first
      | (with_reducible assumption) | (intro _) | (with_reducible apply State.fetchJob_keeps)
      | (with_reducible apply State.runJob_keeps) | (with_reducible apply ite_keeps)
      | (with_reducible apply ite_fst_keeps) | (with_reducible apply ite_snd_keeps)
      | (with_reducible apply foldl_keeps) | (with_reducible apply forEach_keeps)
      | (with_reducible refine keeps_fst (by assumption) ?_)
      | (with_reducible refine keeps_snd (by assumption) ?_)
      | (with_reducible refine keeps_thd (by assumption) ?_)
      | (with_reducible refine keeps_fth (by assumption) ?_) | (dsimp only) | split
      | ((conv => arg 3; arg 26); with_reducible refine keeps_mk ?_ rfl rfl rfl rfl rfl))

theorem State.badOpcode_keeps {s : State} (j : Sys2Proof.Job) (hs : Keeps p z s) : Keeps p z (State.badOpcode s j)
    := by
  unfold State.badOpcode
  try dsimp only [okA, okRes, failA, laterA]
  repeat' (first
    | (with_reducible assumption) | (intro _) | (with_reducible apply State.complete_keeps)
    | (with_reducible apply State.startJob_keeps) | (with_reducible apply State.chanReport_keeps)
    | (with_reducible apply ite_keeps) | (with_reducible apply ite_fst_keeps)
    | (with_reducible apply ite_snd_keeps) | (with_reducible apply foldl_keeps)
    | (with_reducible apply forEach_keeps) | (with_reducible refine keeps_fst (by assumption) ?_)
    | (with_reducible refine keeps_snd (by assumption) ?_)
    | (with_reducible refine keeps_thd (by assumption) ?_)
    | (with_reducible refine keeps_fth (by assumption) ?_) | (dsimp only) | split
    | ((conv => arg 3; arg 26); with_reducible refine keeps_mk ?_ rfl rfl rfl rfl rfl))

theorem execUndefinedOpcodeJob_keeps (j : Sys2Proof.Job) {s : State} (hs : Keeps p z s) {t' : State} (e :
    execUndefinedOpcodeJob j s = .next t') : Keeps p z t' := by
  unfold execUndefinedOpcodeJob at e
  repeat' (first | cases e | split at e | (dsimp only at e))
  all_goals
    try dsimp only
    repeat' (first
      | (with_reducible assumption) | (intro _) | (with_reducible apply State.badOpcode_keeps)
      | (with_reducible apply State.runJob_keeps) | (with_reducible apply ite_keeps)
      | (with_reducible apply ite_fst_keeps) | (with_reducible apply ite_snd_keeps)
      | (with_reducible apply foldl_keeps) | (with_reducible apply forEach_keeps)
      | (with_reducible refine keeps_fst (by assumption) ?_)
      | (with_reducible refine keeps_snd (by assumption) ?_)
      | (with_reducible refine keeps_thd (by assumption) ?_)
      | (with_reducible refine keeps_fth (by assumption) ?_) | (dsimp only) | split
      | ((conv => arg 3; arg 26); with_reducible refine keeps_mk ?_ rfl rfl rfl rfl rfl))

theorem execCompletionWrite_keeps (c : Fin 4096) {s : State} (hs : Keeps p z s) {t' : State} (e :
    execCompletionWrite c s = .next t') : Keeps p z t' := by
  unfold execCompletionWrite at e
  repeat' (first | cases e | split at e | (dsimp only at e))
  all_goals
    try dsimp only
    repeat' (first
      | (with_reducible assumption) | (intro _) | (with_reducible apply State.writeDone_keeps)
      | (with_reducible apply State.runJob_keeps) | (with_reducible apply ite_keeps)
      | (with_reducible apply ite_fst_keeps) | (with_reducible apply ite_snd_keeps)
      | (with_reducible apply foldl_keeps) | (with_reducible apply forEach_keeps)
      | (with_reducible refine keeps_fst (by assumption) ?_)
      | (with_reducible refine keeps_snd (by assumption) ?_)
      | (with_reducible refine keeps_thd (by assumption) ?_)
      | (with_reducible refine keeps_fth (by assumption) ?_) | (dsimp only) | split
      | ((conv => arg 3; arg 26); with_reducible refine keeps_mk ?_ rfl rfl rfl rfl rfl))

theorem execNoticePost_keeps (q : Fin 4096) {s : State} (hs : Keeps p z s) {t' : State} (e : execNoticePost q s =
    .next t') : Keeps p z t' := by
  unfold execNoticePost at e
  repeat' (first | cases e | split at e | (dsimp only at e))
  all_goals
    try dsimp only
    repeat' (first
      | (with_reducible assumption) | (intro _) | (with_reducible apply State.postNotice_keeps)
      | (with_reducible apply State.runJob_keeps) | (with_reducible apply ite_keeps)
      | (with_reducible apply ite_fst_keeps) | (with_reducible apply ite_snd_keeps)
      | (with_reducible apply foldl_keeps) | (with_reducible apply forEach_keeps)
      | (with_reducible refine keeps_fst (by assumption) ?_)
      | (with_reducible refine keeps_snd (by assumption) ?_)
      | (with_reducible refine keeps_thd (by assumption) ?_)
      | (with_reducible refine keeps_fth (by assumption) ?_) | (dsimp only) | split
      | ((conv => arg 3; arg 26); with_reducible refine keeps_mk ?_ rfl rfl rfl rfl rfl))

theorem execCoalesceTimerExpiry_keeps (q : Fin 4096) {s : State} (hs : Keeps p z s) {t' : State} (e :
    execCoalesceTimerExpiry q s = .next t') : Keeps p z t' := by
  unfold execCoalesceTimerExpiry at e
  repeat' (first | cases e | split at e | (dsimp only at e))
  all_goals
    try dsimp only
    repeat' (first
      | (with_reducible assumption) | (intro _) | (with_reducible apply State.signal_keeps)
      | (with_reducible apply State.runJob_keeps) | (with_reducible apply ite_keeps)
      | (with_reducible apply ite_fst_keeps) | (with_reducible apply ite_snd_keeps)
      | (with_reducible apply foldl_keeps) | (with_reducible apply forEach_keeps)
      | (with_reducible refine keeps_fst (by assumption) ?_)
      | (with_reducible refine keeps_snd (by assumption) ?_)
      | (with_reducible refine keeps_thd (by assumption) ?_)
      | (with_reducible refine keeps_fth (by assumption) ?_) | (dsimp only) | split
      | ((conv => arg 3; arg 26); with_reducible refine keeps_mk ?_ rfl rfl rfl rfl rfl))

theorem execQueueStopDone_keeps (q : Fin 4096) {s : State} (hs : Keeps p z s) {t' : State} (e : execQueueStopDone q
    s = .next t') : Keeps p z t' := by
  unfold execQueueStopDone at e
  repeat' (first | cases e | split at e | (dsimp only at e))
  all_goals
    try dsimp only
    repeat' (first
      | (with_reducible assumption) | (intro _) | (with_reducible apply State.stopDone_keeps)
      | (with_reducible apply State.runJob_keeps) | (with_reducible apply ite_keeps)
      | (with_reducible apply ite_fst_keeps) | (with_reducible apply ite_snd_keeps)
      | (with_reducible apply foldl_keeps) | (with_reducible apply forEach_keeps)
      | (with_reducible refine keeps_fst (by assumption) ?_)
      | (with_reducible refine keeps_snd (by assumption) ?_)
      | (with_reducible refine keeps_thd (by assumption) ?_)
      | (with_reducible refine keeps_fth (by assumption) ?_) | (dsimp only) | split
      | ((conv => arg 3; arg 26); with_reducible refine keeps_mk ?_ rfl rfl rfl rfl rfl))

theorem execQueueCreate_keeps (j : Sys2Proof.Job) {s : State} (hs : Keeps p z s) {t' : State} (e : execQueueCreate
    j s = .next t') : Keeps p z t' := by
  unfold execQueueCreate at e
  repeat' (first | cases e | split at e | (dsimp only at e))
  all_goals
    try dsimp only
    repeat' (first
      | (with_reducible assumption) | (intro _) | (with_reducible apply jobRow_keeps (e := by assumption))
      | (with_reducible apply queueCreate_keeps) | (with_reducible apply State.runJob_keeps)
      | (with_reducible apply State.runJob_keeps) | (with_reducible apply ite_keeps)
      | (with_reducible apply ite_fst_keeps) | (with_reducible apply ite_snd_keeps)
      | (with_reducible apply foldl_keeps) | (with_reducible apply forEach_keeps)
      | (with_reducible refine keeps_fst (by assumption) ?_)
      | (with_reducible refine keeps_snd (by assumption) ?_)
      | (with_reducible refine keeps_thd (by assumption) ?_)
      | (with_reducible refine keeps_fth (by assumption) ?_) | (dsimp only) | split
      | ((conv => arg 3; arg 26); with_reducible refine keeps_mk ?_ rfl rfl rfl rfl rfl))

theorem execQueueDestroy_keeps (j : Sys2Proof.Job) {s : State} (hs : Keeps p z s) {t' : State} (e :
    execQueueDestroy j s = .next t') : Keeps p z t' := by
  unfold execQueueDestroy at e
  repeat' (first | cases e | split at e | (dsimp only at e))
  all_goals
    try dsimp only
    repeat' (first
      | (with_reducible assumption) | (intro _) | (with_reducible apply jobRow_keeps (e := by assumption))
      | (with_reducible apply queueDestroy_keeps) | (with_reducible apply State.runJob_keeps)
      | (with_reducible apply State.runJob_keeps) | (with_reducible apply ite_keeps)
      | (with_reducible apply ite_fst_keeps) | (with_reducible apply ite_snd_keeps)
      | (with_reducible apply foldl_keeps) | (with_reducible apply forEach_keeps)
      | (with_reducible refine keeps_fst (by assumption) ?_)
      | (with_reducible refine keeps_snd (by assumption) ?_)
      | (with_reducible refine keeps_thd (by assumption) ?_)
      | (with_reducible refine keeps_fth (by assumption) ?_) | (dsimp only) | split
      | ((conv => arg 3; arg 26); with_reducible refine keeps_mk ?_ rfl rfl rfl rfl rfl))

theorem execQueueQuery_keeps (j : Sys2Proof.Job) {s : State} (hs : Keeps p z s) {t' : State} (e : execQueueQuery j
    s = .next t') : Keeps p z t' := by
  unfold execQueueQuery at e
  repeat' (first | cases e | split at e | (dsimp only at e))
  all_goals
    try dsimp only
    repeat' (first
      | (with_reducible assumption) | (intro _) | (with_reducible apply jobRow_keeps (e := by assumption))
      | (with_reducible apply queueQuery_keeps) | (with_reducible apply State.runJob_keeps)
      | (with_reducible apply State.runJob_keeps) | (with_reducible apply ite_keeps)
      | (with_reducible apply ite_fst_keeps) | (with_reducible apply ite_snd_keeps)
      | (with_reducible apply foldl_keeps) | (with_reducible apply forEach_keeps)
      | (with_reducible refine keeps_fst (by assumption) ?_)
      | (with_reducible refine keeps_snd (by assumption) ?_)
      | (with_reducible refine keeps_thd (by assumption) ?_)
      | (with_reducible refine keeps_fth (by assumption) ?_) | (dsimp only) | split
      | ((conv => arg 3; arg 26); with_reducible refine keeps_mk ?_ rfl rfl rfl rfl rfl))

theorem execQueueCoalesce_keeps (j : Sys2Proof.Job) {s : State} (hs : Keeps p z s) {t' : State} (e :
    execQueueCoalesce j s = .next t') : Keeps p z t' := by
  unfold execQueueCoalesce at e
  repeat' (first | cases e | split at e | (dsimp only at e))
  all_goals
    try dsimp only
    repeat' (first
      | (with_reducible assumption) | (intro _) | (with_reducible apply jobRow_keeps (e := by assumption))
      | (with_reducible apply queueCoalesce_keeps) | (with_reducible apply State.runJob_keeps)
      | (with_reducible apply State.runJob_keeps) | (with_reducible apply ite_keeps)
      | (with_reducible apply ite_fst_keeps) | (with_reducible apply ite_snd_keeps)
      | (with_reducible apply foldl_keeps) | (with_reducible apply forEach_keeps)
      | (with_reducible refine keeps_fst (by assumption) ?_)
      | (with_reducible refine keeps_snd (by assumption) ?_)
      | (with_reducible refine keeps_thd (by assumption) ?_)
      | (with_reducible refine keeps_fth (by assumption) ?_) | (dsimp only) | split
      | ((conv => arg 3; arg 26); with_reducible refine keeps_mk ?_ rfl rfl rfl rfl rfl))

theorem execEcho_keeps (j : Sys2Proof.Job) {s : State} (hs : Keeps p z s) {t' : State} (e : execEcho j s = .next
    t') : Keeps p z t' := by
  unfold execEcho at e
  repeat' (first | cases e | split at e | (dsimp only at e))
  all_goals
    try dsimp only
    repeat' (first
      | (with_reducible assumption) | (intro _) | (with_reducible apply jobRow_keeps (e := by assumption))
      | (with_reducible apply echo_keeps) | (with_reducible apply State.runJob_keeps)
      | (with_reducible apply State.runJob_keeps) | (with_reducible apply ite_keeps)
      | (with_reducible apply ite_fst_keeps) | (with_reducible apply ite_snd_keeps)
      | (with_reducible apply foldl_keeps) | (with_reducible apply forEach_keeps)
      | (with_reducible refine keeps_fst (by assumption) ?_)
      | (with_reducible refine keeps_snd (by assumption) ?_)
      | (with_reducible refine keeps_thd (by assumption) ?_)
      | (with_reducible refine keeps_fth (by assumption) ?_) | (dsimp only) | split
      | ((conv => arg 3; arg 26); with_reducible refine keeps_mk ?_ rfl rfl rfl rfl rfl))

theorem execEventRecordPost_keeps (q : Fin 4096) (r : List Sys2Proof.Byte) {s : State} (hs : Keeps p z s) {t' :
    State} (e : execEventRecordPost q r s = .next t') : Keeps p z t' := by
  unfold execEventRecordPost at e
  repeat' (first | cases e | split at e | (dsimp only at e))
  all_goals
    try dsimp only
    repeat' (first
      | (with_reducible assumption) | (intro _) | (with_reducible apply State.postEvent_keeps)
      | (with_reducible apply State.runJob_keeps) | (with_reducible apply ite_keeps)
      | (with_reducible apply ite_fst_keeps) | (with_reducible apply ite_snd_keeps)
      | (with_reducible apply foldl_keeps) | (with_reducible apply forEach_keeps)
      | (with_reducible refine keeps_fst (by assumption) ?_)
      | (with_reducible refine keeps_snd (by assumption) ?_)
      | (with_reducible refine keeps_thd (by assumption) ?_)
      | (with_reducible refine keeps_fth (by assumption) ?_) | (dsimp only) | split
      | ((conv => arg 3; arg 26); with_reducible refine keeps_mk ?_ rfl rfl rfl rfl rfl))

end Sys2Proof.Machine
end

