-- ==== Sys2Proof/Laws/KeepsCells.lean ====
section
/-!
SUPPORT. Every operation of Machine/Cells.lean keeps the queue, the canonical form and the blown fuses.
-/
namespace Sys2Proof.Machine

variable {p : List Instr} {z : Fuses}

theorem State.setFreeShared_keeps {s : State} (x1 : Int) (hs : Keeps p z s) : Keeps p z (State.setFreeShared s x1)
    := by
  unfold State.setFreeShared
  try dsimp only [okA, okRes, failA, laterA]
  repeat' (first
    | (with_reducible assumption) | (intro _) | (with_reducible apply State.wr_keeps)
    | (with_reducible apply ite_keeps) | (with_reducible apply ite_fst_keeps)
    | (with_reducible apply ite_snd_keeps) | (with_reducible apply foldl_keeps)
    | (with_reducible apply forEach_keeps) | (with_reducible refine keeps_fst (by assumption) ?_)
    | (with_reducible refine keeps_snd (by assumption) ?_)
    | (with_reducible refine keeps_thd (by assumption) ?_)
    | (with_reducible refine keeps_fth (by assumption) ?_) | (dsimp only) | split
    | ((conv => arg 3; arg 26); with_reducible refine keeps_mk ?_ rfl rfl rfl rfl rfl))

theorem State.reshare_keeps {s : State} (hs : Keeps p z s) {t' : State} (e : State.reshare s = some t') : Keeps p z
    t' := by
  unfold State.reshare at e
  repeat' (first
    | cases e | contradiction | split at e | (dsimp only at e)
    | (simp only [Option.map_eq_some_iff] at e; obtain ⟨_, _, e⟩ := e; cases e))
  all_goals
    try dsimp only
    repeat' (first
      | (with_reducible assumption) | (intro _) | (with_reducible apply State.setFreeShared_keeps)
      | (with_reducible apply State.wr_keeps) | (with_reducible apply ite_keeps)
      | (with_reducible apply ite_fst_keeps) | (with_reducible apply ite_snd_keeps)
      | (with_reducible apply foldl_keeps) | (with_reducible apply forEach_keeps)
      | (with_reducible refine keeps_fst (by assumption) ?_)
      | (with_reducible refine keeps_snd (by assumption) ?_)
      | (with_reducible refine keeps_thd (by assumption) ?_)
      | (with_reducible refine keeps_fth (by assumption) ?_) | (dsimp only) | split
      | ((conv => arg 3; arg 26); with_reducible refine keeps_mk ?_ rfl rfl rfl rfl rfl))

theorem State.reshared_keeps {s : State} (hs : Keeps p z s) : Keeps p z (State.reshared s) := by
  unfold State.reshared
  try dsimp only [okA, okRes, failA, laterA]
  repeat' (first
    | (with_reducible assumption) | (intro _) | (with_reducible apply State.setFreeShared_keeps)
    | (with_reducible apply State.wr_keeps) | (with_reducible apply ite_keeps)
    | (with_reducible apply ite_fst_keeps) | (with_reducible apply ite_snd_keeps)
    | (with_reducible apply foldl_keeps) | (with_reducible apply forEach_keeps)
    | (with_reducible refine keeps_fst (by assumption) ?_)
    | (with_reducible refine keeps_snd (by assumption) ?_)
    | (with_reducible refine keeps_thd (by assumption) ?_)
    | (with_reducible refine keeps_fth (by assumption) ?_) | (dsimp only) | split
    | ((conv => arg 3; arg 26); with_reducible refine keeps_mk ?_ rfl rfl rfl rfl rfl))

theorem State.setXoff_keeps {s : State} (n : Nat) (c : Nat) (b : Bool) (hs : Keeps p z s) : Keeps p z
    (State.setXoff s n c b) := by
  unfold State.setXoff
  try dsimp only [okA, okRes, failA, laterA]
  repeat' (first
    | (with_reducible assumption) | (intro _) | (with_reducible apply State.wr_keeps)
    | (with_reducible apply State.setPort_keeps) | (with_reducible apply ite_keeps)
    | (with_reducible apply ite_fst_keeps) | (with_reducible apply ite_snd_keeps)
    | (with_reducible apply foldl_keeps) | (with_reducible apply forEach_keeps)
    | (with_reducible refine keeps_fst (by assumption) ?_)
    | (with_reducible refine keeps_snd (by assumption) ?_)
    | (with_reducible refine keeps_thd (by assumption) ?_)
    | (with_reducible refine keeps_fth (by assumption) ?_) | (dsimp only) | split
    | ((conv => arg 3; arg 26); with_reducible refine keeps_mk ?_ rfl rfl rfl rfl rfl))

theorem State.xonAll_keeps {s : State} (hs : Keeps p z s) : Keeps p z (State.xonAll s) := by
  unfold State.xonAll
  try dsimp only [okA, okRes, failA, laterA]
  repeat' (first
    | (with_reducible assumption) | (intro _) | (with_reducible apply forEach_keeps)
    | (with_reducible apply State.setXoff_keeps) | (with_reducible apply ite_keeps)
    | (with_reducible apply ite_fst_keeps) | (with_reducible apply ite_snd_keeps)
    | (with_reducible apply foldl_keeps) | (with_reducible apply forEach_keeps)
    | (with_reducible refine keeps_fst (by assumption) ?_)
    | (with_reducible refine keeps_snd (by assumption) ?_)
    | (with_reducible refine keeps_thd (by assumption) ?_)
    | (with_reducible refine keeps_fth (by assumption) ?_) | (dsimp only) | split
    | ((conv => arg 3; arg 26); with_reducible refine keeps_mk ?_ rfl rfl rfl rfl rfl))

theorem State.setBank_keeps {s : State} (b : Nat) (x : Sys2Proof.Machine.Bank) (hs : Keeps p z s) : Keeps p z
    (State.setBank s b x) := by
  unfold State.setBank
  try dsimp only [okA, okRes, failA, laterA]
  repeat' (first
    | (with_reducible assumption) | (intro _) | (with_reducible apply ite_keeps)
    | (with_reducible apply ite_fst_keeps) | (with_reducible apply ite_snd_keeps)
    | (with_reducible apply foldl_keeps) | (with_reducible apply forEach_keeps)
    | (with_reducible refine keeps_fst (by assumption) ?_)
    | (with_reducible refine keeps_snd (by assumption) ?_)
    | (with_reducible refine keeps_thd (by assumption) ?_)
    | (with_reducible refine keeps_fth (by assumption) ?_) | (dsimp only) | split
    | ((conv => arg 3; arg 26); with_reducible refine keeps_mk ?_ rfl rfl rfl rfl rfl))

theorem State.touchCell_keeps {s : State} (k : Nat) (hs : Keeps p z s) : Keeps p z (State.touchCell s k) := by
  unfold State.touchCell
  try dsimp only [okA, okRes, failA, laterA]
  repeat' (first
    | (with_reducible assumption) | (intro _) | (with_reducible apply ite_keeps)
    | (with_reducible apply ite_fst_keeps) | (with_reducible apply ite_snd_keeps)
    | (with_reducible apply foldl_keeps) | (with_reducible apply forEach_keeps)
    | (with_reducible refine keeps_fst (by assumption) ?_)
    | (with_reducible refine keeps_snd (by assumption) ?_)
    | (with_reducible refine keeps_thd (by assumption) ?_)
    | (with_reducible refine keeps_fth (by assumption) ?_) | (dsimp only) | split
    | ((conv => arg 3; arg 26); with_reducible refine keeps_mk ?_ rfl rfl rfl rfl rfl))

theorem State.takeCell_keeps {s : State} (f : Int) (hs : Keeps p z s) {r'} {t' : State} (e : State.takeCell s f =
    some (r', t')) : Keeps p z t' := by
  unfold State.takeCell at e
  repeat' (first
    | cases e | contradiction | split at e | (dsimp only at e)
    | (simp only [Option.map_eq_some_iff] at e; obtain ⟨_, _, e⟩ := e; cases e))
  all_goals
    try dsimp only
    repeat' (first
      | (with_reducible assumption) | (intro _) | (with_reducible apply State.touchCell_keeps)
      | (with_reducible apply State.setBank_keeps) | (with_reducible apply ite_keeps)
      | (with_reducible apply ite_fst_keeps) | (with_reducible apply ite_snd_keeps)
      | (with_reducible apply foldl_keeps) | (with_reducible apply forEach_keeps)
      | (with_reducible refine keeps_fst (by assumption) ?_)
      | (with_reducible refine keeps_snd (by assumption) ?_)
      | (with_reducible refine keeps_thd (by assumption) ?_)
      | (with_reducible refine keeps_fth (by assumption) ?_) | (dsimp only) | split
      | ((conv => arg 3; arg 26); with_reducible refine keeps_mk ?_ rfl rfl rfl rfl rfl))

theorem State.takeCells_keeps {s : State} (x1 : Nat) (hs : Keeps p z s) : Keeps p z (State.takeCells s x1).2 := by
  induction x1 generalizing s with
  | zero | succ n ih =>
    unfold State.takeCells
    try dsimp only [okA, okRes, failA, laterA]
    repeat' (first
      | (with_reducible assumption) | (intro _) | (with_reducible apply ih)
      | (with_reducible apply State.takeCell_keeps (e := by assumption)) | (with_reducible apply ite_keeps)
      | (with_reducible apply ite_fst_keeps) | (with_reducible apply ite_snd_keeps)
      | (with_reducible apply foldl_keeps) | (with_reducible apply forEach_keeps)
      | (with_reducible refine keeps_fst (by assumption) ?_)
      | (with_reducible refine keeps_snd (by assumption) ?_)
      | (with_reducible refine keeps_thd (by assumption) ?_)
      | (with_reducible refine keeps_fth (by assumption) ?_) | (dsimp only) | split
      | ((conv => arg 3; arg 26); with_reducible refine keeps_mk ?_ rfl rfl rfl rfl rfl))

theorem State.dropCell_keeps {s : State} (k : Nat) (hs : Keeps p z s) : Keeps p z (State.dropCell s k) := by
  unfold State.dropCell
  try dsimp only [okA, okRes, failA, laterA]
  repeat' (first
    | (with_reducible assumption) | (intro _) | (with_reducible apply State.setBank_keeps)
    | (with_reducible apply ite_keeps) | (with_reducible apply ite_fst_keeps)
    | (with_reducible apply ite_snd_keeps) | (with_reducible apply foldl_keeps)
    | (with_reducible apply forEach_keeps) | (with_reducible refine keeps_fst (by assumption) ?_)
    | (with_reducible refine keeps_snd (by assumption) ?_)
    | (with_reducible refine keeps_thd (by assumption) ?_)
    | (with_reducible refine keeps_fth (by assumption) ?_) | (dsimp only) | split
    | ((conv => arg 3; arg 26); with_reducible refine keeps_mk ?_ rfl rfl rfl rfl rfl))

theorem State.putCells_keeps {s : State} (l : List Nat) (hs : Keeps p z s) : Keeps p z (State.putCells s l) := by
  unfold State.putCells
  try dsimp only [okA, okRes, failA, laterA]
  repeat' (first
    | (with_reducible assumption) | (intro _) | (with_reducible apply forEach_keeps)
    | (with_reducible apply State.touchCell_keeps) | (with_reducible apply State.setBank_keeps)
    | (with_reducible apply ite_keeps) | (with_reducible apply ite_fst_keeps)
    | (with_reducible apply ite_snd_keeps) | (with_reducible apply foldl_keeps)
    | (with_reducible apply forEach_keeps) | (with_reducible refine keeps_fst (by assumption) ?_)
    | (with_reducible refine keeps_snd (by assumption) ?_)
    | (with_reducible refine keeps_thd (by assumption) ?_)
    | (with_reducible refine keeps_fth (by assumption) ?_) | (dsimp only) | split
    | ((conv => arg 3; arg 26); with_reducible refine keeps_mk ?_ rfl rfl rfl rfl rfl))

theorem State.addFree_keeps {s : State} (d : Int) (hs : Keeps p z s) : Keeps p z (State.addFree s d) := by
  unfold State.addFree
  try dsimp only [okA, okRes, failA, laterA]
  repeat' (first
    | (with_reducible assumption) | (intro _) | (with_reducible apply State.wr_keeps)
    | (with_reducible apply ite_keeps) | (with_reducible apply ite_fst_keeps)
    | (with_reducible apply ite_snd_keeps) | (with_reducible apply foldl_keeps)
    | (with_reducible apply forEach_keeps) | (with_reducible refine keeps_fst (by assumption) ?_)
    | (with_reducible refine keeps_snd (by assumption) ?_)
    | (with_reducible refine keeps_thd (by assumption) ?_)
    | (with_reducible refine keeps_fth (by assumption) ?_) | (dsimp only) | split
    | ((conv => arg 3; arg 26); with_reducible refine keeps_mk ?_ rfl rfl rfl rfl rfl))

theorem State.chargeCell_keeps {s : State} (n : Nat) (c : Nat) (hs : Keeps p z s) {t' : State} (e :
    State.chargeCell s n c = some t') : Keeps p z t' := by
  unfold State.chargeCell at e
  repeat' (first
    | cases e | contradiction | split at e | (dsimp only at e)
    | (simp only [Option.map_eq_some_iff] at e; obtain ⟨_, _, e⟩ := e; cases e))
  all_goals
    try dsimp only
    repeat' (first
      | (with_reducible assumption) | (intro _) | (with_reducible apply State.addFree_keeps)
      | (with_reducible apply State.wr_keeps) | (with_reducible apply State.setFreeShared_keeps)
      | (with_reducible apply State.setXoff_keeps) | (with_reducible apply ite_keeps)
      | (with_reducible apply ite_fst_keeps) | (with_reducible apply ite_snd_keeps)
      | (with_reducible apply foldl_keeps) | (with_reducible apply forEach_keeps)
      | (with_reducible refine keeps_fst (by assumption) ?_)
      | (with_reducible refine keeps_snd (by assumption) ?_)
      | (with_reducible refine keeps_thd (by assumption) ?_)
      | (with_reducible refine keeps_fth (by assumption) ?_) | (dsimp only) | split
      | ((conv => arg 3; arg 26); with_reducible refine keeps_mk ?_ rfl rfl rfl rfl rfl))

theorem State.chargeCells_keeps {s : State} (n : Nat) (c : Nat) (x3 : Nat) (hs : Keeps p z s) :
    Keeps p z (State.chargeCells s n c x3).2 := by
  induction x3 generalizing s with
  | zero => exact hs
  | succ k ih =>
    unfold State.chargeCells
    split
    · rename_i e
      obtain ⟨v, e1, e2⟩ := Option.bind_eq_some_iff.1 e
      exact ih (State.takeCell_keeps (e := e2) (hs := State.chargeCell_keeps (e := e1) _ _ hs))
    · exact hs

theorem State.forceCell_keeps {s : State} (n : Nat) (c : Nat) (hs : Keeps p z s) : Keeps p z (State.forceCell s n
    c) := by
  unfold State.forceCell
  try dsimp only [okA, okRes, failA, laterA]
  repeat' (first
    | (with_reducible assumption) | (intro _)
    | (with_reducible apply State.chargeCell_keeps (e := by assumption))
    | (with_reducible apply State.setFreeShared_keeps) | (with_reducible apply State.addFree_keeps)
    | (with_reducible apply State.wr_keeps) | (with_reducible apply ite_keeps)
    | (with_reducible apply ite_fst_keeps) | (with_reducible apply ite_snd_keeps)
    | (with_reducible apply foldl_keeps) | (with_reducible apply forEach_keeps)
    | (with_reducible refine keeps_fst (by assumption) ?_)
    | (with_reducible refine keeps_snd (by assumption) ?_)
    | (with_reducible refine keeps_thd (by assumption) ?_)
    | (with_reducible refine keeps_fth (by assumption) ?_) | (dsimp only) | split
    | ((conv => arg 3; arg 26); with_reducible refine keeps_mk ?_ rfl rfl rfl rfl rfl))

theorem State.forceCells_keeps {s : State} (n : Nat) (c : Nat) (x3 : Nat) (hs : Keeps p z s) : Keeps p z
    (State.forceCells s n c x3).2 := by
  induction x3 generalizing s n c with
  | zero | succ n ih =>
    unfold State.forceCells
    try dsimp only [okA, okRes, failA, laterA]
    repeat' (first
      | (with_reducible assumption) | (intro _) | (with_reducible apply ih)
      | (with_reducible apply State.takeCell_keeps (e := by assumption))
      | (with_reducible apply State.forceCell_keeps) | (with_reducible apply ite_keeps)
      | (with_reducible apply ite_fst_keeps) | (with_reducible apply ite_snd_keeps)
      | (with_reducible apply foldl_keeps) | (with_reducible apply forEach_keeps)
      | (with_reducible refine keeps_fst (by assumption) ?_)
      | (with_reducible refine keeps_snd (by assumption) ?_)
      | (with_reducible refine keeps_thd (by assumption) ?_)
      | (with_reducible refine keeps_fth (by assumption) ?_) | (dsimp only) | split
      | ((conv => arg 3; arg 26); with_reducible refine keeps_mk ?_ rfl rfl rfl rfl rfl))

theorem State.releaseCells_keeps {s : State} (n : Nat) (c : Nat) (k : Nat) (hs : Keeps p z s) : Keeps p z
    (State.releaseCells s n c k) := by
  unfold State.releaseCells
  try dsimp only [okA, okRes, failA, laterA]
  repeat' (first
    | (with_reducible assumption) | (intro _) | (with_reducible apply State.wr_keeps)
    | (with_reducible apply State.xonAll_keeps) | (with_reducible apply State.addFree_keeps)
    | (with_reducible apply State.setFreeShared_keeps) | (with_reducible apply ite_keeps)
    | (with_reducible apply ite_fst_keeps) | (with_reducible apply ite_snd_keeps)
    | (with_reducible apply foldl_keeps) | (with_reducible apply forEach_keeps)
    | (with_reducible refine keeps_fst (by assumption) ?_)
    | (with_reducible refine keeps_snd (by assumption) ?_)
    | (with_reducible refine keeps_thd (by assumption) ?_)
    | (with_reducible refine keeps_fth (by assumption) ?_) | (dsimp only) | split
    | ((conv => arg 3; arg 26); with_reducible refine keeps_mk ?_ rfl rfl rfl rfl rfl))

theorem State.setFrame_keeps {s : State} (i : Nat) (f : Sys2Proof.Machine.Frame) (hs : Keeps p z s) : Keeps p z
    (State.setFrame s i f) := by
  unfold State.setFrame
  try dsimp only [okA, okRes, failA, laterA]
  repeat' (first
    | (with_reducible assumption) | (intro _) | (with_reducible apply ite_keeps)
    | (with_reducible apply ite_fst_keeps) | (with_reducible apply ite_snd_keeps)
    | (with_reducible apply foldl_keeps) | (with_reducible apply forEach_keeps)
    | (with_reducible refine keeps_fst (by assumption) ?_)
    | (with_reducible refine keeps_snd (by assumption) ?_)
    | (with_reducible refine keeps_thd (by assumption) ?_)
    | (with_reducible refine keeps_fth (by assumption) ?_) | (dsimp only) | split
    | ((conv => arg 3; arg 26); with_reducible refine keeps_mk ?_ rfl rfl rfl rfl rfl))

theorem State.newFrame_keeps {s : State} (f : Sys2Proof.Machine.Frame) (hs : Keeps p z s) : Keeps p z
    (State.newFrame s f).2 := by
  unfold State.newFrame
  try dsimp only [okA, okRes, failA, laterA]
  repeat' (first
    | (with_reducible assumption) | (intro _) | (with_reducible apply State.setFrame_keeps)
    | (with_reducible apply ite_keeps) | (with_reducible apply ite_fst_keeps)
    | (with_reducible apply ite_snd_keeps) | (with_reducible apply foldl_keeps)
    | (with_reducible apply forEach_keeps) | (with_reducible refine keeps_fst (by assumption) ?_)
    | (with_reducible refine keeps_snd (by assumption) ?_)
    | (with_reducible refine keeps_thd (by assumption) ?_)
    | (with_reducible refine keeps_fth (by assumption) ?_) | (dsimp only) | split
    | ((conv => arg 3; arg 26); with_reducible refine keeps_mk ?_ rfl rfl rfl rfl rfl))

theorem State.uncharge_keeps {s : State} (f : Sys2Proof.Machine.Frame) (k : Nat) (hs : Keeps p z s) : Keeps p z
    (State.uncharge s f k) := by
  unfold State.uncharge
  try dsimp only [okA, okRes, failA, laterA]
  repeat' (first
    | (with_reducible assumption) | (intro _) | (with_reducible apply State.releaseCells_keeps)
    | (with_reducible apply State.addFree_keeps) | (with_reducible apply State.wr_keeps)
    | (with_reducible apply ite_keeps) | (with_reducible apply ite_fst_keeps)
    | (with_reducible apply ite_snd_keeps) | (with_reducible apply foldl_keeps)
    | (with_reducible apply forEach_keeps) | (with_reducible refine keeps_fst (by assumption) ?_)
    | (with_reducible refine keeps_snd (by assumption) ?_)
    | (with_reducible refine keeps_thd (by assumption) ?_)
    | (with_reducible refine keeps_fth (by assumption) ?_) | (dsimp only) | split
    | ((conv => arg 3; arg 26); with_reducible refine keeps_mk ?_ rfl rfl rfl rfl rfl))

theorem State.extraCells_keeps {s : State} (f : Sys2Proof.Machine.Frame) (k : Nat) (hs : Keeps p z s) : Keeps p z
    (State.extraCells s f k).2 := by
  unfold State.extraCells
  try dsimp only [okA, okRes, failA, laterA]
  repeat' (first
    | (with_reducible assumption) | (intro _) | (with_reducible apply State.forceCells_keeps)
    | (with_reducible apply State.takeCells_keeps) | (with_reducible apply State.addFree_keeps)
    | (with_reducible apply State.wr_keeps) | (with_reducible apply ite_keeps)
    | (with_reducible apply ite_fst_keeps) | (with_reducible apply ite_snd_keeps)
    | (with_reducible apply foldl_keeps) | (with_reducible apply forEach_keeps)
    | (with_reducible refine keeps_fst (by assumption) ?_)
    | (with_reducible refine keeps_snd (by assumption) ?_)
    | (with_reducible refine keeps_thd (by assumption) ?_)
    | (with_reducible refine keeps_fth (by assumption) ?_) | (dsimp only) | split
    | ((conv => arg 3; arg 26); with_reducible refine keeps_mk ?_ rfl rfl rfl rfl rfl))

theorem State.freeCells_keeps {s : State} (i : Nat) (hs : Keeps p z s) : Keeps p z (State.freeCells s i) := by
  unfold State.freeCells
  try dsimp only [okA, okRes, failA, laterA]
  repeat' (first
    | (with_reducible assumption) | (intro _) | (with_reducible apply State.uncharge_keeps)
    | (with_reducible apply State.putCells_keeps) | (with_reducible apply State.setFrame_keeps)
    | (with_reducible apply ite_keeps) | (with_reducible apply ite_fst_keeps)
    | (with_reducible apply ite_snd_keeps) | (with_reducible apply foldl_keeps)
    | (with_reducible apply forEach_keeps) | (with_reducible refine keeps_fst (by assumption) ?_)
    | (with_reducible refine keeps_snd (by assumption) ?_)
    | (with_reducible refine keeps_thd (by assumption) ?_)
    | (with_reducible refine keeps_fth (by assumption) ?_) | (dsimp only) | split
    | ((conv => arg 3; arg 26); with_reducible refine keeps_mk ?_ rfl rfl rfl rfl rfl))

theorem State.setHeads_keeps {s : State} (x1 : Nat) (l : List Nat) (hs : Keeps p z s) : Keeps p z (State.setHeads s
    x1 l) := by
  unfold State.setHeads
  try dsimp only [okA, okRes, failA, laterA]
  repeat' (first
    | (with_reducible assumption) | (intro _) | (with_reducible apply ite_keeps)
    | (with_reducible apply ite_fst_keeps) | (with_reducible apply ite_snd_keeps)
    | (with_reducible apply foldl_keeps) | (with_reducible apply forEach_keeps)
    | (with_reducible refine keeps_fst (by assumption) ?_)
    | (with_reducible refine keeps_snd (by assumption) ?_)
    | (with_reducible refine keeps_thd (by assumption) ?_)
    | (with_reducible refine keeps_fth (by assumption) ?_) | (dsimp only) | split
    | ((conv => arg 3; arg 26); with_reducible refine keeps_mk ?_ rfl rfl rfl rfl rfl))

theorem State.fillHeads_keeps {s : State} (hs : Keeps p z s) : Keeps p z (State.fillHeads s) := by
  unfold State.fillHeads
  try dsimp only [okA, okRes, failA, laterA]
  repeat' (first
    | (with_reducible assumption) | (intro _) | (with_reducible apply forEach_keeps)
    | (with_reducible apply State.setBank_keeps) | (with_reducible apply State.addFree_keeps)
    | (with_reducible apply State.setHeads_keeps) | (with_reducible apply ite_keeps)
    | (with_reducible apply ite_fst_keeps) | (with_reducible apply ite_snd_keeps)
    | (with_reducible apply foldl_keeps) | (with_reducible apply forEach_keeps)
    | (with_reducible refine keeps_fst (by assumption) ?_)
    | (with_reducible refine keeps_snd (by assumption) ?_)
    | (with_reducible refine keeps_thd (by assumption) ?_)
    | (with_reducible refine keeps_fth (by assumption) ?_) | (dsimp only) | split
    | ((conv => arg 3; arg 26); with_reducible refine keeps_mk ?_ rfl rfl rfl rfl rfl))

theorem State.repackCells_keeps {s : State} (x1 : Nat) (i : Nat) (k : Nat) (x4 : Nat) (hs : Keeps p z s) : Keeps p
    z (State.repackCells s x1 i k x4) := by
  unfold State.repackCells
  try dsimp only [okA, okRes, failA, laterA]
  repeat' (first
    | (with_reducible assumption) | (intro _) | (with_reducible apply State.extraCells_keeps)
    | (with_reducible apply State.setHeads_keeps) | (with_reducible apply State.uncharge_keeps)
    | (with_reducible apply State.putCells_keeps) | (with_reducible apply State.setFrame_keeps)
    | (with_reducible apply ite_keeps) | (with_reducible apply ite_fst_keeps)
    | (with_reducible apply ite_snd_keeps) | (with_reducible apply foldl_keeps)
    | (with_reducible apply forEach_keeps) | (with_reducible refine keeps_fst (by assumption) ?_)
    | (with_reducible refine keeps_snd (by assumption) ?_)
    | (with_reducible refine keeps_thd (by assumption) ?_)
    | (with_reducible refine keeps_fth (by assumption) ?_) | (dsimp only) | split
    | ((conv => arg 3; arg 26); with_reducible refine keeps_mk ?_ rfl rfl rfl rfl rfl))

theorem State.stopReceiving_keeps {s : State} (i : Nat) (n : Nat) (hs : Keeps p z s) : Keeps p z
    (State.stopReceiving s i n) := by
  unfold State.stopReceiving
  try dsimp only [okA, okRes, failA, laterA]
  repeat' (first
    | (with_reducible assumption) | (intro _) | (with_reducible apply forEach_keeps)
    | (with_reducible apply State.setPort_keeps) | (with_reducible apply ite_keeps)
    | (with_reducible apply ite_fst_keeps) | (with_reducible apply ite_snd_keeps)
    | (with_reducible apply foldl_keeps) | (with_reducible apply forEach_keeps)
    | (with_reducible refine keeps_fst (by assumption) ?_)
    | (with_reducible refine keeps_snd (by assumption) ?_)
    | (with_reducible refine keeps_thd (by assumption) ?_)
    | (with_reducible refine keeps_fth (by assumption) ?_) | (dsimp only) | split
    | ((conv => arg 3; arg 26); with_reducible refine keeps_mk ?_ rfl rfl rfl rfl rfl))

theorem State.clearFrame_keeps {s : State} (i : Nat) (hs : Keeps p z s) : Keeps p z (State.clearFrame s i) := by
  unfold State.clearFrame
  try dsimp only [okA, okRes, failA, laterA]
  repeat' (first
    | (with_reducible assumption) | (intro _) | (with_reducible apply State.setFrame_keeps)
    | (with_reducible apply State.freeCells_keeps) | (with_reducible apply State.stopReceiving_keeps)
    | (with_reducible apply ite_keeps) | (with_reducible apply ite_fst_keeps)
    | (with_reducible apply ite_snd_keeps) | (with_reducible apply foldl_keeps)
    | (with_reducible apply forEach_keeps) | (with_reducible refine keeps_fst (by assumption) ?_)
    | (with_reducible refine keeps_snd (by assumption) ?_)
    | (with_reducible refine keeps_thd (by assumption) ?_)
    | (with_reducible refine keeps_fth (by assumption) ?_) | (dsimp only) | split
    | ((conv => arg 3; arg 26); with_reducible refine keeps_mk ?_ rfl rfl rfl rfl rfl))

theorem State.unrefN_keeps {s : State} (x1 : Nat) (x2 : Nat) (hs : Keeps p z s) : Keeps p z (State.unrefN s x1 x2)
    := by
  induction x1 generalizing s x2 with
  | zero | succ n ih =>
    unfold State.unrefN
    try dsimp only [okA, okRes, failA, laterA]
    repeat' (first
      | (with_reducible assumption) | (intro _) | (with_reducible apply ih)
      | (with_reducible apply State.clearFrame_keeps) | (with_reducible apply State.setFrame_keeps)
      | (with_reducible apply ite_keeps) | (with_reducible apply ite_fst_keeps)
      | (with_reducible apply ite_snd_keeps) | (with_reducible apply foldl_keeps)
      | (with_reducible apply forEach_keeps) | (with_reducible refine keeps_fst (by assumption) ?_)
      | (with_reducible refine keeps_snd (by assumption) ?_)
      | (with_reducible refine keeps_thd (by assumption) ?_)
      | (with_reducible refine keeps_fth (by assumption) ?_) | (dsimp only) | split
      | ((conv => arg 3; arg 26); with_reducible refine keeps_mk ?_ rfl rfl rfl rfl rfl))

theorem State.unref_keeps {s : State} (i : Nat) (hs : Keeps p z s) : Keeps p z (State.unref s i) := by
  unfold State.unref
  try dsimp only [okA, okRes, failA, laterA]
  repeat' (first
    | (with_reducible assumption) | (intro _) | (with_reducible apply State.unrefN_keeps)
    | (with_reducible apply ite_keeps) | (with_reducible apply ite_fst_keeps)
    | (with_reducible apply ite_snd_keeps) | (with_reducible apply foldl_keeps)
    | (with_reducible apply forEach_keeps) | (with_reducible refine keeps_fst (by assumption) ?_)
    | (with_reducible refine keeps_snd (by assumption) ?_)
    | (with_reducible refine keeps_thd (by assumption) ?_)
    | (with_reducible refine keeps_fth (by assumption) ?_) | (dsimp only) | split
    | ((conv => arg 3; arg 26); with_reducible refine keeps_mk ?_ rfl rfl rfl rfl rfl))

theorem State.dropFrame_keeps {s : State} (i : Nat) (hs : Keeps p z s) : Keeps p z (State.dropFrame s i) := by
  unfold State.dropFrame
  try dsimp only [okA, okRes, failA, laterA]
  repeat' (first
    | (with_reducible assumption) | (intro _) | (with_reducible apply State.unref_keeps)
    | (with_reducible apply State.setFrame_keeps) | (with_reducible apply ite_keeps)
    | (with_reducible apply ite_fst_keeps) | (with_reducible apply ite_snd_keeps)
    | (with_reducible apply foldl_keeps) | (with_reducible apply forEach_keeps)
    | (with_reducible refine keeps_fst (by assumption) ?_)
    | (with_reducible refine keeps_snd (by assumption) ?_)
    | (with_reducible refine keeps_thd (by assumption) ?_)
    | (with_reducible refine keeps_fth (by assumption) ?_) | (dsimp only) | split
    | ((conv => arg 3; arg 26); with_reducible refine keeps_mk ?_ rfl rfl rfl rfl rfl))

theorem State.setEgq_keeps {s : State} (q : Nat) (x : Sys2Proof.Machine.EgQ) (hs : Keeps p z s) : Keeps p z
    (State.setEgq s q x) := by
  unfold State.setEgq
  try dsimp only [okA, okRes, failA, laterA]
  repeat' (first
    | (with_reducible assumption) | (intro _) | (with_reducible apply ite_keeps)
    | (with_reducible apply ite_fst_keeps) | (with_reducible apply ite_snd_keeps)
    | (with_reducible apply foldl_keeps) | (with_reducible apply forEach_keeps)
    | (with_reducible refine keeps_fst (by assumption) ?_)
    | (with_reducible refine keeps_snd (by assumption) ?_)
    | (with_reducible refine keeps_thd (by assumption) ?_)
    | (with_reducible refine keeps_fth (by assumption) ?_) | (dsimp only) | split
    | ((conv => arg 3; arg 26); with_reducible refine keeps_mk ?_ rfl rfl rfl rfl rfl))

theorem State.spillReport_keeps {s : State} (st : Nat) (hs : Keeps p z s) : Keeps p z (State.spillReport s st) := by
  unfold State.spillReport
  try dsimp only [okA, okRes, failA, laterA]
  repeat' (first
    | (with_reducible assumption) | (intro _) | (with_reducible apply State.wr_keeps)
    | (with_reducible apply ite_keeps) | (with_reducible apply ite_fst_keeps)
    | (with_reducible apply ite_snd_keeps) | (with_reducible apply foldl_keeps)
    | (with_reducible apply forEach_keeps) | (with_reducible refine keeps_fst (by assumption) ?_)
    | (with_reducible refine keeps_snd (by assumption) ?_)
    | (with_reducible refine keeps_thd (by assumption) ?_)
    | (with_reducible refine keeps_fth (by assumption) ?_) | (dsimp only) | split
    | ((conv => arg 3; arg 26); with_reducible refine keeps_mk ?_ rfl rfl rfl rfl rfl))

theorem State.joinTail_keeps {s : State} (q : Nat) (hs : Keeps p z s) : Keeps p z (State.joinTail s q) := by
  unfold State.joinTail
  try dsimp only [okA, okRes, failA, laterA]
  repeat' (first
    | (with_reducible assumption) | (intro _) | (with_reducible apply State.setEgq_keeps)
    | (with_reducible apply ite_keeps) | (with_reducible apply ite_fst_keeps)
    | (with_reducible apply ite_snd_keeps) | (with_reducible apply foldl_keeps)
    | (with_reducible apply forEach_keeps) | (with_reducible refine keeps_fst (by assumption) ?_)
    | (with_reducible refine keeps_snd (by assumption) ?_)
    | (with_reducible refine keeps_thd (by assumption) ?_)
    | (with_reducible refine keeps_fth (by assumption) ?_) | (dsimp only) | split
    | ((conv => arg 3; arg 26); with_reducible refine keeps_mk ?_ rfl rfl rfl rfl rfl))

theorem State.joinQueue_keeps {s : State} (q : Nat) (c : Sys2Proof.Machine.Copy) (hs : Keeps p z s) : Keeps p z
    (State.joinQueue s q c) := by
  unfold State.joinQueue
  try dsimp only [okA, okRes, failA, laterA]
  repeat' (first
    | (with_reducible assumption) | (intro _) | (with_reducible apply State.setEgq_keeps)
    | (with_reducible apply State.spillReport_keeps) | (with_reducible apply State.joinTail_keeps)
    | (with_reducible apply ite_keeps) | (with_reducible apply ite_fst_keeps)
    | (with_reducible apply ite_snd_keeps) | (with_reducible apply foldl_keeps)
    | (with_reducible apply forEach_keeps) | (with_reducible refine keeps_fst (by assumption) ?_)
    | (with_reducible refine keeps_snd (by assumption) ?_)
    | (with_reducible refine keeps_thd (by assumption) ?_)
    | (with_reducible refine keeps_fth (by assumption) ?_) | (dsimp only) | split
    | ((conv => arg 3; arg 26); with_reducible refine keeps_mk ?_ rfl rfl rfl rfl rfl))

theorem State.idleDeficit_keeps {s : State} (kind : Nat) (n : Nat) (below : Nat → Bool) (hs : Keeps p z s) : Keeps
    p z (State.idleDeficit s kind n below) := by
  unfold State.idleDeficit
  try dsimp only [okA, okRes, failA, laterA]
  repeat' (first
    | (with_reducible assumption) | (intro _) | (with_reducible apply State.setNodeSt_keeps)
    | (with_reducible apply ite_keeps) | (with_reducible apply ite_fst_keeps)
    | (with_reducible apply ite_snd_keeps) | (with_reducible apply foldl_keeps)
    | (with_reducible apply forEach_keeps) | (with_reducible refine keeps_fst (by assumption) ?_)
    | (with_reducible refine keeps_snd (by assumption) ?_)
    | (with_reducible refine keeps_thd (by assumption) ?_)
    | (with_reducible refine keeps_fth (by assumption) ?_) | (dsimp only) | split
    | ((conv => arg 3; arg 26); with_reducible refine keeps_mk ?_ rfl rfl rfl rfl rfl))

theorem State.idleAbove_keeps {s : State} (b : Nat) (hs : Keeps p z s) : Keeps p z (State.idleAbove s b) := by
  unfold State.idleAbove
  try dsimp only [okA, okRes, failA, laterA]
  repeat' (first
    | (with_reducible assumption) | (intro _) | (with_reducible apply State.idleDeficit_keeps)
    | (with_reducible apply ite_keeps) | (with_reducible apply ite_fst_keeps)
    | (with_reducible apply ite_snd_keeps) | (with_reducible apply foldl_keeps)
    | (with_reducible apply forEach_keeps) | (with_reducible refine keeps_fst (by assumption) ?_)
    | (with_reducible refine keeps_snd (by assumption) ?_)
    | (with_reducible refine keeps_thd (by assumption) ?_)
    | (with_reducible refine keeps_fth (by assumption) ?_) | (dsimp only) | split
    | ((conv => arg 3; arg 26); with_reducible refine keeps_mk ?_ rfl rfl rfl rfl rfl))

theorem State.idleDeficits_keeps {s : State} (q : Nat) (hs : Keeps p z s) : Keeps p z (State.idleDeficits s q) := by
  unfold State.idleDeficits
  try dsimp only [okA, okRes, failA, laterA]
  repeat' (first
    | (with_reducible assumption) | (intro _) | (with_reducible apply State.idleDeficit_keeps)
    | (with_reducible apply State.idleAbove_keeps) | (with_reducible apply ite_keeps)
    | (with_reducible apply ite_fst_keeps) | (with_reducible apply ite_snd_keeps)
    | (with_reducible apply foldl_keeps) | (with_reducible apply forEach_keeps)
    | (with_reducible refine keeps_fst (by assumption) ?_)
    | (with_reducible refine keeps_snd (by assumption) ?_)
    | (with_reducible refine keeps_thd (by assumption) ?_)
    | (with_reducible refine keeps_fth (by assumption) ?_) | (dsimp only) | split
    | ((conv => arg 3; arg 26); with_reducible refine keeps_mk ?_ rfl rfl rfl rfl rfl))

theorem State.unchoose_keeps {s : State} (q : Nat) (order : Nat) (hs : Keeps p z s) : Keeps p z (State.unchoose s q
    order) := by
  unfold State.unchoose
  try dsimp only [okA, okRes, failA, laterA]
  repeat' (first
    | (with_reducible assumption) | (intro _) | (with_reducible apply State.setPort_keeps)
    | (with_reducible apply ite_keeps) | (with_reducible apply ite_fst_keeps)
    | (with_reducible apply ite_snd_keeps) | (with_reducible apply foldl_keeps)
    | (with_reducible apply forEach_keeps) | (with_reducible refine keeps_fst (by assumption) ?_)
    | (with_reducible refine keeps_snd (by assumption) ?_)
    | (with_reducible refine keeps_thd (by assumption) ?_)
    | (with_reducible refine keeps_fth (by assumption) ?_) | (dsimp only) | split
    | ((conv => arg 3; arg 26); with_reducible refine keeps_mk ?_ rfl rfl rfl rfl rfl))

theorem State.leaveQueue_keeps {s : State} (q : Nat) (c : Sys2Proof.Machine.Copy) (hs : Keeps p z s) : Keeps p z
    (State.leaveQueue s q c) := by
  unfold State.leaveQueue
  try dsimp only [okA, okRes, failA, laterA]
  repeat' (first
    | (with_reducible assumption) | (intro _) | (with_reducible apply State.unchoose_keeps)
    | (with_reducible apply State.idleDeficits_keeps) | (with_reducible apply State.joinTail_keeps)
    | (with_reducible apply State.spillReport_keeps) | (with_reducible apply State.setEgq_keeps)
    | (with_reducible apply ite_keeps) | (with_reducible apply ite_fst_keeps)
    | (with_reducible apply ite_snd_keeps) | (with_reducible apply foldl_keeps)
    | (with_reducible apply forEach_keeps) | (with_reducible refine keeps_fst (by assumption) ?_)
    | (with_reducible refine keeps_snd (by assumption) ?_)
    | (with_reducible refine keeps_thd (by assumption) ?_)
    | (with_reducible refine keeps_fth (by assumption) ?_) | (dsimp only) | split
    | ((conv => arg 3; arg 26); with_reducible refine keeps_mk ?_ rfl rfl rfl rfl rfl))

theorem State.stormCount_keeps {s : State} (n : Nat) (c : Nat) (hs : Keeps p z s) : Keeps p z (State.stormCount s n
    c) := by
  unfold State.stormCount
  try dsimp only [okA, okRes, failA, laterA]
  repeat' (first
    | (with_reducible assumption) | (intro _) | (with_reducible apply State.portCount_keeps)
    | (with_reducible apply ite_keeps) | (with_reducible apply ite_fst_keeps)
    | (with_reducible apply ite_snd_keeps) | (with_reducible apply foldl_keeps)
    | (with_reducible apply forEach_keeps) | (with_reducible refine keeps_fst (by assumption) ?_)
    | (with_reducible refine keeps_snd (by assumption) ?_)
    | (with_reducible refine keeps_thd (by assumption) ?_)
    | (with_reducible refine keeps_fth (by assumption) ?_) | (dsimp only) | split
    | ((conv => arg 3; arg 26); with_reducible refine keeps_mk ?_ rfl rfl rfl rfl rfl))

theorem State.nextOrder_keeps {s : State} (hs : Keeps p z s) : Keeps p z (State.nextOrder s).2 := by
  unfold State.nextOrder
  try dsimp only [okA, okRes, failA, laterA]
  repeat' (first
    | (with_reducible assumption) | (intro _) | (with_reducible apply ite_keeps)
    | (with_reducible apply ite_fst_keeps) | (with_reducible apply ite_snd_keeps)
    | (with_reducible apply foldl_keeps) | (with_reducible apply forEach_keeps)
    | (with_reducible refine keeps_fst (by assumption) ?_)
    | (with_reducible refine keeps_snd (by assumption) ?_)
    | (with_reducible refine keeps_thd (by assumption) ?_)
    | (with_reducible refine keeps_fth (by assumption) ?_) | (dsimp only) | split
    | ((conv => arg 3; arg 26); with_reducible refine keeps_mk ?_ rfl rfl rfl rfl rfl))

theorem State.place_keeps {s : State} (q : Nat) (c : Sys2Proof.Machine.Copy) (hs : Keeps p z s) : Keeps p z
    (State.place s q c) := by
  unfold State.place
  try dsimp only [okA, okRes, failA, laterA]
  repeat' (first
    | (with_reducible assumption) | (intro _) | (with_reducible apply State.unref_keeps)
    | (with_reducible apply State.stormCount_keeps) | (with_reducible apply State.pcEvent_keeps)
    | (with_reducible apply State.setEgq_keeps) | (with_reducible apply State.joinQueue_keeps)
    | (with_reducible apply ite_keeps) | (with_reducible apply ite_fst_keeps)
    | (with_reducible apply ite_snd_keeps) | (with_reducible apply foldl_keeps)
    | (with_reducible apply forEach_keeps) | (with_reducible refine keeps_fst (by assumption) ?_)
    | (with_reducible refine keeps_snd (by assumption) ?_)
    | (with_reducible refine keeps_thd (by assumption) ?_)
    | (with_reducible refine keeps_fth (by assumption) ?_) | (dsimp only) | split
    | ((conv => arg 3; arg 26); with_reducible refine keeps_mk ?_ rfl rfl rfl rfl rfl))

theorem State.admitTo_keeps {s : State} (i : Nat) (q : Nat) (launch : Option Nat) (hs : Keeps p z s) : Keeps p z
    (State.admitTo s i q launch) := by
  unfold State.admitTo
  try dsimp only [okA, okRes, failA, laterA]
  repeat' (first
    | (with_reducible assumption) | (intro _) | (with_reducible apply State.dropFrame_keeps)
    | (with_reducible apply State.nextOrder_keeps) | (with_reducible apply State.setFrame_keeps)
    | (with_reducible apply State.portCount_keeps) | (with_reducible apply State.place_keeps)
    | (with_reducible apply ite_keeps) | (with_reducible apply ite_fst_keeps)
    | (with_reducible apply ite_snd_keeps) | (with_reducible apply foldl_keeps)
    | (with_reducible apply forEach_keeps) | (with_reducible refine keeps_fst (by assumption) ?_)
    | (with_reducible refine keeps_snd (by assumption) ?_)
    | (with_reducible refine keeps_thd (by assumption) ?_)
    | (with_reducible refine keeps_fth (by assumption) ?_) | (dsimp only) | split
    | ((conv => arg 3; arg 26); with_reducible refine keeps_mk ?_ rfl rfl rfl rfl rfl))

theorem State.chooseQ_keeps {s : State} (n : Nat) (c : Nat) (q : Option Nat) (hs : Keeps p z s) : Keeps p z
    (State.chooseQ s n c q).2 := by
  unfold State.chooseQ
  try dsimp only [okA, okRes, failA, laterA]
  repeat' (first
    | (with_reducible assumption) | (intro _) | (with_reducible apply State.portCount_keeps)
    | (with_reducible apply ite_keeps) | (with_reducible apply ite_fst_keeps)
    | (with_reducible apply ite_snd_keeps) | (with_reducible apply foldl_keeps)
    | (with_reducible apply forEach_keeps) | (with_reducible refine keeps_fst (by assumption) ?_)
    | (with_reducible refine keeps_snd (by assumption) ?_)
    | (with_reducible refine keeps_thd (by assumption) ?_)
    | (with_reducible refine keeps_fth (by assumption) ?_) | (dsimp only) | split
    | ((conv => arg 3; arg 26); with_reducible refine keeps_mk ?_ rfl rfl rfl rfl rfl))

theorem State.setGroup_keeps {s : State} (g : Nat) (x : Sys2Proof.Machine.McGroup) (hs : Keeps p z s) : Keeps p z
    (State.setGroup s g x) := by
  unfold State.setGroup
  try dsimp only [okA, okRes, failA, laterA]
  repeat' (first
    | (with_reducible assumption) | (intro _) | (with_reducible apply ite_keeps)
    | (with_reducible apply ite_fst_keeps) | (with_reducible apply ite_snd_keeps)
    | (with_reducible apply foldl_keeps) | (with_reducible apply forEach_keeps)
    | (with_reducible refine keeps_fst (by assumption) ?_)
    | (with_reducible refine keeps_snd (by assumption) ?_)
    | (with_reducible refine keeps_thd (by assumption) ?_)
    | (with_reducible refine keeps_fth (by assumption) ?_) | (dsimp only) | split
    | ((conv => arg 3; arg 26); with_reducible refine keeps_mk ?_ rfl rfl rfl rfl rfl))

theorem State.admitGroup_keeps {s : State} (i : Nat) (g : Nat) (hs : Keeps p z s) : Keeps p z (State.admitGroup s i
    g) := by
  unfold State.admitGroup
  try dsimp only [okA, okRes, failA, laterA]
  repeat' (first
    | (with_reducible assumption) | (intro _) | (with_reducible apply State.dropFrame_keeps)
    | (with_reducible apply forEach_keeps) | (with_reducible apply State.portCount_keeps)
    | (with_reducible apply State.setFrame_keeps) | (with_reducible apply State.nextOrder_keeps)
    | (with_reducible apply State.place_keeps) | (with_reducible apply ite_keeps)
    | (with_reducible apply ite_fst_keeps) | (with_reducible apply ite_snd_keeps)
    | (with_reducible apply foldl_keeps) | (with_reducible apply forEach_keeps)
    | (with_reducible refine keeps_fst (by assumption) ?_)
    | (with_reducible refine keeps_snd (by assumption) ?_)
    | (with_reducible refine keeps_thd (by assumption) ?_)
    | (with_reducible refine keeps_fth (by assumption) ?_) | (dsimp only) | split
    | ((conv => arg 3; arg 26); with_reducible refine keeps_mk ?_ rfl rfl rfl rfl rfl))

theorem State.makeSample_keeps {s : State} (i : Nat) (f : Sys2Proof.Machine.Frame) (bytes : List Sys2Proof.Byte)
    (hs : Keeps p z s) : Keeps p z (State.makeSample s i f bytes) := by
  unfold State.makeSample
  try dsimp only [okA, okRes, failA, laterA]
  repeat' (first
    | (with_reducible assumption) | (intro _) | (with_reducible apply State.portCount_keeps)
    | (with_reducible apply State.count_keeps) | (with_reducible apply State.takeCells_keeps)
    | (with_reducible apply State.addFree_keeps) | (with_reducible apply State.wr_keeps)
    | (with_reducible apply State.newFrame_keeps) | (with_reducible apply State.nextOrder_keeps)
    | (with_reducible apply State.place_keeps) | (with_reducible apply ite_keeps)
    | (with_reducible apply ite_fst_keeps) | (with_reducible apply ite_snd_keeps)
    | (with_reducible apply foldl_keeps) | (with_reducible apply forEach_keeps)
    | (with_reducible refine keeps_fst (by assumption) ?_)
    | (with_reducible refine keeps_snd (by assumption) ?_)
    | (with_reducible refine keeps_thd (by assumption) ?_)
    | (with_reducible refine keeps_fth (by assumption) ?_) | (dsimp only) | split
    | ((conv => arg 3; arg 26); with_reducible refine keeps_mk ?_ rfl rfl rfl rfl rfl))

theorem State.offer_keeps {s : State} (i : Nat) (f : Sys2Proof.Machine.Frame) (bytes : List Sys2Proof.Byte) (hs :
    Keeps p z s) : Keeps p z (State.offer s i f bytes) := by
  unfold State.offer
  try dsimp only [okA, okRes, failA, laterA]
  repeat' (first
    | (with_reducible assumption) | (intro _) | (with_reducible apply State.makeSample_keeps)
    | (with_reducible apply ite_keeps) | (with_reducible apply ite_fst_keeps)
    | (with_reducible apply ite_snd_keeps) | (with_reducible apply foldl_keeps)
    | (with_reducible apply forEach_keeps) | (with_reducible refine keeps_fst (by assumption) ?_)
    | (with_reducible refine keeps_snd (by assumption) ?_)
    | (with_reducible refine keeps_thd (by assumption) ?_)
    | (with_reducible refine keeps_fth (by assumption) ?_) | (dsimp only) | split
    | ((conv => arg 3; arg 26); with_reducible refine keeps_mk ?_ rfl rfl rfl rfl rfl))

theorem State.offerFrame_keeps {s : State} (i : Nat) (hs : Keeps p z s) : Keeps p z (State.offerFrame s i) := by
  unfold State.offerFrame
  try dsimp only [okA, okRes, failA, laterA]
  repeat' (first
    | (with_reducible assumption) | (intro _) | (with_reducible apply State.setFrame_keeps)
    | (with_reducible apply forEach_keeps) | (with_reducible apply State.offer_keeps)
    | (with_reducible apply ite_keeps) | (with_reducible apply ite_fst_keeps)
    | (with_reducible apply ite_snd_keeps) | (with_reducible apply foldl_keeps)
    | (with_reducible apply forEach_keeps) | (with_reducible refine keeps_fst (by assumption) ?_)
    | (with_reducible refine keeps_snd (by assumption) ?_)
    | (with_reducible refine keeps_thd (by assumption) ?_)
    | (with_reducible refine keeps_fth (by assumption) ?_) | (dsimp only) | split
    | ((conv => arg 3; arg 26); with_reducible refine keeps_mk ?_ rfl rfl rfl rfl rfl))

theorem State.discardQueued_keeps {s : State} (i : Nat) (hs : Keeps p z s) : Keeps p z (State.discardQueued s i) :=
    by
  unfold State.discardQueued
  try dsimp only [okA, okRes, failA, laterA]
  repeat' (first
    | (with_reducible assumption) | (intro _) | (with_reducible apply forEach_keeps)
    | (with_reducible apply State.unref_keeps) | (with_reducible apply State.leaveQueue_keeps)
    | (with_reducible apply ite_keeps) | (with_reducible apply ite_fst_keeps)
    | (with_reducible apply ite_snd_keeps) | (with_reducible apply foldl_keeps)
    | (with_reducible apply forEach_keeps) | (with_reducible refine keeps_fst (by assumption) ?_)
    | (with_reducible refine keeps_snd (by assumption) ?_)
    | (with_reducible refine keeps_thd (by assumption) ?_)
    | (with_reducible refine keeps_fth (by assumption) ?_) | (dsimp only) | split
    | ((conv => arg 3; arg 26); with_reducible refine keeps_mk ?_ rfl rfl rfl rfl rfl))

end Sys2Proof.Machine
end

