-- ==== Sys2Proof/Laws/KeepsRidge.lean ====
section
/-!
SUPPORT. Every operation of Machine/Ridge.lean keeps the queue, the canonical form and the blown fuses.
-/
namespace Sys2Proof.Machine

variable {p : List Instr} {z : Fuses}

theorem State.autoHdrm_keeps {s : State} (n : Nat) (hs : Keeps p z s) : Keeps p z (State.autoHdrm s n) := by
  unfold State.autoHdrm
  try dsimp only [okA, okRes, failA, laterA]
  repeat' (first
    | (with_reducible assumption) | (intro _) | (with_reducible apply forEach_keeps)
    | (with_reducible apply State.wr_keeps) | (with_reducible apply ite_keeps)
    | (with_reducible apply ite_fst_keeps) | (with_reducible apply ite_snd_keeps)
    | (with_reducible apply foldl_keeps) | (with_reducible apply forEach_keeps)
    | (with_reducible refine keeps_fst (by assumption) ?_)
    | (with_reducible refine keeps_snd (by assumption) ?_)
    | (with_reducible refine keeps_thd (by assumption) ?_)
    | (with_reducible refine keeps_fth (by assumption) ?_) | (dsimp only) | split
    | ((conv => arg 3; arg 26); with_reducible refine keeps_mk ?_ rfl rfl rfl rfl rfl))

theorem State.portHeadroom_keeps {s : State} (n : Nat) (hs : Keeps p z s) : Keeps p z (State.portHeadroom s n) := by
  unfold State.portHeadroom
  try dsimp only [okA, okRes, failA, laterA]
  repeat' (first
    | (with_reducible assumption) | (intro _) | (with_reducible apply State.xonAll_keeps)
    | (with_reducible apply State.reshared_keeps) | (with_reducible apply State.autoHdrm_keeps)
    | (with_reducible apply ite_keeps) | (with_reducible apply ite_fst_keeps)
    | (with_reducible apply ite_snd_keeps) | (with_reducible apply foldl_keeps)
    | (with_reducible apply forEach_keeps) | (with_reducible refine keeps_fst (by assumption) ?_)
    | (with_reducible refine keeps_snd (by assumption) ?_)
    | (with_reducible refine keeps_thd (by assumption) ?_)
    | (with_reducible refine keeps_fth (by assumption) ?_) | (dsimp only) | split
    | ((conv => arg 3; arg 26); with_reducible refine keeps_mk ?_ rfl rfl rfl rfl rfl))

theorem State.hdrmMoved_keeps {s : State} (n : Nat) (hs : Keeps p z s) : Keeps p z (State.hdrmMoved s n) := by
  unfold State.hdrmMoved
  try dsimp only [okA, okRes, failA, laterA]
  repeat' (first
    | (with_reducible assumption) | (intro _) | (with_reducible apply State.portHeadroom_keeps)
    | (with_reducible apply ite_keeps) | (with_reducible apply ite_fst_keeps)
    | (with_reducible apply ite_snd_keeps) | (with_reducible apply foldl_keeps)
    | (with_reducible apply forEach_keeps) | (with_reducible refine keeps_fst (by assumption) ?_)
    | (with_reducible refine keeps_snd (by assumption) ?_)
    | (with_reducible refine keeps_thd (by assumption) ?_)
    | (with_reducible refine keeps_fth (by assumption) ?_) | (dsimp only) | split
    | ((conv => arg 3; arg 26); with_reducible refine keeps_mk ?_ rfl rfl rfl rfl rfl))

theorem State.lossyXon_keeps {s : State} (n : Nat) (hs : Keeps p z s) : Keeps p z (State.lossyXon s n) := by
  unfold State.lossyXon
  try dsimp only [okA, okRes, failA, laterA]
  repeat' (first
    | (with_reducible assumption) | (intro _) | (with_reducible apply forEach_keeps)
    | (with_reducible apply State.setXoff_keeps) | (with_reducible apply ite_keeps)
    | (with_reducible apply ite_fst_keeps) | (with_reducible apply ite_snd_keeps)
    | (with_reducible apply foldl_keeps) | (with_reducible apply forEach_keeps)
    | (with_reducible refine keeps_fst (by assumption) ?_)
    | (with_reducible refine keeps_snd (by assumption) ?_)
    | (with_reducible refine keeps_thd (by assumption) ?_)
    | (with_reducible refine keeps_fth (by assumption) ?_) | (dsimp only) | split
    | ((conv => arg 3; arg 26); with_reducible refine keeps_mk ?_ rfl rfl rfl rfl rfl))

theorem State.withHeadroom_keeps {s : State} (n : Nat) (r : List Sys2Proof.Byte) {old : State} (hs : Keeps p z s)
    (hold : Keeps p z old) : Keeps p z (State.withHeadroom s n r old).1 := by
  unfold State.withHeadroom
  try dsimp only [okA, okRes, failA, laterA]
  repeat' (first
    | (with_reducible assumption) | (intro _) | (with_reducible apply State.reshare_keeps (e := by assumption))
    | (with_reducible apply State.autoHdrm_keeps) | (with_reducible apply okRes_keeps)
    | (with_reducible apply State.xonAll_keeps) | (with_reducible apply State.lossyXon_keeps)
    | (with_reducible apply failA_keeps) | (with_reducible apply ite_keeps)
    | (with_reducible apply ite_fst_keeps) | (with_reducible apply ite_snd_keeps)
    | (with_reducible apply foldl_keeps) | (with_reducible apply forEach_keeps)
    | (with_reducible refine keeps_fst (by assumption) ?_)
    | (with_reducible refine keeps_snd (by assumption) ?_)
    | (with_reducible refine keeps_thd (by assumption) ?_)
    | (with_reducible refine keeps_fth (by assumption) ?_) | (dsimp only) | split
    | ((conv => arg 3; arg 26); with_reducible refine keeps_mk ?_ rfl rfl rfl rfl rfl))

theorem State.stormDrop_keeps {s : State} (n : Nat) (c : Nat) (hs : Keeps p z s) : Keeps p z (State.stormDrop s n
    c) := by
  unfold State.stormDrop
  try dsimp only [okA, okRes, failA, laterA]
  repeat' (first
    | (with_reducible assumption) | (intro _) | (with_reducible apply forEach_keeps)
    | (with_reducible apply State.unref_keeps) | (with_reducible apply State.stormCount_keeps)
    | (with_reducible apply State.leaveQueue_keeps) | (with_reducible apply ite_keeps)
    | (with_reducible apply ite_fst_keeps) | (with_reducible apply ite_snd_keeps)
    | (with_reducible apply foldl_keeps) | (with_reducible apply forEach_keeps)
    | (with_reducible refine keeps_fst (by assumption) ?_)
    | (with_reducible refine keeps_snd (by assumption) ?_)
    | (with_reducible refine keeps_thd (by assumption) ?_)
    | (with_reducible refine keeps_fth (by assumption) ?_) | (dsimp only) | split
    | ((conv => arg 3; arg 26); with_reducible refine keeps_mk ?_ rfl rfl rfl rfl rfl))

theorem State.setStorm_keeps {s : State} (n : Nat) (c : Nat) (b : Bool) (hs : Keeps p z s) : Keeps p z
    (State.setStorm s n c b) := by
  unfold State.setStorm
  try dsimp only [okA, okRes, failA, laterA]
  repeat' (first
    | (with_reducible assumption) | (intro _) | (with_reducible apply State.wr_keeps)
    | (with_reducible apply ite_keeps) | (with_reducible apply ite_fst_keeps)
    | (with_reducible apply ite_snd_keeps) | (with_reducible apply foldl_keeps)
    | (with_reducible apply forEach_keeps) | (with_reducible refine keeps_fst (by assumption) ?_)
    | (with_reducible refine keeps_snd (by assumption) ?_)
    | (with_reducible refine keeps_thd (by assumption) ?_)
    | (with_reducible refine keeps_fth (by assumption) ?_) | (dsimp only) | split
    | ((conv => arg 3; arg 26); with_reducible refine keeps_mk ?_ rfl rfl rfl rfl rfl))

theorem State.stormBegin_keeps {s : State} (n : Nat) (c : Nat) (hs : Keeps p z s) : Keeps p z (State.stormBegin s n
    c) := by
  unfold State.stormBegin
  try dsimp only [okA, okRes, failA, laterA]
  repeat' (first
    | (with_reducible assumption) | (intro _) | (with_reducible apply State.stormDrop_keeps)
    | (with_reducible apply State.setStorm_keeps) | (with_reducible apply State.event_keeps)
    | (with_reducible apply ite_keeps) | (with_reducible apply ite_fst_keeps)
    | (with_reducible apply ite_snd_keeps) | (with_reducible apply foldl_keeps)
    | (with_reducible apply forEach_keeps) | (with_reducible refine keeps_fst (by assumption) ?_)
    | (with_reducible refine keeps_snd (by assumption) ?_)
    | (with_reducible refine keeps_thd (by assumption) ?_)
    | (with_reducible refine keeps_fth (by assumption) ?_) | (dsimp only) | split
    | ((conv => arg 3; arg 26); with_reducible refine keeps_mk ?_ rfl rfl rfl rfl rfl))

theorem State.stormEnd_keeps {s : State} (n : Nat) (c : Nat) (hs : Keeps p z s) : Keeps p z (State.stormEnd s n c)
    := by
  unfold State.stormEnd
  try dsimp only [okA, okRes, failA, laterA]
  repeat' (first
    | (with_reducible assumption) | (intro _) | (with_reducible apply State.event_keeps)
    | (with_reducible apply State.setStorm_keeps) | (with_reducible apply ite_keeps)
    | (with_reducible apply ite_fst_keeps) | (with_reducible apply ite_snd_keeps)
    | (with_reducible apply foldl_keeps) | (with_reducible apply forEach_keeps)
    | (with_reducible refine keeps_fst (by assumption) ?_)
    | (with_reducible refine keeps_snd (by assumption) ?_)
    | (with_reducible refine keeps_thd (by assumption) ?_)
    | (with_reducible refine keeps_fth (by assumption) ?_) | (dsimp only) | split
    | ((conv => arg 3; arg 26); with_reducible refine keeps_mk ?_ rfl rfl rfl rfl rfl))

theorem State.holdDrop_keeps {s : State} (q : Nat) (k : Nat) (hs : Keeps p z s) : Keeps p z (State.holdDrop s q k)
    := by
  unfold State.holdDrop
  try dsimp only [okA, okRes, failA, laterA]
  repeat' (first
    | (with_reducible assumption) | (intro _) | (with_reducible apply State.event_keeps)
    | (with_reducible apply State.portCount_keeps) | (with_reducible apply State.leaveQueue_keeps)
    | (with_reducible apply State.unref_keeps) | (with_reducible apply State.pcEvent_keeps)
    | (with_reducible apply ite_keeps) | (with_reducible apply ite_fst_keeps)
    | (with_reducible apply ite_snd_keeps) | (with_reducible apply foldl_keeps)
    | (with_reducible apply forEach_keeps) | (with_reducible refine keeps_fst (by assumption) ?_)
    | (with_reducible refine keeps_snd (by assumption) ?_)
    | (with_reducible refine keeps_thd (by assumption) ?_)
    | (with_reducible refine keeps_fth (by assumption) ?_) | (dsimp only) | split
    | ((conv => arg 3; arg 26); with_reducible refine keeps_mk ?_ rfl rfl rfl rfl rfl))

theorem State.spillConfirm_keeps {s : State} (q : Nat) (hs : Keeps p z s) : Keeps p z (State.spillConfirm s q) := by
  unfold State.spillConfirm
  try dsimp only [okA, okRes, failA, laterA]
  repeat' (first
    | (with_reducible assumption) | (intro _) | (with_reducible apply State.setEgq_keeps)
    | (with_reducible apply State.count_keeps) | (with_reducible apply State.freeCells_keeps)
    | (with_reducible apply State.setFrame_keeps) | (with_reducible apply ite_keeps)
    | (with_reducible apply ite_fst_keeps) | (with_reducible apply ite_snd_keeps)
    | (with_reducible apply foldl_keeps) | (with_reducible apply forEach_keeps)
    | (with_reducible refine keeps_fst (by assumption) ?_)
    | (with_reducible refine keeps_snd (by assumption) ?_)
    | (with_reducible refine keeps_thd (by assumption) ?_)
    | (with_reducible refine keeps_fth (by assumption) ?_) | (dsimp only) | split
    | ((conv => arg 3; arg 26); with_reducible refine keeps_mk ?_ rfl rfl rfl rfl rfl))

theorem State.refillReturn_keeps {s : State} (q : Nat) (ok : Bool) (hs : Keeps p z s) : Keeps p z
    (State.refillReturn s q ok) := by
  unfold State.refillReturn
  try dsimp only [okA, okRes, failA, laterA]
  repeat' (first
    | (with_reducible assumption) | (intro _) | (with_reducible apply State.takeCells_keeps)
    | (with_reducible apply State.addFree_keeps) | (with_reducible apply State.wr_keeps)
    | (with_reducible apply State.setFrame_keeps) | (with_reducible apply State.count_keeps)
    | (with_reducible apply State.setEgq_keeps) | (with_reducible apply State.joinTail_keeps)
    | (with_reducible apply State.spillReport_keeps) | (with_reducible apply ite_keeps)
    | (with_reducible apply ite_fst_keeps) | (with_reducible apply ite_snd_keeps)
    | (with_reducible apply foldl_keeps) | (with_reducible apply forEach_keeps)
    | (with_reducible refine keeps_fst (by assumption) ?_)
    | (with_reducible refine keeps_snd (by assumption) ?_)
    | (with_reducible refine keeps_thd (by assumption) ?_)
    | (with_reducible refine keeps_fth (by assumption) ?_) | (dsimp only) | split
    | ((conv => arg 3; arg 26); with_reducible refine keeps_mk ?_ rfl rfl rfl rfl rfl))

theorem State.deepOffline_keeps {s : State} (st : Nat) (hs : Keeps p z s) : Keeps p z (State.deepOffline s st) := by
  unfold State.deepOffline
  try dsimp only [okA, okRes, failA, laterA]
  repeat' (first
    | (with_reducible assumption) | (intro _) | (with_reducible apply forEach_keeps)
    | (with_reducible apply State.event_keeps) | (with_reducible apply State.setEgq_keeps)
    | (with_reducible apply ite_keeps) | (with_reducible apply ite_fst_keeps)
    | (with_reducible apply ite_snd_keeps) | (with_reducible apply foldl_keeps)
    | (with_reducible apply forEach_keeps) | (with_reducible refine keeps_fst (by assumption) ?_)
    | (with_reducible refine keeps_snd (by assumption) ?_)
    | (with_reducible refine keeps_thd (by assumption) ?_)
    | (with_reducible refine keeps_fth (by assumption) ?_) | (dsimp only) | split
    | ((conv => arg 3; arg 26); with_reducible refine keeps_mk ?_ rfl rfl rfl rfl rfl))

theorem State.deepOnline_keeps {s : State} (st : Nat) (hs : Keeps p z s) : Keeps p z (State.deepOnline s st) := by
  unfold State.deepOnline
  try dsimp only [okA, okRes, failA, laterA]
  repeat' (first
    | (with_reducible assumption) | (intro _) | (with_reducible apply forEach_keeps)
    | (with_reducible apply State.event_keeps) | (with_reducible apply State.setEgq_keeps)
    | (with_reducible apply ite_keeps) | (with_reducible apply ite_fst_keeps)
    | (with_reducible apply ite_snd_keeps) | (with_reducible apply foldl_keeps)
    | (with_reducible apply forEach_keeps) | (with_reducible refine keeps_fst (by assumption) ?_)
    | (with_reducible refine keeps_snd (by assumption) ?_)
    | (with_reducible refine keeps_thd (by assumption) ?_)
    | (with_reducible refine keeps_fth (by assumption) ?_) | (dsimp only) | split
    | ((conv => arg 3; arg 26); with_reducible refine keeps_mk ?_ rfl rfl rfl rfl rfl))

theorem State.auditBegin_keeps {s : State} (hs : Keeps p z s) : Keeps p z (State.auditBegin s) := by
  unfold State.auditBegin
  try dsimp only [okA, okRes, failA, laterA]
  repeat' (first
    | (with_reducible assumption) | (intro _) | (with_reducible apply State.wr_keeps)
    | (with_reducible apply ite_keeps) | (with_reducible apply ite_fst_keeps)
    | (with_reducible apply ite_snd_keeps) | (with_reducible apply foldl_keeps)
    | (with_reducible apply forEach_keeps) | (with_reducible refine keeps_fst (by assumption) ?_)
    | (with_reducible refine keeps_snd (by assumption) ?_)
    | (with_reducible refine keeps_thd (by assumption) ?_)
    | (with_reducible refine keeps_fth (by assumption) ?_) | (dsimp only) | split
    | ((conv => arg 3; arg 26); with_reducible refine keeps_mk ?_ rfl rfl rfl rfl rfl))

theorem State.cellLost_keeps {s : State} (e : Nat × Nat × Nat) (hs : Keeps p z s) : Keeps p z (State.cellLost s e)
    := by
  unfold State.cellLost
  try dsimp only [okA, okRes, failA, laterA]
  repeat' (first
    | (with_reducible assumption) | (intro _) | (with_reducible apply State.forceCell_keeps)
    | (with_reducible apply State.dropCell_keeps) | (with_reducible apply ite_keeps)
    | (with_reducible apply ite_fst_keeps) | (with_reducible apply ite_snd_keeps)
    | (with_reducible apply foldl_keeps) | (with_reducible apply forEach_keeps)
    | (with_reducible refine keeps_fst (by assumption) ?_)
    | (with_reducible refine keeps_snd (by assumption) ?_)
    | (with_reducible refine keeps_thd (by assumption) ?_)
    | (with_reducible refine keeps_fth (by assumption) ?_) | (dsimp only) | split
    | ((conv => arg 3; arg 26); with_reducible refine keeps_mk ?_ rfl rfl rfl rfl rfl))

theorem State.cellFound_keeps {s : State} (e : Nat × Nat × Nat) (hs : Keeps p z s) : Keeps p z (State.cellFound s
    e) := by
  unfold State.cellFound
  try dsimp only [okA, okRes, failA, laterA]
  repeat' (first
    | (with_reducible assumption) | (intro _) | (with_reducible apply State.releaseCells_keeps)
    | (with_reducible apply State.putCells_keeps) | (with_reducible apply ite_keeps)
    | (with_reducible apply ite_fst_keeps) | (with_reducible apply ite_snd_keeps)
    | (with_reducible apply foldl_keeps) | (with_reducible apply forEach_keeps)
    | (with_reducible refine keeps_fst (by assumption) ?_)
    | (with_reducible refine keeps_snd (by assumption) ?_)
    | (with_reducible refine keeps_thd (by assumption) ?_)
    | (with_reducible refine keeps_fth (by assumption) ?_) | (dsimp only) | split
    | ((conv => arg 3; arg 26); with_reducible refine keeps_mk ?_ rfl rfl rfl rfl rfl))

theorem State.cellDoubled_keeps {s : State} (k : Nat) (hs : Keeps p z s) : Keeps p z (State.cellDoubled s k) := by
  unfold State.cellDoubled
  try dsimp only [okA, okRes, failA, laterA]
  repeat' (first
    | (with_reducible assumption) | (intro _) | (with_reducible apply State.setBank_keeps)
    | (with_reducible apply ite_keeps) | (with_reducible apply ite_fst_keeps)
    | (with_reducible apply ite_snd_keeps) | (with_reducible apply foldl_keeps)
    | (with_reducible apply forEach_keeps) | (with_reducible refine keeps_fst (by assumption) ?_)
    | (with_reducible refine keeps_snd (by assumption) ?_)
    | (with_reducible refine keeps_thd (by assumption) ?_)
    | (with_reducible refine keeps_fth (by assumption) ?_) | (dsimp only) | split
    | ((conv => arg 3; arg 26); with_reducible refine keeps_mk ?_ rfl rfl rfl rfl rfl))

theorem State.auditEnd_keeps {s0 : State} (lost : List (Nat × Nat × Nat)) (doubled : List Nat) (hs0 : Keeps p z s0)
    : Keeps p z (State.auditEnd s0 lost doubled) := by
  unfold State.auditEnd
  try dsimp only [okA, okRes, failA, laterA]
  repeat' (first
    | (with_reducible assumption) | (intro _) | (with_reducible apply forEach_keeps)
    | (with_reducible apply State.cellDoubled_keeps) | (with_reducible apply State.cellLost_keeps)
    | (with_reducible apply State.inc_keeps) | (with_reducible apply State.wr_keeps)
    | (with_reducible apply State.cellFound_keeps) | (with_reducible apply State.fault_keeps)
    | (with_reducible apply State.eventFw_keeps) | (with_reducible apply State.count_keeps)
    | (with_reducible apply ite_keeps) | (with_reducible apply ite_fst_keeps)
    | (with_reducible apply ite_snd_keeps) | (with_reducible apply foldl_keeps)
    | (with_reducible apply forEach_keeps) | (with_reducible refine keeps_fst (by assumption) ?_)
    | (with_reducible refine keeps_snd (by assumption) ?_)
    | (with_reducible refine keeps_thd (by assumption) ?_)
    | (with_reducible refine keeps_fth (by assumption) ?_) | (dsimp only) | split
    | ((conv => arg 3; arg 26); with_reducible refine keeps_mk ?_ rfl rfl rfl rfl rfl))

theorem ridgePoolSet_keeps (j : Sys2Proof.Job) {s : State} (hs : Keeps p z s) : Keeps p z (ridgePoolSet j s).1 := by
  unfold ridgePoolSet
  try dsimp only [okA, okRes, failA, laterA]
  repeat' (first
    | (with_reducible assumption) | (intro _) | (with_reducible apply failA_keeps)
    | (with_reducible apply State.wr_keeps) | (with_reducible apply State.reshare_keeps (e := by assumption))
    | (with_reducible apply okRes_keeps) | (with_reducible apply State.xonAll_keeps)
    | (with_reducible apply ite_keeps) | (with_reducible apply ite_fst_keeps)
    | (with_reducible apply ite_snd_keeps) | (with_reducible apply foldl_keeps)
    | (with_reducible apply forEach_keeps) | (with_reducible refine keeps_fst (by assumption) ?_)
    | (with_reducible refine keeps_snd (by assumption) ?_)
    | (with_reducible refine keeps_thd (by assumption) ?_)
    | (with_reducible refine keeps_fth (by assumption) ?_) | (dsimp only) | split
    | ((conv => arg 3; arg 26); with_reducible refine keeps_mk ?_ rfl rfl rfl rfl rfl))

theorem ridgePairSet_keeps (j : Sys2Proof.Job) {s : State} (hs : Keeps p z s) : Keeps p z (ridgePairSet j s).1 := by
  unfold ridgePairSet
  try dsimp only [okA, okRes, failA, laterA]
  repeat' (first
    | (with_reducible assumption) | (intro _) | (with_reducible apply failA_keeps)
    | (with_reducible apply forEach_keeps) | (with_reducible apply State.wr_keeps)
    | (with_reducible apply State.reshare_keeps (e := by assumption))
    | (with_reducible apply State.autoHdrm_keeps) | (with_reducible apply okRes_keeps)
    | (with_reducible apply State.xonAll_keeps) | (with_reducible apply ite_keeps)
    | (with_reducible apply ite_fst_keeps) | (with_reducible apply ite_snd_keeps)
    | (with_reducible apply foldl_keeps) | (with_reducible apply forEach_keeps)
    | (with_reducible refine keeps_fst (by assumption) ?_)
    | (with_reducible refine keeps_snd (by assumption) ?_)
    | (with_reducible refine keeps_thd (by assumption) ?_)
    | (with_reducible refine keeps_fth (by assumption) ?_) | (dsimp only) | split
    | ((conv => arg 3; arg 26); with_reducible refine keeps_mk ?_ rfl rfl rfl rfl rfl))

theorem ridgePortSet_keeps (j : Sys2Proof.Job) {s : State} (hs : Keeps p z s) : Keeps p z (ridgePortSet j s).1 := by
  unfold ridgePortSet
  try dsimp only [okA, okRes, failA, laterA]
  repeat' (first
    | (with_reducible assumption) | (intro _) | (with_reducible apply failA_keeps)
    | (with_reducible apply State.setReg_keeps) | (with_reducible apply State.withHeadroom_keeps)
    | (with_reducible apply State.wr_keeps) | (with_reducible apply ite_keeps)
    | (with_reducible apply ite_fst_keeps) | (with_reducible apply ite_snd_keeps)
    | (with_reducible apply foldl_keeps) | (with_reducible apply forEach_keeps)
    | (with_reducible refine keeps_fst (by assumption) ?_)
    | (with_reducible refine keeps_snd (by assumption) ?_)
    | (with_reducible refine keeps_thd (by assumption) ?_)
    | (with_reducible refine keeps_fth (by assumption) ?_) | (dsimp only) | split
    | ((conv => arg 3; arg 26); with_reducible refine keeps_mk ?_ rfl rfl rfl rfl rfl))

theorem ridgeDscpSet_keeps (j : Sys2Proof.Job) {s : State} (hs : Keeps p z s) : Keeps p z (ridgeDscpSet j s).1 := by
  unfold ridgeDscpSet
  try dsimp only [okA, okRes, failA, laterA]
  repeat' (first
    | (with_reducible assumption) | (intro _) | (with_reducible apply failA_keeps)
    | (with_reducible apply okA_keeps) | (with_reducible apply forEach_keeps)
    | (with_reducible apply State.setReg_keeps) | (with_reducible apply State.countMoved_keeps)
    | (with_reducible apply ite_keeps) | (with_reducible apply ite_fst_keeps)
    | (with_reducible apply ite_snd_keeps) | (with_reducible apply foldl_keeps)
    | (with_reducible apply forEach_keeps) | (with_reducible refine keeps_fst (by assumption) ?_)
    | (with_reducible refine keeps_snd (by assumption) ?_)
    | (with_reducible refine keeps_thd (by assumption) ?_)
    | (with_reducible refine keeps_fth (by assumption) ?_) | (dsimp only) | split
    | ((conv => arg 3; arg 26); with_reducible refine keeps_mk ?_ rfl rfl rfl rfl rfl))

theorem ridgeSamplerSet_keeps (j : Sys2Proof.Job) {s : State} (hs : Keeps p z s) : Keeps p z (ridgeSamplerSet j
    s).1 := by
  unfold ridgeSamplerSet
  try dsimp only [okA, okRes, failA, laterA]
  repeat' (first
    | (with_reducible assumption) | (intro _) | (with_reducible apply failA_keeps)
    | (with_reducible apply State.setReg_keeps) | (with_reducible apply okA_keeps)
    | (with_reducible apply ite_keeps) | (with_reducible apply ite_fst_keeps)
    | (with_reducible apply ite_snd_keeps) | (with_reducible apply foldl_keeps)
    | (with_reducible apply forEach_keeps) | (with_reducible refine keeps_fst (by assumption) ?_)
    | (with_reducible refine keeps_snd (by assumption) ?_)
    | (with_reducible refine keeps_thd (by assumption) ?_)
    | (with_reducible refine keeps_fth (by assumption) ?_) | (dsimp only) | split
    | ((conv => arg 3; arg 26); with_reducible refine keeps_mk ?_ rfl rfl rfl rfl rfl))

theorem ridgeMcastSet_keeps (j : Sys2Proof.Job) {s : State} (hs : Keeps p z s) : Keeps p z (ridgeMcastSet j s).1 :=
    by
  unfold ridgeMcastSet
  try dsimp only [okA, okRes, failA, laterA]
  repeat' (first
    | (with_reducible assumption) | (intro _) | (with_reducible apply failA_keeps)
    | (with_reducible apply State.countMoved_keeps) | (with_reducible apply okA_keeps)
    | (with_reducible apply State.setGroup_keeps) | (with_reducible apply ite_keeps)
    | (with_reducible apply ite_fst_keeps) | (with_reducible apply ite_snd_keeps)
    | (with_reducible apply foldl_keeps) | (with_reducible apply forEach_keeps)
    | (with_reducible refine keeps_fst (by assumption) ?_)
    | (with_reducible refine keeps_snd (by assumption) ?_)
    | (with_reducible refine keeps_thd (by assumption) ?_)
    | (with_reducible refine keeps_fth (by assumption) ?_) | (dsimp only) | split
    | ((conv => arg 3; arg 26); with_reducible refine keeps_mk ?_ rfl rfl rfl rfl rfl))

theorem ridgeDeepSet_keeps (j : Sys2Proof.Job) {s : State} (hs : Keeps p z s) : Keeps p z (ridgeDeepSet j s).1 := by
  unfold ridgeDeepSet
  try dsimp only [okA, okRes, failA, laterA]
  repeat' (first
    | (with_reducible assumption) | (intro _) | (with_reducible apply okA_keeps)
    | (with_reducible apply failA_keeps) | (with_reducible apply forEach_keeps)
    | (with_reducible apply State.setEgq_keeps) | (with_reducible apply ite_keeps)
    | (with_reducible apply ite_fst_keeps) | (with_reducible apply ite_snd_keeps)
    | (with_reducible apply foldl_keeps) | (with_reducible apply forEach_keeps)
    | (with_reducible refine keeps_fst (by assumption) ?_)
    | (with_reducible refine keeps_snd (by assumption) ?_)
    | (with_reducible refine keeps_thd (by assumption) ?_)
    | (with_reducible refine keeps_fth (by assumption) ?_) | (dsimp only) | split
    | ((conv => arg 3; arg 26); with_reducible refine keeps_mk ?_ rfl rfl rfl rfl rfl))

theorem ridgeQuery_keeps (j : Sys2Proof.Job) {s : State} (hs : Keeps p z s) : Keeps p z (ridgeQuery j s).1 := by
  unfold ridgeQuery
  try dsimp only [okA, okRes, failA, laterA]
  repeat' (first
    | (with_reducible assumption) | (intro _) | (with_reducible apply failA_keeps)
    | (with_reducible apply okRes_keeps) | (with_reducible apply State.jobWrite_keeps)
    | (with_reducible apply ite_keeps) | (with_reducible apply ite_fst_keeps)
    | (with_reducible apply ite_snd_keeps) | (with_reducible apply foldl_keeps)
    | (with_reducible apply forEach_keeps) | (with_reducible refine keeps_fst (by assumption) ?_)
    | (with_reducible refine keeps_snd (by assumption) ?_)
    | (with_reducible refine keeps_thd (by assumption) ?_)
    | (with_reducible refine keeps_fth (by assumption) ?_) | (dsimp only) | split
    | ((conv => arg 3; arg 26); with_reducible refine keeps_mk ?_ rfl rfl rfl rfl rfl))

theorem execWdExpiry_keeps (n : Fin 141) (c : Fin 16) {s : State} (hs : Keeps p z s) {t' : State} (e : execWdExpiry
    n c s = .next t') : Keeps p z t' := by
  unfold execWdExpiry at e
  repeat' (first | cases e | split at e | (dsimp only at e))
  all_goals
    try dsimp only
    repeat' (first
      | (with_reducible assumption) | (intro _) | (with_reducible apply State.stormBegin_keeps)
      | (with_reducible apply State.runJob_keeps) | (with_reducible apply ite_keeps)
      | (with_reducible apply ite_fst_keeps) | (with_reducible apply ite_snd_keeps)
      | (with_reducible apply foldl_keeps) | (with_reducible apply forEach_keeps)
      | (with_reducible refine keeps_fst (by assumption) ?_)
      | (with_reducible refine keeps_snd (by assumption) ?_)
      | (with_reducible refine keeps_thd (by assumption) ?_)
      | (with_reducible refine keeps_fth (by assumption) ?_) | (dsimp only) | split
      | ((conv => arg 3; arg 26); with_reducible refine keeps_mk ?_ rfl rfl rfl rfl rfl))

theorem execWdRestoreExpiry_keeps (n : Fin 141) (c : Fin 16) {s : State} (hs : Keeps p z s) {t' : State} (e :
    execWdRestoreExpiry n c s = .next t') : Keeps p z t' := by
  unfold execWdRestoreExpiry at e
  repeat' (first | cases e | split at e | (dsimp only at e))
  all_goals
    try dsimp only
    repeat' (first
      | (with_reducible assumption) | (intro _) | (with_reducible apply State.stormEnd_keeps)
      | (with_reducible apply State.runJob_keeps) | (with_reducible apply ite_keeps)
      | (with_reducible apply ite_fst_keeps) | (with_reducible apply ite_snd_keeps)
      | (with_reducible apply foldl_keeps) | (with_reducible apply forEach_keeps)
      | (with_reducible refine keeps_fst (by assumption) ?_)
      | (with_reducible refine keeps_snd (by assumption) ?_)
      | (with_reducible refine keeps_thd (by assumption) ?_)
      | (with_reducible refine keeps_fth (by assumption) ?_) | (dsimp only) | split
      | ((conv => arg 3; arg 26); with_reducible refine keeps_mk ?_ rfl rfl rfl rfl rfl))

theorem execMcastHoldExpiry_keeps (q : BitVec 16) (k : Nat) {s : State} (hs : Keeps p z s) {t' : State} (e :
    execMcastHoldExpiry q k s = .next t') : Keeps p z t' := by
  unfold execMcastHoldExpiry at e
  repeat' (first | cases e | split at e | (dsimp only at e))
  all_goals
    try dsimp only
    repeat' (first
      | (with_reducible assumption) | (intro _) | (with_reducible apply State.holdDrop_keeps)
      | (with_reducible apply State.runJob_keeps) | (with_reducible apply ite_keeps)
      | (with_reducible apply ite_fst_keeps) | (with_reducible apply ite_snd_keeps)
      | (with_reducible apply foldl_keeps) | (with_reducible apply forEach_keeps)
      | (with_reducible refine keeps_fst (by assumption) ?_)
      | (with_reducible refine keeps_snd (by assumption) ?_)
      | (with_reducible refine keeps_thd (by assumption) ?_)
      | (with_reducible refine keeps_fth (by assumption) ?_) | (dsimp only) | split
      | ((conv => arg 3; arg 26); with_reducible refine keeps_mk ?_ rfl rfl rfl rfl rfl))

theorem execSpillWriteConfirm_keeps (q : BitVec 16) {s : State} (hs : Keeps p z s) {t' : State} (e :
    execSpillWriteConfirm q s = .next t') : Keeps p z t' := by
  unfold execSpillWriteConfirm at e
  repeat' (first | cases e | split at e | (dsimp only at e))
  all_goals
    try dsimp only
    repeat' (first
      | (with_reducible assumption) | (intro _) | (with_reducible apply State.spillConfirm_keeps)
      | (with_reducible apply State.runJob_keeps) | (with_reducible apply ite_keeps)
      | (with_reducible apply ite_fst_keeps) | (with_reducible apply ite_snd_keeps)
      | (with_reducible apply foldl_keeps) | (with_reducible apply forEach_keeps)
      | (with_reducible refine keeps_fst (by assumption) ?_)
      | (with_reducible refine keeps_snd (by assumption) ?_)
      | (with_reducible refine keeps_thd (by assumption) ?_)
      | (with_reducible refine keeps_fth (by assumption) ?_) | (dsimp only) | split
      | ((conv => arg 3; arg 26); with_reducible refine keeps_mk ?_ rfl rfl rfl rfl rfl))

theorem execRefillReadReturn_keeps (q : BitVec 16) (ok : Bool) {s : State} (hs : Keeps p z s) {t' : State} (e :
    execRefillReadReturn q ok s = .next t') : Keeps p z t' := by
  unfold execRefillReadReturn at e
  repeat' (first | cases e | split at e | (dsimp only at e))
  all_goals
    try dsimp only
    repeat' (first
      | (with_reducible assumption) | (intro _) | (with_reducible apply State.refillReturn_keeps)
      | (with_reducible apply State.runJob_keeps) | (with_reducible apply ite_keeps)
      | (with_reducible apply ite_fst_keeps) | (with_reducible apply ite_snd_keeps)
      | (with_reducible apply foldl_keeps) | (with_reducible apply forEach_keeps)
      | (with_reducible refine keeps_fst (by assumption) ?_)
      | (with_reducible refine keeps_snd (by assumption) ?_)
      | (with_reducible refine keeps_thd (by assumption) ?_)
      | (with_reducible refine keeps_fth (by assumption) ?_) | (dsimp only) | split
      | ((conv => arg 3; arg 26); with_reducible refine keeps_mk ?_ rfl rfl rfl rfl rfl))

theorem execCellAudit_keeps (begins : Bool) (lost : List (Fin 524288 × Fin 141 × Fin 16)) (doubled : List (Fin
    524288)) {s : State} (hs : Keeps p z s) {t' : State} (e : execCellAudit begins lost doubled s = .next t') :
    Keeps p z t' := by
  unfold execCellAudit at e
  repeat' (first | cases e | split at e | (dsimp only at e))
  all_goals
    try dsimp only
    repeat' (first
      | (with_reducible assumption) | (intro _) | (with_reducible apply State.auditBegin_keeps)
      | (with_reducible apply State.auditEnd_keeps) | (with_reducible apply State.runJob_keeps)
      | (with_reducible apply ite_keeps) | (with_reducible apply ite_fst_keeps)
      | (with_reducible apply ite_snd_keeps) | (with_reducible apply foldl_keeps)
      | (with_reducible apply forEach_keeps) | (with_reducible refine keeps_fst (by assumption) ?_)
      | (with_reducible refine keeps_snd (by assumption) ?_)
      | (with_reducible refine keeps_thd (by assumption) ?_)
      | (with_reducible refine keeps_fth (by assumption) ?_) | (dsimp only) | split
      | ((conv => arg 3; arg 26); with_reducible refine keeps_mk ?_ rfl rfl rfl rfl rfl))

theorem execRidgePoolSet_keeps (j : Sys2Proof.Job) {s : State} (hs : Keeps p z s) {t' : State} (e :
    execRidgePoolSet j s = .next t') : Keeps p z t' := by
  unfold execRidgePoolSet at e
  repeat' (first | cases e | split at e | (dsimp only at e))
  all_goals
    try dsimp only
    repeat' (first
      | (with_reducible assumption) | (intro _) | (with_reducible apply jobRow_keeps (e := by assumption))
      | (with_reducible apply ridgePoolSet_keeps) | (with_reducible apply State.runJob_keeps)
      | (with_reducible apply State.runJob_keeps) | (with_reducible apply ite_keeps)
      | (with_reducible apply ite_fst_keeps) | (with_reducible apply ite_snd_keeps)
      | (with_reducible apply foldl_keeps) | (with_reducible apply forEach_keeps)
      | (with_reducible refine keeps_fst (by assumption) ?_)
      | (with_reducible refine keeps_snd (by assumption) ?_)
      | (with_reducible refine keeps_thd (by assumption) ?_)
      | (with_reducible refine keeps_fth (by assumption) ?_) | (dsimp only) | split
      | ((conv => arg 3; arg 26); with_reducible refine keeps_mk ?_ rfl rfl rfl rfl rfl))

theorem execRidgePairSet_keeps (j : Sys2Proof.Job) {s : State} (hs : Keeps p z s) {t' : State} (e :
    execRidgePairSet j s = .next t') : Keeps p z t' := by
  unfold execRidgePairSet at e
  repeat' (first | cases e | split at e | (dsimp only at e))
  all_goals
    try dsimp only
    repeat' (first
      | (with_reducible assumption) | (intro _) | (with_reducible apply jobRow_keeps (e := by assumption))
      | (with_reducible apply ridgePairSet_keeps) | (with_reducible apply State.runJob_keeps)
      | (with_reducible apply State.runJob_keeps) | (with_reducible apply ite_keeps)
      | (with_reducible apply ite_fst_keeps) | (with_reducible apply ite_snd_keeps)
      | (with_reducible apply foldl_keeps) | (with_reducible apply forEach_keeps)
      | (with_reducible refine keeps_fst (by assumption) ?_)
      | (with_reducible refine keeps_snd (by assumption) ?_)
      | (with_reducible refine keeps_thd (by assumption) ?_)
      | (with_reducible refine keeps_fth (by assumption) ?_) | (dsimp only) | split
      | ((conv => arg 3; arg 26); with_reducible refine keeps_mk ?_ rfl rfl rfl rfl rfl))

theorem execRidgePortSet_keeps (j : Sys2Proof.Job) {s : State} (hs : Keeps p z s) {t' : State} (e :
    execRidgePortSet j s = .next t') : Keeps p z t' := by
  unfold execRidgePortSet at e
  repeat' (first | cases e | split at e | (dsimp only at e))
  all_goals
    try dsimp only
    repeat' (first
      | (with_reducible assumption) | (intro _) | (with_reducible apply jobRow_keeps (e := by assumption))
      | (with_reducible apply ridgePortSet_keeps) | (with_reducible apply State.runJob_keeps)
      | (with_reducible apply State.runJob_keeps) | (with_reducible apply ite_keeps)
      | (with_reducible apply ite_fst_keeps) | (with_reducible apply ite_snd_keeps)
      | (with_reducible apply foldl_keeps) | (with_reducible apply forEach_keeps)
      | (with_reducible refine keeps_fst (by assumption) ?_)
      | (with_reducible refine keeps_snd (by assumption) ?_)
      | (with_reducible refine keeps_thd (by assumption) ?_)
      | (with_reducible refine keeps_fth (by assumption) ?_) | (dsimp only) | split
      | ((conv => arg 3; arg 26); with_reducible refine keeps_mk ?_ rfl rfl rfl rfl rfl))

theorem execRidgeDscpSet_keeps (j : Sys2Proof.Job) {s : State} (hs : Keeps p z s) {t' : State} (e :
    execRidgeDscpSet j s = .next t') : Keeps p z t' := by
  unfold execRidgeDscpSet at e
  repeat' (first | cases e | split at e | (dsimp only at e))
  all_goals
    try dsimp only
    repeat' (first
      | (with_reducible assumption) | (intro _) | (with_reducible apply jobRow_keeps (e := by assumption))
      | (with_reducible apply ridgeDscpSet_keeps) | (with_reducible apply State.runJob_keeps)
      | (with_reducible apply State.runJob_keeps) | (with_reducible apply ite_keeps)
      | (with_reducible apply ite_fst_keeps) | (with_reducible apply ite_snd_keeps)
      | (with_reducible apply foldl_keeps) | (with_reducible apply forEach_keeps)
      | (with_reducible refine keeps_fst (by assumption) ?_)
      | (with_reducible refine keeps_snd (by assumption) ?_)
      | (with_reducible refine keeps_thd (by assumption) ?_)
      | (with_reducible refine keeps_fth (by assumption) ?_) | (dsimp only) | split
      | ((conv => arg 3; arg 26); with_reducible refine keeps_mk ?_ rfl rfl rfl rfl rfl))

theorem execRidgeSamplerSet_keeps (j : Sys2Proof.Job) {s : State} (hs : Keeps p z s) {t' : State} (e :
    execRidgeSamplerSet j s = .next t') : Keeps p z t' := by
  unfold execRidgeSamplerSet at e
  repeat' (first | cases e | split at e | (dsimp only at e))
  all_goals
    try dsimp only
    repeat' (first
      | (with_reducible assumption) | (intro _) | (with_reducible apply jobRow_keeps (e := by assumption))
      | (with_reducible apply ridgeSamplerSet_keeps) | (with_reducible apply State.runJob_keeps)
      | (with_reducible apply State.runJob_keeps) | (with_reducible apply ite_keeps)
      | (with_reducible apply ite_fst_keeps) | (with_reducible apply ite_snd_keeps)
      | (with_reducible apply foldl_keeps) | (with_reducible apply forEach_keeps)
      | (with_reducible refine keeps_fst (by assumption) ?_)
      | (with_reducible refine keeps_snd (by assumption) ?_)
      | (with_reducible refine keeps_thd (by assumption) ?_)
      | (with_reducible refine keeps_fth (by assumption) ?_) | (dsimp only) | split
      | ((conv => arg 3; arg 26); with_reducible refine keeps_mk ?_ rfl rfl rfl rfl rfl))

theorem execRidgeMcastSet_keeps (j : Sys2Proof.Job) {s : State} (hs : Keeps p z s) {t' : State} (e :
    execRidgeMcastSet j s = .next t') : Keeps p z t' := by
  unfold execRidgeMcastSet at e
  repeat' (first | cases e | split at e | (dsimp only at e))
  all_goals
    try dsimp only
    repeat' (first
      | (with_reducible assumption) | (intro _) | (with_reducible apply jobRow_keeps (e := by assumption))
      | (with_reducible apply ridgeMcastSet_keeps) | (with_reducible apply State.runJob_keeps)
      | (with_reducible apply State.runJob_keeps) | (with_reducible apply ite_keeps)
      | (with_reducible apply ite_fst_keeps) | (with_reducible apply ite_snd_keeps)
      | (with_reducible apply foldl_keeps) | (with_reducible apply forEach_keeps)
      | (with_reducible refine keeps_fst (by assumption) ?_)
      | (with_reducible refine keeps_snd (by assumption) ?_)
      | (with_reducible refine keeps_thd (by assumption) ?_)
      | (with_reducible refine keeps_fth (by assumption) ?_) | (dsimp only) | split
      | ((conv => arg 3; arg 26); with_reducible refine keeps_mk ?_ rfl rfl rfl rfl rfl))

theorem execRidgeDeepSet_keeps (j : Sys2Proof.Job) {s : State} (hs : Keeps p z s) {t' : State} (e :
    execRidgeDeepSet j s = .next t') : Keeps p z t' := by
  unfold execRidgeDeepSet at e
  repeat' (first | cases e | split at e | (dsimp only at e))
  all_goals
    try dsimp only
    repeat' (first
      | (with_reducible assumption) | (intro _) | (with_reducible apply jobRow_keeps (e := by assumption))
      | (with_reducible apply ridgeDeepSet_keeps) | (with_reducible apply State.runJob_keeps)
      | (with_reducible apply State.runJob_keeps) | (with_reducible apply ite_keeps)
      | (with_reducible apply ite_fst_keeps) | (with_reducible apply ite_snd_keeps)
      | (with_reducible apply foldl_keeps) | (with_reducible apply forEach_keeps)
      | (with_reducible refine keeps_fst (by assumption) ?_)
      | (with_reducible refine keeps_snd (by assumption) ?_)
      | (with_reducible refine keeps_thd (by assumption) ?_)
      | (with_reducible refine keeps_fth (by assumption) ?_) | (dsimp only) | split
      | ((conv => arg 3; arg 26); with_reducible refine keeps_mk ?_ rfl rfl rfl rfl rfl))

theorem execRidgeQuery_keeps (j : Sys2Proof.Job) {s : State} (hs : Keeps p z s) {t' : State} (e : execRidgeQuery j
    s = .next t') : Keeps p z t' := by
  unfold execRidgeQuery at e
  repeat' (first | cases e | split at e | (dsimp only at e))
  all_goals
    try dsimp only
    repeat' (first
      | (with_reducible assumption) | (intro _) | (with_reducible apply jobRow_keeps (e := by assumption))
      | (with_reducible apply ridgeQuery_keeps) | (with_reducible apply State.runJob_keeps)
      | (with_reducible apply State.runJob_keeps) | (with_reducible apply ite_keeps)
      | (with_reducible apply ite_fst_keeps) | (with_reducible apply ite_snd_keeps)
      | (with_reducible apply foldl_keeps) | (with_reducible apply forEach_keeps)
      | (with_reducible refine keeps_fst (by assumption) ?_)
      | (with_reducible refine keeps_snd (by assumption) ?_)
      | (with_reducible refine keeps_thd (by assumption) ?_)
      | (with_reducible refine keeps_fth (by assumption) ?_) | (dsimp only) | split
      | ((conv => arg 3; arg 26); with_reducible refine keeps_mk ?_ rfl rfl rfl rfl rfl))

end Sys2Proof.Machine
end

