-- ==== Sys2Proof/Laws/KeepsEsch.lean ====
section
/-!
SUPPORT. Every operation of Machine/Esch.lean keeps the queue, the canonical form and the blown fuses.
-/
namespace Sys2Proof.Machine

variable {p : List Instr} {z : Fuses}

theorem State.beginTurn_keeps {s : State} (kind : Nat) (n : Nat) (hs : Keeps p z s) : Keeps p z (State.beginTurn s
    kind n) := by
  unfold State.beginTurn
  try dsimp only [okA, okRes, failA, laterA]
  repeat' (first
    | (with_reducible assumption) | (intro _) | (with_reducible apply State.setNodeSt_keeps)
    | (with_reducible apply ite_keeps) | (with_reducible apply ite_fst_keeps)
    | (with_reducible apply ite_snd_keeps) | (with_reducible apply foldl_keeps)
    | (with_reducible apply forEach_keeps) | (with_reducible refine keeps_fst (by assumption) ?_)
    | (with_reducible refine keeps_snd (by assumption) ?_)
    | (with_reducible refine keeps_thd (by assumption) ?_)
    | (with_reducible refine keeps_fth (by assumption) ?_) | (dsimp only) | split
    | ((conv => arg 3; arg 26); with_reducible refine keeps_mk ?_ rfl rfl rfl rfl rfl))

theorem State.passTurns_keeps {s : State} (kind : Nat) (x2 : Nat) (x3 : List Nat) (hs : Keeps p z s) {r} {t : State}
    (e : State.passTurns s kind x2 x3 = some (r, t)) : Keeps p z t := by
  induction x2 generalizing s x3 with
  | zero => simp [State.passTurns] at e
  | succ n ih =>
    cases x3 with
    | nil => simp [State.passTurns] at e
    | cons a l =>
      simp only [State.passTurns] at e
      split at e
      · cases e; exact State.beginTurn_keeps _ _ hs
      · exact ih _ (State.beginTurn_keeps _ _ hs) e

theorem State.dwrr_keeps {s : State} (kind : Nat) (key : Nat) (c : List Nat) (hs : Keeps p z s) {r'} {t' : State}
    (e : State.dwrr s kind key c = some (r', t')) : Keeps p z t' := by
  unfold State.dwrr at e
  repeat' (first
    | cases e | contradiction | split at e | (dsimp only at e)
    | (simp only [Option.map_eq_some_iff] at e; obtain ⟨_, _, e⟩ := e; cases e))
  all_goals
    try dsimp only
    repeat' (first
      | (with_reducible assumption) | (intro _)
      | (with_reducible apply State.passTurns_keeps (e := by assumption)) | (with_reducible apply ite_keeps)
      | (with_reducible apply ite_fst_keeps) | (with_reducible apply ite_snd_keeps)
      | (with_reducible apply foldl_keeps) | (with_reducible apply forEach_keeps)
      | (with_reducible refine keeps_fst (by assumption) ?_)
      | (with_reducible refine keeps_snd (by assumption) ?_)
      | (with_reducible refine keeps_thd (by assumption) ?_)
      | (with_reducible refine keeps_fth (by assumption) ?_) | (dsimp only) | split
      | ((conv => arg 3; arg 26); with_reducible refine keeps_mk ?_ rfl rfl rfl rfl rfl))

theorem State.chooseChild_keeps {s : State} (parent : Nat) (cmtFirst : Bool) (kind : Nat) (c : List Nat) (hs :
    Keeps p z s) {r'} {t' : State} (e : State.chooseChild s parent cmtFirst kind c = some (r', t')) : Keeps p z t'
    := by
  unfold State.chooseChild at e
  repeat' (first
    | cases e | contradiction | split at e | (dsimp only at e)
    | (simp only [Option.map_eq_some_iff] at e; obtain ⟨_, _, e⟩ := e; cases e))
  all_goals
    try dsimp only
    repeat' (first
      | (with_reducible assumption) | (intro _) | (with_reducible apply State.dwrr_keeps (e := by assumption))
      | (with_reducible apply ite_keeps) | (with_reducible apply ite_fst_keeps)
      | (with_reducible apply ite_snd_keeps) | (with_reducible apply foldl_keeps)
      | (with_reducible apply forEach_keeps) | (with_reducible refine keeps_fst (by assumption) ?_)
      | (with_reducible refine keeps_snd (by assumption) ?_)
      | (with_reducible refine keeps_thd (by assumption) ?_)
      | (with_reducible refine keeps_fth (by assumption) ?_) | (dsimp only) | split
      | ((conv => arg 3; arg 26); with_reducible refine keeps_mk ?_ rfl rfl rfl rfl rfl))

theorem State.descend_keeps {s : State} (n : Nat) (el : List Nat) (hs : Keeps p z s) {r'} {t' : State} (e :
    State.descend s n el = some (r', t')) : Keeps p z t' := by
  unfold State.descend at e
  repeat' (first
    | cases e | contradiction | split at e | (dsimp only at e)
    | (simp only [Option.map_eq_some_iff] at e; obtain ⟨_, _, e⟩ := e; cases e))
  all_goals
    try dsimp only
    repeat' (first
      | (with_reducible assumption) | (intro _) | (with_reducible apply State.dwrr_keeps (e := by assumption))
      | (with_reducible apply State.chooseChild_keeps (e := by assumption)) | (with_reducible apply ite_keeps)
      | (with_reducible apply ite_fst_keeps) | (with_reducible apply ite_snd_keeps)
      | (with_reducible apply foldl_keeps) | (with_reducible apply forEach_keeps)
      | (with_reducible refine keeps_fst (by assumption) ?_)
      | (with_reducible refine keeps_snd (by assumption) ?_)
      | (with_reducible refine keeps_thd (by assumption) ?_)
      | (with_reducible refine keeps_fth (by assumption) ?_) | (dsimp only) | split
      | ((conv => arg 3; arg 26); with_reducible refine keeps_mk ?_ rfl rfl rfl rfl rfl))

theorem State.loseTurns_keeps {s : State} (n : Nat) (el : List Nat) (hs : Keeps p z s) : Keeps p z (State.loseTurns
    s n el) := by
  unfold State.loseTurns
  try dsimp only [okA, okRes, failA, laterA]
  repeat' (first
    | (with_reducible assumption) | (intro _) | (with_reducible apply ite_keeps)
    | (with_reducible apply ite_fst_keeps) | (with_reducible apply ite_snd_keeps)
    | (with_reducible apply foldl_keeps) | (with_reducible apply forEach_keeps)
    | (with_reducible refine keeps_fst (by assumption) ?_)
    | (with_reducible refine keeps_snd (by assumption) ?_)
    | (with_reducible refine keeps_thd (by assumption) ?_)
    | (with_reducible refine keeps_fth (by assumption) ?_) | (dsimp only) | split
    | ((conv => arg 3; arg 26); with_reducible refine keeps_mk ?_ rfl rfl rfl rfl rfl))

theorem State.passLost_keeps {s : State} (n : Nat) (hs : Keeps p z s) : Keeps p z (State.passLost s n) := by
  unfold State.passLost
  try dsimp only [okA, okRes, failA, laterA]
  repeat' (first
    | (with_reducible assumption) | (intro _) | (with_reducible apply State.loseTurns_keeps)
    | (with_reducible apply ite_keeps) | (with_reducible apply ite_fst_keeps)
    | (with_reducible apply ite_snd_keeps) | (with_reducible apply foldl_keeps)
    | (with_reducible apply forEach_keeps) | (with_reducible refine keeps_fst (by assumption) ?_)
    | (with_reducible refine keeps_snd (by assumption) ?_)
    | (with_reducible refine keeps_thd (by assumption) ?_)
    | (with_reducible refine keeps_fth (by assumption) ?_) | (dsimp only) | split
    | ((conv => arg 3; arg 26); with_reducible refine keeps_mk ?_ rfl rfl rfl rfl rfl))

theorem State.setSending_keeps {s : State} (n : Nat) (m : Nat) (x : Option Sys2Proof.Machine.Sending) (hs : Keeps p
    z s) : Keeps p z (State.setSending s n m x) := by
  unfold State.setSending
  try dsimp only [okA, okRes, failA, laterA]
  repeat' (first
    | (with_reducible assumption) | (intro _) | (with_reducible apply State.setPort_keeps)
    | (with_reducible apply ite_keeps) | (with_reducible apply ite_fst_keeps)
    | (with_reducible apply ite_snd_keeps) | (with_reducible apply foldl_keeps)
    | (with_reducible apply forEach_keeps) | (with_reducible refine keeps_fst (by assumption) ?_)
    | (with_reducible refine keeps_snd (by assumption) ?_)
    | (with_reducible refine keeps_thd (by assumption) ?_)
    | (with_reducible refine keeps_fth (by assumption) ?_) | (dsimp only) | split
    | ((conv => arg 3; arg 26); with_reducible refine keeps_mk ?_ rfl rfl rfl rfl rfl))

theorem State.setChosen_keeps {s : State} (n : Nat) (m : Nat) (x : Option (Nat × Nat)) (hs : Keeps p z s) : Keeps p
    z (State.setChosen s n m x) := by
  unfold State.setChosen
  try dsimp only [okA, okRes, failA, laterA]
  repeat' (first
    | (with_reducible assumption) | (intro _) | (with_reducible apply State.setPort_keeps)
    | (with_reducible apply ite_keeps) | (with_reducible apply ite_fst_keeps)
    | (with_reducible apply ite_snd_keeps) | (with_reducible apply foldl_keeps)
    | (with_reducible apply forEach_keeps) | (with_reducible refine keeps_fst (by assumption) ?_)
    | (with_reducible refine keeps_snd (by assumption) ?_)
    | (with_reducible refine keeps_thd (by assumption) ?_)
    | (with_reducible refine keeps_fth (by assumption) ?_) | (dsimp only) | split
    | ((conv => arg 3; arg 26); with_reducible refine keeps_mk ?_ rfl rfl rfl rfl rfl))

theorem State.wake_keeps {s : State} (n : Nat) (hs : Keeps p z s) : Keeps p z (State.wake s n) := by
  unfold State.wake
  try dsimp only [okA, okRes, failA, laterA]
  repeat' (first
    | (with_reducible assumption) | (intro _) | (with_reducible apply State.setPort_keeps)
    | (with_reducible apply State.wr_keeps) | (with_reducible apply ite_keeps)
    | (with_reducible apply ite_fst_keeps) | (with_reducible apply ite_snd_keeps)
    | (with_reducible apply foldl_keeps) | (with_reducible apply forEach_keeps)
    | (with_reducible refine keeps_fst (by assumption) ?_)
    | (with_reducible refine keeps_snd (by assumption) ?_)
    | (with_reducible refine keeps_thd (by assumption) ?_)
    | (with_reducible refine keeps_fth (by assumption) ?_) | (dsimp only) | split
    | ((conv => arg 3; arg 26); with_reducible refine keeps_mk ?_ rfl rfl rfl rfl rfl))

theorem State.eschDecide_keeps {s : State} (n : Nat) (m : Nat) (hs : Keeps p z s) : Keeps p z (State.eschDecide s n
    m) := by
  unfold State.eschDecide
  try dsimp only [okA, okRes, failA, laterA]
  repeat' (first
    | (with_reducible assumption) | (intro _) | (with_reducible apply State.loseTurns_keeps)
    | (with_reducible apply State.wake_keeps) | (with_reducible apply State.descend_keeps (e := by assumption))
    | (with_reducible apply State.setChosen_keeps) | (with_reducible apply State.portCount_keeps)
    | (with_reducible apply ite_keeps) | (with_reducible apply ite_fst_keeps)
    | (with_reducible apply ite_snd_keeps) | (with_reducible apply foldl_keeps)
    | (with_reducible apply forEach_keeps) | (with_reducible refine keeps_fst (by assumption) ?_)
    | (with_reducible refine keeps_snd (by assumption) ?_)
    | (with_reducible refine keeps_thd (by assumption) ?_)
    | (with_reducible refine keeps_fth (by assumption) ?_) | (dsimp only) | split
    | ((conv => arg 3; arg 26); with_reducible refine keeps_mk ?_ rfl rfl rfl rfl rfl))

theorem State.putNode_keeps {s : State} (kind : Nat) (n : Nat) (d : Sys2Proof.Machine.Node) (hs : Keeps p z s) :
    Keeps p z (State.putNode s kind n d) := by
  unfold State.putNode
  try dsimp only [okA, okRes, failA, laterA]
  repeat' (first
    | (with_reducible assumption) | (intro _) | (with_reducible apply State.setNodeSt_keeps)
    | (with_reducible apply State.setNode_keeps) | (with_reducible apply State.idleAbove_keeps)
    | (with_reducible apply ite_keeps) | (with_reducible apply ite_fst_keeps)
    | (with_reducible apply ite_snd_keeps) | (with_reducible apply foldl_keeps)
    | (with_reducible apply forEach_keeps) | (with_reducible refine keeps_fst (by assumption) ?_)
    | (with_reducible refine keeps_snd (by assumption) ?_)
    | (with_reducible refine keeps_thd (by assumption) ?_)
    | (with_reducible refine keeps_fth (by assumption) ?_) | (dsimp only) | split
    | ((conv => arg 3; arg 26); with_reducible refine keeps_mk ?_ rfl rfl rfl rfl rfl))

theorem refuseAt_keeps {s : State} (code : Nat) (k : Nat) (hs : Keeps p z s) : Keeps p z (refuseAt s code k).1 := by
  unfold refuseAt
  try dsimp only [okA, okRes, failA, laterA]
  repeat' (first
    | (with_reducible assumption) | (intro _) | (with_reducible apply ite_keeps)
    | (with_reducible apply ite_fst_keeps) | (with_reducible apply ite_snd_keeps)
    | (with_reducible apply foldl_keeps) | (with_reducible apply forEach_keeps)
    | (with_reducible refine keeps_fst (by assumption) ?_)
    | (with_reducible refine keeps_snd (by assumption) ?_)
    | (with_reducible refine keeps_thd (by assumption) ?_)
    | (with_reducible refine keeps_fth (by assumption) ?_) | (dsimp only) | split
    | ((conv => arg 3; arg 26); with_reducible refine keeps_mk ?_ rfl rfl rfl rfl rfl))

theorem State.putNodes_keeps {s : State} (f : Nat) (kind : Nat) (recs : List (Nat × List Sys2Proof.Byte)) (hs :
    Keeps p z s) : Keeps p z (State.putNodes s f kind recs).1 := by
  unfold State.putNodes
  try dsimp only [okA, okRes, failA, laterA]
  repeat' (first
    | (with_reducible assumption) | (intro _) | (with_reducible apply State.countMoved_keeps)
    | (with_reducible apply forEach_keeps) | (with_reducible apply State.putNode_keeps)
    | (with_reducible apply failA_keeps) | (with_reducible apply refuseAt_keeps)
    | (with_reducible apply okA_keeps) | (with_reducible apply ite_keeps)
    | (with_reducible apply ite_fst_keeps) | (with_reducible apply ite_snd_keeps)
    | (with_reducible apply foldl_keeps) | (with_reducible apply forEach_keeps)
    | (with_reducible refine keeps_fst (by assumption) ?_)
    | (with_reducible refine keeps_snd (by assumption) ?_)
    | (with_reducible refine keeps_thd (by assumption) ?_)
    | (with_reducible refine keeps_fth (by assumption) ?_) | (dsimp only) | split
    | ((conv => arg 3; arg 26); with_reducible refine keeps_mk ?_ rfl rfl rfl rfl rfl))

theorem eschNodeSet_keeps (j : Sys2Proof.Job) {s : State} (hs : Keeps p z s) : Keeps p z (eschNodeSet j s).1 := by
  unfold eschNodeSet
  try dsimp only [okA, okRes, failA, laterA]
  repeat' (first
    | (with_reducible assumption) | (intro _) | (with_reducible apply okA_keeps)
    | (with_reducible apply failA_keeps) | (with_reducible apply State.putNodes_keeps)
    | (with_reducible apply ite_keeps) | (with_reducible apply ite_fst_keeps)
    | (with_reducible apply ite_snd_keeps) | (with_reducible apply foldl_keeps)
    | (with_reducible apply forEach_keeps) | (with_reducible refine keeps_fst (by assumption) ?_)
    | (with_reducible refine keeps_snd (by assumption) ?_)
    | (with_reducible refine keeps_thd (by assumption) ?_)
    | (with_reducible refine keeps_fth (by assumption) ?_) | (dsimp only) | split
    | ((conv => arg 3; arg 26); with_reducible refine keeps_mk ?_ rfl rfl rfl rfl rfl))

theorem eschQueueSet_keeps (j : Sys2Proof.Job) {s : State} (hs : Keeps p z s) : Keeps p z (eschQueueSet j s).1 := by
  unfold eschQueueSet
  try dsimp only [okA, okRes, failA, laterA]
  repeat' (first
    | (with_reducible assumption) | (intro _) | (with_reducible apply okA_keeps)
    | (with_reducible apply failA_keeps) | (with_reducible apply State.putNodes_keeps)
    | (with_reducible apply ite_keeps) | (with_reducible apply ite_fst_keeps)
    | (with_reducible apply ite_snd_keeps) | (with_reducible apply foldl_keeps)
    | (with_reducible apply forEach_keeps) | (with_reducible refine keeps_fst (by assumption) ?_)
    | (with_reducible refine keeps_snd (by assumption) ?_)
    | (with_reducible refine keeps_thd (by assumption) ?_)
    | (with_reducible refine keeps_fth (by assumption) ?_) | (dsimp only) | split
    | ((conv => arg 3; arg 26); with_reducible refine keeps_mk ?_ rfl rfl rfl rfl rfl))

theorem eschPortSet_keeps (j : Sys2Proof.Job) {s : State} (hs : Keeps p z s) : Keeps p z (eschPortSet j s).1 := by
  unfold eschPortSet
  try dsimp only [okA, okRes, failA, laterA]
  repeat' (first
    | (with_reducible assumption) | (intro _) | (with_reducible apply failA_keeps)
    | (with_reducible apply State.countMoved_keeps) | (with_reducible apply State.setReg_keeps)
    | (with_reducible apply State.wr_keeps) | (with_reducible apply okA_keeps)
    | (with_reducible apply State.putNode_keeps) | (with_reducible apply ite_keeps)
    | (with_reducible apply ite_fst_keeps) | (with_reducible apply ite_snd_keeps)
    | (with_reducible apply foldl_keeps) | (with_reducible apply forEach_keeps)
    | (with_reducible refine keeps_fst (by assumption) ?_)
    | (with_reducible refine keeps_snd (by assumption) ?_)
    | (with_reducible refine keeps_thd (by assumption) ?_)
    | (with_reducible refine keeps_fth (by assumption) ?_) | (dsimp only) | split
    | ((conv => arg 3; arg 26); with_reducible refine keeps_mk ?_ rfl rfl rfl rfl rfl))

theorem eschQuery_keeps (j : Sys2Proof.Job) {s : State} (hs : Keeps p z s) : Keeps p z (eschQuery j s).1 := by
  unfold eschQuery
  try dsimp only [okA, okRes, failA, laterA]
  repeat' (first
    | (with_reducible assumption) | (intro _) | (with_reducible apply failA_keeps)
    | (with_reducible apply okRes_keeps) | (with_reducible apply State.jobWrite_keeps)
    | (with_reducible apply ite_keeps) | (with_reducible apply ite_fst_keeps)
    | (with_reducible apply ite_snd_keeps) | (with_reducible apply foldl_keeps)
    | (with_reducible apply forEach_keeps) | (with_reducible refine keeps_fst (by assumption) ?_)
    | (with_reducible refine keeps_snd (by assumption) ?_)
    | (with_reducible refine keeps_thd (by assumption) ?_)
    | (with_reducible refine keeps_fth (by assumption) ?_) | (dsimp only) | split
    | ((conv => arg 3; arg 26); with_reducible refine keeps_mk ?_ rfl rfl rfl rfl rfl))

theorem State.launchArrives_keeps {s : State} (q : Nat) (hs : Keeps p z s) : Keeps p z (State.launchArrives s q) :=
    by
  unfold State.launchArrives
  try dsimp only [okA, okRes, failA, laterA]
  repeat' (first
    | (with_reducible assumption) | (intro _) | (with_reducible apply State.setEgq_keeps)
    | (with_reducible apply ite_keeps) | (with_reducible apply ite_fst_keeps)
    | (with_reducible apply ite_snd_keeps) | (with_reducible apply foldl_keeps)
    | (with_reducible apply forEach_keeps) | (with_reducible refine keeps_fst (by assumption) ?_)
    | (with_reducible refine keeps_snd (by assumption) ?_)
    | (with_reducible refine keeps_thd (by assumption) ?_)
    | (with_reducible refine keeps_fth (by assumption) ?_) | (dsimp only) | split
    | ((conv => arg 3; arg 26); with_reducible refine keeps_mk ?_ rfl rfl rfl rfl rfl))

theorem execEschDecision_keeps (n : Fin 141) (m : Fin 2) {s : State} (hs : Keeps p z s) {t' : State} (e :
    execEschDecision n m s = .next t') : Keeps p z t' := by
  unfold execEschDecision at e
  repeat' (first | cases e | split at e | (dsimp only at e))
  all_goals
    try dsimp only
    repeat' (first
      | (with_reducible assumption) | (intro _) | (with_reducible apply State.eschDecide_keeps)
      | (with_reducible apply State.runJob_keeps) | (with_reducible apply ite_keeps)
      | (with_reducible apply ite_fst_keeps) | (with_reducible apply ite_snd_keeps)
      | (with_reducible apply foldl_keeps) | (with_reducible apply forEach_keeps)
      | (with_reducible refine keeps_fst (by assumption) ?_)
      | (with_reducible refine keeps_snd (by assumption) ?_)
      | (with_reducible refine keeps_thd (by assumption) ?_)
      | (with_reducible refine keeps_fth (by assumption) ?_) | (dsimp only) | split
      | ((conv => arg 3; arg 26); with_reducible refine keeps_mk ?_ rfl rfl rfl rfl rfl))

theorem execLaunchTimeArrival_keeps (q : BitVec 16) {s : State} (hs : Keeps p z s) {t' : State} (e :
    execLaunchTimeArrival q s = .next t') : Keeps p z t' := by
  unfold execLaunchTimeArrival at e
  repeat' (first | cases e | split at e | (dsimp only at e))
  all_goals
    try dsimp only
    repeat' (first
      | (with_reducible assumption) | (intro _) | (with_reducible apply State.launchArrives_keeps)
      | (with_reducible apply State.runJob_keeps) | (with_reducible apply ite_keeps)
      | (with_reducible apply ite_fst_keeps) | (with_reducible apply ite_snd_keeps)
      | (with_reducible apply foldl_keeps) | (with_reducible apply forEach_keeps)
      | (with_reducible refine keeps_fst (by assumption) ?_)
      | (with_reducible refine keeps_snd (by assumption) ?_)
      | (with_reducible refine keeps_thd (by assumption) ?_)
      | (with_reducible refine keeps_fth (by assumption) ?_) | (dsimp only) | split
      | ((conv => arg 3; arg 26); with_reducible refine keeps_mk ?_ rfl rfl rfl rfl rfl))

theorem execEschPortSet_keeps (j : Sys2Proof.Job) {s : State} (hs : Keeps p z s) {t' : State} (e : execEschPortSet
    j s = .next t') : Keeps p z t' := by
  unfold execEschPortSet at e
  repeat' (first | cases e | split at e | (dsimp only at e))
  all_goals
    try dsimp only
    repeat' (first
      | (with_reducible assumption) | (intro _) | (with_reducible apply jobRow_keeps (e := by assumption))
      | (with_reducible apply eschPortSet_keeps) | (with_reducible apply State.runJob_keeps)
      | (with_reducible apply State.runJob_keeps) | (with_reducible apply ite_keeps)
      | (with_reducible apply ite_fst_keeps) | (with_reducible apply ite_snd_keeps)
      | (with_reducible apply foldl_keeps) | (with_reducible apply forEach_keeps)
      | (with_reducible refine keeps_fst (by assumption) ?_)
      | (with_reducible refine keeps_snd (by assumption) ?_)
      | (with_reducible refine keeps_thd (by assumption) ?_)
      | (with_reducible refine keeps_fth (by assumption) ?_) | (dsimp only) | split
      | ((conv => arg 3; arg 26); with_reducible refine keeps_mk ?_ rfl rfl rfl rfl rfl))

theorem execEschNodeSet_keeps (j : Sys2Proof.Job) {s : State} (hs : Keeps p z s) {t' : State} (e : execEschNodeSet
    j s = .next t') : Keeps p z t' := by
  unfold execEschNodeSet at e
  repeat' (first | cases e | split at e | (dsimp only at e))
  all_goals
    try dsimp only
    repeat' (first
      | (with_reducible assumption) | (intro _) | (with_reducible apply jobRow_keeps (e := by assumption))
      | (with_reducible apply eschNodeSet_keeps) | (with_reducible apply State.runJob_keeps)
      | (with_reducible apply State.runJob_keeps) | (with_reducible apply ite_keeps)
      | (with_reducible apply ite_fst_keeps) | (with_reducible apply ite_snd_keeps)
      | (with_reducible apply foldl_keeps) | (with_reducible apply forEach_keeps)
      | (with_reducible refine keeps_fst (by assumption) ?_)
      | (with_reducible refine keeps_snd (by assumption) ?_)
      | (with_reducible refine keeps_thd (by assumption) ?_)
      | (with_reducible refine keeps_fth (by assumption) ?_) | (dsimp only) | split
      | ((conv => arg 3; arg 26); with_reducible refine keeps_mk ?_ rfl rfl rfl rfl rfl))

theorem execEschQueueSet_keeps (j : Sys2Proof.Job) {s : State} (hs : Keeps p z s) {t' : State} (e :
    execEschQueueSet j s = .next t') : Keeps p z t' := by
  unfold execEschQueueSet at e
  repeat' (first | cases e | split at e | (dsimp only at e))
  all_goals
    try dsimp only
    repeat' (first
      | (with_reducible assumption) | (intro _) | (with_reducible apply jobRow_keeps (e := by assumption))
      | (with_reducible apply eschQueueSet_keeps) | (with_reducible apply State.runJob_keeps)
      | (with_reducible apply State.runJob_keeps) | (with_reducible apply ite_keeps)
      | (with_reducible apply ite_fst_keeps) | (with_reducible apply ite_snd_keeps)
      | (with_reducible apply foldl_keeps) | (with_reducible apply forEach_keeps)
      | (with_reducible refine keeps_fst (by assumption) ?_)
      | (with_reducible refine keeps_snd (by assumption) ?_)
      | (with_reducible refine keeps_thd (by assumption) ?_)
      | (with_reducible refine keeps_fth (by assumption) ?_) | (dsimp only) | split
      | ((conv => arg 3; arg 26); with_reducible refine keeps_mk ?_ rfl rfl rfl rfl rfl))

theorem execEschQuery_keeps (j : Sys2Proof.Job) {s : State} (hs : Keeps p z s) {t' : State} (e : execEschQuery j s
    = .next t') : Keeps p z t' := by
  unfold execEschQuery at e
  repeat' (first | cases e | split at e | (dsimp only at e))
  all_goals
    try dsimp only
    repeat' (first
      | (with_reducible assumption) | (intro _) | (with_reducible apply jobRow_keeps (e := by assumption))
      | (with_reducible apply eschQuery_keeps) | (with_reducible apply State.runJob_keeps)
      | (with_reducible apply State.runJob_keeps) | (with_reducible apply ite_keeps)
      | (with_reducible apply ite_fst_keeps) | (with_reducible apply ite_snd_keeps)
      | (with_reducible apply foldl_keeps) | (with_reducible apply forEach_keeps)
      | (with_reducible refine keeps_fst (by assumption) ?_)
      | (with_reducible refine keeps_snd (by assumption) ?_)
      | (with_reducible refine keeps_thd (by assumption) ?_)
      | (with_reducible refine keeps_fth (by assumption) ?_) | (dsimp only) | split
      | ((conv => arg 3; arg 26); with_reducible refine keeps_mk ?_ rfl rfl rfl rfl rfl))

end Sys2Proof.Machine
end

