-- ==== Sys2Proof/Laws/KeepsReceive.lean ====
section
/-!
SUPPORT. Every operation of Machine/Receive.lean keeps the queue, the canonical form and the blown fuses.
-/
namespace Sys2Proof.Machine

variable {p : List Instr} {z : Fuses}

theorem State.growCells_keeps {s : State} (i : Nat) (n : Nat) (hs : Keeps p z s) : Keeps p z (State.growCells s i
    n).2 := by
  unfold State.growCells
  try dsimp only [okA, okRes, failA, laterA]
  repeat' (first
    | (with_reducible assumption) | (intro _) | (with_reducible apply State.chargeCells_keeps)
    | (with_reducible apply State.setFrame_keeps) | (with_reducible apply ite_keeps)
    | (with_reducible apply ite_fst_keeps) | (with_reducible apply ite_snd_keeps)
    | (with_reducible apply foldl_keeps) | (with_reducible apply forEach_keeps)
    | (with_reducible refine keeps_fst (by assumption) ?_)
    | (with_reducible refine keeps_snd (by assumption) ?_)
    | (with_reducible refine keeps_thd (by assumption) ?_)
    | (with_reducible refine keeps_fth (by assumption) ?_) | (dsimp only) | split
    | ((conv => arg 3; arg 26); with_reducible refine keeps_mk ?_ rfl rfl rfl rfl rfl))

theorem State.receiveDrop_keeps {s : State} (i : Nat) (n : Nat) (retx : Bool) (hs : Keeps p z s) : Keeps p z
    (State.receiveDrop s i n retx) := by
  unfold State.receiveDrop
  try dsimp only [okA, okRes, failA, laterA]
  repeat' (first
    | (with_reducible assumption) | (intro _) | (with_reducible apply State.event_keeps)
    | (with_reducible apply State.portCount_keeps) | (with_reducible apply State.dropFrame_keeps)
    | (with_reducible apply State.spoil_keeps) | (with_reducible apply State.freeCells_keeps)
    | (with_reducible apply ite_keeps) | (with_reducible apply ite_fst_keeps)
    | (with_reducible apply ite_snd_keeps) | (with_reducible apply foldl_keeps)
    | (with_reducible apply forEach_keeps) | (with_reducible refine keeps_fst (by assumption) ?_)
    | (with_reducible refine keeps_snd (by assumption) ?_)
    | (with_reducible refine keeps_thd (by assumption) ?_)
    | (with_reducible refine keeps_fth (by assumption) ?_) | (dsimp only) | split
    | ((conv => arg 3; arg 26); with_reducible refine keeps_mk ?_ rfl rfl rfl rfl rfl))

theorem State.setReception_keeps {s : State} (n : Nat) (m : Nat) (r : Option Sys2Proof.Machine.Receiving) (hs :
    Keeps p z s) : Keeps p z (State.setReception s n m r) := by
  unfold State.setReception
  try dsimp only [okA, okRes, failA, laterA]
  repeat' (first
    | (with_reducible assumption) | (intro _) | (with_reducible apply State.setPort_keeps)
    | (with_reducible apply ite_keeps) | (with_reducible apply ite_fst_keeps)
    | (with_reducible apply ite_snd_keeps) | (with_reducible apply foldl_keeps)
    | (with_reducible apply forEach_keeps) | (with_reducible refine keeps_fst (by assumption) ?_)
    | (with_reducible refine keeps_snd (by assumption) ?_)
    | (with_reducible refine keeps_thd (by assumption) ?_)
    | (with_reducible refine keeps_fth (by assumption) ?_) | (dsimp only) | split
    | ((conv => arg 3; arg 26); with_reducible refine keeps_mk ?_ rfl rfl rfl rfl rfl))

theorem State.refusedAtStart_keeps {s : State} (n : Nat) (l : List Sys2Proof.Byte) (hs : Keeps p z s) {t' : State}
    (e : State.refusedAtStart s n l = some t') : Keeps p z t' := by
  unfold State.refusedAtStart at e
  repeat' (first
    | cases e | contradiction | split at e | (dsimp only at e)
    | (simp only [Option.map_eq_some_iff] at e; obtain ⟨_, _, e⟩ := e; cases e))
  all_goals
    try dsimp only
    repeat' (first
      | (with_reducible assumption) | (intro _) | (with_reducible apply State.portCount_keeps)
      | (with_reducible apply State.fault_keeps) | (with_reducible apply State.event_keeps)
      | (with_reducible apply ite_keeps) | (with_reducible apply ite_fst_keeps)
      | (with_reducible apply ite_snd_keeps) | (with_reducible apply foldl_keeps)
      | (with_reducible apply forEach_keeps) | (with_reducible refine keeps_fst (by assumption) ?_)
      | (with_reducible refine keeps_snd (by assumption) ?_)
      | (with_reducible refine keeps_thd (by assumption) ?_)
      | (with_reducible refine keeps_fth (by assumption) ?_) | (dsimp only) | split
      | ((conv => arg 3; arg 26); with_reducible refine keeps_mk ?_ rfl rfl rfl rfl rfl))

theorem State.startReception_keeps {s : State} (x : Sys2Proof.Machine.Piece) (hs : Keeps p z s) : Keeps p z
    (State.startReception s x) := by
  unfold State.startReception
  try dsimp only [okA, okRes, failA, laterA]
  repeat' (first
    | (with_reducible assumption) | (intro _)
    | (with_reducible apply State.refusedAtStart_keeps (e := by assumption))
    | (with_reducible apply State.setReception_keeps) | (with_reducible apply State.settled_keeps)
    | (with_reducible apply State.newFrame_keeps) | (with_reducible apply State.enterWait_keeps)
    | (with_reducible apply ite_keeps) | (with_reducible apply ite_fst_keeps)
    | (with_reducible apply ite_snd_keeps) | (with_reducible apply foldl_keeps)
    | (with_reducible apply forEach_keeps) | (with_reducible refine keeps_fst (by assumption) ?_)
    | (with_reducible refine keeps_snd (by assumption) ?_)
    | (with_reducible refine keeps_thd (by assumption) ?_)
    | (with_reducible refine keeps_fth (by assumption) ?_) | (dsimp only) | split
    | ((conv => arg 3; arg 26); with_reducible refine keeps_mk ?_ rfl rfl rfl rfl rfl))

theorem State.takeBytes_keeps {s : State} (x : Sys2Proof.Machine.Piece) (r : Sys2Proof.Machine.Receiving) (hs :
    Keeps p z s) : Keeps p z (State.takeBytes s x r) := by
  unfold State.takeBytes
  try dsimp only [okA, okRes, failA, laterA]
  repeat' (first
    | (with_reducible assumption) | (intro _) | (with_reducible apply State.setReception_keeps)
    | (with_reducible apply State.spoilAll_keeps) | (with_reducible apply State.portCount_keeps)
    | (with_reducible apply forEach_keeps) | (with_reducible apply State.setFrame_keeps)
    | (with_reducible apply State.growCells_keeps) | (with_reducible apply State.spoil_keeps)
    | (with_reducible apply State.receiveDrop_keeps) | (with_reducible apply ite_keeps)
    | (with_reducible apply ite_fst_keeps) | (with_reducible apply ite_snd_keeps)
    | (with_reducible apply foldl_keeps) | (with_reducible apply forEach_keeps)
    | (with_reducible refine keeps_fst (by assumption) ?_)
    | (with_reducible refine keeps_snd (by assumption) ?_)
    | (with_reducible refine keeps_thd (by assumption) ?_)
    | (with_reducible refine keeps_fth (by assumption) ?_) | (dsimp only) | split
    | ((conv => arg 3; arg 26); with_reducible refine keeps_mk ?_ rfl rfl rfl rfl rfl))

theorem State.consume_keeps {s : State} (n : Nat) (r : Sys2Proof.Machine.Receiving) (hs : Keeps p z s) : Keeps p z
    (State.consume s n r) := by
  unfold State.consume
  try dsimp only [okA, okRes, failA, laterA]
  repeat' (first
    | (with_reducible assumption) | (intro _) | (with_reducible apply State.dropFrame_keeps)
    | (with_reducible apply State.rxPfc_keeps) | (with_reducible apply State.rxPause_keeps)
    | (with_reducible apply State.rxControl_keeps) | (with_reducible apply State.ackUpTo_keeps)
    | (with_reducible apply State.resendFrom_keeps) | (with_reducible apply State.rxResync_keeps)
    | (with_reducible apply ite_keeps) | (with_reducible apply ite_fst_keeps)
    | (with_reducible apply ite_snd_keeps) | (with_reducible apply foldl_keeps)
    | (with_reducible apply forEach_keeps) | (with_reducible refine keeps_fst (by assumption) ?_)
    | (with_reducible refine keeps_snd (by assumption) ?_)
    | (with_reducible refine keeps_thd (by assumption) ?_)
    | (with_reducible refine keeps_fth (by assumption) ?_) | (dsimp only) | split
    | ((conv => arg 3; arg 26); with_reducible refine keeps_mk ?_ rfl rfl rfl rfl rfl))

theorem State.endGood_keeps {s : State} (n : Nat) (r : Sys2Proof.Machine.Receiving) (hs : Keeps p z s) : Keeps p z
    (State.endGood s n r) := by
  unfold State.endGood
  try dsimp only [okA, okRes, failA, laterA]
  repeat' (first
    | (with_reducible assumption) | (intro _) | (with_reducible apply forEach_keeps)
    | (with_reducible apply State.offerFrame_keeps) | (with_reducible apply State.setFrame_keeps)
    | (with_reducible apply State.learnRequest_keeps) | (with_reducible apply ite_keeps)
    | (with_reducible apply ite_fst_keeps) | (with_reducible apply ite_snd_keeps)
    | (with_reducible apply foldl_keeps) | (with_reducible apply forEach_keeps)
    | (with_reducible refine keeps_fst (by assumption) ?_)
    | (with_reducible refine keeps_snd (by assumption) ?_)
    | (with_reducible refine keeps_thd (by assumption) ?_)
    | (with_reducible refine keeps_fth (by assumption) ?_) | (dsimp only) | split
    | ((conv => arg 3; arg 26); with_reducible refine keeps_mk ?_ rfl rfl rfl rfl rfl))

theorem State.rxClause30_keeps {s : State} (n : Nat) (len : Nat) (addr : Nat) (hs : Keeps p z s) : Keeps p z
    (State.rxClause30 s n len addr) := by
  unfold State.rxClause30
  try dsimp only [okA, okRes, failA, laterA]
  repeat' (first
    | (with_reducible assumption) | (intro _) | (with_reducible apply State.portCount_keeps)
    | (with_reducible apply ite_keeps) | (with_reducible apply ite_fst_keeps)
    | (with_reducible apply ite_snd_keeps) | (with_reducible apply foldl_keeps)
    | (with_reducible apply forEach_keeps) | (with_reducible refine keeps_fst (by assumption) ?_)
    | (with_reducible refine keeps_snd (by assumption) ?_)
    | (with_reducible refine keeps_thd (by assumption) ?_)
    | (with_reducible refine keeps_fth (by assumption) ?_) | (dsimp only) | split
    | ((conv => arg 3; arg 26); with_reducible refine keeps_mk ?_ rfl rfl rfl rfl rfl))

theorem State.endReception_keeps {s : State} (x : Sys2Proof.Machine.Piece) (r : Sys2Proof.Machine.Receiving) (hs :
    Keeps p z s) : Keeps p z (State.endReception s x r) := by
  unfold State.endReception
  try dsimp only [okA, okRes, failA, laterA]
  repeat' (first
    | (with_reducible assumption) | (intro _) | (with_reducible apply State.countBytes_keeps)
    | (with_reducible apply State.setReception_keeps) | (with_reducible apply State.noteLen_keeps)
    | (with_reducible apply State.countCharges_keeps) | (with_reducible apply State.spoilAll_keeps)
    | (with_reducible apply State.portCount_keeps) | (with_reducible apply State.dropFrame_keeps)
    | (with_reducible apply forEach_keeps) | (with_reducible apply State.spoilQuiet_keeps)
    | (with_reducible apply State.rxClause30_keeps) | (with_reducible apply State.retxCheck_keeps)
    | (with_reducible apply State.consume_keeps) | (with_reducible apply State.endRetx_keeps)
    | (with_reducible apply State.endGood_keeps) | (with_reducible apply ite_keeps)
    | (with_reducible apply ite_fst_keeps) | (with_reducible apply ite_snd_keeps)
    | (with_reducible apply foldl_keeps) | (with_reducible apply forEach_keeps)
    | (with_reducible refine keeps_fst (by assumption) ?_)
    | (with_reducible refine keeps_snd (by assumption) ?_)
    | (with_reducible refine keeps_thd (by assumption) ?_)
    | (with_reducible refine keeps_fth (by assumption) ?_) | (dsimp only) | split
    | ((conv => arg 3; arg 26); with_reducible refine keeps_mk ?_ rfl rfl rfl rfl rfl))

theorem State.rxPiece_keeps {s : State} (x : Sys2Proof.Machine.Piece) (hs : Keeps p z s) : Keeps p z (State.rxPiece
    s x) := by
  unfold State.rxPiece
  try dsimp only [okA, okRes, failA, laterA]
  repeat' (first
    | (with_reducible assumption) | (intro _) | (with_reducible apply State.startReception_keeps)
    | (with_reducible apply State.takeBytes_keeps) | (with_reducible apply State.endReception_keeps)
    | (with_reducible apply ite_keeps) | (with_reducible apply ite_fst_keeps)
    | (with_reducible apply ite_snd_keeps) | (with_reducible apply foldl_keeps)
    | (with_reducible apply forEach_keeps) | (with_reducible refine keeps_fst (by assumption) ?_)
    | (with_reducible refine keeps_snd (by assumption) ?_)
    | (with_reducible refine keeps_thd (by assumption) ?_)
    | (with_reducible refine keeps_fth (by assumption) ?_) | (dsimp only) | split
    | ((conv => arg 3; arg 26); with_reducible refine keeps_mk ?_ rfl rfl rfl rfl rfl))

theorem State.firmwareFrame_keeps {s : State} (x1 : Nat) (tc : Nat) (l : List Sys2Proof.Byte) (hs : Keeps p z s) :
    Keeps p z (State.firmwareFrame s x1 tc l) := by
  unfold State.firmwareFrame
  try dsimp only [okA, okRes, failA, laterA]
  repeat' (first
    | (with_reducible assumption) | (intro _) | (with_reducible apply State.newFrame_keeps)
    | (with_reducible apply State.chargeCells_keeps) | (with_reducible apply State.setFrame_keeps)
    | (with_reducible apply State.headroomDrop_keeps) | (with_reducible apply State.enterWait_keeps)
    | (with_reducible apply ite_keeps) | (with_reducible apply ite_fst_keeps)
    | (with_reducible apply ite_snd_keeps) | (with_reducible apply foldl_keeps)
    | (with_reducible apply forEach_keeps) | (with_reducible refine keeps_fst (by assumption) ?_)
    | (with_reducible refine keeps_snd (by assumption) ?_)
    | (with_reducible refine keeps_thd (by assumption) ?_)
    | (with_reducible refine keeps_fth (by assumption) ?_) | (dsimp only) | split
    | ((conv => arg 3; arg 26); with_reducible refine keeps_mk ?_ rfl rfl rfl rfl rfl))

theorem State.phyCount_keeps {s : State} (n : Nat) (c : Sys2Proof.PhyCounts) (hs : Keeps p z s) : Keeps p z
    (State.phyCount s n c) := by
  unfold State.phyCount
  try dsimp only [okA, okRes, failA, laterA]
  repeat' (first
    | (with_reducible assumption) | (intro _) | (with_reducible apply State.portCount_keeps)
    | (with_reducible apply State.faultPort_keeps) | (with_reducible apply ite_keeps)
    | (with_reducible apply ite_fst_keeps) | (with_reducible apply ite_snd_keeps)
    | (with_reducible apply foldl_keeps) | (with_reducible apply forEach_keeps)
    | (with_reducible refine keeps_fst (by assumption) ?_)
    | (with_reducible refine keeps_snd (by assumption) ?_)
    | (with_reducible refine keeps_thd (by assumption) ?_)
    | (with_reducible refine keeps_fth (by assumption) ?_) | (dsimp only) | split
    | ((conv => arg 3; arg 26); with_reducible refine keeps_mk ?_ rfl rfl rfl rfl rfl))

theorem execRxFrame_keeps (n : Fin 128) (mac : Fin 2) (total : BitVec 15) (bytes : List Sys2Proof.Byte) (last :
    Bool) (fcs : Sys2Proof.Word32) (aborted : Bool) (broken : Bool) (frags : BitVec 8) (phy : Sys2Proof.PhyCounts)
    (svc : Option (Fin 8 × Fin 16)) {s : State} (hs : Keeps p z s) {t' : State} (e : execRxFrame n mac total bytes
    last fcs aborted broken frags phy svc s = .next t') : Keeps p z t' := by
  unfold execRxFrame at e
  repeat' (first | cases e | split at e | (dsimp only at e))
  all_goals
    try dsimp only
    repeat' (first
      | (with_reducible assumption) | (intro _) | (with_reducible apply State.firmwareFrame_keeps)
      | (with_reducible apply State.rxPiece_keeps) | (with_reducible apply State.phyCount_keeps)
      | (with_reducible apply State.runJob_keeps) | (with_reducible apply ite_keeps)
      | (with_reducible apply ite_fst_keeps) | (with_reducible apply ite_snd_keeps)
      | (with_reducible apply foldl_keeps) | (with_reducible apply forEach_keeps)
      | (with_reducible refine keeps_fst (by assumption) ?_)
      | (with_reducible refine keeps_snd (by assumption) ?_)
      | (with_reducible refine keeps_thd (by assumption) ?_)
      | (with_reducible refine keeps_fth (by assumption) ?_) | (dsimp only) | split
      | ((conv => arg 3; arg 26); with_reducible refine keeps_mk ?_ rfl rfl rfl rfl rfl))

theorem execRxRetxFrame_keeps (n : Fin 128) (bytes : List Sys2Proof.Byte) (fcs : Sys2Proof.Word32) {s : State} (hs
    : Keeps p z s) {t' : State} (e : execRxRetxFrame n bytes fcs s = .next t') : Keeps p z t' := by
  unfold execRxRetxFrame at e
  repeat' (first | cases e | split at e | (dsimp only at e))
  all_goals
    try dsimp only
    repeat' (first
      | (with_reducible assumption) | (intro _) | (with_reducible apply State.rxPiece_keeps)
      | (with_reducible apply State.runJob_keeps) | (with_reducible apply ite_keeps)
      | (with_reducible apply ite_fst_keeps) | (with_reducible apply ite_snd_keeps)
      | (with_reducible apply foldl_keeps) | (with_reducible apply forEach_keeps)
      | (with_reducible refine keeps_fst (by assumption) ?_)
      | (with_reducible refine keeps_snd (by assumption) ?_)
      | (with_reducible refine keeps_thd (by assumption) ?_)
      | (with_reducible refine keeps_fth (by assumption) ?_) | (dsimp only) | split
      | ((conv => arg 3; arg 26); with_reducible refine keeps_mk ?_ rfl rfl rfl rfl rfl))

end Sys2Proof.Machine
end

