-- ==== Sys2Proof/Laws/KeepsAll.lean ====
section
/-!
SUPPORT. Every command keeps what its operations keep.
-/
namespace Sys2Proof.Machine

variable {p : List Instr} {z : Fuses}

/-- Every command keeps the waiting commands, the canonical form of memories and registers, and every blown fuse. -/
theorem exec_keeps {c : Instr} {s t : State} (h : Keeps p z s) (e : exec c s = .next t) : Keeps p z t := by
  cases c with
  | registerWrite => exact execRegisterWrite_keeps (hs := h) (e := e)
  | misalignedAccess => exact execMisalignedAccess_keeps (hs := h) (e := e)
  | pairLoRead => exact execPairLoRead_keeps (hs := h) (e := e)
  | pairHiRead => exact execPairHiRead_keeps (hs := h) (e := e)
  | pairLoWrite => exact execPairLoWrite_keeps (hs := h) (e := e)
  | pairHiWrite => exact execPairHiWrite_keeps (hs := h) (e := e)
  | nowNsRead => exact execNowNsRead_keeps (hs := h) (e := e)
  | todRxRead => exact execTodRxRead_keeps (hs := h) (e := e)
  | ovfClear => exact execOvfClear_keeps (hs := h) (e := e)
  | stepFlagClear => exact execStepFlagClear_keeps (hs := h) (e := e)
  | faultStatusClear => exact execFaultStatusClear_keeps (hs := h) (e := e)
  | faultFirstClear => exact execFaultFirstClear_keeps (hs := h) (e := e)
  | faultMaskWrite => exact execFaultMaskWrite_keeps (hs := h) (e := e)
  | faultSevWrite => exact execFaultSevWrite_keeps (hs := h) (e := e)
  | faultInjectWrite => exact execFaultInjectWrite_keeps (hs := h) (e := e)
  | dupInjectWrite => exact execDupInjectWrite_keeps (hs := h) (e := e)
  | safeCauseClear => exact execSafeCauseClear_keeps (hs := h) (e := e)
  | warmResetKeyWrite => exact execWarmResetKeyWrite_keeps (hs := h) (e := e)
  | adminCtlEnable => exact execAdminCtlEnable_keeps (hs := h) (e := e)
  | adminCtlDisable => exact execAdminCtlDisable_keeps (hs := h) (e := e)
  | sqTailDoorbell => exact execSqTailDoorbell_keeps (hs := h) (e := e)
  | cqHeadDoorbell => exact execCqHeadDoorbell_keeps (hs := h) (e := e)
  | jobFetch => exact execJobFetch_keeps (hs := h) (e := e)
  | undefinedOpcodeJob => exact execUndefinedOpcodeJob_keeps (hs := h) (e := e)
  | completionWrite => exact execCompletionWrite_keeps (hs := h) (e := e)
  | noticePost => exact execNoticePost_keeps (hs := h) (e := e)
  | coalesceTimerExpiry => exact execCoalesceTimerExpiry_keeps (hs := h) (e := e)
  | queueStopDone => exact execQueueStopDone_keeps (hs := h) (e := e)
  | queueCreate => exact execQueueCreate_keeps (hs := h) (e := e)
  | queueDestroy => exact execQueueDestroy_keeps (hs := h) (e := e)
  | queueQuery => exact execQueueQuery_keeps (hs := h) (e := e)
  | queueCoalesce => exact execQueueCoalesce_keeps (hs := h) (e := e)
  | echo => exact execEcho_keeps (hs := h) (e := e)
  | injectFrame => exact execInjectFrame_keeps (hs := h) (e := e)
  | puntFrameWrite => exact execPuntFrameWrite_keeps (hs := h) (e := e)
  | eventRecordPost => exact execEventRecordPost_keeps (hs := h) (e := e)
  | assignResources => exact execAssignResources_keeps (hs := h) (e := e)
  | resourceQuery => exact execResourceQuery_keeps (hs := h) (e := e)
  | hifSetup => exact execHifSetup_keeps (hs := h) (e := e)
  | pcieLinkUp => exact execPcieLinkUp_keeps (hs := h) (e := e)
  | linkRecovery => exact execLinkRecovery_keeps (hs := h) (e := e)
  | retryUsExpiry => exact execRetryUsExpiry_keeps (hs := h) (e := e)
  | pcieHotReset => exact execPcieHotReset_keeps (hs := h) (e := e)
  | functionLevelReset => exact execFunctionLevelReset_keeps (hs := h) (e := e)
  | functionResetDone => exact execFunctionResetDone_keeps (hs := h) (e := e)
  | mmioRequest => exact execMmioRequest_keeps (hs := h) (e := e)
  | completionArrival => exact execCompletionArrival_keeps (hs := h) (e := e)
  | cplTimerExpiry => exact execCplTimerExpiry_keeps (hs := h) (e := e)
  | msixPendingSend => exact execMsixPendingSend_keeps (hs := h) (e := e)
  | portConfig => exact execPortConfig_keeps (hs := h) (e := e)
  | portEnable => exact execPortEnable_keeps (hs := h) (e := e)
  | portQuery => exact execPortQuery_keeps (hs := h) (e := e)
  | portCal => exact execPortCal_keeps (hs := h) (e := e)
  | portPfcSet => exact execPortPfcSet_keeps (hs := h) (e := e)
  | portPreemptSet => exact execPortPreemptSet_keeps (hs := h) (e := e)
  | portGclLoad => exact execPortGclLoad_keeps (hs := h) (e := e)
  | portGclQuery => exact execPortGclQuery_keeps (hs := h) (e := e)
  | portEeeSet => exact execPortEeeSet_keeps (hs := h) (e := e)
  | portExpressSet => exact execPortExpressSet_keeps (hs := h) (e := e)
  | portDomainSet => exact execPortDomainSet_keeps (hs := h) (e := e)
  | anResolved => exact execAnResolved_keeps (hs := h) (e := e)
  | anTimerExpiry => exact execAnTimerExpiry_keeps (hs := h) (e := e)
  | trainingReceiverReady => exact execTrainingReceiverReady_keeps (hs := h) (e := e)
  | ltMaxWaitExpiry => exact execLtMaxWaitExpiry_keeps (hs := h) (e := e)
  | alignmentAchieved => exact execAlignmentAchieved_keeps (hs := h) (e := e)
  | linkLoss => exact execLinkLoss_keeps (hs := h) (e := e)
  | varMeasured => exact execVarMeasured_keeps (hs := h) (e := e)
  | lpiTimerExpiry => exact execLpiTimerExpiry_keeps (hs := h) (e := e)
  | twSysTxExpiry => exact execTwSysTxExpiry_keeps (hs := h) (e := e)
  | pfcFrameSend => exact execPfcFrameSend_keeps (hs := h) (e := e)
  | pfcRefreshExpiry => exact execPfcRefreshExpiry_keeps (hs := h) (e := e)
  | rxPfcFrame => exact execRxPfcFrame_keeps (hs := h) (e := e)
  | rxPauseFrame => exact execRxPauseFrame_keeps (hs := h) (e := e)
  | rxMacControlFrame => exact execRxMacControlFrame_keeps (hs := h) (e := e)
  | rxPauseTimerExpiry => exact execRxPauseTimerExpiry_keeps (hs := h) (e := e)
  | verifyTimeExpiry => exact execVerifyTimeExpiry_keeps (hs := h) (e := e)
  | verifySucceeded => exact execVerifySucceeded_keeps (hs := h) (e := e)
  | gclChangeTime => exact execGclChangeTime_keeps (hs := h) (e := e)
  | gclEntryBoundary => exact execGclEntryBoundary_keeps (hs := h) (e := e)
  | rxFrame => exact execRxFrame_keeps (hs := h) (e := e)
  | slotGrant => exact execSlotGrant_keeps (hs := h) (e := e)
  | packetEntry => exact execPacketEntry_keeps (hs := h) (e := e)
  | parseResultDelivery => exact execParseResultDelivery_keeps (hs := h) (e := e)
  | trussGraphLoad => exact execTrussGraphLoad_keeps (hs := h) (e := e)
  | trussShadowWritten => exact execTrussShadowWritten_keeps (hs := h) (e := e)
  | trussGraphSwap => exact execTrussGraphSwap_keeps (hs := h) (e := e)
  | trussDrainEnd => exact execTrussDrainEnd_keeps (hs := h) (e := e)
  | trussGraphRead => exact execTrussGraphRead_keeps (hs := h) (e := e)
  | mortiseSearch => exact execMortiseSearch_keeps (hs := h) (e := e)
  | mortiseSearchResult => exact execMortiseSearchResult_keeps (hs := h) (e := e)
  | floorCreditEarn => exact execFloorCreditEarn_keeps (hs := h) (e := e)
  | mortiseProfileSet => exact execMortiseProfileSet_keeps (hs := h) (e := e)
  | mortisePortSet => exact execMortisePortSet_keeps (hs := h) (e := e)
  | mortiseRead => exact execMortiseRead_keeps (hs := h) (e := e)
  | mortiseScrubSet => exact execMortiseScrubSet_keeps (hs := h) (e := e)
  | scrubPeriodExpiry => exact execScrubPeriodExpiry_keeps (hs := h) (e := e)
  | scrubCheck => exact execScrubCheck_keeps (hs := h) (e := e)
  | emBucketReadReturn => exact execEmBucketReadReturn_keeps (hs := h) (e := e)
  | lookupResultsReady => exact execLookupResultsReady_keeps (hs := h) (e := e)
  | learnApply => exact execLearnApply_keeps (hs := h) (e := e)
  | noticeApply => exact execNoticeApply_keeps (hs := h) (e := e)
  | learnMoveDelete => exact execLearnMoveDelete_keeps (hs := h) (e := e)
  | learnNoticePost => exact execLearnNoticePost_keeps (hs := h) (e := e)
  | ageTick => exact execAgeTick_keeps (hs := h) (e := e)
  | ageingVisit => exact execAgeingVisit_keeps (hs := h) (e := e)
  | refreshNoticeApply => exact execRefreshNoticeApply_keeps (hs := h) (e := e)
  | spillCntRecount => exact execSpillCntRecount_keeps (hs := h) (e := e)
  | emMoveRemove => exact execEmMoveRemove_keeps (hs := h) (e := e)
  | tableSetupProfile => exact execTableSetupProfile_keeps (hs := h) (e := e)
  | tableSetupPort => exact execTableSetupPort_keeps (hs := h) (e := e)
  | tableSetupLearnAge => exact execTableSetupLearnAge_keeps (hs := h) (e := e)
  | tableSetupLearnSeeds => exact execTableSetupLearnSeeds_keeps (hs := h) (e := e)
  | tableSetupEmSeeds => exact execTableSetupEmSeeds_keeps (hs := h) (e := e)
  | tableSetupEventQ => exact execTableSetupEventQ_keeps (hs := h) (e := e)
  | tableLookup => exact execTableLookup_keeps (hs := h) (e := e)
  | tableDump => exact execTableDump_keeps (hs := h) (e := e)
  | updInsert => exact execUpdInsert_keeps (hs := h) (e := e)
  | updModify => exact execUpdModify_keeps (hs := h) (e := e)
  | updDelete => exact execUpdDelete_keeps (hs := h) (e := e)
  | updMove => exact execUpdMove_keeps (hs := h) (e := e)
  | batchOpen => exact execBatchOpen_keeps (hs := h) (e := e)
  | batchCommit => exact execBatchCommit_keeps (hs := h) (e := e)
  | batchAbort => exact execBatchAbort_keeps (hs := h) (e := e)
  | updateSetup => exact execUpdateSetup_keeps (hs := h) (e := e)
  | tableWriteLand => exact execTableWriteLand_keeps (hs := h) (e := e)
  | stealWaitExpiry => exact execStealWaitExpiry_keeps (hs := h) (e := e)
  | stealGapExpiry => exact execStealGapExpiry_keeps (hs := h) (e := e)
  | batchDrainStart => exact execBatchDrainStart_keeps (hs := h) (e := e)
  | groupParityFlip => exact execGroupParityFlip_keeps (hs := h) (e := e)
  | batchDrainEnd => exact execBatchDrainEnd_keeps (hs := h) (e := e)
  | normalisationWrite => exact execNormalisationWrite_keeps (hs := h) (e := e)
  | abortUndoDone => exact execAbortUndoDone_keeps (hs := h) (e := e)
  | drainWarnExpiry => exact execDrainWarnExpiry_keeps (hs := h) (e := e)
  | tenonDispatch => exact execTenonDispatch_keeps (hs := h) (e := e)
  | nop => exact execNop_keeps (hs := h) (e := e)
  | mov => exact execMov_keeps (hs := h) (e := e)
  | add => exact execAdd_keeps (hs := h) (e := e)
  | sub => exact execSub_keeps (hs := h) (e := e)
  | and => exact execAnd_keeps (hs := h) (e := e)
  | or => exact execOr_keeps (hs := h) (e := e)
  | xor => exact execXor_keeps (hs := h) (e := e)
  | shl => exact execShl_keeps (hs := h) (e := e)
  | shr => exact execShr_keeps (hs := h) (e := e)
  | sar => exact execSar_keeps (hs := h) (e := e)
  | rol => exact execRol_keeps (hs := h) (e := e)
  | mul => exact execMul_keeps (hs := h) (e := e)
  | cmp => exact execCmp_keeps (hs := h) (e := e)
  | tst => exact execTst_keeps (hs := h) (e := e)
  | ext => exact execExt_keeps (hs := h) (e := e)
  | ins => exact execIns_keeps (hs := h) (e := e)
  | crc => exact execCrc_keeps (hs := h) (e := e)
  | csum => exact execCsum_keeps (hs := h) (e := e)
  | ld => exact execLd_keeps (hs := h) (e := e)
  | st => exact execSt_keeps (hs := h) (e := e)
  | movb => exact execMovb_keeps (hs := h) (e := e)
  | srd => exact execSrd_keeps (hs := h) (e := e)
  | swr => exact execSwr_keeps (hs := h) (e := e)
  | sadd => exact execSadd_keeps (hs := h) (e := e)
  | scas => exact execScas_keeps (hs := h) (e := e)
  | drd => exact execDrd_keeps (hs := h) (e := e)
  | dwr => exact execDwr_keeps (hs := h) (e := e)
  | lkp => exact execLkp_keeps (hs := h) (e := e)
  | mtr => exact execMtr_keeps (hs := h) (e := e)
  | clone => exact execClone_keeps (hs := h) (e := e)
  | br => exact execBr_keeps (hs := h) (e := e)
  | brr => exact execBrr_keeps (hs := h) (e := e)
  | call => exact execCall_keeps (hs := h) (e := e)
  | endFrame => exact execEnd_keeps (hs := h) (e := e)
  | rtn => exact execRtn_keeps (hs := h) (e := e)
  | time => exact execTime_keeps (hs := h) (e := e)
  | lookupComplete => exact execLookupComplete_keeps (hs := h) (e := e)
  | meterVerdict => exact execMeterVerdict_keeps (hs := h) (e := e)
  | cellsReserved => exact execCellsReserved_keeps (hs := h) (e := e)
  | stateAccessComplete => exact execStateAccessComplete_keeps (hs := h) (e := e)
  | dramAccessComplete => exact execDramAccessComplete_keeps (hs := h) (e := e)
  | waitTimerExpiry => exact execWaitTimerExpiry_keeps (hs := h) (e := e)
  | windowByteArrival => exact execWindowByteArrival_keeps (hs := h) (e := e)
  | routineLimitReached => exact execRoutineLimitReached_keeps (hs := h) (e := e)
  | frameBadInterrupt => exact execFrameBadInterrupt_keeps (hs := h) (e := e)
  | enginePark => exact execEnginePark_keeps (hs := h) (e := e)
  | engineUnpark => exact execEngineUnpark_keeps (hs := h) (e := e)
  | tenonCsLoad => exact execTenonCsLoad_keeps (hs := h) (e := e)
  | tenonShadowWritten => exact execTenonShadowWritten_keeps (hs := h) (e := e)
  | tenonCsSwap => exact execTenonCsSwap_keeps (hs := h) (e := e)
  | tenonDrainEnd => exact execTenonDrainEnd_keeps (hs := h) (e := e)
  | tenonCsRead => exact execTenonCsRead_keeps (hs := h) (e := e)
  | tenonSetup => exact execTenonSetup_keeps (hs := h) (e := e)
  | tenonStateRead => exact execTenonStateRead_keeps (hs := h) (e := e)
  | tenonStateWrite => exact execTenonStateWrite_keeps (hs := h) (e := e)
  | csScrubPass => exact execCsScrubPass_keeps (hs := h) (e := e)
  | svcHeartbeat => exact execSvcHeartbeat_keeps (hs := h) (e := e)
  | svcHeartbeatTimeout => exact execSvcHeartbeatTimeout_keeps (hs := h) (e := e)
  | eschDecision => exact execEschDecision_keeps (hs := h) (e := e)
  | txFrameStart => exact execTxFrameStart_keeps (hs := h) (e := e)
  | txFrameEnd => exact execTxFrameEnd_keeps (hs := h) (e := e)
  | launchTimeArrival => exact execLaunchTimeArrival_keeps (hs := h) (e := e)
  | wdExpiry => exact execWdExpiry_keeps (hs := h) (e := e)
  | wdRestoreExpiry => exact execWdRestoreExpiry_keeps (hs := h) (e := e)
  | mcastHoldExpiry => exact execMcastHoldExpiry_keeps (hs := h) (e := e)
  | spillWriteConfirm => exact execSpillWriteConfirm_keeps (hs := h) (e := e)
  | refillReadReturn => exact execRefillReadReturn_keeps (hs := h) (e := e)
  | cellAudit => exact execCellAudit_keeps (hs := h) (e := e)
  | ridgePoolSet => exact execRidgePoolSet_keeps (hs := h) (e := e)
  | ridgePairSet => exact execRidgePairSet_keeps (hs := h) (e := e)
  | ridgePortSet => exact execRidgePortSet_keeps (hs := h) (e := e)
  | ridgeDscpSet => exact execRidgeDscpSet_keeps (hs := h) (e := e)
  | ridgeSamplerSet => exact execRidgeSamplerSet_keeps (hs := h) (e := e)
  | ridgeMcastSet => exact execRidgeMcastSet_keeps (hs := h) (e := e)
  | ridgeDeepSet => exact execRidgeDeepSet_keeps (hs := h) (e := e)
  | ridgeQuery => exact execRidgeQuery_keeps (hs := h) (e := e)
  | eschPortSet => exact execEschPortSet_keeps (hs := h) (e := e)
  | eschNodeSet => exact execEschNodeSet_keeps (hs := h) (e := e)
  | eschQueueSet => exact execEschQueueSet_keeps (hs := h) (e := e)
  | eschQuery => exact execEschQuery_keeps (hs := h) (e := e)
  | meterSet => exact execMeterSet_keeps (hs := h) (e := e)
  | meterQuery => exact execMeterQuery_keeps (hs := h) (e := e)
  | rxRetxFrame => exact execRxRetxFrame_keeps (hs := h) (e := e)
  | rxAck => exact execRxAck_keeps (hs := h) (e := e)
  | rxNak => exact execRxNak_keeps (hs := h) (e := e)
  | rxResync => exact execRxResync_keeps (hs := h) (e := e)
  | retxTimeoutExpiry => exact execRetxTimeoutExpiry_keeps (hs := h) (e := e)
  | joistSetup => exact execJoistSetup_keeps (hs := h) (e := e)
  | joistRouteSet => exact execJoistRouteSet_keeps (hs := h) (e := e)
  | joistRouteQuery => exact execJoistRouteQuery_keeps (hs := h) (e := e)
  | joistPortQuery => exact execJoistPortQuery_keeps (hs := h) (e := e)
  | timeBusBroadcast => exact execTimeBusBroadcast_keeps (hs := h) (e := e)
  | thymeAdjustRate => exact execThymeAdjustRate_keeps (hs := h) (e := e)
  | thymeAdjustSlew => exact execThymeAdjustSlew_keeps (hs := h) (e := e)
  | thymeAdjustStep => exact execThymeAdjustStep_keeps (hs := h) (e := e)
  | thymeAdjustSet => exact execThymeAdjustSet_keeps (hs := h) (e := e)
  | thymeAdjustSetAtPps => exact execThymeAdjustSetAtPps_keeps (hs := h) (e := e)
  | thymePulseSet => exact execThymePulseSet_keeps (hs := h) (e := e)
  | thymeIoSet => exact execThymeIoSet_keeps (hs := h) (e := e)
  | thymePortSet => exact execThymePortSet_keeps (hs := h) (e := e)
  | thymeDpllSet => exact execThymeDpllSet_keeps (hs := h) (e := e)
  | thymeTodSend => exact execThymeTodSend_keeps (hs := h) (e := e)
  | todTransmitStart => exact execTodTransmitStart_keeps (hs := h) (e := e)
  | todTransmitDone => exact execTodTransmitDone_keeps (hs := h) (e := e)
  | pulseEdge => exact execPulseEdge_keeps (hs := h) (e := e)
  | ppsOutEdge => exact execPpsOutEdge_keeps (hs := h) (e := e)
  | captureEdge => exact execCaptureEdge_keeps (hs := h) (e := e)
  | ppsInEdge => exact execPpsInEdge_keeps (hs := h) (e := e)
  | ppsInTimeout => exact execPpsInTimeout_keeps (hs := h) (e := e)
  | todRxByte => exact execTodRxByte_keeps (hs := h) (e := e)
  | todRxIdle => exact execTodRxIdle_keeps (hs := h) (e := e)
  | ref10mPresenceChange => exact execRef10mPresenceChange_keeps (hs := h) (e := e)
  | candidateDisqualified => exact execCandidateDisqualified_keeps (hs := h) (e := e)
  | wtrExpiry => exact execWtrExpiry_keeps (hs := h) (e := e)
  | dpllLockAchieved => exact execDpllLockAchieved_keeps (hs := h) (e := e)
  | holdCtlMode => exact execHoldCtlMode_keeps (hs := h) (e := e)
  | reportAcquire => exact execReportAcquire_keeps (hs := h) (e := e)
  | reportLocked => exact execReportLocked_keeps (hs := h) (e := e)
  | reportLost => exact execReportLost_keeps (hs := h) (e := e)
  | reportChange => exact execReportChange_keeps (hs := h) (e := e)
  | reportAlive => exact execReportAlive_keeps (hs := h) (e := e)
  | reportForget => exact execReportForget_keeps (hs := h) (e := e)
  | holdCtlLimits => exact execHoldCtlLimits_keeps (hs := h) (e := e)
  | holdCtlTableLoad => exact execHoldCtlTableLoad_keeps (hs := h) (e := e)
  | thymeHoldQuery => exact execThymeHoldQuery_keeps (hs := h) (e := e)
  | masterTimerExpiry => exact execMasterTimerExpiry_keeps (hs := h) (e := e)
  | holdSecond => exact execHoldSecond_keeps (hs := h) (e := e)
  | tsenseSample => exact execTsenseSample_keeps (hs := h) (e := e)
  | pegPoolCreate => exact execPegPoolCreate_keeps (hs := h) (e := e)
  | pegPoolDestroy => exact execPegPoolDestroy_keeps (hs := h) (e := e)
  | pegReserve => exact execPegReserve_keeps (hs := h) (e := e)
  | pegAlloc => exact execPegAlloc_keeps (hs := h) (e := e)
  | pegFree => exact execPegFree_keeps (hs := h) (e := e)
  | pegAudit => exact execPegAudit_keeps (hs := h) (e := e)
  | pegAuditDone => exact execPegAuditDone_keeps (hs := h) (e := e)
  | pegQuery => exact execPegQuery_keeps (hs := h) (e := e)
  | puntBufferGrant => exact execPuntBufferGrant_keeps (hs := h) (e := e)
  | dmaCopy => exact execDmaCopy_keeps (hs := h) (e := e)
  | dmaJobComplete => exact execDmaJobComplete_keeps (hs := h) (e := e)
  | dmaBeatFailure => exact execDmaBeatFailure_keeps (hs := h) (e := e)
  | lateError => exact execLateError_keeps (hs := h) (e := e)
  | purlinChannelSet => exact execPurlinChannelSet_keeps (hs := h) (e := e)
  | channelStop => exact execChannelStop_keeps (hs := h) (e := e)
  | channelStopped => exact execChannelStopped_keeps (hs := h) (e := e)
  | channelResume => exact execChannelResume_keeps (hs := h) (e := e)
  | channelFlush => exact execChannelFlush_keeps (hs := h) (e := e)
  | channelPolicy => exact execChannelPolicy_keeps (hs := h) (e := e)
  | purlinQuery => exact execPurlinQuery_keeps (hs := h) (e := e)
  | dmcRequestArrival => exact execDmcRequestArrival_keeps (hs := h) (e := e)
  | dmcCommandIssue => exact execDmcCommandIssue_keeps (hs := h) (e := e)
  | dmcReadReturn => exact execDmcReadReturn_keeps (hs := h) (e := e)
  | crcError => exact execCrcError_keeps (hs := h) (e := e)
  | refreshDue => exact execRefreshDue_keeps (hs := h) (e := e)
  | dmcTempSample => exact execDmcTempSample_keeps (hs := h) (e := e)
  | pdTimerExpiry => exact execPdTimerExpiry_keeps (hs := h) (e := e)
  | patrolScrubPass => exact execPatrolScrubPass_keeps (hs := h) (e := e)
  | retrainRoundDue => exact execRetrainRoundDue_keeps (hs := h) (e := e)
  | retrainStepStart => exact execRetrainStepStart_keeps (hs := h) (e := e)
  | retrainStepDone => exact execRetrainStepDone_keeps (hs := h) (e := e)
  | stackFreqChangeStart => exact execStackFreqChangeStart_keeps (hs := h) (e := e)
  | stackFreqChangeDone => exact execStackFreqChangeDone_keeps (hs := h) (e := e)
  | stackHotExit => exact execStackHotExit_keeps (hs := h) (e := e)
  | bootTrainingDone => exact execBootTrainingDone_keeps (hs := h) (e := e)
  | dmcSetup => exact execDmcSetup_keeps (hs := h) (e := e)
  | dmcPortSet => exact execDmcPortSet_keeps (hs := h) (e := e)
  | dmcMapSet => exact execDmcMapSet_keeps (hs := h) (e := e)
  | dmcFreqSet => exact execDmcFreqSet_keeps (hs := h) (e := e)
  | dmcRetrain => exact execDmcRetrain_keeps (hs := h) (e := e)
  | mintEvaluate => exact execMintEvaluate_keeps (hs := h) (e := e)
  | clockSwitch => exact execClockSwitch_keeps (hs := h) (e := e)
  | avsSetpointAck => exact execAvsSetpointAck_keeps (hs := h) (e := e)
  | avsAckTimeout => exact execAvsAckTimeout_keeps (hs := h) (e := e)
  | thermtripAssert => exact execThermtripAssert_keeps (hs := h) (e := e)
  | thermtripLatchClear => exact execThermtripLatchClear_keeps (hs := h) (e := e)
  | mintSetup => exact execMintSetup_keeps (hs := h) (e := e)
  | mintActSet => exact execMintActSet_keeps (hs := h) (e := e)
  | mintFloorSet => exact execMintFloorSet_keeps (hs := h) (e := e)
  | mintHold => exact execMintHold_keeps (hs := h) (e := e)
  | mintQuery => exact execMintQuery_keeps (hs := h) (e := e)
  | bwSubwindowEnd => exact execBwSubwindowEnd_keeps (hs := h) (e := e)
  | gaugeDumpDue => exact execGaugeDumpDue_keeps (hs := h) (e := e)
  | gaugeDumpDone => exact execGaugeDumpDone_keeps (hs := h) (e := e)
  | gaugePcSet => exact execGaugePcSet_keeps (hs := h) (e := e)
  | gaugeClear => exact execGaugeClear_keeps (hs := h) (e := e)
  | gaugeBwSet => exact execGaugeBwSet_keeps (hs := h) (e := e)
  | gaugeDumpSet => exact execGaugeDumpSet_keeps (hs := h) (e := e)
  | gaugeSampleRead => exact execGaugeSampleRead_keeps (hs := h) (e := e)
  | scribeEventArrival => exact execScribeEventArrival_keeps (hs := h) (e := e)
  | scribeRateSecond => exact execScribeRateSecond_keeps (hs := h) (e := e)
  | scribeMirrorRepost => exact execScribeMirrorRepost_keeps (hs := h) (e := e)
  | scribeRead => exact execScribeRead_keeps (hs := h) (e := e)
  | scribeClear => exact execScribeClear_keeps (hs := h) (e := e)
  | scribeRateSet => exact execScribeRateSet_keeps (hs := h) (e := e)
  | scribeMirrorSet => exact execScribeMirrorSet_keeps (hs := h) (e := e)
  | scribeSetup => exact execScribeSetup_keeps (hs := h) (e := e)
  | faultOccurrence => exact execFaultOccurrence_keeps (hs := h) (e := e)
  | faultCopyMiscompare => exact execFaultCopyMiscompare_keeps (hs := h) (e := e)
  | safeReached => exact execSafeReached_keeps (hs := h) (e := e)
  | faultFnMask => exact execFaultFnMask_keeps (hs := h) (e := e)
  | safeEnter => exact execSafeEnter_keeps (hs := h) (e := e)
  | secChallenge => exact execSecChallenge_keeps (hs := h) (e := e)
  | secResponse => exact execSecResponse_keeps (hs := h) (e := e)
  | jtagSecResponse => exact execJtagSecResponse_keeps (hs := h) (e := e)
  | nonceExpiry => exact execNonceExpiry_keeps (hs := h) (e := e)
  | secLock => exact execSecLock_keeps (hs := h) (e := e)
  | secFuseRevoke => exact execSecFuseRevoke_keeps (hs := h) (e := e)
  | secFuseFloor => exact execSecFuseFloor_keeps (hs := h) (e := e)
  | secQuery => exact execSecQuery_keeps (hs := h) (e := e)
  | porNAssert => exact execPorNAssert_keeps (hs := h) (e := e)
  | porNRelease => exact execPorNRelease_keeps (hs := h) (e := e)
  | warmRstNAssert => exact execWarmRstNAssert_keeps (hs := h) (e := e)
  | warmRstNRelease => exact execWarmRstNRelease_keeps (hs := h) (e := e)
  | perstNAssert => exact execPerstNAssert_keeps (hs := h) (e := e)
  | perstNRelease => exact execPerstNRelease_keeps (hs := h) (e := e)
  | flashCopyChecked => exact execFlashCopyChecked_keeps (hs := h) (e := e)
  | memInitDone => exact execMemInitDone_keeps (hs := h) (e := e)
  | serdesCalibDone => exact execSerdesCalibDone_keeps (hs := h) (e := e)
  | emClearDone => exact execEmClearDone_keeps (hs := h) (e := e)
  | smbRegAddr => exact execSmbRegAddr_keeps (hs := h) (e := e)
  | smbRegRead => exact execSmbRegRead_keeps (hs := h) (e := e)
  | smbDevVectors => exact execSmbDevVectors_keeps (hs := h) (e := e)
  | smbWarmReset => exact execSmbWarmReset_keeps (hs := h) (e := e)
  | lowPowerIdleReceived => exact execLowPowerIdleReceived_keeps (hs := h) (e := e)
  | candidateQualified => exact execCandidateQualified_keeps (hs := h) (e := e)
  | thymePllLock => exact execThymePllLock_keeps (hs := h) (e := e)
  | jtagDebugAccess => exact execJtagDebugAccess_keeps (hs := h) (e := e)

end Sys2Proof.Machine
end

