-- ==== Sys2Proof/Laws/Reset.lean ====
section
/-!
SUPPORT. What the registers of pairs and of the class maps read where none of them has been written: the sums of R274 and the
checks of R307 over all 2,256 pairs then need no evaluation.
-/
namespace Sys2Proof.Machine

/-- An unlisted key reads as the default. -/
theorem tabGet_unlisted {α : Type} (d : Nat → α) : ∀ (t : Tab α) (k : Nat), (∀ e ∈ t, e.1 ≠ k) → tabGet d t k = d k
  | [], _, _ => rfl
  | (k', v) :: t, k, h => by
    rw [tabGet, if_neg (h (k', v) (List.mem_cons_self ..))]
    exact tabGet_unlisted d t k (fun e he => h e (List.mem_cons_of_mem _ he))

/-- An unlisted register reads its reset word. -/
theorem reg_unlisted {s : State} {a : Nat} (h : ∀ e ∈ s.regs, e.1 ≠ a) : s.reg a = regReset a % 2 ^ 32 := by
  simp [State.reg, tabGet_unlisted regDefault s.regs a h, regDefault]

/-- Whether no register of the pairs, or of the class maps, is listed. -/
def State.pairsUnlisted (s : State) : Bool := s.regs.all (fun e => decide (e.1 < 0x410000 ∨ 0x418D00 ≤ e.1))
def State.mapsUnlisted (s : State) : Bool := s.regs.all (fun e => decide (e.1 < 0x501000 ∨ 0x5018D0 ≤ e.1))

/-- Outside its fault registers, the window of RIDGE resets as R304 gives it. -/
theorem regReset_ridge {o : Nat} (h : o < 0x100000) (hf : o < 0xF000 ∨ 0xF040 ≤ o) : regReset (0x400000 + o) = resetRidge o := by
  unfold regReset
  repeat rw [if_neg (by omega)]
  rw [if_pos (by omega)]
  dsimp only
  rw [if_neg (by omega), Nat.add_sub_cancel_left]

/-- Outside its fault registers, the window of ESCH resets as R334 gives it. -/
theorem regReset_esch {o : Nat} (h : o < 0x100000) (hf : o < 0xF000 ∨ 0xF040 ≤ o) : regReset (0x500000 + o) = resetEsch o := by
  unfold regReset
  repeat rw [if_neg (by omega)]
  rw [if_pos (by omega)]
  dsimp only
  rw [if_neg (by omega), Nat.add_sub_cancel_left]

theorem regReset_pair {n c : Nat} (hn : n < 141) (hc : c < 16) :
    regReset (0x410000 + 0x10 * (16 * n + c)) = if hdrm64 n then 64 else 0 := by
  rw [show 0x410000 + 0x10 * (16 * n + c) = 0x400000 + (0x10000 + 0x10 * (16 * n + c)) by omega,
    regReset_ridge (by omega) (by omega)]
  unfold resetRidge
  repeat rw [if_neg (by omega)]
  repeat rw [if_pos (by omega)]
  rw [show (0x10000 + 0x10 * (16 * n + c) - 0x10000) / 0x100 = n by omega]

/-- MIN_CELLS and HDRM_CELLS of an unwritten pair. -/
theorem pair_unlisted {s : State} (h : s.pairsUnlisted = true) {n c : Nat} (hn : n < 141) (hc : c < 16) :
    s.pairMin n c = 0 ∧ s.hdrmCells n c = if hdrm64 n then 64 else 0 := by
  have e : s.reg (0x400000 + 0x10 * (16 * n + c) + 0x10000) = if hdrm64 n then 64 else 0 := by
    rw [show 0x400000 + 0x10 * (16 * n + c) + 0x10000 = 0x410000 + 0x10 * (16 * n + c) by omega, reg_unlisted, regReset_pair hn hc]
    · split <;> rfl
    · intro x hx
      have := List.all_eq_true.1 h x hx
      simp only [decide_eq_true_eq] at this
      omega
  constructor
  · show bits (s.reg (0x400000 + 0x10 * (16 * n + c) + 0x10000)) 31 16 = 0
    rw [e]
    split <;> rfl
  · show (if s.lossless n c then bits (s.reg (0x400000 + 0x10 * (16 * n + c) + 0x10000)) 15 0 else 0) = _
    rw [e]
    by_cases hh : hdrm64 n = true
    · have : s.lossless n c = true := by
        simp only [hdrm64, decide_eq_true_eq] at hh
        unfold State.lossless
        rw [if_neg (by omega)]
        exact decide_eq_true (by omega)
      simp only [hh, this, if_true]
      rfl
    · rw [if_neg hh]
      exact ite_self _

/-- SHARED_CELLS where no pair has been written. -/
theorem sharedOf_unlisted {s : State} (h : s.pairsUnlisted = true) :
    s.sharedOf = 518144 - s.rd wRidge Reg.RIDGE_POOLS_MIRROR_CELLS - s.rd wRidge Reg.RIDGE_POOLS_DEEP_CELLS := by
  have hr : ∀ {l : List Nat} {a : Nat}, (∀ i ∈ l, i < 2256) →
      l.foldl (fun a i => a + s.pairMin (i / 16) (i % 16) + s.hdrmCells (i / 16) (i % 16)) a =
      l.foldl (fun a i => a + (if hdrm64 (i / 16) then 64 else 0)) a := by
    intro l
    induction l with
    | nil => intros; rfl
    | cons i l ih =>
      intro a hl
      have hi := hl i (List.mem_cons_self ..)
      obtain ⟨e1, e2⟩ := pair_unlisted h (show i / 16 < 141 by omega) (show i % 16 < 16 by omega)
      simp only [List.foldl_cons, e1, e2]
      rw [ih (fun k hk => hl k (List.mem_cons_of_mem _ hk))]
      congr 1
  have hm : ∀ {n a i : Nat}, i ∈ rangeFrom a n → i < a + n := by
    intro n
    induction n with
    | zero => intro a i hi; simp [rangeFrom] at hi
    | succ n ih =>
      intro a i hi
      simp only [rangeFrom, List.mem_cons] at hi
      rcases hi with rfl | hi
      · omega
      · have := ih hi; omega
  have hk : (rangeFrom 0 (16 * 141)).foldl (fun (a : Nat) i => a + (if hdrm64 (i / 16) then 64 else 0)) 0 = 5120 := by
    decide +kernel
  unfold State.sharedOf
  dsimp only
  rw [hr (fun i hi => by have := hm hi; omega), hk]
  omega

/-- A change of settings fits where no pair has been written and the pools leave cells over (R274). -/
theorem reshare_some {s : State} (h : (s.pairsUnlisted && decide (s.rd wRidge Reg.RIDGE_POOLS_MIRROR_CELLS +
    s.rd wRidge Reg.RIDGE_POOLS_DEEP_CELLS ≤ 518144)) = true) : s.reshare.isSome = true := by
  simp only [Bool.and_eq_true, decide_eq_true_eq] at h
  have := sharedOf_unlisted h.1
  unfold State.reshare
  rw [if_neg (by omega)]
  rfl

/-! ### Class maps (R306, R307) -/

theorem regReset_map {n k : Nat} (hn : n < 141) (hk : k < 3) :
    regReset (0x501000 + 0x10 * n + 4 * k) = if k = 0 then 16 * n else if k = 1 then 0x76543210 else 0xFEDCBA98 := by
  rw [show 0x501000 + 0x10 * n + 4 * k = 0x500000 + (0x1000 + 0x10 * n + 4 * k) by omega, regReset_esch (by omega) (by omega)]
  unfold resetEsch
  repeat' split
  all_goals omega

/-- The queue of a class where no class map has been written. -/
theorem mapQ_unlisted {s : State} (h : s.mapsUnlisted = true) {n c : Nat} (hn : n < 141) (hc : c < 16) :
    s.mapQ n c = 16 * n + c := by
  have e : ∀ k < 3, s.reg (0x501000 + 0x10 * n + 4 * k) =
      if k = 0 then 16 * n else if k = 1 then 0x76543210 else 0xFEDCBA98 := by
    intro k hk
    rw [reg_unlisted, regReset_map hn hk]
    · split
      · omega
      · split <;> rfl
    · intro x hx
      have := List.all_eq_true.1 h x hx
      simp only [decide_eq_true_eq] at this
      omega
  have ha : ∀ k, wEsch + 16 * n + (0x1000 + 4 * k) = 0x501000 + 0x10 * n + 4 * k := by
    intro k; simp only [wEsch]; omega
  have e0 : s.rd (wEsch + 16 * n) Reg.ESCH_PORT_MAP_QBASE = 16 * n := by
    show bits (s.reg (wEsch + 16 * n + (0x1000 + 4 * 0))) 15 0 = _
    rw [ha, e 0 (by omega), if_pos rfl]
    simp only [bits, Nat.shiftRight_zero]
    exact Nat.mod_eq_of_lt (by omega)
  have e1 : s.rd (wEsch + 16 * n) (Reg.ESCH_TC_OFF c) = c := by
    have : s.rd (wEsch + 16 * n) (Reg.ESCH_TC_OFF c) =
        bits (s.reg (wEsch + 16 * n + (0x1000 + 4 * (1 + c / 8)))) (4 * (c % 8) + 3) (4 * (c % 8)) := by
      unfold State.rd
      rw [if_pos (show (Reg.ESCH_TC_OFF c).hi < 32 by simp only [Reg.ESCH_TC_OFF]; omega)]
      simp only [Reg.ESCH_TC_OFF]
      rw [show 0x1004 + 4 * (c / 8) = 0x1000 + 4 * (1 + c / 8) by omega]
    rw [this, ha, e _ (by omega)]
    have : ∀ c < 16, bits (if 1 + c / 8 = 0 then 16 * n else if 1 + c / 8 = 1 then 0x76543210 else 0xFEDCBA98)
        (4 * (c % 8) + 3) (4 * (c % 8)) = c := by
      intro c hc
      rw [if_neg (by omega)]
      revert c
      decide
    exact this c hc
  unfold State.mapQ
  rw [e0, e1]

/-- The default tree carries queue 16n + c on port n (R308). -/
theorem qPort_unlisted {s : State} (h : s.esch.nodes = []) {n c : Nat} (hn : n < 141) (hc : c < 16) :
    s.qPort (16 * n + c) = n := by
  have e2 : (s.node 2 (16 * n + c)).parent = n := by
    simp only [State.node, h, tabGet_nil, nodeReset, nodeKey]
    rw [if_neg (by omega), if_neg (by omega), if_pos (by omega), if_pos (by omega)]
    dsimp only
    omega
  have e1 : (s.node 1 n).parent = n := by
    simp only [State.node, h, tabGet_nil, nodeReset, nodeKey]
    rw [if_neg (by omega), if_pos (by omega), if_pos (by omega)]
    dsimp only
    omega
  have e0 : (s.node 0 n).parent = n := by
    simp only [State.node, h, tabGet_nil, nodeReset, nodeKey]
    rw [if_pos (by omega), if_pos (by omega)]
    dsimp only
    omega
  simp only [State.qPort, State.qGroup, State.qSub, e2, e1, e0]

/-- No queue is broken in the default tree (R307). -/
theorem brokenQueues_unlisted {s : State} (h : s.mapsUnlisted = true) (hn : s.esch.nodes = []) : s.brokenQueues = [] := by
  have hm : ∀ {n a i : Nat}, i ∈ rangeFrom a n → i < a + n := by
    intro n
    induction n with
    | zero => intro a i hi; simp [rangeFrom] at hi
    | succ n ih =>
      intro a i hi
      simp only [rangeFrom, List.mem_cons] at hi
      rcases hi with rfl | hi
      · omega
      · have := ih hi; omega
  unfold State.brokenQueues
  dsimp only
  rw [hn]
  simp only [List.filterMap_nil, List.append_nil, List.filterMap_eq_nil_iff]
  intro i hi
  have := hm hi
  have e := mapQ_unlisted h (show i / 16 < 141 by omega) (show i % 16 < 16 by omega)
  rw [if_neg]
  rw [e]
  rintro (g | g)
  · omega
  · exact g (qPort_unlisted hn (by omega) (by omega))

end Sys2Proof.Machine
end

