-- ==== Sys2Proof/Laws/State.lean ====
section
/-!
SUPPORT. What each update of State leaves as it was, field by field, and what a register reads after a write of one.
-/
namespace Sys2Proof.Machine

variable (s : State)

/-! ### setReg -/

@[simp] theorem State.setReg_pending (a v : Nat) : (s.setReg a v).pending = s.pending := rfl
@[simp] theorem State.setReg_host (a v : Nat) : (s.setReg a v).host = s.host := rfl
@[simp] theorem State.setReg_scribe (a v : Nat) : (s.setReg a v).scribe = s.scribe := rfl
@[simp] theorem State.setReg_gauge (a v : Nat) : (s.setReg a v).gauge = s.gauge := rfl
@[simp] theorem State.setReg_clock (a v : Nat) : (s.setReg a v).clock = s.clock := rfl
@[simp] theorem State.setReg_dev (a v : Nat) : (s.setReg a v).dev = s.dev := rfl
@[simp] theorem State.setReg_mint (a v : Nat) : (s.setReg a v).mint = s.mint := rfl
@[simp] theorem State.setReg_peg (a v : Nat) : (s.setReg a v).peg = s.peg := rfl
@[simp] theorem State.setReg_chans (a v : Nat) : (s.setReg a v).chans = s.chans := rfl
@[simp] theorem State.setReg_dmc (a v : Nat) : (s.setReg a v).dmc = s.dmc := rfl
@[simp] theorem State.setReg_thyme (a v : Nat) : (s.setReg a v).thyme = s.thyme := rfl
@[simp] theorem State.setReg_ridge (a v : Nat) : (s.setReg a v).ridge = s.ridge := rfl
@[simp] theorem State.setReg_ports (a v : Nat) : (s.setReg a v).ports = s.ports := rfl
@[simp] theorem State.setReg_esch (a v : Nat) : (s.setReg a v).esch = s.esch := rfl
@[simp] theorem State.setReg_meters (a v : Nat) : (s.setReg a v).meters = s.meters := rfl
@[simp] theorem State.setReg_joist (a v : Nat) : (s.setReg a v).joist = s.joist := rfl
@[simp] theorem State.setReg_pipes (a v : Nat) : (s.setReg a v).pipes = s.pipes := rfl
@[simp] theorem State.setReg_tenon (a v : Nat) : (s.setReg a v).tenon = s.tenon := rfl
@[simp] theorem State.setReg_em (a v : Nat) : (s.setReg a v).em = s.em := rfl
@[simp] theorem State.setReg_upd (a v : Nat) : (s.setReg a v).upd = s.upd := rfl
@[simp] theorem State.setReg_hostMem (a v : Nat) : (s.setReg a v).hostMem = s.hostMem := rfl
@[simp] theorem State.setReg_dram (a v : Nat) : (s.setReg a v).dram = s.dram := rfl
@[simp] theorem State.setReg_out (a v : Nat) : (s.setReg a v).out = s.out := rfl
@[simp] theorem State.setReg_freeCtr (a v : Nat) : (s.setReg a v).freeCtr = s.freeCtr := rfl
@[simp] theorem State.setReg_wipes (a v : Nat) : (s.setReg a v).wipes = s.wipes := rfl

/-! ### hostWr -/

@[simp] theorem State.hostWr_pending (j a : Nat) (bs : List Byte) : (s.hostWr j a bs).pending = s.pending := rfl
@[simp] theorem State.hostWr_regs (j a : Nat) (bs : List Byte) : (s.hostWr j a bs).regs = s.regs := rfl
@[simp] theorem State.hostWr_host (j a : Nat) (bs : List Byte) : (s.hostWr j a bs).host = s.host := rfl
@[simp] theorem State.hostWr_scribe (j a : Nat) (bs : List Byte) : (s.hostWr j a bs).scribe = s.scribe := rfl
@[simp] theorem State.hostWr_gauge (j a : Nat) (bs : List Byte) : (s.hostWr j a bs).gauge = s.gauge := rfl
@[simp] theorem State.hostWr_clock (j a : Nat) (bs : List Byte) : (s.hostWr j a bs).clock = s.clock := rfl
@[simp] theorem State.hostWr_dev (j a : Nat) (bs : List Byte) : (s.hostWr j a bs).dev = s.dev := rfl
@[simp] theorem State.hostWr_mint (j a : Nat) (bs : List Byte) : (s.hostWr j a bs).mint = s.mint := rfl
@[simp] theorem State.hostWr_peg (j a : Nat) (bs : List Byte) : (s.hostWr j a bs).peg = s.peg := rfl
@[simp] theorem State.hostWr_chans (j a : Nat) (bs : List Byte) : (s.hostWr j a bs).chans = s.chans := rfl
@[simp] theorem State.hostWr_dmc (j a : Nat) (bs : List Byte) : (s.hostWr j a bs).dmc = s.dmc := rfl
@[simp] theorem State.hostWr_thyme (j a : Nat) (bs : List Byte) : (s.hostWr j a bs).thyme = s.thyme := rfl
@[simp] theorem State.hostWr_ridge (j a : Nat) (bs : List Byte) : (s.hostWr j a bs).ridge = s.ridge := rfl
@[simp] theorem State.hostWr_ports (j a : Nat) (bs : List Byte) : (s.hostWr j a bs).ports = s.ports := rfl
@[simp] theorem State.hostWr_esch (j a : Nat) (bs : List Byte) : (s.hostWr j a bs).esch = s.esch := rfl
@[simp] theorem State.hostWr_meters (j a : Nat) (bs : List Byte) : (s.hostWr j a bs).meters = s.meters := rfl
@[simp] theorem State.hostWr_joist (j a : Nat) (bs : List Byte) : (s.hostWr j a bs).joist = s.joist := rfl
@[simp] theorem State.hostWr_pipes (j a : Nat) (bs : List Byte) : (s.hostWr j a bs).pipes = s.pipes := rfl
@[simp] theorem State.hostWr_tenon (j a : Nat) (bs : List Byte) : (s.hostWr j a bs).tenon = s.tenon := rfl
@[simp] theorem State.hostWr_em (j a : Nat) (bs : List Byte) : (s.hostWr j a bs).em = s.em := rfl
@[simp] theorem State.hostWr_upd (j a : Nat) (bs : List Byte) : (s.hostWr j a bs).upd = s.upd := rfl
@[simp] theorem State.hostWr_dram (j a : Nat) (bs : List Byte) : (s.hostWr j a bs).dram = s.dram := rfl
@[simp] theorem State.hostWr_out (j a : Nat) (bs : List Byte) : (s.hostWr j a bs).out = s.out := rfl
@[simp] theorem State.hostWr_freeCtr (j a : Nat) (bs : List Byte) : (s.hostWr j a bs).freeCtr = s.freeCtr := rfl
@[simp] theorem State.hostWr_wipes (j a : Nat) (bs : List Byte) : (s.hostWr j a bs).wipes = s.wipes := rfl

/-! ### dramWr -/

@[simp] theorem State.dramWr_pending (a : Nat) (bs : List Byte) : (s.dramWr a bs).pending = s.pending := rfl
@[simp] theorem State.dramWr_regs (a : Nat) (bs : List Byte) : (s.dramWr a bs).regs = s.regs := rfl
@[simp] theorem State.dramWr_host (a : Nat) (bs : List Byte) : (s.dramWr a bs).host = s.host := rfl
@[simp] theorem State.dramWr_scribe (a : Nat) (bs : List Byte) : (s.dramWr a bs).scribe = s.scribe := rfl
@[simp] theorem State.dramWr_gauge (a : Nat) (bs : List Byte) : (s.dramWr a bs).gauge = s.gauge := rfl
@[simp] theorem State.dramWr_clock (a : Nat) (bs : List Byte) : (s.dramWr a bs).clock = s.clock := rfl
@[simp] theorem State.dramWr_dev (a : Nat) (bs : List Byte) : (s.dramWr a bs).dev = s.dev := rfl
@[simp] theorem State.dramWr_mint (a : Nat) (bs : List Byte) : (s.dramWr a bs).mint = s.mint := rfl
@[simp] theorem State.dramWr_peg (a : Nat) (bs : List Byte) : (s.dramWr a bs).peg = s.peg := rfl
@[simp] theorem State.dramWr_chans (a : Nat) (bs : List Byte) : (s.dramWr a bs).chans = s.chans := rfl
@[simp] theorem State.dramWr_dmc (a : Nat) (bs : List Byte) : (s.dramWr a bs).dmc = s.dmc := rfl
@[simp] theorem State.dramWr_thyme (a : Nat) (bs : List Byte) : (s.dramWr a bs).thyme = s.thyme := rfl
@[simp] theorem State.dramWr_ridge (a : Nat) (bs : List Byte) : (s.dramWr a bs).ridge = s.ridge := rfl
@[simp] theorem State.dramWr_ports (a : Nat) (bs : List Byte) : (s.dramWr a bs).ports = s.ports := rfl
@[simp] theorem State.dramWr_esch (a : Nat) (bs : List Byte) : (s.dramWr a bs).esch = s.esch := rfl
@[simp] theorem State.dramWr_meters (a : Nat) (bs : List Byte) : (s.dramWr a bs).meters = s.meters := rfl
@[simp] theorem State.dramWr_joist (a : Nat) (bs : List Byte) : (s.dramWr a bs).joist = s.joist := rfl
@[simp] theorem State.dramWr_pipes (a : Nat) (bs : List Byte) : (s.dramWr a bs).pipes = s.pipes := rfl
@[simp] theorem State.dramWr_tenon (a : Nat) (bs : List Byte) : (s.dramWr a bs).tenon = s.tenon := rfl
@[simp] theorem State.dramWr_em (a : Nat) (bs : List Byte) : (s.dramWr a bs).em = s.em := rfl
@[simp] theorem State.dramWr_upd (a : Nat) (bs : List Byte) : (s.dramWr a bs).upd = s.upd := rfl
@[simp] theorem State.dramWr_hostMem (a : Nat) (bs : List Byte) : (s.dramWr a bs).hostMem = s.hostMem := rfl
@[simp] theorem State.dramWr_out (a : Nat) (bs : List Byte) : (s.dramWr a bs).out = s.out := rfl
@[simp] theorem State.dramWr_freeCtr (a : Nat) (bs : List Byte) : (s.dramWr a bs).freeCtr = s.freeCtr := rfl
@[simp] theorem State.dramWr_wipes (a : Nat) (bs : List Byte) : (s.dramWr a bs).wipes = s.wipes := rfl

/-! ### emit -/

@[simp] theorem State.emit_pending (o : Output) : (s.emit o).pending = s.pending := rfl
@[simp] theorem State.emit_regs (o : Output) : (s.emit o).regs = s.regs := rfl
@[simp] theorem State.emit_host (o : Output) : (s.emit o).host = s.host := rfl
@[simp] theorem State.emit_scribe (o : Output) : (s.emit o).scribe = s.scribe := rfl
@[simp] theorem State.emit_gauge (o : Output) : (s.emit o).gauge = s.gauge := rfl
@[simp] theorem State.emit_clock (o : Output) : (s.emit o).clock = s.clock := rfl
@[simp] theorem State.emit_dev (o : Output) : (s.emit o).dev = s.dev := rfl
@[simp] theorem State.emit_mint (o : Output) : (s.emit o).mint = s.mint := rfl
@[simp] theorem State.emit_peg (o : Output) : (s.emit o).peg = s.peg := rfl
@[simp] theorem State.emit_chans (o : Output) : (s.emit o).chans = s.chans := rfl
@[simp] theorem State.emit_dmc (o : Output) : (s.emit o).dmc = s.dmc := rfl
@[simp] theorem State.emit_thyme (o : Output) : (s.emit o).thyme = s.thyme := rfl
@[simp] theorem State.emit_ridge (o : Output) : (s.emit o).ridge = s.ridge := rfl
@[simp] theorem State.emit_ports (o : Output) : (s.emit o).ports = s.ports := rfl
@[simp] theorem State.emit_esch (o : Output) : (s.emit o).esch = s.esch := rfl
@[simp] theorem State.emit_meters (o : Output) : (s.emit o).meters = s.meters := rfl
@[simp] theorem State.emit_joist (o : Output) : (s.emit o).joist = s.joist := rfl
@[simp] theorem State.emit_pipes (o : Output) : (s.emit o).pipes = s.pipes := rfl
@[simp] theorem State.emit_tenon (o : Output) : (s.emit o).tenon = s.tenon := rfl
@[simp] theorem State.emit_em (o : Output) : (s.emit o).em = s.em := rfl
@[simp] theorem State.emit_upd (o : Output) : (s.emit o).upd = s.upd := rfl
@[simp] theorem State.emit_hostMem (o : Output) : (s.emit o).hostMem = s.hostMem := rfl
@[simp] theorem State.emit_dram (o : Output) : (s.emit o).dram = s.dram := rfl
@[simp] theorem State.emit_freeCtr (o : Output) : (s.emit o).freeCtr = s.freeCtr := rfl
@[simp] theorem State.emit_wipes (o : Output) : (s.emit o).wipes = s.wipes := rfl

/-! ### setQueue -/

@[simp] theorem State.setQueue_pending (q : Nat) (x : Queue) : (s.setQueue q x).pending = s.pending := rfl
@[simp] theorem State.setQueue_regs (q : Nat) (x : Queue) : (s.setQueue q x).regs = s.regs := rfl
@[simp] theorem State.setQueue_scribe (q : Nat) (x : Queue) : (s.setQueue q x).scribe = s.scribe := rfl
@[simp] theorem State.setQueue_gauge (q : Nat) (x : Queue) : (s.setQueue q x).gauge = s.gauge := rfl
@[simp] theorem State.setQueue_clock (q : Nat) (x : Queue) : (s.setQueue q x).clock = s.clock := rfl
@[simp] theorem State.setQueue_dev (q : Nat) (x : Queue) : (s.setQueue q x).dev = s.dev := rfl
@[simp] theorem State.setQueue_mint (q : Nat) (x : Queue) : (s.setQueue q x).mint = s.mint := rfl
@[simp] theorem State.setQueue_peg (q : Nat) (x : Queue) : (s.setQueue q x).peg = s.peg := rfl
@[simp] theorem State.setQueue_chans (q : Nat) (x : Queue) : (s.setQueue q x).chans = s.chans := rfl
@[simp] theorem State.setQueue_dmc (q : Nat) (x : Queue) : (s.setQueue q x).dmc = s.dmc := rfl
@[simp] theorem State.setQueue_thyme (q : Nat) (x : Queue) : (s.setQueue q x).thyme = s.thyme := rfl
@[simp] theorem State.setQueue_ridge (q : Nat) (x : Queue) : (s.setQueue q x).ridge = s.ridge := rfl
@[simp] theorem State.setQueue_ports (q : Nat) (x : Queue) : (s.setQueue q x).ports = s.ports := rfl
@[simp] theorem State.setQueue_esch (q : Nat) (x : Queue) : (s.setQueue q x).esch = s.esch := rfl
@[simp] theorem State.setQueue_meters (q : Nat) (x : Queue) : (s.setQueue q x).meters = s.meters := rfl
@[simp] theorem State.setQueue_joist (q : Nat) (x : Queue) : (s.setQueue q x).joist = s.joist := rfl
@[simp] theorem State.setQueue_pipes (q : Nat) (x : Queue) : (s.setQueue q x).pipes = s.pipes := rfl
@[simp] theorem State.setQueue_tenon (q : Nat) (x : Queue) : (s.setQueue q x).tenon = s.tenon := rfl
@[simp] theorem State.setQueue_em (q : Nat) (x : Queue) : (s.setQueue q x).em = s.em := rfl
@[simp] theorem State.setQueue_upd (q : Nat) (x : Queue) : (s.setQueue q x).upd = s.upd := rfl
@[simp] theorem State.setQueue_hostMem (q : Nat) (x : Queue) : (s.setQueue q x).hostMem = s.hostMem := rfl
@[simp] theorem State.setQueue_dram (q : Nat) (x : Queue) : (s.setQueue q x).dram = s.dram := rfl
@[simp] theorem State.setQueue_out (q : Nat) (x : Queue) : (s.setQueue q x).out = s.out := rfl
@[simp] theorem State.setQueue_freeCtr (q : Nat) (x : Queue) : (s.setQueue q x).freeCtr = s.freeCtr := rfl
@[simp] theorem State.setQueue_wipes (q : Nat) (x : Queue) : (s.setQueue q x).wipes = s.wipes := rfl

/-! ### setFn -/

@[simp] theorem State.setFn_pending (f : Nat) (x : FnSt) : (s.setFn f x).pending = s.pending := rfl
@[simp] theorem State.setFn_regs (f : Nat) (x : FnSt) : (s.setFn f x).regs = s.regs := rfl
@[simp] theorem State.setFn_scribe (f : Nat) (x : FnSt) : (s.setFn f x).scribe = s.scribe := rfl
@[simp] theorem State.setFn_gauge (f : Nat) (x : FnSt) : (s.setFn f x).gauge = s.gauge := rfl
@[simp] theorem State.setFn_clock (f : Nat) (x : FnSt) : (s.setFn f x).clock = s.clock := rfl
@[simp] theorem State.setFn_dev (f : Nat) (x : FnSt) : (s.setFn f x).dev = s.dev := rfl
@[simp] theorem State.setFn_mint (f : Nat) (x : FnSt) : (s.setFn f x).mint = s.mint := rfl
@[simp] theorem State.setFn_peg (f : Nat) (x : FnSt) : (s.setFn f x).peg = s.peg := rfl
@[simp] theorem State.setFn_chans (f : Nat) (x : FnSt) : (s.setFn f x).chans = s.chans := rfl
@[simp] theorem State.setFn_dmc (f : Nat) (x : FnSt) : (s.setFn f x).dmc = s.dmc := rfl
@[simp] theorem State.setFn_thyme (f : Nat) (x : FnSt) : (s.setFn f x).thyme = s.thyme := rfl
@[simp] theorem State.setFn_ridge (f : Nat) (x : FnSt) : (s.setFn f x).ridge = s.ridge := rfl
@[simp] theorem State.setFn_ports (f : Nat) (x : FnSt) : (s.setFn f x).ports = s.ports := rfl
@[simp] theorem State.setFn_esch (f : Nat) (x : FnSt) : (s.setFn f x).esch = s.esch := rfl
@[simp] theorem State.setFn_meters (f : Nat) (x : FnSt) : (s.setFn f x).meters = s.meters := rfl
@[simp] theorem State.setFn_joist (f : Nat) (x : FnSt) : (s.setFn f x).joist = s.joist := rfl
@[simp] theorem State.setFn_pipes (f : Nat) (x : FnSt) : (s.setFn f x).pipes = s.pipes := rfl
@[simp] theorem State.setFn_tenon (f : Nat) (x : FnSt) : (s.setFn f x).tenon = s.tenon := rfl
@[simp] theorem State.setFn_em (f : Nat) (x : FnSt) : (s.setFn f x).em = s.em := rfl
@[simp] theorem State.setFn_upd (f : Nat) (x : FnSt) : (s.setFn f x).upd = s.upd := rfl
@[simp] theorem State.setFn_hostMem (f : Nat) (x : FnSt) : (s.setFn f x).hostMem = s.hostMem := rfl
@[simp] theorem State.setFn_dram (f : Nat) (x : FnSt) : (s.setFn f x).dram = s.dram := rfl
@[simp] theorem State.setFn_out (f : Nat) (x : FnSt) : (s.setFn f x).out = s.out := rfl
@[simp] theorem State.setFn_freeCtr (f : Nat) (x : FnSt) : (s.setFn f x).freeCtr = s.freeCtr := rfl
@[simp] theorem State.setFn_wipes (f : Nat) (x : FnSt) : (s.setFn f x).wipes = s.wipes := rfl

/-! ### startJob -/

@[simp] theorem State.startJob_pending (j : Job) : (s.startJob j).pending = s.pending := rfl
@[simp] theorem State.startJob_regs (j : Job) : (s.startJob j).regs = s.regs := rfl
@[simp] theorem State.startJob_scribe (j : Job) : (s.startJob j).scribe = s.scribe := rfl
@[simp] theorem State.startJob_gauge (j : Job) : (s.startJob j).gauge = s.gauge := rfl
@[simp] theorem State.startJob_clock (j : Job) : (s.startJob j).clock = s.clock := rfl
@[simp] theorem State.startJob_dev (j : Job) : (s.startJob j).dev = s.dev := rfl
@[simp] theorem State.startJob_mint (j : Job) : (s.startJob j).mint = s.mint := rfl
@[simp] theorem State.startJob_peg (j : Job) : (s.startJob j).peg = s.peg := rfl
@[simp] theorem State.startJob_chans (j : Job) : (s.startJob j).chans = s.chans := rfl
@[simp] theorem State.startJob_dmc (j : Job) : (s.startJob j).dmc = s.dmc := rfl
@[simp] theorem State.startJob_thyme (j : Job) : (s.startJob j).thyme = s.thyme := rfl
@[simp] theorem State.startJob_ridge (j : Job) : (s.startJob j).ridge = s.ridge := rfl
@[simp] theorem State.startJob_ports (j : Job) : (s.startJob j).ports = s.ports := rfl
@[simp] theorem State.startJob_esch (j : Job) : (s.startJob j).esch = s.esch := rfl
@[simp] theorem State.startJob_meters (j : Job) : (s.startJob j).meters = s.meters := rfl
@[simp] theorem State.startJob_joist (j : Job) : (s.startJob j).joist = s.joist := rfl
@[simp] theorem State.startJob_pipes (j : Job) : (s.startJob j).pipes = s.pipes := rfl
@[simp] theorem State.startJob_tenon (j : Job) : (s.startJob j).tenon = s.tenon := rfl
@[simp] theorem State.startJob_em (j : Job) : (s.startJob j).em = s.em := rfl
@[simp] theorem State.startJob_upd (j : Job) : (s.startJob j).upd = s.upd := rfl
@[simp] theorem State.startJob_hostMem (j : Job) : (s.startJob j).hostMem = s.hostMem := rfl
@[simp] theorem State.startJob_dram (j : Job) : (s.startJob j).dram = s.dram := rfl
@[simp] theorem State.startJob_out (j : Job) : (s.startJob j).out = s.out := rfl
@[simp] theorem State.startJob_freeCtr (j : Job) : (s.startJob j).freeCtr = s.freeCtr := rfl
@[simp] theorem State.startJob_wipes (j : Job) : (s.startJob j).wipes = s.wipes := rfl

/-! ### setPort -/

@[simp] theorem State.setPort_pending (n : Nat) (x : PortSt) : (s.setPort n x).pending = s.pending := rfl
@[simp] theorem State.setPort_regs (n : Nat) (x : PortSt) : (s.setPort n x).regs = s.regs := rfl
@[simp] theorem State.setPort_host (n : Nat) (x : PortSt) : (s.setPort n x).host = s.host := rfl
@[simp] theorem State.setPort_scribe (n : Nat) (x : PortSt) : (s.setPort n x).scribe = s.scribe := rfl
@[simp] theorem State.setPort_gauge (n : Nat) (x : PortSt) : (s.setPort n x).gauge = s.gauge := rfl
@[simp] theorem State.setPort_clock (n : Nat) (x : PortSt) : (s.setPort n x).clock = s.clock := rfl
@[simp] theorem State.setPort_dev (n : Nat) (x : PortSt) : (s.setPort n x).dev = s.dev := rfl
@[simp] theorem State.setPort_mint (n : Nat) (x : PortSt) : (s.setPort n x).mint = s.mint := rfl
@[simp] theorem State.setPort_peg (n : Nat) (x : PortSt) : (s.setPort n x).peg = s.peg := rfl
@[simp] theorem State.setPort_chans (n : Nat) (x : PortSt) : (s.setPort n x).chans = s.chans := rfl
@[simp] theorem State.setPort_dmc (n : Nat) (x : PortSt) : (s.setPort n x).dmc = s.dmc := rfl
@[simp] theorem State.setPort_thyme (n : Nat) (x : PortSt) : (s.setPort n x).thyme = s.thyme := rfl
@[simp] theorem State.setPort_ridge (n : Nat) (x : PortSt) : (s.setPort n x).ridge = s.ridge := rfl
@[simp] theorem State.setPort_esch (n : Nat) (x : PortSt) : (s.setPort n x).esch = s.esch := rfl
@[simp] theorem State.setPort_meters (n : Nat) (x : PortSt) : (s.setPort n x).meters = s.meters := rfl
@[simp] theorem State.setPort_joist (n : Nat) (x : PortSt) : (s.setPort n x).joist = s.joist := rfl
@[simp] theorem State.setPort_pipes (n : Nat) (x : PortSt) : (s.setPort n x).pipes = s.pipes := rfl
@[simp] theorem State.setPort_tenon (n : Nat) (x : PortSt) : (s.setPort n x).tenon = s.tenon := rfl
@[simp] theorem State.setPort_em (n : Nat) (x : PortSt) : (s.setPort n x).em = s.em := rfl
@[simp] theorem State.setPort_upd (n : Nat) (x : PortSt) : (s.setPort n x).upd = s.upd := rfl
@[simp] theorem State.setPort_hostMem (n : Nat) (x : PortSt) : (s.setPort n x).hostMem = s.hostMem := rfl
@[simp] theorem State.setPort_dram (n : Nat) (x : PortSt) : (s.setPort n x).dram = s.dram := rfl
@[simp] theorem State.setPort_out (n : Nat) (x : PortSt) : (s.setPort n x).out = s.out := rfl
@[simp] theorem State.setPort_freeCtr (n : Nat) (x : PortSt) : (s.setPort n x).freeCtr = s.freeCtr := rfl
@[simp] theorem State.setPort_wipes (n : Nat) (x : PortSt) : (s.setPort n x).wipes = s.wipes := rfl

/-! ### setFrame -/

@[simp] theorem State.setFrame_pending (i : Nat) (x : Frame) : (s.setFrame i x).pending = s.pending := rfl
@[simp] theorem State.setFrame_regs (i : Nat) (x : Frame) : (s.setFrame i x).regs = s.regs := rfl
@[simp] theorem State.setFrame_host (i : Nat) (x : Frame) : (s.setFrame i x).host = s.host := rfl
@[simp] theorem State.setFrame_scribe (i : Nat) (x : Frame) : (s.setFrame i x).scribe = s.scribe := rfl
@[simp] theorem State.setFrame_gauge (i : Nat) (x : Frame) : (s.setFrame i x).gauge = s.gauge := rfl
@[simp] theorem State.setFrame_clock (i : Nat) (x : Frame) : (s.setFrame i x).clock = s.clock := rfl
@[simp] theorem State.setFrame_dev (i : Nat) (x : Frame) : (s.setFrame i x).dev = s.dev := rfl
@[simp] theorem State.setFrame_mint (i : Nat) (x : Frame) : (s.setFrame i x).mint = s.mint := rfl
@[simp] theorem State.setFrame_peg (i : Nat) (x : Frame) : (s.setFrame i x).peg = s.peg := rfl
@[simp] theorem State.setFrame_chans (i : Nat) (x : Frame) : (s.setFrame i x).chans = s.chans := rfl
@[simp] theorem State.setFrame_dmc (i : Nat) (x : Frame) : (s.setFrame i x).dmc = s.dmc := rfl
@[simp] theorem State.setFrame_thyme (i : Nat) (x : Frame) : (s.setFrame i x).thyme = s.thyme := rfl
@[simp] theorem State.setFrame_ports (i : Nat) (x : Frame) : (s.setFrame i x).ports = s.ports := rfl
@[simp] theorem State.setFrame_esch (i : Nat) (x : Frame) : (s.setFrame i x).esch = s.esch := rfl
@[simp] theorem State.setFrame_meters (i : Nat) (x : Frame) : (s.setFrame i x).meters = s.meters := rfl
@[simp] theorem State.setFrame_joist (i : Nat) (x : Frame) : (s.setFrame i x).joist = s.joist := rfl
@[simp] theorem State.setFrame_pipes (i : Nat) (x : Frame) : (s.setFrame i x).pipes = s.pipes := rfl
@[simp] theorem State.setFrame_tenon (i : Nat) (x : Frame) : (s.setFrame i x).tenon = s.tenon := rfl
@[simp] theorem State.setFrame_em (i : Nat) (x : Frame) : (s.setFrame i x).em = s.em := rfl
@[simp] theorem State.setFrame_upd (i : Nat) (x : Frame) : (s.setFrame i x).upd = s.upd := rfl
@[simp] theorem State.setFrame_hostMem (i : Nat) (x : Frame) : (s.setFrame i x).hostMem = s.hostMem := rfl
@[simp] theorem State.setFrame_dram (i : Nat) (x : Frame) : (s.setFrame i x).dram = s.dram := rfl
@[simp] theorem State.setFrame_out (i : Nat) (x : Frame) : (s.setFrame i x).out = s.out := rfl
@[simp] theorem State.setFrame_freeCtr (i : Nat) (x : Frame) : (s.setFrame i x).freeCtr = s.freeCtr := rfl
@[simp] theorem State.setFrame_wipes (i : Nat) (x : Frame) : (s.setFrame i x).wipes = s.wipes := rfl

/-! ### setPipe -/

@[simp] theorem State.setPipe_pending (p : Nat) (x : Pipe) : (s.setPipe p x).pending = s.pending := rfl
@[simp] theorem State.setPipe_regs (p : Nat) (x : Pipe) : (s.setPipe p x).regs = s.regs := rfl
@[simp] theorem State.setPipe_host (p : Nat) (x : Pipe) : (s.setPipe p x).host = s.host := rfl
@[simp] theorem State.setPipe_scribe (p : Nat) (x : Pipe) : (s.setPipe p x).scribe = s.scribe := rfl
@[simp] theorem State.setPipe_gauge (p : Nat) (x : Pipe) : (s.setPipe p x).gauge = s.gauge := rfl
@[simp] theorem State.setPipe_clock (p : Nat) (x : Pipe) : (s.setPipe p x).clock = s.clock := rfl
@[simp] theorem State.setPipe_dev (p : Nat) (x : Pipe) : (s.setPipe p x).dev = s.dev := rfl
@[simp] theorem State.setPipe_mint (p : Nat) (x : Pipe) : (s.setPipe p x).mint = s.mint := rfl
@[simp] theorem State.setPipe_peg (p : Nat) (x : Pipe) : (s.setPipe p x).peg = s.peg := rfl
@[simp] theorem State.setPipe_chans (p : Nat) (x : Pipe) : (s.setPipe p x).chans = s.chans := rfl
@[simp] theorem State.setPipe_dmc (p : Nat) (x : Pipe) : (s.setPipe p x).dmc = s.dmc := rfl
@[simp] theorem State.setPipe_thyme (p : Nat) (x : Pipe) : (s.setPipe p x).thyme = s.thyme := rfl
@[simp] theorem State.setPipe_ridge (p : Nat) (x : Pipe) : (s.setPipe p x).ridge = s.ridge := rfl
@[simp] theorem State.setPipe_ports (p : Nat) (x : Pipe) : (s.setPipe p x).ports = s.ports := rfl
@[simp] theorem State.setPipe_esch (p : Nat) (x : Pipe) : (s.setPipe p x).esch = s.esch := rfl
@[simp] theorem State.setPipe_meters (p : Nat) (x : Pipe) : (s.setPipe p x).meters = s.meters := rfl
@[simp] theorem State.setPipe_joist (p : Nat) (x : Pipe) : (s.setPipe p x).joist = s.joist := rfl
@[simp] theorem State.setPipe_tenon (p : Nat) (x : Pipe) : (s.setPipe p x).tenon = s.tenon := rfl
@[simp] theorem State.setPipe_em (p : Nat) (x : Pipe) : (s.setPipe p x).em = s.em := rfl
@[simp] theorem State.setPipe_upd (p : Nat) (x : Pipe) : (s.setPipe p x).upd = s.upd := rfl
@[simp] theorem State.setPipe_hostMem (p : Nat) (x : Pipe) : (s.setPipe p x).hostMem = s.hostMem := rfl
@[simp] theorem State.setPipe_dram (p : Nat) (x : Pipe) : (s.setPipe p x).dram = s.dram := rfl
@[simp] theorem State.setPipe_out (p : Nat) (x : Pipe) : (s.setPipe p x).out = s.out := rfl
@[simp] theorem State.setPipe_freeCtr (p : Nat) (x : Pipe) : (s.setPipe p x).freeCtr = s.freeCtr := rfl
@[simp] theorem State.setPipe_wipes (p : Nat) (x : Pipe) : (s.setPipe p x).wipes = s.wipes := rfl

/-! ### setEngine -/

@[simp] theorem State.setEngine_pending (p t : Nat) (x : Engine) : (s.setEngine p t x).pending = s.pending := rfl
@[simp] theorem State.setEngine_regs (p t : Nat) (x : Engine) : (s.setEngine p t x).regs = s.regs := rfl
@[simp] theorem State.setEngine_host (p t : Nat) (x : Engine) : (s.setEngine p t x).host = s.host := rfl
@[simp] theorem State.setEngine_scribe (p t : Nat) (x : Engine) : (s.setEngine p t x).scribe = s.scribe := rfl
@[simp] theorem State.setEngine_gauge (p t : Nat) (x : Engine) : (s.setEngine p t x).gauge = s.gauge := rfl
@[simp] theorem State.setEngine_clock (p t : Nat) (x : Engine) : (s.setEngine p t x).clock = s.clock := rfl
@[simp] theorem State.setEngine_dev (p t : Nat) (x : Engine) : (s.setEngine p t x).dev = s.dev := rfl
@[simp] theorem State.setEngine_mint (p t : Nat) (x : Engine) : (s.setEngine p t x).mint = s.mint := rfl
@[simp] theorem State.setEngine_peg (p t : Nat) (x : Engine) : (s.setEngine p t x).peg = s.peg := rfl
@[simp] theorem State.setEngine_chans (p t : Nat) (x : Engine) : (s.setEngine p t x).chans = s.chans := rfl
@[simp] theorem State.setEngine_dmc (p t : Nat) (x : Engine) : (s.setEngine p t x).dmc = s.dmc := rfl
@[simp] theorem State.setEngine_thyme (p t : Nat) (x : Engine) : (s.setEngine p t x).thyme = s.thyme := rfl
@[simp] theorem State.setEngine_ridge (p t : Nat) (x : Engine) : (s.setEngine p t x).ridge = s.ridge := rfl
@[simp] theorem State.setEngine_ports (p t : Nat) (x : Engine) : (s.setEngine p t x).ports = s.ports := rfl
@[simp] theorem State.setEngine_esch (p t : Nat) (x : Engine) : (s.setEngine p t x).esch = s.esch := rfl
@[simp] theorem State.setEngine_meters (p t : Nat) (x : Engine) : (s.setEngine p t x).meters = s.meters := rfl
@[simp] theorem State.setEngine_joist (p t : Nat) (x : Engine) : (s.setEngine p t x).joist = s.joist := rfl
@[simp] theorem State.setEngine_tenon (p t : Nat) (x : Engine) : (s.setEngine p t x).tenon = s.tenon := rfl
@[simp] theorem State.setEngine_em (p t : Nat) (x : Engine) : (s.setEngine p t x).em = s.em := rfl
@[simp] theorem State.setEngine_upd (p t : Nat) (x : Engine) : (s.setEngine p t x).upd = s.upd := rfl
@[simp] theorem State.setEngine_hostMem (p t : Nat) (x : Engine) : (s.setEngine p t x).hostMem = s.hostMem := rfl
@[simp] theorem State.setEngine_dram (p t : Nat) (x : Engine) : (s.setEngine p t x).dram = s.dram := rfl
@[simp] theorem State.setEngine_out (p t : Nat) (x : Engine) : (s.setEngine p t x).out = s.out := rfl
@[simp] theorem State.setEngine_freeCtr (p t : Nat) (x : Engine) : (s.setEngine p t x).freeCtr = s.freeCtr := rfl
@[simp] theorem State.setEngine_wipes (p t : Nat) (x : Engine) : (s.setEngine p t x).wipes = s.wipes := rfl

/-! ### setRecorder -/

@[simp] theorem State.setRecorder_pending (r : Nat) (x : Recorder) : (s.setRecorder r x).pending = s.pending := rfl
@[simp] theorem State.setRecorder_regs (r : Nat) (x : Recorder) : (s.setRecorder r x).regs = s.regs := rfl
@[simp] theorem State.setRecorder_host (r : Nat) (x : Recorder) : (s.setRecorder r x).host = s.host := rfl
@[simp] theorem State.setRecorder_gauge (r : Nat) (x : Recorder) : (s.setRecorder r x).gauge = s.gauge := rfl
@[simp] theorem State.setRecorder_clock (r : Nat) (x : Recorder) : (s.setRecorder r x).clock = s.clock := rfl
@[simp] theorem State.setRecorder_dev (r : Nat) (x : Recorder) : (s.setRecorder r x).dev = s.dev := rfl
@[simp] theorem State.setRecorder_mint (r : Nat) (x : Recorder) : (s.setRecorder r x).mint = s.mint := rfl
@[simp] theorem State.setRecorder_peg (r : Nat) (x : Recorder) : (s.setRecorder r x).peg = s.peg := rfl
@[simp] theorem State.setRecorder_chans (r : Nat) (x : Recorder) : (s.setRecorder r x).chans = s.chans := rfl
@[simp] theorem State.setRecorder_dmc (r : Nat) (x : Recorder) : (s.setRecorder r x).dmc = s.dmc := rfl
@[simp] theorem State.setRecorder_thyme (r : Nat) (x : Recorder) : (s.setRecorder r x).thyme = s.thyme := rfl
@[simp] theorem State.setRecorder_ridge (r : Nat) (x : Recorder) : (s.setRecorder r x).ridge = s.ridge := rfl
@[simp] theorem State.setRecorder_ports (r : Nat) (x : Recorder) : (s.setRecorder r x).ports = s.ports := rfl
@[simp] theorem State.setRecorder_esch (r : Nat) (x : Recorder) : (s.setRecorder r x).esch = s.esch := rfl
@[simp] theorem State.setRecorder_meters (r : Nat) (x : Recorder) : (s.setRecorder r x).meters = s.meters := rfl
@[simp] theorem State.setRecorder_joist (r : Nat) (x : Recorder) : (s.setRecorder r x).joist = s.joist := rfl
@[simp] theorem State.setRecorder_pipes (r : Nat) (x : Recorder) : (s.setRecorder r x).pipes = s.pipes := rfl
@[simp] theorem State.setRecorder_tenon (r : Nat) (x : Recorder) : (s.setRecorder r x).tenon = s.tenon := rfl
@[simp] theorem State.setRecorder_em (r : Nat) (x : Recorder) : (s.setRecorder r x).em = s.em := rfl
@[simp] theorem State.setRecorder_upd (r : Nat) (x : Recorder) : (s.setRecorder r x).upd = s.upd := rfl
@[simp] theorem State.setRecorder_hostMem (r : Nat) (x : Recorder) : (s.setRecorder r x).hostMem = s.hostMem := rfl
@[simp] theorem State.setRecorder_dram (r : Nat) (x : Recorder) : (s.setRecorder r x).dram = s.dram := rfl
@[simp] theorem State.setRecorder_out (r : Nat) (x : Recorder) : (s.setRecorder r x).out = s.out := rfl
@[simp] theorem State.setRecorder_freeCtr (r : Nat) (x : Recorder) : (s.setRecorder r x).freeCtr = s.freeCtr := rfl
@[simp] theorem State.setRecorder_wipes (r : Nat) (x : Recorder) : (s.setRecorder r x).wipes = s.wipes := rfl

/-! ### setMint -/

@[simp] theorem State.setMint_pending (m : Mint) : (s.setMint m).pending = s.pending := rfl
@[simp] theorem State.setMint_regs (m : Mint) : (s.setMint m).regs = s.regs := rfl
@[simp] theorem State.setMint_host (m : Mint) : (s.setMint m).host = s.host := rfl
@[simp] theorem State.setMint_scribe (m : Mint) : (s.setMint m).scribe = s.scribe := rfl
@[simp] theorem State.setMint_gauge (m : Mint) : (s.setMint m).gauge = s.gauge := rfl
@[simp] theorem State.setMint_clock (m : Mint) : (s.setMint m).clock = s.clock := rfl
@[simp] theorem State.setMint_dev (m : Mint) : (s.setMint m).dev = s.dev := rfl
@[simp] theorem State.setMint_peg (m : Mint) : (s.setMint m).peg = s.peg := rfl
@[simp] theorem State.setMint_chans (m : Mint) : (s.setMint m).chans = s.chans := rfl
@[simp] theorem State.setMint_dmc (m : Mint) : (s.setMint m).dmc = s.dmc := rfl
@[simp] theorem State.setMint_thyme (m : Mint) : (s.setMint m).thyme = s.thyme := rfl
@[simp] theorem State.setMint_ridge (m : Mint) : (s.setMint m).ridge = s.ridge := rfl
@[simp] theorem State.setMint_ports (m : Mint) : (s.setMint m).ports = s.ports := rfl
@[simp] theorem State.setMint_esch (m : Mint) : (s.setMint m).esch = s.esch := rfl
@[simp] theorem State.setMint_meters (m : Mint) : (s.setMint m).meters = s.meters := rfl
@[simp] theorem State.setMint_joist (m : Mint) : (s.setMint m).joist = s.joist := rfl
@[simp] theorem State.setMint_pipes (m : Mint) : (s.setMint m).pipes = s.pipes := rfl
@[simp] theorem State.setMint_tenon (m : Mint) : (s.setMint m).tenon = s.tenon := rfl
@[simp] theorem State.setMint_em (m : Mint) : (s.setMint m).em = s.em := rfl
@[simp] theorem State.setMint_upd (m : Mint) : (s.setMint m).upd = s.upd := rfl
@[simp] theorem State.setMint_hostMem (m : Mint) : (s.setMint m).hostMem = s.hostMem := rfl
@[simp] theorem State.setMint_dram (m : Mint) : (s.setMint m).dram = s.dram := rfl
@[simp] theorem State.setMint_out (m : Mint) : (s.setMint m).out = s.out := rfl
@[simp] theorem State.setMint_freeCtr (m : Mint) : (s.setMint m).freeCtr = s.freeCtr := rfl
@[simp] theorem State.setMint_wipes (m : Mint) : (s.setMint m).wipes = s.wipes := rfl

/-! ### wr -/

@[simp] theorem State.wr_pending (b : Nat) (f : Fld) (v : Nat) : (s.wr b f v).pending = s.pending := by unfold State.wr; split <;> rfl
@[simp] theorem State.wr_host (b : Nat) (f : Fld) (v : Nat) : (s.wr b f v).host = s.host := by unfold State.wr; split <;> rfl
@[simp] theorem State.wr_scribe (b : Nat) (f : Fld) (v : Nat) : (s.wr b f v).scribe = s.scribe := by unfold State.wr; split <;> rfl
@[simp] theorem State.wr_gauge (b : Nat) (f : Fld) (v : Nat) : (s.wr b f v).gauge = s.gauge := by unfold State.wr; split <;> rfl
@[simp] theorem State.wr_clock (b : Nat) (f : Fld) (v : Nat) : (s.wr b f v).clock = s.clock := by unfold State.wr; split <;> rfl
@[simp] theorem State.wr_dev (b : Nat) (f : Fld) (v : Nat) : (s.wr b f v).dev = s.dev := by unfold State.wr; split <;> rfl
@[simp] theorem State.wr_mint (b : Nat) (f : Fld) (v : Nat) : (s.wr b f v).mint = s.mint := by unfold State.wr; split <;> rfl
@[simp] theorem State.wr_peg (b : Nat) (f : Fld) (v : Nat) : (s.wr b f v).peg = s.peg := by unfold State.wr; split <;> rfl
@[simp] theorem State.wr_chans (b : Nat) (f : Fld) (v : Nat) : (s.wr b f v).chans = s.chans := by unfold State.wr; split <;> rfl
@[simp] theorem State.wr_dmc (b : Nat) (f : Fld) (v : Nat) : (s.wr b f v).dmc = s.dmc := by unfold State.wr; split <;> rfl
@[simp] theorem State.wr_thyme (b : Nat) (f : Fld) (v : Nat) : (s.wr b f v).thyme = s.thyme := by unfold State.wr; split <;> rfl
@[simp] theorem State.wr_ridge (b : Nat) (f : Fld) (v : Nat) : (s.wr b f v).ridge = s.ridge := by unfold State.wr; split <;> rfl
@[simp] theorem State.wr_ports (b : Nat) (f : Fld) (v : Nat) : (s.wr b f v).ports = s.ports := by unfold State.wr; split <;> rfl
@[simp] theorem State.wr_esch (b : Nat) (f : Fld) (v : Nat) : (s.wr b f v).esch = s.esch := by unfold State.wr; split <;> rfl
@[simp] theorem State.wr_meters (b : Nat) (f : Fld) (v : Nat) : (s.wr b f v).meters = s.meters := by unfold State.wr; split <;> rfl
@[simp] theorem State.wr_joist (b : Nat) (f : Fld) (v : Nat) : (s.wr b f v).joist = s.joist := by unfold State.wr; split <;> rfl
@[simp] theorem State.wr_pipes (b : Nat) (f : Fld) (v : Nat) : (s.wr b f v).pipes = s.pipes := by unfold State.wr; split <;> rfl
@[simp] theorem State.wr_tenon (b : Nat) (f : Fld) (v : Nat) : (s.wr b f v).tenon = s.tenon := by unfold State.wr; split <;> rfl
@[simp] theorem State.wr_em (b : Nat) (f : Fld) (v : Nat) : (s.wr b f v).em = s.em := by unfold State.wr; split <;> rfl
@[simp] theorem State.wr_upd (b : Nat) (f : Fld) (v : Nat) : (s.wr b f v).upd = s.upd := by unfold State.wr; split <;> rfl
@[simp] theorem State.wr_hostMem (b : Nat) (f : Fld) (v : Nat) : (s.wr b f v).hostMem = s.hostMem := by unfold State.wr; split <;> rfl
@[simp] theorem State.wr_dram (b : Nat) (f : Fld) (v : Nat) : (s.wr b f v).dram = s.dram := by unfold State.wr; split <;> rfl
@[simp] theorem State.wr_out (b : Nat) (f : Fld) (v : Nat) : (s.wr b f v).out = s.out := by unfold State.wr; split <;> rfl
@[simp] theorem State.wr_freeCtr (b : Nat) (f : Fld) (v : Nat) : (s.wr b f v).freeCtr = s.freeCtr := by unfold State.wr; split <;> rfl
@[simp] theorem State.wr_wipes (b : Nat) (f : Fld) (v : Nat) : (s.wr b f v).wipes = s.wipes := by unfold State.wr; split <;> rfl

/-! ### Registers -/

/-- The register written. -/
theorem reg_setReg (a v : Nat) : (s.setReg a v).reg a = v % 2 ^ 32 := by
  simp [State.reg, State.setReg, tabGet_set]

/-- Every other register. -/
theorem reg_setReg_ne {s : State} (a v : Nat) {k : Nat} (h : k ≠ a) : (s.setReg a v).reg k = s.reg k := by
  unfold State.reg State.setReg
  dsimp only
  rw [tabGet_set_ne _ _ _ _ _ h]

/-- A field of a 32-bit register reads its bits of the register. -/
theorem rd_word {s : State} {b : Nat} {f : Fld} (h : f.hi < 32) : s.rd b f = bits (s.reg (b + f.off)) f.hi f.lo := if_pos h

/-- A field of another word than the one that a write of a field changes reads as before. -/
theorem rd_wr_ne {s : State} {b c v : Nat} {f g : Fld} (hf : f.hi < 32) (hg : g.hi < 32) (h : c + g.off ≠ b + f.off) :
    (s.wr b f v).rd c g = s.rd c g := by
  rw [rd_word hg, rd_word hg]
  unfold State.wr
  rw [if_pos hf, reg_setReg_ne _ _ h]

/-! ### Engines and memory -/

/-- The engine set, and the others. -/
theorem engine_setEngine (p t : Nat) (x : Engine) (p' t' : Nat) :
    (s.setEngine p t x).engine p' t' = if p' = p ∧ t' = t then x else s.engine p' t' := by
  unfold State.engine State.setEngine State.setPipe State.pipe
  dsimp only
  rw [tabGet_set]
  by_cases h : p' = p
  · subst h
    rw [if_pos rfl]
    dsimp only
    rw [tabGet_set]
    by_cases h' : t' = t <;> simp [h']
  · simp [h]

/-- Host bytes after a write: those written, and the others as before. -/
theorem hostWr_get (j a : Nat) (bs : List Byte) (i : Nat) :
    tabGet memDefault (s.hostWr j a bs).hostMem i =
      if hostKey j a ≤ i ∧ i < hostKey j a + bs.length then bs.getD (i - hostKey j a) 0 else tabGet memDefault s.hostMem i :=
  memWrite_get _ _ _ _

/-- A byte of stacked DRAM after one byte was written: unchanged at every other key. -/
theorem dramWr_one (s : State) (a : Nat) (b : Byte) {i : Nat} (h : i ≠ s.dramKey a) :
    tabGet memDefault (s.dramWr a [b]).dram i = tabGet memDefault s.dram i := by
  unfold State.dramWr
  generalize s.dramKey a = k at h ⊢
  exact (memWrite_get _ _ _ _).trans (if_neg (by simp; omega))

end Sys2Proof.Machine
end

