-- ==== Sys2Proof/Laws/Rows.lean ====
section
/-!
SUPPORT. What a row does, by its form: a job row that is taken, and a host access that reaches the device.
-/
namespace Sys2Proof.Machine

/-- A job row whose body answers SUCCESS. -/
theorem runJob_ok {s b u : State} {g : Gate} {j : Job} {r : List Byte} {body : State → Answer} (h : s.takes g j b)
    (e : body b = okRes u r) : s.runJob g j body = u.succeed j r := by
  obtain ⟨h1, h2, h3, rfl⟩ := h
  simp only [State.runJob, h1, h2, decide_true, Bool.and_self, if_true, h3, e, okRes, State.succeed]

/-- A job row whose body completes later. -/
theorem runJob_later {s b u : State} {g : Gate} {j : Job} {body : State → Answer} (h : s.takes g j b)
    (e : body b = laterA u) : s.runJob g j body = u := by
  obtain ⟨h1, h2, h3, rfl⟩ := h
  simp only [State.runJob, h1, h2, decide_true, Bool.and_self, if_true, h3, e, laterA]

/-- A job row whose body ends with another status. -/
theorem runJob_fail {s b u : State} {g : Gate} {j : Job} {c : Nat} {body : State → Answer} (h : s.takes g j b)
    (e : body b = failA u c) : s.runJob g j body = u.complete j c [] := by
  obtain ⟨h1, h2, h3, rfl⟩ := h
  simp only [State.runJob, h1, h2, decide_true, Bool.and_self, if_true, h3, e, failA]

/-- A job row that answers SUCCESS. -/
theorem jobRow_ok {s b u : State} {g : Gate} {j : Job} {r : List Byte} {body : Job → State → Answer}
    (h : s.takes g j b) (e : body j b = okRes u r) : jobRow g j s body = .next (u.succeed j r) :=
  congrArg _ (runJob_ok h e)

/-- A job row that completes later. -/
theorem jobRow_later {s b u : State} {g : Gate} {j : Job} {body : Job → State → Answer}
    (h : s.takes g j b) (e : body j b = laterA u) : jobRow g j s body = .next u :=
  congrArg _ (runJob_later h e)

/-- A job row that ends with another status. -/
theorem jobRow_fail {s b u : State} {g : Gate} {j : Job} {c : Nat} {body : Job → State → Answer}
    (h : s.takes g j b) (e : body j b = failA u c) : jobRow g j s body = .next (u.complete j c []) :=
  congrArg _ (runJob_fail h e)

/-- A host access that reaches the device. -/
theorem posted_reaches {s : State} {f : Nat} (h : s.reaches f) (off : Nat) (k : State → State) : s.posted f off k = k s := by
  simp [State.posted, h.1, h.2.1, h.2.2]

/-- A port command of the port's holder. -/
theorem portGate_ok {j : Job} {s : State} {n : Nat} (h : n = j.le 4 2 ∧ n < 128 ∧ s.portHolder n = s.jobFn j)
    (body : State → Nat → Answer) : portGate j s body = body s n := by
  obtain ⟨rfl, h1, h2⟩ := h
  unfold portGate
  exact if_neg (fun hc => hc.elim (Nat.not_le.2 h1) (fun hd => hd h2))

/-- Accounts that still fit after a change of headroom. -/
theorem withHeadroom_ok {s v : State} {n : Nat} (h : (s.autoHdrm n).reshare = some v) (r : List Byte) (old : State) :
    s.withHeadroom n r old = okRes (v.lossyXon n).xonAll r := by
  unfold State.withHeadroom
  rw [h]

/-- Settings of a port command that fit: they wait for the port's boundary while it sends, or are in force at once (R77). -/
theorem takeSet_ok {s v : State} {n : Nat} {x : PortSet}
    (h : ((State.putSet (if s.portSends n then s.settled n else s) n x).autoHdrm n).reshare = some v) :
    s.takeSet n x = okRes (if s.portSends n then s.putLater n x else (v.lossyXon n).xonAll) [] := by
  unfold State.takeSet
  cases hs : s.portSends n <;> rw [hs] at h <;> simp only [Bool.false_eq_true, if_true, if_false] at h ⊢ <;>
    rw [withHeadroom_ok h]
  rfl

/-- A TABLE_SETUP row of its operation that answers SUCCESS. -/
theorem setupRow_ok {s b u : State} {op : Nat} {owner : Bool} {j : Job} {r : List Byte} {body : Job → State → Answer}
    (h : s.takes { op := 0x48, owner := owner } j b) (ho : j.byte 0 5 = op) (e : body j b = okRes u r) :
    setupRow op j s owner body = .next (u.succeed j r) := by
  unfold setupRow
  rw [if_pos (.inl ho)]
  exact jobRow_ok h (by rw [if_pos ho]; exact e)

/-- An UPDATE row whose job's turn it is. -/
theorem updRow_eq {op : Nat} {j : Job} {s : State} {ready : Bool} {body : Job → State → Answer} (h : ready = true) :
    updRow op j s ready body = jobRow { op := op, owner := false, safe := true } j s body := by simp [updRow, h]

/-- An update whose checks pass has the plan that they make. -/
theorem updApply_ok {s : State} {j : Job} {c : UpdCmd} {a : Plan} (hc : c = updCmd s j) (hb : s.batchRefuses j c = none)
    (hp : s.planAll c ((updScopes c.table c.mask).getD []) = .ok a)
    (hj : c.batched = true → ∀ y, s.batch (j.le 8 2) = some y → (a.journal y.journal).length ≤ 4096) :
    s.updApply j = .ok (s.startUpdate j c a) := by
  subst hc
  unfold State.updApply
  dsimp only
  rw [hb]
  dsimp only
  rw [hp]
  dsimp only
  rw [if_neg ?_]
  rintro ⟨g1, g2⟩
  cases hy : s.batch (j.le 8 2) with
  | none => simp [hy] at g2
  | some y => have := hj g1 y hy; simp only [hy] at g2; omega

/-- An update of a table other than the learning table, whose checks pass at its turn, begins with their plan. -/
theorem upd_begins {s b t : State} {j : Job} {op : Nat} {c : UpdCmd} {a : Plan} (hr : s.updReady j = true)
    (h : s.takes { op := op, owner := false, safe := true } j b)
    (hc : c = updCmd b j ∧ c.mask ≠ 0 ∧ c.table ≠ 1 ∧ updMalformed j c = false) (ht : t = b.updTurn c.mask j.q ∧ c = updCmd t j)
    (hb : t.batchRefuses j c = none) (hp : t.planAll c ((updScopes c.table c.mask).getD []) = .ok a)
    (hj : c.batched = true → ∀ y, t.batch (j.le 8 2) = some y → (a.journal y.journal).length ≤ 4096) :
    updRow op j s (s.updReady j) updRun = .next (t.startUpdate j c a) := by
  have e := updApply_ok ht.2 hb hp hj
  obtain ⟨rfl, hm, h1, hf⟩ := hc
  rw [ht.1] at e ⊢
  refine (updRow_eq hr).trans (jobRow_later h ?_)
  unfold updRun
  dsimp only
  rw [if_neg hm, hf, if_neg (by simp), if_neg h1, e]

/-- A well formed update of the learning table waits at the learn arbiters of its pipelines. -/
theorem upd_joins {s b : State} {j : Job} {op : Nat} {c : UpdCmd} (hr : s.updReady j = true)
    (h : s.takes { op := op, owner := false, safe := true } j b)
    (hc : c = updCmd b j ∧ c.mask ≠ 0 ∧ c.table = 1 ∧ updMalformed j c = false) :
    updRow op j s (s.updReady j) updRun = .next ((b.updTurn c.mask j.q).arbJoin c.mask j) := by
  obtain ⟨rfl, hm, h1, hf⟩ := hc
  refine (updRow_eq hr).trans (jobRow_later h ?_)
  unfold updRun
  dsimp only
  rw [if_neg hm, hf, if_neg (by simp), if_pos h1]

/-- TABLE_SETUP with valid fields. -/
theorem setupRun_ok {j : Job} {s : State} {bad : Bool} (hb : bad = false)
    (f : Nat → State → State) : setupRun j s bad f = okRes (forEach (maskList (j.byte 0 4)) f s) [] := by
  subst hb
  simp [setupRun, okA, okRes]

/-- A microword that a service engine issues has its effect. -/
theorem svcIssue_go {s u : State} {v op : Nat} {w : MWord} (h : s.svcIssues v op w u) (body : MWord → State → State) :
    s.svcIssue v op body = body w u := by
  obtain ⟨h1, h2, h3, h4, rfl, h6, h7, h8, h9, h10, h11, rfl⟩ := h
  unfold State.svcIssue
  dsimp only
  rw [if_neg (by simp [h2, h3, h4]; omega), if_neg (by rw [h6]; exact h7), if_neg (by rw [h6]; simp), if_neg h8, if_neg h9, h10,
    if_neg (by simp), h11, if_neg (by simp)]

/-- A microword that issues has its effect. -/
theorem issue_go {s u : State} {p t op : Nat} {w : MWord} (h : s.issues p t op w u) (body : MWord → State → State) :
    s.issue p t op body = body w u := by
  obtain ⟨rfl, h⟩ | ⟨h0, h1, h2, h3, h4, rfl, h6, h7, h8, h9, h10, rfl⟩ := h
  · exact (if_pos rfl).trans (svcIssue_go h body)
  · unfold State.issue
    rw [if_neg h0]
    dsimp only
    rw [if_neg (by simp [h1, h2]), h3, if_neg (by simp), h4, if_neg (by simp), if_neg (by rw [h6]; exact h7),
      if_neg (by rw [h6]; simp), h8, if_neg (by simp), h9, if_neg (by simp)]
    dsimp only
    rw [if_pos h10]

/-- Node records that fit are set. -/
theorem putNodes_ok {s u : State} {f kind : Nat} {recs : List (Nat × List Byte)} (h : s.nodesFit f kind recs u) :
    s.putNodes f kind recs = okRes u [] := by
  obtain ⟨h1, h2, h3, rfl, h5, h6⟩ := h
  have e : recs.filter (fun e => !badNode kind e.2) = recs := List.filter_eq_self.2 (fun x hx => by simp [h1 x hx])
  unfold State.putNodes
  dsimp only
  rw [e, h2, if_neg (by simp)]
  have hr : s.refusedRec (forEach recs (fun e s => s.putNode kind e.1 (parseNode e.2)) (s.countMoved 30 (32 * recs.length))) kind recs
      = none := by
    unfold State.refusedRec
    dsimp only
    rw [h6, List.findIdx?_eq_none_iff.2]
    · rfl
    · intro x hx
      rcases h3 x hx with h | h <;> simp [h1 x hx, h, State.breaks]
  rw [hr]
  dsimp only
  rw [h5, if_neg (by simp)]
  rfl

/-- A row of one of several operations of an opcode, for its own operation. -/
theorem opRow_eq {g : Gate} {j : Job} {s : State} {mine : Bool} {body : Job → State → Answer} (h : mine = true) :
    opRow g j s mine body = jobRow g j s body := if_pos h

/-- A STEP whose turn it is, and which the gate lets through, runs. -/
theorem execStep_ready {s b : State} {j : Job} (h1 : s.inTurn j 0x68 0x68 = true) (h2 : j.byte 0 4 = 2)
    (h3 : s.takes { op := 0x68, safe := true } j b) :
    exec (.thymeAdjustStep j) s = jobRow { op := 0x68, safe := true } j s adjustStep := by
  have hf : s.flagGated { op := 0x68, safe := true } j = s := if_neg (by rw [h3.2.2.1]; simp)
  show adjRow _ j (if _ then _ else _) _ _ = _
  rw [if_pos ⟨h2, h1⟩, hf]
  exact (if_pos h1).trans (opRow_eq (by simp [h2]))

/-- A PEG command for a pool of the function's, created or not as the command needs. -/
theorem pegGate_ok {b : State} {j : Job} {x : Nat} {spans : List (Nat × Nat)} {created : Bool}
    (h : x = j.byte 0 4 ∧ x < 64 ∧ b.jobFn j = b.poolHolder x ∧ decide (b.poolState x ≠ 0) = created ∧
      j.only ((4, 1) :: spans) = true) (body : State → Nat → Answer) : b.pegGate j spans created body = body b x := by
  obtain ⟨rfl, h1, h2, h3, h4⟩ := h
  unfold State.pegGate
  dsimp only
  rw [if_neg (by rw [h4]; rintro (h | h); omega; cases h), if_neg (by simp [h2]), if_neg (by simp [h3])]

/-- A PURLIN_CHANNEL_CTL of valid fields, for a channel of the function's or by the owner. -/
theorem ctlGate_ok {b : State} {j : Job} {ch : Nat}
    (h : ch = j.byte 0 4 ∧ ch ≤ 27 ∧ j.byte 0 5 ≤ 3 ∧ j.byte 0 6 ≤ 1 ∧ (j.byte 0 5 = 3 ∨ j.byte 0 6 = 0) ∧ j.only [(4, 3)] = true)
    (hf : b.jobFn j = b.owner ∨ (b.chanState ch ≠ 0 ∧ (b.queue (b.chanQ ch)).fn = b.jobFn j)) (body : State → Nat → Answer) :
    ctlGate j b body = body b ch := by
  obtain ⟨rfl, h1, h2, h3, h4, h5⟩ := h
  unfold ctlGate
  dsimp only
  rw [if_neg (by rw [h5]; simp; omega), if_neg]
  rintro ⟨g1, g2⟩
  rcases hf with hf | ⟨hf, hq⟩
  · exact g1 hf
  · exact g2.elim hf (fun g => g hq)

/-- A job row whose body ends with another status and a result. -/
theorem runJob_code {s b u : State} {g : Gate} {j : Job} {c : Nat} {r : List Byte} {body : State → Answer} (h : s.takes g j b)
    (e : body b = (u, some (c, r))) : s.runJob g j body = u.complete j c r := by
  obtain ⟨h1, h2, h3, rfl⟩ := h
  simp only [State.runJob, h1, h2, decide_true, Bool.and_self, if_true, h3, e]

/-- A response to a live nonce in LOCKED, under the owner's key, turns on the signature alone (R617). -/
theorem response_live {s : State} {key sig n : List Byte} (source scope : Nat) (h1 : s.lifecycle = 1)
    (h2 : s.nonceDue.dev.sec.nonce = some n) (h3 : Config.sha384 key = s.dev.fuses.ownerHash) :
    s.response source scope key sig =
      if Config.ecdsaVerify key (Config.sha384 (n ++ s.dev.fuses.uid ++ leBytes 4 scope)) sig = true then
        ((((s.setNonce none).wr wSec Reg.SEC_STATUS_LIFECYCLE 2).wr wSec Reg.SEC_STATUS_SCOPE scope).event Ev.DEBUG_REOPENED
          0 scope source 0, St.SUCCESS)
      else (s.refuse source 1, St.SIG_INVALID) := by
  simp only [State.response, h1, h2, h3, ne_eq, not_true_eq_false, if_false]
  cases Config.ecdsaVerify key (Config.sha384 (n ++ s.dev.fuses.uid ++ leBytes 4 scope)) sig <;> simp

/-! ### Registers -/

/-- Every window starts at a multiple of 64 KiB. -/
theorem winBase_page (s : State) (w : FWin) : s.winBase w % 0x10000 = 0 := by
  cases w with
  | port n => simp only [State.winBase]; omega
  | pipe p => simp only [State.winBase, wPipe]; omega
  | dmc d => simp only [State.winBase, wDmc]; omega
  | fn f =>
    simp only [State.winBase, State.fnBase]
    split
    · decide
    · unfold wFn; omega
  | _ => simp only [State.winBase]; decide

/-- Only the offsets 0xF000 to 0xF03F of a window are fault registers (R601). -/
theorem winAt_low (s : State) {a : Nat} (h : a % 0x10000 < 0xF000) : s.winAt a = none := by
  unfold State.winAt
  rw [List.find?_eq_none]
  intro w _
  have := winBase_page s w
  simp
  omega

/-- A word read in BAR0 of a function that the host reaches reads the register there (R408, R414). -/
theorem memRead_reg {s : State} {f off a : Nat} (h1 : s.reaches f) (h2 : off % 4 = 0) (h3 : off < s.barSize f 0)
    (h4 : s.regKey f off = some a) :
    s.memRead f 0 off 4 = (s.readReg f a).2.emit (.readData f 0 off (BitVec.ofNat 64 (s.readReg f a).1)) := by
  unfold State.memRead
  dsimp only
  rw [if_neg h1.1, if_neg (by simp [h1.2.1]), if_neg (by rw [h1.2.2]; simp; omega), if_neg (by decide), if_neg (by omega), h4]

/-- A read in BAR4 (R413, R417). -/
theorem memRead_bar4 {s : State} {f off len : Nat} (h1 : s.reaches f) (h3 : off < s.barSize f 4) :
    s.memRead f 4 off len =
      (s.readBar4 f off len).2.emit (.readData f 4 off (BitVec.ofNat 64 (s.readBar4 f off len).1)) := by
  unfold State.memRead
  dsimp only
  rw [if_neg h1.1, if_neg (by simp [h1.2.1]), if_neg (by rw [h1.2.2]; simp; omega), if_pos rfl]

/-- A word write in BAR0 that reaches a register. -/
theorem memWrite_reg {s : State} {f off a v : Nat} (h1 : s.reaches f) (h3 : off < s.barSize f 0)
    (h4 : s.regKey f off = some a) : s.memWrite f 0 off v = s.writeReg f a v := by
  unfold State.memWrite
  rw [posted_reaches h1, if_neg (by omega), if_neg (by decide), if_pos rfl, h4]

/-- A word write to a tail doorbell (R415). -/
theorem memWrite_tail {s : State} {f off v : Nat} (h1 : s.reaches f) (h2 : off % 8 = 0) (h3 : off < 0x1000) :
    s.memWrite f 2 off v = s.tailDoorbell f (off / 8) (v % 2 ^ 16) := by
  unfold State.memWrite
  rw [posted_reaches h1, if_neg (by simp only [State.barSize]; simp; omega), if_pos rfl, if_pos h2]

/-- The owner's register at an offset of its BAR0 below the HIF copies of the ports' windows. -/
theorem regKey_owner {s : State} {f off : Nat} (h : f = s.owner) (h1 : off < 0x900000)
    (h2 : off < 0x180000 ∨ 0x18F000 ≤ off) : s.regKey f off = some off := by
  unfold State.regKey
  rw [if_pos h, if_neg (by omega), if_pos h1]

/-- A register of the Thyme window below its pair and fault registers is no low half of a pair. -/
theorem pairLo_thyme {s : State} {f a : Nat} (h : f = s.owner) (h1 : wThyme ≤ a) (h2 : a < wThyme + 0xF000)
    (h3 : a ≠ wThyme + 0x0C) (h4 : a ≠ wThyme + 0x1C) : s.pairLo f a = false := by
  have hb : s.fnBase f = wHif := if_pos h
  have hw : s.winAt a = none := winAt_low s (by unfold wThyme at h1 h2; omega)
  unfold State.pairLo
  rw [hb, hw]
  simp only [Bool.or_false, decide_eq_false_iff_not]
  unfold wThyme at h1 h2 h3 h4
  simp only [wHif, wGlobal, wThyme, wPeg, wEsch, wGauge]
  omega

/-- A read of NOW_NS latches the time (R10, R356). -/
theorem nowNs_read {s : State} {f : Nat} (h1 : f = s.owner) (h2 : s.reaches f) (h3 : s.booted = true) :
    s.memRead f 0 (wThyme + 4) 4 =
      (State.latchHi { s with host := { s.host with timeLatch := tabSet (fun _ => (0, 0)) s.host.timeLatch f (s.clock.sec, s.frac) } }
        f 0 (s.clock.sec / 2 ^ 32)).emit (.readData f 0 (wThyme + 4) (BitVec.ofNat 64 s.clock.ns)) := by
  have hv : s.served (wThyme + 4) = true := by simp [State.served, h3]
  have hp : s.peek f (wThyme + 4) = s.clock.ns := by
    have hb : s.fnBase f = wHif := if_pos h1
    unfold State.peek
    dsimp only
    rw [hb, if_neg (by simp [hv])]
    simp [wThyme, wHif, wGlobal, wQmgr, wRidge]
  rw [memRead_reg h2 (by decide) (by unfold State.barSize; simp [h1, wThyme]) (regKey_owner h1 (by decide) (by decide))]
  unfold State.readReg
  dsimp only
  rw [if_neg (by rw [pairLo_thyme h1 (by decide) (by decide) (by decide) (by decide)]; decide),
    if_neg (by rw [pairLo_thyme h1 (by decide) (by decide) (by decide) (by decide)]; decide),
    if_neg (by simp [hv]), if_pos rfl, hp]

/-- A read of TOD_RX takes the oldest byte that was received (R383). -/
theorem todRx_read {s : State} {f : Nat} (h1 : f = s.owner) (h2 : s.reaches f) (h3 : s.booted = true) :
    s.memRead f 0 (wThyme + 0x30) 4 =
      State.emit { s with thyme := { s.thyme with todRx := s.thyme.todRx.tail } }
        (.readData f 0 (wThyme + 0x30) (BitVec.ofNat 64 (s.thyme.todRx.head?.elim 0 (fun x => 2 ^ 8 + x.toNat)))) := by
  have hv : s.served (wThyme + 0x30) = true := by simp [State.served, h3]
  have hp : s.peek f (wThyme + 0x30) = s.thyme.todRx.head?.elim 0 (fun x => 2 ^ 8 + x.toNat) := by
    have hb : s.fnBase f = wHif := if_pos h1
    unfold State.peek
    dsimp only
    rw [hb, if_neg (by simp [hv])]
    simp [wThyme, wHif, wGlobal, wQmgr, wRidge]
    cases s.thyme.todRx <;> rfl
  rw [memRead_reg h2 (by decide) (by unfold State.barSize; simp [h1, wThyme]) (regKey_owner h1 (by decide) (by decide))]
  unfold State.readReg
  dsimp only
  rw [if_neg (by rw [pairLo_thyme h1 (by decide) (by decide) (by decide) (by decide)]; decide),
    if_neg (by rw [pairLo_thyme h1 (by decide) (by decide) (by decide) (by decide)]; decide),
    if_neg (by simp [hv]), if_neg (by decide), if_pos rfl, hp]

/-! ### Lists of rows -/

/-- Every row with a gate runs its job through it. -/
theorem jobGate_run {c : Instr} {j : Job} {g : Gate} (h : jobGate c = some (j, g)) (s : State) (hw : rowWaits c s = false) :
    ∃ body : State → Answer, exec c s = .next (s.runJob g j body) := by
  cases c <;> first
    | (cases h; done)
    | (cases h; exact ⟨_, rfl⟩)
    | (cases h; exact ⟨_, (if_neg (by simpa [rowWaits] using hw) : (if _ then _ else _) = _)⟩)
    | (cases h; exact ⟨_, (if_pos (by simpa [rowWaits] using hw) : (if _ then _ else _) = _)⟩)

/-- A row whose turn has not come changes nothing. -/
theorem rowWaits_waits {c : Instr} {s : State} (hw : rowWaits c s = true) : exec c s = .next s := by
  cases c <;> try (cases hw; done)
  case trussGraphRead j => exact (if_neg (by simpa [rowWaits] using hw) : (if s.inTurn j 0x30 0x32 = true then _ else _) = _)
  case mortiseSearch j => exact (if_pos hw : (if (((s.searchRefused j).isSome || s.halting) && !s.oldestJob j) = true then _ else _) = _)
  case tenonCsRead j => exact (if_neg (by simpa [rowWaits] using hw) : (if s.inTurn j 0x38 0x3A = true then _ else _) = _)

/-- Every row of microRows issues a word of its operation. -/
theorem microRows_issue (p : Fin 9) (t : Fin 64) (s : State) :
    ∀ e ∈ microRows p t, ∃ body : MWord → State → State, exec e.1 s = .next (s.issue p.val t.val e.2 body) := by
  simp only [microRows, List.forall_mem_cons]
  repeat' constructor
  all_goals (try exact ⟨_, rfl⟩)
  all_goals (intro e he; cases he)

/-- An arithmetic word that issues changes its engine alone. -/
theorem arith_frame {p : Fin 9} {t : Fin 64} {r : Instr × Nat} {s u : State} {w : MWord}
    (h1 : r ∈ (microRows p t).take 18) (h2 : s.issues p.val t.val r.2 w u) :
    ∃ x : Engine, exec r.1 s = .next (u.setEngine p.val t.val x) := by
  revert h2
  revert r
  simp only [microRows, List.take_succ_cons, List.take_zero, List.forall_mem_cons]
  refine ⟨?_, ?_, ?_, ?_, ?_, ?_, ?_, ?_, ?_, ?_, ?_, ?_, ?_, ?_, ?_, ?_, ?_, ?_, ?_⟩
  all_goals first
    | (intro r hr; cases hr)
    | (intro h; exact ⟨_, congrArg Host.Outcome.next (issue_go h _)⟩)

/-- The instant of the trailing edge of the pulse before pulse k, or of the leading edge of pulse k (R372). -/
theorem edgeAt_eq {c : PulseCfg} {k : Nat} {f : Bool} {a : Int} (h : a = (c.start : Int) +
    ((if f then ((k - 1) * c.period + c.width) else k * c.period : Nat) : Int) + c.comp) :
    c.edgeAt (if f then k - 1 else k) f = a := by
  subst h
  unfold PulseCfg.edgeAt
  cases f
  · simp only [Bool.false_eq_true, if_false, Nat.add_zero, Int.natCast_add]
  · simp only [if_true, Nat.add_assoc, Int.natCast_add]

/-- A count that no armed counter watches changes its slot alone (R574, R580); t has the registers of s. -/
theorem count_quiet {s t : State} {page x : Nat} (n : Nat) (hr : t.regs = s.regs)
    (h : ∀ k ∈ s.armed, ¬(s.rd (pcBase k) Reg.GAUGE_PC_A_SRC = 0 ∧ s.rd (pcBase k) Reg.GAUGE_PC_A_SEL = 512 * page + x)) :
    t.count page x n = t.addSlot page x n := by
  have ha : (t.addSlot page x n).armed = s.armed := by
    show t.armed = s.armed
    unfold State.armed
    rw [hr]
  have hd : ∀ b f, (t.addSlot page x n).rd b f = s.rd b f := by
    intro b f
    show t.rd b f = s.rd b f
    unfold State.rd State.reg
    rw [hr]
  unfold State.count State.countW
  dsimp only
  rw [ha, List.filter_eq_nil_iff.2 (fun k hk hh => h k hk (by simpa [hd] using hh))]
  rfl

/-- A read that the host requests of a function (R408). -/
theorem request_read {s : State} {f bar : Nat} {h : bar < 6} {off : BitVec 24} {len : BitVec 13} (h1 : s.reaches f) :
    s.hostRequest f (.read ⟨bar, h⟩ off len) = s.memRead f bar off.toNat len.toNat := by
  unfold State.hostRequest
  rw [if_neg h1.1, if_neg (by simp [h1.2.1])]

/-- A dump that is due starts. -/
theorem dumpDue_starts {s : State} (h : s.rd wGauge Reg.GAUGE_DUMP_PERIOD_MS ≠ 0 ∧ s.dutyRuns 13 = true ∧ s.gauge.dumping = none) :
    exec .gaugeDumpDue s = .next
      (let x : Dump := { seq := s.gauge.dumpNext, skipped := s.gauge.skipped,
                         addr := s.gauge.dumpBase + ((s.gauge.dumpNext - 1) % s.rd wGauge Reg.GAUGE_DUMP_BUFFERS) *
                           (128 + 4096 * (maskPages s.gauge.dumpMask).length), mask := s.gauge.dumpMask }
       State.count (State.hostWr
         { s with gauge := { s.gauge with dumping := some x, dumpNext := s.gauge.dumpNext + 1, skipped := 0 } }
         (s.fnLink s.owner) (x.addr + 4) (leBytes 4 0xFFFFFFFF)) 157 29 4) := by
  show Host.Outcome.next s.dumpDue = _
  unfold State.dumpDue
  rw [if_neg (by simp [h])]
  simp only [h.2.2]
  rfl

/-- A dump that is due starts, where no armed counter watches the bytes that it moves. -/
theorem dumpDue_quiet {s : State} {a : Nat} (h : s.rd wGauge Reg.GAUGE_DUMP_PERIOD_MS ≠ 0 ∧ s.dutyRuns 13 = true ∧ s.gauge.dumping = none)
    (hq : ∀ k ∈ s.armed, ¬(s.rd (pcBase k) Reg.GAUGE_PC_A_SRC = 0 ∧ s.rd (pcBase k) Reg.GAUGE_PC_A_SEL = 512 * 157 + 29))
    (ha : a = s.gauge.dumpBase + ((s.gauge.dumpNext - 1) % s.rd wGauge Reg.GAUGE_DUMP_BUFFERS) *
      (128 + 4096 * (maskPages s.gauge.dumpMask).length)) :
    ∃ t, exec .gaugeDumpDue s = .next t ∧ t.dram = s.dram ∧
      t.hostMem = memWrite s.hostMem (hostKey (s.fnLink s.owner) (a + 4)) (leBytes 4 0xFFFFFFFF) := by
  subst ha
  refine ⟨_, dumpDue_starts h, ?_⟩
  dsimp only
  have e := fun (t : State) hr => count_quiet (s := s) (t := t) 4 hr hq
  refine ⟨?_, ?_⟩ <;> rw [e] <;> rfl

/-- A word write to a head doorbell (R415). -/
theorem memWrite_head {s : State} {f off v : Nat} (h1 : s.reaches f) (h2 : off % 8 = 4) (h3 : off < 0x1000) :
    s.memWrite f 2 off v = s.headDoorbell f (off / 8) (v % 2 ^ 16) := by
  unfold State.memWrite
  rw [posted_reaches h1, if_neg (by simp only [State.barSize]; simp; omega), if_pos rfl, if_neg (by omega)]

/-- A loop whose body leaves a part of the state leaves it. -/
theorem forEach_same {α β : Type} (v : State → β) {f : α → State → State} (hf : ∀ a s, v (f a s) = v s) :
    ∀ (l : List α) (s : State), v (forEach l f s) = v s
  | [], _ => rfl
  | a :: l, s => (forEach_same v hf l (f a s)).trans (hf a s)

/-- Marking the copies of a bucket that packets hold leaves the memories and the registers. -/
theorem emIssued_frame (s : State) (b : Nat) :
    (s.emIssued b).hostMem = s.hostMem ∧ (s.emIssued b).dram = s.dram ∧ (s.emIssued b).regs = s.regs := by
  unfold State.emIssued
  refine ⟨?_, ?_, ?_⟩
  · exact forEach_same State.hostMem (by intros; rfl) _ _
  · exact forEach_same State.dram (by intros; rfl) _ _
  · exact forEach_same State.regs (by intros; rfl) _ _

/-- SPILL_CNT of a bucket stored: one byte of stacked DRAM (R161). -/
theorem setSpill_frame (s : State) (b n : Nat) :
    (s.setSpill b n).hostMem = s.hostMem ∧ (s.setSpill b n).regs = s.regs ∧ ∀ i, i ≠ s.dramKey (emAddr b + 21) →
      tabGet memDefault (s.setSpill b n).dram i = tabGet memDefault s.dram i := by
  unfold State.setSpill
  generalize emAddr b + 21 = a
  have hf := emIssued_frame (s.dramWr a [BitVec.ofNat 8 (imB (s.dramRd a 1) 0 % 16 + 16 * n)]) b
  exact ⟨hf.1.trans (State.dramWr_hostMem _ _ _), hf.2.2.trans (State.dramWr_regs _ _ _),
    fun i hi => by rw [hf.2.1]; exact dramWr_one s _ _ hi⟩

end Sys2Proof.Machine
end

