-- ==== Sys2Proof/Tests/Build.lean ====
section
/-!
SUPPORT. Small states and jobs for the tests and the witnesses.
-/
namespace Sys2Proof.Machine

/-- An entry of n bytes that are zero but for the fields given as (offset, length, value). -/
def entryOf (n : Nat) (fields : List (Nat × Nat × Nat)) : List Byte :=
  fields.foldl (fun l f => putBytes l f.1 (leBytes f.2.1 f.2.2)) (List.replicate n 0)

/-- A job of one entry in queue 0, with its opcode and fields. -/
def mkJob (op : Nat) (fields : List (Nat × Nat × Nat)) : Job :=
  { q := 0, seq := 0, sqHead := 1, entries := [entryOf 32 ((0, 1, op) :: (1, 1, 3) :: fields)] }

/-- The machine after reset, in READY. -/
def ready : State := State.reset.wr wGlobal Reg.GLOBAL_DEV_STATE_STATE 4

/-- A state with job j fetched into an active queue of a type. -/
def State.holding (s : State) (j : Job) (t : QType := .admin) : State :=
  s.setQueue j.q { st := .active, typ := t, fn := 0, idx := 0, size := 16, csize := 16, head := 1, tail := 1, jobs := [j],
                   nextSeq := 1 }

/-- READY with job j fetched into the owner's admin queue. -/
def readyJob (j : Job) : State := ready.holding j

/-- A state whose function f has Memory Space Enable, Bus Master Enable and MSI-X on. -/
def State.withAccess (s : State) (f : Nat) : State := s.setFn f { mse := true, bme := true, msixEn := true }

/-- READY with function 0 enabled. -/
def readyFn : State := ready.withAccess 0

/-! ### Queues -/

/-- An active COMPLETION queue of function 0 at index 1. -/
def CQ1 : Queue := { st := .active, typ := .completion, fn := 0, idx := 1, size := 16 }
/-- QUEUE_CREATE of a COMPLETION, INJECT and DMA queue; QUEUE_DESTROY, QUERY and COALESCE. -/
def MKC : Job := mkJob 0x01 [(4, 1, 7), (6, 2, 511), (8, 8, 256), (16, 4, 65536)]
def MKI : Job := mkJob 0x01 [(4, 1, 1), (6, 2, 2), (8, 8, 256), (16, 4, 16), (20, 2, 1), (22, 2, 16), (24, 1, 15)]
def MKD : Job := mkJob 0x01 [(4, 1, 5), (6, 2, 2), (8, 8, 256), (16, 4, 16), (20, 2, 1), (22, 2, 16), (24, 1, 27)]
def MKDS : State := ((readyJob MKD).setQueue 256 CQ1).wr (chanBase 27) Reg.PURLIN_CHAN_B_CHAN_FUNC 0xFFFF
def QD : Job := mkJob 0x02 [(6, 2, 1)]
def QQ : Job := mkJob 0x03 [(6, 2, 0)]
def QC : Job := mkJob 0x04 [(6, 2, 1), (8, 2, 10), (10, 2, 4)]
/-- READY with an ECHO entry in the owner's admin ring, and the job fetched. -/
def FETCH : State := (ready.hostWr 0 256 (entryOf 32 [(0, 1, 0x13), (1, 1, 3)])).setQueue 0
  { st := .active, base := 256, size := 16, csize := 16, tail := 1 }
def FETCHU : State :=
  (({ FETCH.markPauses with host := { FETCH.markPauses.host with lastFn := 0, lastIdx := [] } } : State).setQueue 0
    { FETCH.queue 0 with head := 1, nextSeq := 1, paused := false, jobs := [{ q := 0, seq := 0, sqHead := 1, entries :=
      [entryOf 32 [(0, 1, 0x13), (1, 1, 3)]] }] }).qmgrCount 0 0
/-- READY with a completion reported and not yet written. -/
def DONEC : Compl := { q := 0, seq := 0, sqHead := 1, result := padTo 7 [] }
def DONE : State := (readyJob (mkJob 0x13 [])).complete (mkJob 0x13 []) 0 []

/-- The notice of an ADMIN queue in ERROR, in its own ring. -/
def NOTS : State :=
  let s := ready.setQueue 0 { st := .error, size := 16, csize := 16 }
  { s with host := { s.host with notices := [{ q := 0, cq := 0, cause := 2, head := 1 }] } }

/-! ### Frames and links -/

/-- INJECT_FRAME of 64 bytes from host address 4096, in an INJECT queue. -/
def INJ : Job := { mkJob 0x0A [(6, 2, 64), (8, 8, 4096)] with q := 256 }
def INJS : State := ready.holding INJ .inject
def INJF : Frame :=
  { bytes := List.replicate 64 0, recv := List.replicate 64 0, ended := true, inPort := 128, inTc := 0, pairPort := 128,
    pairTc := 0, injected := true, outTc := 0, ptp := { act := 0, residence := false, tag := 0 } }
/-- PUNT queue 256, with pool 0 of 2,048-byte buffers, writing a frame of egress queue 2048. -/
def PUNTS : State :=
  let s := (ready.setFrame 0 { bytes := List.replicate 64 0 }).wr (poolBase 0) Reg.PEG_POOL_A_BUF_SHIFT 11
  (s.setEgq 2048 { head := [{ frame := 0, order := 0 }] }).setQueue 256
    { st := .active, typ := .punt, size := 16, cq := 0xFFFF, drawn := some 4096, punting := some (2048, 0) }
def PUNTU : State :=
  ((PUNTS.hostWr 0 4096 (padTo 32 [] ++ List.replicate 32 0 ++ List.replicate 64 0)).hostWr 0 0
    (puntEntry 4096 64 0 (PUNTS.qTc 2048) 0 64 false false (PUNTS.frame 0))).setQueue 256
    { PUNTS.queue 256 with tail := 1, drawn := none, punting := none }
/-- Link 0 in L0. -/
def LUP : State := (ready.setLink 0 { up := true, dlActive := true, perst := false }).setL0 0 true
/-- The start of a reset of function 255. -/
def FLRU : State :=
  ((((ready.setFn 255 { resetting := some 0 }).destroyAll 255 true).abortBatches 255).maskAll 255).dropLatches 255
/-- The end of it. -/
def FRD : State := ready.setFn 255 { resetting := some 0 }
def FRDU : State := (FRD.setFn 255 {}).clearRegs (wFn 255) 0x1000 0x8000
/-- Link 0 in L0, function 0 enabled, and the message of entry 551 held and unmasked. -/
def MSIXS : State := (LUP.withAccess 0).setReg (wHif + 0x4000 + 16 * 551 + 12) 0

/-! ### Ports -/

def PPFC : Job := { mkJob 0x24 [] with entries := [entryOf 32 [(0, 1, 0x24), (4, 2, 127), (8, 1, 255), (9, 1, 255), (1, 1, 1)],
  entryOf 32 [(0, 1, 0x24), (1, 1, 2)]] }
/-- PORT_CONFIG of port 127, PORT_PREEMPT_SET and PORT_EEE_SET, and what each has written before the accounts follow. -/
def PCFG : Job := mkJob 0x20 [(4, 2, 112), (6, 2, 9216), (8, 1, 1), (9, 1, 15)]
def PCFGW : Nat :=
  let b := (readyJob PCFG).startJob PCFG
  setBits (setBits (setBits (setBits (setBits (b.reg (wPort 112)) 24 24 0) 23 23 0) 22 20 0) 19 16 15) 15 8 1
def PCFGU : State :=
  let b := (readyJob PCFG).startJob PCFG
  (((b.setReg (wPort 112) PCFGW).wr (wPort 112) Reg.PORT_FRAME_MAX_FRAME 9216).wr (wPort 112)
    Reg.PORT_MAC_ADDR_LO_MAC_ADDR 0).wr (wPort 112) Reg.PORT_MAC_ADDR_HI_MAC_ADDR 0
def PPRE : Job := mkJob 0x25 [(4, 2, 127), (6, 1, 3), (7, 1, 3), (8, 1, 128)]
def PCALU : State :=
  let j := mkJob 0x23 [(4, 2, 127), (8, 4, 262143), (12, 4, 0xFFFC0000)]
  ((((readyJob j).startJob j).setCal 127 4 262143).setCal 127 5 (-262144)).calTotals 127
def PPREU : State :=
  let b := (readyJob PPRE).startJob PPRE
  ((((b.wr (wPort 127) Reg.PORT_CFG_PREEMPT_EN 1).wr (wPort 127) Reg.PORT_PREEMPT_VERIFY_DIS 1).wr (wPort 127)
    Reg.PORT_PREEMPT_FRAG_ADD_FRAG_SIZE 3).wr (wPort 127) Reg.PORT_PREEMPT_VERIFY_TIME 128).wr (wPort 127)
    Reg.PORT_PREEMPT_EXPRESS_TC 0xC000
def PEEE : Job := mkJob 0x28 [(4, 2, 127), (8, 2, 10), (10, 2, 10)]
def PEEEU : State :=
  let b := (readyJob PEEE).startJob PEEE
  ((b.wr (wPort 127) Reg.PORT_CFG_EEE_EN 0).wr (wPort 127) Reg.PORT_EEE_LPI_TIMER 10).wr (wPort 127)
    Reg.PORT_EEE_TW_SYS_TX 10
/-- Port 127 verifying, and with a gate list whose change time has come. -/
def VERS : State := ready.wr (wPort 127) Reg.PORT_STATUS_VERIFY_STATUS 2
def GCLS : State := ready.setPort 127 { pending := some {} }
def GCLSU : State :=
  ((GCLS.setPort 127 { gcl := some {}, gclStart := 0, pending := none, entry := 0 }).wr (wPort 127)
    Reg.PORT_STATUS_GCL_ACTIVE 1).wr (wPort 127) Reg.PORT_STATUS_GCL_PENDING 0

/-- A list of two entries, the first of which holds. -/
def GCLG : Gcl := { cycle := 1000, entries := [(1, 1, 500), (2, 2, 500)] }
/-- Port 127, and recirculation port 139, sending frame 0 whole. -/
def TXES : State := (ready.setFrame 0 { bytes := List.replicate 64 0, ended := true }).setSending 127 0 (some {})
def TXRS : State := (ready.setFrame 0 { bytes := List.replicate 64 0, ended := true }).setSending 139 0 (some {})

/-- Port 127 up, receiving. -/
def RXS : State := (ready.setLink_ 127 4).setPort 127 { receiving := [(0, some {})] }
/-- Port 127 up in a domain, with frame 0 kept, and a joist frame for it. -/
def JPS : Sending := {}
def JP : State :=
  ((ready.setLink_ 127 4).wr (wPort 127) Reg.PORT_CFG_DOMAIN 1).setJport 127 { kept := [(0, JPS)] }
def RETX : List Byte := List.replicate 12 0 ++ [0x88, 0xB5, 0x40, 0x40] ++ List.replicate 44 0

/-! ### Pipelines -/

/-- Pipeline 7 with a packet granted a slot. -/
def PENT : State := ready.setPipe 7 { granted := [.packet 0], waiting := [0] }
def SWAP : Job := mkJob 0x31 [(4, 1, 128)]
def SWAPS : State := (readyJob SWAP).wr (wPipe 7) Reg.PIPE_TRUSS_STATUS_SHADOW_VALID 1
/-- MORTISE_SEARCH of three entries. -/
def MSR : Job := { mkJob 0x4B [] with q := 256, entries := [entryOf 32 [(0, 1, 0x4B), (1, 1, 1)], entryOf 32 [(0, 1, 0x4B)],
  entryOf 32 [(0, 1, 0x4B), (1, 1, 2)]] }
def MSRS : State := ready.holding MSR .search

/-- TABLE_SETUP of a profile, its image, and TABLE_LOOKUP. -/
def TSP : Job := mkJob 0x48 [(4, 1, 128), (6, 1, 15), (8, 8, 64)]
def TSPG : List Byte := List.replicate 32 0
def TLK : Job := mkJob 0x49 [(4, 1, 128)]

/-! ### Batches -/

def State.setBatchList (s : State) (l : List Batch) : State := { s with upd := { s.upd with batches := l } }
/-- BATCH_OPEN, BATCH_COMMIT and BATCH_ABORT of pipeline 7. -/
def BOP : Job := { mkJob 0x44 [(4, 1, 128)] with q := 256 }
def BOPS : State := ready.holding BOP .update
def BOPU : State :=
  (((({ BOPS.startJob BOP with upd := { batches := [{ num := 1, fn := 0, mask := 128 }], next := 2 } } : State).wr (wPipe 7)
    Reg.PIPE_UPD_STATUS_BATCH_FUNC 0).wr (wPipe 7) Reg.PIPE_UPD_STATUS_BATCH_NUM 1).wr (wPipe 7)
    Reg.PIPE_UPD_JOURNAL_JOURNAL_USED 0)
def BCO : Job := { mkJob 0x45 [(8, 2, 1)] with q := 256 }
def BCOS : State := (ready.holding BCO .update).setBatchList [{ num := 1, mask := 128 }]
def BAB : Job := { mkJob 0x46 [(8, 2, 1)] with q := 256 }
def BABS : State := (ready.holding BAB .update).setBatchList [{ num := 1, mask := 128 }]

/-! ### Requests of routines -/

def State.setRequests (s : State) (l : List Req) : State := { s with tenon := { s.tenon with reqs := l } }
def RLK : Req := { pipe := 7, engine := 63, op := .lookup 0 [], slotted := true, found := some [] }
def RMT : Req := { pipe := 7, engine := 63, op := .meter 0 64 0 false }
def RST : Req := { pipe := 7, engine := 63, op := .stRead 0 }
def RDR : Req := { pipe := 7, engine := 63, op := .dRead 0 0 }

/-! ### Microwords -/

/-- Pipeline 7 with a one-word control store, and engine 63 at that word. -/
def mcState (fields : List (Nat × Nat × Nat)) : State :=
  ready.setPipe 7 { store0 := [0, 0, 0, 0, 0, 0, 0, 0, 1] ++ List.replicate 1399 0 ++ entryOf 32 fields,
                    engines := [(63, { busy := true, limit := 4095 })] }
/-- Service engine 15 running at a one-word control store. -/
def svcWord (fields : List (Nat × Nat × Nat)) : State :=
  let s := ready.wr (wGlobal + 60) Reg.GLOBAL_SVC_STATUS_STATE 1
  { s with dev := { s.dev with svcStore := entryOf 32 fields } }
def State.mcWith (s : State) (e : Engine) : State := s.setEngine 7 63 e
/-- The state in which the word of engine 63 has its effect. -/
def State.mcIssued (s : State) : State :=
  (((s.wordSpent 7 63).endWait 7 63).setEngine 7 63
    { ((s.wordSpent 7 63).endWait 7 63).engine 7 63 with timed := false }).pcEvent (some 7) 0x03 1 (fun _ => true)
    { engine := some 63, upc := (s.engine 7 63).upc, cond := awaited (s.engine 7 63) (s.currentWord 7 63), atEnd := false }

/-- A job is taken where its checks evaluate to true. -/
theorem takes_of {s : State} {g : Gate} {j : Job}
    (h : (s.jobReady j && decide (j.opcode = g.op) && decide (s.gate g j = none)) = true) : s.takes g j (s.startJob j) := by
  simp only [Bool.and_eq_true, decide_eq_true_eq] at h
  exact ⟨h.1.1, h.1.2, h.2, rfl⟩

/-- A microword issues where its checks evaluate to true. -/
theorem issues_of {s : State} {op : Nat}
    (h : ((s.engine 7 63).busy && s.mayIssue 7 63 && !(s.engine 7 63).exhausted && !s.frameBadDue 7 63 &&
      decide ((s.currentWord 7 63).op = op ∧ op ≠ 0xFF ∧ s.blocked 7 63 (s.currentWord 7 63) = .go) &&
      (!(((s.wordSpent 7 63).endWait 7 63).engine 7 63).exhausted && (s.engine 7 63).flags.holds (s.currentWord 7 63).cond)) = true) :
    s.issues (7 : Fin 9).val (63 : Fin 64).val op (s.currentWord 7 63) s.mcIssued := by
  simp only [Bool.and_eq_true, Bool.not_eq_true', decide_eq_true_eq] at h
  obtain ⟨⟨⟨⟨⟨h1, h2⟩, h3⟩, h4⟩, h5⟩, h6⟩ := h
  exact Or.inr ⟨by decide, h1, h2, h3, h4, rfl, h5.1, h5.2.1, h5.2.2, h6.1, h6.2, rfl⟩

/-! ### Control stores -/

/-- TENON_CS_LOAD of a one-word image at host address 0, and its queue. -/
def CSL : Job := mkJob 0x38 [(4, 1, 128), (16, 4, 1440)]
def readyCsl : State :=
  let s := readyJob CSL
  (s.hostWr (s.jobLink CSL) 0 ([0x54, 0x4E, 0x4F, 0x4E, 1, 0, 0, 0, 1, 0, 0, 0] ++ leBytes 4 1440 ++ leBytes 4 454768319))
def CSW : Job := mkJob 0x39 [(4, 1, 128)]
def CSR : Job := mkJob 0x3A [(4, 1, 128), (5, 1, 1), (16, 4, 525696)]
def TSU : Job := mkJob 0x3B [(4, 1, 255), (5, 1, 16), (6, 2, 1024), (8, 8, 2147483648)]
def TSR : Job := mkJob 0x3C [(4, 1, 128), (6, 2, 16383), (16, 2, 1)]
def TSW : Job := mkJob 0x3D [(4, 1, 255), (6, 2, 16383), (16, 2, 1)]

/-- Zeros read as 0. -/
theorem leNat_zeros : ∀ n, leNat (List.replicate n 0) = 0
  | 0 => rfl
  | n + 1 => by
    rw [List.replicate_succ, leNat, leNat_zeros n]
    rfl

theorem rangeFrom_ge : ∀ {n a k : Nat}, k ∈ rangeFrom a n → a ≤ k
  | 0, _, _, h => by simp [rangeFrom] at h
  | n + 1, a, k, h => by
    simp only [rangeFrom, List.mem_cons] at h
    rcases h with rfl | h
    · exact Nat.le_refl _
    · have := rangeFrom_ge h; omega

/-- A word of an image that is zeros from byte n on. -/
theorem imW_zeros {g : List Byte} {n m a : Nat} (h : g.drop n = List.replicate m 0) (ha : n ≤ a) : imW g a = 0 := by
  have : slice g a 4 = List.replicate (min 4 (m - (a - n))) 0 := by
    unfold slice
    rw [show a = n + (a - n) by omega, ← List.drop_drop, h]
    simp
  unfold imW padTo
  rw [this]
  simp only [List.take_replicate, List.length_replicate, List.replicate_append_replicate]
  exact leNat_zeros _

/-- An image whose table and vectors are zeros passes their checks. -/
theorem csFail_zeros {g : List Byte} {m : Nat} (h : g.drop 20 = List.replicate m 0)
    (h1 : imW g 0 = 0x4E4F4E54 ∧ imH g 4 = 1 ∧ csWords g = 1 ∧ firstBad (zeroBytes g 10 2) = none ∧ imW g 12 = g.length ∧
      csLen g = g.length) (h2 : imW g 16 = csCrc g)
    (h3 : firstSome (fun k => firstBad (wordChecks g (csWords g) (1408 + 32 * k))) (rangeFrom 0 (csWords g)) = none) :
    csFail g g.length = none := by
  unfold csFail
  have hb : ∀ k, 20 ≤ k → imB g k = 0 := by
    intro k hk
    have : (g.drop 20)[k - 20]? = (List.replicate m 0)[k - 20]? := by rw [h]
    rw [List.getElem?_drop, show 20 + (k - 20) = k by omega] at this
    unfold imB
    rw [List.getD_eq_getElem?_getD, this, List.getElem?_replicate]
    split <;> rfl
  obtain ⟨e1, e2, e3, e4, e5, e6⟩ := h1
  have h1 : firstBad (csHeadChecks g g.length) = none := by
    simp only [firstBad, Option.map_eq_none_iff, List.find?_eq_none] at e4 ⊢
    intro x hx
    simp only [csHeadChecks, List.mem_append, List.mem_cons, List.not_mem_nil, or_false] at hx
    rcases hx with ((((rfl | rfl | rfl) | hx) | rfl) | hx)
    · simp [e1]
    · simp [e2]
    · simp [e3]
    · exact e4 x hx
    · simp [e5, e6]
    · simp only [zeroBytes, List.mem_map] at hx
      obtain ⟨k, hk, rfl⟩ := hx
      simp [hb k (rangeFrom_ge hk)]
  rw [h1]
  dsimp only
  rw [if_neg (by simp [h2])]
  have : firstBad ((rangeFrom 0 256).flatMap (csEntryChecks g) ++ (rangeFrom 0 32).flatMap (csVectorChecks g)) = none := by
    simp only [firstBad, Option.map_eq_none_iff, List.find?_eq_none, List.mem_append, List.mem_flatMap]
    rintro x (⟨o, -, hx⟩ | ⟨o, -, hx⟩)
    · simp only [csEntryChecks, imW_zeros h (show 20 ≤ 256 + 4 * o by omega)] at hx
      simp [bits] at hx
      rcases hx with rfl | rfl | rfl | rfl <;> simp
    · simp only [csVectorChecks, imW_zeros h (show 20 ≤ 1280 + 4 * o by omega)] at hx
      simp at hx
      rcases hx with rfl | rfl | rfl <;> simp
  rw [this]
  dsimp only
  exact h3

/-- The image of readyCsl as TENON_CS_LOAD reads it. -/
def CSLG : List Byte :=
  (readyCsl.startJob CSL).hostRd ((readyCsl.startJob CSL).jobLink CSL) (CSL.le 8 8) (min (CSL.le 16 4) 525697)
set_option maxRecDepth 40000 in
theorem csl_crc : imW CSLG 16 = csCrc CSLG := by decide +kernel
set_option maxRecDepth 40000 in
theorem csl_ok : csFail CSLG (CSL.le 16 4) = none := by
  rw [show CSL.le 16 4 = CSLG.length by decide +kernel]
  exact csFail_zeros (m := 1420) (by decide +kernel) (by decide +kernel) csl_crc (by decide +kernel)

/-! ### Egress scheduling -/

/-- ESCH_PORT_SET, ESCH_NODE_SET, ESCH_QUEUE_SET and ESCH_QUERY. -/
def EPS : Job := mkJob 0x58 [(4, 2, 140), (6, 2, 2240)]
def EQY : Job := mkJob 0x5B [(4, 1, 3), (6, 2, 140)]

/-- A frame at the head of egress queue q. -/
def headAt (q : Nat) : State :=
  (ready.setFrame 0 { bytes := List.replicate 64 0, ended := true }).setEgq q { head := [{ frame := 0, order := 0, launch := some 0 }] }
def ENS : Job := mkJob 0x59 [(4, 1, 0), (6, 2, 140), (8, 2, 1)]
def ENSS : State := (readyJob ENS).hostWr ((readyJob ENS).jobLink ENS) 0 (ready.node 0 140).bytes
def EQS : Job := mkJob 0x5A [(6, 2, 2240), (8, 4, 1)]
def EQSS : State := (readyJob EQS).hostWr ((readyJob EQS).jobLink EQS) 0 (ready.node 2 2240).bytes
/-- Node records that fit where their checks evaluate to true. -/
theorem nodesFit_of {s : State} {f kind : Nat} {recs : List (Nat × List Byte)}
    (h : (decide (∀ e ∈ recs, badNode kind e.2 = false) && !(recs.any fun e => !s.holdsPort f (s.nodePort kind e.1)) &&
      decide (∀ e ∈ recs, (parseNode e.2).parent = (s.node kind e.1).parent ∨ s.nodeBusy kind e.1 = false) &&
      (let u := forEach recs (fun e s => s.putNode kind e.1 (parseNode e.2)) (s.countMoved 30 (32 * recs.length))
       !(recs.any fun e => !u.holdsPort f (u.nodePort kind e.1)) && (u.mapsUnlisted && decide (u.esch.nodes = [])))) = true) :
    s.nodesFit f kind recs
      (forEach recs (fun e s => s.putNode kind e.1 (parseNode e.2)) (s.countMoved 30 (32 * recs.length))) := by
  simp only [Bool.and_eq_true, Bool.not_eq_true', decide_eq_true_eq] at h
  exact ⟨h.1.1.1, h.1.1.2, h.1.2, rfl, h.2.1, brokenQueues_unlisted h.2.2.1 h.2.2.2⟩

/-! ### Ridge and meters -/

/-- Port 127 with its watchdog on, and down. -/
def WDS : State := ready.wr (rportBase 127) Reg.RIDGE_PORT_A_WD_EN 1
def RPS : Job := mkJob 0x50 [(8, 2, 4096), (10, 2, 16384), (12, 2, 1000)]
def RPA : Job := mkJob 0x51 [(4, 2, 140), (6, 2, 32768), (13, 1, 1), (14, 2, 32)]
def RPO : Job := mkJob 0x52 [(4, 2, 140), (7, 1, 15), (16, 2, 4095)]
def RDS : Job := mkJob 0x53 [(4, 1, 3)]
def RSS : Job := mkJob 0x54 [(4, 1, 255), (8, 4, 16777215), (12, 1, 1), (13, 1, 131), (14, 1, 15)]
def RMS : Job := mkJob 0x55 [(8, 2, 65535), (10, 2, 1)]
def RDE : Job := mkJob 0x56 [(8, 2, 2255), (12, 4, 1), (16, 1, 7), (22, 2, 16383)]
def RQY : Job := mkJob 0x57 [(5, 1, 1), (8, 2, 65535)]
def MTS : Job := mkJob 0x5C [(8, 4, 262143), (12, 4, 1)]
def MTQ : Job := mkJob 0x5D [(8, 4, 262143)]

/-! ### Time -/

/-- THYME_ADJUST of the five kinds; a STEP above the limit. -/
def ADR : Job := mkJob 0x68 [(8, 4, 204800000)]
def ADS : Job := mkJob 0x68 [(4, 1, 1), (8, 8, 1), (16, 4, 200000)]
def ADP : Job := mkJob 0x68 [(4, 1, 2), (8, 8, 6553600)]
def ADQ : Job := mkJob 0x68 [(4, 1, 2), (8, 8, 6553601)]
def ADPN : State := { readyJob ADP with dev := { (readyJob ADP).dev with safeLine := true } }
def ADT : Job := mkJob 0x68 [(4, 1, 3), (8, 6, 2 ^ 48 - 1), (16, 4, 999999999), (20, 2, 65535)]
def ADU : Job := mkJob 0x68 [(4, 1, 4), (8, 6, 2 ^ 48 - 1)]
def PUS : Job := mkJob 0x69 [(4, 1, 7), (24, 4, 1000)]
def IOS : Job := mkJob 0x6A [(4, 1, 3), (5, 1, 3), (6, 2, 65535)]
def TPS : Job := mkJob 0x6B [(4, 2, 127), (6, 2, 65535)]
def DPS : Job := mkJob 0x6C [(8, 2, 255), (10, 2, 255), (12, 2, 255), (14, 2, 255)]
def TOS : Job := mkJob 0x6D [(16, 2, 128)]
def State.setTod (s : State) (x : TodSt) : State := { s with thyme := { s.thyme with todTx := some x } }
def State.setTodMsg (s : State) (t n : Nat) : State := { s with thyme := { s.thyme with todMsg := some (t, n) } }
def State.setQualified (s : State) (l : List Nat) : State := { s with thyme := { s.thyme with qualified := l } }
/-- 1PPS_IN with its rising edges captured. -/
def PPI : State := ready.setReg (wThyme + 0x240) 256

/-- THYME_HOLD_CTL of its operations and reports, and THYME_HOLD_QUERY. -/
def HMD : Job := mkJob 0x6E [(5, 1, 2)]
def HAC : Job := mkJob 0x6E [(4, 1, 1)]
def HLK : Job := mkJob 0x6E [(4, 1, 1), (5, 1, 1)]
def HLO : Job := mkJob 0x6E [(4, 1, 1), (5, 1, 2)]
def HCH : Job := mkJob 0x6E [(4, 1, 1), (5, 1, 3)]
def HAL : Job := mkJob 0x6E [(4, 1, 1), (5, 1, 4)]
def HFO : Job := mkJob 0x6E [(4, 1, 1), (5, 1, 5)]
def HLI : Job := mkJob 0x6E [(4, 1, 2), (8, 4, 1000000000), (12, 4, 200000), (16, 2, 65535)]
def HTL : Job := mkJob 0x6E [(4, 1, 3)]
def HQY : Job := mkJob 0x6F [(8, 8, 2 ^ 56 - 512)]
/-- LOCKED, with one adjustment in the second. -/
def HOLD2 : State :=
  let s := ready.wr wThyme Reg.THYME_HOLD_STATUS_HOLD_STATE 2
  { s with thyme := { s.thyme with accSum := 5, accN := 1 } }

/-! ### Buffer pools -/

def PGC : Job := mkJob 0x70 [(4, 1, 63), (6, 1, 16), (16, 4, 1)]
def PGD : Job := mkJob 0x71 [(4, 1, 63)]
def PGR : Job := mkJob 0x72 [(4, 1, 63), (8, 4, 1)]
def PGA : Job := mkJob 0x73 [(4, 1, 63), (8, 4, 1)]
def PGF : Job := mkJob 0x74 [(4, 1, 63), (8, 4, 1)]
def PGX : Job := mkJob 0x75 [(4, 1, 63)]
def PGQ : Job := mkJob 0x76 [(4, 1, 63)]
/-- Pool 63 of one buffer of 256 bytes at host address 0, with its account 0. -/
def State.withPool (s : State) : State :=
  ((s.setReg (poolBase 63 + 0x1000) (2 ^ 30 + 8 * 65536)).wr (poolBase 63) Reg.PEG_POOL_COUNT_COUNT 1).setReg
    (acctBase 63 0 + 0x4000) (2 ^ 31)
/-- The same with its buffer handed out. -/
def State.withBuffer (s : State) : State :=
  (s.withPool.wr (poolBase 63) Reg.PEG_POOL_FRESH_FRESH 1).wr (acctBase 63 0) Reg.PEG_ACCT_HELD_HELD 1
def State.online (s : State) : State := forEach (rangeFrom 0 4) (fun k s => s.wr (wDmc k) Reg.DMC_STATUS_STATE 2) s
def State.setAudit (s : State) (a : AuditSt) : State := { s with peg := { s.peg with audit := some a } }
def PGW : State := (ready.withPool.setPool 63 { waiting := [256] }).setQueue 256 { typ := .punt }

/-- The buffer of an answer. -/
def Taken.buf : Taken → Option (Nat × State)
  | .buffer a s => some (a, s)
  | .none _ => Option.none
  | .offline _ => Option.none
/-- An answer that has a buffer is that buffer. -/
theorem Taken.of_buf {t : Taken} (h : t.buf.isSome = true) : t = .buffer (t.buf.get h).1 (t.buf.get h).2 := by
  cases t with
  | buffer => rfl
  | none => exact absurd h (by simp [Taken.buf])
  | offline => exact absurd h (by simp [Taken.buf])

/-! ### DMA -/

/-- A descriptor of 64 bytes from host address 4096 to 8192, and one without OWN, in DMA queue 256 on channel 27. -/
def DMJ : Job :=
  { q := 256, seq := 0, sqHead := 2, entries := [entryOf 32 [(0, 1, 0x78), (1, 1, 0x81), (8, 8, 4096), (16, 3, 64), (20, 3, 1)],
                                                  entryOf 32 [(0, 1, 0x78), (1, 1, 2), (8, 8, 8192), (16, 3, 64), (20, 3, 1)]] }
def DMK : Job := { DMJ with entries := [entryOf 32 [(0, 1, 0x78), (1, 1, 1)], entryOf 32 [(0, 1, 0x78), (1, 1, 2)]] }
def onChannel (j : Job) : State :=
  ((ready.holding j .dma).setChanState 27 1).wr (chanBase 27) Reg.PURLIN_CHAN_A_Q 256
def DMS : State := onChannel DMJ
def DMT : State := onChannel DMK
def DMR : State := DMS.setChan 27 { running := some DMJ, buffer := List.replicate 64 7 }
def DCS : Job := mkJob 0x79 [(4, 1, 27), (6, 2, 65535)]
def DCP : Job := mkJob 0x7A [(4, 1, 27)]
def DCR : Job := mkJob 0x7A [(4, 1, 27), (5, 1, 1)]
def DCF : Job := mkJob 0x7A [(4, 1, 27), (5, 1, 2)]
def DCO : Job := mkJob 0x7A [(4, 1, 27), (5, 1, 3), (6, 1, 1)]
def DCQ : Job := mkJob 0x7B [(4, 1, 27)]

/-! ### DRAM -/

def State.setUp (s : State) (n : Nat) : State := { s with clock := { s.clock with up := n } }
def State.setChanging (s : State) (l : List Nat) : State := { s with dmc := { s.dmc with changing := l } }
/-- DMC_SETUP, PORT_SET, MAP_SET, FREQ_SET and RETRAIN. -/
def DM0 : Job := mkJob 0x80 [(8, 2, 65535), (10, 1, 7), (12, 2, 1), (14, 1, 255), (15, 1, 255)]
def DM1 : Job := mkJob 0x81 [(4, 1, 12), (8, 2, 65535)]
def DM2 : Job := mkJob 0x82 [(4, 1, 15), (5, 1, 15)]
def DM3 : Job := mkJob 0x83 [(4, 1, 2)]
def DM4 : Job := mkJob 0x84 [(4, 1, 15)]

/-! ### Boot and heat -/

def COLD : State := { State.reset with dev := { State.reset.dev with cold := true } }
def WARM : State := { State.reset with dev := { State.reset.dev with warmPin := true, prior := 4 } }
/-- FUSED, with the fallback copy in turn; and BOOTED. -/
def FUS : State := (State.reset.wr wGlobal Reg.GLOBAL_DEV_STATE_STATE 1).wr wBoot Reg.BOOT_STATUS_PHASE 3
def BTD : State := State.reset.wr wGlobal Reg.GLOBAL_DEV_STATE_STATE 2
/-- An evaluation whose sensors have all failed. -/
def MRD : MintReading := { sensors := List.replicate 64 none, rails := [] }
/-- CRITICAL, where the action set wants the clock low. -/
def MHOT : State := (ready.wr wMint Reg.MINT_STATUS_STATE 3).setReg (wMint + 0x160) (2 ^ 31)
def State.setAvs (s : State) (v : Nat) : State := { s with dev := { s.dev with avsPending := some v } }
def State.setTrip (s : State) : State := { s with dev := { s.dev with thermtrip := true } }
def MI0 : Job := mkJob 0x88 [(8, 2, 4800), (10, 1, 16), (14, 1, 15), (16, 1, 148), (17, 1, 149), (18, 1, 150), (19, 1, 124), (20, 1, 125)]
def MI1 : Job := mkJob 0x89 [(4, 1, 3)]
def MI2 : Job := mkJob 0x8A []
def MI3 : Job := mkJob 0x8B [(4, 1, 3)]
def MI4 : Job := mkJob 0x8C []

/-! ### Gauge and Scribe -/

def GA0 : Job := mkJob 0x90 [(4, 2, 511), (6, 1, 15), (8, 4, 5), (12, 4, 0x1FF), (16, 6, 2 ^ 48 - 1)]
def GA1 : Job := mkJob 0x90 [(4, 2, 575)]
def GA2 : Job := mkJob 0x91 [(4, 2, 511)]
def GA3 : Job := mkJob 0x92 [(4, 2, 127), (8, 4, 1000000)]
def GA4 : Job := mkJob 0x93 [(4, 2, 10000), (6, 1, 64), (8, 8, 2 ^ 40)]
def GA5 : Job := mkJob 0x94 [(4, 1, 7), (8, 4, 4096)]
def State.setDump (s : State) (d : Option Dump) : State := { s with gauge := { s.gauge with dumping := d } }
def GD0 : Dump := { seq := 1, skipped := 0, addr := 0, mask := 2 ^ 511 }
/-- A state whose dumps are due every millisecond, with v13 on service engine 15. -/
def GDUE : State :=
  (((ready.wr wGauge Reg.GAUGE_DUMP_PERIOD_MS 1).wr wGauge Reg.GAUGE_DUMP_BUFFERS 64).wr (wGlobal + 60)
    Reg.GLOBAL_SVC_STATUS_STATE 1).wr (wGlobal + 60) Reg.GLOBAL_SVC_STATUS_DUTY 13
/-- A state whose service engine 15 runs duty d. -/
def State.running15 (s : State) (d : Nat) : State :=
  (s.wr (wGlobal + 60) Reg.GLOBAL_SVC_STATUS_STATE 1).wr (wGlobal + 60) Reg.GLOBAL_SVC_STATUS_DUTY d
def RC0 : Rec := { seq := 2, code := 0, source := 0, firmware := false, p0 := 0, p1 := 0, p2 := 0 }
def SC0 : Job := mkJob 0x98 [(4, 1, 8), (8, 4, 2046), (12, 4, 2)]
def SC1 : Job := mkJob 0x99 [(4, 1, 8), (5, 1, 1)]
def SC2 : Job := mkJob 0x99 [(5, 1, 1), (8, 4, 1)]
def SC3 : Job := mkJob 0x9A [(4, 1, 40), (8, 2, 65535)]
def SC4 : Job := mkJob 0x9B [(4, 1, 8), (6, 2, 65535)]
def SC5 : Job := mkJob 0x9B [(4, 1, 8), (6, 2, 1)]
def SC6 : Job := mkJob 0x9C [(4, 1, 8), (8, 4, 2048)]

/-! ### Faults and debug -/

def SAFL : State := { ready with dev := { ready.dev with safeLine := true } }
def State.secWait (s : State) : State :=
  ({ s with dev := { s.dev with sec := { s.dev.sec with nonce := some [1] },
                                fuses := { s.dev.fuses with ownerHash := Config.sha384 (List.replicate 97 0) } } }).wr wSec
    Reg.SEC_STATUS_LIFECYCLE 1
def State.setHalted (s : State) (l : List Nat) : State := { s with dev := { s.dev with halted := l } }
def SE0 : Job := mkJob 0xA0 [(8, 4, 2 ^ 32 - 1)]
def SE1 : Job := mkJob 0xA1 []
def SE2 : Job := mkJob 0xA2 []
def SE3 : Job := mkJob 0xA3 []
def SE4 : Job := mkJob 0xA4 [(8, 4, 0x4C4F434B)]
def SE5 : Job := mkJob 0xA5 [(5, 1, 3)]
def SE6 : Job := mkJob 0xA5 [(4, 1, 1), (8, 4, 2 ^ 32 - 1)]
def SE7 : Job := mkJob 0xA6 []

/-- READY with a queue in place that takes doorbells. -/
def readyDb : State := readyFn.setQueue 0 { st := .active, size := 16, csize := 16 }

/-! ### Pauses, tables, batches and engines -/

/-- A frame of port 127 to be sent again. -/
def RSND : State := (ready.setLink_ 127 4).setJport 127 { resend := [(0, JPS)] }
/-- A graph load of pipeline 7, and TRUSS_GRAPH_READ of its shadow. -/
def GLD : State :=
  (ready.setPipe 7 { load := some { job := mkJob 0x30 [], mask := 128 } }).wr (wPipe 7) Reg.PIPE_TRUSS_STATUS_LOAD_BUSY 1
def TGR : Job := mkJob 0x32 [(4, 1, 128), (5, 1, 1)]
def MPS : Job := mkJob 0x4C [(4, 1, 128), (5, 1, 15)]
/-- Port 127 up under priority flow control, with class 15 of priority 7 in XOFF. -/
def PFCS : State :=
  (((((ready.setLink_ 127 4).wr (wPort 127) Reg.PORT_CFG_PAUSE_MODE 2).wr (wPort 127) (Reg.PORT_PFC_MAP_TC 15) 7).wr
    (pairBase 127 15) Reg.RIDGE_PAIR_CTL_XOFF 1).wr (wPort 127 + 28) Reg.PORT_PFC_QUANTA_QUANTA 1).setPort 127
      { sentXoff := 128, refresh := 128 }
/-- QUEUE_CREATE of a PUNT queue over pool 0. -/
def MKP : Job := mkJob 0x01 [(4, 1, 2), (6, 2, 2), (8, 8, 256), (16, 4, 16), (20, 2, 65535)]
def MKPS : State := (readyJob MKP).wr (poolBase 0) Reg.PEG_POOL_A_STATE 1
/-- A new account is the first one not in use. -/
theorem acctMake_new {s : State} {x c a : Nat} (h1 : s.acctOf x c = none)
    (h2 : accounts.find? (fun a => !s.acctUsed x a) = some a) :
    s.acctMake x c = some (a, (s.wr (acctBase x a) Reg.PEG_ACCT_IN_USE 1).wr (acctBase x a) Reg.PEG_ACCT_CLAIMANT c) := by
  unfold State.acctMake
  rw [h1, h2]
  rfl
/-- A learn record that waits to be posted to EVENT queue 256. -/
def LNP : State :=
  (ready.setPipe 7 { posts := [(0, [])] }).setQueue 256 { CQ1 with typ := .event } |>.wr (tenantBase 7 0)
    Reg.PIPE_TENANT_A_EVENT_Q 1
def WIND : State := ready.setPipe 7 { engines := [(63, { busy := true, wait := 7 })] }
def FBAD : State := (ready.setFrame 0 { bad := 1 }).setPipe 7 { engines := [(63, { busy := true })] }
def DISP : State := (ready.setPipe 7 { packets := [{ stage := 2 }] }).wr (wPipe 7) Reg.PIPE_TENON_STATUS_ACTIVE_VALID 1
def RCL : Req := { pipe := 7, engine := 63, op := .cells 3 }
def CELS : State := ready.setRequests [RCL]
/-- Pipeline 7 draining, and a batch of it whose drain has ended. -/
def DRN : State := ready.wr (wPipe 7) Reg.PIPE_UPD_STATUS_GROUP_STATE 3
def BDE : State := (ready.setBatchList [{ num := 1, mask := 128, st := 3 }]).setPipe 7 { flipped := some 0 }
def State.setEmSteps (s : State) (l : List EmStep) : State := { s with em := { s.em with steps := l } }
/-- A move from position a to position b whose first write has landed. -/
def State.setEmMoved (s : State) (a b : Nat) : State := { s with em := { s.em with steps := [.moved a b], waitFor := some [] } }
/-- A bucket whose spill counter has stopped at 15. -/
def SPL : State := ready.dramWr (emAddr 0 + 21) [0xF0]
/-- An exact-match record, and a packet that waits for its bucket. -/
def EMR : List Byte := putBytes (List.replicate 32 0) 21 [3]
def EMS : State :=
  (ready.dramWr (emAddr (ready.emB1 (emKey EMR))) EMR).setPipe 7 { packets := [{ em := some { key := emKey EMR } }] }

/-- An exact-match move from position 0 to position 1 whose first write has landed. -/
def EMVS : State := ((ready.online.dramWr (emAddr 0) EMR).dramWr (emAddr 0 + 32) EMR).setEmMoved 0 1

/-! ### Updates -/

/-- What a plan gives, and that a plan made is that. -/
def planOf (e : Except Nat Plan) : Plan := match e with
  | .ok a => a
  | .error _ => {}
theorem planOf_ok {e : Except Nat Plan} (h : e.isOk = true) : e = .ok (planOf e) := by
  cases e with
  | ok => rfl
  | error => cases h
/-- An update job in UPDATE queue 256 of n entries. -/
def updJob (n : Nat) (fields : List (Nat × Nat × Nat)) : Job :=
  let op := (fields.headD (0, 0, 0)).2.2
  { q := 256, seq := 0, sqHead := 1, entries := entryOf 32 ((1, 1, if n = 1 then 3 else 1) :: fields) ::
      (rangeFrom 2 (n - 1)).map (fun k => entryOf 32 [(0, 1, op), (1, 1, if k = n then 2 else 0)]) }
/-- UPD_INSERT, MODIFY and DELETE of next hop 131071 in pipeline 7, and UPD_MOVE of entry 0 of its search array. -/
def UIN : Job := updJob 3 [(0, 1, 0x40), (4, 1, 128), (5, 1, 4), (12, 4, 131071)]
def UMD : Job := updJob 3 [(0, 1, 0x41), (4, 1, 128), (5, 1, 4), (12, 4, 131071)]
def UDL : Job := updJob 3 [(0, 1, 0x42), (4, 1, 128), (5, 1, 4), (12, 4, 131071)]
def UMV : Job := updJob 1 [(0, 1, 0x43), (4, 1, 128), (16, 4, 1)]
def State.withHop (s : State) : State := s.setPipe 7 { s.pipe 7 with nexthop := [(131071, putBytes (List.replicate 32 0) 0 [0x18])] }
def State.withEntry (s : State) : State :=
  ((s.setPipe 7 { s.pipe 7 with array := [(0, putBytes (List.replicate 176 0) 162 [3])] }).wr (wPipe 7)
    Reg.PIPE_MORTISE_RANGE_A_BLOCKS 1)
def UINS : State := ready.holding UIN .update
def UMDS : State := (ready.holding UMD .update).withHop
def UDLS : State := (ready.holding UDL .update).withHop
def UMVS : State := (ready.holding UMV .update).withEntry
/-- The same updates of the learning table. -/
def UINL : Job := updJob 2 [(0, 1, 0x40), (4, 1, 128), (5, 1, 1)]
def UMDL : Job := updJob 2 [(0, 1, 0x41), (4, 1, 128), (5, 1, 1)]
def UDLL : Job := updJob 2 [(0, 1, 0x42), (4, 1, 128), (5, 1, 1)]
def UINSL : State := ready.holding UINL .update
def UMDSL : State := ready.holding UMDL .update
def UDLSL : State := ready.holding UDLL .update
def planFor (s : State) (j : Job) : Plan :=
  planOf (s.planAll (updCmd s j) ((updScopes (updCmd s j).table (updCmd s j).mask).getD []))

/-! ### A parse graph -/

/-- TRUSS_GRAPH_LOAD of a one-node graph at host address 0, and its queue. -/
def TGL : Job := mkJob 0x30 [(4, 1, 128), (16, 4, 272)]
def TGG : List Byte :=
  entryOf 272 ([(0, 4, 0x54535254), (4, 2, 1), (8, 2, 1), (20, 4, 272), (24, 4, 4179905261), (129, 1, 1)] ++
    (rangeFrom 0 16).map (fun k => (65 + 4 * k, 1, 1)))
def TGLS : State := (readyJob TGL).hostWr ((readyJob TGL).jobLink TGL) 0 TGG

/-! ### General statements -/

/-- The fields of a MOV, and of one whose predicate is false; the low half of the owner's admin ring base held; PORT_EEE_SET
and PORT_EXPRESS_SET of port 127. -/
def MCW : List (Nat × Nat × Nat) := [(0, 1, 1)]
def MCP : List (Nat × Nat × Nat) := [(0, 1, 1), (2, 2, 960)]
def HLD : State := { readyFn with host := { readyFn.host with heldLo := [(0x12000, some 0xFFFFFFFF)] } }
def EXE : Job := mkJob 0x28 [(4, 2, 127), (6, 1, 1)]
def EXX : Job := mkJob 0x29 [(4, 2, 127), (6, 1, 1)]

/-! ### The oscillator's temperature -/

/-- A conversion of 6.5535 V is out of range, one of 0.5 V in range, whatever the error drawn. -/
theorem tsense_far (s : State) : (s.tsenseRead 65535).1 < -640 ∨ 1760 < (s.tsenseRead 65535).1 := by
  refine Or.inr ?_
  show (1760 : Int) < 9683 + ((_ % _ : Nat) : Int)
  omega
theorem tsense_zero (s : State) : -640 ≤ (s.tsenseRead 5000).1 ∧ (s.tsenseRead 5000).1 ≤ 1760 := by
  show (-640 : Int) ≤ -3 + ((_ % 7 : Nat) : Int) ∧ (-3 : Int) + ((_ % 7 : Nat) : Int) ≤ 1760
  omega

end Sys2Proof.Machine
end

