-- ==== Sys2Proof/WellFormed.lean ====
section
/-!
DEFINITION. Which commands are well formed: the framing and opcode of a job, and the lengths that an operand must have.
-/
namespace Sys2Proof

/-- Byte k of a job's first entry. -/
def Job.headByte (j : Job) (k : Nat) : Nat := ((j.entries.headD []).getD k 0).toNat

/-- One entry of a chain: 32 bytes, the opcode, and its FIRST and LAST bits (R437, R439). -/
def entryFramed (op : Nat) (first last : Bool) (e : List Byte) : Bool :=
  decide (e.length = 32 ∧ (e.getD 0 0).toNat = op) && ((e.getD 1 0).toNat.testBit 0 == first) &&
    ((e.getD 1 0).toNat.testBit 1 == last)

/-- The entries of a chain after its first. -/
def restFramed (op : Nat) : List (List Byte) → Bool
  | [] => true
  | [e] => entryFramed op false true e
  | e :: t => entryFramed op false false e && restFramed op t

/-- A job of one entry, or a chain of up to 64, each with the same opcode (R437, R439). -/
def Job.framed (j : Job) (op : Nat) : Bool :=
  match j.entries with
  | [] => false
  | [e] => entryFramed op true true e
  | e :: t => entryFramed op true false e && restFramed op t && decide (t.length ≤ 63)

/-- A response of R617 has a key of 97 bytes and a signature of 96. -/
def SecReq.wellFormed : SecReq → Bool
  | .challenge => true
  | .response _ key sig => decide (key.length = 97 ∧ sig.length = 96)

/-- Whether a command's operands have the form that its row needs. -/
def Instr.wellFormed : Instr → Bool
  | .registerWrite _ _ off _ => decide (off.toNat % 4 = 0)
  | .misalignedAccess _ _ _ off len => !decide (len.toNat = 4 ∧ off.toNat % 4 = 0)
  | .pairLoRead _ _ off => decide (off.toNat % 4 = 0)
  | .pairHiRead _ _ off => decide (off.toNat % 4 = 0)
  | .pairLoWrite _ off _ => decide (off.toNat % 4 = 0)
  | .pairHiWrite _ off _ => decide (off.toNat % 4 = 0)
  | .nowNsRead _ => true
  | .todRxRead _ => true
  | .ovfClear _ _ => true
  | .stepFlagClear => true
  | .faultStatusClear _ _ => true
  | .faultFirstClear _ => true
  | .faultMaskWrite _ _ => true
  | .faultSevWrite _ _ _ => true
  | .faultInjectWrite _ _ => true
  | .dupInjectWrite _ => true
  | .safeCauseClear => true
  | .warmResetKeyWrite _ => true
  | .adminCtlEnable _ => true
  | .adminCtlDisable _ => true
  | .sqTailDoorbell _ _ _ => true
  | .cqHeadDoorbell _ _ _ => true
  | .jobFetch => true
  | .undefinedOpcodeJob j => j.framed (j.headByte 0)
  | .completionWrite _ => true
  | .noticePost _ => true
  | .coalesceTimerExpiry _ => true
  | .queueStopDone _ => true
  | .queueCreate j => j.framed 0x01
  | .queueDestroy j => j.framed 0x02
  | .queueQuery j => j.framed 0x03
  | .queueCoalesce j => j.framed 0x04
  | .echo j => j.framed 0x13
  | .injectFrame j => j.framed 0x0A
  | .puntFrameWrite _ => true
  | .eventRecordPost _ r => decide (r.length = 32)
  | .assignResources j => j.framed 0x10
  | .resourceQuery j => j.framed 0x11
  | .hifSetup j => j.framed 0x12
  | .pcieLinkUp _ _ _ _ => true
  | .linkRecovery _ _ => true
  | .retryUsExpiry _ => true
  | .pcieHotReset _ _ => true
  | .functionLevelReset _ => true
  | .functionResetDone _ => true
  | .mmioRequest _ _ => true
  | .completionArrival _ _ => true
  | .cplTimerExpiry _ _ _ _ => true
  | .msixPendingSend _ _ => true
  | .portConfig j => j.framed 0x20
  | .portEnable j => j.framed 0x21
  | .portQuery j => j.framed 0x22
  | .portCal j => j.framed 0x23
  | .portPfcSet j => j.framed 0x24
  | .portPreemptSet j => j.framed 0x25
  | .portGclLoad j => j.framed 0x26
  | .portGclQuery j => j.framed 0x27
  | .portEeeSet j => j.framed 0x28
  | .portExpressSet j => j.framed 0x29
  | .portDomainSet j => j.framed 0x2A
  | .anResolved _ _ _ _ => true
  | .anTimerExpiry _ => true
  | .trainingReceiverReady _ => true
  | .ltMaxWaitExpiry _ _ => true
  | .alignmentAchieved _ => true
  | .linkLoss _ _ => true
  | .varMeasured _ _ _ => true
  | .lpiTimerExpiry _ => true
  | .twSysTxExpiry _ => true
  | .pfcFrameSend _ => true
  | .pfcRefreshExpiry _ _ => true
  | .rxPfcFrame _ _ times => decide (times.length = 8)
  | .rxPauseFrame _ _ => true
  | .rxMacControlFrame _ => true
  | .rxPauseTimerExpiry _ _ => true
  | .verifyTimeExpiry _ => true
  | .verifySucceeded _ _ => true
  | .gclChangeTime _ => true
  | .gclEntryBoundary _ => true
  | .rxFrame _ _ total bytes last _ _ _ _ _ svc =>
    decide (bytes.length ≤ total.toNat ∧ (last = true ∨ 28 ≤ bytes.length)) || svc.isSome
  | .slotGrant _ _ _ => true
  | .packetEntry _ _ _ => true
  | .parseResultDelivery _ => true
  | .trussGraphLoad j => j.framed 0x30
  | .trussShadowWritten _ => true
  | .trussGraphSwap j => j.framed 0x31
  | .trussDrainEnd _ => true
  | .trussGraphRead j => j.framed 0x32
  | .mortiseSearch j => j.framed 0x4B
  | .mortiseSearchResult _ => true
  | .floorCreditEarn _ => true
  | .mortiseProfileSet j => j.framed 0x4C
  | .mortisePortSet j => j.framed 0x4D
  | .mortiseRead j => j.framed 0x4E
  | .mortiseScrubSet j => j.framed 0x4F
  | .scrubPeriodExpiry _ => true
  | .scrubCheck _ _ => true
  | .emBucketReadReturn _ _ _ => true
  | .lookupResultsReady _ _ => true
  | .learnApply _ => true
  | .noticeApply _ => true
  | .learnMoveDelete _ => true
  | .learnNoticePost _ => true
  | .ageTick _ => true
  | .ageingVisit _ _ => true
  | .refreshNoticeApply _ => true
  | .spillCntRecount _ => true
  | .emMoveRemove => true
  | .tableSetupProfile j => j.framed 0x48 && decide (j.headByte 5 = 0 ∨ 5 < j.headByte 5)
  | .tableSetupPort j => j.framed 0x48 && decide (j.headByte 5 = 1)
  | .tableSetupLearnAge j => j.framed 0x48 && decide (j.headByte 5 = 2)
  | .tableSetupLearnSeeds j => j.framed 0x48 && decide (j.headByte 5 = 3)
  | .tableSetupEmSeeds j => j.framed 0x48 && decide (j.headByte 5 = 4)
  | .tableSetupEventQ j => j.framed 0x48 && decide (j.headByte 5 = 5)
  | .tableLookup j => j.framed 0x49
  | .tableDump j => j.framed 0x4A
  | .updInsert j => j.framed 0x40
  | .updModify j => j.framed 0x41
  | .updDelete j => j.framed 0x42
  | .updMove j => j.framed 0x43
  | .batchOpen j => j.framed 0x44
  | .batchCommit j => j.framed 0x45
  | .batchAbort j => j.framed 0x46
  | .updateSetup j => j.framed 0x47
  | .tableWriteLand _ => true
  | .stealWaitExpiry _ _ => true
  | .stealGapExpiry _ => true
  | .batchDrainStart _ => true
  | .groupParityFlip _ => true
  | .batchDrainEnd _ => true
  | .normalisationWrite _ => true
  | .abortUndoDone _ => true
  | .drainWarnExpiry _ => true
  | .tenonDispatch _ => true
  | .nop _ _ => true
  | .mov _ _ => true
  | .add _ _ => true
  | .sub _ _ => true
  | .and _ _ => true
  | .or _ _ => true
  | .xor _ _ => true
  | .shl _ _ => true
  | .shr _ _ => true
  | .sar _ _ => true
  | .rol _ _ => true
  | .mul _ _ => true
  | .cmp _ _ => true
  | .tst _ _ => true
  | .ext _ _ => true
  | .ins _ _ => true
  | .crc _ _ => true
  | .csum _ _ => true
  | .ld _ _ => true
  | .st _ _ => true
  | .movb _ _ => true
  | .srd _ _ => true
  | .swr _ _ => true
  | .sadd _ _ => true
  | .scas _ _ => true
  | .drd _ _ => true
  | .dwr _ _ => true
  | .lkp _ _ => true
  | .mtr _ _ => true
  | .clone _ _ => true
  | .br _ _ => true
  | .brr _ _ => true
  | .call _ _ => true
  | .endFrame _ _ => true
  | .rtn _ _ => true
  | .time _ _ => true
  | .lookupComplete _ _ _ => true
  | .meterVerdict => true
  | .cellsReserved _ _ => true
  | .stateAccessComplete _ _ => true
  | .dramAccessComplete _ _ _ => true
  | .waitTimerExpiry _ _ => true
  | .windowByteArrival _ _ => true
  | .routineLimitReached _ _ => true
  | .frameBadInterrupt _ _ => true
  | .enginePark _ _ => true
  | .engineUnpark _ _ => true
  | .tenonCsLoad j => j.framed 0x38
  | .tenonShadowWritten _ => true
  | .tenonCsSwap j => j.framed 0x39
  | .tenonDrainEnd _ => true
  | .tenonCsRead j => j.framed 0x3A
  | .tenonSetup j => j.framed 0x3B
  | .tenonStateRead j => j.framed 0x3C
  | .tenonStateWrite j => j.framed 0x3D
  | .csScrubPass _ _ => true
  | .svcHeartbeat _ => true
  | .svcHeartbeatTimeout _ => true
  | .eschDecision _ _ => true
  | .txFrameStart _ _ => true
  | .txFrameEnd _ _ => true
  | .launchTimeArrival _ => true
  | .wdExpiry _ _ => true
  | .wdRestoreExpiry _ _ => true
  | .mcastHoldExpiry _ _ => true
  | .spillWriteConfirm _ => true
  | .refillReadReturn _ _ => true
  | .cellAudit _ _ _ => true
  | .ridgePoolSet j => j.framed 0x50
  | .ridgePairSet j => j.framed 0x51
  | .ridgePortSet j => j.framed 0x52
  | .ridgeDscpSet j => j.framed 0x53
  | .ridgeSamplerSet j => j.framed 0x54
  | .ridgeMcastSet j => j.framed 0x55
  | .ridgeDeepSet j => j.framed 0x56
  | .ridgeQuery j => j.framed 0x57
  | .eschPortSet j => j.framed 0x58
  | .eschNodeSet j => j.framed 0x59
  | .eschQueueSet j => j.framed 0x5A
  | .eschQuery j => j.framed 0x5B
  | .meterSet j => j.framed 0x5C
  | .meterQuery j => j.framed 0x5D
  | .rxRetxFrame _ bytes _ => decide (28 ≤ bytes.length)
  | .rxAck _ _ => true
  | .rxNak _ _ => true
  | .rxResync _ _ => true
  | .retxTimeoutExpiry _ _ => true
  | .joistSetup j => j.framed 0x60
  | .joistRouteSet j => j.framed 0x61
  | .joistRouteQuery j => j.framed 0x62
  | .joistPortQuery j => j.framed 0x63
  | .timeBusBroadcast => true
  | .thymeAdjustRate j => j.framed 0x68 && decide (j.headByte 4 = 0 ∨ 4 < j.headByte 4)
  | .thymeAdjustSlew j => j.framed 0x68 && decide (j.headByte 4 = 1)
  | .thymeAdjustStep j => j.framed 0x68 && decide (j.headByte 4 = 2)
  | .thymeAdjustSet j => j.framed 0x68 && decide (j.headByte 4 = 3)
  | .thymeAdjustSetAtPps j => j.framed 0x68 && decide (j.headByte 4 = 4)
  | .thymePulseSet j => j.framed 0x69
  | .thymeIoSet j => j.framed 0x6A
  | .thymePortSet j => j.framed 0x6B
  | .thymeDpllSet j => j.framed 0x6C
  | .thymeTodSend j => j.framed 0x6D
  | .todTransmitStart => true
  | .todTransmitDone => true
  | .pulseEdge _ => true
  | .ppsOutEdge => true
  | .captureEdge _ _ => true
  | .ppsInEdge _ => true
  | .ppsInTimeout => true
  | .todRxByte _ => true
  | .todRxIdle => true
  | .ref10mPresenceChange _ _ => true
  | .candidateDisqualified _ => true
  | .wtrExpiry _ _ => true
  | .dpllLockAchieved _ => true
  | .holdCtlMode j => j.framed 0x6E && decide (j.headByte 4 = 0 ∨ 3 < j.headByte 4)
  | .reportAcquire j => j.framed 0x6E && decide (j.headByte 4 = 1 ∧ (j.headByte 5 = 0 ∨ 5 < j.headByte 5))
  | .reportLocked j => j.framed 0x6E && decide (j.headByte 4 = 1 ∧ j.headByte 5 = 1)
  | .reportLost j => j.framed 0x6E && decide (j.headByte 4 = 1 ∧ j.headByte 5 = 2)
  | .reportChange j => j.framed 0x6E && decide (j.headByte 4 = 1 ∧ j.headByte 5 = 3)
  | .reportAlive j => j.framed 0x6E && decide (j.headByte 4 = 1 ∧ j.headByte 5 = 4)
  | .reportForget j => j.framed 0x6E && decide (j.headByte 4 = 1 ∧ j.headByte 5 = 5)
  | .holdCtlLimits j => j.framed 0x6E && decide (j.headByte 4 = 2)
  | .holdCtlTableLoad j => j.framed 0x6E && decide (j.headByte 4 = 3)
  | .thymeHoldQuery j => j.framed 0x6F
  | .masterTimerExpiry => true
  | .holdSecond => true
  | .tsenseSample _ => true
  | .pegPoolCreate j => j.framed 0x70
  | .pegPoolDestroy j => j.framed 0x71
  | .pegReserve j => j.framed 0x72
  | .pegAlloc j => j.framed 0x73
  | .pegFree j => j.framed 0x74
  | .pegAudit j => j.framed 0x75
  | .pegAuditDone => true
  | .pegQuery j => j.framed 0x76
  | .puntBufferGrant _ => true
  | .dmaCopy j => j.framed 0x78
  | .dmaJobComplete _ => true
  | .dmaBeatFailure _ _ _ _ => true
  | .lateError _ _ => true
  | .purlinChannelSet j => j.framed 0x79
  | .channelStop j => j.framed 0x7A && decide (j.headByte 5 = 0 ∨ 3 < j.headByte 5)
  | .channelStopped _ => true
  | .channelResume j => j.framed 0x7A && decide (j.headByte 5 = 1)
  | .channelFlush j => j.framed 0x7A && decide (j.headByte 5 = 2)
  | .channelPolicy j => j.framed 0x7A && decide (j.headByte 5 = 3)
  | .purlinQuery j => j.framed 0x7B
  | .dmcRequestArrival _ _ _ _ => true
  | .dmcCommandIssue _ _ => true
  | .dmcReadReturn _ _ _ => true
  | .crcError _ _ => true
  | .refreshDue _ _ => true
  | .dmcTempSample _ _ => true
  | .pdTimerExpiry _ _ => true
  | .patrolScrubPass _ _ _ => true
  | .retrainRoundDue => true
  | .retrainStepStart _ => true
  | .retrainStepDone _ _ _ => true
  | .stackFreqChangeStart _ => true
  | .stackFreqChangeDone _ => true
  | .stackHotExit _ => true
  | .bootTrainingDone _ => true
  | .dmcSetup j => j.framed 0x80
  | .dmcPortSet j => j.framed 0x81
  | .dmcMapSet j => j.framed 0x82
  | .dmcFreqSet j => j.framed 0x83
  | .dmcRetrain j => j.framed 0x84
  | .mintEvaluate r => decide (r.sensors.length = 64 ∧ r.rails.length = 8)
  | .clockSwitch => true
  | .avsSetpointAck => true
  | .avsAckTimeout => true
  | .thermtripAssert => true
  | .thermtripLatchClear => true
  | .mintSetup j => j.framed 0x88
  | .mintActSet j => j.framed 0x89
  | .mintFloorSet j => j.framed 0x8A
  | .mintHold j => j.framed 0x8B
  | .mintQuery j => j.framed 0x8C
  | .bwSubwindowEnd _ => true
  | .gaugeDumpDue => true
  | .gaugeDumpDone _ => true
  | .gaugePcSet j => j.framed 0x90
  | .gaugeClear j => j.framed 0x91
  | .gaugeBwSet j => j.framed 0x92
  | .gaugeDumpSet j => j.framed 0x93
  | .gaugeSampleRead j => j.framed 0x94
  | .scribeEventArrival _ _ _ _ _ _ => true
  | .scribeRateSecond => true
  | .scribeMirrorRepost _ => true
  | .scribeRead j => j.framed 0x98
  | .scribeClear j => j.framed 0x99
  | .scribeRateSet j => j.framed 0x9A
  | .scribeMirrorSet j => j.framed 0x9B
  | .scribeSetup j => j.framed 0x9C
  | .faultOccurrence _ _ _ _ _ => true
  | .faultCopyMiscompare _ => true
  | .safeReached => true
  | .faultFnMask j => j.framed 0xA0
  | .safeEnter j => j.framed 0xA1
  | .secChallenge j => j.framed 0xA2
  | .secResponse j => j.framed 0xA3
  | .jtagSecResponse x => x.wellFormed
  | .nonceExpiry => true
  | .secLock j => j.framed 0xA4
  | .secFuseRevoke j => j.framed 0xA5 && decide (j.headByte 4 ≠ 1)
  | .secFuseFloor j => j.framed 0xA5 && decide (j.headByte 4 = 1)
  | .secQuery j => j.framed 0xA6
  | .porNAssert => true
  | .porNRelease _ _ _ _ _ => true
  | .warmRstNAssert => true
  | .warmRstNRelease => true
  | .perstNAssert _ => true
  | .perstNRelease _ => true
  | .flashCopyChecked _ _ => true
  | .memInitDone => true
  | .serdesCalibDone _ => true
  | .emClearDone => true
  | .smbRegAddr _ _ _ => true
  | .smbRegRead _ => true
  | .smbDevVectors _ => true
  | .smbWarmReset _ _ _ => true
  | .lowPowerIdleReceived _ _ => true
  | .candidateQualified _ _ => true
  | .thymePllLock => true
  | .jtagDebugAccess _ => true

end Sys2Proof
end

