-- ==== Sys2Proof/Tests/Slice0.lean ====
section
/-!
SUPPORT. Tests of single commands against the spec, commands that the well-formedness check refuses, and, for every
statement with hypotheses, a state and operands that meet them all.
-/
namespace Sys2Proof.Machine

set_option maxRecDepth 40000
set_option Elab.async false

/-! ### Single commands and operations, with results from the spec -/

/-- The worked example of R277: 335 cells for port 40. -/
theorem test_headroom_example :
    ((((ready.wr (wPort 40) Reg.PORT_CFG_MODE 5).wr (wPort 40) Reg.PORT_FRAME_MAX_FRAME 9216).wr (rportBase 40)
      Reg.RIDGE_PORT_D_CABLE_M 30).wr (rportBase 40) Reg.RIDGE_PORT_E_PEER_NS 500).headroom 40 = 335 := by
  decide +kernel
/-- Sums wrap, with C the carry and Z the zero (R251). -/
theorem test_add_wraps : (addFlags {} (BitVec.allOnes 64) 1).1 = 0 ∧ (addFlags {} (BitVec.allOnes 64) 1).2.c = true ∧
    (addFlags {} (BitVec.allOnes 64) 1).2.z = true ∧ (addFlags {} (BitVec.allOnes 64) 1).2.v = false := by decide
/-- 2 ^ 63 - 1 + 1 overflows (R251). -/
theorem test_add_overflows : (addFlags {} 0x7FFFFFFFFFFFFFFF 1).2.v = true ∧
    (addFlags {} 0x7FFFFFFFFFFFFFFF 1).2.n = true ∧ (addFlags {} 0x7FFFFFFFFFFFFFFF 1).2.c = false := by decide
/-- C is 1 when no borrow occurred (R251). -/
theorem test_sub_borrows : (subFlags {} 0 1).2.c = false ∧ (subFlags {} 1 1).2.c = true ∧ (subFlags {} 1 1).2.z = true := by
  decide
/-- The check value of CRC-32 over the digits 1 to 9. -/
theorem test_crc32_check : crc32 ((rangeFrom 49 9).map (BitVec.ofNat 8)) = 0xCBF43926 := by decide +kernel
/-- Bytes are little-endian (R8). -/
theorem test_little_endian : leBytes 4 0x47554147 = [0x47, 0x41, 0x55, 0x47] := by decide
/-- The latch of a pair reads 0 before any read of a low half (R10). -/
theorem test_latch_at_reset : State.reset.latched 0 0 = 0 := by decide
/-- ECHO completes with SUCCESS (R467). -/
theorem test_echo_completes : ∃ t, exec (.echo (mkJob 0x13 [])) (readyJob (mkJob 0x13 [])) = .next t ∧
    (t.host.done.map (fun d => d.status)) = [0] := ⟨_, rfl, by decide +kernel⟩
/-- SAFE_ENTER raises the line, with SAFE_KIND 2 (R609). -/
theorem test_safe_enter : ∃ t, exec (.safeEnter SE1) (readyJob SE1) = .next t ∧ t.dev.safeLine = true ∧
    t.rd wGlobal Reg.GLOBAL_SAFE_CAUSE_SAFE_KIND = 2 := ⟨_, rfl, by decide +kernel⟩
/-- A command of another function than the owner's is refused with NOT_OWNER (R618). -/
theorem test_not_owner :
    ∃ t, exec (.safeEnter SE1) ((readyJob SE1).setQueue 0 { (readyJob SE1).queue 0 with fn := 4 }) = .next t ∧
    (t.host.done.map (fun d => d.status)) = [St.NOT_OWNER] ∧ t.dev.safeLine = false := ⟨_, rfl, by decide +kernel⟩
/-- A PF carries 0x7160 and a VF 0x7161 (R409). -/
theorem test_device_id : readyFn.cfgValue 0 .deviceId = 0x7160 ∧ readyFn.cfgValue 4 .deviceId = 0x7161 := by decide
/-- No word spells a command. -/
theorem test_no_word : decodeTableWord 32 0 = none := rfl

/-! ### Commands that are refused as ill formed, for each check -/

def badJob : Job := { q := 0, seq := 0, sqHead := 1, entries := [] }
/-- A chain of one entry: a wrong opcode, 31 bytes, FIRST 0, LAST 0; a chain with LAST early; a chain of 65. -/
theorem bad_framing : [(mkJob 0x13 []).framed 0x13, (mkJob 0x13 []).framed 0x14,
    ({ badJob with entries := [entryOf 31 [(0, 1, 0x13), (1, 1, 3)]] } : Job).framed 0x13,
    ({ badJob with entries := [entryOf 32 [(0, 1, 0x13), (1, 1, 2)]] } : Job).framed 0x13,
    ({ badJob with entries := [entryOf 32 [(0, 1, 0x13), (1, 1, 1)]] } : Job).framed 0x13, badJob.framed 0x13,
    (updJob 3 [(0, 1, 0x40)]).framed 0x40, ({ badJob with entries := (updJob 2 [(0, 1, 0x40)]).entries ++
      [entryOf 32 [(0, 1, 0x40), (1, 1, 2)]] } : Job).framed 0x40, (updJob 64 [(0, 1, 0x40)]).framed 0x40,
    (updJob 65 [(0, 1, 0x40)]).framed 0x40] =
    [true, false, false, false, false, false, true, false, true, false] := by decide +kernel
/-- Offsets that are not aligned, and an aligned access in a misaligned row. -/
theorem bad_offsets : [Instr.registerWrite 0 0 2 0, .pairLoRead 0 false 2, .pairHiRead 0 false 2, .pairLoWrite 0 2 0,
    .pairHiWrite 0 2 0, .misalignedAccess 0 false false 4 4].all (fun c => !c.wellFormed) = true := by decide
/-- Operands of the wrong length. -/
theorem bad_lengths : [Instr.jtagSecResponse (.response 0 [] []), .eventRecordPost 256 [], .rxPfcFrame 0 0 [],
    .rxFrame 0 0 0 [0] true 0 false false 0 {} none, .mintEvaluate { sensors := [], rails := [] }, .rxRetxFrame 0 [] 0].all
      (fun c => !c.wellFormed) = true := by decide
/-- Jobs of no entries, by row. -/
theorem bad_jobs_1 : [Instr.undefinedOpcodeJob badJob, 
    .queueCreate badJob, .queueDestroy badJob, .queueQuery badJob, .queueCoalesce badJob, .echo badJob,
    .injectFrame badJob, .assignResources badJob, .resourceQuery badJob, .hifSetup badJob, .portConfig badJob,
    .portEnable badJob, .portQuery badJob, .portCal badJob, .portPfcSet badJob, .portPreemptSet badJob,
    .portGclLoad badJob, .portGclQuery badJob, .portEeeSet badJob, .portExpressSet badJob, .portDomainSet badJob,
    .trussGraphLoad badJob, .trussGraphSwap badJob, .trussGraphRead badJob, .mortiseSearch badJob,
    .mortiseProfileSet badJob, .mortisePortSet badJob, .mortiseRead badJob, .mortiseScrubSet badJob,
    .tableLookup badJob, .tableDump badJob, .updInsert badJob, .updModify badJob, .updDelete badJob, .updMove badJob,
    .batchOpen badJob, .batchCommit badJob, .batchAbort badJob, .updateSetup badJob, .tenonCsLoad badJob].all (fun c => !c.wellFormed) = true := by decide
theorem bad_jobs_2 : [Instr.tenonCsSwap badJob, 
    .tenonCsRead badJob, .tenonSetup badJob, .tenonStateRead badJob, .tenonStateWrite badJob, .ridgePoolSet badJob,
    .ridgePairSet badJob, .ridgePortSet badJob, .ridgeDscpSet badJob, .ridgeSamplerSet badJob, .ridgeMcastSet badJob,
    .ridgeDeepSet badJob, .ridgeQuery badJob, .eschPortSet badJob, .eschNodeSet badJob, .eschQueueSet badJob,
    .eschQuery badJob, .meterSet badJob, .meterQuery badJob, .joistSetup badJob, .joistRouteSet badJob,
    .joistRouteQuery badJob, .joistPortQuery badJob, .thymePulseSet badJob, .thymeIoSet badJob, .thymePortSet badJob,
    .thymeDpllSet badJob, .thymeTodSend badJob, .thymeHoldQuery badJob, .pegPoolCreate badJob,
    .pegPoolDestroy badJob, .pegReserve badJob, .pegAlloc badJob, .pegFree badJob, .pegAudit badJob,
    .pegQuery badJob, .dmaCopy badJob, .purlinChannelSet badJob, .purlinQuery badJob, .dmcSetup badJob].all (fun c => !c.wellFormed) = true := by decide
theorem bad_jobs_3 : [Instr.dmcPortSet badJob, 
    .dmcMapSet badJob, .dmcFreqSet badJob, .dmcRetrain badJob, .mintSetup badJob, .mintActSet badJob,
    .mintFloorSet badJob, .mintHold badJob, .mintQuery badJob, .gaugePcSet badJob, .gaugeClear badJob,
    .gaugeBwSet badJob, .gaugeDumpSet badJob, .gaugeSampleRead badJob, .scribeRead badJob, .scribeClear badJob,
    .scribeRateSet badJob, .scribeMirrorSet badJob, .scribeSetup badJob, .faultFnMask badJob, .safeEnter badJob,
    .secChallenge badJob, .secResponse badJob, .secLock badJob, .secQuery badJob].all (fun c => !c.wellFormed) = true := by decide
/-- Jobs of another operation of their opcode. -/
theorem bad_operations : [Instr.tableSetupProfile (mkJob 0x48 [(4, 1, 0), (5, 1, 1)]),
    .tableSetupPort (mkJob 0x48 [(4, 1, 0), (5, 1, 0)]), .tableSetupLearnAge (mkJob 0x48 [(4, 1, 0), (5, 1, 0)]),
    .tableSetupLearnSeeds (mkJob 0x48 [(4, 1, 0), (5, 1, 0)]),
    .tableSetupEmSeeds (mkJob 0x48 [(4, 1, 0), (5, 1, 0)]), .tableSetupEventQ (mkJob 0x48 [(4, 1, 0), (5, 1, 0)]),
    .thymeAdjustRate (mkJob 0x68 [(4, 1, 1), (5, 1, 0)]), .thymeAdjustSlew (mkJob 0x68 [(4, 1, 0), (5, 1, 0)]),
    .thymeAdjustStep (mkJob 0x68 [(4, 1, 0), (5, 1, 0)]), .thymeAdjustSet (mkJob 0x68 [(4, 1, 0), (5, 1, 0)]),
    .thymeAdjustSetAtPps (mkJob 0x68 [(4, 1, 0), (5, 1, 0)]), .holdCtlMode (mkJob 0x6E [(4, 1, 1), (5, 1, 0)]),
    .reportAcquire (mkJob 0x6E [(4, 1, 0), (5, 1, 0)]), .reportLocked (mkJob 0x6E [(4, 1, 0), (5, 1, 0)]),
    .reportLost (mkJob 0x6E [(4, 1, 0), (5, 1, 0)]), .reportChange (mkJob 0x6E [(4, 1, 0), (5, 1, 0)]),
    .reportAlive (mkJob 0x6E [(4, 1, 0), (5, 1, 0)]), .reportForget (mkJob 0x6E [(4, 1, 0), (5, 1, 0)]),
    .holdCtlLimits (mkJob 0x6E [(4, 1, 0), (5, 1, 0)]), .holdCtlTableLoad (mkJob 0x6E [(4, 1, 0), (5, 1, 0)]),
    .channelStop (mkJob 0x7A [(4, 1, 0), (5, 1, 1)]), .channelResume (mkJob 0x7A [(4, 1, 0), (5, 1, 0)]),
    .channelFlush (mkJob 0x7A [(4, 1, 0), (5, 1, 0)]), .channelPolicy (mkJob 0x7A [(4, 1, 0), (5, 1, 0)]),
    .secFuseRevoke (mkJob 0xA5 [(4, 1, 1), (5, 1, 0)]), .secFuseFloor (mkJob 0xA5 [(4, 1, 0), (5, 1, 0)])].all (fun c => !c.wellFormed) = true := by
  decide +kernel

/-- The check value of the CRC-8 that the SMBus specification uses: F4H for the ASCII digits 1 to 9. -/
theorem test_pec : pecOf [0x31, 0x32, 0x33, 0x34, 0x35, 0x36, 0x37, 0x38, 0x39] = 0xF4 := by decide +kernel

/-! ### Witnesses of the hypotheses of the statements -/

theorem witness_StepRunsFront :
    (∃ (c : Instr) (s : State) (rest : List Instr), (s.pending = c :: rest)) ∧
    (∃ (s : State), (s.pending = [])) :=
  ⟨⟨.scribeRateSecond, { ready with pending := [.scribeRateSecond] }, [], (by decide +kernel)⟩,
   ⟨ready, (by decide +kernel)⟩⟩

theorem witness_StepKeepsCanonical :
    ∃ (s t : State), s.canonical ∧ (step s = .next t) :=
  ⟨State.reset, _, (⟨by decide, by decide, by decide⟩), (rfl)⟩

theorem witness_StepKeepsFuses :
    ∃ (s t : State), s.canonical ∧ (step s = .next t) :=
  ⟨State.reset, _, (⟨by decide, by decide, by decide⟩), (rfl)⟩

theorem witness_JobGates :
    (∃ (c : Instr) (j : Job) (g : Gate) (s : State), (jobGate c = some (j, g)) ∧ (s.jobReady j = false ∨ j.opcode ≠
      g.op)) ∧
    (∃ (c : Instr) (s : State), (rowWaits c s = true)) ∧
    (∃ (c : Instr) (j : Job) (g : Gate) (s : State) (x : Nat), (jobGate c = some (j, g)) ∧ (s.jobReady j = true ∧
      j.opcode = g.op ∧ rowWaits c s = false) ∧ (s.gate g j = some x)) :=
  ⟨⟨.echo SE1, SE1, { op := 0x13, owner := false }, ready, (by decide +kernel), (by decide +kernel)⟩,
   ⟨.trussGraphRead TGR, (readyJob TGR).setQueue 0 { (readyJob TGR).queue 0 with
     jobs := [{ TGL with seq := 3 }, { TGR with seq := 4 }] }, (by decide +kernel)⟩,
   ⟨.safeEnter SE1, SE1, { op := 0xA1 }, (readyJob SE1).setQueue 0 { (readyJob SE1).queue 0 with fn := 4 }, _,
     (by decide +kernel), (by decide +kernel), (Option.some_get (by decide +kernel)).symm⟩⟩

theorem witness_MicrowordGates :
    (∃ (p : Fin 9) (t : Fin 64) (r : Instr × Nat) (s : State), (r ∈ microRows p t ∧ p.val ≠ 8) ∧ ((s.engine p.val
      t.val).busy = false ∨ s.mayIssue p.val t.val = false)) ∧
    (∃ (p : Fin 9) (t : Fin 64) (r : Instr × Nat) (s : State), (r ∈ microRows p t ∧ p.val ≠ 8) ∧ ((s.engine p.val
      t.val).busy = true ∧ s.mayIssue p.val t.val = true) ∧ ((s.engine p.val t.val).exhausted = true)) ∧
    (∃ (p : Fin 9) (t : Fin 64) (r : Instr × Nat) (s u : State) (e : Engine), (r ∈ microRows p t ∧ p.val ≠ 8) ∧ (e
      = s.engine p.val t.val ∧ e.busy = true ∧ s.mayIssue p.val t.val = true ∧ e.exhausted = false) ∧
      (s.frameBadDue p.val t.val = true) ∧ (u = (s.wordSpent p.val t.val).endWait p.val t.val ∧ (u.engine p.val
      t.val).exhausted = false)) ∧
    (∃ (p : Fin 9) (t : Fin 64) (r : Instr × Nat) (s : State), (r ∈ microRows p t ∧ p.val ≠ 8) ∧ ((s.engine p.val
      t.val).busy = true ∧ s.mayIssue p.val t.val = true ∧ (s.engine p.val t.val).exhausted = false ∧ s.frameBadDue
      p.val t.val = false) ∧ ((s.currentWord p.val t.val).op = 0xFF)) ∧
    (∃ (p : Fin 9) (t : Fin 64) (r : Instr × Nat) (s : State), (r ∈ microRows p t ∧ p.val ≠ 8) ∧ ((s.engine p.val
      t.val).busy = true ∧ s.mayIssue p.val t.val = true ∧ (s.engine p.val t.val).exhausted = false ∧ s.frameBadDue
      p.val t.val = false) ∧ ((s.currentWord p.val t.val).op ≠ 0xFF ∧ (s.currentWord p.val t.val).op ≠ r.2)) ∧
    (∃ (p : Fin 9) (t : Fin 64) (r : Instr × Nat) (s : State) (w : MWord) (k : Nat), (r ∈ microRows p t ∧ p.val ≠
      8) ∧ ((s.engine p.val t.val).busy = true ∧ s.mayIssue p.val t.val = true ∧ (s.engine p.val t.val).exhausted =
      false ∧ s.frameBadDue p.val t.val = false) ∧ (w = s.currentWord p.val t.val ∧ w.op = r.2 ∧ w.op ≠ 0xFF ∧
      s.blocked p.val t.val w = .wait k) ∧ k ≠ 0) ∧
    (∃ (p : Fin 9) (t : Fin 64) (r : Instr × Nat) (s u : State) (w : MWord) (k x : Nat), (r ∈ microRows p t ∧ p.val
      ≠ 8) ∧ ((s.engine p.val t.val).busy = true ∧ s.mayIssue p.val t.val = true ∧ (s.engine p.val t.val).exhausted
      = false ∧ s.frameBadDue p.val t.val = false) ∧ (w = s.currentWord p.val t.val ∧ w.op = r.2 ∧ w.op ≠ 0xFF ∧
      s.blocked p.val t.val w = .fail k x) ∧ (u = (s.wordSpent p.val t.val).endWait p.val t.val ∧ (u.engine p.val
      t.val).exhausted = false)) ∧
    (∃ (p : Fin 9) (t : Fin 64) (r : Instr × Nat) (s d u : State) (w : MWord), (r ∈ microRows p t ∧ p.val ≠ 8) ∧
      ((s.engine p.val t.val).busy = true ∧ s.mayIssue p.val t.val = true ∧ (s.engine p.val t.val).exhausted =
      false ∧ s.frameBadDue p.val t.val = false) ∧ (w = s.currentWord p.val t.val ∧ w.op = r.2 ∧ w.op ≠ 0xFF ∧
      s.blocked p.val t.val w = .go ∧ (s.engine p.val t.val).flags.holds w.cond = false) ∧ (d = (s.wordSpent p.val
      t.val).endWait p.val t.val ∧ (d.engine p.val t.val).exhausted = false) ∧ (u = (d.setEngine p.val t.val {
      d.engine p.val t.val with timed := false }).pcEvent (some p.val) 0x03 1 (fun _ => true) {
      engine := some t.val, upc := (s.engine p.val t.val).upc, cond := awaited (s.engine p.val t.val) w, atEnd :=
        false })) ∧
    (∃ (t : Fin 64) (r : Instr × Nat) (s : State), r ∈ microRows 8 t ∧ (16 ≤ t.val ∨ s.svcState t.val ≠ 1 ∨
      (s.engine 8 t.val).handler ≠ 0 ∨ s.mayIssue 8 t.val = false ∨ (s.svcWord t.val).op ≠ 0xFF ∧ (s.svcWord
      t.val).op ≠ r.2)) ∧
    (∃ (t : Fin 64) (r : Instr × Nat) (s : State) (w : MWord), r ∈ microRows 8 t ∧ (t.val < 16 ∧ s.svcState t.val =
      1 ∧ (s.engine 8 t.val).handler = 0 ∧ s.mayIssue 8 t.val = true) ∧ (w = s.svcWord t.val ∧ (w.op = 0xFF ∨ w.op
      = r.2 ∧ w.wait = 7))) ∧
    (∃ (t : Fin 64) (r : Instr × Nat) (s : State) (w : MWord), r ∈ microRows 8 t ∧ (t.val < 16 ∧ s.svcState t.val =
      1 ∧ (s.engine 8 t.val).handler = 0 ∧ s.mayIssue 8 t.val = true) ∧ (w = s.svcWord t.val ∧ w.op = r.2 ∧ w.op ≠
      0xFF ∧ w.wait = 4 ∧ w.count ≠ 0 ∧ (s.engine 8 t.val).timed = false)) ∧
    (∃ (t : Fin 64) (r : Instr × Nat) (s u : State) (w : MWord), r ∈ microRows 8 t ∧ (t.val < 16 ∧ s.svcState t.val
      = 1 ∧ (s.engine 8 t.val).handler = 0 ∧ s.mayIssue 8 t.val = true) ∧ (w = s.svcWord t.val ∧ w.op = r.2 ∧ w.op
      ≠ 0xFF ∧ w.wait ≠ 7 ∧ (w.wait = 4 → w.count = 0 ∨ (s.engine 8 t.val).timed = true)) ∧ (u = (s.wordSpent 8
      t.val).setEngine 8 t.val { s.engine 8 t.val with wait := 0, timed := false })) :=
  ⟨⟨7, 63, (.mov 7 63, 1), ready, (by decide +kernel), (by decide +kernel)⟩,
   ⟨7, 63, (.mov 7 63, 1), (mcState [(0, 1, 1)]).mcWith { busy := true, limit := 0 }, (by decide +kernel),
     (by decide +kernel), (by decide +kernel)⟩,
   ⟨7, 63, (.mov 7 63, 1), (mcState [(0, 1, 1)]).setFrame 0 { bad := 1 }, ((mcState [(0, 1, 1)]).setFrame 0 {
     bad := 1 }).wordSpent 7 63 |> (·.endWait 7 63), { busy := true, limit := 4095 }, (by decide +kernel),
       (by decide +kernel), (by decide +kernel), (by decide +kernel)⟩,
   ⟨7, 63, (.mov 7 63, 1), mcState [(0, 1, 255)], (by decide +kernel), (by decide +kernel), (by decide +kernel)⟩,
   ⟨7, 63, (.mov 7 63, 1), mcState [(0, 1, 2)], (by decide +kernel), (by decide +kernel), (by decide +kernel)⟩,
   ⟨7, 63, (.endFrame 7 63, 0x4B), (mcState [(0, 1, 0x4B)]).setRequests [RCL], (mcState [(0, 1, 0x4B)]).currentWord
     7 63, 3, (by decide +kernel), (by decide +kernel), (by decide +kernel), (by decide +kernel)⟩,
   ⟨7, 63, (.mov 7 63, 1), (mcState MCW).setRequests [{ RCL with regs := [0], failed := some (9, 1) }], (((mcState
     MCW).setRequests [{ RCL with regs := [0], failed := some (9, 1) }]).wordSpent 7 63).endWait 7 63, (mcState
     MCW).currentWord 7 63, 9, 1, (by decide +kernel), (by decide +kernel), (by decide +kernel),
     (by decide +kernel)⟩,
   ⟨7, 63, (.mov 7 63, 1), mcState MCP, _, _, (mcState MCP).currentWord 7 63, (by decide +kernel),
     (by decide +kernel), (by decide +kernel), (⟨rfl, by decide +kernel⟩), (rfl)⟩,
   ⟨15, (.mov 8 15, 1), svcWord [(0, 1, 2)], (by decide +kernel), (by decide +kernel)⟩,
   ⟨15, (.mov 8 15, 1), svcWord [(0, 1, 1), (3, 1, 28)], (svcWord [(0, 1, 1), (3, 1, 28)]).svcWord 15,
     (by decide +kernel), (by decide +kernel), (by decide +kernel)⟩,
   ⟨15, (.mov 8 15, 1), svcWord [(0, 1, 1), (3, 1, 16), (4, 1, 255)], (svcWord [(0, 1, 1), (3, 1, 16), (4, 1,
     255)]).svcWord 15, (by decide +kernel), (by decide +kernel), (by decide +kernel)⟩,
   ⟨15, (.ld 8 15, 0x20), svcWord [(0, 1, 0x20)], _, (svcWord [(0, 1, 0x20)]).svcWord 15, (by decide +kernel),
     (by decide +kernel), (by decide +kernel), rfl⟩⟩

theorem witness_OtherAccesses :
    (∃ (s : State) (f : Fin 256) (bar2 : Bool) (off : BitVec 24) (len : BitVec 13), (s.reaches f.val ∧ (len.toNat ≠
      4 ∨ off.toNat % 4 ≠ 0))) ∧
    (∃ (s : State) (f : Fin 256) (bar2 : Bool) (off : BitVec 24) (len : BitVec 13), (s.reaches f.val ∧ (len.toNat ≠
      4 ∨ off.toNat % 4 ≠ 0) ∧ off.toNat < s.barSize f.val (if bar2 then 2 else 0))) ∧
    (∃ (s : State) (f : Fin 256) (off : BitVec 24) (x : Nat), (off.toNat % 8 = 0 ∧ off.toNat < s.barSize f.val 4 ∧
      s.reaches f.val) ∧ (x = (s.bar4Page f.val (off.toNat / 4096)).elim 0 (fun p => s.slotNow p (off.toNat % 4096
      / 8)))) :=
  ⟨⟨readyFn, 0, false, 2, 4, (by decide +kernel)⟩,
   ⟨readyFn, 0, true, 0xFFC, 8, (by decide +kernel)⟩,
   ⟨readyFn, 0, 0x1FFFF8, _, (by decide +kernel), rfl⟩⟩

theorem witness_RegisterPairs :
    (∃ (s : State) (f : Fin 256) (off lo : BitVec 24) (a : Nat), (lo.toNat % 4 = 0 ∧ off.toNat = lo.toNat + 4 ∧
      off.toNat < s.barSize f.val 0 ∧ s.reaches f.val) ∧ (s.regKey f.val lo.toNat = some a ∧ s.regKey f.val
      off.toNat = some (a + 4) ∧ s.pairLo f.val a = true ∧ s.pairLo f.val (a + 4) = false)) ∧
    (∃ (s : State) (f a v : Nat) (lo : Word32), ((a = s.fnBase f + 0x2000 ∨ a = s.fnBase f + 0x2008) ∧ (s.queue
      f).st = .absent) ∧ (tabGet (fun _ => none) s.host.heldLo a = some lo)) ∧
    (∃ (s : State) (f a v : Nat), ((a = s.fnBase f + 0x2000 ∨ a = s.fnBase f + 0x2008) ∧ (s.queue f).st = .absent)
      ∧ (tabGet (fun _ => none) s.host.heldLo a = none)) ∧
    (∃ (s : State) (f b : Nat), b < 8) :=
  ⟨⟨readyFn, 0, 0x12004, 0x12000, 0x12000, (by decide +kernel), (by decide +kernel)⟩,
   ⟨HLD, 0, 0x12000, 7, 0xFFFFFFFF, (by decide +kernel), (by decide +kernel)⟩,
   ⟨readyFn, 0, 0x12008, 7, (by decide +kernel), (by decide +kernel)⟩,
   ⟨readyFn, 255, 4, (by decide +kernel)⟩⟩

theorem witness_Doorbells :
    (∃ (s : State) (f : Fin 256) (off : BitVec 24) (v : Word32), (s.reaches f.val ∧ s.inReset f.val = false ∧
      off.toNat < 0x1000 ∧ off.toNat % 4 = 0) ∧ (s.findQ f.val (off.toNat / 8) = none)) ∧
    (∃ (s : State) (f : Fin 256) (off : BitVec 24) (v : Word32) (q : Nat), (s.reaches f.val ∧ s.inReset f.val =
      false ∧ off.toNat < 0x1000 ∧ off.toNat % 8 = 0) ∧ (s.findQ f.val (off.toNat / 8) = some q ∧ (s.queue
      q).typ.submission = false)) ∧
    (∃ (s : State) (f : Fin 256) (off : BitVec 24) (v : Word32) (q : Nat), (s.reaches f.val ∧ s.inReset f.val =
      false ∧ off.toNat < 0x1000 ∧ off.toNat % 8 = 4) ∧ (s.findQ f.val (off.toNat / 8) = some q ∧ (s.queue
      q).typ.submission = true ∧ (s.queue q).typ ≠ .admin)) ∧
    (∃ (s : State) (f : Fin 256) (off : BitVec 24) (v : Word32) (q : Nat), (s.reaches f.val ∧ s.inReset f.val =
      false ∧ off.toNat < 0x1000 ∧ off.toNat % 4 = 0) ∧ (s.findQ f.val (off.toNat / 8) = some q ∧ ((s.queue q).st =
      .error ∨ (s.queue q).st = .stopping)) ∧ (if off.toNat % 8 = 0 then (s.queue q).typ.submission = true else
      ((s.queue q).typ.submission = false ∨ (s.queue q).typ = .admin))) :=
  ⟨⟨readyFn, 0, 0xFFC, 0, (by decide +kernel), (by decide +kernel)⟩,
   ⟨readyFn.setQueue 256 CQ1, 0, 8, 0, 256, (by decide +kernel), (by decide +kernel)⟩,
   ⟨readyFn.setQueue 256 { CQ1 with typ := .dma }, 0, 12, 0, 256, (by decide +kernel), (by decide +kernel)⟩,
   ⟨readyFn.setQueue 256 { CQ1 with st := .stopping }, 0, 12, 0, 256, (by decide +kernel), (by decide +kernel),
     (by decide +kernel)⟩⟩

theorem witness_ExpressConflicts :
    (∃ (s b : State) (j : Job) (n : Nat), (s.takes { op := 0x28, owner := false } j b) ∧ (n = j.le 4 2 ∧ n < 128 ∧
      b.portHolder n = b.jobFn j) ∧ (j.only [(4, 3), (8, 4)] = true ∧ j.byte 0 6 = 1) ∧ ((b.settled n).express n =
      true)) ∧
    (∃ (s b : State) (j : Job) (n : Nat), (s.takes { op := 0x29, owner := false } j b) ∧ (n = j.le 4 2 ∧ n < 128 ∧
      b.portHolder n = b.jobFn j) ∧ (j.only [(4, 3)] = true ∧ j.byte 0 6 = 1) ∧ ((b.settled n).rdb (wPort n)
      Reg.PORT_CFG_EEE_EN = true)) ∧
    (∃ (s b : State) (j : Job) (n : Nat), (s.takes { op := 0x29, owner := false } j b) ∧ (n = j.le 4 2 ∧ n < 128 ∧
      b.portHolder n = b.jobFn j) ∧ (j.only [(4, 3)] = true ∧ j.byte 0 6 = 1) ∧ (expressPfcBad (b.prioOf n 14)
      (b.prioOf n 15) (b.rd (wPort n) Reg.PORT_PFC_CFG_PFC_TX_EN) (b.rd (wPort n) Reg.PORT_PFC_CFG_PFC_RX_EN) =
      true)) ∧
    (∃ (s b : State) (j : Job) (n : Nat) (nib : Nat → Nat), (s.takes { op := 0x24, owner := false } j b) ∧ (n =
      j.le 4 2 ∧ n < 128 ∧ b.portHolder n = b.jobFn j) ∧ (∀ t, nib t = j.bits (10 + t / 2) (4 * (t % 2) + 3) (4 *
      (t % 2))) ∧ (j.len = 2 ∧ j.flagsPlain = true ∧ j.byte 0 6 < 3 ∧ j.byte 0 7 = 0 ∧ j.zero 1 4 2 = true ∧ j.zero
      1 8 24 = true) ∧ (((rangeFrom 0 16).any fun t => decide (8 ≤ nib t)) = false) ∧ ((b.settled n).express n =
      true ∧ expressPfcBad (nib 14) (nib 15) (j.byte 0 8) (j.byte 0 9) = true)) :=
  ⟨⟨((readyJob EXE)).wr (wPort 127) Reg.PORT_CFG_EXPRESS 1, (((readyJob EXE)).wr (wPort 127) Reg.PORT_CFG_EXPRESS
     1).startJob EXE, EXE, 127, takes_of (by decide +kernel), (by decide +kernel), (by decide +kernel),
     (by decide +kernel)⟩,
   ⟨((readyJob EXX)).wr (wPort 127) Reg.PORT_CFG_EEE_EN 1, (((readyJob EXX)).wr (wPort 127) Reg.PORT_CFG_EEE_EN
     1).startJob EXX, EXX, 127, takes_of (by decide +kernel), (by decide +kernel), (by decide +kernel),
     (by decide +kernel)⟩,
   ⟨((readyJob EXX)).wr (wPort 127) Reg.PORT_PFC_CFG_PFC_RX_EN 128, (((readyJob EXX)).wr (wPort 127)
     Reg.PORT_PFC_CFG_PFC_RX_EN 128).startJob EXX, EXX, 127, takes_of (by decide +kernel), (by decide +kernel),
     (by decide +kernel), (by decide +kernel)⟩,
   ⟨((readyJob PPFC)).wr (wPort 127) Reg.PORT_CFG_EXPRESS 1, (((readyJob PPFC)).wr (wPort 127) Reg.PORT_CFG_EXPRESS
     1).startJob PPFC, PPFC, 127, (fun t => PPFC.bits (10 + t / 2) (4 * (t % 2) + 3) (4 * (t % 2))),
     takes_of (by decide +kernel), (by decide +kernel), (fun _ => rfl), (by decide +kernel), (by decide +kernel),
     (by decide +kernel)⟩⟩

theorem witness_Frames :
    (∃ (p : Fin 9) (t : Fin 64) (r : Instr × Nat) (s u : State) (w : MWord), r ∈ (microRows p t).take 18 ∧ s.issues
      p.val t.val r.2 w u) ∧
    (∃ (u : State) (p t : Nat) (x : Engine) (p' t' : Nat), (¬(p' = p ∧ t' = t))) ∧
    (∃ (s : State) (w : FWin) (a : Nat), (s.reaches (s.winFn w) ∧ a = s.winBase w + 0xF014)) ∧
    (∃ (s : State) (a : Nat), (s.reaches s.owner ∧ a = wGlobal + 0x10)) ∧
    (∃ (s : State) (a : Nat), (s.reaches s.owner ∧ s.booted = true ∧ a = wThyme + 0x2000)) ∧
    (∃ (s : State) (a l : Nat), (s.rd wGauge Reg.GAUGE_DUMP_PERIOD_MS ≠ 0 ∧ s.dutyRuns 13 = true ∧ s.gauge.dumping
      = none) ∧ (∀ k ∈ s.armed, ¬(s.rd (pcBase k) Reg.GAUGE_PC_A_SRC = 0 ∧ s.rd (pcBase k) Reg.GAUGE_PC_A_SEL = 512
      * 157 + 29)) ∧ (l = s.fnLink s.owner ∧ a = hostKey l (s.gauge.dumpBase + ((s.gauge.dumpNext - 1) % s.rd
      wGauge Reg.GAUGE_DUMP_BUFFERS) * (128 + 4096 * (maskPages s.gauge.dumpMask).length) + 4))) ∧
    (∃ (s : State) (k : BitVec 24) (a : Nat), (s.spillCnt k.toNat = 15 ∧ s.anyOffline = false ∧ s.rdb wMint
      Reg.MINT_STATUS_DEFERRING = false ∧ s.dutyRuns 9) ∧ (a = emAddr k.toNat + 21)) :=
  ⟨⟨7, 63, (.mov 7 63, 1), mcState [(0, 1, 1)], _, (mcState [(0, 1, 1)]).currentWord 7 63, (by decide +kernel),
     issues_of (by decide +kernel)⟩,
   ⟨ready, 7, 63, {}, 7, 62, (by decide +kernel)⟩,
   ⟨readyFn, .boot, wBoot + 0xF014, (by decide +kernel)⟩,
   ⟨readyFn, 0x10, (by decide +kernel)⟩,
   ⟨readyFn, wThyme + 0x2000, (by decide +kernel)⟩,
   ⟨GDUE, _, _, (by decide +kernel), (by decide +kernel), (⟨rfl,rfl⟩)⟩,
   ⟨SPL.online.running15 9, 0, _, (by decide +kernel), rfl⟩⟩

theorem witness_SafeCause :
    (∃ (s : State) (kind block inst src : Nat), (s.dev.safeLine = true)) ∧
    (∃ (s : State) (kind block inst src : Nat), (s.rdb wGlobal Reg.GLOBAL_SAFE_CAUSE_SAFE = true)) ∧
    (∃ (s : State) (kind block inst src : Nat), (s.dev.safeLine = false ∧ s.rdb wGlobal Reg.GLOBAL_SAFE_CAUSE_SAFE
      = false) ∧ (kind < 4 ∧ block < 256 ∧ inst < 256 ∧ src < 32)) :=
  ⟨⟨SAFL, 0, 0x17, 127, 31, (by decide +kernel)⟩,
   ⟨ready.setReg (wGlobal + 0x10) (2 ^ 31), 0, 0x17, 127, 31, (by decide +kernel)⟩,
   ⟨ready, 2, 255, 255, 31, (by decide +kernel), (by decide +kernel)⟩⟩

theorem witness_RegisterAccesses :
    (∃ (s : State) (f : Fin 256) (bar : Fin 6) (off : BitVec 24) (len : BitVec 13) (a : Nat), (bar = 0 ∧ len = 4 ∧
      off.toNat % 4 = 0 ∧ off.toNat < s.barSize f.val 0 ∧ s.reaches f.val) ∧ (s.regKey f.val off.toNat = some a ∧
      s.pairLo f.val a = false ∧ (4 ≤ a → s.pairLo f.val (a - 4) = false)) ∧ (s.served a = true ∧ a ≠ wThyme + 4 ∧
      a ≠ wThyme + 0x30)) ∧
    (∃ (s : State) (f : Fin 256) (g : CfgGet), (s.devState ≠ 0 ∧ s.fnExists f.val = true)) ∧
    (∃ (s : State) (f : Fin 256) (v : CfgSet), (s.devState ≠ 0 ∧ s.fnExists f.val = true)) ∧
    (∃ (s : State) (f : Fin 256) (r : HostReq), (s.devState ≠ 0 ∧ s.fnExists f.val = false)) ∧
    (∃ (s : State) (f : Fin 256) (off : BitVec 24) (a : Nat), (off.toNat % 4 = 0 ∧ off.toNat < s.barSize f.val 0 ∧
      s.reaches f.val) ∧ (s.regKey f.val off.toNat = some a ∧ s.pairLo f.val a = true)) ∧
    (∃ (s : State) (f : Fin 256) (off : BitVec 24) (x : Nat), (off.toNat % 8 = 0 ∧ off.toNat < s.barSize f.val 4 ∧
      s.reaches f.val) ∧ (x = (s.bar4Page f.val (off.toNat / 4096)).elim 0 (fun p => s.slotNow p (off.toNat % 4096
      / 8)))) ∧
    (∃ (s : State) (f : Fin 256) (off : BitVec 24) (a : Nat), (off.toNat % 4 = 0 ∧ 4 ≤ off.toNat ∧ off.toNat <
      s.barSize f.val 0 ∧ s.reaches f.val) ∧ (s.isLo f.val (off.toNat - 4) false = true ∧ s.regKey f.val off.toNat
      = some (a + 4) ∧ s.pairLo f.val a = true ∧ s.pairLo f.val (a + 4) = false)) ∧
    (∃ (s : State) (f : Fin 256) (off : BitVec 24), (off.toNat % 8 = 4 ∧ off.toNat < s.barSize f.val 4 ∧ s.reaches
      f.val)) ∧
    (∃ (s : State) (f : Fin 256) (off : BitVec 24) (v : Word32) (a : Nat), (off.toNat < s.barSize f.val 0 ∧
      s.reaches f.val ∧ s.inReset f.val = false) ∧ (s.regKey f.val off.toNat = some a ∧ s.pairLo f.val a = true)) ∧
    (∃ (s : State) (f : Fin 256) (off : BitVec 24) (v : Word32) (a : Nat), (4 ≤ off.toNat ∧ off.toNat < s.barSize
      f.val 0 ∧ s.reaches f.val ∧ s.inReset f.val = false) ∧ (s.isLo f.val (off.toNat - 4) false = true ∧ s.regKey
      f.val off.toNat = some (a + 4) ∧ s.pairLo f.val a = true ∧ s.pairLo f.val (a + 4) = false)) ∧
    (∃ (s : State) (f : Fin 256) (bar2 : Bool) (off : BitVec 24) (len : BitVec 13), (s.reaches f.val ∧ (len.toNat ≠
      4 ∨ off.toNat % 4 ≠ 0))) ∧
    (∃ (s : State) (f : Fin 256) (bar2 : Bool) (off : BitVec 24) (len : BitVec 13), (s.reaches f.val ∧ (len.toNat ≠
      4 ∨ off.toNat % 4 ≠ 0) ∧ off.toNat < s.barSize f.val (if bar2 then 2 else 0))) ∧
    (∃ (s : State) (f : Fin 256) (off : BitVec 24) (v : Word32) (q : Nat), (off.toNat % 8 = 0 ∧ off.toNat < 0x1000
      ∧ s.reaches f.val ∧ s.inReset f.val = false) ∧ (s.findQ f.val (off.toNat / 8) = some q ∧ (s.queue
      q).typ.submission = true ∧ (s.queue q).st = .active ∧ v.toNat % 2 ^ 16 < (s.queue q).size)) ∧
    (∃ (s : State) (f : Fin 256) (off : BitVec 24) (v : Word32) (a : Nat), (off.toNat % 4 = 0 ∧ off.toNat <
      s.barSize f.val 0 ∧ s.reaches f.val ∧ s.regKey f.val off.toNat = some a)) ∧
    (∃ (s : State) (f : Fin 256) (u : State), (f.val = s.owner ∧ s.reaches f.val ∧ s.booted = true) ∧ (u = { s with
      host := { s.host with timeLatch := tabSet (fun _ => (0, 0)) s.host.timeLatch f.val (s.clock.sec, s.frac) } })) ∧
    (∃ (s : State) (f : Fin 256), (f.val = s.owner ∧ s.reaches f.val ∧ s.booted = true)) ∧
    (∃ (s : State) (dst : BitVec 7) (v : Word32) (pec : Option Byte), (s.smbTakes dst = true ∧ pecOk dst (1 :: 4 ::
      leBytes 4 v.toNat) pec = true)) ∧
    (∃ (s : State) (dst : BitVec 7) (v : Word32) (c : Byte) (b : Byte), (dst.toNat ≠ 0x58 + s.dev.smbStrap ∨ (pecOk
      dst (1 :: 4 :: leBytes 4 v.toNat) (some c) = false ∧ pecOk dst [4, b] (some c) = false))) ∧
    (∃ (s : State) (dst : BitVec 7) (a : Nat), (s.smbTakes dst = true) ∧ (s.regKey s.owner s.dev.smbAddr = some a ∧
      s.dev.smbAddr % 4 = 0 ∧ smbServed s.dev.smbAddr (s.winAt a).isSome = true)) ∧
    (∃ (s : State) (dst : BitVec 7), (s.smbTakes dst = true)) :=
  ⟨⟨readyFn, 0, 0, 0, 4, 0, (by decide +kernel), (by decide +kernel), (by decide +kernel)⟩,
   ⟨readyFn, 0, .vendorId, (by decide +kernel)⟩,
   ⟨readyFn, 0, .bme true, (by decide +kernel)⟩,
   ⟨ready.wr (wHif + 48) Reg.HIF_LINK_STATUS_PRESENT 0, 3, .cfgRead .vendorId, (by decide +kernel)⟩,
   ⟨readyFn, 0, 0x12000, 0x12000, (by decide +kernel), (by decide +kernel)⟩,
   ⟨readyFn, 0, 0x1FFFF8, _, (by decide +kernel), rfl⟩,
   ⟨readyFn, 0, 0x12004, 0x12000, (by decide +kernel), (by decide +kernel)⟩,
   ⟨readyFn, 0, 0x1FFFFC, (by decide +kernel)⟩,
   ⟨readyFn, 0, 0x12000, 0xFFFFFFFF, 0x12000, (by decide +kernel), (by decide +kernel)⟩,
   ⟨readyFn, 0, 0x12004, 0xFFFFFFFF, 0x12000, (by decide +kernel), (by decide +kernel)⟩,
   ⟨readyFn, 0, false, 2, 4, (by decide +kernel)⟩,
   ⟨readyFn, 0, true, 0xFFC, 8, (by decide +kernel)⟩,
   ⟨readyDb, 0, 0, 15, 0, (by decide +kernel), (by decide +kernel)⟩,
   ⟨readyFn, 0, 0x100, 0xFFFF, 0x100, (by decide +kernel)⟩,
   ⟨readyFn, 0, _, (by decide +kernel), rfl⟩,
   ⟨readyFn, 0, (by decide +kernel)⟩,
   ⟨ready, 0x58, 0xFFFFFFFF, none, (by decide +kernel)⟩,
   ⟨ready, 0x58, 0, 0, 0xA5, (by decide +kernel)⟩,
   ⟨ready, 0x58, 0, (by decide +kernel), (by decide +kernel)⟩,
   ⟨ready, 0x58, (by decide +kernel)⟩⟩

theorem witness_RegisterWrites :
    (∃ (s : State) (w : Fin 18) (v : Word32) (a : Nat), (s.reaches s.owner ∧ s.booted = true) ∧ (a = wGauge + 0x100
      + 4 * w.val)) ∧
    (∃ (s : State), (s.reaches s.owner ∧ s.booted = true)) ∧
    (∃ (s : State) (w : FWin) (v : Word32) (a m : Nat), s.reaches (s.winFn w) ∧ (a = s.winBase w + 0xF000 ∧ m =
      v.toNat - (v.toNat &&& s.rd (s.winBase w) Reg.FLT_LIVE_LIVE))) ∧
    (∃ (s : State) (w : FWin), s.reaches (s.winFn w)) ∧
    (∃ (s : State) (w : FWin) (v : Word32), (s.reaches (s.winFn w) ∧ s.isFnWin w = false)) ∧
    (∃ (s : State) (w : FWin) (hi : Bool) (v : Word32), (s.reaches (s.winFn w) ∧ s.isFnWin w = false)) ∧
    (∃ (s : State) (w : FWin) (v : Word32), (s.reaches (s.winFn w) ∧ s.isFnWin w = false ∧ v.toNat &&& s.winSources
      w ≠ 0)) ∧
    (∃ (s : State) (w : FWin), (s.reaches (s.winFn w) ∧ s.isFnWin w = false)) ∧
    (∃ (s : State), s.reaches s.owner) ∧
    (∃ (s : State) (v : Word32), (s.reaches s.owner ∧ v = 0x57525354)) ∧
    (∃ (s : State) (dst : BitVec 7) (v : Byte) (pec : Option Byte), (s.smbTakes dst = true ∧ pecOk dst [4, v] pec =
      true ∧ v = 0xA5)) :=
  ⟨⟨readyFn, 17, 0xFFFFFFFF, _, (by decide +kernel), rfl⟩,
   ⟨readyFn, (by decide +kernel)⟩,
   ⟨readyFn, .boot, 1, _, _, (by decide +kernel), (⟨rfl,rfl⟩)⟩,
   ⟨readyFn, .boot, (by decide +kernel)⟩,
   ⟨readyFn, .boot, 0xFFFFFFFF, (by decide +kernel)⟩,
   ⟨readyFn, .boot, false, 0xFFFFFFFF, (by decide +kernel)⟩,
   ⟨readyFn, .boot, 1, (by decide +kernel)⟩,
   ⟨readyFn, .boot, (by decide +kernel)⟩,
   ⟨readyFn, (by decide +kernel)⟩,
   ⟨readyFn, 0x57525354, (by decide +kernel)⟩,
   ⟨ready, 0x58, 0xA5, none, (by decide +kernel)⟩⟩

theorem witness_QueueDoorbells :
    (∃ (s : State) (f : Fin 256), s.reaches f.val ∧ (s.inReset f.val = false) ∧ ((s.setEnable f.val 1).devState =
      1)) ∧
    (∃ (s e : State) (f : Fin 256), s.reaches f.val ∧ (s.inReset f.val = false) ∧ (e = s.setEnable f.val 1) ∧
      e.devState ≠ 1 ∧ ((e.queue f.val).st = .absent) ∧ (e.adminBase f.val 0x2000 % 256 = 0 ∧ e.adminBase f.val
      0x2008 % 256 = 0) ∧ (16 ≤ e.reg (e.fnBase f.val + 0x2010) % 2 ^ 13 ∧ e.reg (e.fnBase f.val + 0x2010) % 2 ^ 13
      ≤ 4096 ∧ isPow2 (e.reg (e.fnBase f.val + 0x2010) % 2 ^ 13) = true) ∧ (16 ≤ e.reg (e.fnBase f.val + 0x2014) %
      2 ^ 13 ∧ e.reg (e.fnBase f.val + 0x2014) % 2 ^ 13 ≤ 4096 ∧ isPow2 (e.reg (e.fnBase f.val + 0x2014) % 2 ^ 13)
      = true)) ∧
    (∃ (s e : State) (f : Fin 256), s.reaches f.val ∧ (s.inReset f.val = false) ∧ (e = s.setEnable f.val 0)) ∧
    (∃ (s : State) (f : Fin 256) (i : Fin 512) (v : Word32) (q : Nat), s.reaches f.val ∧ (s.inReset f.val = false)
      ∧ (s.findQ f.val i.val = some q) ∧ ((s.queue q).typ.submission = true) ∧ ((s.queue q).st = .active)) ∧
    (∃ (s : State) (f : Fin 256) (i : Fin 512) (v : Word32) (q n : Nat), s.reaches f.val ∧ (s.inReset f.val =
      false) ∧ (s.findQ f.val i.val = some q) ∧ ((s.queue q).st = .active) ∧ ((s.queue q).typ = .completion) ∧
      v.toNat % 2 ^ 16 < (s.queue q).size ∧ (n = (v.toNat % 2 ^ 16 + (s.queue q).size - (s.queue q).head) %
      (s.queue q).size) ∧ n ≤ (s.queue q).written) ∧
    (∃ (s : State) (f : Fin 256) (i : Fin 512) (v : Word32) (q n : Nat), s.reaches f.val ∧ (s.inReset f.val =
      false) ∧ (s.findQ f.val i.val = some q) ∧ ((s.queue q).st = .active) ∧ ((s.queue q).typ = .admin) ∧ v.toNat %
      2 ^ 16 < (s.queue q).csize ∧ (n = (v.toNat % 2 ^ 16 + (s.queue q).csize - (s.queue q).chead) % (s.queue
      q).csize) ∧ n ≤ (s.queue q).written) ∧
    (∃ (s : State) (f : Fin 256) (i : Fin 512) (v : Word32) (q n : Nat), s.reaches f.val ∧ (s.inReset f.val =
      false) ∧ (s.findQ f.val i.val = some q) ∧ ((s.queue q).st = .active) ∧ ((s.queue q).typ = .punt ∨ (s.queue
      q).typ = .event) ∧ v.toNat % 2 ^ 16 < (s.queue q).size ∧ (n = (v.toNat % 2 ^ 16 + (s.queue q).size - (s.queue
      q).head) % (s.queue q).size) ∧ n ≤ ((s.queue q).tail + (s.queue q).size - (s.queue q).head) % (s.queue
      q).size) :=
  ⟨by
      refine ⟨State.withAccess State.reset 0, 0, ?_⟩
      try unfold State.takes
      try unfold State.issues
      decide +kernel,
   by
      refine ⟨(readyFn.setReg 0x12010 16).setReg 0x12014 4096, ((readyFn.setReg 0x12010 16).setReg 0x12014
        4096).setEnable 0 1, 0, ?_⟩
      try unfold State.takes
      try unfold State.issues
      decide +kernel,
   by
      refine ⟨readyFn, readyFn.setEnable 0 0, 0, ?_⟩
      try unfold State.takes
      try unfold State.issues
      decide +kernel,
   by
      refine ⟨readyFn.setQueue 0 { st := .active, size := 16 }, 0, 0, 15, 0, ?_⟩
      try unfold State.takes
      try unfold State.issues
      decide +kernel,
   by
      refine ⟨readyFn.setQueue 256 { st := .active, typ := .completion, idx := 1, size := 16, written := 15 }, 0,
        1, 15, 256, 15, ?_⟩
      try unfold State.takes
      try unfold State.issues
      decide +kernel,
   by
      refine ⟨readyFn.setQueue 0 { st := .active, csize := 16, written := 15 }, 0, 0, 15, 0, 15, ?_⟩
      try unfold State.takes
      try unfold State.issues
      decide +kernel,
   by
      refine ⟨readyFn.setQueue 256 { st := .active, typ := .event, idx := 1, size := 16, tail := 15 }, 0, 1, 15,
        256, 15, ?_⟩
      try unfold State.takes
      try unfold State.issues
      decide +kernel⟩

theorem witness_QueueTraffic :
    (∃ (s m u : State) (q : Nat) (l : List (List Byte)) (x : Queue), (s.nextTurn = some q) ∧ (x = s.queue q) ∧
      (s.parseJob x = .job l) ∧ (m = s.markPauses) ∧ (u = (({ m with
      host := { m.host with lastFn := x.fn, lastIdx := tabSet (fun _ => 0) m.host.lastIdx x.fn x.idx } } :
        State).setQueue q { x with
        head := (x.head + l.length) % x.size, nextSeq := x.nextSeq + 1, paused := false, jobs := x.jobs ++ [{
          q := q, seq := x.nextSeq, sqHead := (x.head + l.length) % x.size, entries := l }] }).qmgrCount x.fn
            x.typ.code) ∧ (u.chanOf q = none)) ∧
    (∃ (s : State) (j : Job), (s.jobReady j = true) ∧ (accepts (s.queue j.q).typ j.opcode = false) ∧ (s.queue
      j.q).typ ≠ .dma) ∧
    (∃ (s u : State) (c : Fin 4096) (d : Compl), (s.nextDone c.val = some d) ∧ (s.queue c.val).st ≠ .error ∧ (u =
      (s.retire d).ringPut c.val d.bytes false)) ∧
    (∃ (s : State) (q : Fin 4096) (x : Notice), (s.host.notices.find? (fun e => decide (e.q = q.val)) = some x) ∧
      ((s.queue x.cq).st ≠ .error ∨ x.cq = x.q) ∧ s.freeSlots x.cq ≠ 0) ∧
    (∃ (s : State) (q : Fin 4096), ((s.queue q.val).st = .active) ∧ ((s.queue q.val).typ = .completion ∨ (s.queue
      q.val).typ = .event) ∧ 0 < (s.queue q.val).unsig) ∧
    (∃ (s : State) (q : Fin 4096), ((s.queue q.val).st = .stopping) ∧ ((s.queue q.val).jobs = []) ∧ ((s.queue
      q.val).drawn = none)) ∧
    (∃ (s : State) (q : Fin 4096) (r : List Byte), ((s.queue q.val).typ = .event) ∧ ((s.queue q.val).st = .active)) :=
  ⟨by
      refine ⟨FETCH, FETCH.markPauses, FETCHU, 0, [entryOf 32 [(0, 1, 0x13), (1, 1, 3)]], FETCH.queue 0, ?_⟩
      try unfold State.takes
      try unfold State.issues
      decide +kernel,
   by
      refine ⟨readyJob (mkJob 0xFF []), mkJob 0xFF [], ?_⟩
      try unfold State.takes
      try unfold State.issues
      decide +kernel,
   by
      refine ⟨DONE, (DONE.retire DONEC).ringPut 0 DONEC.bytes false, 0, DONEC, ?_⟩
      try unfold State.takes
      try unfold State.issues
      decide +kernel,
   ⟨NOTS, 0, _, (rfl), (by decide +kernel), (by decide +kernel)⟩,
   by
      refine ⟨ready.setQueue 256 { st := .active, typ := .event, unsig := 1, coalUs := 1 }, 256, ?_⟩
      try unfold State.takes
      try unfold State.issues
      decide +kernel,
   by
      refine ⟨ready.setQueue 256 { st := .stopping, typ := .update }, 256, ?_⟩
      try unfold State.takes
      try unfold State.issues
      decide +kernel,
   by
      refine ⟨ready.setQueue 256 { st := .active, typ := .event, size := 16 }, 256, [], ?_⟩
      try unfold State.takes
      try unfold State.issues
      decide +kernel⟩

theorem witness_QueueCommands :
    (∃ (s b : State) (j : Job) (q : Nat) (t : QType), (s.takes { op := 0x01, owner := false } j b) ∧ (j.byte 0 4 =
      t.code) ∧ (t = .completion ∨ t = .event) ∧ (j.only [(4, 4), (8, 8), (16, 4), (20, 2), (22, 2), (24, if t =
      .event then 8 else 1)] = true) ∧ (j.byte 0 5 = 0 ∧ j.le 6 2 ≠ 0 ∧ j.le 6 2 < 512 ∧ j.le 8 8 % 256 = 0) ∧ (16
      ≤ j.le 16 4 ∧ j.le 16 4 ≤ 65536 ∧ isPow2 (j.le 16 4) = true) ∧ (if t = .event then j.le 24 8 % 8 = 0 else
      j.byte 0 24 = 0) ∧ (b.findQ (b.jobFn j) (j.le 6 2) = none) ∧ b.runQueues (b.jobFn j) < b.quota (b.jobFn j) ∧
      (b.freeQ = some q)) ∧
    (∃ (s b : State) (j : Job) (q c : Nat) (t : QType), (s.takes { op := 0x01, owner := false } j b) ∧ (j.byte 0 4
      = t.code) ∧ (t = .inject ∨ t = .update ∨ t = .search) ∧ (j.only [(4, 4), (8, 8), (16, 4), (20, 2), (22, 2),
      (24, 1)] = true) ∧ (j.byte 0 5 = 0 ∧ j.le 6 2 ≠ 0 ∧ j.le 6 2 < 512 ∧ j.le 8 8 % 256 = 0) ∧ (16 ≤ j.le 16 4 ∧
      j.le 16 4 ≤ 65536 ∧ isPow2 (j.le 16 4) = true) ∧ (if t = .inject then j.byte 0 24 < 16 else j.byte 0 24 = 0)
      ∧ (b.complQ (b.jobFn j) (j.le 20 2) = some c) ∧ (b.findQ (b.jobFn j) (j.le 6 2) = none) ∧ b.runQueues
      (b.jobFn j) < b.quota (b.jobFn j) ∧ (b.freeQ = some q) ∧ b.creditSum c + j.le 22 2 ≤ (b.queue c).size) ∧
    (∃ (s b : State) (j : Job) (q c : Nat), (s.takes { op := 0x01, owner := false } j b) ∧ (j.byte 0 4 = 5) ∧
      (j.only [(4, 4), (8, 8), (16, 4), (20, 2), (22, 2), (24, 1)] = true) ∧ (j.byte 0 5 = 0 ∧ j.le 6 2 ≠ 0 ∧ j.le
      6 2 < 512 ∧ j.le 8 8 % 256 = 0) ∧ (16 ≤ j.le 16 4 ∧ j.le 16 4 ≤ 65536 ∧ isPow2 (j.le 16 4) = true) ∧ (j.byte
      0 24 < 28 ∧ b.chanBound (j.byte 0 24) = false) ∧ (b.rd (chanBase (j.byte 0 24)) Reg.PURLIN_CHAN_B_CHAN_FUNC =
      0xFFFF ∨ b.rd (chanBase (j.byte 0 24)) Reg.PURLIN_CHAN_B_CHAN_FUNC = b.jobFn j) ∧ (b.complQ (b.jobFn j) (j.le
      20 2) = some c) ∧ (b.findQ (b.jobFn j) (j.le 6 2) = none) ∧ b.runQueues (b.jobFn j) < b.quota (b.jobFn j) ∧
      (b.freeQ = some q) ∧ b.creditSum c + j.le 22 2 ≤ (b.queue c).size) ∧
    (∃ (s b u : State) (j : Job) (q a : Nat), (s.takes { op := 0x01, owner := false } j b) ∧ (j.byte 0 4 = 2) ∧
      (j.only [(4, 4), (8, 8), (16, 4), (20, 2), (22, 2), (24, 8)] = true) ∧ (j.byte 0 5 < 64 ∧ j.le 6 2 ≠ 0 ∧ j.le
      6 2 < 512 ∧ j.le 8 8 % 256 = 0 ∧ j.le 24 8 % 8 = 0) ∧ (16 ≤ j.le 16 4 ∧ j.le 16 4 ≤ 65536 ∧ isPow2 (j.le 16
      4) = true) ∧ (j.le 20 2 = 0xFFFF ∨ (b.complQ (b.jobFn j) (j.le 20 2)).isSome = true) ∧ (b.poolHolder (j.byte
      0 5) = b.jobFn j ∧ b.poolState (j.byte 0 5) ≠ 0 ∧ b.poolInDram (j.byte 0 5) = false ∧ b.puntCount (j.byte 0
      5) < 15) ∧ (b.findQ (b.jobFn j) (j.le 6 2) = none ∧ b.claimed (b.fnLink (b.jobFn j)) &&& j.le 22 2 = 0) ∧
      b.runQueues (b.jobFn j) < b.quota (b.jobFn j) ∧ (b.freeQ = some q) ∧ ((b.setQueue q {
      st := .active, typ := .punt, fn := b.jobFn j, idx := j.le 6 2, base := j.le 8 8, size := j.le 16 4, cq :=
        j.le 20 2, creditMin := j.le 22 2, pool := j.byte 0 5, wb := j.le 24 8, nextSeq := (b.queue q).nextSeq
        }).acctMake (j.byte 0 5) (j.le 6 2) = some (a, u))) ∧
    (∃ (s b : State) (j : Job) (q : Nat), (s.takes { op := 0x02, owner := false } j b) ∧ (j.le 6 2 ≠ 0 ∧ j.le 6 2 <
      512 ∧ j.one = true) ∧ (b.findQ (b.jobFn j) (j.le 6 2) = some q) ∧ ((b.queue q).typ = .completion →
      (b.host.queues.any (fun e => binds (b.queue q) e || decide (e.2.typ = .punt ∧ e.2.st ≠ .absent ∧ e.2.fn =
      b.jobFn j ∧ e.2.cq = j.le 6 2))) = false)) ∧
    (∃ (s b : State) (j : Job) (q : Nat), (s.takes { op := 0x03, owner := false } j b) ∧ (j.le 6 2 < 512 ∧ j.one =
      true) ∧ (b.findQ (b.jobFn j) (j.le 6 2) = some q)) ∧
    (∃ (s b : State) (j : Job) (q : Nat), (s.takes { op := 0x04, owner := false } j b) ∧ (j.le 6 2 < 512 ∧ j.one =
      true) ∧ (b.findQ (b.jobFn j) (j.le 6 2) = some q) ∧ ((b.queue q).typ = .completion ∨ (b.queue q).typ =
      .event)) ∧
    (∃ (s b : State) (j : Job), (s.takes { op := 0x13, owner := false } j b)) :=
  ⟨by
      refine ⟨readyJob MKC, (readyJob MKC).startJob MKC, MKC, 256, .completion, ?_⟩
      try unfold State.takes
      try unfold State.issues
      decide +kernel,
   by
      refine ⟨(readyJob MKI).setQueue 256 CQ1, ((readyJob MKI).setQueue 256 CQ1).startJob MKI, MKI, 257, 256,
        .inject, ?_⟩
      try unfold State.takes
      try unfold State.issues
      decide +kernel,
   by
      refine ⟨MKDS, MKDS.startJob MKD, MKD, 257, 256, ?_⟩
      try unfold State.takes
      try unfold State.issues
      decide +kernel,
   ⟨MKPS, MKPS.startJob MKP, _, MKP, 256, 0, takes_of (by decide +kernel), (by decide +kernel),
     (by decide +kernel), (by decide +kernel), (by decide +kernel), (by decide +kernel), (by decide +kernel),
     (by decide +kernel), (by decide +kernel), (by decide +kernel),
     (acctMake_new (by decide +kernel) (by decide +kernel))⟩,
   by
      refine ⟨(readyJob QD).setQueue 256 CQ1, ((readyJob QD).setQueue 256 CQ1).startJob QD, QD, 256, ?_⟩
      try unfold State.takes
      try unfold State.issues
      decide +kernel,
   by
      refine ⟨readyJob QQ, (readyJob QQ).startJob QQ, QQ, 0, ?_⟩
      try unfold State.takes
      try unfold State.issues
      decide +kernel,
   by
      refine ⟨(readyJob QC).setQueue 256 CQ1, ((readyJob QC).setQueue 256 CQ1).startJob QC, QC, 256, ?_⟩
      try unfold State.takes
      try unfold State.issues
      decide +kernel,
   by
      refine ⟨readyJob (mkJob 0x13 []), (readyJob (mkJob 0x13 [])).startJob (mkJob 0x13 []), mkJob 0x13 [], ?_⟩
      try unfold State.takes
      try unfold State.issues
      decide +kernel⟩

theorem witness_FrameAndResourceCommands :
    (∃ (s b : State) (j : Job) (f g : Frame) (i k : Nat) (cs : List Nat) (u v : State), (s.takes {
      op := 0x0A, owner := false, safe := true } j b) ∧ (injectPlain j = true) ∧ (j.byte 0 5 = (b.queue j.q).tc) ∧
        (j.bit 4 0 = true → b.injectAllowed (b.jobFn j) (j.le 16 2) = true) ∧ (f = {
        bytes := b.hostRd (b.jobLink j) (j.le 8 8) (j.le 6 2), recv := b.hostRd (b.jobLink j) (j.le 8 8) (j.le 6
          2), ended := true, inPort := 128 + b.jobLink j, inTc := j.byte 0 5, pairPort := 128 + b.jobLink j, pairTc
          := j.byte 0 5, injected := true, rx := if j.bit 4 5 then some {
          t := (j.leAt 1 16 6 * 10 ^ 9 + j.leAt 1 24 4) * 256 + j.byte 1 28, cal := false } else none, outTc :=
            j.byte 0 5, ptp := {
            act := j.bits 18 1 0, residence := j.bit 18 2, tag := j.le 20 2, off := if j.bits 18 2 0 = 0 then none
              else some (j.byte 0 19), l4 := if j.bit 18 3 then some (j.byte 0 22) else none } }) ∧ (k = cellsFor
              (f.bytes.length + 4)) ∧ (b.newFrame f = (i, u)) ∧ (u.chargeCells (128 + b.jobLink j) (j.byte 0 5) k =
              (cs, v)) ∧ (g = { f with cells := cs.length, held := cs })) ∧
    (∃ (s t u v w : State) (p : Fin 4096) (x : Queue) (f : Frame) (a q order n : Nat) (e : Copy) (l : List Byte)
      (cut : Bool), (x = s.queue p.val) ∧ (x.drawn = some a ∧ x.punting = some (q, order)) ∧ ((s.egq q).all.find?
      (fun c => decide (c.order = order)) = some e) ∧ (f = s.frame e.frame ∧ n = 2 ^ s.poolShift x.pool - 64) ∧
      (s.leaveInner (128 + s.fnLink x.fn) { q := q, copy := e } = (l, t) ∧ cut = decide (n < l.length)) ∧ (u =
      ((t.hostWr (s.fnLink x.fn) a ((if e.sample then List.replicate 32 0 else padTo 32 f.user) ++ List.replicate
      32 0 ++ l.take n)).hostWr (s.fnLink x.fn) (x.base + 32 * x.tail) (puntEntry a l.length f.inPort (s.qTc q)
      x.pool (l.take n).length cut e.sample f)).setQueue p.val { x with
      tail := (x.tail + 1) % x.size, drawn := none, punting := none }) ∧ (v = (u.writeBack p.val).leaveCounted q e
        (l.length + 4)) ∧ (w = if cut then v.count 157 (64 + x.pool) 1 else v)) ∧
    (∃ (s : State) (n : Fin 141) (m : Fin 2) (q k : Nat), (s.macBusy n.val m.val = false) ∧ (s.resendReady n.val
      m.val = none) ∧ (s.chosen n.val m.val = some (q, k))) ∧
    (∃ (s : State) (n : Fin 141) (m : Fin 2) (e : Nat × Sending), (s.macBusy n.val m.val = false) ∧ (s.resendReady
      n.val m.val = some e)) ∧
    (∃ (s b : State) (j : Job), (s.takes { op := 0x10 } j b) ∧ (assignBad j (j.byte 0 4) (j.byte 0 6) (j.le 8 4)
      (j.le 12 4) = false) ∧ (b.assignLimit (j.byte 0 4) (j.byte 0 6) (j.le 12 4) = false) ∧ (b.fnExists (j.byte 0
      6) = true) ∧ (b.assignBusy (j.byte 0 4) (j.byte 0 6) (j.le 8 4) (j.le 12 4) = false) ∧ (j.byte 0 4 = 2 →
      b.rangeRefused (j.byte 0 5) (j.le 8 4) (j.byte 0 16) (j.le 12 4) = false)) ∧
    (∃ (s b : State) (j : Job) (l : List (Nat × Nat)) (f : Nat), (s.takes { op := 0x11, owner := false } j b) ∧ (f
      = if b.jobFn j = b.owner then j.byte 0 6 else b.jobFn j) ∧ (j.byte 0 4 ≤ 7 ∧ j.byte 0 5 ≤ 7 ∧ j.byte 0 7 = 0
      ∧ j.only [(4, 4), (16, 8)] = true) ∧ ((j.byte 0 4 ≠ 2 → j.byte 0 5 = 0) ∧ (j.byte 0 4 = 6 → f < 4)) ∧
      (b.fnExists f = true) ∧ (l = b.holdings (j.byte 0 4) f (j.byte 0 5))) ∧
    (∃ (s b : State) (j : Job), (s.takes { op := 0x12 } j b) ∧ (b.linkPresent (j.byte 0 4) = true) ∧ (100 ≤ j.le 8
      4 ∧ j.le 8 4 ≤ 25000 ∧ j.byte 0 12 < 2 ∧ j.only [(4, 1), (8, 4), (12, 1), (16, 8)] = true)) :=
  ⟨⟨INJS, INJS.startJob INJ, INJ, INJF, _, 0, 1, _, ((INJS.startJob INJ).newFrame INJF).2, _,
     takes_of (by decide +kernel), (by decide +kernel), (by decide +kernel), (by decide +kernel),
     (by decide +kernel), (by decide +kernel), ((Prod.ext (by decide +kernel) rfl)), (rfl), (rfl)⟩,
   ⟨PUNTS, _, _, _, _, 256, _, _, 4096, 2048, 0, _, { frame := 0, order := 0 }, _, _, rfl, (by decide +kernel),
     (by decide +kernel), (⟨rfl, rfl⟩), (⟨rfl, rfl⟩), rfl, rfl, rfl⟩,
   by
      refine ⟨ready.setPort 0 { ready.port 0 with chosen := [(0, some (0, 0))] }, 0, 0, 0, 0, ?_⟩
      try unfold State.takes
      try unfold State.issues
      decide +kernel,
   ⟨RSND, 127, 0, _, (by decide +kernel), (Option.some_get (by decide +kernel)).symm⟩,
   by
      refine ⟨(readyJob (mkJob 0x10 [(4, 1, 0), (6, 1, 255), (8, 4, 127), (12, 4, 1)])), ((readyJob (mkJob 0x10
        [(4, 1, 0), (6, 1, 255), (8, 4, 127), (12, 4, 1)]))).startJob (mkJob 0x10 [(4, 1, 0), (6, 1, 255), (8, 4,
        127), (12, 4, 1)]), mkJob 0x10 [(4, 1, 0), (6, 1, 255), (8, 4, 127), (12, 4, 1)], ?_⟩
      try unfold State.takes
      try unfold State.issues
      decide +kernel,
   by
      refine ⟨(readyJob (mkJob 0x11 [(4, 1, 1)])), ((readyJob (mkJob 0x11 [(4, 1, 1)]))).startJob (mkJob 0x11 [(4,
        1, 1)]), mkJob 0x11 [(4, 1, 1)], [(0, 511)], 0, ?_⟩
      try unfold State.takes
      try unfold State.issues
      decide +kernel,
   by
      refine ⟨(readyJob (mkJob 0x12 [(8, 4, 25000), (12, 1, 1)])), ((readyJob (mkJob 0x12 [(8, 4, 25000), (12, 1,
        1)]))).startJob (mkJob 0x12 [(8, 4, 25000), (12, 1, 1)]), mkJob 0x12 [(8, 4, 25000), (12, 1, 1)], ?_⟩
      try unfold State.takes
      try unfold State.issues
      decide +kernel⟩

theorem witness_HostLinks :
    (∃ (s : State) (j : Fin 4) (rate : Fin 7) (width : Fin 17) (flit : Bool), (s.linkPresent j.val = true ∧ (s.link
      j.val).training = true ∧ (s.link j.val).perst = false) ∧ ((s.link j.val).up = false ∧ s.devState ≠ 0 ∧
      s.trainable j.val rate.val width.val flit = true)) ∧
    (∃ (s u : State) (j : Fin 4) (us : Word32), ((s.link j.val).up = true) ∧ (u = ((s.setLink j.val { s.link j.val
      with l1 := false }).inc (wHif + 16 * j.val) Reg.HIF_LINK_STATUS_RECOVERIES 1).setL0 j.val true)) ∧
    (∃ (s : State) (j : Fin 4) (tag : Nat), ((s.link j.val).up = true ∧ (s.link j.val).dlActive = true) ∧ (tag =
      s.linkTag j.val)) ∧
    (∃ (s : State) (j : Fin 4) (hot : Bool), ((s.link j.val).up = true)) ∧
    (∃ (s u w : State) (f : Fin 256), (s.fnExists f.val = true ∧ (s.fn f.val).resetting = none ∧ 4 ≤ f.val) ∧ (u =
      ((((s.setFn f.val { resetting := some 0, quota := (s.fn f.val).quota }).destroyAll f.val true).abortBatches
      f.val).maskAll f.val).dropLatches f.val) ∧ (w = u.setLink (u.fnLink f.val) { u.link (u.fnLink f.val) with
      heldTimers := (u.link (u.fnLink f.val)).heldTimers.filter (fun t => decide (t.1 ≠ f.val)) })) ∧
    (∃ (s : State) (f : Fin 256), f.val < 4) ∧
    (∃ (s u v : State) (f : Fin 256) (c : Nat), ((s.fn f.val).resetting = some c) ∧ (u = (s.setFn f.val { s.fn
      f.val with resetting := none }).clearRegs (s.fnBase f.val) 0x1000 0x8000) ∧ (v = (if f.val = s.owner then u
      else u.clearRegs (s.fnBase f.val) 0xF008 0xF014).updateWin (.fn f))) ∧
    (∃ (s : State) (f : Fin 256) (tag : BitVec 14), (s.fnExists f.val = true)) ∧
    (∃ (s : State) (f : Fin 256) (k : ReqKind) (tag : BitVec 14), (s.fnExists f.val = true ∧ (s.fn f.val).ctoDis =
      false ∧ (s.link (s.fnLink f.val)).up = true) ∧ ((s.link (s.fnLink f.val)).heldTimers = [] ∧ s.inL0 (s.fnLink
      f.val) = true)) ∧
    (∃ (s : State) (f : Fin 256) (i : Fin 576), (s.msixPending f.val i.val = true) ∧ (s.canSend f.val i.val = true)) ∧
    (∃ (s u : State) (j : Fin 4), (s.linkPresent j.val = true ∧ s.devState ≠ 0) ∧ (u = s.setLink j.val { s.link
      j.val with perst := true, training := false }) ∧ (u.linkPresent j.val = s.linkPresent j.val)) ∧
    (∃ (s : State) (j : Fin 4), ((s.link j.val).perst = true)) :=
  ⟨by
      refine ⟨ready.setLink 0 { perst := false, training := true }, 0, 6, 16, true, ?_⟩
      try unfold State.takes
      try unfold State.issues
      decide +kernel,
   by
      refine ⟨LUP, ((LUP.setLink 0 { LUP.link 0 with l1 := false }).inc wHif Reg.HIF_LINK_STATUS_RECOVERIES
        1).setL0 0 true, 0, 1, ?_⟩
      try unfold State.takes
      try unfold State.issues
      decide +kernel,
   by
      refine ⟨LUP, 0, LUP.linkTag 0, ?_⟩
      try unfold State.takes
      try unfold State.issues
      decide +kernel,
   by
      refine ⟨LUP, 0, true, ?_⟩
      try unfold State.takes
      try unfold State.issues
      decide +kernel,
   by
      refine ⟨ready, FLRU, FLRU, 255, ?_⟩
      try unfold State.takes
      try unfold State.issues
      decide +kernel,
   ⟨ready, 3, (by decide +kernel)⟩,
   ⟨FRD, _, _, 255, 0, (by decide +kernel), rfl, rfl⟩,
   by
      refine ⟨ready, 0, 0, ?_⟩
      try unfold State.takes
      try unfold State.issues
      decide +kernel,
   by
      refine ⟨LUP, 0, .other, 0, ?_⟩
      try unfold State.takes
      try unfold State.issues
      decide +kernel,
   by
      refine ⟨MSIXS, 0, 551, ?_⟩
      try unfold State.takes
      try unfold State.issues
      decide +kernel,
   by
      refine ⟨LUP, LUP.setLink 0 { LUP.link 0 with perst := true, training := false }, 0, ?_⟩
      try unfold State.takes
      try unfold State.issues
      decide +kernel,
   by
      refine ⟨ready, 3, ?_⟩
      try unfold State.takes
      try unfold State.issues
      decide +kernel⟩

theorem witness_PortCommands :
    (∃ (s b : State) (j : Job) (n w : Nat) (u v : State), (s.takes { op := 0x20, owner := false } j b) ∧ (n = j.le
      4 2 ∧ n < 128 ∧ b.portHolder n = b.jobFn j) ∧ (j.only [(4, 7), (12, 6)] = true ∧ j.byte 0 9 < 16 ∧ j.byte 0
      10 < 32 ∧ j.bits 10 4 2 < 4 ∧ 64 ≤ j.le 6 2 ∧ j.le 6 2 ≤ 16384) ∧ (modeOk (j.byte 0 8) = true ∧ modeFits n
      (j.byte 0 8) = true ∧ fecOk (j.byte 0 8) (j.bits 9 3 0) = true) ∧ (13 ≤ n % 16 → groupActive (b.groupMode n)
      (n % 16) = true ∧ j.byte 0 8 = b.groupMode n) ∧ (n % 16 = 12 → j.byte 0 8 = b.cfgMode n ∨ (rangeFrom (16 * (n
      / 16) + 13) 3).any b.enabled = false) ∧ ((b.settled n).express n = true → expressMode (j.byte 0 8) (j.bits 9
      3 0) = true) ∧ (w = setBits (setBits (setBits (setBits (setBits (b.reg (wPort n)) 24 24 (j.bits 10 0 0)) 23
      23 (j.bits 10 1 1)) 22 20 (j.bits 10 4 2)) 19 16 (j.bits 9 3 0)) 15 8 (j.byte 0 8)) ∧ (u = (((b.setReg (wPort
      n) w).wr (wPort n) Reg.PORT_FRAME_MAX_FRAME (j.le 6 2)).wr (wPort n) Reg.PORT_MAC_ADDR_LO_MAC_ADDR (beNat
      (j.bytes 0 12 6) % 2 ^ 32)).wr (wPort n) Reg.PORT_MAC_ADDR_HI_MAC_ADDR (beNat (j.bytes 0 12 6) / 2 ^ 32)) ∧
      ((u.autoHdrm n).reshare = some v)) ∧
    (∃ (s b : State) (j : Job) (n : Nat), (s.takes { op := 0x21, owner := false } j b) ∧ (n = j.le 4 2 ∧ n < 128 ∧
      b.portHolder n = b.jobFn j) ∧ (j.only [(4, 3)] = true ∧ j.byte 0 6 < 2) ∧ (j.bit 6 0 = true → (13 ≤ n % 16 →
      groupActive (b.groupMode n) (n % 16) = true) ∧ b.cfgMode n ≠ 0)) ∧
    (∃ (s b : State) (j : Job) (n : Nat), (s.takes { op := 0x22, owner := false } j b) ∧ (n = j.le 4 2 ∧ n < 128 ∧
      b.portHolder n = b.jobFn j) ∧ (j.only [(4, 2), (8, 8)] = true)) ∧
    (∃ (s b : State) (j : Job) (n : Nat) (u : State), (s.takes { op := 0x23, owner := false } j b) ∧ (n = j.le 4 2
      ∧ n < 128 ∧ b.portHolder n = b.jobFn j) ∧ (j.only [(4, 3), (8, 8)] = true ∧ j.byte 0 6 < 2) ∧ (-262144 ≤ sInt
      32 (j.le 8 4) ∧ sInt 32 (j.le 8 4) ≤ 262143 ∧ -262144 ≤ sInt 32 (j.le 12 4) ∧ sInt 32 (j.le 12 4) ≤ 262143) ∧
      (j.bit 6 0 = true → b.portUp n = true) ∧ (u = ((b.setCal n 4 (sInt 32 (j.le 8 4))).setCal n 5 (sInt 32 (j.le
      12 4))).calTotals n)) ∧
    (∃ (s b : State) (j : Job) (n : Nat) (nib quanta : Nat → Nat) (u v x : State), (s.takes {
      op := 0x24, owner := false } j b) ∧ (n = j.le 4 2 ∧ n < 128 ∧ b.portHolder n = b.jobFn j) ∧ (∀ t, nib t =
        j.bits (10 + t / 2) (4 * (t % 2) + 3) (4 * (t % 2))) ∧ (∀ k, quanta k = if k = 0 then j.leAt 1 6 2 else
        j.le (16 + 2 * k) 2) ∧ (j.len = 2 ∧ j.flagsPlain = true ∧ j.byte 0 6 < 3 ∧ j.byte 0 7 = 0 ∧ j.zero 1 4 2 =
        true ∧ j.zero 1 8 24 = true) ∧ (((rangeFrom 0 16).any fun t => decide (8 ≤ nib t)) = false) ∧ ((b.settled
        n).express n = true → expressPfcBad (nib 14) (nib 15) (j.byte 0 8) (j.byte 0 9) = false) ∧ (u = forEach
        (rangeFrom 0 8) (fun k s => s.wr (wPort n + 4 * k) Reg.PORT_PFC_QUANTA_QUANTA (quanta k)) (forEach
        (rangeFrom 0 16) (fun t s => s.wr (wPort n) (Reg.PORT_PFC_MAP_TC t) (nib t)) (((b.wr (wPort n)
        Reg.PORT_CFG_PAUSE_MODE (j.byte 0 6)).wr (wPort n) Reg.PORT_PFC_CFG_PFC_TX_EN (j.byte 0 8)).wr (wPort n)
        Reg.PORT_PFC_CFG_PFC_RX_EN (j.byte 0 9)))) ∧ ((u.autoHdrm n).reshare = some v) ∧ (x = (v.lossyXon
        n).xonAll)) ∧
    (∃ (s b : State) (j : Job) (n : Nat) (x u v : State), (s.takes { op := 0x25, owner := false } j b) ∧ (n = j.le
      4 2 ∧ n < 128 ∧ b.portHolder n = b.jobFn j) ∧ (j.only [(4, 5), (10, 2)] = true ∧ j.byte 0 6 < 4 ∧ j.byte 0 7
      < 4 ∧ j.byte 0 8 ≠ 0 ∧ j.byte 0 8 ≤ 128) ∧ (x = if b.portSends n then b.settled n else b) ∧ (u = ((((x.wr
      (wPort n) Reg.PORT_CFG_PREEMPT_EN (j.bits 6 0 0)).wr (wPort n) Reg.PORT_PREEMPT_VERIFY_DIS (j.bits 6 1 1)).wr
      (wPort n) Reg.PORT_PREEMPT_FRAG_ADD_FRAG_SIZE (j.byte 0 7)).wr (wPort n) Reg.PORT_PREEMPT_VERIFY_TIME (j.byte
      0 8)).wr (wPort n) Reg.PORT_PREEMPT_EXPRESS_TC (j.le 10 2 ||| 0xC000)) ∧ (((u.startVerify n).autoHdrm
      n).reshare = some v)) ∧
    (∃ (s b : State) (j : Job) (n : Nat) (img : List Byte), (s.takes { op := 0x26, owner := false } j b) ∧ (n =
      j.le 4 2 ∧ n < 128 ∧ b.portHolder n = b.jobFn j) ∧ (j.only [(4, 3), (8, 12)] = true ∧ j.byte 0 6 < 2 ∧ j.le 8
      8 % 8 = 0) ∧ (img = b.hostRd (b.jobLink j) (j.le 8 8) (min (j.le 16 4) 2080)) ∧ (j.bit 6 0 = true → gclBad
      img (j.le 16 4) = false ∧ gclReserved img = false)) ∧
    (∃ (s b : State) (j : Job) (n : Nat), (s.takes { op := 0x27, owner := false } j b) ∧ (n = j.le 4 2 ∧ n < 128 ∧
      b.portHolder n = b.jobFn j) ∧ (j.only [(4, 2), (8, 8)] = true)) ∧
    (∃ (s b : State) (j : Job) (n : Nat) (x u v : State), (s.takes { op := 0x28, owner := false } j b) ∧ (n = j.le
      4 2 ∧ n < 128 ∧ b.portHolder n = b.jobFn j) ∧ (j.only [(4, 3), (8, 4)] = true ∧ j.byte 0 6 < 2) ∧ (j.bit 6 0
      = true → (b.settled n).express n = false ∧ eeeMode (b.cfgMode n) = true) ∧ (x = if b.portSends n then
      b.settled n else b) ∧ (u = ((x.wr (wPort n) Reg.PORT_CFG_EEE_EN (b2n (j.bit 6 0))).wr (wPort n)
      Reg.PORT_EEE_LPI_TIMER (j.le 8 2)).wr (wPort n) Reg.PORT_EEE_TW_SYS_TX (j.le 10 2)) ∧ (((if b2n (j.bit 6 0) =
      0 ∧ u.rdb (wPort n) Reg.PORT_STATUS_LPI_TX = true then u.wake n else u).autoHdrm n).reshare = some v)) ∧
    (∃ (s b : State) (j : Job) (n : Nat), (s.takes { op := 0x29, owner := false } j b) ∧ (n = j.le 4 2 ∧ n < 128 ∧
      b.portHolder n = b.jobFn j) ∧ (j.only [(4, 3)] = true ∧ j.byte 0 6 < 2) ∧ (j.bit 6 0 = true → expressMode
      (b.cfgMode n) (b.cfgFec n) = true ∧ (b.settled n).rdb (wPort n) Reg.PORT_CFG_EEE_EN = false ∧ expressPfcBad
      (b.prioOf n 14) (b.prioOf n 15) (b.rd (wPort n) Reg.PORT_PFC_CFG_PFC_TX_EN) (b.rd (wPort n)
      Reg.PORT_PFC_CFG_PFC_RX_EN) = false) ∧ (j.bit 6 0 = false → b.esch.nodes = [])) :=
  ⟨⟨readyJob PCFG, _, PCFG, 112, _, _, _, takes_of (by decide +kernel), (by decide +kernel), (by decide +kernel),
     (by decide +kernel), (by decide +kernel), (by decide +kernel), (by decide +kernel), rfl, rfl,
     (Option.some_get (reshare_some (by decide +kernel))).symm⟩,
   by
      refine ⟨(readyJob (mkJob 0x21 [(4, 2, 127), (6, 1, 0)])), ((readyJob (mkJob 0x21 [(4, 2, 127), (6, 1,
        0)]))).startJob (mkJob 0x21 [(4, 2, 127), (6, 1, 0)]), mkJob 0x21 [(4, 2, 127), (6, 1, 0)], 127, ?_⟩
      try unfold State.takes
      try unfold State.issues
      decide +kernel,
   by
      refine ⟨(readyJob (mkJob 0x22 [(4, 2, 127)])), ((readyJob (mkJob 0x22 [(4, 2, 127)]))).startJob (mkJob 0x22
        [(4, 2, 127)]), mkJob 0x22 [(4, 2, 127)], 127, ?_⟩
      try unfold State.takes
      try unfold State.issues
      decide +kernel,
   by
      refine ⟨(readyJob (mkJob 0x23 [(4, 2, 127), (8, 4, 262143), (12, 4, 0xFFFC0000)])), ((readyJob (mkJob 0x23
        [(4, 2, 127), (8, 4, 262143), (12, 4, 0xFFFC0000)]))).startJob (mkJob 0x23 [(4, 2, 127), (8, 4, 262143),
        (12, 4, 0xFFFC0000)]), mkJob 0x23 [(4, 2, 127), (8, 4, 262143), (12, 4, 0xFFFC0000)], 127, PCALU, ?_⟩
      try unfold State.takes
      try unfold State.issues
      decide +kernel,
   ⟨readyJob PPFC, (readyJob PPFC).startJob PPFC, PPFC, 127, (fun t => PPFC.bits (10 + t / 2) (4 * (t % 2) + 3) (4
     * (t % 2))), (fun k => if k = 0 then PPFC.leAt 1 6 2 else PPFC.le (16 + 2 * k) 2), _, _, _,
     takes_of (by decide +kernel), (by decide +kernel), (fun _ => rfl), (fun _ => rfl), (by decide +kernel),
     (by decide +kernel), (by decide +kernel), rfl, (Option.some_get (reshare_some (by decide +kernel))).symm, rfl⟩,
   ⟨readyJob PPRE, _, PPRE, 127, _, _, _, takes_of (by decide +kernel), (by decide +kernel), (by decide +kernel),
     rfl, rfl, (Option.some_get (reshare_some (by decide +kernel))).symm⟩,
   by
      refine ⟨(readyJob (mkJob 0x26 [(4, 2, 127)])), ((readyJob (mkJob 0x26 [(4, 2, 127)]))).startJob (mkJob 0x26
        [(4, 2, 127)]), mkJob 0x26 [(4, 2, 127)], 127, [], ?_⟩
      try unfold State.takes
      try unfold State.issues
      decide +kernel,
   by
      refine ⟨(readyJob (mkJob 0x27 [(4, 2, 127)])), ((readyJob (mkJob 0x27 [(4, 2, 127)]))).startJob (mkJob 0x27
        [(4, 2, 127)]), mkJob 0x27 [(4, 2, 127)], 127, ?_⟩
      try unfold State.takes
      try unfold State.issues
      decide +kernel,
   ⟨readyJob PEEE, _, PEEE, 127, _, _, _, takes_of (by decide +kernel), (by decide +kernel), (by decide +kernel),
     (by decide +kernel), rfl, rfl, (Option.some_get (reshare_some (by decide +kernel))).symm⟩,
   by
      refine ⟨(readyJob (mkJob 0x29 [(4, 2, 127)])), ((readyJob (mkJob 0x29 [(4, 2, 127)]))).startJob (mkJob 0x29
        [(4, 2, 127)]), mkJob 0x29 [(4, 2, 127)], 127, ?_⟩
      try unfold State.takes
      try unfold State.issues
      decide +kernel⟩

theorem witness_PortLink :
    (∃ (s : State) (n : Fin 128) (common : Bool) (fec : Fin 16) (pause : Fin 4), (s.linkState n.val = 1 ∧ s.halting
      = false)) ∧
    (∃ (s : State) (n : Fin 128), (s.linkState n.val = 1 ∧ s.halting = false)) ∧
    (∃ (s : State) (n : Fin 128), (s.linkState n.val = 2 ∧ s.halting = false)) ∧
    (∃ (s : State) (n : Fin 128) (lane : BitVec 8), (s.linkState n.val = 2 ∧ s.halting = false)) ∧
    (∃ (s u v : State) (n : Fin 128), (s.linkState n.val = 3 ∧ s.halting = false ∧ (s.lanesOf n.val).any
      s.dev.laneBad.contains = false) ∧ (u = (s.setLink_ n.val 4).event Ev.LINK_UP 0 n.val (s.cfgMode n.val) (s.rd
      (wPort n.val) Reg.PORT_STATUS_FEC_RESOLVED)) ∧ (v = ((u.setPort n.val { u.port n.val with
      measuring := true, sentXoff := 0, refresh := 0, changed := u.xoffMask n.val }).startVerify
        n.val).portHeadroom n.val)) ∧
    (∃ (s : State) (n : Fin 128) (cause : Word32), (s.linkState n.val = 4 ∧ s.halting = false)) ∧
    (∃ (s : State) (n : Fin 128) (rx tx : Word32), (s.linkState n.val = 4 ∧ (s.port n.val).measuring = true)) ∧
    (∃ (s : State) (n : Fin 128), (s.portUp n.val = true ∧ s.rdb (wPort n.val) Reg.PORT_CFG_EEE_EN = true ∧ s.rdb
      (wPort n.val) Reg.PORT_STATUS_LPI_TX = false) ∧ (s.sending n.val 0 = none ∧ s.sending n.val 1 = none ∧
      s.chosen n.val 0 = none ∧ s.chosen n.val 1 = none) ∧ (eeeMode (s.cfgMode n.val) = true ∧ (s.port n.val).links
      = [] ∧ s.resendReady n.val 0 = none ∧ s.resendReady n.val 1 = none) ∧ ((s.port n.val).changed = 0 ∧ (s.port
      n.val).refresh = 0 ∧ (s.port n.val).waking = false) ∧ (s.ridge.queues.any (fun e => decide (s.qPort e.1 =
      n.val ∧ s.blockedBy e.1 = 0)) = false)) ∧
    (∃ (s : State) (n : Fin 128) (enter : Bool), (s.portUp n.val = true)) :=
  ⟨by
      refine ⟨ready.setLink_ 127 1, 127, true, 15, 3, ?_⟩
      try unfold State.takes
      try unfold State.issues
      decide +kernel,
   by
      refine ⟨ready.setLink_ 127 1, 127, ?_⟩
      try unfold State.takes
      try unfold State.issues
      decide +kernel,
   by
      refine ⟨ready.setLink_ 127 2, 127, ?_⟩
      try unfold State.takes
      try unfold State.issues
      decide +kernel,
   by
      refine ⟨ready.setLink_ 127 2, 127, 3, ?_⟩
      try unfold State.takes
      try unfold State.issues
      decide +kernel,
   ⟨ready.setLink_ 127 3, _, _, 127, (by decide +kernel), rfl, rfl⟩,
   by
      refine ⟨ready.setLink_ 127 4, 127, 1, ?_⟩
      try unfold State.takes
      try unfold State.issues
      decide +kernel,
   by
      refine ⟨(ready.setLink_ 127 4).setPort 127 { measuring := true }, 127, 0, 0xFFFFFFFF, ?_⟩
      try unfold State.takes
      try unfold State.issues
      decide +kernel,
   by
      refine ⟨((ready.setLink_ 127 4).wr (wPort 127) Reg.PORT_CFG_EEE_EN 1).wr (wPort 127) Reg.PORT_CFG_MODE 1,
        127, ?_⟩
      try unfold State.takes
      try unfold State.issues
      decide +kernel,
   by
      refine ⟨ready.setLink_ 127 4, 127, true, ?_⟩
      try unfold State.takes
      try unfold State.issues
      decide +kernel⟩

theorem witness_PortPauses :
    (∃ (s u : State) (n : Fin 128) (mask : Nat), (s.portUp n.val = true ∧ s.halting = false ∧ s.macFree n.val =
      true ∧ (s.port n.val).waking = false) ∧ ((s.port n.val).changed ≠ 0 ∨ (s.port n.val).refresh ≠ 0) ∧ (mask =
      (rangeFrom 0 8).foldl (fun a j => a + b2n (((((s.port n.val).changed &&& ((s.port n.val).sentXoff ^^^
      s.xoffMask n.val)).testBit j && ((s.xoffMask n.val).testBit j || decide (s.quanta n.val j ≠ 0))) || (((s.port
      n.val).refresh &&& (s.port n.val).sentXoff &&& s.xoffMask n.val).testBit j && decide (s.quanta n.val j ≠
      0)))) * 2 ^ j) 0) ∧ (u = s.setPort n.val { s.port n.val with
      changed := 0, refresh := 0, sentXoff := s.xoffMask n.val })) ∧
    (∃ (s : State) (n : Fin 128) (j : Fin 8), (s.portUp n.val = true ∧ s.halting = false ∧ (s.port
      n.val).sentXoff.testBit j.val = true ∧ (s.xoffMask n.val).testBit j.val = true ∧ s.quanta n.val j.val ≠ 0)) ∧
    (∃ (s u : State) (n : Fin 128) (vec : BitVec 8) (times : List (BitVec 16)), (s.portUp n.val = true) ∧ (u =
      forEach ((rangeFrom 0 8).filter (fun j => vec.toNat.testBit j)) (fun j s => s.portCount n.val (40 + j) 1)
      (s.portCount n.val 11 1))) ∧
    (∃ (s u : State) (n : Fin 128) (q : BitVec 16), (s.portUp n.val = true) ∧ (u = (s.portCount n.val 11
      1).portCount n.val 13 1)) ∧
    (∃ (s : State) (n : Fin 128), (s.portUp n.val = true)) ∧
    (∃ (s : State) (n : Fin 128), (s.rd (wPort n.val) Reg.PORT_STATUS_VERIFY_STATUS = 2)) ∧
    (∃ (s u : State) (n : Fin 128) (frag : Fin 4), (s.rd (wPort n.val) Reg.PORT_STATUS_VERIFY_STATUS = 2) ∧ (u =
      (s.wr (wPort n.val) Reg.PORT_STATUS_VERIFY_STATUS 3).wr (wPort n.val) Reg.PORT_STATUS_PREEMPT_ACTIVE 1)) ∧
    (∃ (s u : State) (n : Fin 128) (g : Gcl), ((s.port n.val).pending = some g) ∧ (s.port n.val).change ≤ s.nowNs ∧
      (u = ((s.setPort n.val { s.port n.val with
      gcl := some g, gclStart := (s.port n.val).change, pending := none, entry := g.entries.length - 1 }).wr (wPort
        n.val) Reg.PORT_STATUS_GCL_ACTIVE 1).wr (wPort n.val) Reg.PORT_STATUS_GCL_PENDING 0)) ∧
    (∃ (s u : State) (n : Fin 128) (g : Gcl) (e : Nat) (hold : Bool), ((s.port n.val).gcl = some g) ∧ (e = (g.at
      (s.port n.val).changeAt s.nowNs).1) ∧ (hold = if g.entries = [] then (s.port n.val).hold else (g.passed
      (s.port n.val).entry e).foldl (fun h x => if x.2.1 = 1 then true else if x.2.1 = 2 then false else h) (s.port
      n.val).hold) ∧ (u = s.setPort n.val { s.port n.val with
      entry := e, gates := (g.at (s.port n.val).changeAt s.nowNs).2.1, hold := hold })) ∧
    (∃ (s u v : State) (n : Fin 141) (m : Fin 2) (x : Sending) (l : List Byte) (d : Int) (one : Bool) (len : Nat),
      (s.sending n.val m.val = some x) ∧ (((s.frame x.copy.frame).ended = true ∨ (s.frame x.copy.frame).bad ≠ 0) ∧
      s.yields n.val m.val = false ∧ ¬(132 ≤ n.val ∧ n.val < 140)) ∧ ((u, l, d, one, len) = s.sendOut n.val x) ∧ (v
      = (((if n.val < 128 then (if x.copy.cut = true ∧ x.resend = false then ((u.count (256 + x.q / 256) (2 * (x.q
      % 256)) 1).count (256 + x.q / 256) (2 * (x.q % 256) + 1) len).commit x.q len |>.passLost n.val else (u.count
      (256 + x.q / 256) (2 * (x.q % 256)) 1).count (256 + x.q / 256) (2 * (x.q % 256) + 1) len).countBytes n.val 1
      len else if x.copy.cut = true ∧ x.resend = false then ((u.count (256 + x.q / 256) (2 * (x.q % 256)) 1).count
      (256 + x.q / 256) (2 * (x.q % 256) + 1) len).commit x.q len |>.passLost n.val else (u.count (256 + x.q / 256)
      (2 * (x.q % 256)) 1).count (256 + x.q / 256) (2 * (x.q % 256) + 1) len).txCapture n.val (s.frame
      x.copy.frame) x l d one).offerTx n.val x.copy.frame l).setSending n.val m.val none)) ∧
    (∃ (s u : State) (n : Fin 141) (m : Fin 2) (x : Sending) (l : List Byte) (len : Nat), (s.sending n.val m.val =
      some x) ∧ (((s.frame x.copy.frame).ended = true ∨ (s.frame x.copy.frame).bad ≠ 0) ∧ s.yields n.val m.val =
      false ∧ 132 ≤ n.val ∧ n.val < 140) ∧ ((l, u) = s.leaveInner n.val x ∧ len = l.length + 4)) :=
  ⟨⟨PFCS, _, 127, _, (by decide +kernel), (by decide +kernel), rfl, rfl⟩,
   ⟨PFCS, 127, 7, (by decide +kernel)⟩,
   by
      refine ⟨ready.setLink_ 127 4, (ready.setLink_ 127 4).portCount 127 11 1, 127, 0, [], ?_⟩
      try unfold State.takes
      try unfold State.issues
      decide +kernel,
   by
      refine ⟨ready.setLink_ 127 4, ((ready.setLink_ 127 4).portCount 127 11 1).portCount 127 13 1, 127, 65535, ?_⟩
      try unfold State.takes
      try unfold State.issues
      decide +kernel,
   by
      refine ⟨ready.setLink_ 127 4, 127, ?_⟩
      try unfold State.takes
      try unfold State.issues
      decide +kernel,
   by
      refine ⟨ready.wr (wPort 127) Reg.PORT_STATUS_VERIFY_STATUS 2, 127, ?_⟩
      try unfold State.takes
      try unfold State.issues
      decide +kernel,
   by
      refine ⟨VERS, (VERS.wr (wPort 127) Reg.PORT_STATUS_VERIFY_STATUS 3).wr (wPort 127)
        Reg.PORT_STATUS_PREEMPT_ACTIVE 1, 127, 3, ?_⟩
      try unfold State.takes
      try unfold State.issues
      decide +kernel,
   by
      refine ⟨GCLS, GCLSU, 127, {}, ?_⟩
      try unfold State.takes
      try unfold State.issues
      decide +kernel,
   ⟨ready.setPort 127 { gcl := some GCLG }, _, 127, GCLG, _, _, (by decide +kernel), rfl, rfl, rfl⟩,
   ⟨TXES, _, _, 127, 0, {}, _, _, _, _, (by decide +kernel), (by decide +kernel), (rfl), (rfl)⟩,
   ⟨TXRS, _, 139, 0, {}, _, _, (by decide +kernel), (by decide +kernel), (⟨rfl, rfl⟩)⟩⟩

theorem witness_PacketPath :
    (∃ (s : State) (p : Fin 8) (e f : Fin 3), ((s.pipe p.val).granted = []) ∧ (s.admits = true) ∧ ((s.pipe
      p.val).expiredClaim = none)) ∧
    (∃ (s u : State) (p : Fin 8) (ecc shadow : Fin 3) (i : Nat) (t : List Grant), ((s.pipe p.val).granted = .packet
      i :: t) ∧ ((s.pipe p.val).waiting.contains i = true) ∧ (u = s.setPipe p.val { s.pipe p.val with
      granted := t, waiting := (s.pipe p.val).waiting.erase i }) ∧ (s.graphValid p.val = false)) ∧
    (∃ (s u v : State) (p : Fin 8) (ecc shadow : Fin 3) (i : Nat) (t : List Grant) (x : Packet), ((s.pipe
      p.val).granted = .packet i :: t) ∧ ((s.pipe p.val).waiting.contains i = true) ∧ (s.graphValid p.val = true) ∧
      (u = ((s.setPipe p.val { s.pipe p.val with granted := t, waiting := (s.pipe p.val).waiting.erase i }).pcEvent
      (some p.val) 0x02 1 (fun _ => true) {}).inFlightAdd p.val (s.parity p.val) 1) ∧ (x = u.parsed p.val i) ∧ (v =
      u.setFrame i { u.frame i with
      sysport := u.learnedPort p.val (u.frame i).inPort x.bank x.parse (u.frame i).bytes })) ∧
    (∃ (s u v : State) (p : Fin 8) (x : Packet) (r : Nat), ((s.pipe p.val).packets.find? (fun z => decide (z.stage
      = 0)) = some x) ∧ (r = prReason x.parse) ∧ (u = if r = 0 then s else s.pipeCount p.val r 1) ∧ (v = if
      slowEvent (s.graph p.val x.bank) r then u.event Ev.SLOW_PATH p.val (prPort x.parse) r (imB x.parse 108) else
      u)) ∧
    (∃ (s : State) (p : Fin 8) (i : Nat) (x : Packet), ((s.pipe p.val).packets.find? (fun z => decide (z.frame =
      i)) = some x) ∧ (x.stage = 1 ∧ x.em = none) ∧ (((s.pipe p.val).packets.takeWhile (fun z => decide (z.frame ≠
      i))).any (fun z => decide ((s.frame z.frame).inPort = (s.frame i).inPort ∧ (s.frame z.frame).inTc = (s.frame
      i).inTc ∧ z.stage < 2)) = false)) :=
  ⟨by
      refine ⟨ready, 7, 1, 2, ?_⟩
      try unfold State.takes
      try unfold State.issues
      decide +kernel,
   by
      refine ⟨PENT, PENT.setPipe 7 {}, 7, 0, 1, 0, [], ?_⟩
      try unfold State.takes
      try unfold State.issues
      decide +kernel,
   ⟨PENT.wr (wPipe 7) Reg.PIPE_TRUSS_STATUS_ACTIVE_VALID 1, _, _, 7, 2, 1, 0, [], _, (by decide +kernel),
     (by decide +kernel), (by decide +kernel), rfl, rfl, rfl⟩,
   ⟨ready.setPipe 7 { packets := [{}] }, _, _, 7, _, _, (Option.some_get (by decide +kernel)).symm, rfl, rfl, rfl⟩,
   by
      refine ⟨ready.setPipe 7 { packets := [{ frame := 1, stage := 1 }] }, 7, 1, { frame := 1, stage := 1 }, ?_⟩
      try unfold State.takes
      try unfold State.issues
      decide +kernel⟩

theorem witness_GraphLoads :
    (∃ (s b : State) (j : Job) (g : List Byte), (s.inTurn j 0x30 0x32 = true) ∧ (s.takes { op := 0x30 } j b) ∧ (g =
      b.hostRd (b.jobLink j) (j.le 8 8) (min (j.le 16 4) 69889)) ∧ (j.byte 0 4 ≠ 0 ∧ j.le 8 8 % 8 = 0) ∧ (graphFail
      g (j.le 16 4) = none)) ∧
    (∃ (s u v : State) (p : Fin 8) (l : GraphLoad), ((s.pipe p.val).load = some l) ∧ (s.rdb (wPipe p.val)
      Reg.PIPE_TRUSS_STATUS_LOAD_BUSY = true) ∧ (u = ((s.setGraph p.val (1 - s.trussBank p.val) l.image).wr (wPipe
      p.val) Reg.PIPE_TRUSS_STATUS_LOAD_BUSY 0)) ∧ (v = (((u.wr (wPipe p.val) Reg.PIPE_TRUSS_STATUS_SHADOW_VALID
      1).setPipe p.val { u.pipe p.val with load := none }).trussReport p.val).event Ev.GRAPH_LOADED p.val l.mask
      (imH l.image 6) 0)) ∧
    (∃ (s b : State) (j : Job), (s.inTurn j 0x30 0x32 = true) ∧ (s.takes { op := 0x31, safe := true } j b) ∧
      ((maskList (j.byte 0 4)).any (fun p => !b.trussShadow p) = false)) ∧
    (∃ (s : State) (p : Fin 8), (s.rdb (wPipe p.val) Reg.PIPE_TRUSS_STATUS_DRAINING = true) ∧ (s.trussHolds p.val
      (1 - s.trussBank p.val) = false)) ∧
    (∃ (s b : State) (j : Job) (p : Nat) (g : List Byte), (s.takes { op := 0x32 } j b) ∧ (s.inTurn j 0x30 0x32 =
      true) ∧ (oneOf (j.byte 0 4) = some p) ∧ (g = b.graph p (if j.bit 5 0 then 1 - b.trussBank p else b.trussBank
      p)) ∧ ((if j.bit 5 0 then b.trussShadow p else b.graphValid p) = true) ∧ g.length ≤ j.le 16 4) :=
  ⟨⟨TGLS, TGLS.startJob TGL, TGL, _, (by decide +kernel), takes_of (by decide +kernel), rfl, (by decide +kernel),
     (by decide +kernel)⟩,
   ⟨GLD, _, _, 7, _, (Option.some_get (by decide +kernel)).symm, (by decide +kernel), rfl, rfl⟩,
   by
      refine ⟨SWAPS, SWAPS.startJob SWAP, SWAP, ?_⟩
      try unfold State.takes
      try unfold State.issues
      decide +kernel,
   by
      refine ⟨ready.wr (wPipe 7) Reg.PIPE_TRUSS_STATUS_DRAINING 1, 7, ?_⟩
      try unfold State.takes
      try unfold State.issues
      decide +kernel,
   ⟨(readyJob TGR).wr (wPipe 7) Reg.PIPE_TRUSS_STATUS_SHADOW_VALID 1, ((readyJob TGR).wr (wPipe 7)
     Reg.PIPE_TRUSS_STATUS_SHADOW_VALID 1).startJob TGR, TGR, 7, _, takes_of (by decide +kernel),
     (by decide +kernel), (by decide +kernel), rfl, (by decide +kernel), (by decide +kernel)⟩⟩

theorem witness_MortiseCommands :
    (∃ (s b : State) (j : Job), (s.takes { op := 0x4B, owner := false, safe := true } j b) ∧ (j.len = if (b.mrange
      (j.bits 4 2 0) (j.bits 5 3 0)).wide then 6 else 3) ∧ (j.bit 6 0 = (b.mrange (j.bits 4 2 0) (j.bits 5 3
      0)).wide) ∧ ((b.mrange (j.bits 4 2 0) (j.bits 5 3 0)).owner = b.jobFn j) ∧ (s.searchRefused j = none ∧
      s.halting = false)) ∧
    (∃ (s : State) (p : Fin 8) (y : Search), ((s.pipe p.val).results.find? (fun z => !(s.inFlight z.job) ||
      s.oldestJob z.job) = some y)) ∧
    (∃ (s b : State) (j : Job) (g : List Byte), (s.takes { op := 0x4C } j b) ∧ (g = b.hostRd (b.jobLink j) (j.le 8
      8) 160) ∧ maskList (j.byte 0 4) ≠ [] ∧ ((j.only [(4, 2), (8, 8)] = true ∧ j.byte 0 5 < 16 ∧ j.le 8 8 % 8 = 0)
      ∧ bits (imW g 0) 30 4 = 0 ∧ imW g 156 = 0) ∧ ((maskList (j.byte 0 4)).any (fun p => (rangeFrom 1 38).any (fun
      k => badExtractor (imW g (4 * k)) (!(b.mrange p (imW g 0 % 16)).wide && decide (18 < k)))) = false)) ∧
    (∃ (s b : State) (j : Job), (s.takes { op := 0x4D } j b) ∧ maskList (j.byte 0 4) ≠ [] ∧ (j.byte 0 5 ≤ 16 ∧ bits
      (j.le 8 4) 29 21 = 0 ∧ bits (j.le 8 4) 15 12 = 0 ∧ bits (j.le 8 4) 7 4 = 0)) ∧
    (∃ (s b : State) (j : Job) (p : Nat), (s.takes { op := 0x4E, owner := false } j b) ∧ (oneOf (j.byte 0 4) = some
      p) ∧ ((rangeFrom (j.le 6 2) (j.le 16 2)).all (fun y => (b.rangeOf p y).any (fun m => decide (m.owner =
      b.jobFn j))) = true)) ∧
    (∃ (s b : State) (j : Job), (s.takes { op := 0x4F } j b)) ∧
    (∃ (s : State) (p : Fin 8), (s.scrubRuns p.val = true)) ∧
    (∃ (s : State) (p : Fin 8) (ecc : Fin 3) (x : Nat), (s.scrubRuns p.val = true ∧ s.rdb (wPipe p.val)
      Reg.PIPE_MORTISE_STATUS_SCRUB_ACTIVE = true ∧ (s.pipe p.val).scrubTail = false) ∧ (x = s.rd (wPipe p.val)
      Reg.PIPE_MORTISE_SCRUB_POS_NEXT_INDEX) ∧ (x < 16383 ∧ (s.pipe p.val).writing x = false) ∧ (s.slotFree p.val =
      true)) :=
  ⟨by
      refine ⟨MSRS, MSRS.startJob MSR, MSR, ?_⟩
      try unfold State.takes
      try unfold State.issues
      decide +kernel,
   by
      refine ⟨ready.setPipe 7 { results := [{ job := mkJob 0x4B [] }] }, 7, { job := mkJob 0x4B [] }, ?_⟩
      try unfold State.takes
      try unfold State.issues
      decide +kernel,
   ⟨readyJob MPS, (readyJob MPS).startJob MPS, MPS, _, takes_of (by decide +kernel), rfl, (by decide +kernel),
     (by decide +kernel), (by decide +kernel)⟩,
   by
      refine ⟨(readyJob (mkJob 0x4D [(4, 1, 255), (5, 1, 16), (8, 4, 0xC01F0F0F)])), ((readyJob (mkJob 0x4D [(4, 1,
        255), (5, 1, 16), (8, 4, 0xC01F0F0F)]))).startJob (mkJob 0x4D [(4, 1, 255), (5, 1, 16), (8, 4,
        0xC01F0F0F)]), mkJob 0x4D [(4, 1, 255), (5, 1, 16), (8, 4, 0xC01F0F0F)], ?_⟩
      try unfold State.takes
      try unfold State.issues
      decide +kernel,
   by
      refine ⟨(readyJob (mkJob 0x4E [(4, 1, 128)])), ((readyJob (mkJob 0x4E [(4, 1, 128)]))).startJob (mkJob 0x4E
        [(4, 1, 128)]), mkJob 0x4E [(4, 1, 128)], 7, ?_⟩
      try unfold State.takes
      try unfold State.issues
      decide +kernel,
   by
      refine ⟨(readyJob (mkJob 0x4F [(4, 1, 128), (5, 1, 1), (6, 2, 1)])), ((readyJob (mkJob 0x4F [(4, 1, 128), (5,
        1, 1), (6, 2, 1)]))).startJob (mkJob 0x4F [(4, 1, 128), (5, 1, 1), (6, 2, 1)]), mkJob 0x4F [(4, 1, 128),
        (5, 1, 1), (6, 2, 1)], ?_⟩
      try unfold State.takes
      try unfold State.issues
      decide +kernel,
   by
      refine ⟨ready, 7, ?_⟩
      try unfold State.takes
      try unfold State.issues
      decide +kernel,
   by
      refine ⟨(ready.wr (wPipe 7) Reg.PIPE_MORTISE_STATUS_SCRUB_ACTIVE 1).wr (wPipe 7)
        Reg.PIPE_MORTISE_SCRUB_POS_NEXT_INDEX 16382, 7, 0, 16382, ?_⟩
      try unfold State.takes
      try unfold State.issues
      decide +kernel⟩

theorem witness_TableSetup :
    (∃ (s b : State) (j : Job) (g : List Byte), (s.takes { op := 0x48, owner := true } j b) ∧ (j.byte 0 5 = 0) ∧ (g
      = b.hostRd (b.jobLink j) (j.le 8 8) 32) ∧ (j.only [(4, 3), (8, 8)] = true ∧ j.byte 0 6 < 16 ∧ j.le 8 8 % 8 =
      0) ∧ (bits (imW g 0) 24 24 = 0 ∧ bits (imW g 0) 19 15 = 0 ∧ bits (imW g 8) 31 25 = 0 ∧ bits (imW g 8) 24 16 ≤
      510) ∧ ((rangeFrom 0 5).any (fun i => decide (6 ≤ bits (imW g 0) (3 * i + 2) (3 * i))) = false) ∧ ((rangeFrom
      3 5).any (fun k => badExtractor (imW g (4 * k)) false) = false)) ∧
    (∃ (s b : State) (j : Job) (k : Nat), (s.takes { op := 0x48, owner := true } j b) ∧ (j.byte 0 5 = 1) ∧ (k =
      j.byte 0 6 ∧ k ≤ 16 ∧ j.only [(4, 3), (8, 8)] = true) ∧ (bits (j.le 8 4) 28 26 = 0 ∧ bits (j.le 8 4) 23 21 =
      0 ∧ bits (j.le 8 4) 15 12 = 0 ∧ bits (j.le 8 4) 7 4 = 0) ∧ (bits (j.le 12 4) 31 30 = 0 ∧ bits (j.le 12 4) 15
      12 = 0)) ∧
    (∃ (s b : State) (j : Job), (s.takes { op := 0x48, owner := true } j b) ∧ (j.byte 0 5 = 2) ∧ maskList (j.byte 0
      4) ≠ [] ∧ (j.only [(4, 2), (8, 16)] = true ∧ bits (j.le 8 4) 31 23 = 0 ∧ bits (j.le 12 4) 30 30 = 0 ∧ bits
      (j.le 12 4) 15 13 = 0 ∧ bits (j.le 12 4) 12 0 ≠ 0) ∧ (j.le 16 4 ≠ 0 ∧ j.le 16 4 ≤ 65535 ∧ j.le 20 4 ≤ 31)) ∧
    (∃ (s b : State) (j : Job), (s.takes { op := 0x48, owner := true } j b) ∧ (j.byte 0 5 = 3) ∧ (j.only [(4, 2),
      (8, 16)] = true) ∧ (∀ p ∈ maskList (j.byte 0 4), (b.pipe p).learn = [])) ∧
    (∃ (s b : State) (j : Job), (s.takes { op := 0x48, owner := true } j b) ∧ (j.byte 0 5 = 4) ∧ (j.byte 0 4 = 0xFF
      ∧ j.only [(4, 2), (8, 16)] = true) ∧ (b.em.used = [] ∧ (rangeFrom 0 8).any (fun p => decide ((b.pipe
      p).nexthop ≠ [])) = false)) ∧
    (∃ (s b : State) (j : Job) (i t : Nat), (s.takes { op := 0x48, owner := false } j b) ∧ (j.byte 0 5 = 5) ∧ (i =
      j.le 8 2 ∧ t = j.byte 0 6 ∧ t < 4 ∧ j.only [(4, 3), (8, 2)] = true) ∧ (b.tenantOwner 0 t = b.jobFn j) ∧ (i =
      0xFFFF ∨ 1 ≤ i ∧ i ≤ 511 ∧ (b.findQ (b.jobFn j) i).any (fun q => decide ((b.queue q).typ = .event)) = true)) :=
  ⟨by
      refine ⟨(readyJob TSP).hostWr 0 64 TSPG, ((readyJob TSP).hostWr 0 64 TSPG).startJob TSP, TSP, TSPG, ?_⟩
      try unfold State.takes
      try unfold State.issues
      decide +kernel,
   by
      refine ⟨(readyJob (mkJob 0x48 [(4, 1, 128), (5, 1, 1), (6, 1, 16)])), ((readyJob (mkJob 0x48 [(4, 1, 128),
        (5, 1, 1), (6, 1, 16)]))).startJob (mkJob 0x48 [(4, 1, 128), (5, 1, 1), (6, 1, 16)]), mkJob 0x48 [(4, 1,
        128), (5, 1, 1), (6, 1, 16)], 16, ?_⟩
      try unfold State.takes
      try unfold State.issues
      decide +kernel,
   by
      refine ⟨(readyJob (mkJob 0x48 [(4, 1, 128), (5, 1, 2), (12, 4, 1), (16, 4, 65535), (20, 4, 31)])), ((readyJob
        (mkJob 0x48 [(4, 1, 128), (5, 1, 2), (12, 4, 1), (16, 4, 65535), (20, 4, 31)]))).startJob (mkJob 0x48 [(4,
        1, 128), (5, 1, 2), (12, 4, 1), (16, 4, 65535), (20, 4, 31)]), mkJob 0x48 [(4, 1, 128), (5, 1, 2), (12, 4,
        1), (16, 4, 65535), (20, 4, 31)], ?_⟩
      try unfold State.takes
      try unfold State.issues
      decide +kernel,
   by
      refine ⟨(readyJob (mkJob 0x48 [(4, 1, 128), (5, 1, 3), (20, 4, 1)])), ((readyJob (mkJob 0x48 [(4, 1, 128),
        (5, 1, 3), (20, 4, 1)]))).startJob (mkJob 0x48 [(4, 1, 128), (5, 1, 3), (20, 4, 1)]), mkJob 0x48 [(4, 1,
        128), (5, 1, 3), (20, 4, 1)], ?_⟩
      try unfold State.takes
      try unfold State.issues
      decide +kernel,
   by
      refine ⟨(readyJob (mkJob 0x48 [(4, 1, 255), (5, 1, 4), (20, 4, 1)])), ((readyJob (mkJob 0x48 [(4, 1, 255),
        (5, 1, 4), (20, 4, 1)]))).startJob (mkJob 0x48 [(4, 1, 255), (5, 1, 4), (20, 4, 1)]), mkJob 0x48 [(4, 1,
        255), (5, 1, 4), (20, 4, 1)], ?_⟩
      try unfold State.takes
      try unfold State.issues
      decide +kernel,
   by
      refine ⟨(readyJob (mkJob 0x48 [(4, 1, 128), (5, 1, 5), (6, 1, 3), (8, 2, 0xFFFF)])), ((readyJob (mkJob 0x48
        [(4, 1, 128), (5, 1, 5), (6, 1, 3), (8, 2, 0xFFFF)]))).startJob (mkJob 0x48 [(4, 1, 128), (5, 1, 5), (6, 1,
        3), (8, 2, 0xFFFF)]), mkJob 0x48 [(4, 1, 128), (5, 1, 5), (6, 1, 3), (8, 2, 0xFFFF)], 0xFFFF, 3, ?_⟩
      try unfold State.takes
      try unfold State.issues
      decide +kernel⟩

theorem witness_TableReads :
    (∃ (s b : State) (j : Job) (p e tenant n : Nat) (key : List Byte) (r : Option (List Byte) × Nat), (s.takes {
      op := 0x49, owner := false } j b) ∧ (oneOf (j.byte 0 4) = some p) ∧ (j.byte 0 5 ≤ 3 ∧ j.byte 0 6 ≤ 2) ∧ (e =
        if j.byte 0 6 = 2 then b.parity p else j.byte 0 6 % 2) ∧ (n = [8, 21, 20].getD (j.byte 0 5) 4) ∧ (key =
        b.hostRd (b.jobLink j) (j.le 8 8) n) ∧ (tenant = if j.byte 0 5 = 0 then lrTenant key else imB key 20 % 4) ∧
        (if j.byte 0 5 ≤ 1 then b.tenantOwner p tenant = b.jobFn j else b.jobFn j = b.owner) ∧ (j.byte 0 5 = 3 →
        leNat key < 131072) ∧ (j.byte 0 5 = 0 → r = ((b.learnFind p key e).map (b.learnAt p), 3)) ∧ (j.byte 0 5 = 1
        → r = b.emPeek p (emKey key) e) ∧ (j.byte 0 5 = 2 → r = (b.lpmFind p (rtVrf key) (rtAf key) (key.take (if
        rtAf key = 0 then 4 else 16)) e, 3)) ∧ (j.byte 0 5 = 3 → r = ((some (b.nhAt p (leNat key))).filter (fun x
        => liveIn 4 e x), 3))) ∧
    (∃ (s b : State) (j : Job) (p n : Nat) (l : List Nat), (s.takes { op := 0x4A, owner := false } j b) ∧ (oneOf
      (j.byte 0 4) = some p) ∧ (j.byte 0 5 = 0 ∧ n = min 16777215 (min l.length (j.le 16 4 / 16)) ∧ l.length ≤ n) ∧
      (l = ((b.pipe p).learn.map (·.1)).filter (fun k => decide (j.le 20 4 ≤ k) && b.learnAt p k != [] && decide
      (b.tenantOwner p (lrTenant (b.learnAt p k)) = b.jobFn j)))) ∧
    (∃ (s b : State) (j : Job) (p n : Nat) (l : List Nat), (s.takes { op := 0x4A, owner := false } j b) ∧ (oneOf
      (j.byte 0 4) = some p) ∧ (j.byte 0 5 = 1 ∧ n = min 16777215 (min l.length (j.le 16 4 / 32)) ∧ l.length ≤ n) ∧
      (l = (b.emListed ++ (b.pipe p).emStash.map (fun e => emStash0 + e.1)).filter (fun k => decide (j.le 20 4 ≤ k)
      && b.emAt p k != [] && decide (b.tenantOwner p (imB (b.emAt p k) 20 % 4) = b.jobFn j)))) ∧
    (∃ (s u v : State) (p : Fin 8) (i bk : Nat) (x y z : Packet) (w : EmWait) (r : List Byte), ((s.pipe
      p.val).packets.find? (fun z => decide (z.frame = i)) = some x) ∧ (x.em = some w ∧ s.anyOffline = false) ∧ (bk
      = if w.second then s.emB2 w.key else s.emB1 w.key) ∧ (s.bucketFind bk w.key x.epoch = some r) ∧ (u = s.emFill
      p.val w (some r) ∧ y = { x with look := x.look.emFound r 2, em := none }) ∧ ((z, v) = if y.nhSrc = 2 then
      u.nhLookup p.val y else (y, u))) ∧
    (∃ (s : State) (p : Fin 8) (i bk : Nat) (x : Packet) (w : EmWait), ((s.pipe p.val).packets.find? (fun z =>
      decide (z.frame = i)) = some x) ∧ (x.em = some w ∧ s.anyOffline = false ∧ w.second = false) ∧ (bk = s.emB1
      w.key) ∧ (s.bucketFind bk w.key x.epoch = none ∧ s.spillCnt bk ≠ 0)) :=
  ⟨by
      refine ⟨(readyJob TLK), ((readyJob TLK)).startJob TLK, TLK, 7, 0, 0, 8, List.replicate 8 0, (none, 3), ?_⟩
      try unfold State.takes
      try unfold State.issues
      decide +kernel,
   by
      refine ⟨(readyJob (mkJob 0x4A [(4, 1, 128)])), ((readyJob (mkJob 0x4A [(4, 1, 128)]))).startJob (mkJob 0x4A
        [(4, 1, 128)]), mkJob 0x4A [(4, 1, 128)], 7, 0, [], ?_⟩
      try unfold State.takes
      try unfold State.issues
      decide +kernel,
   by
      refine ⟨(readyJob (mkJob 0x4A [(4, 1, 128), (5, 1, 1)])), ((readyJob (mkJob 0x4A [(4, 1, 128), (5, 1,
        1)]))).startJob (mkJob 0x4A [(4, 1, 128), (5, 1, 1)]), mkJob 0x4A [(4, 1, 128), (5, 1, 1)], 7, 0, [], ?_⟩
      try unfold State.takes
      try unfold State.issues
      decide +kernel,
   ⟨EMS.online, _, _, 7, 0, EMS.online.emB1 (emKey EMR), { em := some { key := emKey EMR } }, _, _, {
     key := emKey EMR }, _, (by decide +kernel), (by decide +kernel), (rfl),
       (Option.some_get (by decide +kernel)).symm, (⟨rfl,rfl⟩), (rfl)⟩,
   ⟨((ready.setSpill (ready.emB1 (emKey EMR)) 1).setPipe 7 { packets := [{ em := some { key := emKey EMR } }]
     }).online, 7, 0, _, { em := some { key := emKey EMR } }, { key := emKey EMR }, (by decide +kernel),
     (by decide +kernel), (rfl), (by decide +kernel)⟩⟩

theorem witness_Learning :
    (∃ (s : State) (p : Fin 8) (key : List Byte) (port : Nat) (t : List LearnReq), ((s.pipe p.val).arbIdle = true ∧
      s.halting = false) ∧ ((s.pipe p.val).arbQ = .own key port :: t)) ∧
    (∃ (s : State) (p : Fin 8) (key : List Byte) (port o : Nat) (t : List LearnReq), ((s.pipe p.val).arbIdle = true
      ∧ s.halting = false) ∧ ((s.pipe p.val).arbQ = .notice key port o :: t)) ∧
    (∃ (s : State) (p : Fin 8) (k : Fin 262152), (s.learnAt p.val k.val ≠ [] ∧ s.halting = false ∧ s.sweepPaused
      p.val = false ∧ s.dutyRuns p.val = true) ∧ (s.sweepRefreshes p.val (s.learnAt p.val k.val) = false)) ∧
    (∃ (s : State) (p : Fin 8) (key : List Byte) (t : List (List Byte)), ((s.pipe p.val).refreshes = key :: t) ∧
      (s.halting = false)) ∧
    (∃ (s u : State) (p : Fin 8) (t q : Nat) (r : List Byte) (rest : List (Nat × List Byte)), ((s.pipe p.val).posts
      = (t, r) :: rest ∧ s.dutyRuns 8 = true) ∧ (s.findQ (s.tenantOwner p.val t) (s.rd (tenantBase p.val t)
      Reg.PIPE_TENANT_A_EVENT_Q) = some q) ∧ (u = s.setPipe p.val { s.pipe p.val with posts := rest })) :=
  ⟨by
      refine ⟨ready.setPipe 7 { arbQ := [.own [] 0] }, 7, [], 0, [], ?_⟩
      try unfold State.takes
      try unfold State.issues
      decide +kernel,
   by
      refine ⟨ready.setPipe 7 { arbQ := [.notice [] 0 0] }, 7, [], 0, 0, [], ?_⟩
      try unfold State.takes
      try unfold State.issues
      decide +kernel,
   ⟨(ready.setPipe 7 { learn := [(262151, [1])] }).running15 7, 7, 262151, (by decide +kernel), (by decide +kernel)⟩,
   by
      refine ⟨ready.setPipe 7 { refreshes := [[]] }, 7, [], [], ?_⟩
      try unfold State.takes
      try unfold State.issues
      decide +kernel,
   ⟨LNP.running15 8, _, 7, 0, 256, [], [], (by decide +kernel), (by decide +kernel), rfl⟩⟩

theorem witness_UpdateCommands :
    (∃ (s b : State) (j : Job) (c : UpdCmd) (a : Plan) (t : State), (s.updReady j = true) ∧ (s.takes {
      op := 0x40, owner := false, safe := true } j b) ∧ (c = updCmd b j ∧ c.mask ≠ 0 ∧ c.table ≠ 1 ∧ updMalformed j
        c = false) ∧ (t = forEach (maskList c.mask) (fun p s => s.setPipe p { s.pipe p with lastUpd := j.q }) b ∧ c
        = updCmd t j) ∧ (t.batchRefuses j c = none) ∧ (t.planAll c ((updScopes c.table c.mask).getD []) = .ok a) ∧
        (c.batched = true → ∀ y, t.batch (j.le 8 2) = some y → (a.journal y.journal).length ≤ 4096)) ∧
    (∃ (s b : State) (j : Job) (c : UpdCmd) (t : State), (s.updReady j = true) ∧ (s.takes {
      op := 0x40, owner := false, safe := true } j b) ∧ (c = updCmd b j ∧ c.mask ≠ 0 ∧ c.table = 1 ∧ updMalformed j
        c = false) ∧ (t = forEach (maskList c.mask) (fun p s => s.setPipe p { s.pipe p with
        arbQ := (s.pipe p).arbQ ++ [.host j] }) (forEach (maskList c.mask) (fun p s => s.setPipe p { s.pipe p with
          lastUpd := j.q }) b))) ∧
    (∃ (s b : State) (j : Job) (c : UpdCmd) (a : Plan) (t : State), (s.updReady j = true) ∧ (s.takes {
      op := 0x41, owner := false, safe := true } j b) ∧ (c = updCmd b j ∧ c.mask ≠ 0 ∧ c.table ≠ 1 ∧ updMalformed j
        c = false) ∧ (t = forEach (maskList c.mask) (fun p s => s.setPipe p { s.pipe p with lastUpd := j.q }) b ∧ c
        = updCmd t j) ∧ (t.batchRefuses j c = none) ∧ (t.planAll c ((updScopes c.table c.mask).getD []) = .ok a) ∧
        (c.batched = true → ∀ y, t.batch (j.le 8 2) = some y → (a.journal y.journal).length ≤ 4096)) ∧
    (∃ (s b : State) (j : Job) (c : UpdCmd) (t : State), (s.updReady j = true) ∧ (s.takes {
      op := 0x41, owner := false, safe := true } j b) ∧ (c = updCmd b j ∧ c.mask ≠ 0 ∧ c.table = 1 ∧ updMalformed j
        c = false) ∧ (t = forEach (maskList c.mask) (fun p s => s.setPipe p { s.pipe p with
        arbQ := (s.pipe p).arbQ ++ [.host j] }) (forEach (maskList c.mask) (fun p s => s.setPipe p { s.pipe p with
          lastUpd := j.q }) b))) ∧
    (∃ (s b : State) (j : Job) (c : UpdCmd) (a : Plan) (t : State), (s.updReady j = true) ∧ (s.takes {
      op := 0x42, owner := false, safe := true } j b) ∧ (c = updCmd b j ∧ c.mask ≠ 0 ∧ c.table ≠ 1 ∧ updMalformed j
        c = false) ∧ (t = forEach (maskList c.mask) (fun p s => s.setPipe p { s.pipe p with lastUpd := j.q }) b ∧ c
        = updCmd t j) ∧ (t.batchRefuses j c = none) ∧ (t.planAll c ((updScopes c.table c.mask).getD []) = .ok a) ∧
        (c.batched = true → ∀ y, t.batch (j.le 8 2) = some y → (a.journal y.journal).length ≤ 4096)) ∧
    (∃ (s b : State) (j : Job) (c : UpdCmd) (t : State), (s.updReady j = true) ∧ (s.takes {
      op := 0x42, owner := false, safe := true } j b) ∧ (c = updCmd b j ∧ c.mask ≠ 0 ∧ c.table = 1 ∧ updMalformed j
        c = false) ∧ (t = forEach (maskList c.mask) (fun p s => s.setPipe p { s.pipe p with
        arbQ := (s.pipe p).arbQ ++ [.host j] }) (forEach (maskList c.mask) (fun p s => s.setPipe p { s.pipe p with
          lastUpd := j.q }) b))) ∧
    (∃ (s b : State) (j : Job) (c : UpdCmd) (a : Plan) (t : State), (s.updReady j = true) ∧ (s.takes {
      op := 0x43, owner := false, safe := true } j b) ∧ (c = updCmd b j ∧ c.mask ≠ 0 ∧ c.table ≠ 1 ∧ updMalformed j
        c = false) ∧ (t = forEach (maskList c.mask) (fun p s => s.setPipe p { s.pipe p with lastUpd := j.q }) b ∧ c
        = updCmd t j) ∧ (t.batchRefuses j c = none) ∧ (t.planAll c ((updScopes c.table c.mask).getD []) = .ok a) ∧
        (c.batched = true → ∀ y, t.batch (j.le 8 2) = some y → (a.journal y.journal).length ≤ 4096)) ∧
    (∃ (s b : State) (j : Job), (s.takes { op := 0x47 } j b)) :=
  ⟨⟨UINS, UINS.startJob UIN, UIN, _, _, _, (by decide +kernel), takes_of (by decide +kernel),
     (⟨rfl, by decide +kernel⟩), (⟨rfl, by decide +kernel⟩), (by decide +kernel), (planOf_ok (by decide +kernel)),
     (fun h => absurd h (by decide +kernel))⟩,
   ⟨UINSL, UINSL.startJob UINL, UINL, _, _, (by decide +kernel), takes_of (by decide +kernel),
     (⟨rfl, by decide +kernel⟩), rfl⟩,
   ⟨UMDS, UMDS.startJob UMD, UMD, _, _, _, (by decide +kernel), takes_of (by decide +kernel),
     (⟨rfl, by decide +kernel⟩), (⟨rfl, by decide +kernel⟩), (by decide +kernel), (planOf_ok (by decide +kernel)),
     (fun h => absurd h (by decide +kernel))⟩,
   ⟨UMDSL, UMDSL.startJob UMDL, UMDL, _, _, (by decide +kernel), takes_of (by decide +kernel),
     (⟨rfl, by decide +kernel⟩), rfl⟩,
   ⟨UDLS, UDLS.startJob UDL, UDL, _, _, _, (by decide +kernel), takes_of (by decide +kernel),
     (⟨rfl, by decide +kernel⟩), (⟨rfl, by decide +kernel⟩), (by decide +kernel), (planOf_ok (by decide +kernel)),
     (fun h => absurd h (by decide +kernel))⟩,
   ⟨UDLSL, UDLSL.startJob UDLL, UDLL, _, _, (by decide +kernel), takes_of (by decide +kernel),
     (⟨rfl, by decide +kernel⟩), rfl⟩,
   ⟨UMVS, UMVS.startJob UMV, UMV, _, _, _, (by decide +kernel), takes_of (by decide +kernel),
     (⟨rfl, by decide +kernel⟩), (⟨rfl, by decide +kernel⟩), (by decide +kernel), (planOf_ok (by decide +kernel)),
     (fun h => absurd h (by decide +kernel))⟩,
   by
      refine ⟨(readyJob (mkJob 0x47 [(4, 1, 255), (8, 2, 65535), (10, 1, 255)])), ((readyJob (mkJob 0x47 [(4, 1,
        255), (8, 2, 65535), (10, 1, 255)]))).startJob (mkJob 0x47 [(4, 1, 255), (8, 2, 65535), (10, 1, 255)]),
        mkJob 0x47 [(4, 1, 255), (8, 2, 65535), (10, 1, 255)], ?_⟩
      try unfold State.takes
      try unfold State.issues
      decide +kernel⟩

theorem witness_BatchCommands :
    (∃ (s b : State) (j : Job) (f n m : Nat) (u : State), (s.oldestJob j = true) ∧ (s.takes {
      op := 0x44, owner := false, safe := true } j b) ∧ (m = j.byte 0 4 ∧ m ≠ 0 ∧ n = b.upd.next ∧ f = b.jobFn j) ∧
        ((maskList m).any (fun p => decide (b.rd (wPipe p) Reg.PIPE_UPD_STATUS_GROUP_STATE ≠ 0)) = false) ∧ (u =
        forEach (maskList m) (fun p s => ((s.wr (wPipe p) Reg.PIPE_UPD_STATUS_BATCH_FUNC f).wr (wPipe p)
        Reg.PIPE_UPD_STATUS_BATCH_NUM n).wr (wPipe p) Reg.PIPE_UPD_JOURNAL_JOURNAL_USED 0) { b with
        upd := { b.upd with
          batches := b.upd.batches ++ [{ num := n, fn := f, mask := m }], next := if n = 65535 then 1 else n + 1 }
            })) ∧
    (∃ (s b : State) (j : Job) (y : Batch), (s.oldestJob j = true) ∧ (s.takes {
      op := 0x45, owner := false, safe := true } j b) ∧ (b.batch (j.le 8 2) = some y) ∧ (y.fn = b.jobFn j ∧ y.st =
        1) ∧ (y.em = true → b.anyOffline = false)) ∧
    (∃ (s b : State) (j : Job) (y : Batch), (s.oldestJob j = true) ∧ (s.takes {
      op := 0x46, owner := false, safe := true } j b) ∧ (b.batch (j.le 8 2) = some y) ∧ (y.fn = b.jobFn j ∨ b.jobFn
        j = b.owner) ∧ (y.st = 1)) ∧
    (∃ (s : State) (n : BitVec 16) (y : Batch), (s.batch n.toNat = some y) ∧ (y.st = 2 ∧ s.halting = false) ∧ (∀ p
      < 8, ∀ w ∈ (s.pipe p).writes, w.job.bind batchOf ≠ some n.toNat) ∧ (∀ j, EmStep.done j ∈ s.em.steps → batchOf
      j ≠ some n.toNat) ∧ ((maskList y.mask).any (fun p => s.rdb (wPipe p) Reg.PIPE_UPD_STATUS_NORMALISING) =
      false)) ∧
    (∃ (s u v : State) (p : Fin 8), (s.draining p.val = true ∧ (s.pipe p.val).flipped = none) ∧ (u = s.wr (wPipe
      p.val) Reg.PIPE_UPD_STATUS_PARITY (1 - s.parity p.val)) ∧ (v = u.setPipe p.val { u.pipe p.val with
      flipped := some s.clock.up, warned := false })) ∧
    (∃ (s : State) (p : Fin 8) (t : Nat), (s.draining p.val = true ∧ (s.pipe p.val).flipped = some t ∧ (s.pipe
      p.val).warned = false)) ∧
    (∃ (s u v : State) (n : BitVec 16) (y : Batch), (s.batch n.toNat = some y) ∧ (y.st = 3) ∧ ((maskList
      y.mask).any (fun p => decide ((s.pipe p).flipped = none ∨ s.inFlightOf p (1 - s.parity p) ≠ 0)) = false) ∧ (u
      = forEach (maskList y.mask) (fun p s => (((((s.wr (wPipe p) Reg.PIPE_UPD_DRAIN_LAST_DRAIN_NS (min 65535
      (s.clock.up - (s.pipe p).flipped.getD s.clock.up))).wr (wPipe p) Reg.PIPE_UPD_STATUS_NORMALISING 1).setPipe p
      { ((s.wr (wPipe p) Reg.PIPE_UPD_DRAIN_LAST_DRAIN_NS (min 65535 (s.clock.up - (s.pipe p).flipped.getD
      s.clock.up))).wr (wPipe p) Reg.PIPE_UPD_STATUS_NORMALISING 1).pipe p with flipped := none }).setNorm p
      (y.journal.filter (fun e => e.mask.testBit p))).pipeCount p 48 1)) ((s.dropBatch n.toNat).groupStates y.mask
      0)) ∧ (v = (u.event Ev.BATCH_COMMITTED ((maskList y.mask).headD 0) n.toNat y.mask (s.clock.up - (maskList
      y.mask).foldl (fun a p => min a ((s.pipe p).flipped.getD a)) s.clock.up)).batchDone y)) ∧
    (∃ (s : State) (n : BitVec 16) (y : Batch), (s.batch n.toNat = some y) ∧ (y.st = 4) ∧ (s.undoLeft y = false)) :=
  ⟨by
      refine ⟨BOPS, BOPS.startJob BOP, BOP, 0, 1, 128, BOPU, ?_⟩
      try unfold State.takes
      try unfold State.issues
      decide +kernel,
   by
      refine ⟨BCOS, BCOS.startJob BCO, BCO, { num := 1, mask := 128 }, ?_⟩
      try unfold State.takes
      try unfold State.issues
      decide +kernel,
   by
      refine ⟨BABS, BABS.startJob BAB, BAB, { num := 1, mask := 128 }, ?_⟩
      try unfold State.takes
      try unfold State.issues
      decide +kernel,
   ⟨ready.setBatchList [{ num := 65535, mask := 128, st := 2 }], 65535, { num := 65535, mask := 128, st := 2 },
     (by decide +kernel), (by decide +kernel), (by decide +kernel),
     (by intro _ h; have e : (ready.setBatchList [{ num := 65535, mask := 128, st := 2 }]).em.steps = [] := (by decide +kernel); rw [e] at h; cases h), (by decide +kernel)⟩,
   ⟨DRN, _, _, 7, (by decide +kernel), rfl, rfl⟩,
   ⟨DRN.setPipe 7 { DRN.pipe 7 with flipped := some 0 }, 7, 0, (by decide +kernel)⟩,
   ⟨BDE, _, _, 1, _, (Option.some_get (by decide +kernel)).symm, (by decide +kernel), (by decide +kernel), rfl, rfl⟩,
   by
      refine ⟨ready.setBatchList [{ num := 65535, mask := 128, st := 4, undoing := true }], 65535, {
        num := 65535, mask := 128, st := 4, undoing := true }, ?_⟩
      try unfold State.takes
      try unfold State.issues
      decide +kernel⟩

theorem witness_TableWrites :
    (∃ (s : State) (p : Fin 8) (w : Shown), ((s.pipe p.val).writeGrant = some .unit) ∧ ((s.pipe p.val).shown = some
      w) ∧ (w.write.op.landing = .table)) ∧
    (∃ (s : State) (p : Fin 8) (w : Shown), ((s.pipe p.val).writeGrant = some .arbiter) ∧ ((s.pipe p.val).arbShown
      = some w) ∧ (w.write.op.landing = .table)) ∧
    (∃ (s : State) (p : Fin 8) (w : Shown), ((s.pipe p.val).writeGrant = some .unit) ∧ ((s.pipe p.val).shown = some
      w) ∧ (w.write.op.landing = .norm)) ∧
    (∃ (s : State) (p : Fin 8) (w : Shown), ((s.pipe p.val).writeGrant = some .arbiter) ∧ ((s.pipe p.val).arbShown
      = some w) ∧ (w.write.op.landing = .norm)) ∧
    (∃ (s : State) (p : Fin 8) (w : Shown), ((s.pipe p.val).writeGrant = some .unit) ∧ ((s.pipe p.val).shown = some
      w) ∧ (w.write.op.landing = .moveDelete)) ∧
    (∃ (s : State) (p : Fin 8) (w : Shown), ((s.pipe p.val).writeGrant = some .arbiter) ∧ ((s.pipe p.val).arbShown
      = some w) ∧ (w.write.op.landing = .moveDelete)) ∧
    (∃ (s : State) (p : Fin 8) (x y : Nat) (t : List (Nat × Nat)), ((s.pipe p.val).writeGrant = some .repair) ∧
      ((s.pipe p.val).repairs = (x, y) :: t)) ∧
    (∃ (s n u v w : State) (a b : Nat) (t rest : List EmStep) (l : List Nat) (key : List Byte), (s.em.steps =
      .moved a b :: t ∧ s.em.waitFor = some l) ∧ (s.emBusy = false ∧ s.anyOffline = false ∧ s.halting = false ∧
      l.any (fun i => s.emOutstanding.contains i) = false) ∧ (n = s.normKey (emKey (s.emAll a)) ∧ rest = t ++
      n.em.steps.drop s.em.steps.length ∧ n.moveWhole a b = true ∧ key = emKey (n.emAll a)) ∧ (u = n.setSteps rest)
      ∧ (v = u.emWrite a []) ∧ (w = if (n.emOuts key).isEmpty && !(v.emOuts key).isEmpty then v.spillUp (n.emB1
      key) else v)) ∧
    (∃ (s : State) (k : BitVec 24), (s.spillCnt k.toNat = 15 ∧ s.anyOffline = false ∧ s.rdb wMint
      Reg.MINT_STATUS_DEFERRING = false ∧ s.dutyRuns 9 = true)) :=
  ⟨by
      refine ⟨ready.setPipe 7 { granted := [.unit], shown := some { write := { op := .slot } } }, 7, {
        write := { op := .slot } }, ?_⟩
      try unfold State.takes
      try unfold State.issues
      decide +kernel,
   by
      refine ⟨ready.setPipe 7 { granted := [.arbiter], arbShown := some { write := { op := .slot } } }, 7, {
        write := { op := .slot } }, ?_⟩
      try unfold State.takes
      try unfold State.issues
      decide +kernel,
   by
      refine ⟨ready.setPipe 7 { granted := [.unit], shown := some { write := { op := .norm {} } } }, 7, {
        write := { op := .norm {} } }, ?_⟩
      try unfold State.takes
      try unfold State.issues
      decide +kernel,
   by
      refine ⟨ready.setPipe 7 { granted := [.arbiter], arbShown := some { write := { op := .norm {} } } }, 7, {
        write := { op := .norm {} } }, ?_⟩
      try unfold State.takes
      try unfold State.issues
      decide +kernel,
   by
      refine ⟨ready.setPipe 7 { granted := [.unit], shown := some { write := { op := .ldel 0 0 } } }, 7, {
        write := { op := .ldel 0 0 } }, ?_⟩
      try unfold State.takes
      try unfold State.issues
      decide +kernel,
   by
      refine ⟨ready.setPipe 7 { granted := [.arbiter], arbShown := some { write := { op := .ldel 0 0 } } }, 7, {
        write := { op := .ldel 0 0 } }, ?_⟩
      try unfold State.takes
      try unfold State.issues
      decide +kernel,
   by
      refine ⟨ready.setPipe 7 { granted := [.repair], repairs := [(5, 3)] }, 7, 5, 3, [], ?_⟩
      try unfold State.takes
      try unfold State.issues
      decide +kernel,
   ⟨EMVS, _, _, _, _, 0, 1, [], _, [], _, (by decide +kernel), (by decide +kernel),
     (⟨rfl, rfl, by decide +kernel, rfl⟩), rfl, rfl, rfl⟩,
   by
      refine ⟨SPL.online.running15 9, 0, ?_⟩
      try unfold State.takes
      try unfold State.issues
      decide +kernel⟩

theorem witness_TenonEngines :
    (∃ (s u v w : State) (p : Fin 8) (x : Packet) (t : Nat) (e : Engine), (s.halting = false ∧ s.csValid p.val =
      true) ∧ (s.nextDispatch p.val = some (x, t)) ∧ (e = s.freshEngine p.val t x) ∧ (u = s.setPipe p.val { s.pipe
      p.val with packets := (s.pipe p.val).packets.filter (fun z => decide (z.frame ≠ x.frame)) }) ∧ (v = {
      u.setEngine p.val t e with tenon := { u.tenon with next := u.tenon.next + 1 } }) ∧ (w = (v.setMarks p.val
      ((v.marks p.val).map (fun m => if m.engine = none then { m with engine := some t } else m))).countDispatch
      p.val e.opcode)) ∧
    (∃ (s u : State) (p : Fin 9) (t : Fin 64), (p.val ≠ 8 ∧ (s.engine p.val t.val).busy = true ∧ (s.engine p.val
      t.val).wait = 4) ∧ (u = s.setEngine p.val t.val { s.engine p.val t.val with timed := true })) ∧
    (∃ (s : State) (t : Fin 64), ((s.engine 8 t.val).wait = 4)) ∧
    (∃ (s : State) (p : Fin 8) (t : Fin 64), ((s.engine p.val t.val).busy = true ∧ (s.engine p.val t.val).wait = 7)) ∧
    (∃ (s u : State) (p : Fin 8) (t : Fin 64), ((s.engine p.val t.val).busy = true) ∧ (u = s.endWait p.val t.val) ∧
      ((u.engine p.val t.val).left = 0)) ∧
    (∃ (s u : State) (p : Fin 8) (t : Fin 64), (s.frameBadDue p.val t.val = true) ∧ (u = s.endWait p.val t.val)) ∧
    (∃ (s : State) (p : Fin 8) (t : Fin 64), ((s.engine p.val t.val).busy = false) ∧ (64 - (s.pipe p.val).parkGoal
      ≤ t.val ∧ s.csReserve p.val ≤ t.val)) ∧
    (∃ (s : State) (p : Fin 8) (t : Fin 64), (t.val < 64 - (s.pipe p.val).parkGoal ∨ t.val < s.csReserve p.val)) :=
  ⟨⟨DISP, _, _, _, 7, { stage := 2 }, 4, _, (by decide +kernel), (by decide +kernel), rfl, rfl, rfl, (rfl)⟩,
   ⟨ready.setEngine 7 63 { busy := true, wait := 4 }, _, 7, 63, (by decide +kernel), rfl⟩,
   ⟨ready.setEngine 8 15 { wait := 4 }, 15, (by decide +kernel)⟩,
   ⟨WIND, 7, 63, (by decide +kernel)⟩,
   ⟨ready.setEngine 7 63 { busy := true }, _, 7, 63, (by decide +kernel), rfl, (by decide +kernel)⟩,
   ⟨FBAD, _, 7, 63, (by decide +kernel), rfl⟩,
   by
      refine ⟨ready.setPipe 7 { parkGoal := 1 }, 7, 63, ?_⟩
      try unfold State.takes
      try unfold State.issues
      decide +kernel,
   by
      refine ⟨ready, 7, 63, ?_⟩
      try unfold State.takes
      try unfold State.issues
      decide +kernel⟩

theorem witness_TenonRequests :
    (∃ (s : State) (p : Fin 8) (t : Fin 64) (bad : Fin 4) (r : Req) (n : Nat) (key : List Byte),
      (s.tenon.reqs.find? (fun r => r.isLookup p.val && decide (r.engine = t.val) && r.slotted) = some r) ∧ (r.op =
      .lookup n key)) ∧
    (∃ (s : State) (r : Req) (m len colour : Nat) (writes : Bool) (v : Nat × State), (s.oldestReq 2 none none =
      some r) ∧ (r.op = .meter m len colour writes) ∧ (v = s.meterCall m len colour)) ∧
    (∃ (s : State) (p : Fin 8) (t : Fin 64) (r : Req) (k n : Nat) (c : CloneSt) (e : Engine) (v : List Nat ×
      State), (s.oldestReq 3 (some p.val) (some t.val) = some r) ∧ (r.op = .cells k) ∧ (e = s.engine p.val t.val) ∧
      (c = e.clones.getD k {}) ∧ (n = e.headCells c.md) ∧ (v = s.chargeCells (s.frame e.frame).pairPort (s.frame
      e.frame).pairTc n) ∧ n ≤ v.1.length) ∧
    (∃ (s u : State) (p : Fin 8) (e : Fin 3) (r : Req) (i : Nat), (s.oldestReq 5 (some p.val) none = some r) ∧ (u =
      if e.val = 1 then s.pipeCount p.val 99 1 else s)) ∧
    (∃ (s : State) (p : Fin 8) (t : Fin 64) (ok : Bool) (r : Req) (a d : Nat) (v : Word64), (s.oldestReq 6 (some
      p.val) (some t.val) = some r)) :=
  ⟨by
      refine ⟨ready.setRequests [{ RLK with found := none }], 7, 63, 2, { RLK with found := none }, 0, [], ?_⟩
      try unfold State.takes
      try unfold State.issues
      decide +kernel,
   by
      refine ⟨ready.setRequests [RMT], RMT, 0, 64, 0, false, ready.setRequests [RMT] |>.meterCall 0 64 0, ?_⟩
      try unfold State.takes
      try unfold State.issues
      decide +kernel,
   ⟨CELS, 7, 63, RCL, 3, _, _, _, _, (by decide +kernel), (by decide +kernel), rfl, rfl, rfl, rfl,
     (by decide +kernel)⟩,
   ⟨ready.setRequests [RST], _, 7, 0, RST, 0, (by decide +kernel), rfl⟩,
   by
      refine ⟨ready.setRequests [RDR], 7, 63, false, RDR, 0, 0, 0, ?_⟩
      try unfold State.takes
      try unfold State.issues
      decide +kernel⟩

theorem witness_MicroArithmeticAndMemory :
    (∃ (s u : State) (p : Fin 9) (t : Fin 64) (w : MWord) (e : Engine), s.issues p.val t.val 0x00 w u ∧ (e =
      u.engine p.val t.val)) ∧
    (∃ (s u : State) (p : Fin 9) (t : Fin 64) (w : MWord) (e : Engine), s.issues p.val t.val 0x01 w u ∧ (e =
      u.engine p.val t.val)) ∧
    (∃ (s u : State) (p : Fin 9) (t : Fin 64) (w : MWord) (e : Engine) (a b r : Word64), s.issues p.val t.val 0x02
      w u ∧ (e = u.engine p.val t.val) ∧ (a = e.opA w) ∧ (b = e.opB w) ∧ (r = a + b)) ∧
    (∃ (s u : State) (p : Fin 9) (t : Fin 64) (w : MWord) (e : Engine) (a b r : Word64), s.issues p.val t.val 0x03
      w u ∧ (e = u.engine p.val t.val) ∧ (a = e.opA w) ∧ (b = e.opB w) ∧ (r = a - b)) ∧
    (∃ (s u : State) (p : Fin 9) (t : Fin 64) (w : MWord) (e : Engine) (a b r : Word64), s.issues p.val t.val 0x04
      w u ∧ (e = u.engine p.val t.val) ∧ (a = e.opA w) ∧ (b = e.opB w) ∧ (r = a &&& b)) ∧
    (∃ (s u : State) (p : Fin 9) (t : Fin 64) (w : MWord) (e : Engine) (a b r : Word64), s.issues p.val t.val 0x05
      w u ∧ (e = u.engine p.val t.val) ∧ (a = e.opA w) ∧ (b = e.opB w) ∧ (r = a ||| b)) ∧
    (∃ (s u : State) (p : Fin 9) (t : Fin 64) (w : MWord) (e : Engine) (a b r : Word64), s.issues p.val t.val 0x06
      w u ∧ (e = u.engine p.val t.val) ∧ (a = e.opA w) ∧ (b = e.opB w) ∧ (r = a ^^^ b)) ∧
    (∃ (s u : State) (p : Fin 9) (t : Fin 64) (w : MWord) (e : Engine) (a b r : Word64), s.issues p.val t.val 0x07
      w u ∧ (e = u.engine p.val t.val) ∧ (a = e.opA w) ∧ (b = e.opB w) ∧ (r = a <<< (b.toNat % 64))) ∧
    (∃ (s u : State) (p : Fin 9) (t : Fin 64) (w : MWord) (e : Engine) (a b r : Word64), s.issues p.val t.val 0x08
      w u ∧ (e = u.engine p.val t.val) ∧ (a = e.opA w) ∧ (b = e.opB w) ∧ (r = a >>> (b.toNat % 64))) ∧
    (∃ (s u : State) (p : Fin 9) (t : Fin 64) (w : MWord) (e : Engine) (a b r : Word64), s.issues p.val t.val 0x09
      w u ∧ (e = u.engine p.val t.val) ∧ (a = e.opA w) ∧ (b = e.opB w) ∧ (r = a.sshiftRight (b.toNat % 64))) ∧
    (∃ (s u : State) (p : Fin 9) (t : Fin 64) (w : MWord) (e : Engine) (a b r : Word64), s.issues p.val t.val 0x0A
      w u ∧ (e = u.engine p.val t.val) ∧ (a = e.opA w) ∧ (b = e.opB w) ∧ (r = a.rotateLeft (b.toNat % 64))) ∧
    (∃ (s u : State) (p : Fin 9) (t : Fin 64) (w : MWord) (e : Engine) (a b r : Word64), s.issues p.val t.val 0x0B
      w u ∧ (e = u.engine p.val t.val) ∧ (a = e.opA w) ∧ (b = e.opB w) ∧ (r = a * b)) ∧
    (∃ (s u : State) (p : Fin 9) (t : Fin 64) (w : MWord) (e : Engine) (a b r : Word64), s.issues p.val t.val 0x0C
      w u ∧ (e = u.engine p.val t.val) ∧ (a = e.opA w) ∧ (b = e.opB w) ∧ (r = a - b)) ∧
    (∃ (s u : State) (p : Fin 9) (t : Fin 64) (w : MWord) (e : Engine) (a b r : Word64), s.issues p.val t.val 0x0D
      w u ∧ (e = u.engine p.val t.val) ∧ (a = e.opA w) ∧ (b = e.opB w) ∧ (r = a &&& b)) ∧
    (∃ (s u : State) (p : Fin 9) (t : Fin 64) (w : MWord) (e : Engine) (a b r : Word64), s.issues p.val t.val 0x0E
      w u ∧ (e = u.engine p.val t.val) ∧ (a = e.opA w) ∧ (b = e.opB w) ∧ (r = (a >>> w.pos) &&& ones w.width)) ∧
    (∃ (s u : State) (p : Fin 9) (t : Fin 64) (w : MWord) (e : Engine) (a b r : Word64), s.issues p.val t.val 0x0F
      w u ∧ (e = u.engine p.val t.val) ∧ (a = e.opA w) ∧ (b = e.opB w) ∧ (r = (a &&& ~~~(ones w.width <<< w.pos))
      ||| ((b <<< w.pos) &&& (ones w.width <<< w.pos)))) ∧
    (∃ (s u : State) (p : Fin 9) (t : Fin 64) (w : MWord) (e : Engine) (a b r : Word64), s.issues p.val t.val 0x10
      w u ∧ (e = u.engine p.val t.val) ∧ (a = e.opA w) ∧ (b = e.opB w) ∧ (r = ((leBytes 8 b.toNat).foldl crcCByte
      (a.truncate 32)).zeroExtend 64)) ∧
    (∃ (s u : State) (p : Fin 9) (t : Fin 64) (w : MWord) (e : Engine) (a b r : Word64), s.issues p.val t.val 0x11
      w u ∧ (e = u.engine p.val t.val) ∧ (a = e.opA w) ∧ (b = e.opB w) ∧ (r = BitVec.ofNat 64 (fold16 (a.toNat %
      65536 + b.toNat % 65536 + b.toNat / 2 ^ 16 % 65536 + b.toNat / 2 ^ 32 % 65536 + b.toNat / 2 ^ 48 % 65536)))) ∧
    (∃ (s u : State) (p : Fin 9) (t : Fin 64) (w : MWord) (e : Engine), s.issues p.val t.val 0x20 w u ∧ (e =
      u.engine p.val t.val) ∧ e.address w + 2 ^ w.size ≤ spaceSize w.space) ∧
    (∃ (s u : State) (p : Fin 9) (t : Fin 64) (w : MWord) (e : Engine), s.issues p.val t.val 0x20 w u ∧ (e =
      u.engine p.val t.val) ∧ spaceSize w.space < e.address w + 2 ^ w.size) ∧
    (∃ (s u : State) (p : Fin 9) (t : Fin 64) (w : MWord) (e : Engine), s.issues p.val t.val 0x21 w u ∧ (e =
      u.engine p.val t.val) ∧ (e.storeTraps w.space (e.address w) (2 ^ w.size) = false)) ∧
    (∃ (s u : State) (p : Fin 9) (t : Fin 64) (w : MWord) (e : Engine), s.issues p.val t.val 0x21 w u ∧ (e =
      u.engine p.val t.val) ∧ (e.storeTraps w.space (e.address w) (2 ^ w.size) = true)) ∧
    (∃ (s u : State) (p : Fin 9) (t : Fin 64) (w : MWord) (e : Engine), s.issues p.val t.val 0x22 w u ∧ (e =
      u.engine p.val t.val) ∧ (w.imm % 512 + w.aux % 128 ≤ 256 ∧ w.offset + w.aux % 128 ≤ 256)) :=
  ⟨⟨(mcState [(0, 1, 0x00)]), _, 7, 63, _, _, issues_of (by decide +kernel), rfl⟩,
   ⟨(mcState [(0, 1, 0x01)]), _, 7, 63, _, _, issues_of (by decide +kernel), rfl⟩,
   ⟨(mcState [(0, 1, 0x02)]), _, 7, 63, _, _, _, _, _, issues_of (by decide +kernel), rfl, rfl, rfl, rfl⟩,
   ⟨(mcState [(0, 1, 0x03)]), _, 7, 63, _, _, _, _, _, issues_of (by decide +kernel), rfl, rfl, rfl, rfl⟩,
   ⟨(mcState [(0, 1, 0x04)]), _, 7, 63, _, _, _, _, _, issues_of (by decide +kernel), rfl, rfl, rfl, rfl⟩,
   ⟨(mcState [(0, 1, 0x05)]), _, 7, 63, _, _, _, _, _, issues_of (by decide +kernel), rfl, rfl, rfl, rfl⟩,
   ⟨(mcState [(0, 1, 0x06)]), _, 7, 63, _, _, _, _, _, issues_of (by decide +kernel), rfl, rfl, rfl, rfl⟩,
   ⟨(mcState [(0, 1, 0x07)]), _, 7, 63, _, _, _, _, _, issues_of (by decide +kernel), rfl, rfl, rfl, rfl⟩,
   ⟨(mcState [(0, 1, 0x08)]), _, 7, 63, _, _, _, _, _, issues_of (by decide +kernel), rfl, rfl, rfl, rfl⟩,
   ⟨(mcState [(0, 1, 0x09)]), _, 7, 63, _, _, _, _, _, issues_of (by decide +kernel), rfl, rfl, rfl, rfl⟩,
   ⟨(mcState [(0, 1, 0x0A)]), _, 7, 63, _, _, _, _, _, issues_of (by decide +kernel), rfl, rfl, rfl, rfl⟩,
   ⟨(mcState [(0, 1, 0x0B)]), _, 7, 63, _, _, _, _, _, issues_of (by decide +kernel), rfl, rfl, rfl, rfl⟩,
   ⟨(mcState [(0, 1, 0x0C)]), _, 7, 63, _, _, _, _, _, issues_of (by decide +kernel), rfl, rfl, rfl, rfl⟩,
   ⟨(mcState [(0, 1, 0x0D)]), _, 7, 63, _, _, _, _, _, issues_of (by decide +kernel), rfl, rfl, rfl, rfl⟩,
   ⟨(mcState [(0, 1, 0x0E), (8, 2, 256)]), _, 7, 63, _, _, _, _, _, issues_of (by decide +kernel), rfl, rfl, rfl,
     rfl⟩,
   ⟨(mcState [(0, 1, 0x0F), (8, 2, 256)]), _, 7, 63, _, _, _, _, _, issues_of (by decide +kernel), rfl, rfl, rfl,
     rfl⟩,
   ⟨(mcState [(0, 1, 0x10)]), _, 7, 63, _, _, _, _, _, issues_of (by decide +kernel), rfl, rfl, rfl, rfl⟩,
   ⟨(mcState [(0, 1, 0x11)]), _, 7, 63, _, _, _, _, _, issues_of (by decide +kernel), rfl, rfl, rfl, rfl⟩,
   ⟨(mcState [(0, 1, 0x20)]), _, 7, 63, _, _, issues_of (by decide +kernel), rfl, (by decide +kernel)⟩,
   ⟨(mcState [(0, 1, 0x20), (5, 1, 2), (7, 1, 1)]), _, 7, 63, _, _, issues_of (by decide +kernel), rfl,
     (by decide +kernel)⟩,
   ⟨(mcState [(0, 1, 0x21)]), _, 7, 63, _, _, issues_of (by decide +kernel), rfl, (by decide +kernel)⟩,
   ⟨(mcState [(0, 1, 0x21), (5, 1, 2)]), _, 7, 63, _, _, issues_of (by decide +kernel), rfl, (by decide +kernel)⟩,
   ⟨(mcState [(0, 1, 0x22), (12, 1, 32)]), _, 7, 63, _, _, issues_of (by decide +kernel), rfl, (by decide +kernel)⟩⟩

theorem witness_MicroRequests :
    (∃ (s u : State) (p : Fin 9) (t : Fin 64) (w : MWord) (e : Engine), s.issues p.val t.val 0x28 w u ∧ (e =
      u.engine p.val t.val)) ∧
    (∃ (s u : State) (p : Fin 9) (t : Fin 64) (w : MWord) (e : Engine), s.issues p.val t.val 0x29 w u ∧ (e =
      u.engine p.val t.val)) ∧
    (∃ (s u : State) (p : Fin 9) (t : Fin 64) (w : MWord) (e : Engine), s.issues p.val t.val 0x2A w u ∧ (e =
      u.engine p.val t.val)) ∧
    (∃ (s u : State) (p : Fin 9) (t : Fin 64) (w : MWord) (e : Engine), s.issues p.val t.val 0x2B w u ∧ (e =
      u.engine p.val t.val)) ∧
    (∃ (s u : State) (p : Fin 9) (t : Fin 64) (w : MWord) (e : Engine) (r : Nat), s.issues p.val t.val 0x30 w u ∧
      (e = u.engine p.val t.val) ∧ (r = w.aux + e.off w) ∧ (u.dramTraps p.val r = false)) ∧
    (∃ (s u : State) (p : Fin 9) (t : Fin 64) (w : MWord) (e : Engine) (r : Nat), s.issues p.val t.val 0x30 w u ∧
      (e = u.engine p.val t.val) ∧ (r = w.aux + e.off w) ∧ (u.dramTraps p.val r = true)) ∧
    (∃ (s u : State) (p : Fin 9) (t : Fin 64) (w : MWord) (e : Engine) (r : Nat), s.issues p.val t.val 0x31 w u ∧
      (e = u.engine p.val t.val) ∧ (r = w.aux + e.off w) ∧ (u.dramTraps p.val r = false)) ∧
    (∃ (s u : State) (p : Fin 9) (t : Fin 64) (w : MWord) (e : Engine) (r : Nat), s.issues p.val t.val 0x31 w u ∧
      (e = u.engine p.val t.val) ∧ (r = w.aux + e.off w) ∧ (u.dramTraps p.val r = true)) ∧
    (∃ (s u : State) (p : Fin 9) (t : Fin 64) (w : MWord) (e : Engine), s.issues p.val t.val 0x38 w u ∧ (e =
      u.engine p.val t.val) ∧ (w.aux % 4 ≠ 3 ∧ e.count 1 < 4)) ∧
    (∃ (s u : State) (p : Fin 9) (t : Fin 64) (w : MWord) (e : Engine), s.issues p.val t.val 0x38 w u ∧ (e =
      u.engine p.val t.val) ∧ (w.aux % 4 = 3 ∨ 4 ≤ e.count 1)) ∧
    (∃ (s u : State) (p : Fin 9) (t : Fin 64) (w : MWord) (e : Engine) (m len : Nat), s.issues p.val t.val 0x3C w u
      ∧ (e = u.engine p.val t.val) ∧ (m = w.aux % 2 ^ 18 + e.off w) ∧ (len = (e.opB w).toNat % 2 ^ 15) ∧ (m <
      262144 ∧ e.count 2 < 4)) ∧
    (∃ (s u : State) (p : Fin 9) (t : Fin 64) (w : MWord) (e : Engine) (m len : Nat), s.issues p.val t.val 0x3C w u
      ∧ (e = u.engine p.val t.val) ∧ (m = w.aux % 2 ^ 18 + e.off w) ∧ (len = (e.opB w).toNat % 2 ^ 15) ∧ (262144 ≤
      m ∨ 4 ≤ e.count 2)) ∧
    (∃ (s u : State) (p : Fin 9) (t : Fin 64) (w : MWord) (e : Engine), s.issues p.val t.val 0x40 w u ∧ (e =
      u.engine p.val t.val) ∧ e.count 3 < 4) ∧
    (∃ (s u : State) (p : Fin 9) (t : Fin 64) (w : MWord) (e : Engine), s.issues p.val t.val 0x40 w u ∧ (e =
      u.engine p.val t.val) ∧ 4 ≤ e.count 3) :=
  ⟨⟨(mcState [(0, 1, 0x28)]), _, 7, 63, _, _, issues_of (by decide +kernel), rfl⟩,
   ⟨(mcState [(0, 1, 0x29)]), _, 7, 63, _, _, issues_of (by decide +kernel), rfl⟩,
   ⟨(mcState [(0, 1, 0x2A)]), _, 7, 63, _, _, issues_of (by decide +kernel), rfl⟩,
   ⟨(mcState [(0, 1, 0x2B)]), _, 7, 63, _, _, issues_of (by decide +kernel), rfl⟩,
   ⟨(((mcState [(0, 1, 0x30)]).wr (wDmc 0) Reg.DMC_STATUS_STATE 2).wr (wPipe 7) Reg.PIPE_TENON_CFG_REGION_SIZE 1),
     _, 7, 63, _, _, _, issues_of (by decide +kernel), rfl, rfl, (by decide +kernel)⟩,
   ⟨(mcState [(0, 1, 0x30), (12, 4, 4)]), _, 7, 63, _, _, _, issues_of (by decide +kernel), rfl, rfl,
     (by decide +kernel)⟩,
   ⟨(((mcState [(0, 1, 0x31)]).wr (wDmc 0) Reg.DMC_STATUS_STATE 2).wr (wPipe 7) Reg.PIPE_TENON_CFG_REGION_SIZE 1),
     _, 7, 63, _, _, _, issues_of (by decide +kernel), rfl, rfl, (by decide +kernel)⟩,
   ⟨(mcState [(0, 1, 0x31), (12, 4, 4)]), _, 7, 63, _, _, _, issues_of (by decide +kernel), rfl, rfl,
     (by decide +kernel)⟩,
   ⟨(mcState [(0, 1, 0x38), (12, 1, 1)]), _, 7, 63, _, _, issues_of (by decide +kernel), rfl, (by decide +kernel)⟩,
   ⟨(mcState [(0, 1, 0x38), (12, 1, 3)]), _, 7, 63, _, _, issues_of (by decide +kernel), rfl, (by decide +kernel)⟩,
   ⟨(mcState [(0, 1, 0x3C)]), _, 7, 63, _, _, _, _, issues_of (by decide +kernel), rfl, rfl, rfl,
     (by decide +kernel)⟩,
   ⟨((mcState [(0, 1, 0x3C)]).mcWith { (mcState [(0, 1, 0x3C)]).engine 7 63 with issued := [(2, 4)] }), _, 7, 63,
     _, _, _, _, issues_of (by decide +kernel), rfl, rfl, rfl, (by decide +kernel)⟩,
   ⟨(mcState [(0, 1, 0x40)]), _, 7, 63, _, _, issues_of (by decide +kernel), rfl, (by decide +kernel)⟩,
   ⟨((mcState [(0, 1, 0x40)]).mcWith { (mcState [(0, 1, 0x40)]).engine 7 63 with issued := [(3, 4)] }), _, 7, 63,
     _, _, issues_of (by decide +kernel), rfl, (by decide +kernel)⟩⟩

theorem witness_MicroControl :
    (∃ (s u : State) (p : Fin 9) (t : Fin 64) (w : MWord) (e : Engine), s.issues p.val t.val 0x48 w u ∧ (e =
      u.engine p.val t.val)) ∧
    (∃ (s u : State) (p : Fin 9) (t : Fin 64) (w : MWord) (e : Engine), s.issues p.val t.val 0x49 w u ∧ (e =
      u.engine p.val t.val)) ∧
    (∃ (s u : State) (p : Fin 9) (t : Fin 64) (w : MWord) (e : Engine), s.issues p.val t.val 0x4A w u ∧ (e =
      u.engine p.val t.val)) ∧
    (∃ (s u : State) (p : Fin 9) (t : Fin 64) (w : MWord) (e : Engine), s.issues p.val t.val 0x4C w u ∧ (e =
      u.engine p.val t.val) ∧ 2 ≤ e.handler) ∧
    (∃ (s u : State) (p : Fin 9) (t : Fin 64) (w : MWord) (e : Engine), s.issues p.val t.val 0x4C w u ∧ (e =
      u.engine p.val t.val) ∧ e.handler ≤ 1) ∧
    (∃ (s u : State) (p : Fin 9) (t : Fin 64) (w : MWord) (e : Engine), s.issues p.val t.val 0x50 w u ∧ (e =
      u.engine p.val t.val)) ∧
    (∃ (s u : State) (p : Fin 9) (t : Fin 64) (w : MWord) (e : Engine) (f g : Frame), s.issues p.val t.val 0x4B w u
      ∧ (e = u.engine p.val t.val) ∧ (f = u.frame e.frame) ∧ (g = e.build f e.win e.md) ∧ (u.destInvalid e.md =
      true)) ∧
    (∃ (s u : State) (p : Fin 9) (t : Fin 64) (w : MWord) (e : Engine) (f g : Frame), s.issues p.val t.val 0x4B w u
      ∧ (e = u.engine p.val t.val) ∧ (f = u.frame e.frame) ∧ (g = e.build f e.win e.md) ∧ (u.destInvalid e.md =
      false ∧ mdKind e.md = 4 ∧ f.pass = 7)) ∧
    (∃ (s u : State) (p : Fin 9) (t : Fin 64) (w : MWord) (e : Engine) (f g : Frame), s.issues p.val t.val 0x4B w u
      ∧ (e = u.engine p.val t.val) ∧ (f = u.frame e.frame) ∧ (g = e.build f e.win e.md) ∧ (u.destInvalid e.md =
      false ∧ (mdKind e.md = 4 → f.pass ≠ 7) ∧ u.lengthInvalid g e.md e.len = true)) ∧
    (∃ (s u : State) (p : Fin 9) (t : Fin 64) (w : MWord) (e : Engine) (f g : Frame), s.issues p.val t.val 0x4B w u
      ∧ (e = u.engine p.val t.val) ∧ (f = u.frame e.frame) ∧ (g = e.build f e.win e.md) ∧ (u.destInvalid e.md =
      false ∧ (mdKind e.md = 4 → f.pass ≠ 7) ∧ u.lengthInvalid g e.md e.len = false) ∧ (u.handOf e.frame g e.md =
      none)) ∧
    (∃ (s u : State) (p : Fin 9) (t : Fin 64) (w : MWord) (e : Engine) (f g : Frame) (h : Hand) (v : State),
      s.issues p.val t.val 0x4B w u ∧ (e = u.engine p.val t.val) ∧ (f = u.frame e.frame) ∧ (g = e.build f e.win
      e.md) ∧ (u.destInvalid e.md = false ∧ (mdKind e.md = 4 → f.pass ≠ 7) ∧ u.lengthInvalid g e.md e.len = false)
      ∧ (u.handOf e.frame g e.md = some h) ∧ (v = ((((((u.emitClones p.val e e.clones).2.setFrame e.frame { g with
      refs := ((u.emitClones p.val e e.clones).2.frame e.frame).refs }).repack p.val e.frame (mdHeadEnd e.md -
        mdHeadStart e.md)).endLearn p.val e).setEngine p.val t.val (e.spend 1)).freeEngine p.val t.val false))) :=
  ⟨⟨(mcState [(0, 1, 0x48)]), _, 7, 63, _, _, issues_of (by decide +kernel), rfl⟩,
   ⟨(mcState [(0, 1, 0x49)]), _, 7, 63, _, _, issues_of (by decide +kernel), rfl⟩,
   ⟨(mcState [(0, 1, 0x4A)]), _, 7, 63, _, _, issues_of (by decide +kernel), rfl⟩,
   ⟨((mcState [(0, 1, 0x4C)]).mcWith { (mcState [(0, 1, 0x4C)]).engine 7 63 with
     handler := 2, trap := List.replicate 16 1 }), _, 7, 63, _, _, issues_of (by decide +kernel), rfl,
       (by decide +kernel)⟩,
   ⟨(mcState [(0, 1, 0x4C)]), _, 7, 63, _, _, issues_of (by decide +kernel), rfl, (by decide +kernel)⟩,
   ⟨(mcState [(0, 1, 0x50)]), _, 7, 63, _, _, issues_of (by decide +kernel), rfl⟩,
   ⟨((mcState [(0, 1, 0x4B)]).mcWith { (mcState [(0, 1, 0x4B)]).engine 7 63 with md := entryOf 128 [(36, 1, 7)] }),
     _, 7, 63, _, _, _, _, issues_of (by decide +kernel), rfl, rfl, rfl, (by decide +kernel)⟩,
   ⟨(((mcState [(0, 1, 0x4B)]).mcWith { (mcState [(0, 1, 0x4B)]).engine 7 63 with md := entryOf 128 [(36, 1, 4)]
     }).setFrame 0 { pass := 7 }), _, 7, 63, _, _, _, _, issues_of (by decide +kernel), rfl, rfl, rfl,
     (by decide +kernel)⟩,
   ⟨((mcState [(0, 1, 0x4B)]).mcWith { (mcState [(0, 1, 0x4B)]).engine 7 63 with md := entryOf 128 [(28, 2, 64)]
     }), _, 7, 63, _, _, _, _, issues_of (by decide +kernel), rfl, rfl, rfl, (by decide +kernel)⟩,
   ⟨((mcState [(0, 1, 0x4B)]).mcWith { (mcState [(0, 1, 0x4B)]).engine 7 63 with md := entryOf 128 [] }), _, 7, 63,
     _, _, _, _, issues_of (by decide +kernel), rfl, rfl, rfl, (by decide +kernel), (by decide +kernel)⟩,
   ⟨((mcState [(0, 1, 0x4B)]).mcWith { (mcState [(0, 1, 0x4B)]).engine 7 63 with md := entryOf 128 [(36, 1, 3)] }),
     _, 7, 63, _, _, _, _, _, _, issues_of (by decide +kernel), rfl, rfl, rfl, (by decide +kernel),
     (Option.some_get (by decide +kernel)).symm, rfl⟩⟩

theorem witness_ControlStoreAndAccess :
    (∃ (s b : State) (j : Job) (img : List Byte), (((maskList (j.byte 0 4)).any fun p => (s.pipe
      p).storeLoad.isSome) = false) ∧ (s.inTurn j 0x38 0x3A = true) ∧ (s.takes { op := 0x38 } j b) ∧ (j.byte 0 4 ≠
      0 ∧ j.le 8 8 % 8 = 0) ∧ (img = b.hostRd (b.jobLink j) (j.le 8 8) (min (j.le 16 4) 525697)) ∧ (csFail img
      (j.le 16 4) = none)) ∧
    (∃ (s u v : State) (p : Fin 8) (l : GraphLoad), ((s.pipe p.val).storeLoad = some l) ∧ (s.rdb (wPipe p.val)
      Reg.PIPE_TENON_STATUS_LOAD_BUSY = true) ∧ (u = ((s.setStore p.val (1 - s.csBank p.val) l.image).wr (wPipe
      p.val) Reg.PIPE_TENON_STATUS_LOAD_BUSY 0).wr (wPipe p.val) Reg.PIPE_TENON_STATUS_SHADOW_VALID 1) ∧ (v =
      ((u.setPipe p.val { ((s.setStore p.val (1 - s.csBank p.val) l.image).wr (wPipe p.val)
      Reg.PIPE_TENON_STATUS_LOAD_BUSY 0).pipe p.val with storeLoad := none }).csReport p.val).event Ev.CS_LOADED
      p.val l.mask (imH l.image 6) 0)) ∧
    (∃ (s b : State) (j : Job), (((maskList (j.byte 0 4)).any fun p => (s.pipe p).storeLoad.isSome && s.csShadow p)
      = false) ∧ (s.inTurn j 0x38 0x3A = true) ∧ (s.takes { op := 0x39, safe := true } j b) ∧ (((maskList (j.byte 0
      4)).any fun p => !b.csShadow p) = false)) ∧
    (∃ (s : State) (p : Fin 8), (s.rdb (wPipe p.val) Reg.PIPE_TENON_STATUS_DRAINING = true ∧ s.csHolds p.val (1 -
      s.csBank p.val) = false)) ∧
    (∃ (s b : State) (j : Job) (p bank : Nat), (s.inTurn j 0x38 0x3A = true) ∧ (s.takes { op := 0x3A } j b) ∧
      (oneOf (j.byte 0 4) = some p) ∧ (bank = (if j.bit 5 0 then 1 - b.csBank p else b.csBank p)) ∧ ((if j.bit 5 0
      then b.csShadow p else b.csValid p) = true) ∧ 525696 ≤ j.le 16 4) ∧
    (∃ (s : State) (v : Fin 16), (s.svcLive v.val = true)) ∧
    (∃ (s u : State) (v : Fin 16) (d : Nat), (s.svcState v.val = 1 ∧ d = s.svcDuty v.val ∧ d < 14) ∧ (u = s.setSvc
      v.val 2 31)) ∧
    (∃ (s b : State) (j : Job), (s.takes { op := 0x3B, safe := true } j b) ∧ maskList (j.byte 0 4) ≠ [] ∧
      (b.setupInvalid (j.byte 0 5) (j.le 6 2) (j.le 8 8) = false)) ∧
    (∃ (s b : State) (j : Job) (p : Nat), (s.takes { op := 0x3C } j b) ∧ (oneOf (j.byte 0 4) = some p) ∧ (j.le 6 2
      + j.le 16 2 ≤ 16384 ∧ j.le 16 2 ≠ 0)) ∧
    (∃ (s b : State) (j : Job) (d : List Byte), (s.takes { op := 0x3D } j b) ∧ maskList (j.byte 0 4) ≠ [] ∧ (j.le 6
      2 + j.le 16 2 ≤ 16384 ∧ j.le 16 2 ≠ 0) ∧ (d = b.hostRd (b.jobLink j) (j.le 8 8) (8 * j.le 16 2))) :=
  ⟨⟨readyCsl, _, CSL, _, (by decide +kernel), (by decide +kernel), takes_of (by decide +kernel),
     (by decide +kernel), rfl, (csl_ok)⟩,
   ⟨(ready.setPipe 7 { storeLoad := some { job := CSL, image := [], mask := 128 } }).wr (wPipe 7)
     Reg.PIPE_TENON_STATUS_LOAD_BUSY 1, _, _, 7, { job := CSL, image := [], mask := 128 }, (by decide +kernel),
     (by decide +kernel), rfl, rfl⟩,
   ⟨(readyJob CSW).wr (wPipe 7) Reg.PIPE_TENON_STATUS_SHADOW_VALID 1, _, CSW, (by decide +kernel),
     (by decide +kernel), takes_of (by decide +kernel), (by decide +kernel)⟩,
   ⟨ready.wr (wPipe 7) Reg.PIPE_TENON_STATUS_DRAINING 1, 7, (by decide +kernel)⟩,
   ⟨(readyJob CSR).wr (wPipe 7) Reg.PIPE_TENON_STATUS_SHADOW_VALID 1, _, CSR, 7, _, (by decide +kernel),
     takes_of (by decide +kernel), (by decide +kernel), rfl, (by decide +kernel), (by decide +kernel)⟩,
   ⟨ready.setSvc 15 1 0, 15, (by decide +kernel)⟩,
   ⟨ready.setSvc 15 1 13, _, 15, 13, (by decide +kernel), rfl⟩,
   ⟨readyJob TSU, _, TSU, takes_of (by decide +kernel), (by decide +kernel), (by decide +kernel)⟩,
   ⟨readyJob TSR, _, TSR, 7, takes_of (by decide +kernel), (by decide +kernel), (by decide +kernel)⟩,
   ⟨readyJob TSW, _, TSW, _, takes_of (by decide +kernel), (by decide +kernel), (by decide +kernel), rfl⟩⟩

theorem witness_RidgeEventsAndMeters :
    (∃ (s u : State) (n : Fin 141) (c : Fin 16), (s.rdb (rportBase n.val) Reg.RIDGE_PORT_A_WD_EN = true ∧
      s.wdPaused n.val c.val = true ∧ s.inStorm n.val c.val = false ∧ s.admits = true) ∧ (u = (s.setStorm n.val
      c.val true).stormDrop n.val c.val)) ∧
    (∃ (s u : State) (n : Fin 141) (c : Fin 16), (s.inStorm n.val c.val = true ∧ s.wdPaused n.val c.val = false ∧
      s.admits = true) ∧ (u = (s.setStorm n.val c.val false).event Ev.PFC_STORM_END 0 (n.val * 16 + c.val)
      (s.stormDropped n.val c.val) 0)) ∧
    (∃ (s : State) (q : BitVec 16) (k : Nat) (c : Copy) (g : Nat), ((s.egq q.toNat).mc[k]? = some c) ∧ (s.punted
      q.toNat c = false ∧ c.group = some g ∧ s.admits = true ∧ c.time + 1000 * c.holdUs ≤ s.clock.up)) ∧
    (∃ (s u v : State) (q : BitVec 16) (c : Copy), ((s.egq q.toNat).dram.find? (fun e => !e.2) = some (c, false)) ∧
      (s.admits = true ∧ s.stackOffline (s.egq q.toNat).stack = false) ∧ (u = s.setEgq q.toNat { s.egq q.toNat with
      dram := (s.egq q.toNat).dram.map (fun e => if e.1 = c then (e.1, true) else e) }) ∧ (v = (u.freeCells
        c.frame).count 149 0 ((u.frame c.frame).bytes.length + 4))) ∧
    (∃ (s u v : State) (q : BitVec 16) (ok : Bool) (x : EgQ) (c : Copy) (t : List (Copy × Bool)) (f : Frame) (k :
      Nat), (x = s.egq q.toNat) ∧ (x.dram = (c, true) :: t) ∧ (f = s.frame c.frame) ∧ (k = cellsFor (f.bytes.length
      + 4)) ∧ (s.admits = true ∧ s.stackOffline x.stack = false ∧ s.copyCells x.head < x.refill) ∧ s.rd wRidge
      Reg.RIDGE_POOL_USE_DEEP_USED + k ≤ s.rd wRidge Reg.RIDGE_POOLS_DEEP_CELLS ∧ (u = (s.wr wRidge
      Reg.RIDGE_POOL_USE_DEEP_USED (s.rd wRidge Reg.RIDGE_POOL_USE_DEEP_USED + k)).addFree (-(k : Int))) ∧ (v =
      (u.takeCells k).2.setFrame c.frame { f with
      cells := k, held := (u.takeCells k).1, store := 2, bad := if ok then f.bad else 1 })) ∧
    (∃ (s : State) (lost : List (Fin 524288 × Fin 141 × Fin 16)) (doubled : List (Fin 524288)), (s.audits = true ∧
      s.rdb wRidge Reg.RIDGE_STATUS_AUDIT_ACTIVE = false)) ∧
    (∃ (s t : State) (lost : List (Fin 524288 × Fin 141 × Fin 16)) (doubled : List (Fin 524288)) (found again :
      List (Nat × Nat × Nat)) (both : List Nat) (u v w : State), (s.audits = true ∧ s.rdb wRidge
      Reg.RIDGE_STATUS_AUDIT_ACTIVE = true) ∧ (t = forEach (doubled.map (fun k => k.val)) (fun k s => s.cellDoubled
      k) (forEach (lost.map (fun e => (e.1.val, e.2.1.val, e.2.2.val))) (fun e s => s.cellLost e) s)) ∧ (found =
      t.ridge.leaked.filter (fun e => t.cellNeither e.1) ∧ again = found.filter (fun e => t.ridge.suspects.contains
      e.1)) ∧ (both = t.cellsInUse.filter (fun k => t.cellFree k && !t.ridge.touched.contains k)) ∧ (u = (t.wr
      wRidge Reg.RIDGE_STATUS_AUDIT_ACTIVE 0).inc wRidge Reg.RIDGE_AUDIT_AUDITS 1) ∧ (v = forEach again (fun e s =>
      s.cellFound e) { u with
      ridge := { u.ridge with
        suspects := (found.map (fun e => e.1)).filter (fun k => !t.ridge.suspects.contains k), touched := [] } }) ∧
          (w = if again = [] then v else (((v.inc wRidge Reg.RIDGE_LEAKED_RECLAIMED again.length).count 149 2
          again.length).eventFw Ev.CELL_LEAK 0 again.length ((again.head?.map (·.1)).getD 0) (v.rd wRidge
          Reg.RIDGE_AUDIT_AUDITS)).fault .ridge 0 again.length)) ∧
    (∃ (s b : State) (j : Job) (recs : List (Nat × List Byte)), (s.takes { op := 0x5C, owner := false } j b) ∧
      (j.le 8 4 + j.le 12 4 ≤ 262144 ∧ j.one = true) ∧ (recs = (rangeFrom 0 (min (j.le 12 4) 262144)).map (fun k =>
      (j.le 8 4 + k, b.hostRd (b.jobLink j) (j.hostAddr + 32 * k) 32))) ∧ ((recs.any fun e => decide (b.meterHolder
      e.1 ≠ b.jobFn j)) = false) ∧ (recs.findIdx? (fun e => badMeter e.2) = none)) ∧
    (∃ (s b : State) (j : Job) (x : Meter), (s.takes { op := 0x5D, owner := false } j b) ∧ (j.le 8 4 < 262144 ∧
      j.one = true ∧ b.meterHolder (j.le 8 4) = b.jobFn j) ∧ (x = (b.meter (j.le 8 4)).refill b.nowNs)) :=
  ⟨⟨WDS, _, 127, 15, (by decide +kernel), rfl⟩,
   ⟨ready.setStorm 140 15 true, _, 140, 15, (by decide +kernel), rfl⟩,
   ⟨(ready.setFrame 0 {}).setEgq 2255 { mc := [{ frame := 0, order := 0, group := some 65535 }] }, 2255, 0, {
     frame := 0, order := 0, group := some 65535 }, 65535, (by decide +kernel), (by decide +kernel)⟩,
   ⟨((ready.wr (wDmc 0) Reg.DMC_STATUS_STATE 2).setFrame 0 { cells := 1 }).setEgq 2255 {
     dram := [({ frame := 0, order := 0 }, false)] }, _, _, 2255, { frame := 0, order := 0 }, (by decide +kernel),
       (by decide +kernel), rfl, rfl⟩,
   ⟨((ready.wr (wDmc 0) Reg.DMC_STATUS_STATE 2).setFrame 0 {}).setEgq 2255 {
     refill := 1, dram := [({ frame := 0, order := 0 }, true)] }, _, _, 2255, false, _, { frame := 0, order := 0 },
       [], _, _, rfl, (by decide +kernel), rfl, rfl, (by decide +kernel), (by decide +kernel), rfl, rfl⟩,
   by
      refine ⟨ready.running15 10, [], [], ?_⟩
      try unfold State.takes
      try unfold State.issues
      decide +kernel,
   ⟨(ready.running15 10).wr wRidge Reg.RIDGE_STATUS_AUDIT_ACTIVE 1, _, [(524287, 140, 15)], [524286], _, _, _, _,
     _, _, (by decide +kernel), rfl, (⟨rfl, rfl⟩), rfl, rfl, rfl, rfl⟩,
   ⟨readyJob MTS, _, MTS, _, takes_of (by decide +kernel), (by decide +kernel), rfl, (by decide +kernel),
     (by decide +kernel)⟩,
   ⟨readyJob MTQ, _, MTQ, _, takes_of (by decide +kernel), (by decide +kernel), rfl⟩⟩

theorem witness_RidgeCommands :
    (∃ (s b : State) (j : Job) (u v : State), (s.takes { op := 0x50 } j b) ∧ (j.one = true) ∧ (u = ((b.wr wRidge
      Reg.RIDGE_POOLS_MIRROR_CELLS (j.le 8 2)).wr wRidge Reg.RIDGE_POOLS_DEEP_CELLS (j.le 10 2)).wr wRidge
      Reg.RIDGE_AUDIT_AUDIT_MS (j.le 12 2)) ∧ (u.reshare = some v)) ∧
    (∃ (s b : State) (j : Job) (n : Nat) (k : Int) (u v : State), (s.takes { op := 0x51, owner := false } j b) ∧ (n
      = j.le 4 2 ∧ n ≤ 140 ∧ b.holdsPort (b.jobFn j) n = true) ∧ (k = sInt 8 (j.byte 0 12) ∧ -4 ≤ k ∧ k ≤ 3 ∧ j.one
      = true) ∧ (u = forEach ((rangeFrom 0 16).filter (fun c => (j.le 6 2).testBit c)) (fun c s => (fun u : State
      => if j.bit 13 0 = false then u.wr (pairBase n c) Reg.RIDGE_PAIR_CFG_HDRM_CELLS (j.le 10 2) else u) ((((s.wr
      (pairBase n c) Reg.RIDGE_PAIR_CFG_MIN_CELLS (j.le 8 2)).wr (pairBase n c) Reg.RIDGE_PAIR_CTL_ALPHA_K (uNat 3
      k)).wr (pairBase n c) Reg.RIDGE_PAIR_CTL_HDRM_AUTO (b2n (j.bit 13 0))).wr (pairBase n c)
      Reg.RIDGE_PAIR_CTL_XON_DELTA (j.le 14 2))) b) ∧ ((u.autoHdrm n).reshare = some v)) ∧
    (∃ (s b : State) (j : Job) (n : Nat) (u v : State), (s.takes { op := 0x52, owner := false } j b) ∧ (n = j.le 4
      2 ∧ n ≤ 140 ∧ b.holdsPort (b.jobFn j) n = true) ∧ (j.bits 6 2 0 < 5 ∧ j.byte 0 7 < 16 ∧ j.le 16 2 < 4096 ∧
      j.one = true) ∧ (u = ((((b.setReg (rportBase n + 0x1000) (b2n (j.bit 6 5) * 2 ^ 31 + b2n (j.bit 6 6) * 2 ^ 30
      + j.bits 6 2 0 * 2 ^ 27 + j.bits 6 4 3 * 2 ^ 25 + j.byte 0 7)).setReg (rportBase n + 0x1004) (j.le 8
      4)).setReg (rportBase n + 0x1008) (j.le 14 2 * 2 ^ 16 + j.le 12 2)).setReg (rportBase n + 0x100C) (b2n (j.bit
      22 1) * 2 ^ 31 + b2n (j.bit 22 0) * 2 ^ 30 + j.byte 0 21 * 2 ^ 22 + j.byte 0 20 * 2 ^ 14 + j.le 16 2)).wr
      (rportBase n) Reg.RIDGE_PORT_E_PEER_NS (j.le 18 2)) ∧ ((u.autoHdrm n).reshare = some v)) ∧
    (∃ (s b : State) (j : Job), (s.takes { op := 0x53 } j b) ∧ (j.byte 0 4 < 4 ∧ j.one = true)) ∧
    (∃ (s b : State) (j : Job) (i : Nat) (u : State), (s.takes { op := 0x54 } j b) ∧ (i = j.byte 0 4 ∧ j.le 8 4 < 2
      ^ 24 ∧ j.byte 0 13 ≤ 131 ∧ j.one = true) ∧ (u = (b.setReg (samplerBase i + 0x20000) (b2n (j.bit 12 0) * 2 ^
      31 + j.le 8 4)).setReg (samplerBase i + 0x20004) (j.le 16 2 * 2 ^ 16 + j.bits 14 3 0 * 2 ^ 12 + j.byte 0 13))) ∧
    (∃ (s b : State) (j : Job) (g n : Nat) (l : List (Nat × Nat)), (s.takes { op := 0x55 } j b) ∧ (g = j.le 8 2 ∧ n
      = j.le 10 2 ∧ n ≤ 4096 ∧ j.one = true) ∧ (l = b.readMembers (b.jobLink j) j.hostAddr (min n 4096)) ∧ ((l.any
      fun m => decide (139 < m.1)) = false) ∧ b.otherMembers g + n ≤ 131072) ∧
    (∃ (s b : State) (j : Job) (l : List Nat), (s.takes { op := 0x56, owner := false } j b) ∧ (j.le 8 2 + j.le 12 4
      ≤ 65536 ∧ j.le 22 2 < 16384 ∧ j.one = true) ∧ (l = rangeFrom (j.le 8 2) (min (j.le 12 4) 65536)) ∧ ((l.any
      fun q => !b.holdsPort (b.jobFn j) (b.qPort q)) = false)) ∧
    (∃ (s b : State) (j : Job) (r : List Byte), (s.takes { op := 0x57, owner := false } j b) ∧ (j.byte 0 5 < 2 ∧
      j.one = true) ∧ (j.byte 0 5 = 0 → b.holdsPort (b.jobFn j) (b.qPort (j.le 8 2)) = true) ∧ (r = if j.byte 0 5 =
      0 then b.egqRecord (j.le 8 2) else b.groupRecord (j.le 8 2))) :=
  ⟨⟨readyJob RPS, _, RPS, _, _, takes_of (by decide +kernel), (by decide +kernel), rfl,
     (Option.some_get (reshare_some (by decide +kernel))).symm⟩,
   ⟨readyJob RPA, _, RPA, 140, 0, _, _, takes_of (by decide +kernel), (by decide +kernel), (by decide +kernel),
     rfl, (Option.some_get (reshare_some (by decide +kernel))).symm⟩,
   ⟨readyJob RPO, _, RPO, 140, _, _, takes_of (by decide +kernel), (by decide +kernel), (by decide +kernel), rfl,
     (Option.some_get (reshare_some (by decide +kernel))).symm⟩,
   ⟨readyJob RDS, _, RDS, takes_of (by decide +kernel), (by decide +kernel)⟩,
   ⟨readyJob RSS, _, RSS, 255, _, takes_of (by decide +kernel), (by decide +kernel), rfl⟩,
   ⟨readyJob RMS, _, RMS, 65535, 1, _, takes_of (by decide +kernel), (by decide +kernel), rfl, (by decide +kernel),
     (by decide +kernel)⟩,
   ⟨readyJob RDE, _, RDE, _, takes_of (by decide +kernel), (by decide +kernel), rfl, (by decide +kernel)⟩,
   ⟨readyJob RQY, _, RQY, _, takes_of (by decide +kernel), (by decide +kernel), (by decide +kernel), rfl⟩⟩

theorem witness_EschDecisions :
    (∃ (s u v : State) (n : Fin 141) (m : Fin 2) (q : Nat) (el : List Nat), (s.macBusy n.val m.val = false ∧
      s.chosen n.val m.val = none ∧ (m.val = 1 → s.preempting n.val = true) ∧ (s.port n.val).waking = false ∧
      (s.port n.val).restart = false) ∧ (el = (s.portQueues n.val m.val).filter (fun q => decide (s.blockedBy q =
      0))) ∧ (el = [] ∨ 128 ≤ n.val ∨ s.rdb (wPort n.val) Reg.PORT_STATUS_LPI_TX = false) ∧ (v = s.loseTurns n.val
      (el ++ (s.portQueues n.val (1 - m.val)).filter (fun q => decide (s.blockedBy q = 0)))) ∧ (v.descend n.val el
      = some (q, u))) ∧
    (∃ (s : State) (n : Fin 141) (m : Fin 2) (el : List Nat), (s.macBusy n.val m.val = false ∧ s.chosen n.val m.val
      = none ∧ (m.val = 1 → s.preempting n.val = true) ∧ (s.port n.val).waking = false ∧ (s.port n.val).restart =
      false) ∧ (el = (s.portQueues n.val m.val).filter (fun q => decide (s.blockedBy q = 0))) ∧ (el ≠ [] ∧ n.val <
      128 ∧ s.rdb (wPort n.val) Reg.PORT_STATUS_LPI_TX = true)) ∧
    (∃ (s v : State) (n : Fin 141) (m : Fin 2) (k : Nat) (t : List Nat), (s.macBusy n.val m.val = false ∧ s.chosen
      n.val m.val = none ∧ (m.val = 1 → s.preempting n.val = true) ∧ (s.port n.val).waking = false ∧ (s.port
      n.val).restart = false) ∧ ((s.portQueues n.val m.val).filter (fun q => decide (s.blockedBy q = 0)) = []) ∧
      ((s.portQueues n.val m.val).map s.blockedBy = k :: t) ∧ (v = s.loseTurns n.val ((s.portQueues n.val (1 -
      m.val)).filter (fun q => decide (s.blockedBy q = 0))))) ∧
    (∃ (s : State) (q : BitVec 16) (c : Copy) (t : Nat), ((s.egq q.toNat).headCopy = some c) ∧ (c.launch = some t)
      ∧ s.launchAt (s.qPort q.toNat) t ≤ s.now) :=
  ⟨⟨headAt 2240, _, _, 140, 0, _, _, (by decide +kernel), rfl, (by decide +kernel), rfl, ((Option.some_get
     (by decide +kernel)).symm)⟩,
   ⟨(headAt 2032 |>.setLink_ 127 4).wr (wPort 127) Reg.PORT_STATUS_LPI_TX 1, 127, 0, _, (by decide +kernel), rfl,
     (by decide +kernel)⟩,
   ⟨headAt 2048, _, 128, 0, 3, [], (by decide +kernel), (by decide +kernel), (by decide +kernel), rfl⟩,
   ⟨headAt 2240, 2240, { frame := 0, order := 0, launch := some 0 }, 0, (by decide +kernel), (by decide +kernel),
     (by decide +kernel)⟩⟩

theorem witness_EschCommands :
    (∃ (s b : State) (j : Job) (n : Nat) (img : List Byte), (s.takes { op := 0x58, owner := false, safe := true } j
      b) ∧ (n = j.le 4 2 ∧ n ≤ 140 ∧ j.le 16 4 ≤ 10 ^ 6 ∧ j.one = true) ∧ (b.holdsPort (b.jobFn j) n = true) ∧
      (((rangeFrom 0 16).any fun c => decide (65535 < j.le 6 2 + j.bits (8 + c / 2) (4 * (c % 2) + 3) (4 * (c % 2))
      ∨ b.qPort (j.le 6 2 + j.bits (8 + c / 2) (4 * (c % 2) + 3) (4 * (c % 2))) ≠ n)) = false) ∧ (img = b.hostRd
      (b.jobLink j) (j.le 20 4) 32) ∧ (j.le 20 4 ≠ 0 → badNode 3 img = false)) ∧
    (∃ (s b : State) (j : Job) (u : State), (s.takes { op := 0x59, owner := false, safe := true } j b) ∧ (j.le 8 2
      ≠ 0 ∧ j.byte 0 4 < 2 ∧ j.le 8 2 ≤ 8192 ∧ j.le 6 2 + j.le 8 2 ≤ (if j.byte 0 4 = 0 then 1024 else 8192) ∧
      j.one = true) ∧ b.nodesFit (b.jobFn j) (j.byte 0 4) (b.readRecs (b.jobLink j) j.hostAddr (j.le 6 2) (j.le 8
      2)) u) ∧
    (∃ (s b : State) (j : Job) (u : State), (s.takes { op := 0x5A, owner := false, safe := true } j b) ∧ (j.le 8 4
      ≠ 0 ∧ j.le 6 2 + j.le 8 4 ≤ 65536 ∧ j.one = true) ∧ b.nodesFit (b.jobFn j) 2 (b.readRecs (b.jobLink j)
      j.hostAddr (j.le 6 2) (j.le 8 4)) u) ∧
    (∃ (s b : State) (j : Job) (k n : Nat) (d : Node) (x : NodeSt), (s.takes { op := 0x5B, owner := false } j b) ∧
      (k = j.byte 0 4 ∧ n = j.le 6 2 ∧ k < 4 ∧ n < (if k = 0 then 1024 else if k = 1 then 8192 else if k = 2 then
      65536 else 141)) ∧ (j.one = true ∧ b.holdsPort (b.jobFn j) (b.nodePort k n) = true) ∧ (x = b.nodeNow k n) ∧
      (d = if k = 3 then { b.node 3 n with weight := 0 } else b.node k n)) :=
  ⟨⟨readyJob EPS, _, EPS, 140, _, takes_of (by decide +kernel), (by decide +kernel), (by decide +kernel),
     (by decide +kernel), rfl, (by decide +kernel)⟩,
   ⟨ENSS, _, ENS, _, takes_of (by decide +kernel), (by decide +kernel), (nodesFit_of (by decide +kernel))⟩,
   ⟨EQSS, _, EQS, _, takes_of (by decide +kernel), (by decide +kernel), (nodesFit_of (by decide +kernel))⟩,
   ⟨readyJob EQY, _, EQY, 3, 140, _, _, takes_of (by decide +kernel), (by decide +kernel), (by decide +kernel),
     rfl, rfl⟩⟩

theorem witness_JoistTraffic :
    (∃ (s : State) (n : Fin 128) (k : BitVec 12) (i : Nat), (s.retxRuns n.val = true) ∧ ((s.jport
      n.val).kept.findIdx? (fun e => decide (e.1 = k.toNat)) = some i)) ∧
    (∃ (s : State) (n : Fin 128) (k : BitVec 12) (l : List (Nat × Sending)), (s.retxRuns n.val = true) ∧ (l =
      (s.jport n.val).kept.dropWhile (fun e => decide (e.1 ≠ k.toNat))) ∧ l ≠ [] ∧ (s.jport n.val).tries + 1 ≤ s.rd
      (joistBase n.val) Reg.JOIST_PORT_B_RETX_TRIES) ∧
    (∃ (s : State) (n : Fin 128) (k : BitVec 12), (s.retxRuns n.val = true)) ∧
    (∃ (s : State) (n : Fin 128) (e : Nat × Sending) (l : List (Nat × Sending)), ((s.jport n.val).kept = e :: l) ∧
      (s.retxRuns n.val = true)) ∧
    (∃ (s : State) (n : Fin 128) (l : List Byte) (fcs : Word32), (s.joisted n.val l = true ∧ joistVersion l = 1 ∧
      joistSeqValid l = true) ∧ (s.reception n.val 0 = none)) ∧
    (∃ (s b u : State) (n : Fin 128) (mac : Fin 2) (total : BitVec 15) (l : List Byte) (fcs : Word32) (ab br :
      Bool) (frags : BitVec 8) (phy : PhyCounts) (x : Piece) (r : Receiving), (b = s.phyCount n.val phy ∧ b.portUp
      n.val = true) ∧ (x = {
      port := n.val, mac := mac.val, total := total.toNat, bytes := l, last := true, fcs := fcs.toNat, aborted :=
        ab, broken := br, frags := frags.toNat }) ∧ (u = if (b.reception n.val mac.val).isNone then
        b.startReception x else b) ∧ (u.reception n.val mac.val = some r)) ∧
    (∃ (s b u : State) (n : Fin 128) (mac : Fin 2) (total : BitVec 15) (l : List Byte) (fcs : Word32) (ab br :
      Bool) (frags : BitVec 8) (phy : PhyCounts) (x : Piece) (r : Receiving), (b = s.phyCount n.val phy ∧ b.portUp
      n.val = true) ∧ (x = {
      port := n.val, mac := mac.val, total := total.toNat, bytes := l, last := false, fcs := fcs.toNat, aborted :=
        ab, broken := br, frags := frags.toNat }) ∧ (u = if (b.reception n.val mac.val).isNone then
        b.startReception x else b) ∧ (u.reception n.val mac.val = some r)) ∧
    (∃ (s b : State) (j : Job), (s.takes { op := 0x60 } j b) ∧ (j.le 4 2 < 16384 ∧ j.byte 0 6 < 64 ∧ j.one = true)
      ∧ (((rangeFrom 0 128).any fun n => retryBreaks (b.rd (joistBase n) Reg.JOIST_PORT_A_RETX_TC) (b.rd (joistBase
      n) Reg.JOIST_PORT_B_RETX_TIMEOUT_US) (b.rd (joistBase n) Reg.JOIST_PORT_B_RETX_TRIES) (j.le 8 2)) = false) ∧
      (j.le 4 2 = b.devNum ∨ ((rangeFrom 0 128).any fun n => b.domain n && decide (b.linkState n ≠ 0)) = false)) ∧
    (∃ (s b : State) (j : Job) (recs : List (List Byte)), (s.takes { op := 0x61 } j b) ∧ (recs = (rangeFrom 0 (min
      (j.le 10 2) 16384)).map (fun k => b.hostRd (b.jobLink j) (j.hostAddr + 8 * k) 8)) ∧ (j.le 8 2 + j.le 10 2 ≤
      16384 ∧ j.le 10 2 ≠ 0 ∧ j.one = true) ∧ (recs.any (fun r => decide (4 < beAt r 0 1 ∨ leNat (slice r 1 3) ≠ 0)
      || ((((r.drop 4).take 4).map (·.toNat)).take (beAt r 0 1)).any (fun p => decide (127 < p))) = false)) ∧
    (∃ (s b : State) (j : Job), (s.takes { op := 0x62 } j b) ∧ (j.le 8 2 < 16384 ∧ j.one = true)) ∧
    (∃ (s b : State) (j : Job), (s.takes { op := 0x63 } j b) ∧ (j.le 4 2 < 128 ∧ j.one = true)) ∧
    (∃ (s b : State) (j : Job) (n : Nat), (s.takes { op := 0x2A, owner := false } j b) ∧ (n = j.le 4 2 ∧ n < 128 ∧
      b.portHolder n = b.jobFn j) ∧ (j.byte 0 6 < 2 ∧ j.only [(4, 2), (6, 1), (8, 2), (10, 2), (12, 2), (14, 1)] =
      true ∧ j.bit 9 6 = false ∧ j.bit 9 7 = false) ∧ (j.le 10 2 ≠ 0 ∧ j.le 10 2 ≤ 2047 ∧ j.le 12 2 ≠ 0 ∧ j.byte 0
      14 ≠ 0 ∧ j.byte 0 14 ≤ 15) ∧ (retryBreaks (j.le 8 2) (j.le 12 2) (j.byte 0 14) (b.rd wJoist
      Reg.JOIST_HOST_TIMEOUT_HOST_TIMEOUT_MS) = false) ∧ (b.linkState n = 0)) :=
  ⟨by
      refine ⟨JP, 127, 0, 0, ?_⟩
      try unfold State.takes
      try unfold State.issues
      decide +kernel,
   by
      refine ⟨JP, 127, 0, [(0, JPS)], ?_⟩
      try unfold State.takes
      try unfold State.issues
      decide +kernel,
   by
      refine ⟨JP, 127, 0, ?_⟩
      try unfold State.takes
      try unfold State.issues
      decide +kernel,
   by
      refine ⟨JP, 127, (0, JPS), [], ?_⟩
      try unfold State.takes
      try unfold State.issues
      decide +kernel,
   by
      refine ⟨JP, 127, RETX, 0, ?_⟩
      try unfold State.takes
      try unfold State.issues
      decide +kernel,
   by
      refine ⟨RXS, RXS.phyCount 127 {}, RXS.phyCount 127 {}, 127, 0, 64, [], 0, false, false, 0, {}, {
        port := 127, mac := 0, total := 64, bytes := [], last := true, fcs := 0, aborted := false, broken := false,
          frags := 0 }, {}, ?_⟩
      try unfold State.takes
      try unfold State.issues
      decide +kernel,
   by
      refine ⟨RXS, RXS.phyCount 127 {}, RXS.phyCount 127 {}, 127, 0, 64, [], 0, false, false, 0, {}, {
        port := 127, mac := 0, total := 64, bytes := [], last := false, fcs := 0, aborted := false, broken :=
          false, frags := 0 }, {}, ?_⟩
      try unfold State.takes
      try unfold State.issues
      decide +kernel,
   by
      refine ⟨(readyJob (mkJob 0x60 [(4, 2, 16383), (6, 1, 63), (8, 2, 65535)])), ((readyJob (mkJob 0x60 [(4, 2,
        16383), (6, 1, 63), (8, 2, 65535)]))).startJob (mkJob 0x60 [(4, 2, 16383), (6, 1, 63), (8, 2, 65535)]),
        mkJob 0x60 [(4, 2, 16383), (6, 1, 63), (8, 2, 65535)], ?_⟩
      try unfold State.takes
      try unfold State.issues
      decide +kernel,
   by
      refine ⟨(readyJob (mkJob 0x61 [(8, 2, 16383), (10, 2, 1)])), ((readyJob (mkJob 0x61 [(8, 2, 16383), (10, 2,
        1)]))).startJob (mkJob 0x61 [(8, 2, 16383), (10, 2, 1)]), mkJob 0x61 [(8, 2, 16383), (10, 2, 1)], [[0, 0,
        0, 0, 0, 0, 0, 0]], ?_⟩
      try unfold State.takes
      try unfold State.issues
      decide +kernel,
   by
      refine ⟨(readyJob (mkJob 0x62 [(8, 2, 16383)])), ((readyJob (mkJob 0x62 [(8, 2, 16383)]))).startJob (mkJob
        0x62 [(8, 2, 16383)]), mkJob 0x62 [(8, 2, 16383)], ?_⟩
      try unfold State.takes
      try unfold State.issues
      decide +kernel,
   by
      refine ⟨(readyJob (mkJob 0x63 [(4, 2, 127)])), ((readyJob (mkJob 0x63 [(4, 2, 127)]))).startJob (mkJob 0x63
        [(4, 2, 127)]), mkJob 0x63 [(4, 2, 127)], ?_⟩
      try unfold State.takes
      try unfold State.issues
      decide +kernel,
   by
      refine ⟨(readyJob (mkJob 0x2A [(4, 2, 127), (6, 1, 1), (8, 2, 1), (10, 2, 2047), (12, 2, 100), (14, 1, 3)])),
        ((readyJob (mkJob 0x2A [(4, 2, 127), (6, 1, 1), (8, 2, 1), (10, 2, 2047), (12, 2, 100), (14, 1,
        3)]))).startJob (mkJob 0x2A [(4, 2, 127), (6, 1, 1), (8, 2, 1), (10, 2, 2047), (12, 2, 100), (14, 1, 3)]),
        mkJob 0x2A [(4, 2, 127), (6, 1, 1), (8, 2, 1), (10, 2, 2047), (12, 2, 100), (14, 1, 3)], 127, ?_⟩
      try unfold State.takes
      try unfold State.issues
      decide +kernel⟩

theorem witness_ThymeAdjustments :
    (∃ (s b : State) (j : Job) (v : Int), (s.inTurn j 0x68 0x68 = true ∧ j.byte 0 4 = 0) ∧ (s.takes {
      op := 0x68, safe := true } j b) ∧ (v = sInt 32 (j.le 8 4) ∧ v.natAbs ≤ 204800000 ∧ j.only [(4, 1), (8, 4)] =
        true) ∧ (b.holdState ≠ 3 ∧ (b.holdMode = 1 → (v - b.freqAdj).natAbs ≤ 1024 * b.slewMax))) ∧
    (∃ (s b : State) (j : Job) (v : Int), (s.inTurn j 0x68 0x68 = true ∧ j.byte 0 4 = 1) ∧ (s.takes {
      op := 0x68, safe := true } j b) ∧ (v = adjOffset j ∧ j.only [(4, 1), (8, 12)] = true ∧ offsetBad v = false ∧
        j.le 16 4 ≠ 0) ∧ (b.holdState ≠ 3 ∧ j.le 16 4 ≤ (if b.holdMode = 1 then b.slewMax else 200000))) ∧
    (∃ (s b : State) (j : Job) (v : Int), (s.inTurn j 0x68 0x68 = true ∧ j.byte 0 4 = 2) ∧ (s.takes {
      op := 0x68, safe := true } j b) ∧ (v = adjOffset j ∧ j.only [(4, 1), (8, 8)] = true ∧ offsetBad v = false) ∧
        (b.holdState ≠ 3 ∧ b.holdMode ≠ 1 ∧ b.stepLimit ≠ 0 ∧ v.natAbs ≤ b.stepLimit * 65536)) ∧
    (∃ (s b : State) (j : Job) (v : Int) (code : Nat), (s.inTurn j 0x68 0x68 = true ∧ j.byte 0 4 = 2) ∧ (s.takes {
      op := 0x68, safe := true } j b) ∧ (v = adjOffset j) ∧ (code = if b.holdState = 3 then St.HOLD_ACTIVE else if
        b.holdMode = 1 then St.STEP_REFUSED else if j.only [(4, 1), (8, 8)] = false ∨ offsetBad v = true then
        St.THYME_INVALID else St.STEP_REFUSED) ∧ (b.holdState = 3 ∨ b.holdMode = 1 ∨ j.only [(4, 1), (8, 8)] =
        false ∨ offsetBad v = true ∨ b.stepLimit = 0 ∨ b.stepLimit * 65536 < v.natAbs)) ∧
    (∃ (s u : State) (j : Job) (code : Nat), (s.inTurn j 0x68 0x68 = true ∧ j.byte 0 4 = 2) ∧ (s.jobReady j = true
      ∧ j.opcode = 0x68 ∧ s.gate { op := 0x68, safe := true } j ≠ none) ∧ (u = s.flagStep (adjOffset j)) ∧
      (u.inTurn j 0x68 0x68 = true ∧ u.jobReady j = true ∧ u.gate { op := 0x68, safe := true } j = some code)) ∧
    (∃ (s b : State) (j : Job), (s.inTurn j 0x68 0x68 = true ∧ j.byte 0 4 = 3) ∧ (s.takes { op := 0x68 } j b) ∧
      (j.only [(4, 1), (8, 6), (16, 6)] = true ∧ j.le 16 4 < 10 ^ 9) ∧ (b.holdMode = 0 ∧ b.holdState = 0)) ∧
    (∃ (s b : State) (j : Job), (s.inTurn j 0x68 0x68 = true ∧ j.byte 0 4 = 4) ∧ (s.takes { op := 0x68 } j b) ∧
      (j.only [(4, 1), (8, 6)] = true) ∧ (b.holdMode = 0 ∧ b.holdState = 0)) :=
  ⟨⟨readyJob ADR, _, ADR, 204800000, (by decide +kernel), takes_of (by decide +kernel), (by decide +kernel),
     (by decide +kernel)⟩,
   ⟨readyJob ADS, _, ADS, 1, (by decide +kernel), takes_of (by decide +kernel), (by decide +kernel),
     (by decide +kernel)⟩,
   ⟨readyJob ADP, _, ADP, 6553600, (by decide +kernel), takes_of (by decide +kernel), (by decide +kernel),
     (by decide +kernel)⟩,
   ⟨readyJob ADQ, _, ADQ, 6553601, St.STEP_REFUSED, (by decide +kernel), takes_of (by decide +kernel),
     (by decide +kernel), (by decide +kernel), (by decide +kernel)⟩,
   ⟨ADPN, _, ADP, St.SAFE_STATE, (by decide +kernel), (by decide +kernel), rfl, (by decide +kernel)⟩,
   ⟨readyJob ADT, _, ADT, (by decide +kernel), takes_of (by decide +kernel), (by decide +kernel),
     (by decide +kernel)⟩,
   ⟨readyJob ADU, _, ADU, (by decide +kernel), takes_of (by decide +kernel), (by decide +kernel),
     (by decide +kernel)⟩⟩

theorem witness_ThymeCommands :
    (∃ (s b : State) (j : Job) (i k : Nat) (w : List Nat), (s.takes { op := 0x69 } j b) ∧ (i = j.byte 0 4 ∧ i ≤ 7 ∧
      j.byte 0 5 < 8 ∧ j.only [(4, 18), (24, 8)] = true) ∧ (w = (rangeFrom 0 7).map (fun k => j.le (4 + 4 * k) 4))
      ∧ (k = (pulseCfg w).firstAt (b.eighthsUp + 8 * 2048)) ∧ ((pulseCfg w).bad (j.le 16 4) (j.le 24 4) = false ∧
      ((pulseCfg w).mode = 1 → b.eighthsUp + 8 * 2048 ≤ (pulseCfg w).start))) ∧
    (∃ (s b : State) (j : Job), (s.takes { op := 0x6A } j b) ∧ (ioOk j b = true)) ∧
    (∃ (s b : State) (j : Job) (n f : Nat), (s.takes { op := 0x6B, owner := false } j b) ∧ (n = j.le 4 2 ∧ n ≤ 127
      ∧ j.only [(4, 4)] = true ∧ f = b.jobFn j) ∧ (b.portHolder n = f ∧ b.eventQ f (j.le 6 2) = true)) ∧
    (∃ (s b : State) (j : Job) (u v : State), (s.takes { op := 0x6C } j b) ∧ (dpllBad j = false) ∧ (u = forEach
      (rangeFrom 0 6) (fun w s => s.setReg (wThyme + 0x300 + 4 * w) (j.le (4 + 4 * w) 4)) b) ∧ (v = u.wr wThyme
      Reg.THYME_DPLL_OFFSET_D (uNat 32 (max (-(1024 * u.dpllWord 3 : Int)) (min (1024 * u.dpllWord 3 : Int)
      u.dpllD))))) ∧
    (∃ (s b : State) (j : Job) (x : TodSt), (s.takes { op := 0x6D } j b) ∧ (j.only [(8, 10)] = true ∧ j.le 16 2 ≤
      128 ∧ j.le 16 2 ≠ 0 ∧ b.thyme.todTx = none) ∧ (x = {
      job := j, bytes := b.hostRd (b.jobLink j) (j.le 8 8) (j.le 16 2), sec := (b.counter + 10 ^ 6 * unitNs + 10 ^
        9 * unitNs - 1) / (10 ^ 9 * unitNs) % 2 ^ 48 })) :=
  ⟨⟨readyJob PUS, _, PUS, 7, _, _, takes_of (by decide +kernel), (by decide +kernel), rfl, rfl, (by decide +kernel)⟩,
   ⟨readyJob IOS, _, IOS, takes_of (by decide +kernel), (by decide +kernel)⟩,
   ⟨readyJob TPS, _, TPS, 127, 0, takes_of (by decide +kernel), (by decide +kernel), (by decide +kernel)⟩,
   ⟨readyJob DPS, _, DPS, _, _, takes_of (by decide +kernel), (by decide +kernel), rfl, rfl⟩,
   ⟨readyJob TOS, _, TOS, _, takes_of (by decide +kernel), (by decide +kernel), rfl⟩⟩

theorem witness_ThymeOutputs :
    (∃ (s : State), s.devState ≠ 0) ∧
    (∃ (s : State) (i : Fin 8) (a : Int), (a = (s.pulse i.val).start + (if (s.pulseSt i.val).high then (((s.pulseSt
      i.val).next - 1) * (s.pulse i.val).period + (s.pulse i.val).width : Nat) else ((s.pulseSt i.val).next *
      (s.pulse i.val).period : Nat) : Nat) + (s.pulse i.val).comp) ∧ a ≤ s.eighths + 16 ∧ ((s.pulseSt i.val).high =
      true ∨ s.rdb (toutBase i.val) Reg.THYME_TOUT_STATUS_ACTIVE = true)) ∧
    (∃ (s : State) (gate : Nat) (comp t a : Int), (gate = bits (s.ioWord 5 0) 11 10) ∧ (s.ioEnable 5 = true ∧ (gate
      = 0 ∨ (gate = 1 ∧ 2 ≤ s.holdState) ∨ (gate = 2 ∧ s.holdState = 2))) ∧ (comp = sInt 16 (bits (s.ioWord 5 2) 15
      0)) ∧ (t = s.eighths - comp + 16) ∧ t % (8 * 10 ^ 9) ≤ 32 ∧ (a = t - t % (8 * 10 ^ 9) + comp)) ∧
    (∃ (s : State) (x : TodSt), (s.thyme.todTx = some x) ∧ (x.started = false ∧ (x.sec * 10 ^ 9 + s.ioWord 7 2) *
      unitNs ≤ s.counter)) ∧
    (∃ (s : State) (x : TodSt), (s.thyme.todTx = some x) ∧ (x.started = true)) :=
  ⟨⟨ready, (by decide +kernel)⟩,
   ⟨ready.wr (toutBase 7) Reg.THYME_TOUT_STATUS_ACTIVE 1, 7, _, rfl, (by decide +kernel), (by decide +kernel)⟩,
   ⟨ready.setReg (wThyme + 0x250) 256, _, _, _, _, rfl, (by decide +kernel), rfl, rfl, (by decide +kernel), rfl⟩,
   ⟨ready.setTod { job := TOS }, { job := TOS }, (by decide +kernel), (by decide +kernel)⟩,
   ⟨ready.setTod { job := TOS, started := true }, { job := TOS, started := true }, (by decide +kernel),
     (by decide +kernel)⟩⟩

theorem witness_ThymeInputs :
    (∃ (s : State) (x : Fin 4) (rising : Bool) (e : List Byte), (s.ioEdge x.val = 3 ∨ s.ioEdge x.val = (if rising
      then 1 else 2)) ∧ ((tabGet (fun _ => none) s.thyme.lastCap x.val).elim true (fun t => decide (100 ≤
      s.clock.up - t)) = true) ∧ (e = captureBytes 1 x.val (if rising then 1 else 2) 0 0 0 (s.edgeTime x.val))) ∧
    (∃ (s : State) (rising : Bool) (u v w : State) (t : Nat) (e : Int) (spaced : Bool) (run : Nat), (s.captureEdge
      4 rising = (true, u)) ∧ (rising = true) ∧ (t = s.edgeTime 4 ∧ e = ppsError t) ∧ (spaced =
      s.thyme.ppsLast.elim false (fun t0 => decide ((((t : Int) - t0) - 256 * 10 ^ 9).natAbs ≤ 256 * 1000))) ∧ (run
      = if spaced then s.thyme.ppsRun + 1 else 1) ∧ (v = u.wr wThyme Reg.THYME_PPS_IN_ERR_PPS_IN_ERR (uNat 32 e)) ∧
      (w = s.thyme.ppsArm.elim { v with thyme := { v.thyme with ppsLast := some t, ppsRun := run, ppsArm := none }
      } (fun sec => State.addAdj { v with
      thyme := { v.thyme with ppsLast := some t, ppsRun := run, ppsArm := none } } (.setAtPps sec ((8 * s.clock.up
        : Nat) - s.inComp 4))))) ∧
    (∃ (s : State) (t : Nat), (s.thyme.ppsLast = some t)) ∧
    (∃ (s u : State) (y : Byte), (s.ioEnable 7 = true) ∧ (u = { s with
      thyme := { s.thyme with todMsg := some (s.thyme.todMsg.elim (s.eighths * 32, 1) (fun m => (m.1, m.2 + 1))) }
        })) ∧
    (∃ (s : State) (t n : Nat), (s.thyme.todMsg = some (t, n))) ∧
    (∃ (s u : State) (off : BitVec 32), (u = s.wr wThyme Reg.THYME_STATUS_REF10M_OK 1)) ∧
    (∃ (s u : State) (j : Fin 4) (ppb : BitVec 32), (u.candSrc j.val ≠ 0xFF ∧ u.thyme.qualified.contains j.val =
      false ∧ u.candPresent j.val = true ∧ u.thyme.waits.contains j.val = false ∧ ppb.toInt.natAbs ≤ u.dpllWord 3)) ∧
    (∃ (s : State) (j : Fin 4) (ppb : BitVec 32), (s.thyme.waits.contains j.val = true ∨ s.dpllWord 3 <
      ppb.toInt.natAbs)) ∧
    (∃ (s : State) (j : Fin 4), (s.thyme.qualified.contains j.val = true)) ∧
    (∃ (s : State) (d : BitVec 32), (s.dpllState = 1 ∧ d.toInt.natAbs ≤ 1024 * s.dpllWord 3)) :=
  ⟨⟨ready.setReg (wThyme + 0x230) 512, 3, false, _, (by decide +kernel), (by decide +kernel), rfl⟩,
   ⟨PPI, true, _, _, _, PPI.edgeTime 4, ppsError (PPI.edgeTime 4), _, _, ((Prod.ext (by decide +kernel) rfl)),
     (by decide +kernel), (by decide +kernel), rfl, rfl, rfl, rfl⟩,
   ⟨{ ready with thyme := { ready.thyme with ppsLast := some 1 } }, 1, (by decide +kernel)⟩,
   ⟨ready.setReg (wThyme + 0x270) 256, _, 255, (by decide +kernel), rfl⟩,
   ⟨ready.setTodMsg 5 1, 5, 1, (by decide +kernel)⟩,
   ⟨ready, _, 0, rfl⟩,
   ⟨(ready.setReg (wThyme + 0x304) 0).setLink_ 0 4, ((ready.setReg (wThyme + 0x304) 0).setLink_ 0 4).waitOver 0, 0,
     0, (by decide +kernel)⟩,
   ⟨{ ready with thyme := { ready.thyme with waits := [3] } }, 3, 0, (by decide +kernel)⟩,
   ⟨ready.setQualified [3], 3, (by decide +kernel)⟩,
   ⟨ready.setDpll 1 0, 0, (by decide +kernel)⟩⟩

theorem witness_HoldoverReportsAndTicks :
    (∃ (s b : State) (j : Job) (m : Nat), (j.byte 0 4 = 0) ∧ (s.takes { op := 0x6E } j b) ∧ (m = j.byte 0 5 ∧
      j.only [(4, 2)] = true) ∧ ((b.holdMode = 0 ∧ m = 1 ∧ b.holdState = 2) ∨ (b.holdMode = 0 ∧ m = 2) ∨
      (b.holdMode = 2 ∧ m = 0) ∨ (b.holdMode = 1 ∧ m = 3) ∨ (b.holdMode = 3 ∧ m = 1 ∧ b.holdState = 2) ∨
      (b.holdMode = 3 ∧ m = 0))) ∧
    (∃ (s b : State) (j : Job), (j.byte 0 4 = 1 ∧ j.byte 0 5 = 0) ∧ (s.takes { op := 0x6E, safe := true } j b) ∧
      (j.only [(4, 2)] = true) ∧ (b.holdState = 0 ∨ b.holdState = 3)) ∧
    (∃ (s b : State) (j : Job), (j.byte 0 4 = 1 ∧ j.byte 0 5 = 1) ∧ (s.takes { op := 0x6E, safe := true } j b) ∧
      (j.only [(4, 2)] = true) ∧ (b.holdState = 1)) ∧
    (∃ (s b : State) (j : Job), (j.byte 0 4 = 1 ∧ j.byte 0 5 = 2) ∧ (s.takes { op := 0x6E, safe := true } j b) ∧
      (j.only [(4, 2)] = true) ∧ (b.holdState = 1 ∨ b.holdState = 2)) ∧
    (∃ (s b : State) (j : Job), (j.byte 0 4 = 1 ∧ j.byte 0 5 = 3) ∧ (s.takes { op := 0x6E, safe := true } j b) ∧
      (j.only [(4, 2)] = true) ∧ (b.holdState = 1 ∨ b.holdState = 2)) ∧
    (∃ (s b : State) (j : Job), (j.byte 0 4 = 1 ∧ j.byte 0 5 = 4) ∧ (s.takes { op := 0x6E, safe := true } j b) ∧
      (j.only [(4, 2)] = true) ∧ (b.holdState = 1 ∨ b.holdState = 2)) ∧
    (∃ (s b : State) (j : Job), (j.byte 0 4 = 1 ∧ j.byte 0 5 = 5) ∧ (s.takes { op := 0x6E } j b) ∧ (j.only [(4, 2)]
      = true) ∧ (b.holdState = 3)) ∧
    (∃ (s b : State) (j : Job), (j.byte 0 4 = 2) ∧ (s.takes { op := 0x6E } j b) ∧ (j.only [(4, 1), (8, 10)] = true
      ∧ j.le 8 4 ≤ 10 ^ 9 ∧ j.le 12 4 ≤ 200000 ∧ j.le 16 2 ≠ 0)) ∧
    (∃ (s b : State) (j : Job) (d : List Byte), (j.byte 0 4 = 3) ∧ (s.takes { op := 0x6E } j b) ∧ (j.only [(4, 1),
      (8, 8)] = true ∧ j.le 8 8 % 8 = 0 ∧ b.holdState ≠ 3) ∧ (d = b.hostRd (b.jobLink j) (j.le 8 8) 512) ∧
      (((rangeFrom 0 64).any fun k => decide (imH d (8 * k + 6) ≠ 0)) = false)) ∧
    (∃ (s b : State) (j : Job), (s.takes { op := 0x6F } j b) ∧ (j.only [(8, 8)] = true)) ∧
    (∃ (s : State), s.devState ≠ 5) ∧
    (∃ (s k u v : State) (q : Int × State) (t : Int × State), (k = s.keepTemp ∧ k.holdState = 2 ∧ k.dutyRuns 11 =
      true) ∧ (q = if k.thyme.accN = 0 then (k.freqAdj, k) else k.quotient k.thyme.accSum (k.thyme.accN * unitNs))
      ∧ (t = q.2.tempNow) ∧ (u = t.2.setWindow (((q.1, t.1) :: k.thyme.window).take 1000)) ∧ (v = if k.holdMode ≠ 2
      ∧ k.syncTime = false ∧ k.rdb wThyme Reg.THYME_HOLD_STATUS_TSENSE_OK = true then u.learnBin q.1 t.1 else u)) ∧
    (∃ (s k u : State), (k = s.keepTemp ∧ k.holdState = 3) ∧ (u = (if k.dutyRuns 11 then k.holdRate else k).wr
      wThyme Reg.THYME_HOLD_ELAPSED_HOLD_ELAPSED ((k.rd wThyme Reg.THYME_HOLD_ELAPSED_HOLD_ELAPSED + 1) % 2 ^ 32))) ∧
    (∃ (s k : State), (k = s.keepTemp ∧ (k.holdState ≠ 2 ∨ k.dutyRuns 11 = false) ∧ k.holdState ≠ 3)) ∧
    (∃ (s y u v : State) (x : BitVec 16) (t : Int), (s.tsenseRead x.toNat = (t, y) ∧ (t < -640 ∨ 1760 < t)) ∧ (u =
      y.wr wThyme Reg.THYME_HOLD_TEMP_TSENSE (uNat 16 t)) ∧ (v = { u.wr wThyme Reg.THYME_HOLD_STATUS_TSENSE_OK 0
      with thyme := { u.thyme with tsRun := 0, tsNow := [] } })) ∧
    (∃ (s y u v w : State) (x : BitVec 16) (t : Int) (run : Nat), (s.tsenseRead x.toNat = (t, y) ∧ -640 ≤ t ∧ t ≤
      1760) ∧ (u = y.wr wThyme Reg.THYME_HOLD_TEMP_TSENSE (uNat 16 t)) ∧ (run = y.thyme.tsRun + 1) ∧ (v = { u with
      thyme := { u.thyme with tsRun := run, tsNow := ((y.clock.up, t) :: u.thyme.tsNow).take 10 } }) ∧ (w = v.wr
        wThyme Reg.THYME_HOLD_STATUS_TSENSE_OK 1)) :=
  ⟨⟨readyJob HMD, _, HMD, 2, (by decide +kernel), takes_of (by decide +kernel), (by decide +kernel),
     (by decide +kernel)⟩,
   ⟨readyJob HAC, _, HAC, (by decide +kernel), takes_of (by decide +kernel), (by decide +kernel),
     (by decide +kernel)⟩,
   ⟨(readyJob HLK).wr wThyme Reg.THYME_HOLD_STATUS_HOLD_STATE 1, _, HLK, (by decide +kernel),
     takes_of (by decide +kernel), (by decide +kernel), (by decide +kernel)⟩,
   ⟨(readyJob HLO).wr wThyme Reg.THYME_HOLD_STATUS_HOLD_STATE 2, _, HLO, (by decide +kernel),
     takes_of (by decide +kernel), (by decide +kernel), (by decide +kernel)⟩,
   ⟨(readyJob HCH).wr wThyme Reg.THYME_HOLD_STATUS_HOLD_STATE 1, _, HCH, (by decide +kernel),
     takes_of (by decide +kernel), (by decide +kernel), (by decide +kernel)⟩,
   ⟨(readyJob HAL).wr wThyme Reg.THYME_HOLD_STATUS_HOLD_STATE 2, _, HAL, (by decide +kernel),
     takes_of (by decide +kernel), (by decide +kernel), (by decide +kernel)⟩,
   ⟨(readyJob HFO).wr wThyme Reg.THYME_HOLD_STATUS_HOLD_STATE 3, _, HFO, (by decide +kernel),
     takes_of (by decide +kernel), (by decide +kernel), (by decide +kernel)⟩,
   ⟨readyJob HLI, _, HLI, (by decide +kernel), takes_of (by decide +kernel), (by decide +kernel)⟩,
   ⟨readyJob HTL, _, HTL, _, (by decide +kernel), takes_of (by decide +kernel), (by decide +kernel), rfl,
     (by decide +kernel)⟩,
   ⟨readyJob HQY, _, HQY, takes_of (by decide +kernel), (by decide +kernel)⟩,
   ⟨ready, (by decide +kernel)⟩,
   ⟨HOLD2.running15 11, _, _, _, _, _, (⟨rfl, by decide +kernel, by decide +kernel⟩), rfl, rfl, rfl, (rfl)⟩,
   ⟨ready.wr wThyme Reg.THYME_HOLD_STATUS_HOLD_STATE 3, _, _, (⟨rfl, by decide +kernel⟩), rfl⟩,
   ⟨ready, _, (⟨rfl, by decide +kernel⟩)⟩,
   ⟨ready, (ready.tsenseRead 65535).2, _, _, 65535, (ready.tsenseRead 65535).1, (⟨rfl, tsense_far _⟩), rfl, rfl⟩,
   ⟨ready, (ready.tsenseRead 5000).2, _, _, _, 5000, (ready.tsenseRead 5000).1, _, (⟨rfl, tsense_zero _⟩), rfl,
     rfl, rfl, rfl⟩⟩

theorem witness_Pools :
    (∃ (s b : State) (j : Job) (x shift base count : Nat) (u : State), (s.takes { op := 0x70, owner := false } j b)
      ∧ (x = j.byte 0 4 ∧ x < 64 ∧ b.jobFn j = b.poolHolder x ∧ decide (b.poolState x ≠ 0) = false ∧ j.only [(4,
      1), (5, 1), (6, 1), (8, 8), (16, 4)] = true) ∧ (shift = j.byte 0 6 ∧ base = j.le 8 8 ∧ count = j.le 16 4) ∧
      (j.byte 0 5 < 2 ∧ 8 ≤ shift ∧ shift ≤ 16 ∧ count ≤ 2 ^ 20 ∧ base % 2 ^ shift = 0 ∧ base + count * 2 ^ shift ≤
      2 ^ 64) ∧ (j.bit 5 0 = true → b.poolClash x base (count * 2 ^ shift) = false) ∧ (u = (((b.setReg (poolBase x
      + 0x1000) (2 ^ 30 + b2n (j.bit 5 0) * 2 ^ 29 + shift * 2 ^ 16 + b.jobFn j)).wr (poolBase x) Reg.PEG_BASE
      base).wr (poolBase x) Reg.PEG_POOL_COUNT_COUNT count).wr (poolBase x) Reg.PEG_POOL_FRESH_FRESH 0)) ∧
    (∃ (s b : State) (j : Job) (x : Nat), (s.takes { op := 0x71, owner := false } j b) ∧ (x = j.byte 0 4 ∧ x < 64 ∧
      b.jobFn j = b.poolHolder x ∧ decide (b.poolState x ≠ 0) = true ∧ j.only [(4, 1), (5, 1)] = true) ∧ (j.byte 0
      5 < 2 ∧ b.puntNames x none = false ∧ b.poolState x ≠ 2) ∧ (j.bit 5 0 = true ∨ accounts.any (fun a =>
      b.acctUsed x a && decide (b.acctHeld x a ≠ 0)) = false)) ∧
    (∃ (s b : State) (j : Job) (x c v a : Nat) (u w : State), (s.takes { op := 0x72, owner := false } j b) ∧ (x =
      j.byte 0 4 ∧ x < 64 ∧ b.jobFn j = b.poolHolder x ∧ decide (b.poolState x ≠ 0) = true ∧ j.only [(4, 1), (6,
      2), (8, 4)] = true) ∧ (c = j.le 6 2 ∧ v = j.le 8 4 ∧ c < 512) ∧ b.acctSum x (b.acctRsv x) - (b.acctOf x
      c).elim 0 (b.acctRsv x) + v ≤ b.poolCount x ∧ (v ≠ 0 ∨ b.acctOf x c ≠ none) ∧ (b.acctMake x c = some (a, u))
      ∧ (w = ((u.wr (acctBase x a) Reg.PEG_ACCT_RSV_RESERVE v).acctTidy x).poolReport x)) ∧
    (∃ (s b : State) (j : Job) (x n : Nat) (got : List Nat) (u : State), (s.takes { op := 0x73, owner := false } j
      b) ∧ (x = j.byte 0 4 ∧ x < 64 ∧ b.jobFn j = b.poolHolder x ∧ decide (b.poolState x ≠ 0) = true ∧ j.only [(4,
      1), (8, 4), (16, 8)] = true) ∧ (n = j.le 8 4 ∧ n ≤ 1024 ∧ j.hostAddr % 8 = 0) ∧ ((b.grantAll x).allocN x n []
      = (0, got, u))) ∧
    (∃ (s b : State) (j : Job) (x n a : Nat) (l : List Nat), (s.takes { op := 0x74, owner := false } j b) ∧ (x =
      j.byte 0 4 ∧ x < 64 ∧ b.jobFn j = b.poolHolder x ∧ decide (b.poolState x ≠ 0) = true ∧ j.only [(4, 1), (6,
      2), (8, 4), (16, 8)] = true) ∧ (n = j.le 8 4 ∧ n ≤ 1024 ∧ j.le 6 2 < 512) ∧ (l = hostAddrs b j n) ∧
      ((rangeFrom 0 n).find? (fun k => !b.bufferOk x (l.getD k 0)) = none) ∧ (b.acctOf x (j.le 6 2) = some a ∧ n ≤
      b.acctHeld x a)) ∧
    (∃ (s b : State) (j : Job) (x : Nat) (u v : State), (s.takes { op := 0x75, owner := false } j b) ∧ (x = j.byte
      0 4 ∧ x < 64 ∧ b.jobFn j = b.poolHolder x ∧ decide (b.poolState x ≠ 0) = true ∧ j.only [(4, 1), (16, 8)] =
      true) ∧ (b.peg.audit = none ∧ b.anyOffline = false) ∧ (u = ((b.setPool x { b.pool x with
      head := listEnd, len := 0, offHead := (b.pool x).head, offLen := (b.pool x).len }).wr (poolBase x)
        Reg.PEG_POOL_A_STATE 2).wr (poolBase x) Reg.PEG_POOL_A_CORRUPT 0) ∧ (v = u.dramWr auditArea (bitMap
        (b.poolCount x) (fun k => decide (k < b.poolFresh x) && !(b.pool x).cache.contains (b.poolAddr x + k * 2 ^
        b.poolShift x))))) ∧
    (∃ (s b : State) (j : Job) (x : Nat), (s.takes { op := 0x76, owner := false } j b) ∧ (x = j.byte 0 4 ∧ x < 64 ∧
      b.jobFn j = b.poolHolder x ∧ decide (b.poolState x ≠ 0) = true ∧ j.only [(4, 1), (16, 8)] = true)) ∧
    (∃ (s u v : State) (au : AuditSt) (x : Nat) (m : List Byte) (w : Walk) (free : Nat → Bool) (out : Nat) (bad :
      Bool), (s.peg.audit = some au ∧ x = au.pool) ∧ (m = s.dramRd auditArea ((s.poolCount x + 7) / 8) ∧ w =
      s.walkList x (mapMarked m) (s.poolCount x) (s.pool x).offHead {}) ∧ (∀ k, free k = (mapMarked m k ||
      w.seen.contains (s.poolAddr x + k * 2 ^ s.poolShift x))) ∧ (out = ((rangeFrom 0 (s.poolCount x)).filter (fun
      k => !free k)).length ∧ bad = (decide (w.seen.length ≠ (s.pool x).offLen ∨ 0 < w.dups ∨ out ≠ au.held) ||
      w.bad)) ∧ (u = if (s.pool x).offHead = listEnd then s else if (s.pool x).head = listEnd then s.setPool x {
      s.pool x with head := (s.pool x).offHead } else s.poolWrite x (s.listLast x (s.pool x).len (s.pool x).head)
      (leBytes 8 (s.pool x).offHead)) ∧ (v = ((u.setPool x { u.pool x with
      len := (s.pool x).len + w.seen.length, offHead := listEnd, offLen := 0 }).topUp x).dramWr auditArea (bitMap
        (s.poolCount x) (fun k => !free k)))) ∧
    (∃ (s u : State) (x : Fin 64) (q a : Nat), (s.nextWaiter x.val = some q) ∧ (s.serve x.val (s.queue q).idx =
      .buffer a u)) :=
  ⟨⟨readyJob PGC, _, PGC, 63, 16, 0, 1, _, takes_of (by decide +kernel), (by decide +kernel), (by decide +kernel),
     (by decide +kernel), (by decide +kernel), rfl⟩,
   ⟨(readyJob PGD).withPool, _, PGD, 63, takes_of (by decide +kernel), (by decide +kernel), (by decide +kernel),
     (by decide +kernel)⟩,
   ⟨(readyJob PGR).withPool, _, PGR, 63, 0, 1, _, _, _, takes_of (by decide +kernel), (by decide +kernel),
     (by decide +kernel), (by decide +kernel), (by decide +kernel), ((Option.some_get (by decide +kernel)).symm),
     rfl⟩,
   ⟨(readyJob PGA).withPool, _, PGA, 63, 1, _, _, takes_of (by decide +kernel), (by decide +kernel),
     (by decide +kernel), ((Prod.ext (by decide +kernel) rfl))⟩,
   ⟨(readyJob PGF).withBuffer, _, PGF, 63, 1, 0, _, takes_of (by decide +kernel), (by decide +kernel),
     (by decide +kernel), rfl, (by decide +kernel), (by decide +kernel)⟩,
   ⟨(readyJob PGX).withPool.online, _, PGX, 63, _, _, takes_of (by decide +kernel), (by decide +kernel),
     (by decide +kernel), rfl, rfl⟩,
   ⟨(readyJob PGQ).withPool, _, PGQ, 63, takes_of (by decide +kernel), (by decide +kernel)⟩,
   ⟨ready.setAudit { pool := 63, job := PGX }, _, _, { pool := 63, job := PGX }, 63, _, _, _, _, _,
     (by decide +kernel), (⟨rfl, rfl⟩), ((fun _ => rfl)), (⟨rfl, rfl⟩), rfl, rfl⟩,
   ⟨PGW, _, 63, 256, _, (by decide +kernel), ((Taken.of_buf (by decide +kernel)))⟩⟩

theorem witness_DmaTransfers :
    (∃ (s b : State) (j : Job) (ch : Nat), (s.chanOf j.q = some ch ∧ s.chanState ch = 1 ∧ (s.chan ch).running =
      none ∧ (s.chanHeld ch).head? = some j ∧ j.opcode = 0x78) ∧ (b = (s.startJob j).chanReport ch) ∧ (b.gate {
      op := 0x78, owner := false } j = none) ∧ (b.dmaCheck j = none)) ∧
    (∃ (s b u : State) (j : Job) (ch code : Nat) (v : BitVec 32), (s.chanOf j.q = some ch ∧ s.chanState ch = 1 ∧
      (s.chan ch).running = none ∧ (s.chanHeld ch).head? = some j ∧ j.opcode = 0x78) ∧ (b = (s.startJob
      j).chanReport ch) ∧ (b.gate { op := 0x78, owner := false } j = none) ∧ (b.dmaCheck j = some code) ∧ (b.draw
      32 = (v, u))) ∧
    (∃ (s u : State) (ch : Fin 28) (j : Job) (d : Side), ((s.chan ch.val).running = some j) ∧ (d = dmaSide j 1) ∧
      (u = (s.dmaWrite (s.jobLink j) d (s.chan ch.val).buffer d.lines).count 157 ch.val d.total)) ∧
    (∃ (s b u v : State) (ch : Fin 28) (cause : Fin 7) (pos : Word32) (late whole : Bool) (j : Job) (d : Side)
      (line left : Nat) (tag : Nat), ((s.chan ch.val).running = some j ∧ (b.chan ch.val).running = some j ∧ tag =
      s.linkTag (s.jobLink j) ∧ b = (if cause.val + 1 = 3 then s.timeoutReport (s.jobFn j) tag else s)) ∧ (d =
      dmaSide j 1) ∧ (line = min pos.toNat (d.total - 1) / d.len) ∧ (whole = (late || decide (cause.val + 1 = 7)))
      ∧ (left = (if whole then 0 else d.total - min pos.toNat (d.total - 1))) ∧ (u = ((b.dmaWrite (b.jobLink j) d
      (b.chan ch.val).buffer (if whole then d.lines else line)).dmaScramble (b.jobLink j) d line).count 157 ch.val
      (d.total - left)) ∧ (v = (if cause.val + 1 = 7 then u.count 157 48 1 else u))) :=
  ⟨⟨DMS, _, DMJ, 27, (by decide +kernel), rfl, (by decide +kernel), (by decide +kernel)⟩,
   ⟨DMT, _, _, DMK, 27, _, _, (by decide +kernel), rfl, (by decide +kernel),
     ((Option.some_get (by decide +kernel)).symm), (rfl)⟩,
   ⟨DMR, _, 27, DMJ, _, (by decide +kernel), rfl, rfl⟩,
   ⟨DMR, _, _, _, 27, 2, 0, false, _, DMJ, _, _, _, _, (⟨by decide +kernel, by decide +kernel, rfl, rfl⟩), rfl,
     rfl, rfl, rfl, rfl, rfl⟩⟩

theorem witness_Channels :
    (∃ (s b : State) (j : Job) (ch : Nat), (s.takes { op := 0x79 } j b) ∧ (ch = j.byte 0 4 ∧ ch ≤ 27 ∧ (j.le 6 2 <
      256 ∨ j.le 6 2 = 0xFFFF) ∧ j.only [(4, 1), (6, 2)] = true) ∧ (b.chanState ch = 0 ∧ b.chanBound ch = false)) ∧
    (∃ (s b : State) (j : Job) (ch : Nat), (j.byte 0 5 = 0) ∧ (s.takes { op := 0x7A, owner := false } j b) ∧ (ch =
      j.byte 0 4 ∧ ch ≤ 27 ∧ j.byte 0 5 ≤ 3 ∧ j.byte 0 6 ≤ 1 ∧ (j.byte 0 5 = 3 ∨ j.byte 0 6 = 0) ∧ j.only [(4, 3)]
      = true) ∧ (b.jobFn j = b.owner ∨ (b.chanState ch ≠ 0 ∧ (b.queue (b.chanQ ch)).fn = b.jobFn j)) ∧ (b.chanState
      ch = 1 ∨ b.chanState ch = 2)) ∧
    (∃ (s b : State) (j : Job) (ch : Nat), (j.byte 0 5 = 0) ∧ (s.takes { op := 0x7A, owner := false } j b) ∧ (ch =
      j.byte 0 4 ∧ ch ≤ 27 ∧ j.byte 0 5 ≤ 3 ∧ j.byte 0 6 ≤ 1 ∧ (j.byte 0 5 = 3 ∨ j.byte 0 6 = 0) ∧ j.only [(4, 3)]
      = true) ∧ (b.jobFn j = b.owner ∨ (b.chanState ch ≠ 0 ∧ (b.queue (b.chanQ ch)).fn = b.jobFn j)) ∧ (b.chanState
      ch = 3 ∨ b.chanState ch = 4)) ∧
    (∃ (s b : State) (j : Job) (ch : Nat), (j.byte 0 5 = 1) ∧ (s.takes { op := 0x7A, owner := false } j b) ∧ (ch =
      j.byte 0 4 ∧ ch ≤ 27 ∧ j.byte 0 5 ≤ 3 ∧ j.byte 0 6 ≤ 1 ∧ (j.byte 0 5 = 3 ∨ j.byte 0 6 = 0) ∧ j.only [(4, 3)]
      = true) ∧ (b.jobFn j = b.owner ∨ (b.chanState ch ≠ 0 ∧ (b.queue (b.chanQ ch)).fn = b.jobFn j)) ∧ (b.chanState
      ch = 3 ∨ b.chanState ch = 4)) ∧
    (∃ (s b : State) (j : Job) (ch : Nat), (j.byte 0 5 = 2) ∧ (s.takes { op := 0x7A, owner := false } j b) ∧ (ch =
      j.byte 0 4 ∧ ch ≤ 27 ∧ j.byte 0 5 ≤ 3 ∧ j.byte 0 6 ≤ 1 ∧ (j.byte 0 5 = 3 ∨ j.byte 0 6 = 0) ∧ j.only [(4, 3)]
      = true) ∧ (b.jobFn j = b.owner ∨ (b.chanState ch ≠ 0 ∧ (b.queue (b.chanQ ch)).fn = b.jobFn j)) ∧ (b.chanState
      ch = 3 ∨ b.chanState ch = 4)) ∧
    (∃ (s b : State) (j : Job) (ch : Nat), (j.byte 0 5 = 3) ∧ (s.takes { op := 0x7A, owner := false } j b) ∧ (ch =
      j.byte 0 4 ∧ ch ≤ 27 ∧ j.byte 0 5 ≤ 3 ∧ j.byte 0 6 ≤ 1 ∧ (j.byte 0 5 = 3 ∨ j.byte 0 6 = 0) ∧ j.only [(4, 3)]
      = true) ∧ (b.jobFn j = b.owner ∨ (b.chanState ch ≠ 0 ∧ (b.queue (b.chanQ ch)).fn = b.jobFn j))) ∧
    (∃ (s : State) (ch : Fin 28), (s.chanState ch.val = 2 ∧ (s.chan ch.val).running = none)) ∧
    (∃ (s b : State) (j : Job) (ch : Nat), (s.takes { op := 0x7B, owner := false } j b) ∧ (ch = j.byte 0 4 ∧ ch ≤
      27 ∧ j.only [(4, 1), (16, 8)] = true) ∧ (b.jobFn j = b.owner ∨ (b.chanState ch ≠ 0 ∧ (b.queue (b.chanQ
      ch)).fn = b.jobFn j))) :=
  ⟨⟨readyJob DCS, _, DCS, 27, takes_of (by decide +kernel), (by decide +kernel), (by decide +kernel)⟩,
   ⟨(readyJob DCP).setChanState 27 1, _, DCP, 27, (by decide +kernel), takes_of (by decide +kernel),
     (by decide +kernel), (by decide +kernel), (by decide +kernel)⟩,
   ⟨(readyJob DCP).setChanState 27 4, _, DCP, 27, (by decide +kernel), takes_of (by decide +kernel),
     (by decide +kernel), (by decide +kernel), (by decide +kernel)⟩,
   ⟨(readyJob DCR).setChanState 27 4, _, DCR, 27, (by decide +kernel), takes_of (by decide +kernel),
     (by decide +kernel), (by decide +kernel), (by decide +kernel)⟩,
   ⟨(readyJob DCF).setChanState 27 3, _, DCF, 27, (by decide +kernel), takes_of (by decide +kernel),
     (by decide +kernel), (by decide +kernel), (by decide +kernel)⟩,
   ⟨readyJob DCO, _, DCO, 27, (by decide +kernel), takes_of (by decide +kernel), (by decide +kernel),
     (by decide +kernel)⟩,
   ⟨ready.setChanState 27 2, 27, (by decide +kernel)⟩,
   ⟨readyJob DCQ, _, DCQ, 27, takes_of (by decide +kernel), (by decide +kernel), (by decide +kernel)⟩⟩

theorem witness_DramRequests :
    (∃ (s : State) (n : Fin 13) (a : BitVec 36) (len : Fin 129) (write : Bool) (x c : Nat) (r : DmcReq) (y : PCh),
      (x = stackOf a.toNat ∧ c = pchOf a.toNat) ∧ (s.stackOffline x = false) ∧ (r = {
      port := n.val, addr := a.toNat, len := max 1 len.val, write := write, arrival := s.clock.up, target :=
        s.portTarget n.val, excused := decide (s.stackState x = 3) || s.pcTraining x c || s.repaying x c || decide
        (0 < (s.pch x c).urgent) }) ∧ (y = if (s.pch x c).queue = [] ∧ (s.pch x c).waiting = [] ∧ (s.pch x
        c).flight = [] then { s.pch x c with busyFrom := s.clock.up, demand := r.len } else { s.pch x c with
        demand := (s.pch x c).demand + r.len })) ∧
    (∃ (s u : State) (x : Fin 4) (c : Fin 32) (y : PCh), (s.stackState x.val = 2 ∧ s.pcTraining x.val c.val =
      false) ∧ (u = s.finishWrites x.val c.val) ∧ (y = u.pch x.val c.val) ∧ 0 < y.urgent) ∧
    (∃ (s u : State) (x : Fin 4) (c : Fin 32) (y : PCh) (r : DmcReq), (s.stackState x.val = 2 ∧ s.pcTraining x.val
      c.val = false) ∧ (u = s.finishWrites x.val c.val) ∧ (y = u.pch x.val c.val) ∧ (y.urgent = 0) ∧ (earliest
      (y.ready.filter (fun r => decide (r.level u.clock.up = 3))) = some r)) ∧
    (∃ (s u : State) (x : Fin 4) (c : Fin 32) (y : PCh), (s.stackState x.val = 2 ∧ s.pcTraining x.val c.val =
      false) ∧ (u = s.finishWrites x.val c.val) ∧ (y = u.pch x.val c.val) ∧ (y.urgent = 0 ∧ earliest
      (y.ready.filter (fun r => decide (r.level u.clock.up = 3))) = none) ∧ (0 < u.debt x.val c.val ∧ (u.repaying
      x.val c.val = true ∨ y.holds 1 u.clock.up = false))) ∧
    (∃ (s u : State) (x : Fin 4) (c : Fin 32) (y : PCh) (r : DmcReq), (s.stackState x.val = 2 ∧ s.pcTraining x.val
      c.val = false) ∧ (u = s.finishWrites x.val c.val) ∧ (y = u.pch x.val c.val) ∧ (y.urgent = 0 ∧ earliest
      (y.ready.filter (fun r => decide (r.level u.clock.up = 3))) = none ∧ u.debt x.val c.val = 0) ∧
      ((y.ready.find? (fun r => decide (tabGet (fun _ => none) y.rows (bankOf r.addr) = some (rowOf r.addr)))).or
      y.ready.head? = some r)) ∧
    (∃ (s u v : State) (x : Fin 4) (c : Fin 32) (ecc : Fin 3) (r : DmcReq) (t : List DmcReq), (u = s.finishWrites
      x.val c.val) ∧ ((u.pch x.val c.val).flight = r :: t) ∧ (v = u.putPch x.val c.val { u.pch x.val c.val with
      flight := t })) ∧
    (∃ (s : State) (x : Fin 4) (c : Fin 32) (r : DmcReq) (t : List DmcReq) (w : Nat) (r1 : DmcReq), ((s.pch x.val
      c.val).flight = r :: t) ∧ (w = s.dmcCfg Reg.DMC_CFG2_CRC_WINDOW_NS) ∧ (r1 = { r with
      tries := r.tries + 1, firstErr := if r.tries = 0 then s.clock.up else r.firstErr, excused := true }) ∧
        (r1.tries ≤ s.dmcCfg Reg.DMC_CFG_CRC_RETRIES ∧ w ≠ 0 ∧ s.clock.up - r1.firstErr ≤ w)) ∧
    (∃ (s u v : State) (x : Fin 4) (c : Fin 32) (r : DmcReq) (t : List DmcReq) (w n tag : Nat) (r1 : DmcReq),
      ((s.pch x.val c.val).flight = r :: t) ∧ (w = s.dmcCfg Reg.DMC_CFG2_CRC_WINDOW_NS) ∧ (r1 = { r with
      tries := r.tries + 1, firstErr := if r.tries = 0 then s.clock.up else r.firstErr, excused := true }) ∧
        (s.stackState x.val = 2 ∧ (s.dmcCfg Reg.DMC_CFG_CRC_RETRIES < r1.tries ∨ w = 0 ∨ w < s.clock.up -
        r1.firstErr)) ∧ (n = (s.rd (wPch x.val c.val) Reg.DMC_PC_GIVE_UPS + 1) % 65536) ∧ (tag = corrTag 0x0F
        (pchKey x.val c.val) n) ∧ (u = ((s.setPch x.val c.val {
        ({ s.pch x.val c.val with flight := t } : PCh).excuse with afterGiveUp := true }).wr (wPch x.val c.val)
          Reg.DMC_PC_GIVE_UPS n).dmcCount x.val 64 1) ∧ (v = (u.event Ev.CRC_RETRY_FAILED x.val (pchKey x.val
          c.val) (b2n r.write) tag).faultDmc x.val 2 tag)) ∧
    (∃ (s : State) (x : Fin 4) (c : Fin 32), (s.stackState x.val = 2)) ∧
    (∃ (s u : State) (x : Fin 4) (c : Fin 32), (s.stackState x.val = 2 ∧ s.pcTraining x.val c.val = false) ∧ (u =
      s.finishWrites x.val c.val) ∧ (s.rdb (wPch x.val c.val) Reg.DMC_PC_POWER_DOWN = false ∧ (u.pch x.val
      c.val).queue = [] ∧ (u.pch x.val c.val).flight = [])) :=
  ⟨⟨ready.online, 12, 68719476735, 128, true, _, _, _, _, (⟨rfl, rfl⟩), (by decide +kernel), rfl, (rfl)⟩,
   ⟨ready.online.setPch 3 31 { urgent := 1 }, _, 3, 31, _, (by decide +kernel), rfl, rfl, (by decide +kernel)⟩,
   ⟨(ready.online.setUp 100).setPch 3 31 { queue := [{ arrival := 0 }] }, _, 3, 31, _, _, (by decide +kernel), rfl,
     rfl, (by decide +kernel), (Option.some_get (by decide +kernel)).symm⟩,
   ⟨ready.online.setDebt 3 31 1, _, 3, 31, _, (by decide +kernel), rfl, rfl, (by decide +kernel),
     (by decide +kernel)⟩,
   ⟨ready.online.setPch 3 31 { queue := [{ target := 65535 }] }, _, 3, 31, _, _, (by decide +kernel), rfl, rfl,
     (by decide +kernel), (Option.some_get (by decide +kernel)).symm⟩,
   ⟨ready.setPch 3 31 { flight := [{}] }, _, _, 3, 31, 2, {}, [], rfl, (by decide +kernel), rfl⟩,
   ⟨ready.setPch 3 31 { flight := [{}] }, 3, 31, {}, [], _, _, (by decide +kernel), rfl, rfl, (by decide +kernel)⟩,
   ⟨ready.online.setPch 3 31 { flight := [{ tries := 7 }] }, _, _, 3, 31, { tries := 7 }, [], _, _, _, _,
     (by decide +kernel), rfl, rfl, (by decide +kernel), rfl, rfl, rfl, rfl⟩,
   ⟨ready.online, 3, 31, (by decide +kernel)⟩,
   ⟨ready.online, _, 3, 31, (by decide +kernel), rfl, (by decide +kernel)⟩⟩

theorem witness_DramStacks :
    (∃ (s u v w : State) (x : Fin 4) (t : BitVec 16), (u = (fun y : State => if s.dmc.sampled.contains x.val =
      false ∨ sInt 16 (s.rd (wDmc x.val) Reg.DMC_TEMP_MAX_TEMP) < t.toInt then y.wr (wDmc x.val)
      Reg.DMC_TEMP_MAX_TEMP t.toNat else y) (s.wr (wDmc x.val) Reg.DMC_TEMP_TEMP t.toNat)) ∧ (v = if
      s.dmc.sampled.contains x.val = false then { u with dmc := { u.dmc with sampled := x.val :: u.dmc.sampled } }
      else u) ∧ (w = if 2000 < t.toInt ∧ (s.stackState x.val = 2 ∨ s.stackState x.val = 3) then (((v.setStack x.val
      4).wr (wDmc x.val) Reg.DMC_STATUS_RATE 3).goOffline x.val).levelDmc x.val 3 true else v)) ∧
    (∃ (s u : State) (x : Fin 4) (off : BitVec 34) (ecc : Fin 3), (s.stackOffline x.val = false ∧ s.devState ≠ 5 ∧
      s.rdb wMint Reg.MINT_STATUS_DEFERRING = false) ∧ (u = s.wr (wDmc x.val) Reg.DMC_STATUS_SCRUB_DEFERRED 0)) ∧
    (∃ (s u : State) (x : Fin 4) (c : Nat), (s.stackState x.val = 2 ∧ s.dutyRuns 12 = true ∧ s.rdb (wDmc x.val)
      Reg.DMC_STATUS_RETRAIN_ACTIVE = true) ∧ (c = tabGet (fun _ => 0) s.dmc.nextPc x.val ∧ c < 32 ∧ s.roundHeld
      x.val = false ∧ (rangeFrom 0 32).any (s.pcTraining x.val) = false) ∧ (u = (s.leavePd x.val c).setPch x.val c
      ((s.leavePd x.val c).pch x.val c).excuse)) ∧
    (∃ (s u v : State) (x : Fin 4) (c : Fin 32) (ok : Bool) (y : PCh), (s.pcTraining x.val c.val = true ∧ y = s.pch
      x.val c.val) ∧ (u = (s.setPch x.val c.val { y with afterGiveUp := false }).wr (wPch x.val c.val)
      Reg.DMC_PC_TRAINING 0) ∧ (v = { u with
      dmc := { u.dmc with nextPc := tabSet (fun _ => 0) u.dmc.nextPc x.val (c.val + 1) } })) ∧
    (∃ (s u v : State) (x : Fin 4), (s.dmc.changing.head? = some x.val ∧ s.stackState x.val = 2 ∧ s.halting =
      false) ∧ ((rangeFrom 0 32).any (s.pcTraining x.val) = false ∧ (rangeFrom 0 4).any (fun z => decide
      (s.stackState z = 3)) = false) ∧ (u = forEach (rangeFrom 0 32) (fun c s => ((s.flightOver x.val c (fun _ =>
      true)).refresh x.val c).putPch x.val c ((((s.flightOver x.val c (fun _ => true)).refresh x.val c).pch x.val
      c).excuse)) s) ∧ (v = ((u.setStack x.val 3).wr (wDmc x.val) Reg.DMC_STATUS_RATE 3).freshRefresh x.val)) ∧
    (∃ (s u v : State) (x : Fin 4) (step : Nat), (s.stackState x.val = 3 ∧ step = tabGet (fun _ => 0) s.dmc.target
      x.val) ∧ (u = ((s.setStack x.val 2).wr (wDmc x.val) Reg.DMC_STATUS_STEP step).wr (wDmc x.val)
      Reg.DMC_STATUS_RATE (rateFor 0 (s.stackTemp x.val))) ∧ (v = { u with
      dmc := { u.dmc with
        changing := if step = s.dmcCfg Reg.DMC_FREQ_EFFECTIVE_STEP then u.dmc.changing.erase x.val else
          u.dmc.changing, discard := u.dmc.discard.erase x.val } })) ∧
    (∃ (s : State) (x : Fin 4), (s.stackState x.val = 4 ∧ s.stackTemp x.val ≤ 1920)) :=
  ⟨⟨ready.online, _, _, _, 3, 2001, (rfl), (rfl), (rfl)⟩,
   ⟨ready.online, _, 3, 17179869176, 2, (by decide +kernel), rfl⟩,
   ⟨(ready.online.wr (wDmc 3) Reg.DMC_STATUS_RETRAIN_ACTIVE 1).running15 12, _, 3, 0, (by decide +kernel),
     (by decide +kernel), rfl⟩,
   ⟨ready.online.wr (wPch 3 31) Reg.DMC_PC_TRAINING 1, _, _, 3, 31, true, {}, (by decide +kernel), rfl, rfl⟩,
   ⟨ready.online.setChanging [3], _, _, 3, (by decide +kernel), (by decide +kernel), rfl, rfl⟩,
   ⟨ready.wr (wDmc 3) Reg.DMC_STATUS_STATE 3, _, _, 3, 0, (by decide +kernel), rfl, rfl⟩,
   ⟨ready.wr (wDmc 3) Reg.DMC_STATUS_STATE 4, 3, (by decide +kernel)⟩⟩

theorem witness_DmcCommands :
    (∃ (s b : State) (j : Job) (w : Nat), (s.takes { op := 0x80 } j b) ∧ (w = j.le 12 2 ∧ j.only [(8, 3), (12, 4)]
      = true ∧ j.byte 0 10 < 8 ∧ 4 * w ≤ b.leastTarget 13 0)) ∧
    (∃ (s b : State) (j : Job) (x t : Nat), (s.takes { op := 0x81 } j b) ∧ (x = j.byte 0 4 ∧ t = j.le 8 2 ∧ j.only
      [(4, 1), (8, 2)] = true ∧ x ≤ 12 ∧ 4 * b.dmcCfg Reg.DMC_CFG2_CRC_WINDOW_NS ≤ b.leastTarget x t)) ∧
    (∃ (s b : State) (j : Job) (g : Nat) (l : List Nat), (s.takes { op := 0x82, safe := true } j b) ∧ (g = j.byte 0
      5 ∧ j.only [(4, 2)] = true ∧ j.byte 0 4 < 16 ∧ g < 16) ∧ (l = (rangeFrom 0 4).filter (fun x => (j.byte 0
      4).testBit x)) ∧ (l.any (fun x => b.deepHolds x || b.inUse ((x + 1) * 2 ^ 34 - g * 2 ^ 30) (g * 2 ^ 30)) =
      false)) ∧
    (∃ (s b : State) (j : Job) (r : Bool × State) (eff : Nat) (u : State), (s.takes { op := 0x83, safe := true } j
      b) ∧ (j.only [(4, 1)] = true ∧ j.byte 0 4 ≤ 2) ∧ (r = (b.wr (wDmc 0) Reg.DMC_FREQ_HOST_STEP (j.byte 0
      4)).changeStep 0) ∧ (eff = r.2.dmcCfg Reg.DMC_FREQ_EFFECTIVE_STEP) ∧ (u = { r.2 with
      dmc := { r.2.dmc with freqJobs := r.2.dmc.freqJobs ++ (if r.1 then [] else [j]) } })) ∧
    (∃ (s b : State) (j : Job) (l : List Nat), (s.takes { op := 0x84 } j b) ∧ (j.only [(4, 1)] = true ∧ j.byte 0 4
      < 16) ∧ (l = (rangeFrom 0 4).filter (fun x => (j.byte 0 4).testBit x)) ∧ (l.any (fun x => decide
      (b.stackState x ≠ 2)) = false)) :=
  ⟨⟨readyJob DM0, _, DM0, 1, takes_of (by decide +kernel), (by decide +kernel)⟩,
   ⟨readyJob DM1, _, DM1, 12, 65535, takes_of (by decide +kernel), (by decide +kernel)⟩,
   ⟨readyJob DM2, _, DM2, 15, _, takes_of (by decide +kernel), (by decide +kernel), rfl, (by decide +kernel)⟩,
   ⟨readyJob DM3, _, DM3, _, _, _, takes_of (by decide +kernel), (by decide +kernel), rfl, rfl, rfl⟩,
   ⟨(readyJob DM4).online, _, DM4, _, takes_of (by decide +kernel), (by decide +kernel), rfl, (by decide +kernel)⟩⟩

theorem witness_ResetAndBoot :
    (∃ (s u : State) (bifur owner osc : Fin 4) (smb : Fin 8) (good : Bool), (s.dev.cold = true) ∧ (u =
      State.strapped { s with dev := { s.dev with cold := false } } {
      bifur := bifur.val, owner := owner.val, osc := osc.val, smb := smb.val })) ∧
    (∃ (s : State), (s.dev.warmPin = false ∧ s.devState ≠ 0)) ∧
    (∃ (s : State), (s.dev.warmPin = false ∧ s.devState = 0)) ∧
    (∃ (s u : State), (s.dev.warmPin = true) ∧ (u = { s with dev := { s.dev with warmPin := false, prior := 0 } })) ∧
    (∃ (s u : State) (g : List Byte) (retries : Fin 4) (ph k : Nat), (s.devState = 1 ∧ ph = s.rd wBoot
      Reg.BOOT_STATUS_PHASE ∧ (ph = 1 ∨ ph = 3)) ∧ (k = (if noData g then 3 else retries.val)) ∧ (u = forEach
      (rangeFrom 0 k) (fun _ s => (s.inc wBoot Reg.BOOT_RETRIES_RETRIES 1).fault .boot 0 0) s)) ∧
    (∃ (s : State), (s.devState = 2 ∧ s.dev.memInit = false)) ∧
    (∃ (s u : State) (failed : BitVec 128) (bad : List Nat), (s.devState = 2 ∧ s.dev.serdes = false) ∧ (bad =
      (rangeFrom 0 128).filter (fun n => failed.toNat.testBit n)) ∧ (u = { s with
      dev := { s.dev with serdes := true, laneBad := bad } })) ∧
    (∃ (s : State) (good : BitVec 4), ((s.devState = 2 ∨ s.devState = 5) ∧ s.dev.dramTrained = false)) ∧
    (∃ (s : State), (s.devState = 3)) :=
  ⟨⟨COLD, _, 3, 3, 3, 7, true, (by decide +kernel), rfl⟩,
   ⟨ready, (by decide +kernel)⟩,
   ⟨State.reset.wr wGlobal Reg.GLOBAL_DEV_STATE_STATE 0, (by decide +kernel)⟩,
   ⟨WARM, _, (by decide +kernel), rfl⟩,
   ⟨FUS, _, [], 3, 3, _, (by decide +kernel), rfl, rfl⟩,
   ⟨BTD, (by decide +kernel)⟩,
   ⟨BTD, _, 0, _, (by decide +kernel), rfl, rfl⟩,
   ⟨BTD, 15, (by decide +kernel)⟩,
   ⟨State.reset.wr wGlobal Reg.GLOBAL_DEV_STATE_STATE 3, (by decide +kernel)⟩⟩

theorem witness_HeatSteps :
    (∃ (s u v : State) (r : MintReading), 2 ≤ s.devState ∧ (u = ((s.mintSense r).mintRuns).mintNext) ∧ (v =
      (((u.clockAction.avsNow.parkAction).setDefer (actDefer (u.actWord u.mintState
      0))).stepAction).heatReload.mintCounts)) ∧
    (∃ (s v u : State) (want : Bool), (want = s.mint.wantLow) ∧ (s.rdb wMint Reg.MINT_STATUS_CLOCK_LOW = !want) ∧
      (want = true ∨ (s.dev.avs = s.avsWanted s.tjNow ∧ s.dev.avsPending = none ∧ s.since s.dev.avsAckAt (10 ^ 4) =
      true)) ∧ (v = (s.wr wMint Reg.MINT_STATUS_CLOCK_LOW (b2n want)).setMint { s.mint with
      switchedAt := s.clock.up, ccBase := s.ccNow }) ∧ (u = { v with dev := { v.dev with avsClock := want } })) ∧
    (∃ (s u : State) (v : Nat), (s.dev.avsPending = some v) ∧ (u = { s with
      dev := { s.dev with avs := v, avsPending := none, avsAckAt := some s.clock.up } })) ∧
    (∃ (s : State), (s.dev.avsPending.isSome = true)) ∧
    (∃ (s : State), (s.dev.thermtrip = false)) ∧
    (∃ (s : State), (s.dev.thermtrip = true)) :=
  ⟨⟨ready, _, _, MRD, (by decide +kernel), rfl, rfl⟩,
   ⟨MHOT.setMint { MHOT.mint with wantLow := true }, _, _, true, (by decide +kernel), (by decide +kernel),
     (by decide +kernel), rfl, rfl⟩,
   ⟨ready.setAvs 3, _, 3, (by decide +kernel), rfl⟩,
   ⟨ready.setAvs 3, (by decide +kernel)⟩,
   ⟨ready, (by decide +kernel)⟩,
   ⟨ready.setTrip, (by decide +kernel)⟩⟩

theorem witness_MintCommands :
    (∃ (s b : State) (j : Job), (s.takes { op := 0x88 } j b) ∧ (j.only [(8, 3), (12, 3), (16, 5)] = true ∧ j.le 8 2
      ≤ 4800 ∧ j.byte 0 10 ≠ 0 ∧ j.byte 0 10 ≤ 16 ∧ j.byte 0 14 ≤ 15) ∧ (j.byte 0 16 < j.byte 0 17 ∧ j.byte 0 17 <
      j.byte 0 18 ∧ j.byte 0 18 ≤ 150 ∧ j.byte 0 19 < j.byte 0 20 ∧ j.byte 0 20 ≤ 125)) ∧
    (∃ (s b : State) (j : Job) (d : List Byte), (s.takes { op := 0x89 } j b) ∧ (j.only [(4, 1), (8, 8)] = true ∧
      j.byte 0 4 ≤ 3) ∧ (d = b.hostRd (b.jobLink j) (j.le 8 8) 32) ∧ (b.actBad d = false)) ∧
    (∃ (s b : State) (j : Job), (s.takes { op := 0x8A } j b) ∧ (j.only [(8, 12)] = true) ∧ ((rangeFrom 1 3).any
      (fun h => (rangeFrom 0 4).any (fun st => (actLimit (b.actWord st 0)).testBit (h - 1) && decide (b.actWord st
      h < j.le (4 + 4 * h) 4))) = false)) ∧
    (∃ (s b : State) (j : Job) (u : State), (s.takes { op := 0x8B } j b) ∧ (j.only [(4, 1)] = true ∧ j.byte 0 4 ≤
      3) ∧ (u = b.wr wMint Reg.MINT_STATUS_MIN_STATE (j.byte 0 4))) ∧
    (∃ (s b : State) (j : Job), (s.takes { op := 0x8C } j b) ∧ (j.only [(16, 8)] = true)) :=
  ⟨⟨readyJob MI0, _, MI0, takes_of (by decide +kernel), (by decide +kernel), (by decide +kernel)⟩,
   ⟨readyJob MI1, _, MI1, _, takes_of (by decide +kernel), (by decide +kernel), rfl, (by decide +kernel)⟩,
   ⟨readyJob MI2, _, MI2, takes_of (by decide +kernel), (by decide +kernel), (by decide +kernel)⟩,
   ⟨readyJob MI3, _, MI3, _, takes_of (by decide +kernel), (by decide +kernel), rfl⟩,
   ⟨readyJob MI4, _, MI4, takes_of (by decide +kernel), (by decide +kernel)⟩⟩

theorem witness_GaugeRows :
    (∃ (s b : State) (j : Job) (k sel : Nat), (s.takes { op := 0x90 } j b) ∧ (k = j.le 4 2 ∧ sel = j.le 8 4 ∧ k <
      576 ∧ j.byte 0 6 < 16 ∧ j.only [(4, 3), (8, 14)] = true) ∧ ((j.byte 0 6).testBit 0 = true ∧ ((j.byte 0
      6).testBit 2 = true → k < 512) ∧ pcSourceOk k (b2n ((j.byte 0 6).testBit 3)) sel (j.le 12 4) = true)) ∧
    (∃ (s b : State) (j : Job), (s.takes { op := 0x90 } j b) ∧ (j.le 4 2 < 576 ∧ j.byte 0 6 < 16 ∧ j.only [(4, 3),
      (8, 14)] = true ∧ (j.byte 0 6).testBit 0 = false)) ∧
    (∃ (s b : State) (j : Job), (s.takes { op := 0x91 } j b) ∧ (j.le 4 2 < 512 ∧ j.only [(4, 2)] = true)) ∧
    (∃ (s b : State) (j : Job) (n w : Nat), (s.takes { op := 0x92 } j b) ∧ (n = j.le 4 2 ∧ w = j.le 8 4 ∧ n < 128 ∧
      w ≤ 1000000 ∧ j.only [(4, 2), (8, 4)] = true)) ∧
    (∃ (s b : State) (j : Job), (s.takes { op := 0x93 } j b) ∧ (j.le 4 2 ≤ 10000 ∧ 1 ≤ j.byte 0 6 ∧ j.byte 0 6 ≤ 64
      ∧ j.le 8 8 % 64 = 0 ∧ j.only [(4, 3), (8, 16)] = true)) ∧
    (∃ (s b : State) (j : Job) (p n : Nat) (l : List (List Byte)) (u : State), (s.takes { op := 0x94 } j b) ∧ (p =
      j.byte 0 4 ∧ p < 8 ∧ j.le 8 4 ≤ 4096 ∧ j.only [(4, 1), (8, 4), (16, 8)] = true) ∧ (l = tabGet (fun _ => [])
      b.gauge.samples p) ∧ (n = min (j.le 8 4) l.length) ∧ (u = { b with
      gauge := { b.gauge with samples := tabSet (fun _ => []) b.gauge.samples p (l.drop n) } })) ∧
    (∃ (s : State) (n : Fin 128) (w : Nat), (w = s.bwWindow n.val ∧ w ≠ 0)) ∧
    (∃ (s : State) (x : Dump), (s.rd wGauge Reg.GAUGE_DUMP_PERIOD_MS ≠ 0 ∧ s.dutyRuns 13 = true) ∧ (s.gauge.dumping
      = some x)) ∧
    (∃ (s u : State) (x : Dump), (s.rd wGauge Reg.GAUGE_DUMP_PERIOD_MS ≠ 0 ∧ s.dutyRuns 13 = true) ∧
      (s.gauge.dumping = none) ∧ (x = {
      seq := s.gauge.dumpNext, skipped := s.gauge.skipped, addr := s.gauge.dumpBase + ((s.gauge.dumpNext - 1) %
        s.rd wGauge Reg.GAUGE_DUMP_BUFFERS) * (128 + 4096 * (maskPages s.gauge.dumpMask).length), mask :=
        s.gauge.dumpMask }) ∧ (u = { s with
        gauge := { s.gauge with dumping := some x, dumpNext := s.gauge.dumpNext + 1, skipped := 0 } })) ∧
    (∃ (s u : State) (x : Dump), (s.gauge.dumping = some x) ∧ (u = { s with
      gauge := { s.gauge with dumping := none } })) ∧
    (∃ (s u v : State) (x : Dump) (l : Nat) (pages : List Nat), (s.gauge.dumping = some x) ∧ (u = { s with
      gauge := { s.gauge with dumping := none } }) ∧ (l = u.fnLink u.owner ∧ pages = maskPages x.mask) ∧ (v =
        (((u.hostWr l (x.addr + 128) (pages.flatMap u.pageBytes)).hostWr l x.addr (leBytes 4 0x47554147)).hostWr l
        (x.addr + 8) (leBytes 8 (gaugeTime s) ++ leBytes 8 (gaugeTime s) ++ leBytes 2 pages.length ++ leBytes 2
        x.skipped ++ List.replicate 36 0 ++ leBytes 64 x.mask)))) :=
  ⟨⟨(readyJob GA0), ((readyJob GA0)).startJob GA0, GA0, 511, 5, takes_of (by decide +kernel), (by decide +kernel),
     (by decide +kernel)⟩,
   ⟨(readyJob GA1), ((readyJob GA1)).startJob GA1, GA1, takes_of (by decide +kernel), (by decide +kernel)⟩,
   ⟨(readyJob GA2), ((readyJob GA2)).startJob GA2, GA2, takes_of (by decide +kernel), (by decide +kernel)⟩,
   ⟨(readyJob GA3), ((readyJob GA3)).startJob GA3, GA3, 127, 1000000, takes_of (by decide +kernel),
     (by decide +kernel)⟩,
   ⟨(readyJob GA4), ((readyJob GA4)).startJob GA4, GA4, takes_of (by decide +kernel), (by decide +kernel)⟩,
   ⟨(readyJob GA5), ((readyJob GA5)).startJob GA5, GA5, 7, _, _, _, takes_of (by decide +kernel),
     (by decide +kernel), rfl, rfl, rfl⟩,
   ⟨ready, 127, 1000, (by decide +kernel)⟩,
   ⟨GDUE.setDump (some GD0), GD0, (by decide +kernel), (by decide +kernel)⟩,
   ⟨GDUE, _, _, (by decide +kernel), (by decide +kernel), rfl, rfl⟩,
   ⟨GDUE.setDump (some GD0), _, GD0, (by decide +kernel), rfl⟩,
   ⟨GDUE.setDump (some GD0), _, _, GD0, 0, [511], (by decide +kernel), rfl, (by decide +kernel), rfl⟩⟩

theorem witness_ScribeRows :
    (∃ (s : State) (code : BitVec 16) (source : BitVec 15) (fw : Bool) (p0 p1 p2 : Word32), recorderOf code.toNat
      source.toNat p0.toNat ≤ 8) ∧
    (∃ (s : State) (r : Fin 9) (e : Rec), ((s.recorder r.val).folded = some e ∧ s.since (s.recorder r.val).repostAt
      (10 ^ 8) = true)) ∧
    (∃ (s b : State) (j : Job) (r first n : Nat), (s.takes { op := 0x98 } j b) ∧ (r = j.byte 0 4 ∧ first = j.le 8 4
      ∧ n = j.le 12 4 ∧ r < 9 ∧ first + n ≤ recorderSize r ∧ j.only [(4, 1), (8, 8), (16, 8)] = true)) ∧
    (∃ (s b : State) (j : Job), (s.takes { op := 0x99 } j b) ∧ (j.byte 0 4 < 9 ∧ j.byte 0 5 < 2 ∧ j.only [(4, 2),
      (8, 4)] = true) ∧ (j.bit 5 0 = false ∨ (b.recorder (j.byte 0 4)).log = [] ∨ ((b.recorder (j.byte 0
      4)).log.head?.map Rec.seq) = some (j.le 8 4))) ∧
    (∃ (s b : State) (j : Job) (e : Rec) (l : List Rec), (s.takes { op := 0x99 } j b) ∧ (j.byte 0 4 < 9 ∧ j.byte 0
      5 < 2 ∧ j.only [(4, 2), (8, 4)] = true) ∧ (j.bit 5 0 = true ∧ (b.recorder (j.byte 0 4)).log = e :: l ∧ e.seq
      ≠ j.le 8 4)) ∧
    (∃ (s b : State) (j : Job), (s.takes { op := 0x9A } j b) ∧ (j.byte 0 4 ≤ 40 ∧ j.only [(4, 1), (8, 2)] = true)) ∧
    (∃ (s b : State) (j : Job) (r : Nat), (s.takes { op := 0x9B } j b) ∧ (r = j.byte 0 4 ∧ r < 9 ∧ j.only [(4, 1),
      (6, 2)] = true ∧ j.le 6 2 = 0xFFFF)) ∧
    (∃ (s b : State) (j : Job) (r i q : Nat), (s.takes { op := 0x9B } j b) ∧ (r = j.byte 0 4 ∧ i = j.le 6 2 ∧ r < 9
      ∧ j.only [(4, 1), (6, 2)] = true) ∧ (i < 512 ∧ b.findQ b.owner i = some q ∧ (b.queue q).typ = .event)) ∧
    (∃ (s b : State) (j : Job), (s.takes { op := 0x9C } j b) ∧ (j.byte 0 4 < 9 ∧ j.le 8 4 ≤ recorderSize (j.byte 0
      4) ∧ j.only [(4, 1), (8, 4)] = true)) :=
  ⟨⟨ready, 0xFFFF, 0x7FFF, true, 0xFFFFFFFF, 0, 0, (by decide +kernel)⟩,
   ⟨ready.setRecorder 8 { ready.recorder 8 with folded := some RC0 }, 8, RC0, (by decide +kernel)⟩,
   ⟨(readyJob SC0), ((readyJob SC0)).startJob SC0, SC0, 8, 2046, 2, takes_of (by decide +kernel),
     (by decide +kernel)⟩,
   ⟨(readyJob SC1), ((readyJob SC1)).startJob SC1, SC1, takes_of (by decide +kernel), (by decide +kernel),
     (by decide +kernel)⟩,
   ⟨((readyJob SC2)).setRecorder 0 { log := [RC0] }, (((readyJob SC2)).setRecorder 0 { log := [RC0] }).startJob
     SC2, SC2, RC0, [], takes_of (by decide +kernel), (by decide +kernel), (by decide +kernel)⟩,
   ⟨(readyJob SC3), ((readyJob SC3)).startJob SC3, SC3, takes_of (by decide +kernel), (by decide +kernel)⟩,
   ⟨(readyJob SC4), ((readyJob SC4)).startJob SC4, SC4, 8, takes_of (by decide +kernel), (by decide +kernel)⟩,
   ⟨((readyJob SC5)).setQueue 256 { CQ1 with typ := .event }, (((readyJob SC5)).setQueue 256 { CQ1 with
     typ := .event }).startJob SC5, SC5, 8, 1, 256, takes_of (by decide +kernel), (by decide +kernel),
       (by decide +kernel)⟩,
   ⟨(readyJob SC6), ((readyJob SC6)).startJob SC6, SC6, takes_of (by decide +kernel), (by decide +kernel)⟩⟩

theorem witness_FaultsAndSecurity :
    (∃ (s u : State) (w : FWin) (mask live ended : Word32) (info : List (Fin 32 × Word32)), (s.winExists w = true ∧
      s.devState ≠ 0 ∧ mask.toNat &&& s.winSources w ≠ 0) ∧ (u = s.wr (s.winBase w) Reg.FLT_LIVE_LIVE (((s.rd
      (s.winBase w) Reg.FLT_LIVE_LIVE ||| (live.toNat &&& mask.toNat)) &&& (2 ^ 32 - 1 - (ended.toNat &&& (2 ^ 32 -
      1)))) &&& s.winSources w))) ∧
    (∃ (s : State) (w : FWin), (s.winExists w = true ∧ s.devState ≠ 0)) ∧
    (∃ (s u : State), (s.dev.safeLine = true ∧ s.devState ≠ 5 ∧ s.devState ≠ 0) ∧ (u = forEach (rangeFrom 0 8) (fun
      p t => (t.searchesSafe p).tenonSafe p) ((s.changeState s.devState 5).event Ev.SAFE_ENTERED 0 s.dev.safeKind
      s.dev.safeBlock s.dev.safeSrc))) ∧
    (∃ (s b : State) (j : Job) (m x : Nat), (s.takes { op := 0xA0, owner := false } j b) ∧ (m = b.rd (b.fnBase
      (b.jobFn j)) Reg.FLT_MASK_MASK ∧ x = m / 16 * 16 + j.le 8 4 % 16) ∧ (b.jobFn j = b.owner)) ∧
    (∃ (s b : State) (j : Job) (f : Fin 256) (x : Nat), (s.takes { op := 0xA0, owner := false } j b) ∧ (b.jobFn j =
      f.val ∧ f.val ≠ b.owner) ∧ (x = b.rd (b.fnBase f.val) Reg.FLT_MASK_MASK / 16 * 16 + j.le 8 4 % 16)) ∧
    (∃ (s b : State) (j : Job), (s.takes { op := 0xA1 } j b)) ∧
    (∃ (s b : State) (j : Job) (n : List Byte) (u : State), (s.takes { op := 0xA2 } j b) ∧ (b.rdb wSec
      Reg.SEC_STATUS_LOCKOUT = false) ∧ (n = leBytes 32 (b.draw 256).1.toNat) ∧ (u = (b.draw 256).2.setNonce (some
      n))) ∧
    (∃ (s b : State) (j : Job), (s.takes { op := 0xA2 } j b) ∧ (b.rdb wSec Reg.SEC_STATUS_LOCKOUT = true)) ∧
    (∃ (s b : State) (j : Job) (u : State) (d n key sig : List Byte) (scope : Nat), (s.takes { op := 0xA3 } j b) ∧
      (d = b.hostRd (b.jobLink j) j.hostAddr 193 ∧ key = d.take 97 ∧ sig = d.drop 97 ∧ scope = j.le 8 4) ∧ (u =
      b.countMoved 30 193 ∧ u.lifecycle = 1 ∧ u.nonceDue.dev.sec.nonce = some n) ∧ (Config.sha384 key =
      u.dev.fuses.ownerHash)) ∧
    (∃ (s : State), (s.devState ≠ 0 ∧ s.rdb wSec Reg.SEC_STATUS_LOCKOUT = false)) ∧
    (∃ (s : State) (scope : Word32) (key sig n : List Byte), (s.devState ≠ 0 ∧ s.lifecycle = 1 ∧
      s.nonceDue.dev.sec.nonce = some n) ∧ (Config.sha384 key = s.dev.fuses.ownerHash)) ∧
    (∃ (s : State), (s.dev.sec.nonce.isSome = true ∧ s.since (some s.dev.sec.nonceAt) (60 * 10 ^ 9) = true)) ∧
    (∃ (s b : State) (j : Job) (u : State), (s.takes { op := 0xA4 } j b) ∧ (b.lifecycle = 0 ∧ j.le 8 4 =
      0x4C4F434B) ∧ (u = { b with dev := { b.dev with fuses := { b.dev.fuses with locked := true } } })) ∧
    (∃ (s b : State) (j : Job) (k : Nat), (j.byte 0 4 = 0) ∧ (s.takes { op := 0xA5 } j b) ∧ (k = j.byte 0 5 ∧ k <
      4) ∧ ((b.keySlot k).revoked = true ∨ (rangeFrom 0 4).any (fun i => decide (i ≠ k) && !(b.keySlot i).revoked)
      = true)) ∧
    (∃ (s b : State) (j : Job) (v : Nat), (j.byte 0 4 = 1) ∧ (s.takes { op := 0xA5 } j b) ∧ (v = j.le 8 4 ∧
      b.dev.fuses.floor ≤ v)) ∧
    (∃ (s b : State) (j : Job), (s.takes { op := 0xA6 } j b)) ∧
    (∃ (s : State) (e : Fin 528), (s.debugOpen = true ∧ s.dev.halted.contains e.val = false)) ∧
    (∃ (s : State) (e : Fin 528), (s.debugOpen = true)) ∧
    (∃ (s : State) (e : Fin 528), (s.debugOpen = true ∧ s.dev.halted.contains e.val = true ∧
      s.dev.stepping.contains e.val = false)) ∧
    (∃ (s : State) (e : Fin 528) (r : Fin 16), (s.debugOpen = true)) ∧
    (∃ (s : State) (e : Fin 528) (other : Bool) (w : BitVec 14), (s.debugOpen = true)) :=
  ⟨⟨ready, _, .glob, 0xFFFFFFFF, 1, 0, [(3, 7)], (by decide +kernel), rfl⟩,
   ⟨ready, .boot, (by decide +kernel)⟩,
   ⟨SAFL, _, (by decide +kernel), rfl⟩,
   ⟨(readyJob SE0), ((readyJob SE0)).startJob SE0, SE0, _, _, takes_of (by decide +kernel), (⟨rfl,rfl⟩),
     (by decide +kernel)⟩,
   ⟨((readyJob SE0)).setQueue 0 { ((readyJob SE0)).queue 0 with fn := 4 }, (((readyJob SE0)).setQueue 0 {
     ((readyJob SE0)).queue 0 with fn := 4 }).startJob SE0, SE0, 4, _, takes_of (by decide +kernel),
     (by decide +kernel), rfl⟩,
   ⟨(readyJob SE1), ((readyJob SE1)).startJob SE1, SE1, takes_of (by decide +kernel)⟩,
   ⟨(readyJob SE2), ((readyJob SE2)).startJob SE2, SE2, _, _, takes_of (by decide +kernel), (by decide +kernel),
     rfl, rfl⟩,
   ⟨((readyJob SE2)).wr wSec Reg.SEC_STATUS_LOCKOUT 1, (((readyJob SE2)).wr wSec Reg.SEC_STATUS_LOCKOUT 1).startJob
     SE2, SE2, takes_of (by decide +kernel), (by decide +kernel)⟩,
   ⟨((readyJob SE3)).secWait, (((readyJob SE3)).secWait).startJob SE3, SE3, _, ((((readyJob SE3).secWait).startJob
     SE3).hostRd ((((readyJob SE3).secWait).startJob SE3).jobLink SE3) SE3.hostAddr 193), [1], ((((readyJob
     SE3).secWait).startJob SE3).hostRd ((((readyJob SE3).secWait).startJob SE3).jobLink SE3) SE3.hostAddr
     193).take 97, ((((readyJob SE3).secWait).startJob SE3).hostRd ((((readyJob SE3).secWait).startJob SE3).jobLink
     SE3) SE3.hostAddr 193).drop 97, SE3.le 8 4, takes_of (by decide +kernel), (⟨rfl,rfl,rfl,rfl⟩),
     (⟨rfl, by decide +kernel, by decide +kernel⟩), (congrArg Config.sha384 (by decide +kernel))⟩,
   ⟨ready, (by decide +kernel)⟩,
   ⟨ready.secWait, 0xFFFFFFFF, List.replicate 97 0, [], [1], (by decide +kernel), (rfl)⟩,
   ⟨ready.secWait.setUp (60 * 10 ^ 9), (by decide +kernel)⟩,
   ⟨(readyJob SE4), ((readyJob SE4)).startJob SE4, SE4, _, takes_of (by decide +kernel), (by decide +kernel), rfl⟩,
   ⟨(readyJob SE5), ((readyJob SE5)).startJob SE5, SE5, 3, (by decide +kernel), takes_of (by decide +kernel),
     (by decide +kernel), (by decide +kernel)⟩,
   ⟨(readyJob SE6), ((readyJob SE6)).startJob SE6, SE6, 0xFFFFFFFF, (by decide +kernel),
     takes_of (by decide +kernel), (by decide +kernel)⟩,
   ⟨(readyJob SE7), ((readyJob SE7)).startJob SE7, SE7, takes_of (by decide +kernel)⟩,
   ⟨ready, 527, (by decide +kernel)⟩,
   ⟨ready, 527, (by decide +kernel)⟩,
   ⟨ready.setHalted [527], 527, (by decide +kernel)⟩,
   ⟨ready, 527, 15, (by decide +kernel)⟩,
   ⟨ready, 527, true, 0, (by decide +kernel)⟩⟩

end Sys2Proof.Machine
end

section
/-!
PROOFS. Accesses to the registers by a host and over the SMBus (ch. 00, 14 and 21): what each kind of access does, then
the obligations on them.
-/
namespace Sys2Proof.Machine

/-! ### Registers of BAR0 (R8, R10) -/

/-- A low half read latches the high half. -/
theorem readReg_lo {s : State} {f a : Nat} (h : s.pairLo f a = true) :
    s.readReg f a = (s.peek f a, s.latchHi f 0 (s.peek f (a + 4))) := if_pos h

/-- A high half read gives the latch. -/
theorem readReg_hi {s : State} {f a : Nat} (hlo : s.pairLo f a = true) (hhi : s.pairLo f (a + 4) = false) :
    s.readReg f (a + 4) = (s.latched f 0, s) := by
  unfold State.readReg
  rw [hhi, if_neg Bool.false_ne_true, if_pos ⟨Nat.le_add_left 4 a, by rwa [Nat.add_sub_cancel]⟩]

/-- Every served register that is no half of a pair, but NOW_NS and TOD_RX, reads its value and changes nothing. -/
theorem readReg_plain {s : State} {f a : Nat} (hlo : s.pairLo f a = false)
    (hhi : 4 ≤ a → s.pairLo f (a - 4) = false) (hs : s.served a = true) (hns : a ≠ wThyme + 4)
    (htod : a ≠ wThyme + 0x30) : s.readReg f a = (s.peek f a, s) := by
  unfold State.readReg
  rw [hlo, if_neg Bool.false_ne_true, if_neg (fun h => by simp [hhi h.1] at h), if_neg (by simp [hs]), if_neg hns,
    if_neg htod]

/-- A low half written is held. -/
theorem writeReg_lo {s : State} {f a v : Nat} (hr : s.inReset f = false) (h : s.pairLo f a = true) :
    s.writeReg f a v = s.loWrite f a v := by
  unfold State.writeReg
  dsimp only
  rw [if_neg (by simp [hr]), if_pos h]

/-- A high half written commits the pair. -/
theorem writeReg_hi {s : State} {f a v : Nat} (hr : s.inReset f = false) (hlo : s.pairLo f a = true)
    (hhi : s.pairLo f (a + 4) = false) : s.writeReg f (a + 4) v = s.hiWrite f a v := by
  unfold State.writeReg
  dsimp only
  rw [if_neg (by simp [hr]), hhi, if_neg Bool.false_ne_true, Nat.add_sub_cancel, if_pos ⟨Nat.le_add_left 4 a, hlo⟩]

/-- The offset of a low half, from its register. -/
theorem isLo_of_pairLo {s : State} {f off a : Nat} (hk : s.regKey f off = some a) (hlo : s.pairLo f a = true) :
    s.isLo f off false = true := by
  unfold State.isLo
  rw [if_neg Bool.false_ne_true, hk]
  exact hlo

/-! ### Latches and held halves (R10) -/

/-- The latch set, to 32 bits. -/
theorem latched_latchHi (s : State) (f bar v : Nat) : (s.latchHi f bar v).latched f bar = v % 2 ^ 32 := by
  simp [State.latched, State.latchHi]

/-- Every other latch. -/
theorem latched_latchHi_ne (s : State) {f bar g b : Nat} (v : Nat) (h : 8 * g + b ≠ 8 * f + bar) :
    (s.latchHi f bar v).latched g b = s.latched g b := by
  simp [State.latched, State.latchHi, tabGet_set_ne _ _ _ _ _ h]

/-- A function's latches after they are dropped. -/
theorem latched_dropLatches (s : State) {f b : Nat} (hb : b < 8) : (s.dropLatches f).latched f b = 0 := by
  unfold State.latched State.dropLatches
  dsimp only
  rw [tabGet_unlisted]
  · rfl
  · intro e he hk
    have hne : e.1 / 8 ≠ f := of_decide_eq_true (List.mem_filter.1 he).2
    omega

/-- The held low half of the pair at a discarded. -/
def State.unheld (s : State) (a : Nat) : State :=
  { s with host := { s.host with heldLo := tabSet (fun _ => none) s.host.heldLo a none } }

theorem heldLo_unheld (s : State) (a : Nat) : tabGet (fun _ => none) (s.unheld a).host.heldLo a = none :=
  tabGet_set_self (fun _ => none) s.host.heldLo a none

theorem reg_unheld (s : State) (a k : Nat) : (s.unheld a).reg k = s.reg k := rfl

section
variable {s : State} {f a : Nat} (v : Nat) (ha : a = s.fnBase f + 0x2000 ∨ a = s.fnBase f + 0x2008)
  (hq : (s.queue f).st = .absent)
include ha hq

/-- The commit of an admin ring's base with a held low half: both halves are set. -/
theorem hiWrite_held {lo : Word32} (hl : tabGet (fun _ => none) s.host.heldLo a = some lo) :
    s.hiWrite f a v = ((s.unheld a).setReg (a + 4) v).setReg a lo.toNat := by
  unfold State.hiWrite
  dsimp only
  rw [if_pos ⟨ha, hq⟩, hl]
  rfl

/-- The commit of an admin ring's base without a held low half: the high half alone is set. -/
theorem hiWrite_unheld (hl : tabGet (fun _ => none) s.host.heldLo a = none) :
    s.hiWrite f a v = (s.unheld a).setReg (a + 4) v := by
  unfold State.hiWrite
  dsimp only
  rw [if_pos ⟨ha, hq⟩, hl]
  rfl

end

/-! ### Words of BAR4 (R417, R574) -/

/-- The counter that a slot of BAR4 shows; 0 where the function has no page. -/
def State.bar4Word (s : State) (f off : Nat) : Nat :=
  (s.bar4Page f (off / 4096)).elim 0 (fun p => s.slotNow p (off % 4096 / 8))

/-- A read of BAR4 by its length and alignment. -/
theorem readBar4_eq (s : State) (f off len : Nat) : s.readBar4 f off len =
    if len = 8 ∧ off % 8 = 0 then (s.bar4Word f off, s)
    else if len = 4 ∧ off % 8 = 0 then (s.bar4Word f off % 2 ^ 32, s.latchHi f 4 (s.bar4Word f off / 2 ^ 32))
    else if len = 4 ∧ off % 8 = 4 then (s.latched f 4, s)
    else (0, s) := by
  unfold State.readBar4 State.bar4Word
  cases s.bar4Page f (off / 4096) <;> rfl

/-! ### What an access that reaches the device does -/

/-- A read of BAR0 or BAR2 of another width or alignment gives 0 (R9). -/
theorem memRead_other {s : State} {f bar off len : Nat} (h1 : s.reaches f) (hb : bar ≠ 4) (hm : len ≠ 4 ∨ off % 4 ≠ 0)
    (ho : off < s.barSize f bar) : s.memRead f bar off len = s.emit (.readData f bar off 0) := by
  obtain ⟨hd, he, hse⟩ := h1
  unfold State.memRead
  rw [if_neg hd, if_neg (by simp [he]), if_neg (by simp [hse, ho]), if_neg hb, if_pos (.inr hm)]
  rfl

section
variable {s : State} {f : Fin 256} {bar2 : Bool} {off : BitVec 24} {len : BitVec 13}
  (h1 : s.reaches f.val) (hm : len.toNat ≠ 4 ∨ off.toNat % 4 ≠ 0)
include h1 hm

/-- A write of another width or alignment does nothing (R9). -/
theorem exec_misalignedWrite : exec (.misalignedAccess f bar2 true off len) s = .next s := by
  refine congrArg Host.Outcome.next ?_
  rw [if_neg (by omega), if_pos rfl, posted_reaches h1]

/-- A read of another width or alignment gives 0 (R9). -/
theorem exec_misalignedRead (ho : off.toNat < s.barSize f.val (if bar2 then 2 else 0)) :
    exec (.misalignedAccess f bar2 false off len) s =
      .next (s.emit (.readData f.val (if bar2 then 2 else 0) off.toNat 0)) := by
  refine congrArg Host.Outcome.next ?_
  rw [if_neg (by omega), if_neg Bool.false_ne_true]
  exact memRead_other h1 (by cases bar2 <;> decide) hm ho

end

section
variable {s : State} {f : Fin 256} {off : BitVec 24} {a : Nat} (h1 : s.reaches f.val)
  (hal : off.toNat % 4 = 0) (ho : off.toNat < s.barSize f.val 0)
include h1 hal ho

/-- PAIR_LO_READ in BAR0. -/
theorem exec_pairLoRead (hk : s.regKey f.val off.toNat = some a) (hlo : s.pairLo f.val a = true) :
    exec (.pairLoRead f false off) s = .next ((s.latchHi f.val 0 (s.peek f.val (a + 4))).emit
      (.readData f.val 0 off.toNat (BitVec.ofNat 64 (s.peek f.val a)))) := by
  refine congrArg Host.Outcome.next ?_
  rw [if_pos (isLo_of_pairLo hk hlo), if_neg Bool.false_ne_true, memRead_reg h1 hal ho hk, readReg_lo hlo]

/-- PAIR_HI_READ in BAR0. -/
theorem exec_pairHiRead (h4 : 4 ≤ off.toNat) (hl : s.isLo f.val (off.toNat - 4) false = true)
    (hk : s.regKey f.val off.toNat = some (a + 4)) (hlo : s.pairLo f.val a = true)
    (hhi : s.pairLo f.val (a + 4) = false) :
    exec (.pairHiRead f false off) s =
      .next (s.emit (.readData f.val 0 off.toNat (BitVec.ofNat 64 (s.latched f.val 0)))) := by
  refine congrArg Host.Outcome.next ?_
  rw [if_pos ⟨h4, hl⟩, if_neg Bool.false_ne_true, memRead_reg h1 hal ho hk, readReg_hi hlo hhi]

end

section
variable {s : State} {f : Fin 256} {off : BitVec 24} (h1 : s.reaches f.val) (ho : off.toNat < s.barSize f.val 4)
include h1 ho

/-- An aligned 8-byte read of BAR4 gives the whole counter (R574). -/
theorem exec_bar4Read (hal : off.toNat % 8 = 0) :
    exec (.mmioRequest f (.read 4 off 8)) s =
      .next (s.emit (.readData f.val 4 off.toNat (BitVec.ofNat 64 (s.bar4Word f.val off.toNat)))) := by
  refine congrArg Host.Outcome.next ((request_read h1).trans ?_)
  rw [memRead_bar4 h1 ho, readBar4_eq, if_pos ⟨rfl, hal⟩]

/-- PAIR_LO_READ in BAR4. -/
theorem exec_bar4LoRead (hal : off.toNat % 8 = 0) :
    exec (.pairLoRead f true off) s = .next ((s.latchHi f.val 4 (s.bar4Word f.val off.toNat / 2 ^ 32)).emit
      (.readData f.val 4 off.toNat (BitVec.ofNat 64 (s.bar4Word f.val off.toNat % 2 ^ 32)))) := by
  refine congrArg Host.Outcome.next ?_
  rw [if_pos (by simp [State.isLo, hal]), if_pos rfl, memRead_bar4 h1 ho, readBar4_eq, if_neg (by omega),
    if_pos ⟨rfl, hal⟩]

/-- PAIR_HI_READ in BAR4. -/
theorem exec_bar4HiRead (hal : off.toNat % 8 = 4) :
    exec (.pairHiRead f true off) s =
      .next (s.emit (.readData f.val 4 off.toNat (BitVec.ofNat 64 (s.latched f.val 4)))) := by
  have hl : 4 ≤ off.toNat ∧ s.isLo f.val (off.toNat - 4) true = true := by simp [State.isLo]; omega
  refine congrArg Host.Outcome.next ?_
  rw [if_pos hl, if_pos rfl, memRead_bar4 h1 ho, readBar4_eq, if_neg (by omega), if_neg (by omega), if_pos ⟨rfl, hal⟩]

end

/-- A read that a host requests of a register with no effect of its own (R8). -/
theorem exec_plainRead {s : State} {f : Fin 256} {off : BitVec 24} {a : Nat} (h1 : s.reaches f.val)
    (hal : off.toNat % 4 = 0) (ho : off.toNat < s.barSize f.val 0) (hk : s.regKey f.val off.toNat = some a)
    (hr : s.readReg f.val a = (s.peek f.val a, s)) :
    exec (.mmioRequest f (.read 0 off 4)) s =
      .next (s.emit (.readData f.val 0 off.toNat (BitVec.ofNat 64 (s.peek f.val a)))) := by
  refine congrArg Host.Outcome.next ((request_read h1).trans ((memRead_reg h1 hal ho hk).trans ?_))
  rw [hr]

section
variable {s : State} {f : Fin 256} {off : BitVec 24} {v : Word32} {a : Nat} (h1 : s.reaches f.val)
  (ho : off.toNat < s.barSize f.val 0)
include h1 ho

/-- REGISTER_WRITE in BAR0. -/
theorem exec_regWrite (hal : off.toNat % 4 = 0) (hk : s.regKey f.val off.toNat = some a) :
    exec (.registerWrite f 0 off v) s = .next (s.writeReg f.val a v.toNat) :=
  congrArg Host.Outcome.next ((if_pos hal).trans (memWrite_reg h1 ho hk))

/-- PAIR_LO_WRITE. -/
theorem exec_pairLoWrite (hr : s.inReset f.val = false) (hk : s.regKey f.val off.toNat = some a)
    (hlo : s.pairLo f.val a = true) : exec (.pairLoWrite f off v) s = .next (s.loWrite f.val a v.toNat) := by
  refine congrArg Host.Outcome.next ?_
  rw [if_pos (isLo_of_pairLo hk hlo), memWrite_reg h1 ho hk, writeReg_lo hr hlo]

/-- PAIR_HI_WRITE. -/
theorem exec_pairHiWrite (hr : s.inReset f.val = false) (h4 : 4 ≤ off.toNat)
    (hl : s.isLo f.val (off.toNat - 4) false = true) (hk : s.regKey f.val off.toNat = some (a + 4))
    (hlo : s.pairLo f.val a = true) (hhi : s.pairLo f.val (a + 4) = false) :
    exec (.pairHiWrite f off v) s = .next (s.hiWrite f.val a v.toNat) := by
  refine congrArg Host.Outcome.next ?_
  rw [if_pos ⟨h4, hl⟩, memWrite_reg h1 ho hk, writeReg_hi hr hlo hhi]

end

/-- A tail doorbell of an ACTIVE submission queue, with a tail inside its ring (R438). -/
theorem tailDoorbell_active {s : State} {f i v q : Nat} (hr : s.inReset f = false) (hq : s.findQ f i = some q)
    (ht : (s.queue q).typ.submission = true) (hs : (s.queue q).st = .active) (hv : v < (s.queue q).size) :
    s.tailDoorbell f i v = s.setQueue q { s.queue q with tail := v } := by
  unfold State.tailDoorbell
  rw [hr, if_neg Bool.false_ne_true, hq]
  dsimp only
  rw [if_neg (by simp [ht]), if_neg (by simp [hs]), if_neg (by omega)]

/-- A read of configuration space is answered with the field (R408). -/
theorem hostRequest_cfgRead {s : State} {f : Nat} (hd : s.devState ≠ 0) (he : s.fnExists f = true) (g : CfgGet) :
    s.hostRequest f (.cfgRead g) = s.emit (.config f (s.cfgValue f g)) := by
  unfold State.hostRequest
  rw [if_neg hd, if_neg (by simp [he])]

/-- A write of configuration space is done, and then answered (R408). -/
theorem hostRequest_cfgWrite {s : State} {f : Nat} (hd : s.devState ≠ 0) (he : s.fnExists f = true) (c : CfgSet) :
    s.hostRequest f (.cfgWrite c) = (s.cfgWrite f c).emit (.configDone f) := by
  unfold State.hostRequest
  rw [if_neg hd, if_neg (by simp [he])]

/-- A request to a function that the device does not have is unsupported (R408, R411). -/
theorem hostRequest_noFn {s : State} {f : Nat} (hd : s.devState ≠ 0) (he : s.fnExists f = false) (r : HostReq) :
    s.hostRequest f r = s.emit (.unsupported f) := by
  unfold State.hostRequest
  rw [if_neg hd, if_pos he]

/-! ### SMBus (R639) -/

/-- Two writes that are not the device's, or that carry a wrong PEC, change nothing. -/
theorem exec_smbWrites_ignored {s : State} {dst : BitVec 7} {v : Word32} {c b : Byte}
    (h : dst.toNat ≠ 0x58 + s.dev.smbStrap ∨
      (pecOk dst (1 :: 4 :: leBytes 4 v.toNat) (some c) = false ∧ pecOk dst [4, b] (some c) = false)) :
    exec (.smbRegAddr dst v (some c)) s = .next s ∧ exec (.smbWarmReset dst b (some c)) s = .next s := by
  have hno : ∀ m, (dst.toNat ≠ 0x58 + s.dev.smbStrap ∨ pecOk dst m (some c) = false) →
      (s.smbTakes dst && pecOk dst m (some c)) = false := by
    rintro m (hd | hp)
    · simp [State.smbTakes, hd]
    · simp [hp]
  constructor <;> refine congrArg Host.Outcome.next (if_neg ?_)
  · rw [hno _ (h.imp_right And.left)]
    exact Bool.false_ne_true
  · rw [hno _ (h.imp_right And.right)]
    exact Bool.false_ne_true

/-- The word of a register that REG_READ serves. -/
theorem smbWord_served {s : State} {off a : Nat} (hk : s.regKey s.owner off = some a) (hal : off % 4 = 0)
    (hs : smbServed off (s.winAt a).isSome = true) : s.smbWord off = s.peek s.owner a := by
  unfold State.smbWord
  rw [hk]
  exact if_pos ⟨hal, hs⟩

/-! ### Writes that act -/

/-- A warm reset of a device that is not COLD leads to FUSED (R628, R629). -/
theorem warmBoot_of_live {s : State} (h : s.devState ≠ 0) (cause : Nat) :
    s.warmBoot cause = (s.warmReset cause).enterFused s.devState s.counting := if_neg h

section
variable {s : State} {w : FWin} (h : s.isFnWin w = false)
include h

/-- MASK of a window that is no function window (R604, R606). -/
theorem maskWrite_eq (v : Nat) :
    s.maskWrite w v = (s.wr (s.winBase w) Reg.FLT_MASK_MASK (v &&& s.winSources w)).updateWin w :=
  if_neg (by simp [h])

/-- SEV of a window that is no function window: never below its reset value (R606). -/
theorem sevWrite_eq (hi : Bool) (v : Nat) : s.sevWrite w hi v =
    forEach (rangeFrom (if hi then 16 else 0) 16) (fun i x => if s.winSources w &&& 2 ^ i = 0 then x
      else x.wr (s.winBase w) (Reg.FLT_SEV_I i) (max (bits (regReset (s.winBase w + (Reg.FLT_SEV_I i).off))
        (Reg.FLT_SEV_I i).hi (Reg.FLT_SEV_I i).lo) (v / 4 ^ (i % 16) % 4))) s :=
  if_neg (by simp [h])

/-- INJECT of sources that the window has (R614). -/
theorem inject_eq {v : Nat} (hv : v &&& s.winSources w ≠ 0) : s.inject w v = s.faultsW wh2 w v (fun _ => 0) true :=
  if_neg (by simp [h, hv])

/-- DUP_INJECT (R608, R614). -/
theorem dupInject_eq : s.dupInject w = s.miscompare w := if_neg (by simp [h])

end

/-! ### The obligations -/

/-- Settles O8: the rows of R9, and a read of BAR4 by its length. -/
theorem otherAccesses : Obligations.OtherAccesses := by
  refine ⟨?_, ?_, ?_⟩
  · rintro s f bar2 off len ⟨h1, hm⟩
    exact exec_misalignedWrite h1 hm
  · rintro s f bar2 off len ⟨h1, hm, ho⟩
    exact exec_misalignedRead h1 hm ho
  · rintro s f off x ⟨hal, ho, h1⟩ rfl
    exact exec_bar4Read h1 ho hal

/-- Settles O9: the read of the low half leaves the register map as it was, so the read of the high half finds its
latch. -/
theorem registerPairs : Obligations.RegisterPairs := by
  refine ⟨?_, ?_, ?_, fun _ _ => rfl, fun s f b hb => latched_dropLatches s hb⟩
  · rintro s f off lo a ⟨hal, hoff, ho, h1⟩ ⟨hkl, hkh, hlo, hhi⟩
    refine ⟨_, _, exec_pairLoRead h1 hal (by omega) hkl hlo,
      exec_pairHiRead (a := a) h1 (by omega) ho (by omega) ?_ hkh hlo hhi, rfl, ?_, ?_⟩
    · rw [hoff, Nat.add_sub_cancel]
      exact isLo_of_pairLo hkl hlo
    · exact congrArg (fun n => Output.readData f.val 0 off.toNat (BitVec.ofNat 64 n) :: _) (latched_latchHi s _ _ _)
    · exact fun g b hne => latched_latchHi_ne s _ hne
  · rintro s f a v lo ⟨ha, hq⟩ hl
    rw [hiWrite_held v ha hq hl]
    refine ⟨?_, ?_, heldLo_unheld s a⟩
    · rw [reg_setReg, Nat.mod_eq_of_lt lo.isLt]
    · rw [reg_setReg_ne _ _ (by omega), reg_setReg]
  · rintro s f a v ⟨ha, hq⟩ hl
    rw [hiWrite_unheld v ha hq hl]
    exact ⟨(reg_setReg_ne _ _ (by omega)).trans (reg_unheld s a a), reg_setReg _ _ _⟩

/-- Settles O14: each access by the rule of its row. -/
theorem registerAccesses : Obligations.RegisterAccesses := by
  refine ⟨?read, ?cfgRead, ?cfgWrite, ?noFn, ?loRead, ?bar4Lo, ?hiRead, ?bar4Hi, ?loWrite, ?hiWrite, ?otherWrite,
    ?otherRead, ?doorbell, ?regWrite, ?nowNs, ?todRx, ?smbAddr, ?smbIgnored, ?smbRead, ?smbVectors⟩
  case read =>
    rintro s f bar off len a ⟨rfl, rfl, hal, ho, h1⟩ ⟨hk, hlo, hhi⟩ ⟨hs, hns, htod⟩
    exact exec_plainRead h1 hal ho hk (readReg_plain hlo hhi hs hns htod)
  case cfgRead => exact fun s f g h => congrArg _ (hostRequest_cfgRead h.1 h.2 g)
  case cfgWrite => exact fun s f v h => congrArg _ (hostRequest_cfgWrite h.1 h.2 v)
  case noFn => exact fun s f r h => congrArg _ (hostRequest_noFn h.1 h.2 r)
  case loRead =>
    rintro s f off a ⟨hal, ho, h1⟩ ⟨hk, hlo⟩
    exact exec_pairLoRead h1 hal ho hk hlo
  case bar4Lo =>
    rintro s f off x ⟨hal, ho, h1⟩ rfl
    exact exec_bar4LoRead h1 ho hal
  case hiRead =>
    rintro s f off a ⟨hal, h4, ho, h1⟩ ⟨hl, hk, hlo, hhi⟩
    exact exec_pairHiRead h1 hal ho h4 hl hk hlo hhi
  case bar4Hi =>
    rintro s f off ⟨hal, ho, h1⟩
    exact exec_bar4HiRead h1 ho hal
  case loWrite =>
    rintro s f off v a ⟨ho, h1, hr⟩ ⟨hk, hlo⟩
    rw [exec_pairLoWrite h1 ho hr hk hlo, State.loWrite, BitVec.ofNat_toNat, BitVec.setWidth_eq]
  case hiWrite =>
    rintro s f off v a ⟨h4, ho, h1, hr⟩ ⟨hl, hk, hlo, hhi⟩
    exact exec_pairHiWrite h1 ho hr h4 hl hk hlo hhi
  case otherWrite =>
    rintro s f bar2 off len ⟨h1, hm⟩
    exact exec_misalignedWrite h1 hm
  case otherRead =>
    rintro s f bar2 off len ⟨h1, hm, ho⟩
    exact exec_misalignedRead h1 hm ho
  case doorbell =>
    rintro s f off v q ⟨hal, ho, h1, hr⟩ ⟨hq, ht, hs, hv⟩
    exact congrArg _ ((if_pos (by omega)).trans ((memWrite_tail h1 hal ho).trans (tailDoorbell_active hr hq ht hs hv)))
  case regWrite =>
    rintro s f off v a ⟨hal, ho, h1, hk⟩
    exact exec_regWrite h1 ho hal hk
  case nowNs =>
    rintro s f u ⟨hf, h1, hb⟩ rfl
    exact congrArg _ (nowNs_read hf h1 hb)
  case todRx => exact fun s f h => congrArg _ (todRx_read h.1 h.2.1 h.2.2)
  case smbAddr => exact fun s dst v pec h => congrArg _ (if_pos (by rw [h.1, h.2]; rfl))
  case smbIgnored => exact fun s dst v c b h => exec_smbWrites_ignored h
  case smbRead =>
    rintro s dst a ht ⟨hk, hal, hs⟩
    exact congrArg _ ((if_pos ht).trans (by rw [smbWord_served hk hal hs]))
  case smbVectors => exact fun s dst ht => congrArg _ (if_pos ht)

/-- Settles O15: each write reaches the device, and its register's rule gives the effect. -/
theorem registerWrites : Obligations.RegisterWrites := by
  refine ⟨?ovf, ?step, ?status, ?first, ?mask, ?sev, ?inject, ?dup, ?safe, ?key, ?smb⟩
  case ovf =>
    rintro s w v a ⟨h1, hb⟩ rfl
    exact congrArg _ ((posted_reaches h1 _ _).trans (if_pos hb))
  case step => exact fun s h => congrArg _ ((posted_reaches h.1 _ _).trans (if_pos h.2))
  case status =>
    rintro s w v a m h1 ⟨rfl, rfl⟩
    exact congrArg _ (posted_reaches h1 _ _)
  case first => exact fun s w h1 => congrArg _ (posted_reaches h1 _ _)
  case mask => exact fun s w v h => congrArg _ ((posted_reaches h.1 _ _).trans (maskWrite_eq h.2 _))
  case sev => exact fun s w hi v h => congrArg _ ((posted_reaches h.1 _ _).trans (sevWrite_eq h.2 hi _))
  case inject =>
    rintro s w v ⟨h1, hw, hv⟩
    exact congrArg _ ((posted_reaches h1 _ _).trans (inject_eq hw hv))
  case dup => exact fun s w h => congrArg _ ((posted_reaches h.1 _ _).trans (dupInject_eq h.2))
  case safe => exact fun s h1 => congrArg _ (posted_reaches h1 _ _)
  case key =>
    rintro s v ⟨h1, rfl⟩
    exact congrArg _ ((posted_reaches h1 _ _).trans ((if_pos rfl).trans (warmBoot_of_live h1.1 2)))
  case smb =>
    rintro s dst v pec ⟨ht, hp, rfl⟩
    have hd : s.devState ≠ 0 := (of_decide_eq_true ht).1
    exact congrArg _ ((if_pos (by rw [ht, hp]; rfl)).trans (warmBoot_of_live hd 3))

end Sys2Proof.Machine
end

section
/-!
PROOFS. A packet's way through Truss, and the writes of the tables in their slots (ch. 1, 3 to 6), then the obligations
on them.
-/
namespace Sys2Proof.Machine

/-! ### Slots and packets (R23, R80, R94, R95, R210) -/

/-- A cycle with no slot in use and no forced write grants its two slots, and makes no bubble (R23, R24). -/
theorem slotGrant_unforced {s : State} {p : Nat} (e f : Nat) (hg : (s.pipe p).granted = []) (ha : s.admits = true)
    (hx : (s.pipe p).expiredClaim = none) : s.slotGrant p e f = (s.grantSlot p e).grantSlot p f := by
  unfold State.slotGrant
  rw [if_neg (by simp [hg, ha])]
  dsimp only
  rw [hx, if_neg (by simp)]

section
variable {s : State} {p i : Nat} {t : List Grant} (ecc shadow : Nat) (hg : (s.pipe p).granted = .packet i :: t)
  (hw : (s.pipe p).waiting.contains i = true)
include hg hw

/-- A packet that enters a pipeline without a valid graph is dropped and counted (R95). -/
theorem packetEntry_noGraph (hv : s.graphValid p = false) : s.packetEntry p ecc shadow =
    ((s.setPipe p { s.pipe p with granted := t, waiting := (s.pipe p).waiting.erase i }).pipeCount p 0 1).dropFrame
      i := by
  unfold State.packetEntry
  dsimp only
  rw [hg]
  exact (if_neg (fun h => Bool.false_ne_true (h.symm.trans hw))).trans (if_pos hv)

/-- A packet that enters is parsed, makes its lookups in its slot, and waits last in the pipeline (R80, R84, R95). -/
theorem packetEntry_parsed {u v : State} {x : Packet} (hv : s.graphValid p = true)
    (hu : u = ((s.setPipe p { s.pipe p with granted := t, waiting := (s.pipe p).waiting.erase i }).pcEvent (some p) 0x02
      1 (fun _ => true) {}).inFlightAdd p (s.parity p) 1)
    (hx : x = u.parsed p i)
    (hs : v = u.setFrame i { u.frame i with
      sysport := u.learnedPort p (u.frame i).inPort x.bank x.parse (u.frame i).bytes }) :
    s.packetEntry p ecc shadow =
      ((v.slotLookups p shadow x).2.setPipe p { (v.slotLookups p shadow x).2.pipe p with
        packets := ((v.slotLookups p shadow x).2.pipe p).packets ++ [(v.slotLookups p shadow x).1] }).bankError p
        (if ecc = 2 then 3 else ecc) := by
  subst hs hx hu
  unfold State.packetEntry
  dsimp only
  rw [hg]
  exact (if_neg (fun h => Bool.false_ne_true (h.symm.trans hw))).trans (if_neg (by simp [hv]))

end

/-- The oldest parsed packet's result is delivered as the slow profile of its reason says (R93, R94). -/
theorem parseDelivery_found {s : State} {p : Nat} {x : Packet}
    (hx : (s.pipe p).packets.find? (fun z => decide (z.stage = 0)) = some x) {r : Nat} {u v : State}
    (hr : r = prReason x.parse) (hu : u = if r = 0 then s else s.pipeCount p r 1)
    (hv : v = if slowEvent (s.graph p x.bank) r then u.event Ev.SLOW_PATH p (prPort x.parse) r (imB x.parse 108)
      else u) :
    s.parseDelivery p =
      if slowAction (s.graph p x.bank) r = 0 then v.discardPacket p x else v.setPacket p { x with stage := 1 } := by
  subst hv hu hr
  unfold State.parseDelivery
  rw [hx]

/-- A packet whose lookups are complete, behind no earlier one of its port and class, is ready (R138, R141, R210). -/
theorem lookupsReady_ready {s : State} {p i : Nat} {x : Packet}
    (hx : (s.pipe p).packets.find? (fun z => decide (z.frame = i)) = some x) (h1 : x.stage = 1) (he : x.em = none)
    (hb : ((s.pipe p).packets.takeWhile (fun z => decide (z.frame ≠ i))).any (fun z => decide (
      (s.frame z.frame).inPort = (s.frame i).inPort ∧ (s.frame z.frame).inTc = (s.frame i).inTc ∧ z.stage < 2)) = false) :
    s.lookupsReady p i = s.setPacket p { x with stage := 2 } := by
  unfold State.lookupsReady
  dsimp only
  rw [hx]
  dsimp only
  rw [hb, if_neg (by simp [h1, he])]

/-- Settles O24: each clause is its row's operation in the case that the clause describes. -/
theorem packetPath : Obligations.PacketPath := by
  refine ⟨?slots, ?noGraph, ?parsed, ?delivery, ?ready⟩
  case slots => exact fun s p e f hg ha hx => congrArg _ (slotGrant_unforced e.val f.val hg ha hx)
  case noGraph =>
    rintro s u p ecc shadow i t hg hw rfl hv
    exact congrArg _ (packetEntry_noGraph ecc.val shadow.val hg hw hv)
  case parsed =>
    intro s u v p ecc shadow i t x hg hw hv hu hx hs
    exact congrArg _ (packetEntry_parsed ecc.val shadow.val hg hw hv hu hx hs)
  case delivery => exact fun s u v p x r hx hr hu hv => congrArg _ (parseDelivery_found hx hr hu hv)
  case ready => exact fun s p i x hx h hb => congrArg _ (lookupsReady_ready hx h.1 h.2 hb)

/-! ### Writes in their slots (R164, R190, R204) -/

section
variable {s : State} {p : Nat} {w : Shown} {row : Landing}

/-- The update unit's write lands under the row of its kind, or goes back to wait for its stack (R190, R204). -/
theorem land_unit (hg : (s.pipe p).writeGrant = some .unit) (hw : (s.pipe p).shown = some w)
    (hr : w.write.op.landing = row) : s.land p row =
      if s.mayPresent w.write.table w.write.op then
        (s.setPipe p { s.pipe p with granted := (s.pipe p).granted.drop 1, shown := none }).landWrite p w.write
      else
        (s.setPipe p { s.pipe p with granted := (s.pipe p).granted.drop 1, shown := none,
                                     unit := w.write.waits ++ (s.pipe p).unit }).present p := by
  unfold State.land
  dsimp only
  rw [hg, hw]
  exact if_neg (not_not_intro hr)

/-- The learn arbiter's write lands under the row of its kind (R190). -/
theorem land_arbiter (hg : (s.pipe p).writeGrant = some .arbiter) (hw : (s.pipe p).arbShown = some w)
    (hr : w.write.op.landing = row) : s.land p row =
      (s.setPipe p { s.pipe p with granted := (s.pipe p).granted.drop 1, arbShown := none }).landWrite p w.write := by
  unfold State.land
  dsimp only
  rw [hg, hw]
  exact if_pos hr

/-- A repair of Mortise rewrites its entry (R125). -/
theorem land_repair {x y : Nat} {t : List (Nat × Nat)} (hg : (s.pipe p).writeGrant = some .repair)
    (hp : (s.pipe p).repairs = (x, y) :: t) : s.land p .table =
      (s.setPipe p { s.pipe p with granted := (s.pipe p).granted.drop 1, repairs := t }).rewriteEntry p x := by
  unfold State.land
  dsimp only
  rw [hg, hp]
  exact if_pos rfl

end

/-- The removal that ends a move of EM: from the stash, the position alone; from a bucket, with SPILL_CNT of the key's
first bucket, raised in the same write and lowered in a further one (R164). -/
theorem emMoveRemove_whole {s n u v w : State} {a b : Nat} {t rest : List EmStep} {l : List Nat} {key : List Byte}
    (hs : s.em.steps = .moved a b :: t) (hl : s.em.waitFor = some l) (hb : s.emBusy = false)
    (ho : s.anyOffline = false) (hh : s.halting = false) (hd : l.any (fun i => s.emOutstanding.contains i) = false)
    (hn : n = s.normKey (emKey (s.emAll a))) (hrest : rest = t ++ n.em.steps.drop s.em.steps.length)
    (hm : n.moveWhole a b = true) (hk : key = emKey (n.emAll a)) (hu : u = n.setSteps rest) (hv : v = u.emWrite a [])
    (hw : w = if (n.emOuts key).isEmpty && !(v.emOuts key).isEmpty then v.spillUp (n.emB1 key) else v) :
    s.emMoveRemove =
      if emStash0 ≤ a then u.emSlots (.stash (a - emStash0) [])
      else (if !(n.emOuts key).isEmpty && (v.emOuts key).isEmpty then w.setSteps (.lower (n.emB1 key) :: rest)
        else w).emSlots (.em key) := by
  subst hw hv hu hk hrest
  unfold State.emMoveRemove
  rw [hs, hl]
  dsimp only
  rw [hb, ho, hh, hd, ← hn, hm, if_neg (by simp), if_neg (by simp)]
  simp only [Bool.not_not]

/-- A saturated spill count is counted again from the table (R160, R245). -/
theorem exec_spillCntRecount {s : State} {k : BitVec 24} (h : s.spillCnt k.toNat = 15 ∧ s.anyOffline = false ∧
    s.rdb wMint Reg.MINT_STATUS_DEFERRING = false ∧ s.dutyRuns 9 = true) :
    exec (.spillCntRecount k) s = .next (s.setSpill k.toNat (min 15 (s.spillTrue k.toNat))) :=
  congrArg Host.Outcome.next (if_pos h)

/-- Settles O32: the three landing rows are `State.land` for their kind of write. -/
theorem tableWrites : Obligations.TableWrites := by
  refine ⟨?tableUnit, ?tableArbiter, ?normUnit, ?normArbiter, ?moveUnit, ?moveArbiter, ?repair, ?wait, fun _ _ => rfl,
    ?remove, fun _ _ h => exec_spillCntRecount h⟩
  case tableUnit => exact fun s p w hg hw hr => congrArg Host.Outcome.next (land_unit (row := .table) hg hw hr)
  case tableArbiter => exact fun s p w hg hw hr => congrArg Host.Outcome.next (land_arbiter (row := .table) hg hw hr)
  case normUnit => exact fun s p w hg hw hr => congrArg Host.Outcome.next (land_unit (row := .norm) hg hw hr)
  case normArbiter => exact fun s p w hg hw hr => congrArg Host.Outcome.next (land_arbiter (row := .norm) hg hw hr)
  case moveUnit => exact fun s p w hg hw hr => congrArg Host.Outcome.next (land_unit (row := .moveDelete) hg hw hr)
  case moveArbiter =>
    exact fun s p w hg hw hr => congrArg Host.Outcome.next (land_arbiter (row := .moveDelete) hg hw hr)
  case repair => exact fun s p x y t hg hp => congrArg _ (land_repair hg hp)
  case wait => exact fun s p => ⟨rfl, rfl⟩
  case remove =>
    rintro s n u v w a b t rest l key ⟨hs, hl⟩ ⟨hb, ho, hh, hd⟩ ⟨hn, hrest, hm, hk⟩ hu hv hw
    exact congrArg (fun x => Host.Outcome.next (State.giveUndo x))
      (emMoveRemove_whole hs hl hb ho hh hd hn hrest hm hk hu hv hw)

end Sys2Proof.Machine
end

section
/-!
PROOFS. The time bus and Thyme's outputs (ch. 1 and 12), then the obligation on them.
-/
namespace Sys2Proof.Machine

/-- A broadcast outside COLD ends the running 1,024 cycles and then takes the waiting adjustments (R35, R36). -/
theorem timeBus_live {s : State} (h : s.devState ≠ 0) :
    s.timeBus = ((s.pass (1024 - s.clock.up % 1024)).broadcast).avsFused := if_neg h

/-- The edge that has fallen due on an output (R372). -/
theorem pulseEdge_due {s : State} {i : Nat} {a : Int}
    (ha : (s.pulse i).edgeAt (if (s.pulseSt i).high then (s.pulseSt i).next - 1 else (s.pulseSt i).next)
      (s.pulseSt i).high = a)
    (hd : a ≤ s.eighths + 16)
    (hh : (s.pulseSt i).high = true ∨ s.rdb (toutBase i) Reg.THYME_TOUT_STATUS_ACTIVE = true) :
    s.pulseEdge i = if (s.pulseSt i).high then s.trailing i a else s.leading i := by
  unfold State.pulseEdge
  dsimp only
  rw [ha, if_neg (by omega)]
  rcases hh with hh | hh
  · rw [if_pos hh, if_pos hh]
  · rw [if_pos hh]

/-- The pulse of 1PPS_OUT at a second boundary, while its gate is open (R378). -/
theorem ppsOut_due {s : State} {gate : Nat} {comp t a : Int} (hg : gate = bits (s.ioWord 5 0) 11 10)
    (he : s.ioEnable 5 = true) (ho : gate = 0 ∨ (gate = 1 ∧ 2 ≤ s.holdState) ∨ (gate = 2 ∧ s.holdState = 2))
    (hc : comp = sInt 16 (bits (s.ioWord 5 2) 15 0)) (ht : t = s.eighths - comp + 16) (hd : t % (8 * 10 ^ 9) ≤ 32)
    (ha : a = t - t % (8 * 10 ^ 9) + comp) : s.ppsOut =
      if s.ioWord 5 1 = 0 then s.count 151 8 1
      else (State.driveAt { s.count 151 8 1 with
        thyme := { (s.count 151 8 1).thyme with ppsEnd := a + (8 * s.ioWord 5 1 : Nat) } } 8 ((s.ioWord 5 0).testBit 9)
          true a).driveAt 8 ((s.ioWord 5 0).testBit 9) false (a + (8 * s.ioWord 5 1 : Nat)) := by
  subst ha ht hc hg
  unfold State.ppsOut
  exact if_pos ⟨he, ho, hd⟩

/-- The first bit of a message, at TX_OFFSET_NS after its second or later (R379). -/
theorem todStart_due {s : State} {x : TodSt} (hx : s.thyme.todTx = some x) (h0 : x.started = false)
    (ht : (x.sec * 10 ^ 9 + s.ioWord 7 2) * unitNs ≤ s.counter) : s.todStart =
      State.emit { s with thyme := { s.thyme with todTx := some { x with started := true } } } (.tod x.bytes) := by
  unfold State.todStart
  rw [hx]
  exact if_neg (fun h => h.elim (fun h1 => Bool.false_ne_true (h0.symm.trans h1)) (Nat.not_lt.2 ht))

/-- The last byte of a message completes its command (R379). -/
theorem todDone_started {s : State} {x : TodSt} (hx : s.thyme.todTx = some x) (h1 : x.started = true) : s.todDone =
    (({ s with thyme := { s.thyme with todTx := none } } : State).wr wThyme Reg.THYME_STATUS_TOD_TX_BUSY 0).complete
      x.job St.SUCCESS (leBytes 6 x.sec) := by
  unfold State.todDone
  rw [hx]
  exact if_pos h1

/-- Settles O46: each clause is its row's operation at the instant that the clause describes. -/
theorem thymeOutputs : Obligations.ThymeOutputs := by
  refine ⟨fun s h => congrArg _ (timeBus_live h), ?edge, ?pps, ?start, ?done, fun _ => rfl⟩
  case edge => exact fun s i a ha hd hh => congrArg _ (pulseEdge_due (edgeAt_eq ha) hd hh)
  case pps => exact fun s gate comp t a hg h hc ht hd ha => congrArg _ (ppsOut_due hg h.1 h.2 hc ht hd ha)
  case start => exact fun s x hx h => congrArg _ (todStart_due hx h.1 h.2)
  case done => exact fun s x hx h => congrArg _ (todDone_started hx h)

end Sys2Proof.Machine
end

section
/-!
PROOFS. Faults, the safe state, the debug lifecycle and the debug port (ch. 21), then the obligation on them.
-/
namespace Sys2Proof.Machine

/-! ### Faults and the safe state (R602, R606, R608, R610) -/

/-- Sources that a window has occur: LIVE follows them, and STATUS is set (R602, R605). -/
theorem occurrence_of_source {s : State} {w : FWin} {mask : Nat} (live ended : Nat) (info : Nat → Nat)
    (he : s.winExists w = true) (hd : s.devState ≠ 0) (hm : mask &&& s.winSources w ≠ 0) :
    s.occurrence w mask live ended info = ((s.wr (s.winBase w) Reg.FLT_LIVE_LIVE
      (((s.rd (s.winBase w) Reg.FLT_LIVE_LIVE ||| (live &&& mask)) &&& (2 ^ 32 - 1 - (ended &&& (2 ^ 32 - 1)))) &&&
        s.winSources w)).bankLost w mask (info 3)).faultsW wh2 w mask info false := by
  unfold State.occurrence
  rw [if_neg (by simp [he, hd])]
  exact if_neg hm

/-- A miscompare leaves STATUS and FAULT_FIRST of the window free and raises the line (R608). -/
theorem copyMiscompare_live {s : State} {w : FWin} (he : s.winExists w = true) (hd : s.devState ≠ 0) :
    s.copyMiscompare w = (fun a f : BitVec 32 × State => (((f.2.wr (s.winBase w) Reg.FLT_STATUS_STATUS (a.1.toNat &&&
      s.winSources w)).setReg (s.winBase w + 0xF014) (f.1.toNat &&& 0xF800001F)).miscompare w).updateWin w) (s.draw 32)
        ((s.draw 32).2.draw 32) := if_neg (by simp [he, hd])

/-- With the line up, the device reaches SAFE and its blocks stop (R610). -/
theorem safeReached_of_line {s u : State} (hl : s.dev.safeLine = true) (h5 : s.devState ≠ 5) (h0 : s.devState ≠ 0)
    (hu : u = forEach (rangeFrom 0 8) (fun p t => (t.searchesSafe p).tenonSafe p) ((s.changeState s.devState 5).event
      Ev.SAFE_ENTERED 0 s.dev.safeKind s.dev.safeBlock s.dev.safeSrc)) :
    s.safeReached = (((((u.updatesSafe).svcSafe).holdSafe).freqSafe).wr wRidge Reg.RIDGE_STATUS_AUDIT_ACTIVE 0) := by
  rw [hu]
  exact if_neg (by simp [hl, h5, h0])

/-- OWNER_LINK has two bits (R405). -/
theorem owner_lt (s : State) : s.owner < 4 := Nat.mod_lt _ (by decide)

/-- FAULT_FN_MASK writes MASK bits 3 to 0 of its issuer's window (R606, R618). -/
theorem faultFnMask_eq {b : State} {j : Job} (f : Fin 256) (hf : b.jobFn j = f.val) : faultFnMask j b = okRes
    ((b.wr (b.fnBase f.val) Reg.FLT_MASK_MASK (b.rd (b.fnBase f.val) Reg.FLT_MASK_MASK / 16 * 16 + j.le 8 4 % 16))
      |>.updateWin (if f.val = b.owner then .hif else .fn f)) [] := by
  unfold faultFnMask
  dsimp only
  rw [hf, dif_pos f.isLt]
  rfl

/-! ### Nonces and the debug lifecycle (R615 to R618) -/

/-- A nonce made outside lockout is live (R617). -/
theorem newNonce_open {s : State} (h : s.rdb wSec Reg.SEC_STATUS_LOCKOUT = false) : s.newNonce =
    (some (leBytes 32 (s.draw 256).1.toNat), (s.draw 256).2.setNonce (some (leBytes 32 (s.draw 256).1.toNat))) :=
  if_neg (by simp [h])

/-- In lockout no nonce is made (R616). -/
theorem newNonce_lockout {s : State} (h : s.rdb wSec Reg.SEC_STATUS_LOCKOUT = true) : s.newNonce = (none, s) := if_pos h

theorem secChallenge_open {b : State} {j : Job} (h : b.rdb wSec Reg.SEC_STATUS_LOCKOUT = false) :
    secChallenge j b = okRes (((b.draw 256).2.setNonce (some (leBytes 32 (b.draw 256).1.toNat))).jobWrite j j.hostAddr
      (leBytes 32 (b.draw 256).1.toNat)) [] := by
  unfold secChallenge
  rw [newNonce_open h]
  rfl

theorem secChallenge_lockout {b : State} {j : Job} (h : b.rdb wSec Reg.SEC_STATUS_LOCKOUT = true) :
    secChallenge j b = failA b St.SEC_LOCKOUT := by
  unfold secChallenge
  rw [newNonce_lockout h]

/-- SEC_RESPONSE reads the owner's key and signature, and ends as the response r to them does (R617). -/
theorem secResponse_eq {b u : State} {j : Job} {d : List Byte} {r : State × Nat}
    (hd : d = b.hostRd (b.jobLink j) j.hostAddr 193) (hu : u = b.countMoved 30 193)
    (hr : u.response 0 (j.le 8 4) (d.take 97) (d.drop 97) = r) : secResponse j b =
      if r.2 = St.SUCCESS then okRes r.1 (leBytes 1 r.1.lifecycle) else failA r.1 r.2 := by
  rw [← hr, hu, hd]
  rfl

/-- A nonce is gone 60 s after its issue (R617). -/
theorem nonceDue_expired {s : State} (h1 : s.dev.sec.nonce.isSome = true)
    (h2 : s.since (some s.dev.sec.nonceAt) (60 * 10 ^ 9) = true) : s.nonceDue = s.setNonce none :=
  if_pos (by rw [h1, h2]; rfl)

/-- SEC_LOCK in OPEN with its word blows the fuse and closes debug (R616, R618). -/
theorem secLock_open {b : State} {j : Job} (h : b.lifecycle = 0 ∧ j.le 8 4 = 0x4C4F434B) : secLock j b = okRes
    (((({ b with dev := { b.dev with fuses := { b.dev.fuses with locked := true } } } : State).wr wSec
      Reg.SEC_STATUS_LIFECYCLE 1).closeDebug).event Ev.LIFECYCLE_LOCKED 0 0 0 0) [] := if_neg (by simp [h.1, h.2])

/-- A key slot is revoked while another one is left, or again (R618). -/
theorem secRevoke_ok {b : State} {j : Job} (h0 : j.byte 0 4 = 0) (hk : j.byte 0 5 < 4)
    (hr : (b.keySlot (j.byte 0 5)).revoked = true ∨
      (rangeFrom 0 4).any (fun i => decide (i ≠ j.byte 0 5) && !(b.keySlot i).revoked) = true) :
    secRevoke j b = okRes { b with dev := { b.dev with fuses := { b.dev.fuses with
      slots := tabSet (fun _ => {}) b.dev.fuses.slots (j.byte 0 5)
        { b.keySlot (j.byte 0 5) with revoked := true } } } } [] := by
  refine if_neg ?_
  rintro (h | h | ⟨h1, h2⟩)
  · omega
  · omega
  · rcases hr with hr | hr
    · exact Bool.false_ne_true (h1.symm.trans hr)
    · exact Bool.false_ne_true (h2.symm.trans hr)

/-- The version floor does not fall (R618). -/
theorem secFloor_ok {b : State} {j : Job} (h : b.dev.fuses.floor ≤ j.le 8 4) : secFloor j b = okRes
    { b with dev := { b.dev with fuses := { b.dev.fuses with floor := j.le 8 4 } } } [] := if_neg (Nat.not_lt.2 h)

/-! ### The exchange and the debug port over JTAG (R616, R617) -/

theorem jtagSec_challenge {s : State} (hd : s.devState ≠ 0) (h : s.rdb wSec Reg.SEC_STATUS_LOCKOUT = false) :
    s.jtagSec .challenge = ((s.draw 256).2.setNonce (some (leBytes 32 (s.draw 256).1.toNat))).emit
      (.jtag (leBytes 32 (s.draw 256).1.toNat)) := by
  unfold State.jtagSec
  rw [if_neg hd]
  dsimp only
  rw [newNonce_open h]

theorem jtagSec_response {s : State} (hd : s.devState ≠ 0) (scope : Word32) (key sig : List Byte) :
    s.jtagSec (.response scope key sig) = (s.response 1 scope.toNat key sig).1 := if_neg hd

section
variable {s : State} (h : s.debugOpen = true) (e : Fin 528)
include h

theorem jtag_halt (hh : s.dev.halted.contains e.val = false) :
    s.jtag (.halt e) = { s with dev := { s.dev with halted := e.val :: s.dev.halted } } := if_neg (by rw [h, hh]; simp)

theorem jtag_resume : s.jtag (.resume e) = { s with
    dev := { s.dev with halted := s.dev.halted.erase e.val, stepping := s.dev.stepping.erase e.val } } :=
  if_neg (by simp [h])

theorem jtag_step (hh : s.dev.halted.contains e.val = true) (hs : s.dev.stepping.contains e.val = false) :
    s.jtag (.step e) = { s with dev := { s.dev with stepping := e.val :: s.dev.stepping } } :=
  if_neg (by rw [h, hh, hs]; simp)

theorem jtag_readReg (r : Fin 16) : s.jtag (.readReg e r) =
    s.emit (.jtag (leBytes 8 ((s.engine (e.val / 64) (e.val % 64)).reg r.val).toNat)) := if_neg (by simp [h])

theorem jtag_readStore (other : Bool) (w : BitVec 14) : s.jtag (.readStore e other w) =
    s.emit (.jtag (s.storeWordOf e.val other w.toNat)) := if_neg (by simp [h])

end

/-- Settles O60: the rows of faults and security in the cases that their conditions allow. -/
theorem faultsAndSecurity : Obligations.FaultsAndSecurity := by
  refine ⟨?occurrence, ?miscompare, ?safe, ?maskOwner, ?maskFn, fun s b j h => jobRow_ok h rfl, ?challenge, ?lockout,
    ?response, ?jtagChallenge, ?jtagResponse, ?expiry, ?lock, ?revoke, ?floor, fun s b j h => jobRow_ok h rfl, ?halt,
    ?resume, ?step, ?readReg, ?readStore⟩
  case occurrence =>
    rintro s u w mask live ended info ⟨he, hd, hm⟩ rfl
    exact congrArg _ (occurrence_of_source _ _ _ he hd hm)
  case miscompare => exact fun s w h => congrArg _ (copyMiscompare_live h.1 h.2)
  case safe => exact fun s u h hu => congrArg _ (safeReached_of_line h.1 h.2.1 h.2.2 hu)
  case maskOwner =>
    rintro s b j m x h ⟨rfl, rfl⟩ hf
    have ho : b.owner < 256 := Nat.lt_trans (owner_lt b) (by decide)
    refine jobRow_ok h ((faultFnMask_eq ⟨b.owner, ho⟩ hf).trans ?_)
    rw [if_pos rfl, hf]
  case maskFn =>
    rintro s b j f x h ⟨hf, hne⟩ rfl
    refine jobRow_ok h ((faultFnMask_eq f hf).trans ?_)
    rw [if_neg hne]
  case challenge =>
    rintro s b j n u h hl rfl rfl
    exact jobRow_ok h (secChallenge_open hl)
  case lockout => exact fun s b j h hl => jobRow_fail h (secChallenge_lockout hl)
  case response =>
    rintro s b j u d n key sig scope h ⟨hd, rfl, rfl, rfl⟩ ⟨hu, hl, hn⟩ hk
    have hne : St.SIG_INVALID ≠ St.SUCCESS := by decide
    have e := response_live (sig := d.drop 97) 0 (j.le 8 4) hl hn hk
    split
    next hok => exact jobRow_ok h ((secResponse_eq hd hu (e.trans (if_pos hok))).trans (if_pos rfl))
    next hok => exact jobRow_fail h ((secResponse_eq hd hu (e.trans (if_neg hok))).trans (if_neg hne))
  case jtagChallenge => exact fun s h => congrArg _ (jtagSec_challenge h.1 h.2)
  case jtagResponse =>
    rintro s scope key sig n ⟨hd, hl, hn⟩ hk
    refine congrArg _ ((jtagSec_response hd scope key sig).trans ?_)
    rw [response_live 1 scope.toNat hl hn hk]
    exact apply_ite Prod.fst _ _ _
  case expiry => exact fun s h => congrArg _ (nonceDue_expired h.1 h.2)
  case lock =>
    rintro s b j u h hc rfl
    exact jobRow_ok h (secLock_open hc)
  case revoke =>
    rintro s b j k h0 h ⟨rfl, hk⟩ hr
    exact (opRow_eq (by simp [h0])).trans (jobRow_ok h (secRevoke_ok h0 hk hr))
  case floor =>
    rintro s b j v h1 h ⟨rfl, hv⟩
    exact (opRow_eq (by simp [h1])).trans (jobRow_ok h (secFloor_ok hv))
  case halt => exact fun s e h => congrArg _ (jtag_halt h.1 e h.2)
  case resume => exact fun s e h => congrArg _ (jtag_resume h e)
  case step => exact fun s e h => congrArg _ (jtag_step h.1 e h.2.1 h.2.2)
  case readReg => exact fun s e r h => congrArg _ (jtag_readReg h e r)
  case readStore => exact fun s e other w h => congrArg _ (jtag_readStore h e other w)

end Sys2Proof.Machine
end

section
/-!
PROOFS. The commands of a front port (ch. 2), then the obligations on them.
-/
namespace Sys2Proof.Machine

/-! ### The flag of a port command -/

theorem bit_of_byte_one {j : Job} (h : j.byte 0 6 = 1) : j.bit 6 0 = true := by
  unfold Job.bit
  rw [h]
  rfl

section
variable {b : State} {j : Job} {n : Nat} (hn : n = j.le 4 2 ∧ n < 128 ∧ b.portHolder n = b.jobFn j)
include hn

/-! ### EXPRESS against EEE and PFC, and the settings of PFC (R52, R54, R60) -/

/-- EEE_EN is not set on an express port (R52). -/
theorem portEeeSet_express (hr : j.only [(4, 3), (8, 4)] = true ∧ j.byte 0 6 = 1) (hx : (b.settled n).express n = true) :
    portEeeSet j b = failA b St.EXPRESS_CONFLICT := by
  refine (portGate_ok hn _).trans ?_
  dsimp only
  rw [if_neg (by simp [hr]), if_pos ⟨bit_of_byte_one hr.2, hx⟩]

/-- EXPRESS is not set on a port with EEE_EN, nor on one with a PFC enable of TC 14 or 15 (R52, R60). -/
theorem portExpressSet_conflict (hr : j.only [(4, 3)] = true ∧ j.byte 0 6 = 1)
    (hx : (b.settled n).rdb (wPort n) Reg.PORT_CFG_EEE_EN = true ∨ expressPfcBad (b.prioOf n 14) (b.prioOf n 15)
      (b.rd (wPort n) Reg.PORT_PFC_CFG_PFC_TX_EN) (b.rd (wPort n) Reg.PORT_PFC_CFG_PFC_RX_EN) = true) :
    portExpressSet j b = failA b St.EXPRESS_CONFLICT := by
  refine (portGate_ok hn _).trans ?_
  dsimp only
  rw [if_neg (by simp [hr]), if_pos ⟨bit_of_byte_one hr.2, .inr hx⟩]

section
variable {nib : Nat → Nat} (hnib : ∀ t, nib t = j.bits (10 + t / 2) (4 * (t % 2) + 3) (4 * (t % 2)))
  (hr : j.len = 2 ∧ j.flagsPlain = true ∧ j.byte 0 6 < 3 ∧ j.byte 0 7 = 0 ∧ j.zero 1 4 2 = true ∧ j.zero 1 8 24 = true)
  (h8 : ((rangeFrom 0 16).any fun t => decide (8 ≤ nib t)) = false)
include hnib hr h8

/-- A PFC enable of TC 14 or 15 is not set on an express port (R60). -/
theorem portPfcSet_express (hx : (b.settled n).express n = true ∧
      expressPfcBad (nib 14) (nib 15) (j.byte 0 8) (j.byte 0 9) = true) :
    portPfcSet j b = failA b St.EXPRESS_CONFLICT := by
  obtain rfl : nib = _ := funext hnib
  obtain ⟨h1, h2, h3, h4, h5, h6⟩ := hr
  refine (portGate_ok hn _).trans ?_
  extract_lets
  rw [if_neg (by rw [h8]; simp [h1, h2, h3, h4, h5, h6]), if_pos hx]

/-- PORT_PFC_SET that R60 allows, where the accounts fit (R54, R57, R76). -/
theorem portPfcSet_ok {quanta : Nat → Nat} {u v x : State}
    (hq : ∀ k, quanta k = if k = 0 then j.leAt 1 6 2 else j.le (16 + 2 * k) 2)
    (hx : (b.settled n).express n = true → expressPfcBad (nib 14) (nib 15) (j.byte 0 8) (j.byte 0 9) = false)
    (hu : u = forEach (rangeFrom 0 8) (fun k s => s.wr (wPort n + 4 * k) Reg.PORT_PFC_QUANTA_QUANTA (quanta k))
      (forEach (rangeFrom 0 16) (fun t s => s.wr (wPort n) (Reg.PORT_PFC_MAP_TC t) (nib t))
        (((b.wr (wPort n) Reg.PORT_CFG_PAUSE_MODE (j.byte 0 6)).wr (wPort n) Reg.PORT_PFC_CFG_PFC_TX_EN
          (j.byte 0 8)).wr (wPort n) Reg.PORT_PFC_CFG_PFC_RX_EN (j.byte 0 9))))
    (hv : (u.autoHdrm n).reshare = some v) (hxx : x = (v.lossyXon n).xonAll) :
    portPfcSet j b = okRes ((x.setPort n { x.port n with
      changed := (x.port n).changed ||| ((x.port n).sentXoff ^^^ x.xoffMask n) }).pauseReport n) [] := by
  obtain rfl : nib = _ := funext hnib
  obtain rfl : quanta = _ := funext hq
  obtain ⟨h1, h2, h3, h4, h5, h6⟩ := hr
  subst hu hxx
  refine (portGate_ok hn _).trans ?_
  extract_lets p nib quanta s1 s2 s3
  rw [if_neg (by rw [h8]; simp [h1, h2, h3, h4, h5, h6]),
    if_neg (fun h => Bool.false_ne_true ((hx h.1).symm.trans h.2)),
    show s3.withHeadroom n [] b = _ from withHeadroom_ok hv [] b]
  rfl

end

/-! ### Settings and queries -/

/-- PORT_CONFIG of a mode that the port can run, where its accounts fit (R43, R44, R69, R77). -/
theorem portConfig_ok {w : Nat} {u v : State} (hr : j.only [(4, 7), (12, 6)] = true ∧ j.byte 0 9 < 16 ∧
      j.byte 0 10 < 32 ∧ j.bits 10 4 2 < 4 ∧ 64 ≤ j.le 6 2 ∧ j.le 6 2 ≤ 16384)
    (hm : modeOk (j.byte 0 8) = true ∧ modeFits n (j.byte 0 8) = true ∧ fecOk (j.byte 0 8) (j.bits 9 3 0) = true)
    (hg : 13 ≤ n % 16 → groupActive (b.groupMode n) (n % 16) = true ∧ j.byte 0 8 = b.groupMode n)
    (hl : n % 16 = 12 → j.byte 0 8 = b.cfgMode n ∨ (rangeFrom (16 * (n / 16) + 13) 3).any b.enabled = false)
    (hx : (b.settled n).express n = true → expressMode (j.byte 0 8) (j.bits 9 3 0) = true)
    (hw : w = setBits (setBits (setBits (setBits (setBits (b.reg (wPort n)) 24 24 (j.bits 10 0 0)) 23 23
      (j.bits 10 1 1)) 22 20 (j.bits 10 4 2)) 19 16 (j.bits 9 3 0)) 15 8 (j.byte 0 8))
    (hu : u = (((b.setReg (wPort n) w).wr (wPort n) Reg.PORT_FRAME_MAX_FRAME (j.le 6 2)).wr (wPort n)
      Reg.PORT_MAC_ADDR_LO_MAC_ADDR (beNat (j.bytes 0 12 6) % 2 ^ 32)).wr (wPort n) Reg.PORT_MAC_ADDR_HI_MAC_ADDR
      (beNat (j.bytes 0 12 6) / 2 ^ 32)) (hv : (u.autoHdrm n).reshare = some v) :
    portConfig j b = okRes (if w = b.reg (wPort n) ∨ (v.lossyXon n).xonAll.enabled n = false then
      (v.lossyXon n).xonAll else (v.lossyXon n).xonAll.restartLink n) [] := by
  subst hu hw
  obtain ⟨hm1, hm2, hm3⟩ := hm
  obtain ⟨h1, h2, h3, h4, h5, h6⟩ := hr
  have hg' : ¬(13 ≤ n % 16 ∧ (groupActive (b.groupMode n) (n % 16) = false ∨ j.byte 0 8 ≠ b.groupMode n)) := by
    rintro ⟨hk, hc | hc⟩
    · exact Bool.false_ne_true (hc.symm.trans (hg hk).1)
    · exact hc (hg hk).2
  have hl' : ¬(n % 16 = 12 ∧ j.byte 0 8 ≠ b.cfgMode n ∧
      (rangeFrom (16 * (n / 16) + 13) 3).any b.enabled = true) := by
    rintro ⟨hk, hc, ha⟩
    exact (hl hk).elim hc (fun h => Bool.false_ne_true (h.symm.trans ha))
  refine (portGate_ok hn _).trans ?_
  dsimp only
  rw [if_neg (by rw [h1]; simp; omega), if_neg (by simp [hm1]), if_neg hg', if_neg (by simp [hm2]), if_neg hl',
    if_neg (by simp [hm3]), if_neg (fun h => by simp [hx h.1] at h), withHeadroom_ok hv]
  simp only [decide_eq_true_eq]
  rfl

/-- PORT_ENABLE (R48, R78). -/
theorem portEnable_ok (hr : j.only [(4, 3)] = true ∧ j.byte 0 6 < 2)
    (ho : j.bit 6 0 = true → (13 ≤ n % 16 → groupActive (b.groupMode n) (n % 16) = true) ∧ b.cfgMode n ≠ 0) :
    portEnable j b = okRes ((b.wr (wPort n) Reg.PORT_CFG_ENABLE (b2n (j.bit 6 0))).restartLink n) [] := by
  refine (portGate_ok hn _).trans ?_
  dsimp only
  rw [if_neg (by simp [hr]), if_neg (fun h => by simp [(ho h.1).1 h.2.1] at h), if_neg (fun h => (ho h.1).2 h.2)]
  rfl

/-- PORT_QUERY (R76). -/
theorem portQuery_ok (hr : j.only [(4, 2), (8, 8)] = true) :
    portQuery j b = okRes (b.jobWrite j (j.le 8 8) (b.regBytes (wPort n) 16)) [] :=
  (portGate_ok hn _).trans (if_neg (by simp [hr]))

/-- PORT_CAL within its ranges, of a port in UP where it starts a measurement (R72, R78). -/
theorem portCal_ok {u : State} (hr : j.only [(4, 3), (8, 8)] = true ∧ j.byte 0 6 < 2)
    (hz : -262144 ≤ sInt 32 (j.le 8 4) ∧ sInt 32 (j.le 8 4) ≤ 262143 ∧ -262144 ≤ sInt 32 (j.le 12 4) ∧
      sInt 32 (j.le 12 4) ≤ 262143) (ho : j.bit 6 0 = true → b.portUp n = true)
    (hu : u = ((b.setCal n 4 (sInt 32 (j.le 8 4))).setCal n 5 (sInt 32 (j.le 12 4))).calTotals n) :
    portCal j b = okRes (if j.bit 6 0 then u.setPort n { u.port n with measuring := true } else u) [] := by
  subst hu
  refine (portGate_ok hn _).trans ?_
  dsimp only
  rw [if_neg (by simp [hr]), if_neg (by simp; omega), if_neg (fun h => by simp [ho h.1] at h)]
  rfl

/-- PORT_PREEMPT_SET: the settings are taken (R61 to R63, R77). -/
theorem portPreemptSet_ok {x u v : State} (hr : j.only [(4, 5), (10, 2)] = true ∧ j.byte 0 6 < 4 ∧ j.byte 0 7 < 4 ∧
      j.byte 0 8 ≠ 0 ∧ j.byte 0 8 ≤ 128) (hx : x = if b.portSends n then b.settled n else b)
    (hu : u = ((((x.wr (wPort n) Reg.PORT_CFG_PREEMPT_EN (j.bits 6 0 0)).wr (wPort n) Reg.PORT_PREEMPT_VERIFY_DIS
      (j.bits 6 1 1)).wr (wPort n) Reg.PORT_PREEMPT_FRAG_ADD_FRAG_SIZE (j.byte 0 7)).wr (wPort n)
      Reg.PORT_PREEMPT_VERIFY_TIME (j.byte 0 8)).wr (wPort n) Reg.PORT_PREEMPT_EXPRESS_TC (j.le 10 2 ||| 0xC000))
    (hv : ((u.startVerify n).autoHdrm n).reshare = some v) :
    portPreemptSet j b = okRes (if b.portSends n then b.putLater n (.preempt (j.bits 6 0 0) (j.bits 6 1 1) (j.byte 0 7)
      (j.byte 0 8) (j.le 10 2)) else (v.lossyXon n).xonAll) [] := by
  subst hu hx
  obtain ⟨h1, h2⟩ := hr
  refine (portGate_ok hn _).trans ((if_neg ?_).trans (takeSet_ok hv))
  rw [h1]
  simp
  omega

/-- PORT_GCL_LOAD of a list that R78 takes, or of none (R65, R67). -/
theorem portGclLoad_ok {img : List Byte} (hr : j.only [(4, 3), (8, 12)] = true ∧ j.byte 0 6 < 2 ∧ j.le 8 8 % 8 = 0)
    (hi : img = b.hostRd (b.jobLink j) (j.le 8 8) (min (j.le 16 4) 2080))
    (ho : j.bit 6 0 = true → gclBad img (j.le 16 4) = false ∧ gclReserved img = false) :
    portGclLoad j b = okRes (if j.bit 6 0 then (b.countMoved 30 img.length).gclLoad n (some (parseGcl img))
      else b.gclLoad n none) [] := by
  refine (portGate_ok hn _).trans ?_
  extract_lets len image s0
  obtain rfl : img = image := hi
  rw [if_neg (by simp [hr])]
  by_cases hb : j.bit 6 0 = true
  · obtain ⟨h1, h2⟩ := ho hb
    rw [if_pos hb, if_neg (by simp [hb]), if_neg (fun h => Bool.false_ne_true (h1.symm.trans h)),
      if_neg (fun h => Bool.false_ne_true (h2.symm.trans h))]
    rfl
  · rw [if_neg hb, if_pos (Bool.eq_false_iff.2 hb)]
    rfl

/-- PORT_GCL_QUERY of the operational list (R76). -/
theorem portGclQuery_operational {g : Gcl} (hr : j.only [(4, 2), (8, 8)] = true) (hg : (b.port n).gcl = some g)
    (hp : (b.port n).pending = none) : portGclQuery j b = okRes (b.jobWrite j (j.le 8 8) (g.image ++ [])) [] := by
  refine (portGate_ok hn _).trans ?_
  dsimp only
  rw [if_neg (by simp [hr]), hg, hp]
  simp [okA, okRes]

/-- PORT_GCL_QUERY of the pending list, with its change time (R76). -/
theorem portGclQuery_pending {g : Gcl} (hr : j.only [(4, 2), (8, 8)] = true) (hg : (b.port n).gcl = none)
    (hp : (b.port n).pending = some g) : portGclQuery j b = okRes (b.jobWrite j (j.le 8 8) (g.image ++
      (leBytes 6 ((b.port n).change / 10 ^ 9) ++ [0, 0] ++ leBytes 4 ((b.port n).change % 10 ^ 9)))) [] := by
  refine (portGate_ok hn _).trans ?_
  dsimp only
  rw [if_neg (by simp [hr]), hg, hp]
  rfl

/-- PORT_EEE_SET: the settings are taken (R50 to R52, R77). -/
theorem portEeeSet_ok {x u v : State} (hr : j.only [(4, 3), (8, 4)] = true ∧ j.byte 0 6 < 2)
    (ho : j.bit 6 0 = true → (b.settled n).express n = false ∧ eeeMode (b.cfgMode n) = true)
    (hx : x = if b.portSends n then b.settled n else b)
    (hu : u = ((x.wr (wPort n) Reg.PORT_CFG_EEE_EN (b2n (j.bit 6 0))).wr (wPort n) Reg.PORT_EEE_LPI_TIMER
      (j.le 8 2)).wr (wPort n) Reg.PORT_EEE_TW_SYS_TX (j.le 10 2))
    (hv : ((if b2n (j.bit 6 0) = 0 ∧ u.rdb (wPort n) Reg.PORT_STATUS_LPI_TX = true then u.wake n else u).autoHdrm
      n).reshare = some v) :
    portEeeSet j b = okRes (if b.portSends n then b.putLater n (.eee (b2n (j.bit 6 0)) (j.le 8 2) (j.le 10 2))
      else (v.lossyXon n).xonAll) [] := by
  subst hu hx
  refine (portGate_ok hn _).trans ?_
  dsimp only
  rw [if_neg (by simp [hr]), if_neg (fun h => by simp [(ho h.1).1] at h), if_neg (fun h => by simp [(ho h.1).2] at h)]
  exact takeSet_ok hv

/-- PORT_EXPRESS_SET that R60 and R69 allow, while no node of the scheduler is set up (R317). -/
theorem portExpressSet_ok (hr : j.only [(4, 3)] = true ∧ j.byte 0 6 < 2)
    (ho : j.bit 6 0 = true → expressMode (b.cfgMode n) (b.cfgFec n) = true ∧
      (b.settled n).rdb (wPort n) Reg.PORT_CFG_EEE_EN = false ∧ expressPfcBad (b.prioOf n 14) (b.prioOf n 15)
        (b.rd (wPort n) Reg.PORT_PFC_CFG_PFC_TX_EN) (b.rd (wPort n) Reg.PORT_PFC_CFG_PFC_RX_EN) = false)
    (hf : j.bit 6 0 = false → b.esch.nodes = []) :
    portExpressSet j b = okRes (if b.portSends n then b.putLater n (.express (b2n (j.bit 6 0)))
      else b.wr (wPort n) Reg.PORT_CFG_EXPRESS (b2n (j.bit 6 0))) [] := by
  refine (portGate_ok hn _).trans ?_
  dsimp only
  rw [if_neg (by simp [hr]), if_neg (fun h => by simp [ho h.1] at h), if_neg (fun h => by simp [hf h.1] at h)]
  rfl

end

/-- Settles O11: the conflict is found before any setting is written, so the job alone completes. -/
theorem expressConflicts : Obligations.ExpressConflicts := by
  refine ⟨?eee, ?expressEee, ?expressPfc, ?pfc⟩
  case eee => exact fun s b j n h hn hr hx => jobRow_fail h (portEeeSet_express hn hr hx)
  case expressEee => exact fun s b j n h hn hr hx => jobRow_fail h (portExpressSet_conflict hn hr (.inl hx))
  case expressPfc => exact fun s b j n h hn hr hx => jobRow_fail h (portExpressSet_conflict hn hr (.inr hx))
  case pfc => exact fun s b j n nib h hn hnib hr h8 hx => jobRow_fail h (portPfcSet_express hn hnib hr h8 hx)

/-- Settles O21: each clause is its command's body on the holder's port. -/
theorem portCommands : Obligations.PortCommands := by
  refine ⟨?config, ?enable, ?query, ?cal, ?pfc, ?preempt, ?gclLoad, ?gclQuery, ?eee, ?express⟩
  case config =>
    exact fun s b j n w u v h hn hr hm hg hl hx hw hu hv => jobRow_ok h (portConfig_ok hn hr hm hg hl hx hw hu hv)
  case enable => exact fun s b j n h hn hr ho => jobRow_ok h (portEnable_ok hn hr ho)
  case query => exact fun s b j n h hn hr => jobRow_ok h (portQuery_ok hn hr)
  case cal => exact fun s b j n u h hn hr hz ho hu => jobRow_ok h (portCal_ok hn hr hz ho hu)
  case pfc =>
    exact fun s b j n nib quanta u v x h hn hnib hq hr h8 hx hu hv hxx =>
      jobRow_ok h (portPfcSet_ok hn hnib hr h8 hq hx hu hv hxx)
  case preempt => exact fun s b j n x u v h hn hr hx hu hv => jobRow_ok h (portPreemptSet_ok hn hr hx hu hv)
  case gclLoad => exact fun s b j n img h hn hr hi ho => jobRow_ok h (portGclLoad_ok hn hr hi ho)
  case gclQuery =>
    exact fun s b j n h hn hr => ⟨fun g hg hp => jobRow_ok h (portGclQuery_operational hn hr hg hp),
      fun g hg hp => jobRow_ok h (portGclQuery_pending hn hr hg hp)⟩
  case eee => exact fun s b j n x u v h hn hr ho hx hu hv => jobRow_ok h (portEeeSet_ok hn hr ho hx hu hv)
  case express => exact fun s b j n h hn hr ho hf => jobRow_ok h (portExpressSet_ok hn hr ho hf)

end Sys2Proof.Machine
end

section
/-!
PROOFS. The link of a front port and its pauses (ch. 2), then the obligations on them.
-/
namespace Sys2Proof.Machine

section
variable {s : State} {n : Nat}

/-! ### Negotiation, training and alignment (R45, R48, R49) -/

/-- Negotiation without a common mode, or without an end, starts again. -/
theorem anResolved_failed (h : s.linkState n = 1 ∧ s.halting = false) (fec pause : Nat) :
    s.anResolved n false fec pause = (s.event Ev.AN_FAILED 0 n 0 0).startState n 1 := by
  unfold State.anResolved
  rw [if_neg (by simp [h]), if_pos rfl]

/-- Negotiation of a common mode resolves the FEC: the configured one, else the negotiated one that the mode permits, else the
mode's default. -/
theorem anResolved_common {fec f : Nat} (h : s.linkState n = 1 ∧ s.halting = false) (pause : Nat)
    (hf : f = if s.cfgFec n ≠ 0xF then s.cfgFec n else if fec ≠ 0xF ∧ fecOk (s.cfgMode n) fec then fec
      else fecDefault (s.cfgMode n)) :
    s.anResolved n true fec pause = (((s.setPort n { s.port n with pauseAble := pause }).wr (wPort n)
      Reg.PORT_STATUS_FEC_RESOLVED f).setLink_ n (if s.rdb (wPort n) Reg.PORT_CFG_LT_EN then 2 else 3)).hdrmMoved n := by
  subst hf
  unfold State.anResolved
  rw [if_neg (by simp [h]), if_neg Bool.false_ne_true.symm]

/-- The training timer expires in training. -/
theorem ltExpiry_training (h : s.linkState n = 2 ∧ s.halting = false) (lane : Nat) :
    s.ltExpiry n lane = (s.event Ev.LT_FAILED 0 n lane 0).startState n
      (if s.rdb (wPort n) Reg.PORT_CFG_AN_EN then 1 else 2) := if_neg (by simp [h])

/-- A port on sound lanes is UP with its alignment (R48, R63, R348, R632). -/
theorem linkUp_aligned {u v : State} (h : s.linkState n = 3 ∧ s.halting = false ∧
      (s.lanesOf n).any s.dev.laneBad.contains = false)
    (hu : u = (s.setLink_ n 4).event Ev.LINK_UP 0 n (s.cfgMode n) (s.rd (wPort n) Reg.PORT_STATUS_FEC_RESOLVED))
    (hv : v = ((u.setPort n { u.port n with
      measuring := true, sentXoff := 0, refresh := 0, changed := u.xoffMask n }).startVerify n).portHeadroom n) :
    s.linkUp n = if v.domain n then v.sendLink n 2 (v.rd (joistBase n) Reg.JOIST_PORT_C_NEXT_SEQ) else v := by
  subst hv hu
  exact if_neg (by simp only [h]; simp)

/-- A port in UP loses its link (R48). -/
theorem linkLoss_up (h : s.linkState n = 4 ∧ s.halting = false) (cause : Nat) : s.linkLoss n cause =
    ((s.leaveUp n (s.firstState n)).startState n (s.firstState n)).event Ev.LINK_DOWN 0 n cause 0 := if_neg (by simp [h])

/-- The VAR measurement of a port that measures ends (R72). -/
theorem varMeasured_measuring (h : s.linkState n = 4 ∧ (s.port n).measuring = true) (rx tx : Int) :
    s.varMeasured n rx tx = (((((s.setCal n 2 rx).setCal n 3 tx).calTotals n).setPort n { s.port n with
      measuring := false }).wr (wPort n) Reg.PORT_STATUS_CAL_DONE 1).event Ev.CAL_DONE 0 n (uNat 32 rx) (uNat 32 tx) :=
  if_neg (by simp [h])

/-! ### Energy-Efficient Ethernet (R50) -/

/-- A port with nothing to send enters low-power idle. -/
theorem lpiEnter_idle (h1 : s.portUp n = true ∧ s.rdb (wPort n) Reg.PORT_CFG_EEE_EN = true ∧
      s.rdb (wPort n) Reg.PORT_STATUS_LPI_TX = false)
    (h2 : s.sending n 0 = none ∧ s.sending n 1 = none ∧ s.chosen n 0 = none ∧ s.chosen n 1 = none)
    (h3 : eeeMode (s.cfgMode n) = true ∧ (s.port n).links = [] ∧ s.resendReady n 0 = none ∧ s.resendReady n 1 = none)
    (h4 : (s.port n).changed = 0 ∧ (s.port n).refresh = 0 ∧ (s.port n).waking = false)
    (h5 : s.ridge.queues.any (fun e => decide (s.qPort e.1 = n ∧ s.blockedBy e.1 = 0)) = false) :
    s.lpiEnter n = (s.wr (wPort n) Reg.PORT_STATUS_LPI_TX 1).portCount n 24 1 := by
  obtain ⟨hup, hen, htx⟩ := h1
  obtain ⟨hs0, hs1, hc0, hc1⟩ := h2
  obtain ⟨hm, hl, hr0, hr1⟩ := h3
  obtain ⟨hc, hr, hw⟩ := h4
  unfold State.lpiEnter
  extract_lets idle
  have hi : idle = true :=
    Bool.and_eq_true_iff.2 ⟨decide_eq_true ⟨hs0, hs1, hc0, hc1, hc, hr, hl, hr0, hr1⟩, by rw [h5]; rfl⟩
  exact if_pos ⟨hup, hen, hm, htx, hi, hw⟩

/-- What the link partner's low-power idle sets and counts. -/
theorem lpiReceived_up (h : s.portUp n = true) (enter : Bool) : s.lpiReceived n enter =
    if enter = true ∧ s.rdb (wPort n) Reg.PORT_STATUS_LPI_RX = false then
      (s.wr (wPort n) Reg.PORT_STATUS_LPI_RX 1).portCount n 25 1
    else s.wr (wPort n) Reg.PORT_STATUS_LPI_RX (b2n enter) := by
  refine (if_neg (by simp [h])).trans ?_
  extract_lets was s1
  by_cases hc : enter = true ∧ was = false
  · rw [if_pos (by simp [hc]), if_pos hc]
    simp only [s1, hc.1, b2n, if_true]
  · rw [if_neg (by simpa using hc), if_neg hc]

/-! ### PAUSE and PFC (R51, R54 to R59) -/

/-- What a port reports to its partner, and what it sends again: the priorities of the next PFC frame (R56, R57). -/
def State.pfcMask (s : State) (n : Nat) : Nat :=
  (rangeFrom 0 8).foldl (fun a j => a + b2n (((((s.port n).changed &&& ((s.port n).sentXoff ^^^ s.xoffMask n)).testBit j &&
    ((s.xoffMask n).testBit j || decide (s.quanta n j ≠ 0))) || (((s.port n).refresh &&& (s.port n).sentXoff &&&
    s.xoffMask n).testBit j && decide (s.quanta n j ≠ 0)))) * 2 ^ j) 0

/-- A change, or a refresh that waited, is reported once the MAC is free; a link in low-power idle wakes first. -/
theorem pfcSend_due (h : s.portUp n = true ∧ s.halting = false ∧ s.macFree n = true ∧ (s.port n).waking = false)
    (hc : (s.port n).changed ≠ 0 ∨ (s.port n).refresh ≠ 0) :
    s.pfcSend n = if s.rdb (wPort n) Reg.PORT_STATUS_LPI_TX then s.wake n
      else if s.pfcMask n = 0 then
        s.setPort n { s.port n with changed := 0, refresh := 0, sentXoff := s.xoffMask n }
      else (s.setPort n { s.port n with changed := 0, refresh := 0, sentXoff := s.xoffMask n }).pauseFrame n
        (s.pfcMask n) (s.xoffMask n) := by
  unfold State.pfcSend
  extract_lets p now d again mask
  obtain ⟨hup, hh, hm, hw⟩ := h
  refine if_neg ?_
  rintro (g | g | ⟨g1, g2⟩ | g | g)
  · exact Bool.false_ne_true (g.symm.trans hup)
  · exact Bool.false_ne_true (hh.symm.trans g)
  · exact hc.elim (fun k => k g1) (fun k => k g2)
  · exact Bool.false_ne_true (g.symm.trans hm)
  · exact Bool.false_ne_true (hw.symm.trans g)

/-- Half of the advertised time passes while XOFF holds. -/
theorem pfcRefresh_due {j : Nat} (h : s.portUp n = true ∧ s.halting = false ∧ (s.port n).sentXoff.testBit j = true ∧
      (s.xoffMask n).testBit j = true ∧ s.quanta n j ≠ 0) :
    s.pfcRefresh n j = if s.macFree n = true ∧ s.rdb (wPort n) Reg.PORT_STATUS_LPI_TX = false ∧
        (s.port n).waking = false then s.pauseFrame n (2 ^ j) (s.xoffMask n)
      else s.setPort n { s.port n with refresh := (s.port n).refresh ||| 2 ^ j } := if_pos h

/-- A PFC frame received on a port in UP. -/
theorem rxPfc_up {u : State} {mode en vec : Nat} {times : List Nat} (h : s.portUp n = true)
    (hu : u = forEach ((rangeFrom 0 8).filter (fun j => vec.testBit j)) (fun j s => s.portCount n (40 + j) 1)
      (s.portCount n 11 1)) :
    s.rxPfc n mode en vec times = if mode ≠ 2 then u else (u.setPort n { u.port n with
      rxPaused := (((rangeFrom 0 8).filter (fun j => vec.testBit j)).filter (fun j => en.testBit j)).foldl
        (fun a j => setBits a j j (b2n (decide (times.getD j 0 ≠ 0)))) (u.port n).rxPaused }).pauseReport n := by
  subst hu
  exact if_neg (by simp [h])

/-- A PAUSE frame received on a port in UP. -/
theorem rxPause_up {u : State} {mode quanta : Nat} (h : s.portUp n = true)
    (hu : u = (s.portCount n 11 1).portCount n 13 1) :
    s.rxPause n mode quanta = if mode ≠ 1 ∨ u.pauseAble n 1 = false then u else
      (u.setPort n { u.port n with rxPauseAll := decide (quanta ≠ 0) }).pauseReport n := by
  subst hu
  exact if_neg (by simp [h])

/-- Another MAC Control frame received on a port in UP. -/
theorem rxControl_up (h : s.portUp n = true) : s.rxControl n = (s.portCount n 11 1).portCount n 14 1 :=
  if_neg (by simp [h])

/-! ### Verification (R62, R63) -/

/-- An interval of a verification passes with no reply. -/
theorem verifyExpiry_verifying (h : s.rd (wPort n) Reg.PORT_STATUS_VERIFY_STATUS = 2) :
    s.verifyExpiry n = if (s.port n).attempts < 3 then s.setPort n { s.port n with attempts := (s.port n).attempts + 1 }
      else ((s.wr (wPort n) Reg.PORT_STATUS_VERIFY_STATUS 4).event Ev.VERIFY_FAILED 0 n 0 0).faultPort n 1 n :=
  if_neg (fun g => g h)

/-- A verification is answered. -/
theorem verified_verifying {u : State} (h : s.rd (wPort n) Reg.PORT_STATUS_VERIFY_STATUS = 2)
    (hu : u = (s.wr (wPort n) Reg.PORT_STATUS_VERIFY_STATUS 3).wr (wPort n) Reg.PORT_STATUS_PREEMPT_ACTIVE 1)
    (frag : Nat) : s.verified n frag = (u.setPort n { u.port n with txFrag := some frag }).portHeadroom n := by
  subst hu
  exact if_neg (fun g => g h)

/-! ### Gate control lists (R66 to R68) -/

/-- The pending list becomes operational at its change time. -/
theorem gclChange_due {u : State} {g : Gcl} (hp : (s.port n).pending = some g) (ht : (s.port n).change ≤ s.nowNs)
    (hu : u = ((s.setPort n { s.port n with
      gcl := some g, gclStart := (s.port n).change, pending := none, entry := g.entries.length - 1 }).wr (wPort n)
        Reg.PORT_STATUS_GCL_ACTIVE 1).wr (wPort n) Reg.PORT_STATUS_GCL_PENDING 0) :
    s.gclChange n = (u.gclApply n).event Ev.GCL_CHANGED 0 n ((s.port n).change % 10 ^ 9) 0 := by
  subst hu
  unfold State.gclChange
  extract_lets p
  rw [show p.pending = some g from hp]
  exact if_neg (Nat.not_lt.2 ht)

/-- The operational list puts its entry of the present time in force. -/
theorem gclApply_put {g : Gcl} (hg : (s.port n).gcl = some g) :
    s.gclApply n = s.gclPut n (g.at (s.port n).changeAt s.nowNs).1 (g.at (s.port n).changeAt s.nowNs).2.1
      (if g.entries = [] then (s.port n).hold
        else (g.passed (s.port n).entry (g.at (s.port n).changeAt s.nowNs).1).foldl (fun h x => holdAfter h x.2.1)
          (s.port n).hold) := by
  unfold State.gclApply
  extract_lets p
  rw [show p.gcl = some g from hg]

/-- The operational list puts the entry of the present time in force, with the hold that the entries passed leave. -/
theorem gclApply_of_list {u : State} {g : Gcl} {e : Nat} {hold : Bool} (hg : (s.port n).gcl = some g)
    (he : e = (g.at (s.port n).changeAt s.nowNs).1)
    (hh : hold = if g.entries = [] then (s.port n).hold
      else (g.passed (s.port n).entry e).foldl (fun h x => holdAfter h x.2.1) (s.port n).hold)
    (hu : u = s.setPort n { s.port n with
      entry := e, gates := (g.at (s.port n).changeAt s.nowNs).2.1, hold := hold }) :
    s.gclApply n = if hold && !(s.port n).hold then
      (if s.preempting n && !s.uncuttable n then u.fragment n 0 else u).portCount n 22 1 else u := by
  subst hu hh he
  exact gclApply_put hg

/-! ### The end of a frame (R271, R577) -/

/-- A frame that has ended, or is bad, does not hold its transmission up. -/
theorem not_frameWaits {f : Frame} {y : Bool} (h : f.ended = true ∨ f.bad ≠ 0) (hy : y = false) :
    ¬((f.ended = false ∧ f.bad = 0) ∨ y = true) := by
  subst hy
  rcases h with h | h <;> simp [h]

/-- The counts of a frame sent whole, and what a frame that was cut through takes from its queue at its end. -/
def State.sentCounted (s : State) (n : Nat) (x : Sending) (len : Nat) : State :=
  if x.copy.cut = true ∧ x.resend = false then
    (((s.count (256 + x.q / 256) (2 * (x.q % 256)) 1).count (256 + x.q / 256) (2 * (x.q % 256) + 1) len).commit x.q
      len).passLost n
  else (s.count (256 + x.q / 256) (2 * (x.q % 256)) 1).count (256 + x.q / 256) (2 * (x.q % 256) + 1) len

/-- A frame that leaves the device is counted, is captured and sampled as it was sent, and releases its record unless link
retransmit keeps it. -/
theorem txEnd_out {m len : Nat} {u v : State} {x : Sending} {l : List Byte} {d : Int} {one : Bool}
    (hx : s.sending n m = some x) (h : ((s.frame x.copy.frame).ended = true ∨ (s.frame x.copy.frame).bad ≠ 0) ∧
      s.yields n m = false ∧ ¬(132 ≤ n ∧ n < 140)) (ho : (u, l, d, one, len) = s.sendOut n x)
    (hv : v = (((if n < 128 then (u.sentCounted n x len).countBytes n 1 len else u.sentCounted n x len).txCapture n
      (s.frame x.copy.frame) x l d one).offerTx n x.copy.frame l).setSending n m none) :
    s.txEnd n m = if x.seq.any (fun k => (v.jport n).kept.any (fun e => decide (e.1 = k))) then v
      else v.unref x.copy.frame := by
  subst hv
  unfold State.txEnd
  rw [hx]
  dsimp only
  rw [if_neg (not_frameWaits h.1 h.2.1), if_neg h.2.2, ← ho]
  cases x.seq <;> rfl

/-- A frame of a recirculation port goes round again. -/
theorem txEnd_recirculates {m len : Nat} {u : State} {x : Sending} {l : List Byte} (hx : s.sending n m = some x)
    (h : ((s.frame x.copy.frame).ended = true ∨ (s.frame x.copy.frame).bad ≠ 0) ∧ s.yields n m = false ∧ 132 ≤ n ∧
      n < 140) (ho : (l, u) = s.leaveInner n x ∧ len = l.length + 4) :
    s.txEnd n m = (((u.count (256 + x.q / 256) (2 * (x.q % 256)) 1).count (256 + x.q / 256) (2 * (x.q % 256) + 1)
      len).setSending n m none).recirculate n x l := by
  obtain ⟨ho, rfl⟩ := ho
  unfold State.txEnd
  rw [hx]
  dsimp only
  rw [if_neg (not_frameWaits h.1 h.2.1), if_pos h.2.2, ← ho]

end

/-- Settles O22: each clause is its event's operation on a link in the state that awaits it. -/
theorem portLink : Obligations.PortLink := by
  refine ⟨?resolved, ?anTimer, ?ready, ?ltTimer, ?aligned, ?loss, ?measured, ?lpi, fun _ _ => rfl, ?lpiRx⟩
  case resolved =>
    rintro s n common fec pause h
    refine ⟨?_, ?_⟩
    · rintro rfl
      exact congrArg _ (anResolved_failed h _ _)
    · rintro rfl f hf
      exact congrArg _ (anResolved_common h _ hf)
  case anTimer => exact fun s n h => congrArg _ (anResolved_failed h 0 0)
  case ready => exact fun s n h => congrArg _ (if_pos h)
  case ltTimer => exact fun s n lane h => congrArg _ (ltExpiry_training h _)
  case aligned => exact fun s u v n h hu hv => congrArg _ (linkUp_aligned h hu hv)
  case loss => exact fun s n cause h => congrArg _ (linkLoss_up h _)
  case measured => exact fun s n rx tx h => congrArg _ (varMeasured_measuring h _ _)
  case lpi => exact fun s n h1 h2 h3 h4 h5 => congrArg _ (lpiEnter_idle h1 h2 h3 h4 h5)
  case lpiRx => exact fun s n enter h => congrArg _ (lpiReceived_up h enter)

/-- Settles O23: each clause is its row's operation in the case that the clause describes. -/
theorem portPauses : Obligations.PortPauses := by
  refine ⟨?send, ?refresh, ?rxPfc, ?rxPause, ?rxControl, fun _ _ _ => ⟨rfl, rfl⟩, ?verifyTimer, ?verified, ?gclChange,
    ?gclEntry, ?txEnd, ?txRound⟩
  case send =>
    rintro s u n mask h hc rfl rfl
    exact congrArg _ (pfcSend_due h hc)
  case refresh => exact fun s n j h => congrArg _ (pfcRefresh_due h)
  case rxPfc => exact fun s u n vec times h hu => congrArg _ (rxPfc_up h hu)
  case rxPause => exact fun s u n q h hu => congrArg _ (rxPause_up h hu)
  case rxControl => exact fun s n h => congrArg _ (rxControl_up h)
  case verifyTimer => exact fun s n h => congrArg _ (verifyExpiry_verifying h)
  case verified => exact fun s u n frag h hu => congrArg _ (verified_verifying h hu _)
  case gclChange => exact fun s u n g hp ht hu => congrArg _ (gclChange_due hp ht hu)
  case gclEntry => exact fun s u n g e hold hg he hh hu => congrArg _ (gclApply_of_list hg he hh hu)
  case txEnd =>
    exact fun s u v n m x l d one len hx h ho hv => congrArg (fun t => Host.Outcome.next (State.boundary t n.val))
      (txEnd_out hx h ho hv)
  case txRound =>
    exact fun s u n m x l len hx h ho => congrArg (fun t => Host.Outcome.next (State.boundary t n.val))
      (txEnd_recirculates hx h ho)

end Sys2Proof.Machine
end

section
/-!
PROOFS. Decisions of the scheduler and launch times (ch. 10), then the obligation on them.
-/
namespace Sys2Proof.Machine

/-- Queues of port n on MAC m that may send (R313). -/
def State.eligibleOn (s : State) (n m : Nat) : List Nat := (s.portQueues n m).filter (fun q => decide (s.blockedBy q = 0))

/-- A decision for MAC m begins: a child that is no longer eligible passes its turn (R316). -/
def State.decideFrom (s : State) (n m : Nat) : State := s.loseTurns n (s.eligibleOn n m ++ s.eligibleOn n (1 - m))

/-- Without an eligible queue the descent selects nothing. -/
theorem descend_nil (s : State) (n : Nat) : s.descend n [] = none := rfl

section
variable {s : State} {n m : Nat} (h : s.macBusy n m = false ∧ s.chosen n m = none ∧ (m = 1 → s.preempting n = true) ∧
  (s.port n).waking = false ∧ (s.port n).restart = false)
include h

/-- A MAC that may start a frame, and has none chosen, decides. -/
theorem not_decisionWaits : ¬(s.macBusy n m = true ∨ s.chosen n m ≠ none ∨ (m = 1 ∧ s.preempting n = false) ∨
    (s.port n).waking = true ∨ (s.port n).restart = true) := by
  obtain ⟨hb, hc, hp, hw, hr⟩ := h
  rintro (g | g | ⟨g, g'⟩ | g | g)
  · exact Bool.false_ne_true (hb.symm.trans g)
  · exact g hc
  · exact Bool.false_ne_true (g'.symm.trans (hp g))
  · exact Bool.false_ne_true (hw.symm.trans g)
  · exact Bool.false_ne_true (hr.symm.trans g)

/-- A port in low-power idle with an eligible queue wakes (R51). -/
theorem eschDecide_wakes (hl : s.eligibleOn n m ≠ [] ∧ n < 128 ∧ s.rdb (wPort n) Reg.PORT_STATUS_LPI_TX = true) :
    s.eschDecide n m = (s.decideFrom n m).wake n :=
  (if_neg (not_decisionWaits h)).trans (if_pos hl)

/-- The head of the queue that the descent selects is chosen (R315). -/
theorem eschDecide_selects {q : Nat} {u : State}
    (hl : s.eligibleOn n m = [] ∨ 128 ≤ n ∨ s.rdb (wPort n) Reg.PORT_STATUS_LPI_TX = false)
    (hd : (s.decideFrom n m).descend n (s.eligibleOn n m) = some (q, u)) :
    s.eschDecide n m = u.setChosen n m ((s.egq q).headCopy.map (fun c => (q, c.order))) := by
  have hw : ¬(s.eligibleOn n m ≠ [] ∧ n < 128 ∧ s.rdb (wPort n) Reg.PORT_STATUS_LPI_TX = true) := by
    rintro ⟨g1, g2, g3⟩
    rcases hl with hl | hl | hl
    · exact g1 hl
    · exact Nat.not_lt.2 hl g2
    · exact Bool.false_ne_true (hl.symm.trans g3)
  refine (if_neg (not_decisionWaits h)).trans ?_
  extract_lets qs el all s0
  refine (if_neg hw).trans ?_
  rw [show s0.descend n el = some (q, u) from hd]

/-- A decision that selects nothing counts the lowest test that the queues fail (R335). -/
theorem eschDecide_blocked {k : Nat} {t : List Nat} (he : s.eligibleOn n m = [])
    (hb : (s.portQueues n m).map s.blockedBy = k :: t) :
    s.eschDecide n m = (s.decideFrom n m).portCount n (113 + t.foldl min k) 1 := by
  refine (if_neg (not_decisionWaits h)).trans ?_
  extract_lets qs el all s0
  have hd : s0.descend n el = none := by rw [show el = [] from he, descend_nil]
  rw [if_neg (fun g => g.1 he), hd]
  dsimp only
  rw [show qs.map s.blockedBy = k :: t from hb]
  rfl

end

/-- The launch instant of a queue's head comes (R324). -/
theorem launchArrives_reached {s : State} {q t : Nat} {c : Copy} (hc : (s.egq q).headCopy = some c)
    (ht : c.launch = some t) (hn : s.launchAt (s.qPort q) t ≤ s.now) :
    s.launchArrives q = s.setEgq q { s.egq q with
      head := (s.egq q).head.map (fun d => if d = c then { d with due := true } else d) } := by
  unfold State.launchArrives
  extract_lets x
  rw [show x.headCopy = some c from hc]
  dsimp only
  rw [ht]
  exact if_pos hn

/-- Settles O41: the three cases of a decision exclude one another by the eligible queues and the link's state. -/
theorem eschDecisions : Obligations.EschDecisions := by
  refine ⟨?selects, ?wakes, ?blocked, ?launch⟩
  case selects =>
    rintro s u v n m q el h rfl hl rfl hd
    exact congrArg _ (eschDecide_selects h hl hd)
  case wakes =>
    rintro s n m el h rfl hl
    exact congrArg _ (eschDecide_wakes h hl)
  case blocked =>
    rintro s v n m k t h he hb rfl
    refine (congrArg _ (eschDecide_blocked h he hb)).trans ?_
    unfold State.decideFrom
    rw [show s.eligibleOn n.val m.val = [] from he]
    rfl
  case launch => exact fun s q c t hc ht hn => congrArg _ (launchArrives_reached hc ht hn)

end Sys2Proof.Machine
end

section
/-!
PROOFS. Link retransmit, received frames and the Joist commands (ch. 2 and 11), then the obligation on them.
-/
namespace Sys2Proof.Machine

section
variable {s : State} {n : Nat}

/-! ### The sender and the receiver (R348, R349) -/

/-- An ACK of a kept frame releases it and those before it. -/
theorem ackUpTo_kept {k i : Nat} (hi : (s.jport n).kept.findIdx? (fun e => decide (e.1 = k)) = some i) :
    s.ackUpTo n k = ((s.setJport n { s.jport n with
      kept := (s.jport n).kept.drop (i + 1), tries := 0, resend := (s.jport n).resend.filter (fun e =>
        !((s.jport n).kept.take (i + 1)).any (fun g => decide (g.1 = e.1))) }).releaseKept n
          ((s.jport n).kept.take (i + 1))).jportReport n := by
  unfold State.ackUpTo
  extract_lets p
  rw [show p.kept.findIdx? _ = some i from hi]

/-- Kept frames are sent again while tries are left. -/
theorem resendFrom_kept {k : Nat} {l : List (Nat × Sending)}
    (hl : l = (s.jport n).kept.dropWhile (fun e => decide (e.1 ≠ k))) (hne : l ≠ [])
    (ht : (s.jport n).tries + 1 ≤ s.rd (joistBase n) Reg.JOIST_PORT_B_RETX_TRIES) :
    s.resendFrom n k = s.setJport n { s.jport n with resend := l, tries := (s.jport n).tries + 1 } := by
  subst hl
  exact (if_neg hne).trans (if_neg (Nat.not_lt.2 ht))

/-- With no progress, every kept frame is sent again. -/
theorem retxTimeout_kept {e : Nat × Sending} {l : List (Nat × Sending)} (hk : (s.jport n).kept = e :: l)
    (h : s.retxRuns n = true) : s.retxTimeout n = s.resendFrom n e.1 := by
  unfold State.retxTimeout
  rw [hk]
  exact if_pos h

end

/-! ### Frames received (R47, R290, R348) -/

/-- A frame of link retransmit, whole, on a port that receives none. -/
theorem execRxRetxFrame_taken {s : State} {n : Fin 128} {l : List Byte} {fcs : Word32}
    (h : s.joisted n.val l = true ∧ joistVersion l = 1 ∧ joistSeqValid l = true) (hr : s.reception n.val 0 = none) :
    execRxRetxFrame n l fcs s = .next (s.rxPiece {
      port := n.val, mac := 0, total := l.length, bytes := l, last := true, fcs := fcs.toNat, aborted := false,
      broken := false, frags := 0 }) := if_pos (by simp [h, hr])

section
variable {s u : State} {x : Piece} {r : Receiving} (hp : s.portUp x.port = true)
  (hu : u = if (s.reception x.port x.mac).isNone then s.startReception x else s)
  (hr : u.reception x.port x.mac = some r)
include hp hu hr

/-- A piece before the last is taken into its frame. -/
theorem rxPiece_more (hl : x.last = false) : s.rxPiece x = u.takeBytes x r := by
  subst hu
  refine (if_neg (by simp [hp])).trans ?_
  extract_lets s1
  rw [show s1.reception x.port x.mac = some r from hr]
  exact if_pos hl

/-- The last piece is taken, and ends a reception that is still there. -/
theorem rxPiece_last (hl : x.last = true) : s.rxPiece x =
    (((u.takeBytes x r).reception x.port x.mac).map ((u.takeBytes x r).endReception x)).getD (u.takeBytes x r) := by
  subst hu
  refine (if_neg (by simp [hp])).trans ?_
  extract_lets s1
  rw [show s1.reception x.port x.mac = some r from hr]
  refine (if_neg (by simp [hl])).trans ?_
  cases State.reception (State.takeBytes _ x r) x.port x.mac <;> rfl

end

/-! ### Commands (R339, R343, R350, R352) -/

section
variable {b : State} {j : Job}

/-- JOIST_SETUP within R350, of the device's number or with no domain port in use. -/
theorem joistSetup_ok (hr : j.le 4 2 < 16384 ∧ j.byte 0 6 < 64 ∧ j.one = true)
    (ht : ((rangeFrom 0 128).any fun n => retryBreaks (b.rd (joistBase n) Reg.JOIST_PORT_A_RETX_TC)
      (b.rd (joistBase n) Reg.JOIST_PORT_B_RETX_TIMEOUT_US) (b.rd (joistBase n) Reg.JOIST_PORT_B_RETX_TRIES)
      (j.le 8 2)) = false)
    (hd : j.le 4 2 = b.devNum ∨ ((rangeFrom 0 128).any fun n => b.domain n && decide (b.linkState n ≠ 0)) = false) :
    joistSetup j b = okRes (((b.wr wJoist Reg.JOIST_CFG_DEV_NUM (j.le 4 2)).wr wJoist Reg.JOIST_CFG_HOP_LIMIT
      (j.byte 0 6)).wr wJoist Reg.JOIST_HOST_TIMEOUT_HOST_TIMEOUT_MS (j.le 8 2)) [] := by
  obtain ⟨h1, h2, h3⟩ := hr
  unfold joistSetup
  extract_lets d
  rw [if_neg, if_neg]
  · rfl
  · rintro ⟨g1, g2⟩
    exact hd.elim g1 (fun h => Bool.false_ne_true (h.symm.trans g2))
  · rw [ht]
    simp [d, h1, h2, h3]

/-- JOIST_ROUTE_SET of valid records. -/
theorem joistRouteSet_ok {recs : List (List Byte)} (hrecs : recs = (rangeFrom 0 (min (j.le 10 2) 16384)).map
      (fun k => b.hostRd (b.jobLink j) (j.hostAddr + 8 * k) 8))
    (hr : j.le 8 2 + j.le 10 2 ≤ 16384 ∧ j.le 10 2 ≠ 0 ∧ j.one = true)
    (hb : recs.any (fun r => decide (4 < beAt r 0 1 ∨ leNat (slice r 1 3) ≠ 0) ||
      ((((r.drop 4).take 4).map (·.toNat)).take (beAt r 0 1)).any (fun p => decide (127 < p))) = false) :
    joistRouteSet j b = okRes (forEach ((rangeFrom (j.le 8 2) (j.le 10 2)).zip recs) (fun e s => { s with
      joist := { s.joist with
        routes := tabSet (fun _ => [0, 0, 0, 0, 0]) s.joist.routes e.1 (beAt e.2 0 1 :: ((e.2.drop 4).take 4).map
          (·.toNat)) } }) (b.countMoved 30 (8 * j.le 10 2))) [] := by
  subst hrecs
  obtain ⟨h1, h2, h3⟩ := hr
  unfold joistRouteSet
  extract_lets
  refine (if_neg h2).trans ((if_neg (by simp only [h3]; simp; omega)).trans ?_)
  exact if_neg (fun h => Bool.false_ne_true (hb.symm.trans h))

/-- JOIST_ROUTE_QUERY of a device number. -/
theorem joistRouteQuery_ok (hr : j.le 8 2 < 16384 ∧ j.one = true) :
    joistRouteQuery j b = okRes (b.jobWrite j j.hostAddr (leBytes 1 ((b.routeRecord (j.le 8 2)).getD 0 0) ++ [0, 0, 0] ++
      ((b.routeRecord (j.le 8 2)).drop 1).map (BitVec.ofNat 8))) (leBytes 4 8) := if_neg (by simp [hr])

/-- JOIST_PORT_QUERY of a front port. -/
theorem joistPortQuery_ok (hr : j.le 4 2 < 128 ∧ j.one = true) :
    joistPortQuery j b = okRes (b.jobWrite j j.hostAddr (b.regBytes (joistBase (j.le 4 2) + 0x1000) 4)) (leBytes 4 16) :=
  if_neg (by simp [hr])

/-- PORT_DOMAIN_SET of a port that is DISABLED, within R350. -/
theorem portDomainSet_ok {n : Nat} (hn : n = j.le 4 2 ∧ n < 128 ∧ b.portHolder n = b.jobFn j)
    (hr : j.byte 0 6 < 2 ∧ j.only [(4, 2), (6, 1), (8, 2), (10, 2), (12, 2), (14, 1)] = true ∧ j.bit 9 6 = false ∧
      j.bit 9 7 = false)
    (hv : j.le 10 2 ≠ 0 ∧ j.le 10 2 ≤ 2047 ∧ j.le 12 2 ≠ 0 ∧ j.byte 0 14 ≠ 0 ∧ j.byte 0 14 ≤ 15)
    (ht : retryBreaks (j.le 8 2) (j.le 12 2) (j.byte 0 14) (b.rd wJoist Reg.JOIST_HOST_TIMEOUT_HOST_TIMEOUT_MS) = false)
    (hl : b.linkState n = 0) :
    portDomainSet j b = okRes (((((b.wr (wPort n) Reg.PORT_CFG_DOMAIN (j.byte 0 6)).wr (joistBase n)
      Reg.JOIST_PORT_A_RETX_TC (j.le 8 2)).wr (joistBase n) Reg.JOIST_PORT_A_RETX_WINDOW (j.le 10 2)).wr (joistBase n)
      Reg.JOIST_PORT_B_RETX_TIMEOUT_US (j.le 12 2)).wr (joistBase n) Reg.JOIST_PORT_B_RETX_TRIES (j.byte 0 14)) [] := by
  obtain ⟨rfl, hn, hh⟩ := hn
  obtain ⟨h1, h2, h3, h4⟩ := hr
  obtain ⟨v1, v2, v3, v4, v5⟩ := hv
  unfold portDomainSet
  extract_lets n p
  refine (if_neg ?gate).trans ((if_neg ?reserved).trans ((if_neg ?values).trans (if_neg (fun g => g hl))))
  case gate => exact fun h => h.elim (Nat.not_le.2 hn) (fun g => g hh)
  case reserved => simp [h1, h2]
  case values =>
    rw [ht]
    simp [h3, h4, v1, v2, v3, v4, v5]

end

/-- Settles O43: each clause is its row's operation, or its command's body, in the case that the clause describes. -/
theorem joistTraffic : Obligations.JoistTraffic := by
  refine ⟨?ack, ?nak, ?resync, ?timeout, fun _ _ => rfl, ?retx, ?last, ?more, fun _ _ _ _ _ _ _ _ _ _ _ _ _ => rfl,
    ?setup, ?routeSet, ?routeQuery, ?portQuery, ?domain⟩
  case ack => exact fun s n k i h hi => congrArg _ ((if_pos h).trans (ackUpTo_kept hi))
  case nak => exact fun s n k l h hl hne ht => congrArg _ ((if_pos h).trans (resendFrom_kept hl hne ht))
  case resync => exact fun s n k h => congrArg _ (if_pos h)
  case timeout => exact fun s n e l hk h => congrArg _ (retxTimeout_kept hk h)
  case retx => exact fun s n l fcs h hr => execRxRetxFrame_taken h hr
  case last =>
    rintro s b u n mac total l fcs ab br frags phy x r ⟨rfl, hp⟩ rfl hu hr
    exact congrArg _ (rxPiece_last hp hu hr rfl)
  case more =>
    rintro s b u n mac total l fcs ab br frags phy x r ⟨rfl, hp⟩ rfl hu hr
    exact congrArg _ (rxPiece_more hp hu hr rfl)
  case setup => exact fun s b j h hr ht hd => jobRow_ok h (joistSetup_ok hr ht hd)
  case routeSet => exact fun s b j recs h hrecs hr hb => jobRow_ok h (joistRouteSet_ok hrecs hr hb)
  case routeQuery => exact fun s b j h hr => jobRow_ok h (joistRouteQuery_ok hr)
  case portQuery => exact fun s b j h hr => jobRow_ok h (joistPortQuery_ok hr)
  case domain => exact fun s b j n h hn hr hv ht hl => jobRow_ok h (portDomainSet_ok hn hr hv ht hl)

end Sys2Proof.Machine
end

section
/-!
PROOFS. The state after a cold reset (ch. 00, 20 and 21), then the obligation on it.
-/
namespace Sys2Proof.Machine

/-- The nine registers listed after a reset stand in order, none with its default. -/
theorem reset_canonical : State.reset.canonical := ⟨by decide, rfl, rfl⟩

/-- An unlisted queue is absent. -/
theorem reset_queue (q : Nat) : (State.reset.queue q).st = .absent := rfl

/-- Settles O5: the listed registers read as listed, and every other one its reset value. -/
theorem resetState : Obligations.ResetState := by
  refine ⟨reset_canonical, rfl, rfl, rfl, ?devState, rfl, ?safe, ?window, ?watermark, ?deviceMark, ?mirrorQ, ?nextSeq,
    ?rateLimit, ?reserve, ?prio, ?lifecycle, reset_queue 0⟩
  case devState | safe | window | watermark | deviceMark | mirrorQ | nextSeq | rateLimit | reserve | prio | lifecycle =>
    decide

end Sys2Proof.Machine
end

section
/-!
PROOFS. The banks of a parse graph (ch. 3): loading, swapping, draining and reading, then the obligation on them.
-/
namespace Sys2Proof.Machine

/-- A pipeline takes a checked image: its load waits while the old bank drains, and begins otherwise (R98). -/
def State.takeGraph (s : State) (p : Nat) (l : GraphLoad) : State :=
  if (s.setPipe p { s.pipe p with load := some l }).rdb (wPipe p) Reg.PIPE_TRUSS_STATUS_DRAINING then
    s.setPipe p { s.pipe p with load := some l }
  else (s.setPipe p { s.pipe p with load := some l }).beginLoad p

/-- A command of Truss whose turn in its queue has come is a job row (R98). -/
theorem trussRow_inTurn {s : State} {g : Gate} {j : Job} {body : Job → State → Answer}
    (h : s.inTurn j 0x30 0x32 = true) : trussRow g j s body = jobRow g j s body := if_pos h

/-- TRUSS_GRAPH_LOAD of an aligned image that passes its checks: each masked pipeline takes the image, and the job
completes later (R97, R98). -/
theorem trussLoad_good {b : State} {j : Job} {g : List Byte}
    (hg : g = b.hostRd (b.jobLink j) (j.le 8 8) (min (j.le 16 4) 69889)) (hm : j.byte 0 4 ≠ 0) (ha : j.le 8 8 % 8 = 0)
    (hv : graphFail g (j.le 16 4) = none) :
    trussLoad j b = laterA (forEach (maskList (j.byte 0 4))
      (fun p s => s.takeGraph p { job := j, image := g, mask := j.byte 0 4 }) (b.countMoved 28 g.length)) := by
  subst hg
  unfold trussLoad
  extract_lets a n m g r
  refine (if_neg hm).trans ((if_neg (not_not_intro ha)).trans ?_)
  rw [show graphFail g n = none from hv]
  rfl

/-- A shadow bank that is being loaded is written; its job completes where no other pipeline still has it (R98). -/
theorem shadowWritten_busy {s u v : State} {p : Nat} {l : GraphLoad} (hl : (s.pipe p).load = some l)
    (hb : s.rdb (wPipe p) Reg.PIPE_TRUSS_STATUS_LOAD_BUSY = true)
    (hu : u = (s.setGraph p (1 - s.trussBank p) l.image).wr (wPipe p) Reg.PIPE_TRUSS_STATUS_LOAD_BUSY 0)
    (hv : v = (((u.wr (wPipe p) Reg.PIPE_TRUSS_STATUS_SHADOW_VALID 1).setPipe p { u.pipe p with
      load := none }).trussReport p).event Ev.GRAPH_LOADED p l.mask (imH l.image 6) 0) :
    s.shadowWritten p = if (rangeFrom 0 8).any (fun q => decide (((v.pipe q).load.map (·.job)) = some l.job)) then v
      else v.complete l.job St.SUCCESS [] := by
  subst hv hu
  unfold State.shadowWritten
  rw [hl]
  exact if_neg (by simp [hb])

/-- TRUSS_GRAPH_SWAP where every masked pipeline has a valid shadow exchanges the banks of each (R99). -/
theorem trussSwap_valid {b : State} {j : Job} (h : (maskList (j.byte 0 4)).any (fun p => !b.trussShadow p) = false) :
    trussSwap j b = okRes (forEach (maskList (j.byte 0 4)) (fun p s => s.swapBank p) b) [BitVec.ofNat 8 (j.byte 0 4)] :=
  if_neg (by simp [h])

/-- The old bank of a pipeline that drains holds no packet: the draining ends, and a load that waits begins (R98,
R99). -/
theorem trussDrained_empty {s : State} {p : Nat} (hd : s.rdb (wPipe p) Reg.PIPE_TRUSS_STATUS_DRAINING = true)
    (hh : s.trussHolds p (1 - s.trussBank p) = false) :
    s.trussDrained p = (s.wr (wPipe p) Reg.PIPE_TRUSS_STATUS_DRAINING 0).beginLoad p :=
  if_neg (by simp [hd, hh])

/-- TRUSS_GRAPH_READ of a valid bank of one pipeline whose image fits (R102). -/
theorem trussRead_fits {b : State} {j : Job} {p : Nat} {g : List Byte} (hp : oneOf (j.byte 0 4) = some p)
    (hg : g = b.graph p (if j.bit 5 0 then 1 - b.trussBank p else b.trussBank p))
    (hv : (if j.bit 5 0 then b.trussShadow p else b.graphValid p) = true) (hn : g.length ≤ j.le 16 4) :
    trussRead j b = okRes (b.jobWrite j (j.le 8 8) g) (leBytes 4 g.length) := by
  subst hg
  unfold trussRead
  rw [hp]
  exact if_neg (by simpa [hv] using hn)

/-- Settles O25: each row in its turn runs its command's body, and each event its bank's operation, in the case that
the clause describes. -/
theorem graphLoads : Obligations.GraphLoads := by
  refine ⟨?load, ?written, ?swap, ?drain, ?read⟩
  case load =>
    exact fun s b j g ht h hg hm hv => (trussRow_inTurn ht).trans (jobRow_later h (trussLoad_good hg hm.1 hm.2 hv))
  case written => exact fun s u v p l hl hb hu hv => congrArg Host.Outcome.next (shadowWritten_busy hl hb hu hv)
  case swap => exact fun s b j ht h hv => (trussRow_inTurn ht).trans (jobRow_ok h (trussSwap_valid hv))
  case drain => exact fun s p hd hh => congrArg Host.Outcome.next (trussDrained_empty hd hh)
  case read =>
    exact fun s b j p g h ht hp hg hv hn => (trussRow_inTurn ht).trans (jobRow_ok h (trussRead_fits hp hg hv hn))

end Sys2Proof.Machine
end

section
/-!
PROOFS. Host searches, the commands of Mortise and its scrubber (ch. 4), then the obligation on them.
-/
namespace Sys2Proof.Machine

/-! ### Host searches (R128 to R132) -/

section
variable {s b : State} {j : Job} {p : Nat}

/-- A search that is not refused, outside SAFE, is a job row (R129, R132). -/
theorem execMortiseSearch_row (h : s.searchRefused j = none ∧ s.halting = false) :
    execMortiseSearch j s = jobRow { op := 0x4B, owner := false, safe := true } j s mortiseSearch :=
  if_neg (by simp [h])

/-- A search with the length and the width of a range that its function holds is not refused (R129). -/
theorem searchRefused_none
    (hl : j.len = if (b.mrange (j.bits 4 2 0) (j.bits 5 3 0)).wide then 6 else 3)
    (hw : j.bit 6 0 = (b.mrange (j.bits 4 2 0) (j.bits 5 3 0)).wide)
    (ho : (b.mrange (j.bits 4 2 0) (j.bits 5 3 0)).owner = b.jobFn j) : b.searchRefused j = none := by
  unfold State.searchRefused
  extract_lets m wide
  refine (if_neg ?_).trans (if_neg (not_not_intro ho))
  rintro (h | h)
  · exact h (by rw [hl, ← hw])
  · exact h hw

/-- MORTISE_SEARCH that is not refused waits for its slot (R128). -/
theorem mortiseSearch_waits (h : b.searchRefused j = none) : mortiseSearch j b =
    laterA (b.setPipe (j.bits 4 2 0) { b.pipe (j.bits 4 2 0) with
      searches := (b.pipe (j.bits 4 2 0)).searches ++ [{ job := j }] }) := by
  unfold mortiseSearch
  rw [h]

/-- The first result that may be delivered completes its job, and a search that was served is no longer in flight
(R131, R132). -/
theorem searchResult_first {y : Search}
    (h : (s.pipe p).results.find? (fun z => !(s.inFlight z.job) || s.oldestJob z.job) = some y) :
    s.searchResult p = ((fun u : State => if y.served then u.inFlightAdd p y.epoch (-1) else u)
      (s.setPipe p { s.pipe p with results := (s.pipe p).results.erase y })).complete y.job y.status y.result := by
  unfold State.searchResult
  rw [h]

/-! ### Commands (R133, R134) -/

/-- MORTISE_PROFILE_SET of a profile that R134 takes writes it to every masked pipeline. -/
theorem mortiseProfileSet_ok {g : List Byte} (hg : g = b.hostRd (b.jobLink j) (j.le 8 8) 160)
    (hm : maskList (j.byte 0 4) ≠ [])
    (hr : (j.only [(4, 2), (8, 8)] = true ∧ j.byte 0 5 < 16 ∧ j.le 8 8 % 8 = 0) ∧ bits (imW g 0) 30 4 = 0 ∧
      imW g 156 = 0)
    (he : (maskList (j.byte 0 4)).any (fun p => (rangeFrom 1 38).any (fun k =>
      badExtractor (imW g (4 * k)) (!(b.mrange p (imW g 0 % 16)).wide && decide (18 < k)))) = false) :
    mortiseProfileSet j b = okRes (forEach (maskList (j.byte 0 4)) (fun p s => forEach (rangeFrom 0 39)
      (fun k s => s.setReg (mprofWord p (j.byte 0 5) k) (imW g (4 * k))) s) (b.countMoved 28 160)) [] := by
  subst hg
  obtain ⟨⟨h1, h2, h3⟩, h4, h5⟩ := hr
  unfold mortiseProfileSet
  extract_lets l x g w bad s0
  refine (if_neg hm).trans ((if_neg ?frame).trans (if_neg ?words))
  case frame => simp [x, h1, h2, h3]
  case words =>
    rintro (h | h | h)
    · exact h h4
    · exact h h5
    · exact Bool.false_ne_true (he.symm.trans h)

/-- MORTISE_PORT_SET of a word that R134 takes writes it to every masked pipeline. -/
theorem mortisePortSet_ok (hm : maskList (j.byte 0 4) ≠ [])
    (hr : j.byte 0 5 ≤ 16 ∧ bits (j.le 8 4) 29 21 = 0 ∧ bits (j.le 8 4) 15 12 = 0 ∧ bits (j.le 8 4) 7 4 = 0) :
    mortisePortSet j b = okRes (forEach (maskList (j.byte 0 4))
      (fun p s => s.setReg (wPipe p + 0x10200 + 4 * j.byte 0 5) (j.le 8 4)) b) [] :=
  (if_neg hm).trans (if_neg (by simp [hr]))

/-- MORTISE_READ of entries in ranges of the caller writes their shadow records (R133). -/
theorem mortiseRead_owned (hp : oneOf (j.byte 0 4) = some p)
    (ho : (rangeFrom (j.le 6 2) (j.le 16 2)).all (fun y => (b.rangeOf p y).any (fun m => decide (m.owner = b.jobFn j)))
      = true) :
    mortiseRead j b = okRes ((b.shadowBytes p (j.le 6 2) (j.le 16 2)).2.jobWrite j (j.le 8 8)
      (b.shadowBytes p (j.le 6 2) (j.le 16 2)).1) (leBytes 4 (176 * j.le 16 2)) := by
  unfold mortiseRead
  rw [hp]
  refine if_neg (fun h => Bool.false_ne_true (h.symm.trans (Eq.trans (congrArg _ (funext fun y => ?_)) ho)))
  cases b.rangeOf p y <;> rfl

/-! ### The scrubber (R123 to R125) -/

/-- The end of a scrub period while the scrubber runs: a pass that is not done is late, and else a pass starts
(R123). -/
theorem scrubPeriod_runs (h : s.scrubRuns p = true) : s.scrubPeriod p =
    if s.rdb (wPipe p) Reg.PIPE_MORTISE_STATUS_SCRUB_ACTIVE then
      (s.setPipe p { s.pipe p with scrubLate := true }).event Ev.SCRUB_LATE p p
        (s.rd (wPipe p) Reg.PIPE_MORTISE_SCRUB_POS_NEXT_INDEX) 0
    else s.startPass p := if_neg (by simp [h])

/-- A check before the last index, of an entry that no write waits for, checks the entry and steps to the next (R123,
R124). -/
theorem scrubCheck_steps {ecc x : Nat}
    (h : s.scrubRuns p = true ∧ s.rdb (wPipe p) Reg.PIPE_MORTISE_STATUS_SCRUB_ACTIVE = true ∧
      (s.pipe p).scrubTail = false)
    (hx : x = s.rd (wPipe p) Reg.PIPE_MORTISE_SCRUB_POS_NEXT_INDEX) (hn : x < 16383 ∧ (s.pipe p).writing x = false) :
    s.scrubCheck p ecc = (s.scrubEntry p x ecc).wr (wPipe p) Reg.PIPE_MORTISE_SCRUB_POS_NEXT_INDEX (x + 1) := by
  subst hx
  obtain ⟨hr, ha, ht⟩ := h
  refine (if_neg (by simp [hr, ha])).trans ?_
  extract_lets y x s1
  refine (if_neg (by simp [y, ht])).trans ((if_pos hn.1).trans ?_)
  rw [show s1 = s.scrubEntry p x ecc from if_neg (by simp [y, x, hn.2])]

end

/-- Settles O26: each row is its command's body, or its pipeline's operation, in the case that the clause describes. -/
theorem mortiseCommands : Obligations.MortiseCommands := by
  refine ⟨?search, ?result, fun _ _ => rfl, ?profile, ?port, ?read, fun s b j h => jobRow_ok h rfl, ?period, ?check⟩
  case search =>
    exact fun s b j h hl hw ho hr => (execMortiseSearch_row hr).trans
      (jobRow_later h (mortiseSearch_waits (searchRefused_none hl hw ho)))
  case result => exact fun s p y h => congrArg Host.Outcome.next (searchResult_first h)
  case profile => exact fun s b j g h hg hm hr he => jobRow_ok h (mortiseProfileSet_ok hg hm hr he)
  case port => exact fun s b j h hm hr => jobRow_ok h (mortisePortSet_ok hm hr)
  case read => exact fun s b j p h hp ho => jobRow_ok h (mortiseRead_owned hp ho)
  case period => exact fun s p h => congrArg Host.Outcome.next (scrubPeriod_runs h)
  case check =>
    exact fun s p ecc x h hx hn hf =>
      congrArg Host.Outcome.next ((if_pos hf).trans (scrubCheck_steps h hx hn))

end Sys2Proof.Machine
end

section
/-!
PROOFS. What commands leave unchanged (ch. 5, 8, 13, 20 and 21), then the obligation on it.
-/
namespace Sys2Proof.Machine

/-- A host's access whose effect is the clear of bits of a register sets that register, and every other one stays
(R13, R408). -/
theorem posted_clearBits {s : State} {f : Nat} (h : s.reaches f) (off : Nat) {clear : State → State} {a m : Nat}
    (hc : clear s = s.clearBits a m) :
    ∃ x, (.next (s.posted f off clear) : Out) = .next (s.setReg a x) ∧ ∀ k, k ≠ a → (s.setReg a x).reg k = s.reg k :=
  ⟨_, congrArg Host.Outcome.next ((posted_reaches h off clear).trans hc), fun _ hk => reg_setReg_ne _ _ hk⟩

/-- A dump that falls due, where no counter watches its bytes, stores 0xFFFFFFFF at its sequence number and nothing
else (R588). -/
theorem dumpDue_frame {s : State} {a : Nat}
    (h : s.rd wGauge Reg.GAUGE_DUMP_PERIOD_MS ≠ 0 ∧ s.dutyRuns 13 = true ∧ s.gauge.dumping = none)
    (hq : ∀ k ∈ s.armed,
      ¬(s.rd (pcBase k) Reg.GAUGE_PC_A_SRC = 0 ∧ s.rd (pcBase k) Reg.GAUGE_PC_A_SEL = 512 * 157 + 29))
    (ha : a = hostKey (s.fnLink s.owner) (s.gauge.dumpBase + ((s.gauge.dumpNext - 1) %
      s.rd wGauge Reg.GAUGE_DUMP_BUFFERS) * (128 + 4096 * (maskPages s.gauge.dumpMask).length) + 4)) :
    ∃ t, exec .gaugeDumpDue s = .next t ∧ t.dram = s.dram ∧ memRead t.hostMem a 4 = leBytes 4 0xFFFFFFFF ∧
      ∀ k, ¬(a ≤ k ∧ k < a + 4) → tabGet memDefault t.hostMem k = tabGet memDefault s.hostMem k := by
  obtain ⟨t, e, hd, hm⟩ := dumpDue_quiet h hq rfl
  rw [← ha] at hm
  refine ⟨t, e, hd, ?_, fun k hk => ?_⟩
  · rw [hm]
    exact memRead_write s.hostMem a (leBytes 4 0xFFFFFFFF)
  · rw [hm, memWrite_get]
    exact if_neg hk

/-- Settles O12: each clause is its row's effect, and what that update of the state keeps. -/
theorem frames : Obligations.Frames := by
  refine ⟨fun p t r s u w hr h => arith_frame hr h, ?engines, ?first, ?safe, ?step, ?dump, ?recount⟩
  case engines =>
    exact fun u p t x p' t' h => ⟨(engine_setEngine (s := u) p t x p' t').trans (if_neg h), rfl, rfl, rfl, rfl, rfl⟩
  case first =>
    rintro s w a ⟨h, rfl⟩
    exact posted_clearBits h 0xF014 (clear := fun s => s.firstClear w) rfl
  case safe =>
    rintro s a ⟨h, rfl⟩
    exact posted_clearBits h (wGlobal + 0x10) (clear := State.safeClear) rfl
  case step =>
    rintro s a ⟨h, hb, rfl⟩
    exact posted_clearBits h (wThyme + 0x2000) (clear := State.stepClear) (if_pos hb)
  case dump =>
    rintro s a l h hq ⟨rfl, ha⟩
    exact dumpDue_frame h hq ha
  case recount =>
    rintro s k a h rfl
    exact ⟨_, exec_spillCntRecount h, setSpill_frame s k.toNat _⟩

end Sys2Proof.Machine
end

section
/-!
PROOFS. The operations of TABLE_SETUP (ch. 5), then the obligation on them.
-/
namespace Sys2Proof.Machine

section
variable {b : State} {j : Job}

/-- Operation 0, of a profile that R177 takes. -/
theorem setupProfile_valid {g : List Byte} (hg : g = b.hostRd (b.jobLink j) (j.le 8 8) 32)
    (hj : j.only [(4, 3), (8, 8)] = true ∧ j.byte 0 6 < 16)
    (hr : bits (imW g 0) 24 24 = 0 ∧ bits (imW g 0) 19 15 = 0 ∧ bits (imW g 8) 31 25 = 0 ∧ bits (imW g 8) 24 16 ≤ 510)
    (ho : (rangeFrom 0 5).any (fun i => decide (6 ≤ bits (imW g 0) (3 * i + 2) (3 * i))) = false)
    (he : (rangeFrom 3 5).any (fun k => badExtractor (imW g (4 * k)) false) = false) :
    setupProfile j b = okRes (forEach (maskList (j.byte 0 4)) (fun p s => forEach (rangeFrom 0 8)
      (fun k s => s.setReg (tprofWord p (j.byte 0 6) k) (imW g (4 * k))) s)
      (if maskList (j.byte 0 4) = [] then b else b.countMoved 30 32)) [] := by
  subst hg
  obtain ⟨r1, r2, r3, r4⟩ := hr
  unfold setupProfile
  extract_lets x g w orderBad
  refine (if_neg (by simp [x, hj])).trans (setupRun_ok ?_ _)
  have reserved : ¬(bits (w 0) 24 24 ≠ 0 ∨ bits (w 0) 19 15 ≠ 0 ∨ bits (w 2) 31 25 ≠ 0 ∨ 510 < bits (w 2) 24 16) := by
    rintro (h | h | h | h)
    · exact h r1
    · exact h r2
    · exact h r3
    · exact Nat.not_lt.2 r4 h
  rw [decide_eq_false reserved, show orderBad = false from ho]
  exact he

/-- Operation 1, of port words whose reserved bits are 0. -/
theorem setupPort_valid {k : Nat} (hj : k = j.byte 0 6 ∧ k ≤ 16 ∧ j.only [(4, 3), (8, 8)] = true)
    (ha : bits (j.le 8 4) 28 26 = 0 ∧ bits (j.le 8 4) 23 21 = 0 ∧ bits (j.le 8 4) 15 12 = 0 ∧ bits (j.le 8 4) 7 4 = 0)
    (hb : bits (j.le 12 4) 31 30 = 0 ∧ bits (j.le 12 4) 15 12 = 0) :
    setupPort j b = okRes (forEach (maskList (j.byte 0 4)) (fun p s =>
      (s.setReg (wPipe p + 0x20100 + 8 * k) (j.le 8 4)).setReg (wPipe p + 0x20104 + 8 * k) (j.le 12 4)) b) [] := by
  obtain ⟨rfl, hk, hr⟩ := hj
  exact setupRun_ok (by simp [hk, hr, ha, hb]) _

/-- Operation 2, of settings in their ranges: KICK is written to all eight pipelines (R178). -/
theorem setupLearnAge_valid (hm : maskList (j.byte 0 4) ≠ [])
    (hr : j.only [(4, 2), (8, 16)] = true ∧ bits (j.le 8 4) 31 23 = 0 ∧ bits (j.le 12 4) 30 30 = 0 ∧
      bits (j.le 12 4) 15 13 = 0 ∧ bits (j.le 12 4) 12 0 ≠ 0)
    (hv : j.le 16 4 ≠ 0 ∧ j.le 16 4 ≤ 65535 ∧ j.le 20 4 ≤ 31) :
    setupLearnAge j b = okRes (forEach (rangeFrom 0 8) (fun p s => s.setReg (wPipe p + 0x2003C) (j.le 20 4))
      (forEach (maskList (j.byte 0 4)) (fun p s => ((s.setReg (wPipe p + 0x20030) (j.le 8 4)).setReg
        (wPipe p + 0x20034) (j.le 12 4)).setReg (wPipe p + 0x20038) (j.le 16 4)) b)) [] := by
  unfold setupLearnAge
  extract_lets lc ac at_ kk bad r
  have good : bad = false := by
    obtain ⟨h1, h2, h3, h4, h5⟩ := hr
    simp [bad, lc, ac, at_, kk, h1, h2, h3, h4, h5, hv]
  refine (if_neg (by simp [hm, good])).trans ?_
  rw [show r = _ from setupRun_ok good _]
  rfl

/-- Operation 3, while no masked pipeline's table holds an entry (R142). -/
theorem setupLearnSeeds_empty (hr : j.only [(4, 2), (8, 16)] = true)
    (he : ∀ p ∈ maskList (j.byte 0 4), (b.pipe p).learn = []) :
    setupLearnSeeds j b = okRes (forEach (maskList (j.byte 0 4)) (fun p s => forEach (rangeFrom 0 4)
      (fun w s => s.setReg (wPipe p + 0x20010 + 4 * w) (j.le (8 + 4 * w) 4)) s) b) [] := by
  unfold setupLearnSeeds
  extract_lets busy
  have idle : (maskList (j.byte 0 4)).any busy = false := List.any_eq_false.2 (fun p hp => by simp [busy, he p hp])
  exact (if_neg (by simp [idle])).trans (setupRun_ok (by simp [hr]) _)

/-- Operation 4, on all pipelines, while the EM and next-hop tables hold no entry (R142, R177). -/
theorem setupEmSeeds_empty (hj : j.byte 0 4 = 0xFF ∧ j.only [(4, 2), (8, 16)] = true)
    (he : b.em.used = [] ∧ (rangeFrom 0 8).any (fun p => decide ((b.pipe p).nexthop ≠ [])) = false) :
    setupEmSeeds j b = okRes (forEach (maskList 0xFF) (fun p s => forEach (rangeFrom 0 4)
      (fun k s => s.setReg (wPipe p + 0x20020 + 4 * k) (j.le (8 + 4 * k) 4)) s) b) [] := by
  obtain ⟨hm, hr⟩ := hj
  obtain ⟨hem, hnh⟩ := he
  unfold setupEmSeeds
  extract_lets bad differs emHeld nhHeld
  have h1 : emHeld = false := by simp [emHeld, hem]
  have h2 : nhHeld = false := hnh
  refine (if_neg (by simp [h1, h2])).trans ((setupRun_ok (by simp [bad, hm, hr]) _).trans ?_)
  rw [hm]

/-- Operation 5, by the tenant's owner, of no queue or of an EVENT queue of its own (R155, R177). -/
theorem setupEventQ_valid {i t : Nat} (hj : i = j.le 8 2 ∧ t = j.byte 0 6 ∧ t < 4 ∧ j.only [(4, 3), (8, 2)] = true)
    (ho : b.tenantOwner 0 t = b.jobFn j)
    (hq : i = 0xFFFF ∨
      1 ≤ i ∧ i ≤ 511 ∧ (b.findQ (b.jobFn j) i).any (fun q => decide ((b.queue q).typ = .event)) = true) :
    setupEventQ j b = okRes (forEach (maskList (j.byte 0 4))
      (fun p s => s.wr (tenantBase p t) Reg.PIPE_TENANT_A_EVENT_Q i) b) [] := by
  obtain ⟨rfl, rfl, ht, hr⟩ := hj
  unfold setupEventQ
  extract_lets t i isEvent
  have event : isEvent = (b.findQ (b.jobFn j) i).any (fun q => decide ((b.queue q).typ = .event)) := by
    simp only [isEvent]
    cases b.findQ (b.jobFn j) i <;> rfl
  have queue : (decide (i = 0xFFFF) || (decide (1 ≤ i ∧ i ≤ 511) && isEvent)) = true := by
    rw [event]
    simpa [and_assoc] using hq
  refine (if_neg (fun h => h.2 ho)).trans (setupRun_ok ?_ _)
  rw [queue, hr, decide_eq_false (Nat.not_le.2 ht)]
  rfl

end

/-- Settles O27: each row is its operation's, and its operation succeeds on valid fields. -/
theorem tableSetup : Obligations.TableSetup := by
  refine ⟨?profile, ?port, ?learnAge, ?learnSeeds, ?emSeeds, ?eventQ⟩
  case profile =>
    exact fun s b j g h hop hg hj hr ho he => setupRow_ok h hop (setupProfile_valid hg ⟨hj.1, hj.2.1⟩ hr ho he)
  case port => exact fun s b j k h hop hj ha hb => setupRow_ok h hop (setupPort_valid hj ha hb)
  case learnAge => exact fun s b j h hop hm hr hv => setupRow_ok h hop (setupLearnAge_valid hm hr hv)
  case learnSeeds => exact fun s b j h hop hr he => setupRow_ok h hop (setupLearnSeeds_empty hr he)
  case emSeeds => exact fun s b j h hop hj he => setupRow_ok h hop (setupEmSeeds_empty hj he)
  case eventQ => exact fun s b j i t h hop hj ho hq => setupRow_ok h hop (setupEventQ_valid hj ho hq)

end Sys2Proof.Machine
end

section
/-!
PROOFS. TABLE_LOOKUP, TABLE_DUMP and the bucket reads of EM lookups (ch. 5), then the obligation on them.
-/
namespace Sys2Proof.Machine

/-! ### TABLE_LOOKUP (R174, R176) -/

/-- What a lookup of table t finds in parity e, and EM_WHERE (log entry 28). -/
def State.tableFind (s : State) (p e : Nat) (key : List Byte) : Nat → Option (List Byte) × Nat
  | 0 => ((s.learnFind p key e).map (s.learnAt p), 3)
  | 1 => s.emPeek p (emKey key) e
  | 2 => (s.lpmFind p (rtVrf key) (rtAf key) (key.take (if rtAf key = 0 then 4 else 16)) e, 3)
  | _ => ((some (s.nhAt p (leNat key))).filter (fun r => liveIn 4 e r), 3)

/-- Bytes of the key that TABLE_LOOKUP reads for each table. -/
theorem lookupKeyLength_eq :
    ∀ t, (if t = 0 then 8 else if t = 1 then 21 else if t = 2 then 20 else 4) = [8, 21, 20].getD t 4
  | 0 | 1 | 2 | _ + 3 => rfl

/-- A lookup of a table that the caller may read reports what it finds, and writes the record. -/
theorem tableLookup_reads {b : State} {j : Job} {p e tenant n : Nat} {key : List Byte}
    (hp : oneOf (j.byte 0 4) = some p) (ht : j.byte 0 5 ≤ 3 ∧ j.byte 0 6 ≤ 2)
    (he : e = if j.byte 0 6 = 2 then b.parity p else j.byte 0 6 % 2) (hn : n = [8, 21, 20].getD (j.byte 0 5) 4)
    (hk : key = b.hostRd (b.jobLink j) (j.le 8 8) n)
    (hw : tenant = if j.byte 0 5 = 0 then lrTenant key else imB key 20 % 4)
    (ho : if j.byte 0 5 ≤ 1 then b.tenantOwner p tenant = b.jobFn j else b.jobFn j = b.owner)
    (hr : j.byte 0 5 = 3 → leNat key < 131072) :
    tableLookup j b = okRes ((b.tableFind p e key (j.byte 0 5)).1.elim (b.countMoved 30 n)
        (fun x => (b.countMoved 30 n).jobWrite j (j.le 16 8) (padTo 32 x)))
      [BitVec.ofNat 8 (b2n (b.tableFind p e key (j.byte 0 5)).1.isSome),
        BitVec.ofNat 8 (b.tableFind p e key (j.byte 0 5)).2] := by
  rw [← lookupKeyLength_eq] at hn
  subst he hw hk hn
  unfold tableLookup
  extract_lets t f n key tenant read
  have hrange : ¬(3 < t ∨ 2 < j.byte 0 6) := by simp only [t]; omega
  have howner : ¬(2 ≤ t ∧ f ≠ b.owner) := fun h => by
    rw [if_neg (Nat.not_le.2 h.1)] at ho
    exact h.2 ho
  have htenant : ¬(t ≤ 1 ∧ b.tenantOwner p tenant ≠ f) := fun h => by
    rw [if_pos h.1] at ho
    exact h.2 ho
  have hindex : ¬(t = 3 ∧ 131072 ≤ leNat key) := fun h => Nat.not_le.2 (hr h.1) h.2
  rw [hp]
  refine (if_neg hrange).trans ((if_neg howner).trans ((if_neg htenant).trans ((if_neg hindex).trans ?_)))
  extract_lets r s1
  have written : s1 = r.1.elim read (fun x => read.jobWrite j (j.le 16 8) (padTo 32 x)) := by
    simp only [s1]
    cases r.1 <;> rfl
  rw [written]
  rfl

/-- What a lookup finds, from its case for each table. -/
theorem tableFind_eq {s : State} {p e t : Nat} {key : List Byte} {r : Option (List Byte) × Nat} (ht : t ≤ 3)
    (h0 : t = 0 → r = s.tableFind p e key 0) (h1 : t = 1 → r = s.tableFind p e key 1)
    (h2 : t = 2 → r = s.tableFind p e key 2) (h3 : t = 3 → r = s.tableFind p e key 3) :
    r = s.tableFind p e key t :=
  match t, ht with
  | 0, _ => h0 rfl
  | 1, _ => h1 rfl
  | 2, _ => h2 rfl
  | 3, _ => h3 rfl

/-! ### TABLE_DUMP (R176, R177) -/

section
variable {b : State} {j : Job} {p : Nat} {l : List Nat}

/-- A dump whose entries all fit ends with the cursor of a dump that is done. -/
theorem dumpAll_eq {at_ : Nat → List Byte} {n : Nat} (h : l.length = n) :
    okRes (b.jobWrite j (j.le 8 8) ((l.take n).flatMap at_)) (leBytes 3 n ++ leBytes 4 (match l.drop n with
      | k :: _ => k
      | [] => 0xFFFFFFFF)) =
    okRes (b.jobWrite j (j.le 8 8) (l.flatMap at_)) (leBytes 3 l.length ++ leBytes 4 0xFFFFFFFF) := by
  subst h
  rw [List.take_length, List.drop_length]

/-- A dump of the learning table that fits. -/
theorem tableDump_learning (hp : oneOf (j.byte 0 4) = some p) (ht : j.byte 0 5 = 0)
    (hl : l = ((b.pipe p).learn.map (·.1)).filter (fun k => decide (j.le 20 4 ≤ k) && b.learnAt p k != [] &&
      decide (b.tenantOwner p (lrTenant (b.learnAt p k)) = b.jobFn j)))
    (hn : l.length ≤ min 16777215 (min l.length (j.le 16 4 / 16))) :
    tableDump j b = okRes (b.jobWrite j (j.le 8 8) (l.flatMap (b.learnAt p)))
      (leBytes 3 l.length ++ leBytes 4 0xFFFFFFFF) := by
  subst hl
  unfold tableDump
  rw [hp, ht]
  exact dumpAll_eq (Nat.le_antisymm hn (Nat.le_trans (Nat.min_le_right _ _) (Nat.min_le_left _ _)))

/-- A dump of the EM table that fits. -/
theorem tableDump_em (hp : oneOf (j.byte 0 4) = some p) (ht : j.byte 0 5 = 1)
    (hl : l = (b.emListed ++ (b.pipe p).emStash.map (fun e => emStash0 + e.1)).filter (fun k =>
      decide (j.le 20 4 ≤ k) && b.emAt p k != [] &&
      decide (b.tenantOwner p (imB (b.emAt p k) 20 % 4) = b.jobFn j)))
    (hn : l.length ≤ min 16777215 (min l.length (j.le 16 4 / 32))) :
    tableDump j b = okRes (b.jobWrite j (j.le 8 8) (l.flatMap (b.emAt p)))
      (leBytes 3 l.length ++ leBytes 4 0xFFFFFFFF) := by
  subst hl
  unfold tableDump
  rw [hp, ht]
  exact dumpAll_eq (Nat.le_antisymm hn (Nat.le_trans (Nat.min_le_right _ _) (Nat.min_le_left _ _)))

end

/-! ### Bucket reads (R161, R166, R169) -/

section
variable {s : State} {p i bk : Nat} {x : Packet} {w : EmWait}
  (hx : (s.pipe p).packets.find? (fun z => decide (z.frame = i)) = some x)
include hx

/-- A bucket read that finds its key ends the lookup that waits, and the packet is resolved (R161, R166). -/
theorem bucketReturn_found {u v : State} {y z : Packet} {r : List Byte} (hw : x.em = some w)
    (ho : s.anyOffline = false) (hb : bk = if w.second then s.emB2 w.key else s.emB1 w.key)
    (hr : s.bucketFind bk w.key x.epoch = some r) (hu : u = s.emFill p w (some r))
    (hy : y = { x with look := x.look.emFound r 2, em := none })
    (hz : (z, v) = if y.nhSrc = 2 then u.nhLookup p y else (y, u)) :
    s.bucketReturn p i true = v.setPipe p { v.pipe p with
      packets := (v.pipe p).packets.map (fun q => if q.frame = i then z.resolved else q) } := by
  subst hu hy hb
  unfold State.bucketReturn
  rw [hx]
  dsimp only
  rw [hw]
  dsimp only
  rw [if_neg (by simp [ho]), if_pos rfl, hr]
  dsimp only
  rw [← hz]

/-- A first bucket read that does not find its key, where keys have spilled, is followed by the second (R161). -/
theorem bucketReturn_second (hw : x.em = some w) (ho : s.anyOffline = false) (hs : w.second = false)
    (hb : bk = s.emB1 w.key) (hn : s.bucketFind bk w.key x.epoch = none) (hc : s.spillCnt bk ≠ 0) :
    s.bucketReturn p i true = (s.pipeCount p 37 1).setPipe p { (s.pipeCount p 37 1).pipe p with
      packets := ((s.pipeCount p 37 1).pipe p).packets.map (fun q => if q.frame = i then
        { x with em := some { w with second := true } } else q) } := by
  have first : (if w.second = true then s.emB2 w.key else s.emB1 w.key) = bk := by rw [hb, hs]; rfl
  unfold State.bucketReturn
  rw [hx]
  dsimp only
  rw [hw]
  dsimp only
  rw [if_neg (by simp [ho]), if_pos rfl, first, hn]
  exact if_pos ⟨hs, hc⟩

end

/-- Settles O28: each row is its command's body, or its pipeline's operation, in the case that the clause describes. -/
theorem tableReads : Obligations.TableReads := by
  refine ⟨?lookup, ?learning, ?em, ?found, ?second⟩
  case lookup =>
    intro s b j p e tenant n key r h hp ht he hn hk hw ho hi h0 h1 h2 h3
    obtain rfl : r = b.tableFind p e key (j.byte 0 5) := tableFind_eq ht.1 h0 h1 h2 h3
    exact jobRow_ok h (tableLookup_reads hp ht he hn hk hw ho hi)
  case learning =>
    rintro s b j p n l h hp ⟨ht, rfl, hf⟩ hl
    exact jobRow_ok h (tableDump_learning hp ht hl hf)
  case em =>
    rintro s b j p n l h hp ⟨ht, rfl, hf⟩ hl
    exact jobRow_ok h (tableDump_em hp ht hl hf)
  case found =>
    exact fun s u v p i bk x y z w r hx hw hb hr hu hz =>
      congrArg Host.Outcome.next (bucketReturn_found hx hw.1 hw.2 hb hr hu.1 hu.2 hz)
  case second =>
    exact fun s p i bk x w hx hw hb hn =>
      congrArg Host.Outcome.next (bucketReturn_second hx hw.1 hw.2.1 hw.2.2 hb hn.1 hn.2)

end Sys2Proof.Machine
end

section
/-!
PROOFS. Learning and ageing (ch. 5), then the obligation on them.
-/
namespace Sys2Proof.Machine

section
variable {s : State} {p : Nat}

/-- The arbiter that stands idle, outside SAFE, applies a local learn that is its oldest request (R149, R150). -/
theorem learnApply_own {key : List Byte} {port : Nat} {t : List LearnReq}
    (h : (s.pipe p).arbIdle = true ∧ s.halting = false) (hq : (s.pipe p).arbQ = .own key port :: t) :
    s.learnApply p = ((s.setPipe p { s.pipe p with arbQ := t }).applyOwn p key port).arbAdvance p := by
  unfold State.learnApply
  dsimp only
  rw [h.1, h.2, hq]
  rfl

/-- The arbiter that stands idle, outside SAFE, applies a notice that is its oldest request (R149, R152). -/
theorem noticeApply_notice {key : List Byte} {port o : Nat} {t : List LearnReq}
    (h : (s.pipe p).arbIdle = true ∧ s.halting = false) (hq : (s.pipe p).arbQ = .notice key port o :: t) :
    s.noticeApply p = ((s.setPipe p { s.pipe p with arbQ := t }).applyNotice p key port).arbAdvance p := by
  unfold State.noticeApply
  dsimp only
  rw [h.1, h.2, hq]
  rfl

/-- A visit of an entry that sends no refresh notice joins the arbiter's queue with the sweep's write, if it makes one
(R151, R156). -/
theorem ageingVisit_quiet {k : Nat}
    (h : s.learnAt p k ≠ [] ∧ s.halting = false ∧ s.sweepPaused p = false ∧ s.dutyRuns p = true)
    (hr : s.sweepRefreshes p (s.learnAt p k) = false) :
    s.ageingVisit p k = (s.sweepWrite p k).elim s
      (fun op => (s.arbPush p (.sweep (learnKey (s.learnAt p k)) op)).arbAdvance p) := by
  unfold State.ageingVisit
  extract_lets r s1
  have kept : s1 = s := if_neg (by simp [r, hr])
  rw [kept]
  refine (if_neg (by simp [r, h])).trans ?_
  cases s.sweepWrite p k <;> rfl

/-- The oldest refresh notice marks the hit of the pipeline's copies, outside SAFE (R156). -/
theorem refreshApply_first {key : List Byte} {t : List (List Byte)} (hq : (s.pipe p).refreshes = key :: t)
    (h : s.halting = false) :
    s.refreshApply p = s.setPipe p { s.pipe p with
      refreshes := t, learn := (s.learnCopies p key).foldl (fun a k => tabSet (fun _ => []) a k (withHit
        (s.learnAt p k) (s.tick p))) (s.pipe p).learn } := by
  unfold State.refreshApply
  dsimp only
  rw [hq]
  exact if_neg (by simp [h])

/-- The oldest learn notice is posted to its tenant's queue; one that the queue loses is counted (R155). -/
theorem learnNoticePost_queue {u : State} {t q : Nat} {r : List Byte} {rest : List (Nat × List Byte)}
    (hp : (s.pipe p).posts = (t, r) :: rest) (hd : s.dutyRuns 8 = true)
    (hq : s.findQ (s.tenantOwner p t) (s.rd (tenantBase p t) Reg.PIPE_TENANT_A_EVENT_Q) = some q)
    (hu : u = s.setPipe p { s.pipe p with posts := rest }) :
    s.learnNoticePost p = if ((u.postEvent q r).queue q).lost ≠ (u.queue q).lost then
      (u.postEvent q r).pipeCount p 32 1 else u.postEvent q r := by
  subst hu
  unfold State.learnNoticePost
  dsimp only
  rw [if_pos hd, hp]
  dsimp only
  rw [hq]

end

/-- Settles O29: each clause is its row's operation in the case that the clause describes. -/
theorem learning : Obligations.Learning := by
  refine ⟨?own, ?notice, fun _ _ => rfl, ?visit, ?refresh, ?post⟩
  case own => exact fun s p key port t h hq => congrArg Host.Outcome.next (learnApply_own h hq)
  case notice => exact fun s p key port o t h hq => congrArg Host.Outcome.next (noticeApply_notice h hq)
  case visit =>
    intro s p k h hr
    have e : exec (.ageingVisit p k) s = .next _ := congrArg Host.Outcome.next (ageingVisit_quiet h hr)
    exact ⟨fun hw => by rw [e, hw]; rfl, fun op hw => by rw [e, hw]; rfl⟩
  case refresh => exact fun s p key t hq h => congrArg Host.Outcome.next (refreshApply_first hq h)
  case post =>
    exact fun s u p t q r rest h hq hu => congrArg Host.Outcome.next (learnNoticePost_queue h.1 h.2 hq hu)

end Sys2Proof.Machine
end

section
/-!
PROOFS. The update commands (ch. 6), then the obligation on them.
-/
namespace Sys2Proof.Machine

/-- A well formed update of the learning table, whose arbiters hold it in t, leaves them to go on from there (R149). -/
theorem upd_joins_from {s b t : State} {j : Job} {op : Nat} {c : UpdCmd} (hr : s.updReady j = true)
    (h : s.takes { op := op, owner := false, safe := true } j b)
    (hc : c = updCmd b j ∧ c.mask ≠ 0 ∧ c.table = 1 ∧ updMalformed j c = false)
    (ht : t = forEach (maskList c.mask) (fun p s => s.setPipe p { s.pipe p with
      arbQ := (s.pipe p).arbQ ++ [.host j] }) (b.updTurn c.mask j.q)) :
    updRow op j s (s.updReady j) updRun = .next (forEach (maskList c.mask) (fun p s => s.arbAdvance p) t) := by
  subst ht
  exact upd_joins hr h hc

/-- Settles O30: an update whose turn it is begins with its checks' plan, or joins the learn arbiters. -/
theorem updateCommands : Obligations.UpdateCommands := by
  refine ⟨?insert, ?insertLearn, ?modify, ?modifyLearn, ?delete, ?deleteLearn, ?move, ?setup⟩
  case insert => exact fun _ _ _ _ _ _ hr h hc ht hb hp hj => upd_begins hr h hc ht hb hp hj
  case insertLearn => exact fun _ _ _ _ _ hr h hc ht => upd_joins_from hr h hc ht
  case modify => exact fun _ _ _ _ _ _ hr h hc ht hb hp hj => upd_begins hr h hc ht hb hp hj
  case modifyLearn => exact fun _ _ _ _ _ hr h hc ht => upd_joins_from hr h hc ht
  case delete => exact fun _ _ _ _ _ _ hr h hc ht hb hp hj => upd_begins hr h hc ht hb hp hj
  case deleteLearn => exact fun _ _ _ _ _ hr h hc ht => upd_joins_from hr h hc ht
  case move => exact fun _ _ _ _ _ _ hr h hc ht hb hp hj => upd_begins hr h hc ht hb hp hj
  case setup => exact fun s b j h => jobRow_ok h rfl

end Sys2Proof.Machine
end

section
/-!
PROOFS. Epoch batches (ch. 6): their commands, their drains and what ends them, then the obligation on them.
-/
namespace Sys2Proof.Machine

/-! ### Commands (R194, R198) -/

section
variable {b : State} {j : Job} {y : Batch}

/-- BATCH_OPEN of a mask whose groups are all idle (R194). -/
theorem batchOpen_idle {f n m : Nat} {u : State} (hm : m = j.byte 0 4 ∧ m ≠ 0 ∧ n = b.upd.next ∧ f = b.jobFn j)
    (hi : (maskList m).any (fun p => decide (b.rd (wPipe p) Reg.PIPE_UPD_STATUS_GROUP_STATE ≠ 0)) = false)
    (hu : u = forEach (maskList m) (fun p s => ((s.wr (wPipe p) Reg.PIPE_UPD_STATUS_BATCH_FUNC f).wr (wPipe p)
      Reg.PIPE_UPD_STATUS_BATCH_NUM n).wr (wPipe p) Reg.PIPE_UPD_JOURNAL_JOURNAL_USED 0) { b with
      upd := { b.upd with
        batches := b.upd.batches ++ [{ num := n, fn := f, mask := m }], next := if n = 65535 then 1 else n + 1 } }) :
    batchOpen j b = okRes (u.groupStates m 1)
      (leBytes 2 n ++ [BitVec.ofNat 8 (1 - b.parity ((maskList m).headD 0))]) := by
  obtain ⟨rfl, hm, rfl, rfl⟩ := hm
  subst hu
  unfold batchOpen
  exact (if_neg hm).trans (if_neg (by rw [hi]; decide))

/-- BATCH_COMMIT of an open batch of the function's; one with EM updates needs every stack (R198, R204). -/
theorem batchCommit_open (hy : b.batch (j.le 8 2) = some y) (hf : y.fn = b.jobFn j) (ho : y.st = 1)
    (he : y.em = true → b.anyOffline = false) :
    batchCommit j b = laterA ((b.setBatch { y with st := 2, job := some j }).groupStates y.mask 2) := by
  unfold batchCommit
  rw [hy]
  exact (if_neg (not_not_intro hf)).trans ((if_neg (not_not_intro ho)).trans (if_neg (by simpa using he)))

/-- BATCH_ABORT of an open batch, by its function or by the owner (R198). -/
theorem batchAbort_open (hy : b.batch (j.le 8 2) = some y) (hf : y.fn = b.jobFn j ∨ b.jobFn j = b.owner)
    (ho : y.st = 1) : batchAbort j b = laterA (b.startAbort y (some j) (if y.fn = b.jobFn j then 0 else 2)) := by
  unfold batchAbort
  rw [hy]
  exact (if_neg (fun h => hf.elim h.1 h.2)).trans (if_neg (not_not_intro ho))

end

/-! ### Drains and ends (R198 to R202) -/

section
variable {s : State} {y : Batch} {n : Nat}

/-- A batch has no write to land where no pipeline holds one of its writes and no step of EM ends one of its updates
(R198). -/
theorem batchWrites_none (hw : ∀ p < 8, ∀ w ∈ (s.pipe p).writes, w.job.bind batchOf ≠ some n)
    (he : ∀ j, EmStep.done j ∈ s.em.steps → batchOf j ≠ some n) : s.batchWrites n = false := by
  have below : ∀ p ∈ rangeFrom 0 8, p < 8 := by decide
  refine Bool.or_eq_false_iff.2 ⟨List.any_eq_false.2 (fun p hp => ?pipes), List.any_eq_false.2 (fun e hs => ?steps)⟩
  case pipes => simpa using hw p (below p hp)
  case steps =>
    cases e with
    | done j => simpa using he j hs
    | _ => simp

/-- A committing batch whose writes have landed, and whose groups do not normalise, drains (R198, R199). -/
theorem drainStart_landed (hy : s.batch n = some y) (hs : y.st = 2) (hh : s.halting = false)
    (hw : s.batchWrites n = false)
    (hn : (maskList y.mask).any (fun p => s.rdb (wPipe p) Reg.PIPE_UPD_STATUS_NORMALISING) = false) :
    s.drainStart n = (s.setBatch { y with st := 3 }).groupStates y.mask 3 := by
  unfold State.drainStart
  rw [hy]
  exact if_neg (by simp [hs, hh, hw, hn])

/-- A draining group that has not flipped flips its parity; a DRAIN_WARN_US of 0 records the drain (R199, R201). -/
theorem parityFlip_first {u v : State} {p : Nat} (hd : s.draining p = true) (hf : (s.pipe p).flipped = none)
    (hu : u = s.wr (wPipe p) Reg.PIPE_UPD_STATUS_PARITY (1 - s.parity p))
    (hv : v = u.setPipe p { u.pipe p with flipped := some s.clock.up, warned := false }) :
    s.parityFlip p = if s.rd (wPipe p) Reg.PIPE_UPD_DRAIN_DRAIN_WARN_US = 0 then v.drainSlow p else v := by
  subst hv hu
  exact if_neg (by simp [hd, hf])

/-- A drain that has not been reported, and outlasts its limit, is (R201). -/
theorem drainWarn_first {p t : Nat} (hd : s.draining p = true) (hf : (s.pipe p).flipped = some t)
    (hw : (s.pipe p).warned = false) : s.drainWarn p = s.drainSlow p :=
  if_neg (by simp [hd, hf, hw])

/-- The groups of a settled batch leave its drain: each measures it, keeps its journal's entries to normalise, and counts
the batch (R198 to R200). -/
def State.groupsSettled (s : State) (y : Batch) : State :=
  forEach (maskList y.mask) (fun p s =>
    let a := (s.wr (wPipe p) Reg.PIPE_UPD_DRAIN_LAST_DRAIN_NS
      (min 65535 (s.clock.up - (s.pipe p).flipped.getD s.clock.up))).wr (wPipe p) Reg.PIPE_UPD_STATUS_NORMALISING 1
    ((a.setPipe p { a.pipe p with flipped := none }).setNorm p (y.journal.filter (fun e => e.mask.testBit p))).pipeCount
      p 48 1) s

/-- The time since the first flip of a batch's groups (R208). -/
def State.sinceFlip (s : State) (y : Batch) : Nat :=
  s.clock.up - (maskList y.mask).foldl (fun a p => min a ((s.pipe p).flipped.getD a)) s.clock.up

/-- A draining batch whose groups have flipped, and hold no packet of the old parity, is committed (R198 to R200). -/
theorem drainEnd_empty {u v : State} (hy : s.batch n = some y) (hs : y.st = 3)
    (hf : (maskList y.mask).any (fun p =>
      decide ((s.pipe p).flipped = none ∨ s.inFlightOf p (1 - s.parity p) ≠ 0)) = false)
    (hu : u = ((s.dropBatch n).groupStates y.mask 0).groupsSettled y)
    (hv : v = (u.event Ev.BATCH_COMMITTED ((maskList y.mask).headD 0) n y.mask (s.sinceFlip y)).batchDone y) :
    s.drainEnd n = forEach (maskList y.mask) (fun p s => s.present p) v := by
  subst hv hu
  unfold State.drainEnd
  rw [hy]
  exact if_neg (by rw [hf]; simp [hs])

/-- An aborting batch whose undo writes have landed ends (R198, R202). -/
theorem undoDone_landed (hy : s.batch n = some y) (hs : y.st = 4) (hl : s.undoLeft y = false) :
    s.undoDone n = ((forEach (maskList y.mask) (fun p s => s.pipeCount p 49 1)
      ((s.dropBatch n).groupStates y.mask 0)).event Ev.BATCH_ABORTED ((maskList y.mask).headD 0) n y.mask
        y.cause).batchDone y := by
  unfold State.undoDone
  rw [hy]
  exact if_neg (by simp [hs, hl])

end

/-- Settles O31: each command in its turn runs its body, and each event its batch's or its group's operation, in the
case that the clause describes. -/
theorem batchCommands : Obligations.BatchCommands := by
  refine ⟨?openBatch, ?commit, ?abort, ?drainStart, ?flip, ?warn, ?drainEnd, ?undone⟩
  case openBatch =>
    exact fun s b j f n m u ht h hm hi hu => (updRow_eq ht).trans (jobRow_ok h (batchOpen_idle hm hi hu))
  case commit =>
    exact fun s b j y ht h hy hf he => (updRow_eq ht).trans (jobRow_later h (batchCommit_open hy hf.1 hf.2 he))
  case abort =>
    exact fun s b j y ht h hy hf ho => (updRow_eq ht).trans (jobRow_later h (batchAbort_open hy hf ho))
  case drainStart =>
    exact fun s n y hy hs hw he hn =>
      congrArg Host.Outcome.next (drainStart_landed hy hs.1 hs.2 (batchWrites_none hw he) hn)
  case flip => exact fun s u v p hd hu hv => congrArg Host.Outcome.next (parityFlip_first hd.1 hd.2 hu hv)
  case warn => exact fun s p t h => congrArg Host.Outcome.next (drainWarn_first h.1 h.2.1 h.2.2)
  case drainEnd =>
    exact fun s u v n y hy hs hf hu hv => congrArg Host.Outcome.next (drainEnd_empty hy hs hf hu hv)
  case undone => exact fun s n y hy hs hl => congrArg Host.Outcome.next (undoDone_landed hy hs hl)

end Sys2Proof.Machine
end

section
/-!
PROOFS. When a microword does not issue (ch. 7 and 8), on an engine of a pipeline and on a service engine, then the
obligation on it.
-/
namespace Sys2Proof.Machine

/-! ### Engines of the pipelines (R223, R224, R231 to R233, R250 to R255) -/

section
variable {s : State} {p t op : Nat} {body : MWord → State → State} (hp : p ≠ 8)
include hp

/-- An engine that runs nothing, or that is halted, issues nothing. -/
theorem issue_idle (h : (s.engine p t).busy = false ∨ s.mayIssue p t = false) : s.issue p t op body = s :=
  (if_neg hp).trans (if_pos h)

/-- An engine at its LIMIT traps in place of its word (R224). -/
theorem issue_exhausted (h : (s.engine p t).busy = true ∧ s.mayIssue p t = true)
    (he : (s.engine p t).exhausted = true) :
    s.issue p t op body = ((s.wordSpent p t).endWait p t).limitTrap p t :=
  (if_neg hp).trans ((if_neg (by simp [h])).trans (if_pos he))

/-- An engine whose frame has ended bad takes the interrupt in place of its word (R231). -/
theorem issue_frameBad (h : (s.engine p t).busy = true ∧ s.mayIssue p t = true ∧ (s.engine p t).exhausted = false)
    (hf : s.frameBadDue p t = true) : s.issue p t op body = (s.wordSpent p t).takeFrameBad p t :=
  (if_neg hp).trans ((if_neg (by simp [h])).trans ((if_neg (by simp [h])).trans (if_pos hf)))

section
variable (h : (s.engine p t).busy = true ∧ s.mayIssue p t = true ∧ (s.engine p t).exhausted = false ∧
  s.frameBadDue p t = false)
include h

/-- A ready engine traps at opcode 0xFF (R232). -/
theorem issue_badOp (hw : (s.currentWord p t).op = 0xFF) :
    s.issue p t op body = ((s.wordSpent p t).endWait p t).wordTrap p t 3 0 :=
  (if_neg hp).trans ((if_neg (by simp [h])).trans ((if_neg (by simp [h])).trans ((if_neg (by simp [h])).trans
    (if_pos hw))))

/-- A ready engine leaves a word of another operation to the row of that operation. -/
theorem issue_otherOp (hw : (s.currentWord p t).op ≠ 0xFF ∧ (s.currentWord p t).op ≠ op) :
    s.issue p t op body = s :=
  (if_neg hp).trans ((if_neg (by simp [h])).trans ((if_neg (by simp [h])).trans ((if_neg (by simp [h])).trans
    ((if_neg hw.1).trans (if_pos hw.2)))))

section
variable (hw : (s.currentWord p t).op = op ∧ (s.currentWord p t).op ≠ 0xFF)
include hw

/-- A word that must wait goes on waiting, or a wait on its condition begins, unless the wait before it took the engine
to its LIMIT (R222, R224). -/
theorem issue_waits {k : Nat} (hb : s.blocked p t (s.currentWord p t) = .wait k) (hk : k ≠ 0) :
    s.issue p t op body = if (s.engine p t).wait = k then s
      else if (((s.wordSpent p t).endWait p t).engine p t).exhausted then
        ((s.wordSpent p t).endWait p t).limitTrap p t
      else s.startWait p t k := by
  refine (if_neg hp).trans ((if_neg (by simp [h])).trans ((if_neg (by simp [h])).trans ((if_neg (by simp [h])).trans
    ((if_neg hw.2).trans ((if_neg (not_not_intro hw.1)).trans ?_)))))
  rw [hb]
  refine ite_congr (propext ⟨fun e => ?_, fun e => ?_⟩) (fun _ => rfl) (fun _ => rfl)
  · exact (Block.wait.inj e.1).symm
  · subst e
    exact ⟨rfl, hk⟩

section
variable (he : (((s.wordSpent p t).endWait p t).engine p t).exhausted = false)
include he

/-- A word whose request failed traps with the request's cause and detail, and takes the request (R226, R227). -/
theorem issue_fails {c x : Nat} (hb : s.blocked p t (s.currentWord p t) = .fail c x) :
    s.issue p t op body = (((s.wordSpent p t).endWait p t).takeFailed p t c x).wordTrap p t c x := by
  refine (if_neg hp).trans ((if_neg (by simp [h])).trans ((if_neg (by simp [h])).trans ((if_neg (by simp [h])).trans
    ((if_neg hw.2).trans ((if_neg (not_not_intro hw.1)).trans ?_)))))
  rw [hb]
  exact (if_neg (fun e => Block.noConfusion e.1)).trans (if_neg (by simp [he]))

/-- A word whose predicate is false takes one cycle (R250, R251). -/
theorem issue_skips {u : State} (hb : s.blocked p t (s.currentWord p t) = .go)
    (hc : (s.engine p t).flags.holds (s.currentWord p t).cond = false)
    (hu : u = (((s.wordSpent p t).endWait p t).setEngine p t
      { ((s.wordSpent p t).endWait p t).engine p t with timed := false }).pcEvent (some p) 0x03 1 (fun _ => true)
      { engine := some t, upc := (s.engine p t).upc, cond := awaited (s.engine p t) (s.currentWord p t),
        atEnd := false }) :
    s.issue p t op body = u.setEngine p t ((u.engine p t).next 1) := by
  subst hu
  refine (if_neg hp).trans ((if_neg (by simp [h])).trans ((if_neg (by simp [h])).trans ((if_neg (by simp [h])).trans
    ((if_neg hw.2).trans ((if_neg (not_not_intro hw.1)).trans ?_)))))
  rw [hb]
  exact (if_neg (fun e => Block.noConfusion e.1)).trans ((if_neg (by simp [he])).trans (if_neg (by simp [hc])))

end
end
end
end

/-! ### Service engines (R243, R261) -/

section
variable {s : State} {v op : Nat} {body : MWord → State → State}

/-- A service engine that does not run, or is halted, issues nothing, and leaves a word of another operation to the row
of that operation. -/
theorem svcIssue_idle (h : 16 ≤ v ∨ s.svcState v ≠ 1 ∨ (s.engine 8 v).handler ≠ 0 ∨ s.mayIssue 8 v = false ∨
    (s.svcWord v).op ≠ 0xFF ∧ (s.svcWord v).op ≠ op) : s.svcIssue v op body = s := by
  unfold State.svcIssue
  extract_lets e w d s1
  by_cases stopped : 16 ≤ v ∨ s.svcState v ≠ 1 ∨ e.handler ≠ 0 ∨ s.mayIssue 8 v = false
  · exact if_pos stopped
  · have other : w.op ≠ 0xFF ∧ w.op ≠ op := by
      simp only [not_or] at stopped
      obtain ⟨h1, h2, h3, h4⟩ := stopped
      exact (((h.resolve_left h1).resolve_left h2).resolve_left h3).resolve_left h4
    exact (if_neg stopped).trans ((if_neg other.1).trans (if_pos other.2))

section
variable (h : v < 16 ∧ s.svcState v = 1 ∧ (s.engine 8 v).handler = 0 ∧ s.mayIssue 8 v = true)
include h

/-- An engine of the cluster that runs and is not halted has no reason to stand still. -/
theorem svc_not_stopped :
    ¬(16 ≤ v ∨ s.svcState v ≠ 1 ∨ (s.engine 8 v).handler ≠ 0 ∨ s.mayIssue 8 v = false) := by
  simp [h]

/-- A running service engine stops at opcode 0xFF, and at a wait for the header window. -/
theorem svcIssue_badOp (hw : (s.svcWord v).op = 0xFF ∨ (s.svcWord v).op = op ∧ (s.svcWord v).wait = 7) :
    s.svcIssue v op body = (s.wordSpent 8 v).svcBadOp v := by
  refine (if_neg (svc_not_stopped h)).trans ?_
  by_cases hf : (s.svcWord v).op = 0xFF
  · exact if_pos hf
  · obtain ⟨ho, h7⟩ := hw.resolve_left hf
    exact (if_neg hf).trans ((if_neg (not_not_intro ho)).trans ((if_neg (by simp [h7])).trans (if_pos h7)))

section
variable (hw : (s.svcWord v).op = op ∧ (s.svcWord v).op ≠ 0xFF)
include hw

/-- A running service engine waits for the timer of its word. -/
theorem svcIssue_timer (h4 : (s.svcWord v).wait = 4 ∧ (s.svcWord v).count ≠ 0 ∧ (s.engine 8 v).timed = false) :
    s.svcIssue v op body = s.setEngine 8 v { s.engine 8 v with wait := 4, since := s.ccNow } :=
  (if_neg (svc_not_stopped h)).trans ((if_neg hw.2).trans ((if_neg (not_not_intro hw.1)).trans (if_pos h4)))

section
variable {u : State} (h7 : (s.svcWord v).wait ≠ 7)
  (h4 : (s.svcWord v).wait = 4 → (s.svcWord v).count = 0 ∨ (s.engine 8 v).timed = true)
  (hu : u = (s.wordSpent 8 v).setEngine 8 v { s.engine 8 v with wait := 0, timed := false })
include h7 h4 hu

/-- A word that waits for nothing is decided by its predicate, and then by the space that it works on. -/
theorem svcIssue_ready : s.svcIssue v op body =
    if (s.engine 8 v).flags.holds (s.svcWord v).cond = false then u.setEngine 8 v ((u.engine 8 v).next 1)
    else if (s.svcWord v).lacksSpace then u.svcBadOp v else body (s.svcWord v) u := by
  subst hu
  have untimed : ¬((s.svcWord v).wait = 4 ∧ (s.svcWord v).count ≠ 0 ∧ (s.engine 8 v).timed = false) := by
    rintro ⟨hw4, hc, ht⟩
    simpa [hc, ht] using h4 hw4
  exact (if_neg (svc_not_stopped h)).trans ((if_neg hw.2).trans ((if_neg (not_not_intro hw.1)).trans
    ((if_neg untimed).trans (if_neg h7))))

end
end
end
end

/-! ### The rows -/

/-- A row of microRows does what an issue of its operation does, whatever the operation's effect. -/
theorem exec_microRow {p : Fin 9} {t : Fin 64} {r : Instr × Nat} {s x : State} (hr : r ∈ microRows p t)
    (hx : ∀ body, s.issue p.val t.val r.2 body = x) : exec r.1 s = .next x := by
  obtain ⟨body, e⟩ := microRows_issue p t s r hr
  rw [e, hx body]

/-- A row of microRows of a service engine does what an issue of its operation does. -/
theorem exec_svcRow {t : Fin 64} {r : Instr × Nat} {s x : State} (hr : r ∈ microRows 8 t)
    (hx : ∀ body, s.svcIssue t.val r.2 body = x) : exec r.1 s = .next x :=
  exec_microRow hr (fun body => (if_pos rfl).trans (hx body))

/-- Settles O7: each clause is the case of an issue that it describes. -/
theorem microwordGates : Obligations.MicrowordGates := by
  refine ⟨?idle, ?limit, ?frameBad, ?badOp, ?otherOp, ?waits, ?fails, ?skips, ?svcIdle, ?svcBadOp, ?svcTimer, ?svcReady⟩
  case idle => exact fun p t r s hr h => exec_microRow hr.1 (fun _ => issue_idle hr.2 h)
  case limit => exact fun p t r s hr h he => exec_microRow hr.1 (fun _ => issue_exhausted hr.2 h he)
  case frameBad =>
    rintro p t r s u e hr ⟨rfl, h1, h2, h3⟩ hf ⟨rfl, hx⟩
    exact exec_microRow hr.1 (fun _ => (issue_frameBad hr.2 ⟨h1, h2, h3⟩ hf).trans (if_neg (by simp [hx])))
  case badOp => exact fun p t r s hr h hw => exec_microRow hr.1 (fun _ => issue_badOp hr.2 h hw)
  case otherOp => exact fun p t r s hr h hw => exec_microRow hr.1 (fun _ => issue_otherOp hr.2 h hw)
  case waits =>
    rintro p t r s w k hr h ⟨rfl, ho, hf, hb⟩ hk
    exact exec_microRow hr.1 (fun _ => issue_waits hr.2 h ⟨ho, hf⟩ hb hk)
  case fails =>
    rintro p t r s u w k x hr h ⟨rfl, ho, hf, hb⟩ ⟨rfl, he⟩
    exact exec_microRow hr.1 (fun _ => issue_fails hr.2 h ⟨ho, hf⟩ he hb)
  case skips =>
    rintro p t r s d u w hr h ⟨rfl, ho, hf, hb, hc⟩ ⟨rfl, he⟩ hu
    exact exec_microRow hr.1 (fun _ => issue_skips hr.2 h ⟨ho, hf⟩ he hb hc hu)
  case svcIdle => exact fun t r s hr h => exec_svcRow hr (fun _ => svcIssue_idle h)
  case svcBadOp =>
    rintro t r s w hr h ⟨rfl, hw⟩
    exact exec_svcRow hr (fun _ => svcIssue_badOp h hw)
  case svcTimer =>
    rintro t r s w hr h ⟨rfl, ho, hf, h4⟩
    exact exec_svcRow hr (fun _ => svcIssue_timer h ⟨ho, hf⟩ h4)
  case svcReady =>
    rintro t r s u w hr h ⟨rfl, ho, hf, h7, h4⟩ hu
    refine ⟨fun hc => exec_svcRow hr fun _ => ?_, fun hc hl => exec_svcRow hr fun _ => ?_⟩
    · exact (svcIssue_ready h ⟨ho, hf⟩ h7 h4 hu).trans (if_pos hc)
    · exact (svcIssue_ready h ⟨ho, hf⟩ h7 h4 hu).trans ((if_neg (by simp [hc])).trans (if_pos hl))

end Sys2Proof.Machine
end

section
/-!
PROOFS. Dispatch, waits, limits and parking of the routine engines, and the completion of their requests (ch. 7), then
the obligations on them.
-/
namespace Sys2Proof.Machine

/-! ### Dispatch (R209 to R212) -/

/-- The next packet goes to its free engine, and is counted; one whose opcode has no dispatch entry traps. -/
theorem dispatch_next {s u v w : State} {p t : Nat} {x : Packet} {e : Engine}
    (h : s.halting = false ∧ s.csValid p = true) (hn : s.nextDispatch p = some (x, t)) (he : e = s.freshEngine p t x)
    (hu : u = s.setPipe p { s.pipe p with
      packets := (s.pipe p).packets.filter (fun z => decide (z.frame ≠ x.frame)) })
    (hv : v = { u.setEngine p t e with tenon := { u.tenon with next := u.tenon.next + 1 } })
    (hw : w = (v.setMarks p ((v.marks p).map (fun m =>
      if m.engine = none then { m with engine := some t } else m))).countDispatch p e.opcode) :
    s.dispatch p = if (csDispatch (s.store p e.bank) e.opcode).testBit 31 then w else w.raiseTrap p t 4 0 e.upc 0 := by
  subst hw hv hu he
  unfold State.dispatch
  rw [if_neg (by simp [h]), hn]
  exact if_neg (by simp [h])

/-! ### Waits (R222, R253, R255) -/

section
variable {s : State} {p t : Nat} (h : (s.engine p t).busy = true ∧ (s.engine p t).wait ≠ 0)
include h

/-- An engine that waits, and whose word must wait, goes on waiting or waits on the word's condition. -/
theorem wakeEngine_waits {k : Nat} (hb : s.blocked p t (s.currentWord p t) = .wait k) :
    s.wakeEngine p t = if k = (s.engine p t).wait then s else s.startWait p t k := by
  unfold State.wakeEngine
  exact (if_neg (by simp [h])).trans (by rw [hb])

/-- An engine that waits, and whose word need not, ends its wait. -/
theorem wakeEngine_ends (hb : ∀ k, s.blocked p t (s.currentWord p t) ≠ .wait k) :
    s.wakeEngine p t = s.endWait p t := by
  unfold State.wakeEngine
  refine (if_neg (by simp [h])).trans ?_
  cases hc : s.blocked p t (s.currentWord p t) with
  | wait k => exact absurd hc (hb k)
  | go => rfl
  | fail c d => rfl

end

/-- An engine that its own update is read back from. -/
theorem engine_setEngine_self (s : State) (p t : Nat) (x : Engine) : (s.setEngine p t x).engine p t = x :=
  (engine_setEngine (s := s) p t x p t).trans (if_pos ⟨rfl, rfl⟩)

/-- The timer of an engine of a pipeline reaches 0 (R255). -/
theorem timerExpiry_pipe {s u : State} {p t : Nat}
    (h : p ≠ 8 ∧ (s.engine p t).busy = true ∧ (s.engine p t).wait = 4)
    (hu : u = s.setEngine p t { s.engine p t with timed := true }) : s.timerExpiry p t = u.wakeEngine p t := by
  subst hu
  exact (if_neg h.1).trans (if_pos h.2)

/-- The timer of a service engine reaches 0 (R255). -/
theorem timerExpiry_service {s : State} {t : Nat} (h : (s.engine 8 t).wait = 4) :
    s.timerExpiry 8 t = s.setEngine 8 t { s.engine 8 t with timed := true, wait := 0 } := by
  unfold State.timerExpiry
  rw [if_pos rfl]
  exact if_pos h

/-! ### Limits and bad frames (R224, R231, R232) -/

section
variable {s u : State} {p t : Nat} (hu : u = s.endWait p t)
include hu

/-- A routine whose cycles, with those of its wait, reach LIMIT traps (R224). -/
theorem limitReached_spent (hb : (s.engine p t).busy = true) (hl : (u.engine p t).left = 0) :
    s.limitReached p t = u.raiseTrap p t 1 0 0 0 := by
  subst hu
  exact if_pos (by simp [hb, Engine.exhausted, hl])

/-- A FRAME_BAD interrupt that is due is taken, unless the wait that it ends reached LIMIT (R231, R232). -/
theorem frameBadInterrupt_due (h : s.frameBadDue p t = true) :
    s.frameBadInterrupt p t = if (u.engine p t).left = 0 then u.raiseTrap p t 1 0 0 0
      else (u.setEngine p t { u.engine p t with badSeen := true }).raiseTrap p t 0x10 0 (s.engine p t).upc
        (s.engine p t).wait := by
  subst hu
  exact (if_pos h).trans (ite_congr (propext decide_eq_true_iff) (fun _ => rfl) (fun _ => rfl))

end

/-- Settles O33: each row is its operation, in the case that the clause describes. -/
theorem tenonEngines : Obligations.TenonEngines := by
  refine ⟨?dispatch, ?timer, ?serviceTimer, ?byte, ?limit, ?frameBad, ?park, ?unpark⟩
  case dispatch =>
    exact fun s u v w p x t e h hn he hu hv hw => congrArg Host.Outcome.next (dispatch_next h hn he hu hv hw)
  case timer =>
    intro s u p t h hu
    have hx : u.engine p.val t.val = { s.engine p.val t.val with timed := true } := by
      rw [hu, engine_setEngine_self]
    have waits : (u.engine p.val t.val).busy = true ∧ (u.engine p.val t.val).wait ≠ 0 := by simp [hx, h]
    have wakes := timerExpiry_pipe h hu
    refine ⟨fun k hb => congrArg Host.Outcome.next (wakes.trans ((wakeEngine_waits waits hb).trans ?_)),
      fun hb => congrArg Host.Outcome.next (wakes.trans (wakeEngine_ends waits hb))⟩
    rw [hx, h.2.2]
  case serviceTimer => exact fun s t h => congrArg Host.Outcome.next (timerExpiry_service h)
  case byte =>
    intro s p t h
    have waits : (s.engine p.val t.val).busy = true ∧ (s.engine p.val t.val).wait ≠ 0 := by simp [h]
    refine ⟨fun k hb => congrArg Host.Outcome.next ((if_pos h.2).trans ((wakeEngine_waits waits hb).trans ?_)),
      fun hb => congrArg Host.Outcome.next ((if_pos h.2).trans (wakeEngine_ends waits hb))⟩
    rw [h.2]
  case limit => exact fun s u p t hb hu hl => congrArg Host.Outcome.next (limitReached_spent hu hb hl)
  case frameBad => exact fun s u p t h hu => congrArg Host.Outcome.next (frameBadInterrupt_due hu h)
  case park => exact fun s p t hb h => congrArg Host.Outcome.next (if_pos ⟨hb, h⟩)
  case unpark => exact fun s p t h => congrArg Host.Outcome.next (if_pos h)

/-! ### Completions (R225 to R230, R254, R266) -/

section
variable {s : State} {r : Req}

/-- A lookup delivers the record that its slot found, or what the DRAM buckets hold (R225). -/
theorem lookupComplete_slotted {p t bad n : Nat} {key : List Byte}
    (hf : s.tenon.reqs.find? (fun r => r.isLookup p && decide (r.engine = t) && r.slotted) = some r)
    (ho : r.op = .lookup n key) {x : List Byte × State}
    (hx : x = r.found.elim (lookupRecord (s.dramLookup p r.epoch key bad).1, (s.dramLookup p r.epoch key bad).2)
      (fun b => (b, s))) :
    s.lookupComplete p t bad =
      x.2.finish r ((rangeFrom 0 4).map (fun i => BitVec.ofNat 64 (leNat (slice x.1 (8 * i) 8)))) := by
  subst hx
  unfold State.lookupComplete
  rw [hf]
  dsimp only
  rw [ho]
  cases r.found <;> rfl

/-- The oldest meter call of the device gets its verdict (R228, R229, R259). -/
theorem meterVerdict_oldest {m len colour : Nat} {writes : Bool} {v : Nat × State}
    (hr : s.oldestReq 2 none none = some r) (ho : r.op = .meter m len colour writes)
    (hv : v = s.meterCall m len colour) :
    s.meterVerdict = (if writes && s.reqAlive r then v.2.setEngine r.pipe r.engine { v.2.engine r.pipe r.engine with
      md := setColour (v.2.engine r.pipe r.engine).md v.1 } else v.2).finish r [BitVec.ofNat 64 v.1] := by
  subst hv
  unfold State.meterVerdict
  rw [hr]
  dsimp only
  rw [ho]

/-- The oldest clone of an engine gets its head cells, where its pair can be charged for them (R230). -/
theorem cellsReserved_all {p t k n : Nat} {c : CloneSt} {e : Engine} {v : List Nat × State}
    (hr : s.oldestReq 3 (some p) (some t) = some r) (ho : r.op = .cells k) (he : e = s.engine p t)
    (hc : c = e.clones.getD k {}) (hn : n = e.headCells c.md)
    (hv : v = s.chargeCells (s.frame e.frame).pairPort (s.frame e.frame).pairTc n) (hl : n ≤ v.1.length) :
    s.cellsReserved p t = (v.2.setEngine p t { e with
      clones := e.clones.set k { c with cells := some v.1 } }).finish r [BitVec.ofNat 64 k] := by
  subst hv hn hc he
  unfold State.cellsReserved
  rw [hr]
  dsimp only
  rw [ho]
  exact if_neg (Nat.not_lt.2 hl)

section
variable {p ecc : Nat} (hr : s.oldestReq 5 (some p) none = some r)
include hr

/-- A word of a host's read is read in its turn, with the error that it met (R266). -/
theorem stateComplete_hostRead {i : Nat} {j : Job} (ho : r.op = .hostRead i j) :
    s.stateComplete p ecc = (if ecc = 1 then s.pipeCount p 99 1 else s).spanRead r p i ecc j := by
  simp only [State.stateComplete, hr, ho]

/-- A word of a host's write is written in its turn (R266). -/
theorem stateComplete_hostWrite {i : Nat} {v : Word64} {j : Job} (ho : r.op = .hostWrite i v j) :
    s.stateComplete p ecc = (s.setStateWord p i v).spanDone r j := by
  simp only [State.stateComplete, hr, ho]

/-- A write of a state word (R226). -/
theorem stateComplete_write {i : Nat} {v : Word64} (ho : r.op = .stWrite i v) :
    s.stateComplete p ecc = (s.setStateWord p i v).finish r [] := by
  simp only [State.stateComplete, hr, ho]

/-- A read of a state word, which fails at a double-bit error (R226). -/
theorem stateComplete_read {i : Nat} (ho : r.op = .stRead i) :
    s.stateComplete p ecc = if ecc = 2 then (s.failReq r 0x0C 0).faultPipe p 8 0
      else (if ecc = 1 then s.pipeCount p 99 1 else s).finish r [s.stateWord p i] := by
  simp only [State.stateComplete, hr, ho]

/-- An addition to a state word, which fails at a double-bit error (R226). -/
theorem stateComplete_add {i : Nat} {v : Word64} (ho : r.op = .stAdd i v) :
    s.stateComplete p ecc = if ecc = 2 then (s.failReq r 0x0C 0).faultPipe p 8 0
      else ((if ecc = 1 then s.pipeCount p 99 1 else s).setStateWord p i (s.stateWord p i + v)).finish r
        [s.stateWord p i] := by
  simp only [State.stateComplete, hr, ho]

/-- A compare-and-swap of a state word, which fails at a double-bit error (R226). -/
theorem stateComplete_swap {i : Nat} {o v : Word64} (ho : r.op = .stSwap i o v) :
    s.stateComplete p ecc = if ecc = 2 then (s.failReq r 0x0C 0).faultPipe p 8 0
      else (if s.stateWord p i = o then (if ecc = 1 then s.pipeCount p 99 1 else s).setStateWord p i v
        else (if ecc = 1 then s.pipeCount p 99 1 else s)).finish r [s.stateWord p i] := by
  simp only [State.stateComplete, hr, ho]

end

section
variable {p t a d : Nat} (ok : Bool) (hr : s.oldestReq 6 (some p) (some t) = some r)
include hr

/-- A DRAM read returns its word, or fails (R227). -/
theorem dramComplete_read (ho : r.op = .dRead a d) :
    s.dramComplete p t ok = if ok && !s.stackOffline (stackOf a) then
      s.finish r [BitVec.ofNat 64 (leNat (s.dramRd a 8))] else s.failReq r 0x0B (d % 2 ^ 32) := by
  simp only [State.dramComplete, hr, ho]

/-- A DRAM write writes its word, or fails (R227). -/
theorem dramComplete_write {v : Word64} (ho : r.op = .dWrite a d v) :
    s.dramComplete p t ok = if s.stackOffline (stackOf a) then s.failReq r 0x0B (d % 2 ^ 32)
      else (s.dramWr a (leBytes 8 v.toNat)).finish r [] := by
  simp only [State.dramComplete, hr, ho]

end
end

/-- Settles O34: each row completes the oldest request of its kind, by the case of its operation. -/
theorem tenonRequests : Obligations.TenonRequests := by
  refine ⟨?lookup, ?meter, ?cells, ?state, ?dram⟩
  case lookup =>
    intro s p t bad r n key hf ho
    have e : exec (.lookupComplete p t bad) s = .next _ := congrArg Host.Outcome.next (lookupComplete_slotted hf ho rfl)
    exact ⟨fun b hb => by rw [e, hb]; rfl, fun hn => by rw [e, hn]; rfl⟩
  case meter => exact fun s r m len colour writes v hr ho hv => congrArg Host.Outcome.next (meterVerdict_oldest hr ho hv)
  case cells =>
    exact fun s p t r k n c e v hr ho he hc hn hv hl =>
      congrArg Host.Outcome.next (cellsReserved_all hr ho he hc hn hv hl)
  case state =>
    rintro s u p e r i hr rfl
    refine ⟨?write, ?read, ?add, ?swap, ?failed, ?hostRead, ?hostWrite⟩
    case write => exact fun v ho => congrArg Host.Outcome.next (stateComplete_write hr ho)
    case read => exact fun ho he => congrArg Host.Outcome.next ((stateComplete_read hr ho).trans (if_neg he))
    case add => exact fun v ho he => congrArg Host.Outcome.next ((stateComplete_add hr ho).trans (if_neg he))
    case swap => exact fun o v ho he => congrArg Host.Outcome.next ((stateComplete_swap hr ho).trans (if_neg he))
    case failed =>
      rintro he (ho | ⟨v, ho⟩ | ⟨o, v, ho⟩)
      · exact congrArg Host.Outcome.next ((stateComplete_read hr ho).trans (if_pos he))
      · exact congrArg Host.Outcome.next ((stateComplete_add hr ho).trans (if_pos he))
      · exact congrArg Host.Outcome.next ((stateComplete_swap hr ho).trans (if_pos he))
    case hostRead => exact fun j ho => congrArg Host.Outcome.next (stateComplete_hostRead hr ho)
    case hostWrite => exact fun v j ho => congrArg Host.Outcome.next (stateComplete_hostWrite hr ho)
  case dram =>
    exact fun s p t ok r a d v hr => ⟨fun ho => congrArg Host.Outcome.next (dramComplete_read ok hr ho),
      fun ho => congrArg Host.Outcome.next (dramComplete_write ok hr ho)⟩

end Sys2Proof.Machine
end

section
/-!
PROOFS. The arithmetic and memory microwords (ch. 8), then the obligation on them.
-/
namespace Sys2Proof.Machine

section
variable {s u : State} {p : Fin 9} {t : Fin 64} {op : Nat} {w : MWord} {e : Engine} {a b : Word64} {g : MFlags}
  {cost : Nat} {f : MWord → MFlags → Word64 → Word64 → Word64 × MFlags}
  (h : s.issues p.val t.val op w u) (he : e = u.engine p.val t.val) (ha : a = e.opA w) (hb : b = e.opB w)
include h he ha hb

/-- An arithmetic word that issues gives the result and the flags of its operation (R249, R256). -/
theorem aluIssue_gives {r : Word64} (hf : f w e.flags a b = (r, g)) :
    s.aluIssue p t op f true cost = .next (u.setEngine p.val t.val (e.gives w r g cost)) := by
  subst he ha hb
  refine congrArg Host.Outcome.next ((issue_go h _).trans ?_)
  unfold State.aluWord
  dsimp only
  rw [hf]
  rfl

/-- A comparison that issues gives its flags alone (R249, R256). -/
theorem aluIssue_compares (hf : (f w e.flags a b).2 = g) :
    s.aluIssue p t op f false cost =
      .next (u.setEngine p.val t.val ((if w.nf then e else e.setFlags g).next cost)) := by
  subst he ha hb
  refine congrArg Host.Outcome.next ((issue_go h _).trans ?_)
  unfold State.aluWord
  dsimp only
  rw [hf]
  rfl

end

/-- The folded sum of CSUM, by the parts of B (R256). -/
theorem csumFlags_eq (f : MFlags) (a b : Word64) : csumFlags f a b =
    (BitVec.ofNat 64 (fold16 (a.toNat % 65536 + b.toNat % 65536 + b.toNat / 2 ^ 16 % 65536 +
      b.toNat / 2 ^ 32 % 65536 + b.toNat / 2 ^ 48 % 65536)),
     { f with z := decide (BitVec.ofNat 64 (fold16 (a.toNat % 65536 + b.toNat % 65536 + b.toNat / 2 ^ 16 % 65536 +
      b.toNat / 2 ^ 32 % 65536 + b.toNat / 2 ^ 48 % 65536)) = 0) }) := by
  simp only [csumFlags, Nat.mul_zero, Nat.pow_zero, Nat.div_one, Nat.reduceMul]

section
variable {u : State} {p t : Nat} {w : MWord} {e : Engine} (he : e = u.engine p t)
include he

/-- A load within its space (R252). -/
theorem loadWord_within (h : e.address w + 2 ^ w.size ≤ spaceSize w.space) :
    u.loadWord p t w = u.setEngine p t ((e.setReg w.dst (memValue w.net (e.spaceBytes (u.frame e.frame).recv w.space
      (e.address w) (2 ^ w.size)))).next 1) := by
  subst he
  exact if_neg (Nat.not_lt.2 h)

/-- A load beyond its space (R252). -/
theorem loadWord_beyond (h : spaceSize w.space < e.address w + 2 ^ w.size) :
    u.loadWord p t w = u.windowTrap p t w.space (e.address w) := by
  subst he
  exact if_pos h

/-- A store of bytes that it may write (R252). -/
theorem storeWord_within (h : e.storeTraps w.space (e.address w) (2 ^ w.size) = false) :
    u.storeWord p t w = u.setEngine p t ((e.store w.space (e.address w)
      (memBytes w.net (2 ^ w.size) (e.opB w))).next 1) := by
  subst he
  exact if_neg (by simp [h])

/-- A store beyond its space, or to a read-only field (R215, R252). -/
theorem storeWord_traps (h : e.storeTraps w.space (e.address w) (2 ^ w.size) = true) :
    u.storeWord p t w = u.windowTrap p t w.space (e.address w) := by
  subst he
  exact if_pos h

/-- A block move within the window (R256). -/
theorem moveWord_within (h : w.imm % 512 + w.aux % 128 ≤ 256 ∧ w.offset + w.aux % 128 ≤ 256) :
    u.moveWord p t w = u.setEngine p t (Engine.next { e with
      win := winWrite e.win w.offset (winBytes e.win (u.frame e.frame).recv (w.imm % 512) (w.aux % 128)) }
        (1 + (w.aux % 128 + 31) / 32)) := by
  subst he
  exact (if_neg (Nat.not_lt.2 h.1)).trans (if_neg (Nat.not_lt.2 h.2))

end

/-- Settles O35: an arithmetic row gives its operation's result and flags, and a memory row its word's effect, in the
case that the clause describes. -/
theorem microArithmeticAndMemory : Obligations.MicroArithmeticAndMemory := by
  refine ⟨?nop, ?mov, ?add, ?sub, ?and, ?or, ?xor, ?shl, ?shr, ?sar, ?rol, ?mul, ?cmp, ?tst, ?ext, ?ins, ?crc, ?csum,
    ?load, ?loadTrap, ?store, ?storeTrap, ?move⟩
  case nop | mov => exact fun s u p t w e h he => congrArg Host.Outcome.next ((issue_go h _).trans (by rw [he]))
  case add | sub | and | or | xor | shl | shr | sar | rol | mul | ext | ins | crc =>
    exact fun s u p t w e a b r h he ha hb hr => aluIssue_gives h he ha hb (by rw [hr]; rfl)
  case cmp | tst => exact fun s u p t w e a b r h he ha hb hr => aluIssue_compares h he ha hb (by rw [hr]; rfl)
  case csum =>
    exact fun s u p t w e a b r h he ha hb hr =>
      aluIssue_gives h he ha hb ((csumFlags_eq e.flags a b).trans (by rw [hr]; rfl))
  case load =>
    exact fun s u p t w e h he hk => congrArg Host.Outcome.next ((issue_go h _).trans (loadWord_within he hk))
  case loadTrap =>
    exact fun s u p t w e h he hk => congrArg Host.Outcome.next ((issue_go h _).trans (loadWord_beyond he hk))
  case store =>
    exact fun s u p t w e h he hk => congrArg Host.Outcome.next ((issue_go h _).trans (storeWord_within he hk))
  case storeTrap =>
    exact fun s u p t w e h he hk => congrArg Host.Outcome.next ((issue_go h _).trans (storeWord_traps he hk))
  case move =>
    exact fun s u p t w e h he hk => congrArg Host.Outcome.next ((issue_go h _).trans (moveWord_within he hk))

end Sys2Proof.Machine
end

section
/-!
PROOFS. The microwords that issue requests, and those that control the routine (ch. 8), then the obligations on them.
-/
namespace Sys2Proof.Machine

/-! ### Requests (R223 to R230, R257 to R259) -/

section
variable {u : State} {p t : Nat} {w : MWord}

/-- A DRAM word at an offset within its pipeline's region issues its request (R227, R257). -/
theorem dramWord_within {r : Nat} (hr : r = w.aux + (u.engine p t).off w) (h : u.dramTraps p r = false)
    (op : Nat → Nat → ReqOp) (regs : List Nat) :
    u.dramWord p t w op regs = u.request p t (op ((u.region p).1 + r) r) regs := by
  subst hr
  exact if_neg (by simp [h])

/-- A DRAM word at a bad offset traps (R227, R257). -/
theorem dramWord_traps {r : Nat} (hr : r = w.aux + (u.engine p t).off w) (h : u.dramTraps p r = true)
    (op : Nat → Nat → ReqOp) (regs : List Nat) : u.dramWord p t w op regs = u.wordTrap p t 0x0B (r % 2 ^ 32) := by
  subst hr
  exact if_pos h

section
variable {e : Engine} (he : e = u.engine p t)
include he

/-- A lookup of one of the tables 0 to 2, of at most four, issues its request (R225, R258). -/
theorem lookupWord_issues (h : w.aux % 4 ≠ 3 ∧ e.count 1 < 4) :
    u.lookupWord p t w = u.request p t (.lookup (w.aux % 4) (e.lookupKey w)) (rangeFrom w.dst 4) := by
  subst he
  exact if_neg (fun hx => hx.elim h.1 (Nat.not_le.2 h.2))

/-- A lookup of table 3, or a fifth one, traps (R225, R258). -/
theorem lookupWord_traps (h : w.aux % 4 = 3 ∨ 4 ≤ e.count 1) : u.lookupWord p t w = u.wordTrap p t 8 0 := by
  subst he
  exact if_pos h

section
variable {m : Nat} (hm : m = w.aux % 2 ^ 18 + e.off w)
include hm

/-- A call of a meter that there is, of at most four, issues its request, and its length is noted (R228, R259). -/
theorem meterWord_issues {len : Nat} (hn : len = (e.opB w).toNat % 2 ^ 15) (h : m < 262144 ∧ e.count 2 < 4) :
    u.meterWord p t w =
      (u.request p t (.meter m len (mdColour e.md) (w.aux.testBit 18)) [w.dst]).noteCharge e.frame len := by
  subst hm hn he
  exact if_neg (fun hx => hx.elim (Nat.not_le.2 h.1) (Nat.not_le.2 h.2))

/-- A call of a meter beyond the last, or a fifth one, traps (R228, R259). -/
theorem meterWord_traps (h : 262144 ≤ m ∨ 4 ≤ e.count 2) : u.meterWord p t w = u.wordTrap p t 7 (m % 2 ^ 32) := by
  subst hm he
  exact if_pos h

end

/-- A clone, of at most four, is made of the window and the metadata, and its head cells are requested (R230). -/
theorem cloneWord_issues (h : e.count 3 < 4) : u.cloneWord p t w = (u.setEngine p t { e with
    clones := e.clones ++ [{ win := e.win, md := e.md }] }).request p t (.cells e.clones.length) [w.dst] := by
  subst he
  exact if_neg (Nat.not_le.2 h)

/-- A fifth clone traps (R230). -/
theorem cloneWord_traps (h : 4 ≤ e.count 3) : u.cloneWord p t w = u.wordTrap p t 9 0 := by
  subst he
  exact if_pos h

end
end

/-- Settles O36: each word that issues makes its request, or traps, in the case that the clause describes. -/
theorem microRequests : Obligations.MicroRequests := by
  refine ⟨?srd, ?swr, ?sadd, ?scas, ?drd, ?drdTrap, ?dwr, ?dwrTrap, ?lkp, ?lkpTrap, ?mtr, ?mtrTrap, ?clone, ?cloneTrap⟩
  case srd | swr | sadd | scas =>
    rintro s u p t w e h rfl
    exact congrArg Host.Outcome.next (issue_go h _)
  case drd =>
    rintro s u p t w e r h rfl hr hd
    exact congrArg Host.Outcome.next ((issue_go h _).trans (dramWord_within hr hd .dRead [w.dst]))
  case drdTrap =>
    rintro s u p t w e r h rfl hr hd
    exact congrArg Host.Outcome.next ((issue_go h _).trans (dramWord_traps hr hd .dRead [w.dst]))
  case dwr =>
    rintro s u p t w e r h rfl hr hd
    exact congrArg Host.Outcome.next ((issue_go h _).trans (dramWord_within hr hd _ []))
  case dwrTrap =>
    rintro s u p t w e r h rfl hr hd
    exact congrArg Host.Outcome.next ((issue_go h _).trans (dramWord_traps hr hd _ []))
  case lkp =>
    exact fun s u p t w e h he hl => congrArg Host.Outcome.next ((issue_go h _).trans (lookupWord_issues he hl))
  case lkpTrap =>
    exact fun s u p t w e h he hl => congrArg Host.Outcome.next ((issue_go h _).trans (lookupWord_traps he hl))
  case mtr =>
    exact fun s u p t w e m len h he hm hn hl =>
      congrArg Host.Outcome.next ((issue_go h _).trans (meterWord_issues he hm hn hl))
  case mtrTrap =>
    exact fun s u p t w e m len h he hm hn hl =>
      congrArg Host.Outcome.next ((issue_go h _).trans (meterWord_traps he hm hl))
  case clone =>
    exact fun s u p t w e h he hc => congrArg Host.Outcome.next ((issue_go h _).trans (cloneWord_issues he hc))
  case cloneTrap =>
    exact fun s u p t w e h he hc => congrArg Host.Outcome.next ((issue_go h _).trans (cloneWord_traps he hc))

/-! ### RTN and END (R218, R221, R230, R234, R235, R343) -/

section
variable {u : State} {p t : Nat} {e : Engine} (he : e = u.engine p t)
include he

/-- RTN in the handler of a trap that can be resumed restores the flags and goes to the resume address (R234, R260). -/
theorem returnWord_resumes (h : 2 ≤ e.handler) {x : MFlags} (hx : x = {
      z := (imB e.trap 5).testBit 3, n := (imB e.trap 5).testBit 2, c := (imB e.trap 5).testBit 1,
      v := (imB e.trap 5).testBit 0 }) :
    u.returnWord p t = u.setEngine p t (Engine.goTo { e.setFlags x with handler := 0 } (imH e.trap 0) 2) := by
  subst hx he
  exact if_neg (Nat.not_le.2 h)

/-- RTN outside such a handler traps (R232, R234). -/
theorem returnWord_traps (h : e.handler ≤ 1) : u.returnWord p t = u.wordTrap p t 3 0 := by
  subst he
  exact if_pos h

/-- END of a packet whose destination is no valid one traps (R221). -/
theorem endRoutine_badDest (hd : u.destInvalid e.md = true) : u.endRoutine p t = u.wordTrap p t 0x05 0 := by
  subst he
  exact if_pos hd

section
variable {f : Frame} (hf : f = u.frame e.frame)
include hf

/-- END of a packet that is to recirculate after its last pass traps (R221). -/
theorem endRoutine_lastPass (hd : u.destInvalid e.md = false ∧ mdKind e.md = 4 ∧ f.pass = 7) :
    u.endRoutine p t = u.wordTrap p t 0x0A 0 := by
  subst hf he
  exact (if_neg (by simp [hd.1])).trans (if_pos hd.2)

section
variable {g : Frame} (hg : g = e.build f e.win e.md)
include hg

/-- END of a packet of a bad length traps (R218). -/
theorem endRoutine_badLength (h : u.destInvalid e.md = false ∧ (mdKind e.md = 4 → f.pass ≠ 7) ∧
    u.lengthInvalid g e.md e.len = true) : u.endRoutine p t = u.wordTrap p t 0x06 0 := by
  subst hg hf he
  obtain ⟨hd, hpass, hl⟩ := h
  exact (if_neg (by simp [hd])).trans ((if_neg (fun hx => hpass hx.1 hx.2)).trans (if_pos hl))

section
variable (h : u.destInvalid e.md = false ∧ (mdKind e.md = 4 → f.pass ≠ 7) ∧ u.lengthInvalid g e.md e.len = false)
include h

/-- END of a packet that goes nowhere discards it (R221, R235, R343). -/
theorem endRoutine_discards (hh : u.handOf e.frame g e.md = none) :
    u.endRoutine p t = (u.setEngine p t (e.spend 1)).discardRoutine p t 96 := by
  subst hg hf he
  obtain ⟨hd, hpass, hl⟩ := h
  unfold State.endRoutine
  refine (if_neg (by simp [hd])).trans ((if_neg (fun hx => hpass hx.1 hx.2)).trans ((if_neg (by simp [hl])).trans ?_))
  rw [hh]

/-- END of any other packet emits its clones, ends its routine, and hands it over in its order (R213, R230, R235). -/
theorem endRoutine_hands {x : Hand} {v : State} (hh : u.handOf e.frame g e.md = some x)
    (hv : v = ((((((u.emitClones p e e.clones).2.setFrame e.frame { g with
      refs := ((u.emitClones p e e.clones).2.frame e.frame).refs }).repack p e.frame
        (mdHeadEnd e.md - mdHeadStart e.md)).endLearn p e).setEngine p t (e.spend 1)).freeEngine p t false)) :
    u.endRoutine p t = (v.setPipe p { v.pipe p with
      held := (v.pipe p).held ++ [{
        routine := e.routine, port := f.inPort, tc := f.inTc, hands := (u.emitClones p e e.clones).1 ++ [x] }]
          }).flushHeld p ((v.pipe p).held.length + 1) := by
  subst hv hg hf he
  obtain ⟨hd, hpass, hl⟩ := h
  unfold State.endRoutine
  refine (if_neg (by simp [hd])).trans ((if_neg (fun hx => hpass hx.1 hx.2)).trans ((if_neg (by simp [hl])).trans ?_))
  rw [hh]

end
end
end
end

/-- Settles O37: each word that issues has its effect, and END that of the case that the clause describes. -/
theorem microControl : Obligations.MicroControl := by
  refine ⟨?br, ?brr, ?call, ?rtn, ?rtnTrap, ?time, ?badDest, ?lastPass, ?badLength, ?discards, ?hands⟩
  case br | brr | call | time =>
    rintro s u p t w e h rfl
    exact congrArg Host.Outcome.next (issue_go h _)
  case rtn =>
    exact fun s u p t w e h he hh => congrArg Host.Outcome.next ((issue_go h _).trans (returnWord_resumes he hh rfl))
  case rtnTrap =>
    exact fun s u p t w e h he hh => congrArg Host.Outcome.next ((issue_go h _).trans (returnWord_traps he hh))
  case badDest =>
    exact fun s u p t w e f g h he hf hg hd =>
      congrArg Host.Outcome.next ((issue_go h _).trans (endRoutine_badDest he hd))
  case lastPass =>
    exact fun s u p t w e f g h he hf hg hd =>
      congrArg Host.Outcome.next ((issue_go h _).trans (endRoutine_lastPass he hf hd))
  case badLength =>
    exact fun s u p t w e f g h he hf hg hd =>
      congrArg Host.Outcome.next ((issue_go h _).trans (endRoutine_badLength he hf hg hd))
  case discards =>
    exact fun s u p t w e f g h he hf hg hd hh =>
      congrArg Host.Outcome.next ((issue_go h _).trans (endRoutine_discards he hf hg hd hh))
  case hands =>
    exact fun s u p t w e f g x v h he hf hg hd hh hv =>
      congrArg Host.Outcome.next ((issue_go h _).trans (endRoutine_hands he hf hg hd hh hv))

end Sys2Proof.Machine
end

section
/-!
PROOFS. The control stores, the heartbeats of the service engines and the Tenon commands (ch. 7), then the obligation on
them.
-/
namespace Sys2Proof.Machine

/-! ### Control stores (R238 to R241, R263, R264) -/

/-- A pipeline takes a checked image: its load waits while the old bank drains, and begins otherwise (R98, R239). -/
def State.takeStore (s : State) (p : Nat) (l : GraphLoad) : State :=
  if (s.setPipe p { s.pipe p with storeLoad := some l }).rdb (wPipe p) Reg.PIPE_TENON_STATUS_DRAINING then
    s.setPipe p { s.pipe p with storeLoad := some l }
  else (s.setPipe p { s.pipe p with storeLoad := some l }).csBegin p

/-- A command of a control store whose turn in its queue has come is a job row (R98, R239). -/
theorem storeRow_inTurn {s : State} {g : Gate} {j : Job} {body : Job → State → Answer}
    (h : s.inTurn j 0x38 0x3A = true) : storeRow g j s body = jobRow g j s body := if_pos h

/-- TENON_CS_LOAD of an aligned image that passes its checks: each masked pipeline takes the image, and the job
completes later (R239, R263). -/
theorem csLoad_good {b : State} {j : Job} {img : List Byte} (h : j.byte 0 4 ≠ 0 ∧ j.le 8 8 % 8 = 0)
    (hg : img = b.hostRd (b.jobLink j) (j.le 8 8) (min (j.le 16 4) 525697)) (hv : csFail img (j.le 16 4) = none) :
    csLoad j b = laterA (forEach (maskList (j.byte 0 4))
      (fun p s => s.takeStore p { job := j, image := img, mask := j.byte 0 4 }) (b.countMoved 28 img.length)) := by
  subst hg
  unfold csLoad
  extract_lets a n m g r
  refine (if_neg h.1).trans ((if_neg (not_not_intro h.2)).trans ?_)
  rw [show csFail g n = none from hv]
  rfl

/-- A shadow bank that is being loaded is written; its job completes where no other pipeline still has it (R239). -/
theorem csWritten_busy {s u v : State} {p : Nat} {l : GraphLoad} (hl : (s.pipe p).storeLoad = some l)
    (hb : s.rdb (wPipe p) Reg.PIPE_TENON_STATUS_LOAD_BUSY = true)
    (hu : u = ((s.setStore p (1 - s.csBank p) l.image).wr (wPipe p) Reg.PIPE_TENON_STATUS_LOAD_BUSY 0).wr (wPipe p)
      Reg.PIPE_TENON_STATUS_SHADOW_VALID 1)
    (hv : v = ((u.setPipe p { ((s.setStore p (1 - s.csBank p) l.image).wr (wPipe p)
      Reg.PIPE_TENON_STATUS_LOAD_BUSY 0).pipe p with storeLoad := none }).csReport p).event Ev.CS_LOADED p l.mask
        (imH l.image 6) 0) :
    s.csWritten p = if (rangeFrom 0 8).any (fun q => decide (((v.pipe q).storeLoad.map (·.job)) = some l.job)) then v
      else v.complete l.job St.SUCCESS [] := by
  subst hv hu
  unfold State.csWritten
  rw [hl]
  exact if_neg (by simp [hb])

/-- TENON_CS_SWAP where every masked pipeline has a valid shadow exchanges the banks of each (R239). -/
theorem csSwap_valid {b : State} {j : Job} (h : (maskList (j.byte 0 4)).any (fun p => !b.csShadow p) = false) :
    csSwap j b = okRes (forEach (maskList (j.byte 0 4)) (fun p s => s.csSwapBank p) b) [BitVec.ofNat 8 (j.byte 0 4)] :=
  if_neg (by simp [h])

/-- The old bank of a pipeline that drains runs no routine: the draining ends, and a load that waits begins (R239). -/
theorem csDrained_empty {s : State} {p : Nat} (h : s.rdb (wPipe p) Reg.PIPE_TENON_STATUS_DRAINING = true ∧
    s.csHolds p (1 - s.csBank p) = false) :
    s.csDrained p = (s.wr (wPipe p) Reg.PIPE_TENON_STATUS_DRAINING 0).csBegin p :=
  if_neg (by simp [h])

/-- TENON_CS_READ of a valid bank of one pipeline into a buffer of a full image's length (R264). -/
theorem csRead_fits {b : State} {j : Job} {p bank : Nat} (hp : oneOf (j.byte 0 4) = some p)
    (hb : bank = if j.bit 5 0 then 1 - b.csBank p else b.csBank p)
    (hv : (if j.bit 5 0 then b.csShadow p else b.csValid p) = true) (hn : 525696 ≤ j.le 16 4) :
    csRead j b = okRes (b.jobWrite j (j.le 8 8) (csWhole (b.store p bank))) (leBytes 4 525696) := by
  subst hb
  have fits : decide (j.le 16 4 < csFull) = false := decide_eq_false (Nat.not_lt.2 hn)
  unfold csRead
  rw [hp]
  exact if_neg (by simp [hv, fits])

/-! ### The service cluster (R244, R245) -/

/-- A heartbeat of a live service engine counts (R245). -/
theorem svcBeat_live {s : State} {v : Nat} (h : s.svcLive v = true) :
    s.svcBeat v = s.wr (wGlobal + 4 * v) Reg.GLOBAL_SVC_STATUS_HEARTBEAT
      ((s.rd (wGlobal + 4 * v) Reg.GLOBAL_SVC_STATUS_HEARTBEAT + 1) % 65536) := if_pos h

section
variable {s u : State} {v d : Nat} (h : s.svcState v = 1 ∧ d = s.svcDuty v ∧ d < 14) (hu : u = s.setSvc v 2 31)
include h hu

/-- The duty of an engine whose heartbeat has stopped goes to the first spare (R245). -/
theorem svcStall_spare {x : Nat} (hx : (rangeFrom 0 16).find? (fun x => decide (u.svcState x = 3)) = some x) :
    s.svcStall v = ((u.setSvc x 1 d).event Ev.SVC_STALL 0 v d x).fault .glob 0 v := by
  obtain ⟨h1, rfl, hd⟩ := h
  subst hu
  unfold State.svcStall
  refine (if_neg (by simp [h1, hd])).trans ?_
  dsimp only
  rw [hx]

/-- Without a spare the duty stops (R245). -/
theorem svcStall_alone (hx : (rangeFrom 0 16).find? (fun x => decide (u.svcState x = 3)) = none) :
    s.svcStall v = (u.event Ev.SVC_STALL 0 v d 0xFF).fault .glob 1 v := by
  obtain ⟨h1, rfl, hd⟩ := h
  subst hu
  unfold State.svcStall
  refine (if_neg (by simp [h1, hd])).trans ?_
  dsimp only
  rw [hx]

end

/-! ### Settings and state memory (R211, R226, R236, R265, R266) -/

section
variable {b : State} {j : Job}

/-- TENON_SETUP of valid settings writes them, and keeps the parking goal within the reserve (R211, R236, R265). -/
theorem tenonSetup_valid (hm : maskList (j.byte 0 4) ≠ [])
    (hv : b.setupInvalid (j.byte 0 5) (j.le 6 2) (j.le 8 8) = false) :
    tenonSetup j b = okRes (forEach (maskList (j.byte 0 4)) (fun p s => (fun u : State => u.setPipe p {
      u.pipe p with parkGoal := min (u.pipe p).parkGoal (56 - j.byte 0 5) }) (((s.wr (wPipe p)
      Reg.PIPE_TENON_CFG_RESERVE (j.byte 0 5)).wr (wPipe p) Reg.PIPE_TENON_CFG_REGION_SIZE (j.le 6 2)).wr (wPipe p)
      Reg.PIPE_REGION_BASE (j.le 8 8))) b) [] :=
  (if_neg hm).trans (if_neg (by simp [hv]))

section
variable (h : j.le 6 2 + j.le 16 2 ≤ 16384 ∧ j.le 16 2 ≠ 0)
include h

/-- The words of TENON_STATE_READ join the arbiter of the state memory (R264, R266). -/
theorem tenonStateRead_joins {p : Nat} (hp : oneOf (j.byte 0 4) = some p) :
    tenonStateRead j b = laterA (b.setReqs (b.tenon.reqs ++ (rangeFrom (j.le 6 2) (j.le 16 2)).map (fun k =>
      { pipe := p, engine := 64, op := .hostRead k j }))) := by
  unfold tenonStateRead
  rw [hp]
  exact (if_neg (Nat.not_lt.2 h.1)).trans (if_neg h.2)

/-- The words of TENON_STATE_WRITE join the arbiters of the state memories (R264, R266). -/
theorem tenonStateWrite_joins {d : List Byte} (hm : maskList (j.byte 0 4) ≠ [])
    (hd : d = b.hostRd (b.jobLink j) (j.le 8 8) (8 * j.le 16 2)) :
    tenonStateWrite j b = laterA ((b.countMoved 30 (8 * j.le 16 2)).setReqs (b.tenon.reqs ++ (maskList
      (j.byte 0 4)).flatMap (fun p => (rangeFrom 0 (j.le 16 2)).map (fun k => {
      pipe := p, engine := 64, op := .hostWrite (j.le 6 2 + k) (BitVec.ofNat 64 (leNat (slice d (8 * k) 8))) j
        })))) := by
  subst hd
  exact (if_neg hm).trans ((if_neg (Nat.not_lt.2 h.1)).trans (if_neg h.2))

end
end

/-- Settles O38: each command in its turn runs its body, and each event its bank's or its engine's operation, in the
case that the clause describes. -/
theorem controlStoreAndAccess : Obligations.ControlStoreAndAccess := by
  refine ⟨?load, ?written, ?swap, ?drain, ?read, ?scrub, ?beat, ?stall, ?setup, ?stateRead, ?stateWrite⟩
  case load =>
    exact fun s b j img hl ht h hm hg hv => (if_neg (by rw [hl]; exact Bool.false_ne_true)).trans
      ((storeRow_inTurn ht).trans (jobRow_later h (csLoad_good hm hg hv)))
  case written => exact fun s u v p l hl hb hu hv => congrArg Host.Outcome.next (csWritten_busy hl hb hu hv)
  case swap =>
    exact fun s b j hl ht h hv => (if_neg (by rw [hl]; exact Bool.false_ne_true)).trans
      ((storeRow_inTurn ht).trans (jobRow_ok h (csSwap_valid hv)))
  case drain => exact fun s p h => congrArg Host.Outcome.next (csDrained_empty h)
  case read =>
    exact fun s b j p bank ht h hp hb hv hn => (storeRow_inTurn ht).trans (jobRow_ok h (csRead_fits hp hb hv hn))
  case scrub => exact fun s p => ⟨rfl, rfl, rfl, rfl⟩
  case beat => exact fun s v h => congrArg Host.Outcome.next (svcBeat_live h)
  case stall =>
    exact fun s u v d h hu => ⟨fun x hx => congrArg Host.Outcome.next (svcStall_spare h hu hx),
      fun hx => congrArg Host.Outcome.next (svcStall_alone h hu hx)⟩
  case setup => exact fun s b j h hm hv => jobRow_ok h (tenonSetup_valid hm hv)
  case stateRead => exact fun s b j p h hp hr => jobRow_later h (tenonStateRead_joins hr hp)
  case stateWrite => exact fun s b j d h hm hr hd => jobRow_later h (tenonStateWrite_joins hr hm hd)

end Sys2Proof.Machine
end

section
/-!
PROOFS. Ridge's storms, holds, deep queues and audits (ch. 9), and the meter commands (ch. 10), then the obligation on
them.
-/
namespace Sys2Proof.Machine

/-! ### Storms and holds (R280, R281, R295, R297) -/

section
variable {s u : State} {n c : Nat}

/-- A storm begins on a class that its watchdog finds paused (R280). -/
theorem stormBegin_paused (h : s.rdb (rportBase n) Reg.RIDGE_PORT_A_WD_EN = true ∧ s.wdPaused n c = true ∧
    s.inStorm n c = false ∧ s.admits = true) (hu : u = (s.setStorm n c true).stormDrop n c) :
    s.stormBegin n c = u.event Ev.PFC_STORM 0 (n * 16 + c) (u.stormDropped n c) 0 := by
  subst hu
  exact if_pos h

/-- A storm ends on a class that is no longer paused (R281). -/
theorem stormEnd_unpaused (h : s.inStorm n c = true ∧ s.wdPaused n c = false ∧ s.admits = true)
    (hu : u = (s.setStorm n c false).event Ev.PFC_STORM_END 0 (n * 16 + c) (s.stormDropped n c) 0) :
    s.stormEnd n c = { u with ridge := { u.ridge with storms := tabErase u.ridge.storms (stormKey n c) } } := by
  subst hu
  exact if_pos h

end

/-- A multicast copy that is still held past its HOLD_US is dropped (R297). -/
theorem holdDrop_due {s : State} {q k g : Nat} {c : Copy} (hc : (s.egq q).mc[k]? = some c)
    (h : s.punted q c = false ∧ c.group = some g ∧ s.admits = true ∧ c.time + 1000 * c.holdUs ≤ s.clock.up) :
    s.holdDrop q k = ((((s.leaveQueue q c).portCount (s.qPort q) (80 + s.qTc q) 1).event Ev.MCAST_HOLD_DROP 0 g
      (s.qPort q) c.holdUs).pcEvent none 0x08 1 (fun x => decide (x = g)) {}).unref c.frame := by
  obtain ⟨hp, hg, ha, ht⟩ := h
  have due : ¬(s.punted q c = true ∨ s.admits = false ∨ s.clock.up < c.time + 1000 * c.holdUs) := by
    simp [hp, ha, ht]
  unfold State.holdDrop
  rw [hc]
  dsimp only
  rw [if_neg due, hg]

/-! ### Deep queues (R282, R283) -/

/-- The confirmed write of the oldest copy that awaits one frees the cells of its frame (R282). -/
theorem spillConfirm_first {s u v : State} {q : Nat} {c : Copy}
    (hc : (s.egq q).dram.find? (fun e => !e.2) = some (c, false))
    (h : s.admits = true ∧ s.stackOffline (s.egq q).stack = false)
    (hu : u = s.setEgq q { s.egq q with
      dram := (s.egq q).dram.map (fun e => if e.1 = c then (e.1, true) else e) })
    (hv : v = (u.freeCells c.frame).count 149 0 ((u.frame c.frame).bytes.length + 4)) :
    s.spillConfirm q = v.setFrame c.frame { v.frame c.frame with store := 3 } := by
  subst hv hu
  unfold State.spillConfirm
  extract_lets x
  rw [show x.dram.find? (fun e => !e.2) = some (c, false) from hc]
  exact if_neg (by simp [h, x])

/-- The oldest frame in DRAM returns to a queue below its REFILL, where the deep pool has room for it (R283). -/
theorem refillReturn_fits {s u v : State} {q k : Nat} {ok : Bool} {x : EgQ} {c : Copy} {t : List (Copy × Bool)}
    {f : Frame} (hx : x = s.egq q) (hd : x.dram = (c, true) :: t) (hf : f = s.frame c.frame)
    (hk : k = cellsFor (f.bytes.length + 4))
    (h : s.admits = true ∧ s.stackOffline x.stack = false ∧ s.copyCells x.head < x.refill)
    (hp : s.rd wRidge Reg.RIDGE_POOL_USE_DEEP_USED + k ≤ s.rd wRidge Reg.RIDGE_POOLS_DEEP_CELLS)
    (hu : u = (s.wr wRidge Reg.RIDGE_POOL_USE_DEEP_USED (s.rd wRidge Reg.RIDGE_POOL_USE_DEEP_USED + k)).addFree
      (-(k : Int)))
    (hv : v = (u.takeCells k).2.setFrame c.frame { f with
      cells := k, held := (u.takeCells k).1, store := 2, bad := if ok then f.bad else 1 }) :
    s.refillReturn q ok = (((v.setEgq q { x with dram := t, head := x.head ++ [c] }).count 149 1
      (f.bytes.length + 4)).spillReport x.stack).joinTail q := by
  obtain ⟨ha, ho, hr⟩ := h
  subst hv hu hk hf hx
  unfold State.refillReturn
  extract_lets x
  rw [show x.dram = (c, true) :: t from hd]
  refine if_neg ?_
  rintro (g | g | g | g)
  · exact Bool.false_ne_true (g.symm.trans ha)
  · exact Bool.false_ne_true (ho.symm.trans g)
  · exact Nat.not_le.2 hr g
  · exact Nat.not_lt.2 hp g

/-! ### The leaked-cell audit (R298, R299) -/

/-- An audit begins where none runs (R298). -/
theorem auditBegin_idle {s : State} (h : s.audits = true ∧ s.rdb wRidge Reg.RIDGE_STATUS_AUDIT_ACTIVE = false) :
    s.auditBegin = ({ s with ridge := { s.ridge with touched := [] } } : State).wr wRidge
      Reg.RIDGE_STATUS_AUDIT_ACTIVE 1 :=
  if_neg (by simp [h])

/-- The audit that runs ends: it reclaims the cells that it and the audit before it found in neither map, and reports
the first cell found in both (R298, R299). -/
theorem auditEnd_active {s t u v w : State} {lost found again : List (Nat × Nat × Nat)} {doubled both : List Nat}
    (h : s.audits = true ∧ s.rdb wRidge Reg.RIDGE_STATUS_AUDIT_ACTIVE = true)
    (ht : t = forEach doubled (fun k s => s.cellDoubled k) (forEach lost (fun e s => s.cellLost e) s))
    (hf : found = t.ridge.leaked.filter (fun e => t.cellNeither e.1))
    (ha : again = found.filter (fun e => t.ridge.suspects.contains e.1))
    (hb : both = t.cellsInUse.filter (fun k => t.cellFree k && !t.ridge.touched.contains k))
    (hu : u = (t.wr wRidge Reg.RIDGE_STATUS_AUDIT_ACTIVE 0).inc wRidge Reg.RIDGE_AUDIT_AUDITS 1)
    (hv : v = forEach again (fun e s => s.cellFound e) { u with
      ridge := { u.ridge with
        suspects := (found.map (fun e => e.1)).filter (fun k => !t.ridge.suspects.contains k), touched := [] } })
    (hw : w = if again = [] then v else
      (((v.inc wRidge Reg.RIDGE_LEAKED_RECLAIMED again.length).count 149 2 again.length).eventFw Ev.CELL_LEAK 0
        again.length ((again.head?.map (·.1)).getD 0) (v.rd wRidge Reg.RIDGE_AUDIT_AUDITS)).fault .ridge 0
        again.length) :
    s.auditEnd lost doubled = if both = [] then w else w.fault .ridge 1 (both.headD 0) := by
  refine (if_neg (by simp [h])).trans ?_
  extract_lets t' found' again' both' u' left ridge cleared v' w'
  obtain rfl : t = t' := ht
  obtain rfl : found = found' := hf
  obtain rfl : again = again' := ha
  obtain rfl : both = both' := hb
  obtain rfl : u = u' := hu
  obtain rfl : v = v' := hv
  have reported : w' = w := by
    simp only [w', hw]
    generalize again' = l
    cases l with
    | nil => rfl
    | cons e l => rfl
  rw [reported]

/-! ### Meters (R331, R333, R334) -/

section
variable {b : State} {j : Job}

/-- METER_SET of valid records of meters that the function holds (R331, R333). -/
theorem meterSet_ok {recs : List (Nat × List Byte)} (h : j.le 8 4 + j.le 12 4 ≤ 262144 ∧ j.one = true)
    (hr : recs = (rangeFrom 0 (min (j.le 12 4) 262144)).map (fun k =>
      (j.le 8 4 + k, b.hostRd (b.jobLink j) (j.hostAddr + 32 * k) 32)))
    (ho : (recs.any fun e => decide (b.meterHolder e.1 ≠ b.jobFn j)) = false)
    (hv : recs.findIdx? (fun e => badMeter e.2) = none) :
    meterSet j b = okRes (forEach recs (fun e s => s.setMeter e.1 (parseMeter e.2 s.nowNs)) (if j.le 12 4 = 0 then b
      else b.countMoved 30 (32 * j.le 12 4))) [] := by
  obtain ⟨hn, h1⟩ := h
  unfold meterSet
  extract_lets first n recs' s0
  obtain rfl : recs = recs' := hr
  by_cases h0 : n = 0
  · have empty : recs' = [] := by simp [recs', h0, rangeFrom]
    rw [if_pos h0, if_pos (show j.le 12 4 = 0 from h0), empty]
    rfl
  · rw [if_neg h0, if_neg (show ¬j.le 12 4 = 0 from h0), if_neg ?length, if_neg ?holder, hv]
    case length => simp [h1]; omega
    case holder => rw [ho]; simp; omega
    rfl

/-- METER_QUERY of a meter that the function holds (R334). -/
theorem meterQuery_ok {x : Meter} (h : j.le 8 4 < 262144 ∧ j.one = true ∧ b.meterHolder (j.le 8 4) = b.jobFn j)
    (hx : x = (b.meter (j.le 8 4)).refill b.nowNs) :
    meterQuery j b = okRes (b.jobWrite j j.hostAddr (x.bytes ++ tokenField x.tc.tokens ++ tokenField x.tp.tokens ++
      leBytes 5 x.green ++ leBytes 5 x.yellow ++ leBytes 5 x.red ++ List.replicate 9 0)) (leBytes 4 64) := by
  subst hx
  exact (if_neg (by simp [h])).trans (if_neg (by simp [h]))

end

/-- Settles O39: each clause is its row's operation, or its command's body, in the case that the clause describes. -/
theorem ridgeEventsAndMeters : Obligations.RidgeEventsAndMeters := by
  refine ⟨?stormBegin, ?stormEnd, ?hold, ?spill, ?refill, ?auditBegin, ?auditEnd, ?meterSet, ?meterQuery⟩
  case stormBegin => exact fun s u n c h hu => congrArg Host.Outcome.next (stormBegin_paused h hu)
  case stormEnd => exact fun s u n c h hu => congrArg Host.Outcome.next (stormEnd_unpaused h hu)
  case hold => exact fun s q k c g hc h => congrArg Host.Outcome.next (holdDrop_due hc h)
  case spill => exact fun s u v q c hc h hu hv => congrArg Host.Outcome.next (spillConfirm_first hc h hu hv)
  case refill =>
    exact fun s u v q ok x c t f k hx hd hf hk h hp hu hv =>
      congrArg Host.Outcome.next (refillReturn_fits hx hd hf hk h hp hu hv)
  case auditBegin => exact fun s lost doubled h => congrArg Host.Outcome.next (auditBegin_idle h)
  case auditEnd =>
    rintro s t lost doubled found again both u v w h ht ⟨hf, ha⟩ hb hu hv hw
    exact congrArg Host.Outcome.next (auditEnd_active h ht hf ha hb hu hv hw)
  case meterSet => exact fun s b j recs h hn hr ho hv => jobRow_ok h (meterSet_ok hn hr ho hv)
  case meterQuery => exact fun s b j x h hm hx => jobRow_ok h (meterQuery_ok hm hx)

end Sys2Proof.Machine
end

section
/-!
PROOFS. The RIDGE admin commands (ch. 9), then the obligation on them.
-/
namespace Sys2Proof.Machine

section
variable {b u v : State} {j : Job}

/-- RIDGE_POOL_SET of pools that leave SHARED_CELLS non-negative (R274, R301). -/
theorem ridgePoolSet_ok (h1 : j.one = true)
    (hu : u = ((b.wr wRidge Reg.RIDGE_POOLS_MIRROR_CELLS (j.le 8 2)).wr wRidge Reg.RIDGE_POOLS_DEEP_CELLS
      (j.le 10 2)).wr wRidge Reg.RIDGE_AUDIT_AUDIT_MS (j.le 12 2)) (hv : u.reshare = some v) :
    ridgePoolSet j b = okRes v.xonAll (leBytes 4 (v.rd wRidge Reg.RIDGE_SHARED_SHARED_CELLS)) := by
  subst hu
  refine (if_neg (by simp [h1])).trans ?_
  dsimp only
  rw [hv]

/-- RIDGE_PAIR_SET of a port that the function holds writes the pairs of the mask (R276 to R278, R301). -/
theorem ridgePairSet_ok {n : Nat} {k : Int} (hn : n = j.le 4 2 ∧ n ≤ 140 ∧ b.holdsPort (b.jobFn j) n = true)
    (hk : k = sInt 8 (j.byte 0 12) ∧ -4 ≤ k ∧ k ≤ 3 ∧ j.one = true)
    (hu : u = forEach ((rangeFrom 0 16).filter (fun c => (j.le 6 2).testBit c)) (fun c s => (fun u : State =>
      if j.bit 13 0 = false then u.wr (pairBase n c) Reg.RIDGE_PAIR_CFG_HDRM_CELLS (j.le 10 2) else u) ((((s.wr
      (pairBase n c) Reg.RIDGE_PAIR_CFG_MIN_CELLS (j.le 8 2)).wr (pairBase n c) Reg.RIDGE_PAIR_CTL_ALPHA_K
      (uNat 3 k)).wr (pairBase n c) Reg.RIDGE_PAIR_CTL_HDRM_AUTO (b2n (j.bit 13 0))).wr (pairBase n c)
      Reg.RIDGE_PAIR_CTL_XON_DELTA (j.le 14 2))) b) (hv : (u.autoHdrm n).reshare = some v) :
    ridgePairSet j b = okRes v.xonAll (leBytes 4 (v.rd wRidge Reg.RIDGE_SHARED_SHARED_CELLS)) := by
  obtain ⟨rfl, hp, hh⟩ := hn
  obtain ⟨rfl, hlo, hhi, h1⟩ := hk
  subst hu
  unfold ridgePairSet
  extract_lets n mask k u
  refine (if_neg (Nat.not_lt.2 hp)).trans ((if_neg ?holder).trans ((if_neg ?values).trans ?_))
  case holder => simp [n, hh]
  case values => simp [k, hlo, hhi, h1]
  rw [show (u.autoHdrm n).reshare = some v from hv]

/-- RIDGE_PORT_SET of valid settings of a port that the function holds (R280, R287, R301). -/
theorem ridgePortSet_ok {n : Nat} (hn : n = j.le 4 2 ∧ n ≤ 140 ∧ b.holdsPort (b.jobFn j) n = true)
    (hr : j.bits 6 2 0 < 5 ∧ j.byte 0 7 < 16 ∧ j.le 16 2 < 4096 ∧ j.one = true)
    (hu : u = ((((b.setReg (rportBase n + 0x1000) (b2n (j.bit 6 5) * 2 ^ 31 + b2n (j.bit 6 6) * 2 ^ 30 + j.bits 6 2 0 *
      2 ^ 27 + j.bits 6 4 3 * 2 ^ 25 + j.byte 0 7)).setReg (rportBase n + 0x1004) (j.le 8 4)).setReg (rportBase n +
      0x1008) (j.le 14 2 * 2 ^ 16 + j.le 12 2)).setReg (rportBase n + 0x100C) (b2n (j.bit 22 1) * 2 ^ 31 + b2n (j.bit
      22 0) * 2 ^ 30 + j.byte 0 21 * 2 ^ 22 + j.byte 0 20 * 2 ^ 14 + j.le 16 2)).wr (rportBase n)
      Reg.RIDGE_PORT_E_PEER_NS (j.le 18 2)) (hv : (u.autoHdrm n).reshare = some v) :
    ridgePortSet j b = okRes (v.lossyXon n).xonAll [] := by
  obtain ⟨rfl, hp, hh⟩ := hn
  subst hu
  refine (if_neg (Nat.not_lt.2 hp)).trans ((if_neg (by simp [hh])).trans ((if_neg ?values).trans
    (withHeadroom_ok hv [] b)))
  case values => simp [hr]

/-- RIDGE_DSCP_SET of one of the four tables (R301). -/
theorem ridgeDscpSet_ok (h : j.byte 0 4 < 4 ∧ j.one = true) :
    ridgeDscpSet j b = okRes (forEach (rangeFrom 0 8) (fun w s => s.setReg (wRidge + 0x200 + 0x20 * j.byte 0 4 + 4 * w)
      (leNat (s.hostRd (s.jobLink j) (j.le 8 8 + 4 * w) 4))) (b.countMoved 30 32)) [] :=
  if_neg (by simp [h])

/-- RIDGE_SAMPLER_SET of valid fields: a change of N resets the count (R292). -/
theorem ridgeSamplerSet_ok {i : Nat} (h : i = j.byte 0 4 ∧ j.le 8 4 < 2 ^ 24 ∧ j.byte 0 13 ≤ 131 ∧ j.one = true)
    (hu : u = (b.setReg (samplerBase i + 0x20000) (b2n (j.bit 12 0) * 2 ^ 31 + j.le 8 4)).setReg (samplerBase i +
      0x20004) (j.le 16 2 * 2 ^ 16 + j.bits 14 3 0 * 2 ^ 12 + j.byte 0 13)) :
    ridgeSamplerSet j b = okRes (if b.rd (samplerBase i) Reg.RIDGE_SAMPLER_A_N = j.le 8 4 then u else { u with
      ridge := { u.ridge with offers := tabSet (fun _ => 0) u.ridge.offers i 0 } }) [] := by
  obtain ⟨rfl, hn, hp, h1⟩ := h
  subst hu
  refine (if_neg ?values).trans ?_
  case values => exact fun g => g.elim (Nat.not_le.2 hn) (fun g => by simp [Nat.not_lt.2 hp, h1] at g)
  simp only [decide_eq_true_eq]
  rfl

/-- RIDGE_MCAST_SET of a list of ports that fits beside the other groups (R295, R302). -/
theorem ridgeMcastSet_ok {g n : Nat} {l : List (Nat × Nat)}
    (h : g = j.le 8 2 ∧ n = j.le 10 2 ∧ n ≤ 4096 ∧ j.one = true)
    (hl : l = b.readMembers (b.jobLink j) j.hostAddr (min n 4096)) (hp : (l.any fun m => decide (139 < m.1)) = false)
    (hf : b.otherMembers g + n ≤ 131072) :
    ridgeMcastSet j b = okRes ((b.countMoved 30 (4 * n)).setGroup g {
      members := l, holdUs := j.le 12 2, prune := j.bit 14 0 }) [] := by
  obtain ⟨rfl, rfl, hn, h1⟩ := h
  subst hl
  exact (if_neg (by simp [hn, h1])).trans ((if_neg (by rw [hp]; exact Bool.false_ne_true)).trans
    (if_neg (Nat.not_lt.2 hf)))

/-- RIDGE_DEEP_SET of queues of ports that the function holds (R282, R301). -/
theorem ridgeDeepSet_ok {l : List Nat} (h : j.le 8 2 + j.le 12 4 ≤ 65536 ∧ j.le 22 2 < 16384 ∧ j.one = true)
    (hl : l = rangeFrom (j.le 8 2) (min (j.le 12 4) 65536))
    (ho : (l.any fun q => !b.holdsPort (b.jobFn j) (b.qPort q)) = false) :
    ridgeDeepSet j b = okRes (forEach l (fun q s => s.setEgq q { s.egq q with
      deep := j.bit 16 0, stack := j.bits 16 2 1, spillOn := j.le 18 2, refill := j.le 20 2, limit := j.le 22 2 })
        b) [] := by
  obtain ⟨hn, hi, h1⟩ := h
  unfold ridgeDeepSet
  extract_lets first n l'
  obtain rfl : l = l' := hl
  by_cases h0 : n = 0
  · have empty : l' = [] := by simp [l', h0, rangeFrom]
    rw [if_pos h0, empty]
    rfl
  · refine (if_neg h0).trans ((if_neg ?values).trans (if_neg (by rw [ho]; exact Bool.false_ne_true)))
    case values => simp [h1]; omega

/-- RIDGE_QUERY of a queue whose port the function holds, or of a group (R302, R303). -/
theorem ridgeQuery_ok {r : List Byte} (h : j.byte 0 5 < 2 ∧ j.one = true)
    (ho : j.byte 0 5 = 0 → b.holdsPort (b.jobFn j) (b.qPort (j.le 8 2)) = true)
    (hr : r = if j.byte 0 5 = 0 then b.egqRecord (j.le 8 2) else b.groupRecord (j.le 8 2)) :
    ridgeQuery j b = okRes (b.jobWrite j j.hostAddr r) (leBytes 4 r.length) := by
  subst hr
  exact (if_neg (by simp [h])).trans (if_neg (fun g => by simp [ho g.1] at g))

end

/-- Settles O40: each command's body in the case that the clause describes. -/
theorem ridgeCommands : Obligations.RidgeCommands := by
  refine ⟨?pool, ?pair, ?port, ?dscp, ?sampler, ?mcast, ?deep, ?query⟩
  case pool => exact fun s b j u v h h1 hu hv => jobRow_ok h (ridgePoolSet_ok h1 hu hv)
  case pair => exact fun s b j n k u v h hn hk hu hv => jobRow_ok h (ridgePairSet_ok hn hk hu hv)
  case port => exact fun s b j n u v h hn hr hu hv => jobRow_ok h (ridgePortSet_ok hn hr hu hv)
  case dscp => exact fun s b j h hr => jobRow_ok h (ridgeDscpSet_ok hr)
  case sampler => exact fun s b j i u h hr hu => jobRow_ok h (ridgeSamplerSet_ok hr hu)
  case mcast => exact fun s b j g n l h hr hl hp hf => jobRow_ok h (ridgeMcastSet_ok hr hl hp hf)
  case deep => exact fun s b j l h hr hl ho => jobRow_ok h (ridgeDeepSet_ok hr hl ho)
  case query => exact fun s b j r h hr ho hd => jobRow_ok h (ridgeQuery_ok hr ho hd)

end Sys2Proof.Machine
end

section
/-!
PROOFS. Frames to and from the host (ch. 15), frames that start (ch. 10 and 11) and the resource commands (ch. 14), then
the obligation on them.
-/
namespace Sys2Proof.Machine

/-! ### Injected frames (R458, R459) -/

/-- The frame that an INJECT_FRAME descriptor gives, before it has cells (R458, R459). -/
def State.injectedFrame (s : State) (j : Job) : Frame :=
  { bytes := s.hostRd (s.jobLink j) (j.le 8 8) (j.le 6 2), recv := s.hostRd (s.jobLink j) (j.le 8 8) (j.le 6 2)
    ended := true, inPort := 128 + s.jobLink j, inTc := j.byte 0 5, pairPort := 128 + s.jobLink j
    pairTc := j.byte 0 5, injected := true
    rx := if j.bit 4 5 then some
      { t := (j.leAt 1 16 6 * 10 ^ 9 + j.leAt 1 24 4) * 256 + j.byte 1 28, cal := false } else none
    outTc := j.byte 0 5
    ptp :=
      { act := j.bits 18 1 0, residence := j.bit 18 2, tag := j.le 20 2
        off := if j.bits 18 2 0 = 0 then none else some (j.byte 0 19)
        l4 := if j.bit 18 3 then some (j.byte 0 22) else none } }

section
variable {b u v : State} {j : Job} {f g : Frame} {i k : Nat} {cs : List Nat}
  (hp : injectPlain j = true ∧ j.byte 0 5 = (b.queue j.q).tc ∧
    (j.bit 4 0 = true → b.injectAllowed (b.jobFn j) (j.le 16 2) = true))
  (hf : f = b.injectedFrame j ∧ k = cellsFor (f.bytes.length + 4)) (hn : b.newFrame f = (i, u))
  (hc : u.chargeCells (128 + b.jobLink j) (j.byte 0 5) k = (cs, v)) (hg : g = { f with cells := cs.length, held := cs })
include hp hf hn hc hg

/-- A well-formed injected frame is charged its cells: it is dropped where its pair gives too few (R279), and else goes
to its pipeline or to its egress queue (R459). -/
theorem injectFrame_charged : injectFrame j b =
    if cs.length < k then okRes ((v.setFrame i g).headroomDrop i k) []
    else if j.bit 4 0 = false then okRes ((v.setFrame i g).enterWait (j.bits 4 3 1) i) []
    else okRes ((((v.setFrame i g).launchTime (b.qPort (j.le 16 2)) j).2.admitTo i (j.le 16 2)
      ((v.setFrame i g).launchTime (b.qPort (j.le 16 2)) j).1).offerFrame i) [] := by
  obtain ⟨hw, ht, ha⟩ := hp
  obtain ⟨rfl, rfl⟩ := hf
  subst hg
  unfold injectFrame
  extract_lets n tc q data k ref f
  rw [if_neg ?fields, show b.newFrame f = (i, u) from hn]
  case fields =>
    rintro (g | g | ⟨g, g'⟩)
    · exact Bool.false_ne_true (g.symm.trans hw)
    · exact g ht
    · exact Bool.false_ne_true (g'.symm.trans (ha g))
  dsimp only
  rw [show u.chargeCells n tc k = (cs, v) from hc]
  rfl

end

/-! ### Punted frames (R453, R455, R456) -/

/-- The write of a frame into its buffer ends with its entry, the tail, its counts, and the vector of the queue's
completion queue, if it has one (R453, R455, R456). -/
theorem puntDone_written {s t u v w : State} {p : Nat} {x : Queue} {f : Frame} {a q order n : Nat} {e : Copy}
    {l : List Byte} {cut : Bool} (hx : x = s.queue p) (hd : x.drawn = some a ∧ x.punting = some (q, order))
    (he : (s.egq q).all.find? (fun c => decide (c.order = order)) = some e)
    (hf : f = s.frame e.frame ∧ n = 2 ^ s.poolShift x.pool - 64)
    (hl : s.leaveInner (128 + s.fnLink x.fn) { q := q, copy := e } = (l, t) ∧ cut = decide (n < l.length))
    (hu : u = ((t.hostWr (s.fnLink x.fn) a ((if e.sample then List.replicate 32 0 else padTo 32 f.user) ++
      List.replicate 32 0 ++ l.take n)).hostWr (s.fnLink x.fn) (x.base + 32 * x.tail) (puntEntry a l.length f.inPort
      (s.qTc q) x.pool (l.take n).length cut e.sample f)).setQueue p { x with
        tail := (x.tail + 1) % x.size, drawn := none, punting := none })
    (hv : v = (u.writeBack p).leaveCounted q e (l.length + 4))
    (hw : w = if cut then v.count 157 (64 + x.pool) 1 else v) :
    s.puntDone p = if x.cq = 0xFFFF then w else (w.findQ x.fn x.cq).elim w (fun c => w.coalesce c false) := by
  obtain ⟨ha, hq⟩ := hd
  obtain ⟨rfl, rfl⟩ := hf
  obtain ⟨hl, hcut⟩ := hl
  subst hx
  simp only [State.puntDone, ha, hq, he, hl, ← hcut, ← hu, ← hv, ← hw]
  by_cases hc : (s.queue p).cq = 0xFFFF
  · rw [if_pos hc, if_pos hc]
  · rw [if_neg hc, if_neg hc]
    cases w.findQ (s.queue p).fn (s.queue p).cq <;> rfl

/-! ### Frames that start (R320, R349) -/

section
variable {s : State} {n : Fin 141} {m : Fin 2} (hb : s.macBusy n.val m.val = false)
include hb

/-- An idle MAC sends a kept frame again before any other, and a port in low-power idle wakes for it (R51, R349). -/
theorem txFrameStart_resend {e : Nat × Sending} (hr : s.resendReady n.val m.val = some e) :
    exec (.txFrameStart n m) s = .next (if s.rdb (wPort n.val) Reg.PORT_STATUS_LPI_TX then s.wake n.val else
      s.startResend n.val m.val e) := by
  refine congrArg Host.Outcome.next ((if_neg (by simp [hb])).trans ?_)
  rw [hr]

/-- An idle MAC with nothing to send again starts the chosen frame, and a host port its punt (R320, R455). -/
theorem txFrameStart_chosen {q k : Nat} (hr : s.resendReady n.val m.val = none)
    (hc : s.chosen n.val m.val = some (q, k)) :
    exec (.txFrameStart n m) s = .next (if 128 ≤ n.val ∧ n.val < 132 then s.startPunt n.val q k else
      s.startChosen n.val m.val q k) := by
  refine congrArg Host.Outcome.next ((if_neg (by simp [hb])).trans ?_)
  rw [hr]
  dsimp only
  rw [hc]

end

/-! ### Resource commands (R427 to R431) -/

section
variable {b : State} {j : Job}

/-- ASSIGN_RESOURCES with operands in range, within the limits, of resources that are not busy (R427 to R429). -/
theorem assignResources_ok (hv : assignBad j (j.byte 0 4) (j.byte 0 6) (j.le 8 4) (j.le 12 4) = false)
    (hl : b.assignLimit (j.byte 0 4) (j.byte 0 6) (j.le 12 4) = false) (hf : b.fnExists (j.byte 0 6) = true)
    (hb : b.assignBusy (j.byte 0 4) (j.byte 0 6) (j.le 8 4) (j.le 12 4) = false)
    (hr : j.byte 0 4 = 2 → b.rangeRefused (j.byte 0 5) (j.le 8 4) (j.byte 0 16) (j.le 12 4) = false) :
    assignResources j b = okRes ((b.assign j (j.byte 0 4) (j.byte 0 6) (j.le 8 4) (j.le 12 4)).event
      Ev.RESOURCE_ASSIGNED b.owner (j.byte 0 4) (j.byte 0 6) (j.le 8 4)) [] :=
  (if_neg (by simp [hv])).trans ((if_neg (by simp [hl])).trans ((if_neg (by simp [hf])).trans
    ((if_neg (by simp [hb])).trans (if_neg (fun g => Bool.false_ne_true ((hr g.1).symm.trans g.2))))))

/-- RESOURCE_QUERY of a function's holdings of a kind: as many whole records as the buffer holds (R430). -/
theorem resourceQuery_ok {l : List (Nat × Nat)} {f : Nat}
    (hf : f = if b.jobFn j = b.owner then j.byte 0 6 else b.jobFn j)
    (hr : j.byte 0 4 ≤ 7 ∧ j.byte 0 5 ≤ 7 ∧ j.byte 0 7 = 0 ∧ j.only [(4, 4), (16, 8)] = true)
    (hk : (j.byte 0 4 ≠ 2 → j.byte 0 5 = 0) ∧ (j.byte 0 4 = 6 → f < 4)) (he : b.fnExists f = true)
    (hl : l = b.holdings (j.byte 0 4) f (j.byte 0 5)) :
    resourceQuery j b = okRes ((b.draw 32).2.jobWrite j j.hostAddr (leBytes 8 l.length ++
      (l.take (b.draw 32).1.toNat).flatMap (fun e => leBytes 4 e.1 ++ leBytes 4 e.2))) (leBytes 4 l.length) := by
  obtain ⟨hkind, hp, h7, ho⟩ := hr
  obtain ⟨hpipe, hpf⟩ := hk
  subst hf hl
  refine (if_neg ?fields).trans (if_neg (by simp [he]))
  rintro (g | g | ⟨g, g'⟩ | g | g | ⟨g, g'⟩)
  · exact Nat.not_lt.2 hkind g
  · exact Nat.not_lt.2 hp g
  · exact g' (hpipe g)
  · exact g h7
  · exact Bool.false_ne_true (g.symm.trans ho)
  · exact Nat.not_le.2 (hpf g) g'

/-- HIF_SETUP of a link of the device, with a retry time and a pin in range (R431). -/
theorem hifSetup_ok (hp : b.linkPresent (j.byte 0 4) = true)
    (h : 100 ≤ j.le 8 4 ∧ j.le 8 4 ≤ 25000 ∧ j.byte 0 12 < 2 ∧ j.only [(4, 1), (8, 4), (12, 1), (16, 8)] = true) :
    hifSetup j b = okRes (((((b.wr (wHif + 16 * j.byte 0 4) Reg.HIF_LINK_CFG_RETRY_US (j.le 8 4)).updateCpl
      (j.byte 0 4)).wr wHif Reg.HIF_PIN_PIN_ALL (j.byte 0 12)).wr wHif Reg.HIF_PIN_EN j.hostAddr).updateInt) [] := by
  obtain ⟨hlo, hhi, hpin, ho⟩ := h
  exact if_neg (by simp [hp, ho, Nat.not_lt.2 hlo, Nat.not_lt.2 hhi, Nat.not_le.2 hpin])

end

/-- Settles O19: each clause is its command's body, or its row's operation, in the case that the clause describes. -/
theorem frameAndResourceCommands : Obligations.FrameAndResourceCommands := by
  refine ⟨?inject, ?punt, ?chosen, ?resend, ?assign, ?query, ?hif⟩
  case inject =>
    intro s b j f g i k cs u v h hp ht ha hf hk hn hc hg
    have charged := injectFrame_charged ⟨hp, ht, ha⟩ ⟨hf, hk⟩ hn hc hg
    refine ⟨fun hlt => ?dropped, fun hle hd => ?waits, fun hle hd t w hl => ?queued⟩
    case dropped => exact jobRow_ok h (charged.trans (if_pos hlt))
    case waits => exact jobRow_ok h (charged.trans ((if_neg (Nat.not_lt.2 hle)).trans (if_pos hd)))
    case queued =>
      rw [hl, if_neg (Nat.not_lt.2 hle), if_neg (by simp [hd])] at charged
      exact jobRow_ok h charged
  case punt =>
    exact fun s t u v w p x f a q order n e l cut hx hd he hf hl hu hv hw =>
      congrArg Host.Outcome.next (puntDone_written hx hd he hf hl hu hv hw)
  case chosen => exact fun s n m q k hb hr hc => txFrameStart_chosen hb hr hc
  case resend => exact fun s n m e hb hr => txFrameStart_resend hb hr
  case assign => exact fun s b j h hv hl hf hb hr => jobRow_ok h (assignResources_ok hv hl hf hb hr)
  case query => exact fun s b j l f h hf hr hk he hl => jobRow_ok h (resourceQuery_ok hf hr hk he hl)
  case hif => exact fun s b j h hp hr => jobRow_ok h (hifSetup_ok hp hr)

end Sys2Proof.Machine
end

section
/-!
PROOFS. Esch's admin commands (ch. 10), then the obligation on them.
-/
namespace Sys2Proof.Machine

section
variable {b u : State} {j : Job}

/-- ESCH_PORT_SET of a port that the function holds, with a class map inside it and no bad node record (R307, R332). -/
theorem eschPortSet_ok {n : Nat} {img : List Byte} (hn : n = j.le 4 2 ∧ n ≤ 140 ∧ j.le 16 4 ≤ 10 ^ 6 ∧ j.one = true)
    (ho : b.holdsPort (b.jobFn j) n = true)
    (hm : ((rangeFrom 0 16).any fun c => decide (65535 < j.le 6 2 + j.bits (8 + c / 2) (4 * (c % 2) + 3) (4 * (c % 2)) ∨
      b.qPort (j.le 6 2 + j.bits (8 + c / 2) (4 * (c % 2) + 3) (4 * (c % 2))) ≠ n)) = false)
    (hi : img = b.hostRd (b.jobLink j) (j.le 20 4) 32) (hr : j.le 20 4 ≠ 0 → badNode 3 img = false) :
    eschPortSet j b = okRes ((fun u : State => if j.le 20 4 = 0 then u else u.putNode 3 n (parseNode img))
      (((((if j.le 20 4 = 0 then b else b.countMoved 30 32).setReg (wEsch + 16 * n + 0x1000) (j.le 6 2)).setReg
        (wEsch + 16 * n + 0x1004) (j.le 8 4)).setReg (wEsch + 16 * n + 0x1008) (j.le 12 4)).wr (wEsch + 16 * n)
        Reg.ESCH_PORT_LAUNCH_LAUNCH_MAX_US (j.le 16 4))) [] := by
  obtain ⟨rfl, hp, hl, h1⟩ := hn
  subst hi
  refine (if_neg ?holder).trans ((if_neg ?values).trans ((if_neg ?map).trans (if_neg ?record)))
  case holder => simp [hp, ho]
  case values => simpa [h1] using hl
  case map => rw [hm]; exact Bool.false_ne_true
  case record => exact fun g => Bool.false_ne_true ((hr g.1).symm.trans g.2)

/-- ESCH_NODE_SET of groups or subgroups whose records fit (R332, R333). -/
theorem eschNodeSet_ok (h : j.le 8 2 ≠ 0 ∧ j.byte 0 4 < 2 ∧ j.le 8 2 ≤ 8192 ∧
      j.le 6 2 + j.le 8 2 ≤ (if j.byte 0 4 = 0 then 1024 else 8192) ∧ j.one = true)
    (hf : b.nodesFit (b.jobFn j) (j.byte 0 4) (b.readRecs (b.jobLink j) j.hostAddr (j.le 6 2) (j.le 8 2)) u) :
    eschNodeSet j b = okRes u [] := by
  obtain ⟨h0, hk, hn, hl, h1⟩ := h
  exact (if_neg h0).trans ((if_neg (by simp [h1, Nat.not_le.2 hk, Nat.not_lt.2 hn])).trans
    ((if_neg (Nat.not_lt.2 hl)).trans (putNodes_ok hf)))

/-- ESCH_QUEUE_SET of queues whose records fit (R332, R333). -/
theorem eschQueueSet_ok (h : j.le 8 4 ≠ 0 ∧ j.le 6 2 + j.le 8 4 ≤ 65536 ∧ j.one = true)
    (hf : b.nodesFit (b.jobFn j) 2 (b.readRecs (b.jobLink j) j.hostAddr (j.le 6 2) (j.le 8 4)) u) :
    eschQueueSet j b = okRes u [] := by
  obtain ⟨h0, hl, h1⟩ := h
  have hn : j.le 8 4 ≤ 65536 := Nat.le_trans (Nat.le_add_left _ _) hl
  exact (if_neg h0).trans ((if_neg (by simp [h1, Nat.not_lt.2 hn])).trans
    ((if_neg (Nat.not_lt.2 hl)).trans (putNodes_ok hf)))

/-- ESCH_QUERY of a node under a port that the function holds (R334). -/
theorem eschQuery_ok {k n : Nat} {d : Node} {x : NodeSt}
    (hn : k = j.byte 0 4 ∧ n = j.le 6 2 ∧ k < 4 ∧
      n < (if k = 0 then 1024 else if k = 1 then 8192 else if k = 2 then 65536 else 141))
    (ho : j.one = true ∧ b.holdsPort (b.jobFn j) (b.nodePort k n) = true) (hx : x = b.nodeNow k n)
    (hd : d = if k = 3 then { b.node 3 n with weight := 0 } else b.node k n) :
    eschQuery j b = okRes (b.jobWrite j j.hostAddr (d.bytes ++ tokenField x.cb.tokens ++ tokenField x.pb.tokens ++
      leBytes 4 (uNat 32 x.deficit) ++ leBytes 1 (b2n (decide (b.nodeBlocked k n = 0)) + 2 * b2n (b.committed k n)) ++
      leBytes 1 (b.nodeBlocked k n) ++ List.replicate 18 0)) (leBytes 4 64) := by
  obtain ⟨rfl, rfl, hk, hl⟩ := hn
  obtain ⟨h1, hh⟩ := ho
  subst hx hd
  refine (if_neg ?fields).trans (if_neg ?holder)
  case fields => simp [h1, Nat.not_le.2 hk]
  case holder => exact fun g => g.elim (Nat.not_le.2 hl) (fun g => Bool.false_ne_true (g.symm.trans hh))

end

/-- Settles O42: each command's body in the case that the clause describes. -/
theorem eschCommands : Obligations.EschCommands := by
  refine ⟨?port, ?node, ?queue, ?query⟩
  case port => exact fun s b j n img h hn ho hm hi hr => jobRow_ok h (eschPortSet_ok hn ho hm hi hr)
  case node => exact fun s b j u h hn hf => jobRow_ok h (eschNodeSet_ok hn hf)
  case queue => exact fun s b j u h hn hf => jobRow_ok h (eschQueueSet_ok hn hf)
  case query => exact fun s b j k n d x h hn ho hx hd => jobRow_ok h (eschQuery_ok hn ho hx hd)

end Sys2Proof.Machine
end

section
/-!
PROOFS. THYME_ADJUST in its five kinds (ch. 12 and 13), then the obligation on them.
-/
namespace Sys2Proof.Machine

/-! ### Rows of THYME_ADJUST (R360, R385, R391) -/

/-- A row of THYME_ADJUST whose job is of its kind and in its turn (R360). -/
theorem adjRow_inTurn {s : State} {g : Gate} {j : Job} {mine : Bool} {body : Job → State → Answer}
    (ht : s.inTurn j 0x68 0x68 = true) (hm : mine = true) : adjRow g j s mine body = jobRow g j s body :=
  (if_pos ht).trans (opRow_eq hm)

/-- A ready job of the row's opcode that a gate turns away completes with the gate's status. -/
theorem runJob_gated {s : State} {g : Gate} {j : Job} {x : Nat} {body : State → Answer} (h : s.jobReady j = true)
    (ho : j.opcode = g.op) (hg : s.gate g j = some x) : s.runJob g j body = (s.startJob j).complete j x [] := by
  simp only [State.runJob, h, ho, decide_true, Bool.and_self, if_true, hg]

/-- A STEP that a gate turns away in its turn is flagged, and then meets the gates as they are (R391). -/
theorem execStep_gated {s u : State} {j : Job} (h1 : s.inTurn j 0x68 0x68 = true) (h2 : j.byte 0 4 = 2)
    (hr : s.jobReady j = true) (ho : j.opcode = 0x68) (hg : s.gate { op := 0x68, safe := true } j ≠ none)
    (hu : u = s.flagStep (adjOffset j)) (ht : u.inTurn j 0x68 0x68 = true) :
    exec (.thymeAdjustStep j) s = jobRow { op := 0x68, safe := true } j u adjustStep := by
  have flagged : s.flagGated { op := 0x68, safe := true } j = u :=
    (if_pos ⟨hr, ho, Option.isSome_iff_ne_none.2 hg⟩).trans hu.symm
  show adjRow _ j (if _ then _ else _) _ _ = _
  rw [if_pos ⟨h2, h1⟩, flagged]
  exact adjRow_inTurn ht (decide_eq_true h2)

/-! ### The kinds (R358, R359, R390 to R392) -/

section
variable {b : State} {j : Job} {v : Int}

/-- A RATE in range, outside HOLDOVER, that in SERVICE changes FREQ_ADJ by SLEW_MAX_PPB at most (R358, R390, R392). -/
theorem adjustRate_ok (hk : j.byte 0 4 = 0) (hv : v = sInt 32 (j.le 8 4)) (hr : v.natAbs ≤ 204800000)
    (hf : j.only [(4, 1), (8, 4)] = true) (hs : b.holdState ≠ 3)
    (hm : b.holdMode = 1 → (v - b.freqAdj).natAbs ≤ 1024 * b.slewMax) :
    adjustRate j b = okRes (b.addAdj (.rate v)) [] := by
  subst hv
  refine (if_neg (by simp [hk])).trans ((if_neg hs).trans ((if_neg ?fields).trans (if_neg ?limit)))
  case fields => simp [hf, Nat.not_lt.2 hr]
  case limit => exact fun g => Nat.not_lt.2 (hm g.1) g.2

/-- A SLEW of a valid offset outside HOLDOVER, at a rate within the mode's limit (R358, R359, R390). -/
theorem adjustSlew_ok (hv : v = adjOffset j) (hf : j.only [(4, 1), (8, 12)] = true) (ho : offsetBad v = false)
    (hp : j.le 16 4 ≠ 0) (hs : b.holdState ≠ 3) (hl : j.le 16 4 ≤ if b.holdMode = 1 then b.slewMax else 200000) :
    adjustSlew j b = okRes (b.addAdj (.slew v (j.le 16 4))) (leBytes 6 (uNat 48 b.slewLeft)) := by
  subst hv
  exact (if_neg hs).trans ((if_neg (by simp [hf, ho, hp])).trans (if_neg (Nat.not_lt.2 hl)))

/-- A STEP of valid fields within STEP_LIMIT, outside HOLDOVER and SERVICE, is not refused (R358, R390, R391). -/
theorem stepRefused_none (hv : v = adjOffset j) (hf : j.only [(4, 1), (8, 8)] = true) (ho : offsetBad v = false)
    (hs : b.holdState ≠ 3) (hm : b.holdMode ≠ 1) (h0 : b.stepLimit ≠ 0) (hl : v.natAbs ≤ b.stepLimit * 65536) :
    b.stepRefused j = none := by
  subst hv
  exact (if_neg hs).trans ((if_neg hm).trans ((if_neg (by simp [hf, ho])).trans
    (if_neg (not_or.2 ⟨h0, Nat.not_lt.2 hl⟩))))

/-- A STEP that the holdover state, the mode, its fields or STEP_LIMIT rule out is refused with the first that does
(R358, R390, R391). -/
theorem stepRefused_some (hv : v = adjOffset j)
    (h : b.holdState = 3 ∨ b.holdMode = 1 ∨ j.only [(4, 1), (8, 8)] = false ∨ offsetBad v = true ∨
      b.stepLimit = 0 ∨ b.stepLimit * 65536 < v.natAbs) :
    b.stepRefused j = some (if b.holdState = 3 then St.HOLD_ACTIVE else if b.holdMode = 1 then St.STEP_REFUSED
      else if j.only [(4, 1), (8, 8)] = false ∨ offsetBad v = true then St.THYME_INVALID else St.STEP_REFUSED) := by
  subst hv
  unfold State.stepRefused
  dsimp only
  by_cases hs : b.holdState = 3
  · rw [if_pos hs, if_pos hs]
  by_cases hm : b.holdMode = 1
  · rw [if_neg hs, if_pos hm, if_neg hs, if_pos hm]
  by_cases hf : j.only [(4, 1), (8, 8)] = false ∨ offsetBad (adjOffset j) = true
  · rw [if_neg hs, if_neg hm, if_pos (by simpa using hf), if_neg hs, if_neg hm, if_pos hf]
  have limit : b.stepLimit = 0 ∨ b.stepLimit * 65536 < (adjOffset j).natAbs :=
    (or_assoc.2 ((h.resolve_left hs).resolve_left hm)).resolve_left hf
  rw [if_neg hs, if_neg hm, if_neg (by simpa using hf), if_pos limit, if_neg hs, if_neg hm, if_neg hf]

/-- A STEP that is not refused waits for the next broadcast (R360). -/
theorem adjustStep_ok (hv : v = adjOffset j) (h : b.stepRefused j = none) :
    adjustStep j b = okRes (b.addAdj (.step v)) [] := by
  unfold adjustStep
  rw [h, hv]
  rfl

/-- A STEP that is refused is flagged (R391). -/
theorem adjustStep_fail {code : Nat} (hv : v = adjOffset j) (h : b.stepRefused j = some code) :
    adjustStep j b = failA (b.flagStep v) code := by
  unfold adjustStep
  rw [h, hv]

/-- A SET of valid fields outside every mode and state of holdover (R358). -/
theorem adjustSet_ok (hf : j.only [(4, 1), (8, 6), (16, 6)] = true) (hn : j.le 16 4 < 10 ^ 9)
    (hm : b.holdMode = 0 ∧ b.holdState = 0) :
    adjustSet j b = okRes (b.addAdj (.set ((j.le 8 6 * 10 ^ 9 + j.le 16 4) * 65536 + j.le 20 2))) [] :=
  (if_neg (by simpa [hf] using hn)).trans (if_neg (by simp [hm]))

/-- A SET_AT_PPS of valid fields outside every mode and state of holdover waits for the pulse (R358). -/
theorem adjustSetAtPps_ok (hf : j.only [(4, 1), (8, 6)] = true) (hm : b.holdMode = 0 ∧ b.holdState = 0) :
    adjustSetAtPps j b = okRes { b with thyme := { b.thyme with ppsArm := some (j.le 8 6) } } [] :=
  (if_neg (by simp [hf])).trans (if_neg (by simp [hm]))

end

/-- Settles O44: each kind's row runs its body in its turn, and the body is in the case that the clause describes. -/
theorem thymeAdjustments : Obligations.ThymeAdjustments := by
  refine ⟨?rate, ?slew, ?step, ?refused, ?gated, ?set, ?atPps⟩
  case rate =>
    rintro s b j v ⟨ht, hk⟩ h ⟨hv, hr, hf⟩ ⟨hs, hm⟩
    refine (adjRow_inTurn ht (by simp [hk])).trans (jobRow_ok ?_ (adjustRate_ok hk hv hr hf hs hm))
    rwa [decide_eq_true hk]
  case slew =>
    rintro s b j v ⟨ht, hk⟩ h ⟨hv, hf, ho, hp⟩ ⟨hs, hl⟩
    exact (adjRow_inTurn ht (by simp [hk])).trans (jobRow_ok h (adjustSlew_ok hv hf ho hp hs hl))
  case step =>
    rintro s b j v ⟨ht, hk⟩ h ⟨hv, hf, ho⟩ ⟨hs, hm, h0, hl⟩
    exact (execStep_ready ht hk h).trans
      (jobRow_ok h (adjustStep_ok hv (stepRefused_none hv hf ho hs hm h0 hl)))
  case refused =>
    rintro s b j v code ⟨ht, hk⟩ h hv hc hr
    exact (execStep_ready ht hk h).trans
      (jobRow_fail h (adjustStep_fail hv (hc ▸ stepRefused_some hv hr)))
  case gated =>
    rintro s u j code ⟨ht, hk⟩ ⟨hr, ho, hg⟩ hu ⟨ht', hr', hg'⟩
    exact (execStep_gated ht hk hr ho hg hu ht').trans (congrArg Host.Outcome.next (runJob_gated hr' ho hg'))
  case set =>
    rintro s b j ⟨ht, hk⟩ h ⟨hf, hn⟩ hm
    exact (adjRow_inTurn ht (by simp [hk])).trans (jobRow_ok h (adjustSet_ok hf hn hm))
  case atPps =>
    rintro s b j ⟨ht, hk⟩ h hf hm
    exact (adjRow_inTurn ht (by simp [hk])).trans (jobRow_ok h (adjustSetAtPps_ok hf hm))

end Sys2Proof.Machine
end

section
/-!
PROOFS. Thyme's configuration commands and THYME_TOD_SEND (ch. 12), then the obligation on them.
-/
namespace Sys2Proof.Machine

section
variable {b : State} {j : Job}

/-- THYME_PULSE_SET of valid fields that is not late: at once, or at the trailing edge of the pulse in progress (R371,
R373). -/
theorem pulseSet_ok {i k : Nat} {w : List Nat}
    (hi : i = j.byte 0 4 ∧ i ≤ 7 ∧ j.byte 0 5 < 8 ∧ j.only [(4, 18), (24, 8)] = true)
    (hw : w = (rangeFrom 0 7).map (fun k => j.le (4 + 4 * k) 4))
    (hk : k = (pulseCfg w).firstAt (b.eighthsUp + 8 * 2048))
    (hr : (pulseCfg w).bad (j.le 16 4) (j.le 24 4) = false)
    (hl : (pulseCfg w).mode = 1 → b.eighthsUp + 8 * 2048 ≤ (pulseCfg w).start) :
    pulseSet j b = okRes (if (b.pulseSt i).high then b.setPulseSt i { b.pulseSt i with
      later := some (w.map (BitVec.ofNat 32), k) } else b.pulseStart i (w.map (BitVec.ofNat 32)) k) [] := by
  obtain ⟨rfl, h7, h8, hf⟩ := hi
  subst hk
  subst hw
  refine (if_neg ?fields).trans (if_neg ?late)
  case fields => simp [hf, hr, Nat.not_lt.2 h7, Nat.not_le.2 h8]
  case late => exact fun g => Nat.not_lt.2 (hl g.1) g.2

/-- THYME_IO_SET of valid fields writes the words of its target; 1PPS_OUT then rests (R375, R378, R387). -/
theorem ioSet_ok (h : ioOk j b = true) :
    ioSet j b = okRes (forEach (rangeFrom 0 4) (fun w s => s.setReg (wThyme + 0x200 + 0x10 * j.byte 0 4 + 4 * w)
      (j.le (4 + 4 * w) 4)) b |> fun u : State => if j.byte 0 4 = 5 then u.ppsRest else u) [] :=
  if_pos h

/-- THYME_PORT_SET of a port of the function, to an EVENT queue of it or to none (R385, R386). -/
theorem thymePortSet_ok {n f : Nat}
    (hn : n = j.le 4 2 ∧ n ≤ 127 ∧ j.only [(4, 4)] = true ∧ f = b.jobFn j) (hp : b.portHolder n = f)
    (hq : b.eventQ f (j.le 6 2) = true) :
    thymePortSet j b = okRes (({ b with
      thyme := { b.thyme with tsFn := tabSet (fun _ => 0) b.thyme.tsFn n f } } : State).wr (wThyme + 4 * n)
        Reg.THYME_PORT_TS_TS_Q (j.le 6 2)) [] := by
  obtain ⟨rfl, hl, hf, rfl⟩ := hn
  exact (if_neg (by simp [hf, Nat.not_lt.2 hl])).trans ((if_neg (not_not_intro hp)).trans (if_neg (by simp [hq])))

/-- THYME_DPLL_SET of valid fields: the offset is brought into range, and a candidate whose source has changed must
qualify anew (R357, R381 to R384). -/
theorem dpllSet_ok {u v : State} (h : dpllBad j = false)
    (hu : u = forEach (rangeFrom 0 6) (fun w s => s.setReg (wThyme + 0x300 + 4 * w) (j.le (4 + 4 * w) 4)) b)
    (hv : v = u.wr wThyme Reg.THYME_DPLL_OFFSET_D (uNat 32 (max (-(1024 * u.dpllWord 3 : Int)) (min
      (1024 * u.dpllWord 3 : Int) u.dpllD)))) :
    dpllSet j b = okRes ((({ v with
      thyme := { v.thyme with
        qualified := b.thyme.qualified.filter (fun k => decide (u.candSrc k = b.candSrc k))
        waits := b.thyme.waits.filter (fun k => decide (u.candSrc k = b.candSrc k)) } } : State).dpllRun
          true).squelch) [] := by
  subst hv
  subst hu
  exact if_neg (by simp [h])

/-- THYME_TOD_SEND of a message, when none is being sent, waits for the next second boundary (R379). -/
theorem todSend_waits {x : TodSt} (hf : j.only [(8, 10)] = true) (hn : j.le 16 2 ≤ 128) (h0 : j.le 16 2 ≠ 0)
    (ht : b.thyme.todTx = none)
    (hx : x = {
      job := j, bytes := b.hostRd (b.jobLink j) (j.le 8 8) (j.le 16 2)
      sec := (b.counter + 10 ^ 6 * unitNs + 10 ^ 9 * unitNs - 1) / (10 ^ 9 * unitNs) % 2 ^ 48 }) :
    todSend j b = laterA (({ b.countMoved 30 (j.le 16 2) with
      thyme := { b.thyme with todTx := some x } } : State).wr wThyme Reg.THYME_STATUS_TOD_TX_BUSY 1) := by
  subst hx
  exact (if_neg (by simp [hf, Nat.not_lt.2 hn])).trans ((if_neg h0).trans (if_neg (by simp [ht])))

end

/-- Settles O45: each command's body in the case that the clause describes. -/
theorem thymeCommands : Obligations.ThymeCommands := by
  refine ⟨?pulse, ?io, ?port, ?dpll, ?tod⟩
  case pulse => exact fun s b j i k w h hi hw hk hr => jobRow_ok h (pulseSet_ok hi hw hk hr.1 hr.2)
  case io => exact fun s b j h ho => jobRow_ok h (ioSet_ok ho)
  case port => exact fun s b j n f h hn hq => jobRow_ok h (thymePortSet_ok hn hq.1 hq.2)
  case dpll => exact fun s b j u v h hd hu hv => jobRow_ok h (dpllSet_ok hd hu hv)
  case tod =>
    rintro s b j x h ⟨hf, hn, h0, ht⟩ hx
    exact jobRow_later h (todSend_waits hf hn h0 ht hx)

end Sys2Proof.Machine
end

section
/-!
PROOFS. Captures, 1PPS_IN, TOD_RX and the candidates of the DPLL (ch. 12), then the obligation on them.
-/
namespace Sys2Proof.Machine

/-! ### Captures and 1PPS_IN (R376, R377) -/

/-- An edge that a capture input asks for, at least 100 cycles after its last capture, is captured (R368, R376). -/
theorem captureEdge_wanted {s : State} {x : Nat} {rising : Bool} (hx : x ≠ 4)
    (he : s.ioEdge x = 3 ∨ s.ioEdge x = (if rising then 1 else 2))
    (hl : (tabGet (fun _ => none) s.thyme.lastCap x).elim true (fun t => decide (100 ≤ s.clock.up - t)) = true) :
    s.captureEdge x rising = (true, State.capture { s with
      thyme := { s.thyme with lastCap := tabSet (fun _ => none) s.thyme.lastCap x (some s.clock.up) } } s.owner
        (s.ioQueue x) 1 (captureBytes 1 x (if rising then 1 else 2) 0 0 0 (s.edgeTime x))) := by
  have wanted : if rising then s.ioEdge x = 1 ∨ s.ioEdge x = 3 else s.ioEdge x = 2 ∨ s.ioEdge x = 3 := by
    cases rising
    · exact he.symm
    · exact he.symm
  unfold State.captureEdge
  dsimp only
  rw [if_neg (by simp only [decide_eq_true wanted]; decide)]
  cases hc : tabGet (fun _ => none) s.thyme.lastCap x with
  | none => simp [hx]
  | some t =>
    rw [hc] at hl
    have far : decide (s.clock.up - t < 100) = false := decide_eq_false (Nat.not_lt.2 (of_decide_eq_true hl))
    simp [far, hx]

/-- A rising edge of 1PPS_IN that is captured: its error, the run of evenly spaced pulses, the time that was armed for
it, and 1PPS_IN restored by the third of a run (R358, R377). -/
theorem ppsEdge_captured {s u v w : State} {t run : Nat} {e : Int} {spaced : Bool}
    (hc : s.captureEdge 4 true = (true, u)) (ht : t = s.edgeTime 4) (he : e = ppsError t)
    (hs : spaced = s.thyme.ppsLast.elim false
      (fun t0 => decide ((((t : Int) - t0) - 256 * 10 ^ 9).natAbs ≤ 256 * 1000)))
    (hr : run = if spaced then s.thyme.ppsRun + 1 else 1)
    (hv : v = u.wr wThyme Reg.THYME_PPS_IN_ERR_PPS_IN_ERR (uNat 32 e))
    (hw : w = s.thyme.ppsArm.elim
      { v with thyme := { v.thyme with ppsLast := some t, ppsRun := run, ppsArm := none } }
      (fun sec => State.addAdj { v with thyme := { v.thyme with ppsLast := some t, ppsRun := run, ppsArm := none } }
        (.setAtPps sec ((8 * s.clock.up : Nat) - s.inComp 4)))) :
    s.ppsEdge true = if 3 ≤ run ∧ s.rdb wThyme Reg.THYME_STATUS_PPS_IN_OK = false then
      (w.wr wThyme Reg.THYME_STATUS_PPS_IN_OK 1).event Ev.PPS_IN_RESTORED 0 (uNat 32 e) 0 0 else w := by
  subst hw hv hr hs he ht
  unfold State.ppsEdge
  rw [hc]
  refine (if_neg (by simp)).trans ?_
  cases s.thyme.ppsLast <;> cases s.thyme.ppsArm <;> rfl

/-- No pulse within the time after the last: 1PPS_IN is lost, and its run begins again (R377). -/
theorem ppsTimeout_last {s : State} {t : Nat} (ht : s.thyme.ppsLast = some t) :
    s.ppsTimeout = (fun u : State => { u with thyme := { u.thyme with ppsRun := 0, ppsLast := none } })
      ((s.wr wThyme Reg.THYME_STATUS_PPS_IN_OK 0).event Ev.PPS_IN_LOST 0 (timeSec t % 2 ^ 32) 0 0) := by
  unfold State.ppsTimeout
  rw [ht]

/-! ### TOD_RX (R380) -/

/-- A byte received on TOD_RX counts in its message, whose time is its first byte's; it joins the FIFO, or is counted as
lost where that is full (R380). -/
theorem todByte_enabled {s u : State} {y : Byte} (he : s.ioEnable 7 = true)
    (hu : u = { s with thyme := { s.thyme with
      todMsg := some (s.thyme.todMsg.elim (s.eighths * 32, 1) (fun m => (m.1, m.2 + 1))) } }) :
    s.todByte y = if 256 ≤ s.thyme.todRx.length then u.count 151 11 1
      else { u with thyme := { u.thyme with todRx := s.thyme.todRx ++ [y] } } := by
  subst hu
  unfold State.todByte
  refine (if_neg (by simp [he])).trans ?_
  cases s.thyme.todMsg <;> rfl

/-- An idle line ends the message and posts its capture (R368, R380). -/
theorem todIdle_message {s : State} {t n : Nat} (hm : s.thyme.todMsg = some (t, n)) :
    s.todIdle = State.capture { s with thyme := { s.thyme with todMsg := none } } s.owner (s.ioQueue 7) 3
      (captureBytes 3 0 (n % 65536) 0 0 0 t) := by
  unfold State.todIdle
  rw [hm]

/-! ### REF10M_IN (R375, R382, R387) -/

/-- REF10M_IN becomes present: its offset is measured where it is enabled. -/
theorem ref10m_present (s : State) (off : BitVec 32) :
    s.ref10m true off = if s.ioEnable 6 then (s.wr wThyme Reg.THYME_STATUS_REF10M_OK 1).wr wThyme
      Reg.THYME_REF10M_OFFSET_REF10M_OFFSET off.toNat else s.wr wThyme Reg.THYME_STATUS_REF10M_OK 1 := by
  simp [State.ref10m, b2n]

/-- REF10M_IN becomes absent: the candidates that it feeds are disqualified. -/
theorem ref10m_absent (s : State) (off : BitVec 32) :
    s.ref10m false off = forEach (rangeFrom 0 4) (fun j s => if s.candSrc j = 0xFE then s.disqualify j else s)
      (s.wr wThyme Reg.THYME_STATUS_REF10M_OK 0) := by
  simp [State.ref10m, b2n]

/-! ### Candidates and lock (R382, R383) -/

section
variable {s : State} {j : Nat}

/-- A candidate that meets every condition, and whose wait to restore has passed, qualifies (R382). -/
theorem qualify_meets {ppb : Int} (hs : s.candSrc j ≠ 0xFF) (hq : s.thyme.qualified.contains j = false)
    (hp : s.candPresent j = true) (hw : s.thyme.waits.contains j = false) (hr : ppb.natAbs ≤ s.dpllWord 3) :
    s.qualify j ppb = ((State.dpllRun { s with
      thyme := { s.thyme with qualified := j :: s.thyme.qualified } } true)).squelch :=
  if_neg (by simp only [hs, hq, hp, hw, Nat.not_lt.2 hr]; decide)

/-- A candidate in its wait to restore, or out of range, does not qualify (R382). -/
theorem qualify_waits {ppb : Int} (h : s.thyme.waits.contains j = true ∨ s.dpllWord 3 < ppb.natAbs) :
    s.qualify j ppb = s :=
  if_pos (.inr (.inr (.inr h)))

/-- A qualified candidate that is disqualified begins its wait to restore, if it has one (R382). -/
theorem disqualify_qualified (h : s.thyme.qualified.contains j = true) :
    s.disqualify j = ((State.dpllRun { s with
      thyme := { s.thyme with
        qualified := s.thyme.qualified.erase j
        waits := if s.dpllWord 4 % 2 ^ 16 = 0 then s.thyme.waits else j :: s.thyme.waits } } false)).squelch :=
  if_pos h

/-- The acquiring DPLL locks at an offset within RANGE_PPB (R357, R383). -/
theorem dpllLock_inRange {d : BitVec 32} (h : s.dpllState = 1 ∧ d.toInt.natAbs ≤ 1024 * s.dpllWord 3) :
    s.dpllLock d = State.setDpll { s.wr wThyme Reg.THYME_DPLL_OFFSET_D d.toNat with
      thyme := { (s.wr wThyme Reg.THYME_DPLL_OFFSET_D d.toNat).thyme with lockedAt := s.clock.up } } 2 s.dpllSel :=
  if_pos h

end

/-- Settles O47: each clause is its row's operation in the case that the clause describes. -/
theorem thymeInputs : Obligations.ThymeInputs := by
  refine ⟨?capture, ?pps, ?lost, ?byte, ?idle, ?ref, ?qualify, ?stays, ?disqualify, ?lock⟩
  case capture =>
    rintro s x rising e he hl rfl
    exact congrArg (fun r => Host.Outcome.next r.2) (captureEdge_wanted (Nat.ne_of_lt x.isLt) he hl)
  case pps =>
    rintro s rising u v w t e spaced run hc rfl ⟨ht, he⟩ hs hr hv hw
    exact congrArg Host.Outcome.next (ppsEdge_captured hc ht he hs hr hv hw)
  case lost => exact fun s t ht => congrArg Host.Outcome.next (ppsTimeout_last ht)
  case byte => exact fun s u y he hu => congrArg Host.Outcome.next (todByte_enabled he hu)
  case idle => exact fun s t n hm => congrArg Host.Outcome.next (todIdle_message hm)
  case ref =>
    rintro s u off rfl
    exact ⟨congrArg Host.Outcome.next (ref10m_present s off), congrArg Host.Outcome.next (ref10m_absent s off)⟩
  case qualify =>
    rintro s u j ppb ⟨hs, hq, hp, hw, hr⟩
    have qualified := qualify_meets hs hq hp hw hr
    refine ⟨?_, ?_⟩
    · rintro rfl
      exact congrArg Host.Outcome.next qualified
    · rintro rfl
      exact congrArg Host.Outcome.next qualified
  case stays => exact fun s j ppb h => congrArg Host.Outcome.next (qualify_waits h)
  case disqualify => exact fun s j h => congrArg Host.Outcome.next (disqualify_qualified h)
  case lock => exact fun s d h => congrArg Host.Outcome.next (dpllLock_inRange h)

end Sys2Proof.Machine
end

section
/-!
PROOFS. What every step keeps, and that every command answers (ch. 95), then the obligations on them.
-/
namespace Sys2Proof.Machine

/-! ### Invariants of a step -/

/-- A canonical state has what every operation keeps: its own queue, and the fuses that it has now. -/
theorem keeps_of_canonical {s : State} (h : s.canonical) : Keeps s.pending s.dev.fuses s :=
  ⟨rfl, h.1, h.2.1, h.2.2, Fuses.follow_refl _⟩

/-- What every operation keeps includes the canonical form. -/
theorem Keeps.canonical {p : List Instr} {z : Fuses} {s : State} (h : Keeps p z s) : s.canonical :=
  ⟨h.regs, h.hostMem, h.dram⟩

/-- A step keeps what every operation keeps, with the command that it runs taken off the queue. -/
theorem step_keeps {s t : State} (h : s.canonical) (e : step s = .next t) : Keeps s.pending.tail s.dev.fuses t := by
  have k := keeps_of_canonical h
  unfold step at e
  cases hp : s.pending with
  | nil =>
    rw [hp] at e k
    cases e
    exact State.idle_keeps k
  | cons c rest =>
    rw [hp] at e
    exact exec_keeps (s := { s with pending := rest }) ⟨rfl, k.regs, k.hostMem, k.dram, k.fuses⟩ e

/-! ### Every command answers -/

/-- The outcome is a next state: no fault and no refusal. -/
def IsNext (o : Out) : Prop := ∃ t, o = .next t

theorem isNext_next (t : State) : IsNext (.next t) := ⟨t, rfl⟩

theorem isNext_ite {c : Prop} [Decidable c] {a b : Out} (ha : IsNext a) (hb : IsNext b) : IsNext (if c then a else b) := by
  split <;> assumption

section
variable {g : Gate} {j : Job} {s : State} {body : Job → State → Answer}

theorem isNext_jobRow : IsNext (jobRow g j s body) := isNext_next _

theorem isNext_opRow {mine : Bool} : IsNext (opRow g j s mine body) := isNext_ite isNext_jobRow (isNext_next _)

theorem isNext_adjRow {mine : Bool} : IsNext (adjRow g j s mine body) := isNext_ite isNext_opRow (isNext_next _)

theorem isNext_trussRow : IsNext (trussRow g j s body) := isNext_ite isNext_jobRow (isNext_next _)

theorem isNext_storeRow : IsNext (storeRow g j s body) := isNext_ite isNext_jobRow (isNext_next _)

theorem isNext_setupRow {op : Nat} {owner : Bool} : IsNext (setupRow op j s owner body) :=
  isNext_ite isNext_jobRow (isNext_next _)

theorem isNext_updRow {op : Nat} {ready : Bool} : IsNext (updRow op j s ready body) :=
  isNext_ite isNext_jobRow (isNext_next _)

end

/-- Every command answers a next state: a row is a next state itself, or a choice between a job row and no change. -/
theorem exec_isNext (c : Instr) (s : State) : IsNext (exec c s) := by
  cases c with
  | trussGraphLoad | trussGraphSwap | trussGraphRead => exact isNext_trussRow
  | tenonCsRead => exact isNext_storeRow
  | tenonCsLoad | tenonCsSwap => exact isNext_ite (isNext_next _) isNext_storeRow
  | mortiseSearch => exact isNext_ite (isNext_next _) isNext_jobRow
  | rxRetxFrame => exact isNext_ite (isNext_next _) (isNext_next _)
  | tableSetupProfile | tableSetupPort | tableSetupLearnAge | tableSetupLearnSeeds | tableSetupEmSeeds
  | tableSetupEventQ => exact isNext_setupRow
  | updInsert | updModify | updDelete | updMove | batchOpen | batchCommit | batchAbort => exact isNext_updRow
  | thymeAdjustRate | thymeAdjustSlew | thymeAdjustStep | thymeAdjustSet | thymeAdjustSetAtPps => exact isNext_adjRow
  | holdCtlMode | reportAcquire | reportLocked | reportLost | reportChange | reportAlive | reportForget | holdCtlLimits
  | holdCtlTableLoad | channelStop | channelResume | channelFlush | channelPolicy | secFuseRevoke
  | secFuseFloor => exact isNext_opRow
  | _ => exact isNext_next _

/-! ### The obligations -/

/-- Settles O3: a step keeps what every operation keeps. -/
theorem stepKeepsCanonical : Obligations.StepKeepsCanonical := fun _ _ h e => (step_keeps h e).canonical

/-- Settles O4: a step keeps what every operation keeps, and so the fuses of its state can follow those before it. -/
theorem stepKeepsFuses : Obligations.StepKeepsFuses := fun _ _ h e => (step_keeps h e).fuses

/-- Settles O2: each row answers a next state, which keeps the queue that it was given. -/
theorem everyCommandAnswers : Obligations.EveryCommandAnswers := by
  intro c s
  obtain ⟨t, e⟩ := exec_isNext c s
  exact ⟨t, e, fun h => (exec_keeps (keeps_of_canonical h) e).pending⟩

/-- Settles O1, by the two cases of the queue in a step. -/
theorem stepRunsFront : Obligations.StepRunsFront := by
  refine ⟨fun c s rest h => ?_, fun s h => ?_⟩
  · unfold step
    rw [h]
  · unfold step
    rw [h]

end Sys2Proof.Machine
end

section
/-!
PROOFS. The gates of job rows (ch. 15, 21 and 22) and the doorbells (ch. 15), then the obligations on them.
-/
namespace Sys2Proof.Machine

/-! ### Gates (R434, R466, R611, R638) -/

/-- A job that is not ready, or whose opcode is another row's, is left as it is. -/
theorem runJob_notMine {s : State} {g : Gate} {j : Job} {body : State → Answer}
    (h : s.jobReady j = false ∨ j.opcode ≠ g.op) : s.runJob g j body = s := by
  refine if_neg (fun c => ?_)
  obtain ⟨hr, ho⟩ := Bool.and_eq_true_iff.1 c
  exact h.elim (fun h => Bool.false_ne_true (h.symm.trans hr)) (fun h => h (of_decide_eq_true ho))

/-- The completion of a job that was just taken changes the record of queues and jobs alone. -/
theorem startJob_complete_host (s : State) (j : Job) (x : Nat) (r : List Byte) :
    ∃ u : HostIf, (s.startJob j).complete j x r = { s with host := u } := by
  unfold State.complete
  split <;> exact ⟨_, rfl⟩

/-- Settles O6: a row with a gate waits, or runs its job through it. -/
theorem jobGates : Obligations.JobGates := by
  refine ⟨fun c j g s hg h => ?other, fun c s hw => rowWaits_waits hw, fun c j g s x hg h hx => ?gated⟩
  case other =>
    cases hw : rowWaits c s with
    | true => exact rowWaits_waits hw
    | false =>
      obtain ⟨body, e⟩ := jobGate_run hg s hw
      rw [e, runJob_notMine h]
  case gated =>
    obtain ⟨hr, ho, hw⟩ := h
    obtain ⟨body, e⟩ := jobGate_run hg s hw
    rw [e, runJob_gated hr ho hx]
    obtain ⟨u, hu⟩ := startJob_complete_host s j x []
    exact ⟨rfl, u, congrArg _ hu⟩

/-! ### Doorbells (R438, R442 to R444) -/

section
variable {s : State} {f i v q : Nat} (hr : s.inReset f = false)
include hr

/-- A tail doorbell of an absent queue index (R444). -/
theorem tailDoorbell_absent (hq : s.findQ f i = none) : s.tailDoorbell f i v = s.faultFn f 1 (8 * i) := by
  unfold State.tailDoorbell
  rw [hr, if_neg Bool.false_ne_true, hq]

/-- A head doorbell of an absent queue index (R444). -/
theorem headDoorbell_absent (hq : s.findQ f i = none) : s.headDoorbell f i v = s.faultFn f 1 (8 * i + 4) := by
  unfold State.headDoorbell
  rw [hr, if_neg Bool.false_ne_true, hq]

variable (hq : s.findQ f i = some q)
include hq

/-- A tail doorbell of a queue that the device writes (R444). -/
theorem tailDoorbell_deviceWritten (ht : (s.queue q).typ.submission = false) :
    s.tailDoorbell f i v = s.faultFn f 1 (8 * i) := by
  unfold State.tailDoorbell
  rw [hr, if_neg Bool.false_ne_true, hq]
  exact if_pos ht

/-- A tail doorbell of a submission queue that is not ACTIVE (R444). -/
theorem tailDoorbell_inactive (ht : (s.queue q).typ.submission = true) (hs : (s.queue q).st ≠ .active) :
    s.tailDoorbell f i v = s := by
  unfold State.tailDoorbell
  rw [hr, if_neg Bool.false_ne_true, hq]
  exact (if_neg (by simp [ht])).trans (if_pos hs)

/-- A tail beyond the ring puts the queue in ERROR (R438). -/
theorem tailDoorbell_beyond (ht : (s.queue q).typ.submission = true) (hs : (s.queue q).st = .active)
    (hv : (s.queue q).size ≤ v) : s.tailDoorbell f i v = s.queueError q 1 := by
  unfold State.tailDoorbell
  rw [hr, if_neg Bool.false_ne_true, hq]
  exact (if_neg (by simp [ht])).trans ((if_neg (not_not_intro hs)).trans (if_pos hv))

/-- A head doorbell of a submission queue other than the admin queue (R444). -/
theorem headDoorbell_submission (ht : (s.queue q).typ.submission = true) (ha : (s.queue q).typ ≠ .admin) :
    s.headDoorbell f i v = s.faultFn f 1 (8 * i + 4) := by
  unfold State.headDoorbell
  rw [hr, if_neg Bool.false_ne_true, hq]
  exact if_pos ⟨ht, ha⟩

variable (ht : (s.queue q).typ.submission = false ∨ (s.queue q).typ = .admin)
include ht

/-- A head doorbell of a queue with a ring that the device writes, while it is not ACTIVE (R444). -/
theorem headDoorbell_inactive (hs : (s.queue q).st ≠ .active) : s.headDoorbell f i v = s := by
  unfold State.headDoorbell
  rw [hr, if_neg Bool.false_ne_true, hq]
  exact (if_neg (fun h => ht.elim (fun g => Bool.false_ne_true (g.symm.trans h.1)) h.2)).trans (if_pos hs)

/-- A head doorbell inside the ring that releases no more than is unread moves the head (R443). -/
theorem headDoorbell_moves {size head unread n : Nat} (hs : (s.queue q).st = .active)
    (hz : size = if (s.queue q).typ = .admin then (s.queue q).csize else (s.queue q).size)
    (hh : head = if (s.queue q).typ = .admin then (s.queue q).chead else (s.queue q).head)
    (hu : unread = if (s.queue q).typ = .punt ∨ (s.queue q).typ = .event then ((s.queue q).tail + size - head) % size
      else (s.queue q).written)
    (hn : n = (v + size - head) % size) (hv : v < size) (hl : n ≤ unread) :
    s.headDoorbell f i v =
      if (s.queue q).typ = .admin then s.setQueue q { s.queue q with chead := v, written := (s.queue q).written - n }
      else if (s.queue q).typ = .completion then
        s.setQueue q { s.queue q with head := v, written := (s.queue q).written - n }
      else s.setQueue q { s.queue q with head := v } := by
  subst hn hu hh hz
  unfold State.headDoorbell
  rw [hr, if_neg Bool.false_ne_true, hq]
  refine (if_neg (fun h => ht.elim (fun g => Bool.false_ne_true (g.symm.trans h.1)) h.2)).trans ?_
  exact (if_neg (not_not_intro hs)).trans ((if_neg (Nat.not_le.2 hv)).trans (if_neg (Nat.not_lt.2 hl)))

end

section
variable {s : State} {f : Fin 256} {off : BitVec 24} {v : Word32} (h1 : s.reaches f.val) (ho : off.toNat < 0x1000)
include h1 ho

/-- A word written at a tail doorbell. -/
theorem exec_tailWrite (hal : off.toNat % 8 = 0) : exec (.registerWrite f 2 off v) s =
    .next (s.tailDoorbell f.val (off.toNat / 8) (v.toNat % 2 ^ 16)) :=
  congrArg Host.Outcome.next ((if_pos (by omega)).trans (memWrite_tail h1 hal ho))

/-- A word written at a head doorbell. -/
theorem exec_headWrite (hal : off.toNat % 8 = 4) : exec (.registerWrite f 2 off v) s =
    .next (s.headDoorbell f.val (off.toNat / 8) (v.toNat % 2 ^ 16)) :=
  congrArg Host.Outcome.next ((if_pos (by omega)).trans (memWrite_head h1 hal ho))

end

/-- A fault report in the window of a function that exists by its type. -/
theorem faultFn_fin (s : State) (f : Fin 256) (i info : Nat) : s.faultFn f.val i info = s.fault (.fn f) i info :=
  dif_pos f.isLt

/-- Settles O10: a doorbell is a tail or a head by bit 2 of its offset, and each has its case. -/
theorem doorbells : Obligations.Doorbells := by
  refine ⟨?absent, ?deviceWritten, ?submission, ?inactive⟩
  case absent =>
    rintro s f off v ⟨h1, hr, ho, hal⟩ hq
    have hx : off.toNat % 8 = 0 ∨ off.toNat % 8 = 4 := by omega
    rcases hx with hx | hx
    · rw [exec_tailWrite h1 ho hx, tailDoorbell_absent hr hq, faultFn_fin, Nat.mul_div_cancel' (by omega)]
    · rw [exec_headWrite h1 ho hx, headDoorbell_absent hr hq, faultFn_fin]
      congr 2
      omega
  case deviceWritten =>
    rintro s f off v q ⟨h1, hr, ho, hx⟩ ⟨hq, ht⟩
    rw [exec_tailWrite h1 ho hx, tailDoorbell_deviceWritten hr hq ht, faultFn_fin, Nat.mul_div_cancel' (by omega)]
  case submission =>
    rintro s f off v q ⟨h1, hr, ho, hx⟩ ⟨hq, ht, ha⟩
    rw [exec_headWrite h1 ho hx, headDoorbell_submission hr hq ht ha, faultFn_fin]
    congr 2
    omega
  case inactive =>
    rintro s f off v q ⟨h1, hr, ho, hal⟩ ⟨hq, hs⟩ ht
    have stopped : (s.queue q).st ≠ .active := by rcases hs with hs | hs <;> rw [hs] <;> decide
    by_cases hx : off.toNat % 8 = 0
    · rw [exec_tailWrite h1 ho hx, tailDoorbell_inactive hr hq (by rwa [if_pos hx] at ht) stopped]
    · rw [exec_headWrite h1 ho (by omega), headDoorbell_inactive hr hq (by rwa [if_neg hx] at ht) stopped]

/-! ### The admin queue (R464, R465, R637) -/

section
variable {s : State} {f : Nat}

/-- ENABLE written 1 in FUSED is held until BOOTED (R637). -/
theorem adminEnable_held (hr : s.inReset f = false) (he : s.fnExists f = true)
    (hd : (s.setEnable f 1).devState = 1) : s.adminEnable f = { s.setEnable f 1 with
      dev := { (s.setEnable f 1).dev with heldEnable :=
        if (s.setEnable f 1).dev.heldEnable.contains f then (s.setEnable f 1).dev.heldEnable
        else (s.setEnable f 1).dev.heldEnable ++ [f] } } :=
  (if_neg (by simp [hr, he])).trans (if_pos hd)

/-- ENABLE written 1 from BOOTED on creates the admin queue while it is ABSENT (R465). -/
theorem adminEnable_creates (hr : s.inReset f = false) (he : s.fnExists f = true)
    (hd : (s.setEnable f 1).devState ≠ 1) (hq : ((s.setEnable f 1).queue f).st = .absent) :
    s.adminEnable f = (s.setEnable f 1).adminCreate f :=
  (if_neg (by simp [hr, he])).trans ((if_neg hd).trans (if_pos hq))

/-- ENABLE written 0 destroys the function's queues (R465). -/
theorem adminDisable_exists (hr : s.inReset f = false) (he : s.fnExists f = true) :
    s.adminDisable f = State.destroyAll { s.setEnable f 0 with dev := { (s.setEnable f 0).dev with
      heldEnable := (s.setEnable f 0).dev.heldEnable.filter (fun g => decide (g ≠ f)) } } f false :=
  if_neg (by simp [hr, he])

/-- An admin queue of aligned rings of valid sizes (R464, R465). -/
theorem adminCreate_valid {n m : Nat} (hb : s.adminBase f 0x2000 % 256 = 0 ∧ s.adminBase f 0x2008 % 256 = 0)
    (hn : n = s.reg (s.fnBase f + 0x2010) % 2 ^ 13) (hm : m = s.reg (s.fnBase f + 0x2014) % 2 ^ 13)
    (hn' : 16 ≤ n ∧ n ≤ 4096 ∧ isPow2 n = true) (hm' : 16 ≤ m ∧ m ≤ 4096 ∧ isPow2 m = true) :
    s.adminCreate f = s.setQueue f {
      st := .active, typ := .admin, fn := f, idx := 0, base := s.adminBase f 0x2000, size := n
      cbase := s.adminBase f 0x2008, csize := m, nextSeq := (s.queue f).nextSeq } := by
  subst hn hm
  obtain ⟨hn1, hn2, hn3⟩ := hn'
  obtain ⟨hm1, hm2, hm3⟩ := hm'
  exact if_pos ⟨hb.1, hb.2, by simp only [hn1, hn2, hn3]; decide, by simp only [hm1, hm2, hm3]; decide⟩

end

/-- Settles O16: each write reaches the device, and its row's operation is in the case that the clause describes. -/
theorem queueDoorbells : Obligations.QueueDoorbells := by
  refine ⟨?held, ?create, ?disable, ?tail, ?completion, ?admin, ?ring⟩
  case held =>
    intro s f h1 hr hd
    refine ⟨_, congrArg Host.Outcome.next ((posted_reaches h1 _ _).trans (adminEnable_held hr h1.2.1 hd)), ?_, rfl,
      State.wr_host _ _ _ _⟩
    dsimp only
    split
    · exact List.contains_iff_mem.1 ‹_›
    · exact List.mem_append_right _ (List.mem_singleton_self _)
  case create =>
    rintro s e f h1 hr rfl hd hq hb hn hm
    refine congrArg Host.Outcome.next ((posted_reaches h1 _ _).trans ?_)
    exact (adminEnable_creates hr h1.2.1 hd hq).trans (adminCreate_valid hb rfl rfl hn hm)
  case disable =>
    rintro s e f h1 hr rfl
    exact congrArg Host.Outcome.next ((posted_reaches h1 _ _).trans (adminDisable_exists hr h1.2.1))
  case tail =>
    intro s f i v q h1 hr hq ht hs
    have rung : exec (.sqTailDoorbell f i v) s = .next (s.tailDoorbell f.val i.val (v.toNat % 2 ^ 16)) :=
      congrArg Host.Outcome.next (posted_reaches h1 _ _)
    exact ⟨fun hv => rung.trans (congrArg _ (tailDoorbell_active hr hq ht hs hv)),
      fun hv => rung.trans (congrArg _ (tailDoorbell_beyond hr hq ht hs hv))⟩
  case completion =>
    intro s f i v q n h1 hr hq hs ht hv hn hl
    refine congrArg Host.Outcome.next ((posted_reaches h1 _ _).trans ?_)
    exact (headDoorbell_moves hr hq (.inl (by rw [ht]; rfl)) hs (by simp [ht]) (by simp [ht]) (by simp [ht]) hn hv
      hl).trans (by simp [ht])
  case admin =>
    intro s f i v q n h1 hr hq hs ht hv hn hl
    refine congrArg Host.Outcome.next ((posted_reaches h1 _ _).trans ?_)
    exact (headDoorbell_moves hr hq (.inr ht) hs (by simp [ht]) (by simp [ht]) (by simp [ht]) hn hv
      hl).trans (by simp [ht])
  case ring =>
    intro s f i v q n h1 hr hq hs ht hv hn hl
    have kind : (s.queue q).typ.submission = false ∧ (s.queue q).typ ≠ .admin ∧ (s.queue q).typ ≠ .completion := by
      rcases ht with ht | ht <;> rw [ht] <;> decide
    obtain ⟨hsub, hna, hnc⟩ := kind
    refine congrArg Host.Outcome.next ((posted_reaches h1 _ _).trans ?_)
    exact (headDoorbell_moves hr hq (.inl hsub) hs (if_neg hna).symm (if_neg hna).symm (if_pos ht).symm hn hv hl).trans
      ((if_neg hna).trans (if_neg hnc))

end Sys2Proof.Machine
end

section
/-!
PROOFS. The queue engine's own commands and the queue commands (ch. 15), then the obligations on them.
-/
namespace Sys2Proof.Machine

/-! ### The queue engine (R441 to R460) -/

/-- The job at the head of the ring whose turn it is, of a queue that no channel serves, is fetched (R439, R441). -/
theorem fetchJob_turn {s m u : State} {q : Nat} {l : List (List Byte)} {x : Queue} (hq : s.nextTurn = some q)
    (hx : x = s.queue q) (hl : s.parseJob x = .job l) (hm : m = s.markPauses)
    (hu : u = (({ m with
      host := { m.host with lastFn := x.fn, lastIdx := tabSet (fun _ => 0) m.host.lastIdx x.fn x.idx } } :
        State).setQueue q { x with
        head := (x.head + l.length) % x.size, nextSeq := x.nextSeq + 1, paused := false
        jobs := x.jobs ++ [{ q := q, seq := x.nextSeq, sqHead := (x.head + l.length) % x.size, entries := l }]
        }).qmgrCount x.fn x.typ.code)
    (hc : u.chanOf q = none) : s.fetchJob = u := by
  subst hx hm
  unfold State.fetchJob
  rw [hq]
  dsimp only
  rw [hl]
  dsimp only
  rw [← hu, hc]

/-- A job of an opcode that its queue, not a DMA queue, does not accept completes at once (R434, R466). -/
theorem badOpcode_refused {s : State} {j : Job} (hr : s.jobReady j = true)
    (ha : accepts (s.queue j.q).typ j.opcode = false) (ht : (s.queue j.q).typ ≠ .dma) :
    s.badOpcode j = (s.startJob j).complete j ((s.gate { op := j.opcode } j).getD St.BAD_OPCODE) [] :=
  (if_neg (by simp [hr, ha])).trans (if_pos ht)

/-- The oldest completion is written to its ring, and counts toward its vector (R446, R451, R452). -/
theorem writeDone_written {s u : State} {c : Nat} {d : Compl} (hd : s.nextDone c = some d)
    (hs : (s.queue c).st ≠ .error) (hu : u = (s.retire d).ringPut c d.bytes false) :
    s.writeDone c = if (s.queue c).typ = .admin then (if d.intr then u.signal c else u) else u.coalesce c d.intr := by
  subst hu
  unfold State.writeDone
  rw [hd]
  exact if_neg (fun h => hs h.1)

/-- A notice whose ring takes it and has a free slot is posted with its vector (R450, R462). -/
theorem postNotice_posted {s : State} {q : Nat} {x : Notice}
    (hx : s.host.notices.find? (fun e => decide (e.q = q)) = some x)
    (hs : (s.queue x.cq).st ≠ .error ∨ x.cq = x.q) (hf : s.freeSlots x.cq ≠ 0) : s.postNotice q =
      ((({ s with host := { s.host with notices := s.host.notices.erase x } } : State).ringPut x.cq
        (leBytes 2 0xFFFF ++ leBytes 2 St.QUEUE_FAILED ++ leBytes 2 q ++ leBytes 2 x.head ++ leBytes 2 x.cause)
        true).signal x.cq) := by
  have taken : s.takesNotice x = true := decide_eq_true hs
  unfold State.postNotice
  rw [hx]
  exact (if_neg (by simp [taken])).trans (if_neg hf)

/-- A STOPPING queue that holds nothing becomes ABSENT, and its QUEUE_DESTROY jobs complete (R460, R469). -/
theorem stopDone_empty {s : State} {q : Nat} (hs : (s.queue q).st = .stopping) (hj : (s.queue q).jobs = [])
    (hd : (s.queue q).drawn = none) :
    s.stopDone q = forEach (s.queue q).destroyers (fun j t => t.complete j St.SUCCESS []) (s.queueGone q) :=
  if_pos ⟨hs, hj, hd⟩

section
variable {s : State} {q : Nat} (r : List Byte) (ht : (s.queue q).typ = .event) (hs : (s.queue q).st = .active)
include ht hs

/-- An EVENT ring with room takes the record, and its write-back block follows (R453, R454). -/
theorem postEvent_room (hf : (s.queue q).full = false) : s.postEvent q r =
    (((s.hostWr (s.fnLink (s.queue q).fn) ((s.queue q).base + 32 * (s.queue q).tail) (padTo 32 r)).setQueue q
      { s.queue q with tail := ((s.queue q).tail + 1) % (s.queue q).size }).writeBack q).coalesce q false :=
  (if_neg (not_not_intro ht)).trans (if_pos ⟨hs, hf⟩)

/-- A full EVENT ring loses the record (R454). -/
theorem postEvent_full (hf : (s.queue q).full = true) : s.postEvent q r =
    s.setQueue q { s.queue q with lost := ((s.queue q).lost + 1) % 2 ^ 32 } :=
  (if_neg (not_not_intro ht)).trans ((if_neg (by simp [hf])).trans (if_neg (by simp [hs])))

end

/-- Settles O17: each clause is its row's operation in the case that the clause describes. -/
theorem queueTraffic : Obligations.QueueTraffic := by
  refine ⟨?fetch, ?opcode, ?completion, ?notice, ?timer, ?stop, ?event⟩
  case fetch => exact fun s m u q l x hq hx hl hm hu hc => congrArg Host.Outcome.next (fetchJob_turn hq hx hl hm hu hc)
  case opcode => exact fun s j hr ha ht => congrArg Host.Outcome.next (badOpcode_refused hr ha ht)
  case completion => exact fun s u c d hd hs hu => congrArg Host.Outcome.next (writeDone_written hd hs hu)
  case notice => exact fun s q x hx hs hf => congrArg Host.Outcome.next (postNotice_posted hx hs hf)
  case timer => exact fun s q hs ht hu => congrArg Host.Outcome.next (if_pos ⟨hs, ht, hu⟩)
  case stop => exact fun s q hs hj hd => congrArg Host.Outcome.next (stopDone_empty hs hj hd)
  case event =>
    exact fun s q r ht hs => ⟨fun hf => congrArg Host.Outcome.next (postEvent_room r ht hs hf),
      fun hf => congrArg Host.Outcome.next (postEvent_full r ht hs hf)⟩

/-! ### QUEUE_CREATE (R435, R448, R449, R468) -/

theorem qtypeOf_code (t : QType) : qtypeOf t.code = t := by cases t <;> rfl

theorem QType.code_lt (t : QType) : t.code < 8 := by cases t <;> decide

/-- The device writes the ring and a write-back block of queues of type t (R453). -/
def QType.writesBack (t : QType) : Bool := decide (t = .punt ∨ t = .event)

/-- The class, or the channel, of a new queue of type t: a queue with a write-back block has none (R468). -/
def newTc (j : Job) (t : QType) : Nat := if t.writesBack then 0 else j.byte 0 24

/-- The write-back address of a new queue of type t (R453). -/
def newWb (j : Job) (t : QType) : Nat := if t.writesBack then j.le 24 8 else 0

/-- The number of values that the class field of a new queue of type t can take (R468, R495). -/
def QType.tcs : QType → Nat
  | .inject => 16
  | .dma => 28
  | _ => 1

/-- Job j creates a queue of type t at number q: its fields are valid, its index, its classes and its channel are free,
its completion queue has the credits, and the function may have the queue, its pool and its channel (R435, R449, R468,
R475, R495). -/
structure State.Creates (s : State) (j : Job) (t : QType) (q : Nat) : Prop where
  code : j.byte 0 4 = t.code
  notAdmin : t ≠ .admin
  fields : j.only [(4, 4), (8, 8), (16, 4), (20, 2), (22, 2), (24, if t.writesBack then 8 else 1)] = true
  pool : j.byte 0 5 < 64 ∧ (t ≠ .punt → j.byte 0 5 = 0)
  index : j.le 6 2 ≠ 0 ∧ j.le 6 2 < 512
  base : j.le 8 8 % 256 = 0
  size : 16 ≤ j.le 16 4 ∧ j.le 16 4 ≤ 65536 ∧ isPow2 (j.le 16 4) = true
  compl : t.submission = true ∨ (t = .punt ∧ j.le 20 2 ≠ 0xFFFF) → s.complQ (s.jobFn j) (j.le 20 2) ≠ none
  tc : newTc j t < t.tcs
  wb : newWb j t % 8 = 0
  punt : t = .punt → s.poolHolder (j.byte 0 5) = s.jobFn j ∧ s.poolState (j.byte 0 5) ≠ 0 ∧
    s.poolInDram (j.byte 0 5) = false ∧ s.puntCount (j.byte 0 5) < 15
  unused : s.findQ (s.jobFn j) (j.le 6 2) = none
  unclaimed : t = .punt → s.claimed (s.fnLink (s.jobFn j)) &&& j.le 22 2 = 0
  unbound : t = .dma → s.chanBound (newTc j t) = false
  quota : s.runQueues (s.jobFn j) < s.quota (s.jobFn j)
  free : s.freeQ = some q
  credit : t.submission = true → ∀ c, s.complQ (s.jobFn j) (j.le 20 2) = some c →
    s.creditSum c + j.le 22 2 ≤ (s.queue c).size
  channel : t = .dma → s.rd (chanBase (newTc j t)) Reg.PURLIN_CHAN_B_CHAN_FUNC = 0xFFFF ∨
    s.rd (chanBase (newTc j t)) Reg.PURLIN_CHAN_B_CHAN_FUNC = s.jobFn j

/-- The record of the queue of type t that job j creates at number q (R468). -/
def State.createdQueue (s : State) (j : Job) (t : QType) (q : Nat) : Queue :=
  { st := .active, typ := t, fn := s.jobFn j, idx := j.le 6 2, base := j.le 8 8, size := j.le 16 4, cq := j.le 20 2
    creditMin := j.le 22 2, tc := newTc j t, pool := j.byte 0 5, wb := newWb j t
    coalUs := if decide (t = .event ∨ t = .completion) then j.le 20 2 else 0
    coalCount := if decide (t = .event ∨ t = .completion) then j.le 22 2 else 0, nextSeq := (s.queue q).nextSeq }

/-- The new queue x of type t taken up by its block: its channel runs, or its account in the pool is made (R476, R495). -/
def State.takeQueue (s : State) (j : Job) (t : QType) (q : Nat) : State :=
  let u := if t = .dma then (s.setChanState (newTc j t) 1).wr (chanBase (newTc j t)) Reg.PURLIN_CHAN_A_Q q else s
  if t = .punt then (match u.acctMake (j.byte 0 5) (j.le 6 2) with
    | some (_, v) => v
    | none => u) else u

theorem lt_tcs {t : QType} {n : Nat} (h : n < t.tcs) : (t = .inject → n < 16) ∧ (t = .dma → n < 28) ∧
    (t ≠ .inject → t ≠ .dma → n = 0) := by
  refine ⟨?_, ?_, fun h1 h2 => ?_⟩
  · rintro rfl; exact h
  · rintro rfl; exact h
  · cases t with
    | inject => exact absurd rfl h1
    | dma => exact absurd rfl h2
    | _ => exact Nat.lt_one_iff.1 h

/-- QUEUE_CREATE of a queue that its fields, the limits and the holders allow (R468). -/
theorem queueCreate_ok {b : State} {j : Job} {t : QType} {q : Nat} (h : b.Creates j t q) :
    queueCreate j b = okRes ((b.setQueue q (b.createdQueue j t q)).takeQueue j t q)
      (leBytes 2 q ++ leBytes 2 (j.le 6 2)) := by
  have kind : qtypeOf (j.byte 0 4) = t := by rw [h.code, qtypeOf_code]
  obtain ⟨tcInject, tcDma, tcOther⟩ := lt_tcs h.tc
  unfold queueCreate
  dsimp only
  rw [kind]
  refine (if_neg ?fields).trans ((if_neg ?busy).trans ?_)
  case fields =>
    rintro (g | g | g | g | g | g | g | g | g | g | g | g | g | g | g | g | g | g)
    · exact Nat.not_le.2 (h.code ▸ t.code_lt) g
    · exact h.notAdmin g
    · exact Bool.false_ne_true (g.symm.trans h.fields)
    · exact Nat.not_le.2 h.pool.1 g
    · exact g.2 (h.pool.2 g.1)
    · exact h.index.1 g
    · exact Nat.not_le.2 h.index.2 g
    · exact g h.base
    · exact Nat.not_lt.2 h.size.1 g
    · exact Nat.not_lt.2 h.size.2.1 g
    · exact Bool.false_ne_true (g.symm.trans h.size.2.2)
    · exact h.compl (.inl g.1) g.2
    · exact h.compl (.inr ⟨g.1, g.2.1⟩) g.2.2
    · exact Nat.not_le.2 (tcInject g.1) g.2
    · exact Nat.not_le.2 (tcDma g.1) g.2
    · exact g.2.2 (tcOther g.1 g.2.1)
    · exact g h.wb
    · obtain ⟨-, hs, hd, hn⟩ := h.punt g.1
      exact g.2.2.elim hs (fun g => g.elim (fun g => Bool.false_ne_true (hd.symm.trans g)) (Nat.not_le.2 hn))
  case busy =>
    rintro (g | g | g)
    · exact g h.unused
    · exact g.2 (h.unclaimed g.1)
    · exact Bool.false_ne_true ((h.unbound g.1).symm.trans g.2)
  rw [if_neg (Nat.not_le.2 h.quota), h.free]
  refine (if_neg ?credit).trans ((if_neg ?holder).trans ?_)
  case credit =>
    rintro ⟨g, g'⟩
    cases hc : b.complQ (b.jobFn j) (j.le 20 2) with
    | none => exact h.compl (.inl g) hc
    | some c =>
      rw [hc] at g'
      exact Nat.not_lt.2 (h.credit g c hc) (of_decide_eq_true g')
  case holder =>
    rintro (g | g)
    · exact g.2 (h.punt g.1).1
    · exact (h.channel g.1).elim g.2.1 g.2.2
  rfl

/-- A new queue without a coalescing timer has no coalescing values (R452). -/
theorem createdQueue_untimed (s : State) (j : Job) {t : QType} (q : Nat) (ht : ¬(t = .event ∨ t = .completion)) :
    s.createdQueue j t q = {
      st := .active, typ := t, fn := s.jobFn j, idx := j.le 6 2, base := j.le 8 8, size := j.le 16 4, cq := j.le 20 2
      creditMin := j.le 22 2, tc := newTc j t, pool := j.byte 0 5, wb := newWb j t, nextSeq := (s.queue q).nextSeq } := by
  unfold State.createdQueue
  rw [decide_eq_false ht, if_neg Bool.false_ne_true, if_neg Bool.false_ne_true]

/-- The channel of a new DMA queue runs (R495). -/
theorem takeQueue_dma (s : State) (j : Job) (q : Nat) : s.takeQueue j .dma q =
    (s.setChanState (newTc j .dma) 1).wr (chanBase (newTc j .dma)) Reg.PURLIN_CHAN_A_Q q := by
  unfold State.takeQueue
  dsimp only
  rw [if_pos rfl, if_neg (by decide)]

/-- Only a DMA and a PUNT queue are taken up by another block. -/
theorem takeQueue_plain (s : State) (j : Job) {t : QType} (q : Nat) (hd : t ≠ .dma) (hp : t ≠ .punt) :
    s.takeQueue j t q = s := by
  unfold State.takeQueue
  dsimp only
  rw [if_neg hd, if_neg hp]

section
variable {b : State} {j : Job} {q : Nat} {t : QType} (hc : j.byte 0 4 = t.code) (h5 : j.byte 0 5 < 64)
  (hi : j.le 6 2 ≠ 0 ∧ j.le 6 2 < 512 ∧ j.le 8 8 % 256 = 0)
  (hz : 16 ≤ j.le 16 4 ∧ j.le 16 4 ≤ 65536 ∧ isPow2 (j.le 16 4) = true)
  (hn : b.findQ (b.jobFn j) (j.le 6 2) = none) (hl : b.runQueues (b.jobFn j) < b.quota (b.jobFn j))
  (hq : b.freeQ = some q)
include hc h5 hi hz hn hl hq

/-- A COMPLETION or an EVENT queue that may be created, and its record (R452, R468). -/
theorem creates_timed (ht : t = .completion ∨ t = .event) (h0 : j.byte 0 5 = 0)
    (hf : j.only [(4, 4), (8, 8), (16, 4), (20, 2), (22, 2), (24, if t = .event then 8 else 1)] = true)
    (hw : if t = .event then j.le 24 8 % 8 = 0 else j.byte 0 24 = 0) :
    b.Creates j t q ∧ newTc j t = 0 ∧ newWb j t = if t = .event then j.le 24 8 else 0 := by
  have kind : t.submission = false ∧ t ≠ .admin ∧ t ≠ .punt ∧ t ≠ .dma := by rcases ht with rfl | rfl <;> decide
  have values : newTc j t = 0 ∧ (newWb j t = if t = .event then j.le 24 8 else 0) ∧ newWb j t % 8 = 0 := by
    rcases ht with rfl | rfl
    · exact ⟨hw, rfl, rfl⟩
    · exact ⟨rfl, rfl, hw⟩
  obtain ⟨hsub, hadmin, hpunt, hdma⟩ := kind
  obtain ⟨htc, hwb, hwb8⟩ := values
  refine ⟨?_, htc, hwb⟩
  exact {
    code := hc, notAdmin := hadmin, fields := by rcases ht with rfl | rfl <;> exact hf, pool := ⟨h5, fun _ => h0⟩
    index := ⟨hi.1, hi.2.1⟩, base := hi.2.2, size := hz, compl := by simp [hsub, hpunt]
    tc := by rcases ht with rfl | rfl <;> exact htc ▸ Nat.one_pos, wb := hwb8, punt := fun g => absurd g hpunt
    unused := hn, unclaimed := fun g => absurd g hpunt, unbound := fun g => absurd g hdma, quota := hl, free := hq
    credit := by simp [hsub], channel := fun g => absurd g hdma }

/-- A run-time submission queue that may be created, and its record (R449, R468, R495). -/
theorem creates_submission {c : Nat} (ht : t.submission = true ∧ t ≠ .admin) (h0 : j.byte 0 5 = 0)
    (hf : j.only [(4, 4), (8, 8), (16, 4), (20, 2), (22, 2), (24, 1)] = true) (htc : j.byte 0 24 < t.tcs)
    (hcq : b.complQ (b.jobFn j) (j.le 20 2) = some c) (hcr : b.creditSum c + j.le 22 2 ≤ (b.queue c).size)
    (hch : t = .dma → b.chanBound (j.byte 0 24) = false ∧
      (b.rd (chanBase (j.byte 0 24)) Reg.PURLIN_CHAN_B_CHAN_FUNC = 0xFFFF ∨
        b.rd (chanBase (j.byte 0 24)) Reg.PURLIN_CHAN_B_CHAN_FUNC = b.jobFn j)) :
    b.Creates j t q ∧ newTc j t = j.byte 0 24 ∧ newWb j t = 0 := by
  obtain ⟨hsub, hadmin⟩ := ht
  have ring : t.writesBack = false ∧ t ≠ .punt := by
    cases t with
    | punt | event | completion => cases hsub
    | _ => decide
  obtain ⟨hwb, hpunt⟩ := ring
  have tcEq : newTc j t = j.byte 0 24 := by rw [newTc, hwb, if_neg Bool.false_ne_true]
  have wbEq : newWb j t = 0 := by rw [newWb, hwb, if_neg Bool.false_ne_true]
  refine ⟨?_, tcEq, wbEq⟩
  exact {
    code := hc, notAdmin := hadmin, fields := by rw [hwb]; exact hf, pool := ⟨h5, fun _ => h0⟩
    index := ⟨hi.1, hi.2.1⟩, base := hi.2.2, size := hz, compl := fun _ => by simp [hcq], tc := tcEq ▸ htc
    wb := by rw [wbEq], punt := fun g => absurd g hpunt, unused := hn, unclaimed := fun g => absurd g hpunt
    unbound := fun g => tcEq ▸ (hch g).1, quota := hl, free := hq
    credit := fun _ d hd => by cases hcq.symm.trans hd; exact hcr, channel := fun g => tcEq ▸ (hch g).2 }

/-- A PUNT queue that may be created (R455, R468, R475). -/
theorem creates_punt (ht : t = .punt) (hf : j.only [(4, 4), (8, 8), (16, 4), (20, 2), (22, 2), (24, 8)] = true)
    (hw : j.le 24 8 % 8 = 0) (hcq : j.le 20 2 = 0xFFFF ∨ (b.complQ (b.jobFn j) (j.le 20 2)).isSome = true)
    (hp : b.poolHolder (j.byte 0 5) = b.jobFn j ∧ b.poolState (j.byte 0 5) ≠ 0 ∧
      b.poolInDram (j.byte 0 5) = false ∧ b.puntCount (j.byte 0 5) < 15)
    (hcl : b.claimed (b.fnLink (b.jobFn j)) &&& j.le 22 2 = 0) : b.Creates j t q := by
  subst ht
  exact {
    code := hc, notAdmin := by decide, fields := hf, pool := ⟨h5, fun g => absurd rfl g⟩, index := ⟨hi.1, hi.2.1⟩
    base := hi.2.2, size := hz, tc := Nat.one_pos, wb := hw, punt := fun _ => hp, unused := hn, unclaimed := fun _ => hcl
    unbound := nofun, quota := hl, free := hq, credit := nofun, channel := nofun
    compl := by
      rintro (g | ⟨-, g⟩)
      · cases g
      · exact Option.isSome_iff_ne_none.1 (hcq.resolve_left g) }

end

section
variable {b : State} {j : Job} {q : Nat}

/-- QUEUE_DESTROY of a queue that nothing binds: one that is STOPPING already has one more job wait for it, another one
begins to stop (R460, R469, R677). -/
theorem queueDestroy_ok (hj : j.le 6 2 ≠ 0 ∧ j.le 6 2 < 512 ∧ j.one = true)
    (hq : b.findQ (b.jobFn j) (j.le 6 2) = some q)
    (hb : (b.queue q).typ = .completion → (b.host.queues.any (fun e => binds (b.queue q) e ||
      decide (e.2.typ = .punt ∧ e.2.st ≠ .absent ∧ e.2.fn = b.jobFn j ∧ e.2.cq = j.le 6 2))) = false) :
    queueDestroy j b =
      if (b.queue q).st = .stopping then
        laterA (b.setQueue q { b.queue q with destroyers := (b.queue q).destroyers ++ [j] })
      else laterA ((fun u : State => u.setQueue q { u.queue q with st := .stopping, destroyers := [j] })
        (if (b.queue q).typ = .punt then (b.chanUnbind q false).puntStop q (decide ((b.queue q).st = .active))
          else b.chanUnbind q false)) := by
  obtain ⟨h0, h512, h1⟩ := hj
  unfold queueDestroy
  refine (if_neg (by simp [h0, h1, Nat.not_le.2 h512])).trans ?_
  rw [hq]
  exact if_neg (fun g => Bool.false_ne_true ((hb g.1).symm.trans g.2))

/-- QUEUE_QUERY of a queue of the function (R470). -/
theorem queueQuery_ok (hj : j.le 6 2 < 512 ∧ j.one = true) (hq : b.findQ (b.jobFn j) (j.le 6 2) = some q) :
    queueQuery j b = okRes (b.jobWrite j j.hostAddr (b.queueRecord q)) (leBytes 4 32) := by
  unfold queueQuery
  rw [if_neg (by simp [hj.2, Nat.not_le.2 hj.1]), hq]

/-- QUEUE_COALESCE of a COMPLETION or an EVENT queue (R452, R467). -/
theorem queueCoalesce_ok (hj : j.le 6 2 < 512 ∧ j.one = true) (hq : b.findQ (b.jobFn j) (j.le 6 2) = some q)
    (ht : (b.queue q).typ = .completion ∨ (b.queue q).typ = .event) :
    queueCoalesce j b = okRes ((fun u : State => if (b.queue q).st = .active ∧ 0 < (b.queue q).unsig ∧
      (j.le 8 2 = 0 ∨ j.le 10 2 ≤ (b.queue q).unsig) then u.signal q else u) (b.setQueue q { b.queue q with
        coalUs := j.le 8 2, coalCount := j.le 10 2 })) [] := by
  unfold queueCoalesce
  rw [if_neg (by simp [hj.2, Nat.not_le.2 hj.1]), hq]
  exact if_pos ht

end

/-- Settles O18: each command's body in the case that the clause describes. -/
theorem queueCommands : Obligations.QueueCommands := by
  refine ⟨?timed, ?submission, ?dma, ?punt, ?destroy, ?query, ?coalesce, fun s b j h => jobRow_ok h rfl⟩
  case timed =>
    rintro s b j q t h hc ht hf ⟨h5, hi⟩ hz hw hn hl hq
    obtain ⟨ok, htc, hwb⟩ := creates_timed hc (by omega) hi hz hn hl hq ht h5 hf hw
    have other : t ≠ .dma ∧ t ≠ .punt := by rcases ht with rfl | rfl <;> decide
    refine (jobRow_ok h (queueCreate_ok ok)).trans ?_
    rw [takeQueue_plain _ _ _ other.1 other.2, State.createdQueue, htc, hwb, h5, if_pos (decide_eq_true ht.symm),
      if_pos (decide_eq_true ht.symm)]
  case submission =>
    rintro s b j q c t h hc ht hf ⟨h5, hi⟩ hz htc hcq hn hl hq hcr
    have kind : (t.submission = true ∧ t ≠ .admin) ∧ t ≠ .dma ∧ t ≠ .punt ∧ ¬(t = .event ∨ t = .completion) := by
      rcases ht with rfl | rfl | rfl <;> decide
    obtain ⟨hsub, hdma, hpunt, htimed⟩ := kind
    have class' : j.byte 0 24 < t.tcs := by
      rcases ht with rfl | rfl | rfl
      · exact htc
      · exact Nat.lt_one_iff.2 htc
      · exact Nat.lt_one_iff.2 htc
    obtain ⟨ok, tcEq, wbEq⟩ := creates_submission hc (by omega) hi hz hn hl hq hsub h5 hf class' hcq hcr
      (fun g => absurd g hdma)
    refine (jobRow_ok h (queueCreate_ok ok)).trans ?_
    rw [takeQueue_plain _ _ _ hdma hpunt, createdQueue_untimed _ _ _ htimed, tcEq, wbEq, h5]
  case dma =>
    rintro s b j q c h hc hf ⟨h5, hi⟩ hz ⟨htc, hch⟩ hown hcq hn hl hq hcr
    obtain ⟨ok, tcEq, wbEq⟩ := creates_submission (t := .dma) hc (by omega) hi hz hn hl hq (by decide) h5 hf htc hcq hcr
      (fun _ => ⟨hch, hown⟩)
    refine (jobRow_ok h (queueCreate_ok ok)).trans ?_
    rw [takeQueue_dma, createdQueue_untimed _ _ _ (by decide), tcEq, wbEq, h5]
  case punt =>
    rintro s b u j q a h hc hf ⟨h5, h0, h512, hb, hw⟩ hz hcq hp ⟨hn, hcl⟩ hl hq ha
    have ok := creates_punt (t := .punt) hc h5 ⟨h0, h512, hb⟩ hz hn hl hq rfl hf hw hcq hp hcl
    refine (jobRow_ok h (queueCreate_ok ok)).trans ?_
    have made : (b.setQueue q (b.createdQueue j .punt q)).acctMake (j.byte 0 5) (j.le 6 2) = some (a, u) := ha
    rw [State.takeQueue]
    simp [made]
  case destroy =>
    intro s b j q h hj hq hb
    have body := queueDestroy_ok hj hq hb
    refine ⟨fun hs => jobRow_later h (body.trans (if_pos hs)), fun hs u hu => ?_⟩
    subst hu
    exact jobRow_later h (body.trans (if_neg hs))
  case query => exact fun s b j q h hj hq => jobRow_ok h (queueQuery_ok hj hq)
  case coalesce => exact fun s b j q h hj hq ht => jobRow_ok h (queueCoalesce_ok hj hq ht)

end Sys2Proof.Machine
end

section
/-!
PROOFS. Holdover (ch. 13), then the obligation on it.
-/
namespace Sys2Proof.Machine

/-! ### THYME_HOLD_CTL (R389, R393, R402) -/

/-- A row of one of several operations of an opcode, whose body answers SUCCESS. -/
theorem opRow_ok {s b u : State} {g : Gate} {j : Job} {mine : Bool} {r : List Byte} {body : Job → State → Answer}
    (hm : mine = true) (h : s.takes g j b) (e : body j b = okRes u r) : opRow g j s mine body = .next (u.succeed j r) :=
  (opRow_eq hm).trans (jobRow_ok h e)

section
variable {b : State} {j : Job}

/-- A change of mode that R389 allows. -/
theorem holdModeSet_ok {m : Nat} (h0 : j.byte 0 4 = 0) (hm : m = j.byte 0 5 ∧ j.only [(4, 2)] = true)
    (ha : (b.holdMode = 0 ∧ m = 1 ∧ b.holdState = 2) ∨ (b.holdMode = 0 ∧ m = 2) ∨ (b.holdMode = 2 ∧ m = 0) ∨
      (b.holdMode = 1 ∧ m = 3) ∨ (b.holdMode = 3 ∧ m = 1 ∧ b.holdState = 2) ∨ (b.holdMode = 3 ∧ m = 0)) :
    holdModeSet j b =
      holdAns ((b.wr wThyme Reg.THYME_HOLD_STATUS_MODE m).event Ev.MODE_CHANGED 0 b.holdMode m 0) := by
  obtain ⟨rfl, hf⟩ := hm
  refine if_neg ?_
  rw [hf, h0, decide_eq_true ha]
  decide

/-- A report in a state in which R393 lists it. -/
theorem holdReport_ok {ok : Bool} (f : State → State) (hf : j.only [(4, 2)] = true) (h5 : j.byte 0 5 ≤ 5)
    (hok : ok = true) : holdReport j b ok f = holdAns (f b) := by
  refine if_neg ?_
  rw [hf, hok, decide_eq_false (Nat.not_lt.2 h5)]
  decide

/-- LIMITS of values in range (R391, R392, R394). -/
theorem holdLimits_ok (h : j.only [(4, 1), (8, 10)] = true ∧ j.le 8 4 ≤ 10 ^ 9 ∧ j.le 12 4 ≤ 200000 ∧ j.le 16 2 ≠ 0) :
    holdLimits j b = holdAns (((b.wr wThyme Reg.THYME_HOLD_STEP_LIMIT_STEP_LIMIT (j.le 8 4)).wr wThyme
      Reg.THYME_HOLD_SLEW_MAX_SLEW_MAX_PPB (j.le 12 4)).wr wThyme Reg.THYME_HOLD_TIMEOUT_MASTER_TIMEOUT_MS
        (j.le 16 2)) := by
  obtain ⟨hf, hs, hm, ht⟩ := h
  refine if_neg ?_
  rw [hf, decide_eq_false (by omega)]
  decide

/-- TABLE_LOAD of an aligned table whose reserved fields are 0, outside HOLDOVER (R399, R402). -/
theorem holdTableLoad_ok {d : List Byte}
    (h : j.only [(4, 1), (8, 8)] = true ∧ j.le 8 8 % 8 = 0 ∧ b.holdState ≠ 3)
    (hd : d = b.hostRd (b.jobLink j) (j.le 8 8) 512)
    (hz : ((rangeFrom 0 64).any fun k => decide (imH d (8 * k + 6) ≠ 0)) = false) :
    holdTableLoad j b = holdAns (forEach (rangeFrom 0 64)
      (fun k s => s.setBin k (sInt 32 (imW d (8 * k))) (imH d (8 * k + 4))) (b.countMoved 30 512)) := by
  obtain ⟨hf, ha, hs⟩ := h
  subst hd
  refine (if_neg ?_).trans ((if_neg hs).trans (if_neg (fun g => Bool.false_ne_true (hz.symm.trans g))))
  rw [hf, decide_eq_false (not_not_intro ha)]
  decide

/-- THYME_HOLD_QUERY writes the table (R402). -/
theorem holdQuery_ok (hf : j.only [(8, 8)] = true) : holdQuery j b = okRes (b.jobWrite j (j.le 8 8)
    ((rangeFrom 0 64).flatMap (fun k => leBytes 4 (uNat 32 (b.binValue k)) ++ leBytes 2 (b.binCount k) ++ [0, 0])))
      (leBytes 4 512) :=
  if_neg (by simp [hf])

end

/-! ### Seconds and samples (R394 to R400) -/

/-- The master timer runs outside SAFE (R394, R397). -/
theorem masterTimeout_runs {s : State} (h : s.devState ≠ 5) : s.masterTimeout = s.loseMaster 1 := if_neg h

section
variable {s k : State} (hk : k = s.keepTemp)
include hk

/-- A second of LOCKED: a rate sample and a temperature enter the window, and the bin learns where it may (R398, R399). -/
theorem holdSecond_locked {u v : State} {q t : Int × State} (hl : k.holdState = 2 ∧ k.dutyRuns 11 = true)
    (hq : q = if k.thyme.accN = 0 then (k.freqAdj, k) else k.quotient k.thyme.accSum (k.thyme.accN * unitNs))
    (ht : t = q.2.tempNow) (hu : u = t.2.setWindow (((q.1, t.1) :: k.thyme.window).take 1000))
    (hv : v = if k.holdMode ≠ 2 ∧ k.syncTime = false ∧ k.rdb wThyme Reg.THYME_HOLD_STATUS_TSENSE_OK = true then
      u.learnBin q.1 t.1 else u) :
    s.holdSecond = { v with thyme := { v.thyme with accSum := 0, accN := 0 } } := by
  subst hv hu ht hq hk
  exact congrArg (fun u : State => { u with thyme := { u.thyme with accSum := 0, accN := 0 } }) (if_pos hl)

/-- A second of HOLDOVER: the hold rate, while its duty runs, and the count of seconds (R396). -/
theorem holdSecond_holdover {u : State} (hs : k.holdState = 3)
    (hu : u = (if k.dutyRuns 11 then k.holdRate else k).wr wThyme Reg.THYME_HOLD_ELAPSED_HOLD_ELAPSED
      ((k.rd wThyme Reg.THYME_HOLD_ELAPSED_HOLD_ELAPSED + 1) % 2 ^ 32)) :
    s.holdSecond = { u with thyme := { u.thyme with accSum := 0, accN := 0 } } := by
  subst hu hk
  refine congrArg (fun u : State => { u with thyme := { u.thyme with accSum := 0, accN := 0 } })
    ((if_neg ?_).trans (if_pos hs))
  simp [hs]

/-- Another second takes no sample and steers nothing (R245, R398). -/
theorem holdSecond_other (h2 : k.holdState ≠ 2 ∨ k.dutyRuns 11 = false) (h3 : k.holdState ≠ 3) :
    s.holdSecond = { k with thyme := { k.thyme with accSum := 0, accN := 0 } } := by
  subst hk
  refine congrArg (fun u : State => { u with thyme := { u.thyme with accSum := 0, accN := 0 } })
    ((if_neg ?_).trans (if_neg h3))
  exact fun g => h2.elim (fun h => h g.1) (fun h => Bool.false_ne_true (h.symm.trans g.2))

end

section
variable {s y u : State} {x : Nat} {t : Int} (hr : s.tsenseRead x = (t, y))
  (hu : u = y.wr wThyme Reg.THYME_HOLD_TEMP_TSENSE (uNat 16 t))
include hr hu

/-- A reading out of range faults the sensor (R400, R606). -/
theorem tsense_outOfRange {v : State} (h : t < -640 ∨ 1760 < t)
    (hv : v = { u.wr wThyme Reg.THYME_HOLD_STATUS_TSENSE_OK 0 with thyme := { u.thyme with tsRun := 0, tsNow := [] } }) :
    s.tsense x = (v.event Ev.TSENSE_FAULT 0 (uNat 16 t) 1 0).faultLevel .thyme 1 0 true := by
  subst hv hu
  unfold State.tsense
  rw [hr]
  exact if_pos h

/-- A reading in range counts; the tenth in a row makes a sensor good that was not (R400). -/
theorem tsense_inRange {v w : State} {run : Nat} (hlo : -640 ≤ t) (hhi : t ≤ 1760) (hn : run = y.thyme.tsRun + 1)
    (hv : v = { u with thyme := { u.thyme with tsRun := run, tsNow := ((y.clock.up, t) :: u.thyme.tsNow).take 10 } })
    (hw : w = v.wr wThyme Reg.THYME_HOLD_STATUS_TSENSE_OK 1) :
    s.tsense x = if run < 10 ∨ y.rdb wThyme Reg.THYME_HOLD_STATUS_TSENSE_OK = true then v
      else if y.rdb wThyme (Reg.FLT_LIVE_I 1) then
        (w.event Ev.TSENSE_FAULT 0 (uNat 16 t) 0 0).faultLevel .thyme 1 0 false
      else w := by
  subst hw hv hn hu
  unfold State.tsense
  rw [hr]
  exact if_neg (by omega)

end

/-- Settles O48: each clause is its command's body, or its row's operation, in the case that the clause describes. -/
theorem holdoverReportsAndTicks : Obligations.HoldoverReportsAndTicks := by
  refine ⟨?mode, ?acquire, ?locked, ?lost, ?change, ?alive, ?forget, ?limits, ?load, ?query, ?timer, ?sampled, ?steered,
    ?other, ?faulty, ?good⟩
  case mode => exact fun s b j m h0 h hm ha => opRow_ok (by simp [h0]) h (holdModeSet_ok h0 hm ha)
  case acquire =>
    exact fun s b j hk h hf hs => opRow_ok (by simp [hk]) h
      (holdReport_ok (fun s => s.setHold 1 0) hf (by omega) (decide_eq_true hs))
  case locked =>
    exact fun s b j hk h hf hs => opRow_ok (by simp [hk]) h
      (holdReport_ok (fun s => (s.setHold 2 0).setWindow []) hf (by omega) (decide_eq_true hs))
  case lost =>
    exact fun s b j hk h hf hs => opRow_ok (by simp [hk]) h
      (holdReport_ok (fun s => s.loseMaster 0) hf (by omega) (decide_eq_true hs))
  case change =>
    exact fun s b j hk h hf hs => opRow_ok (by simp [hk]) h
      (holdReport_ok (fun s => (s.loseMaster 0).setHold 1 0) hf (by omega) (decide_eq_true hs))
  case alive =>
    exact fun s b j hk h hf hs => opRow_ok (by simp [hk]) h
      (holdReport_ok (fun s => s) hf (by omega) (decide_eq_true hs))
  case forget =>
    exact fun s b j hk h hf hs => opRow_ok (by simp [hk]) h
      (holdReport_ok (fun s => (s.setHold 0 0).setWindow []) hf (by omega) (decide_eq_true hs))
  case limits => exact fun s b j hk h hv => opRow_ok (decide_eq_true hk) h (holdLimits_ok hv)
  case load => exact fun s b j d hk h hv hd hz => opRow_ok (decide_eq_true hk) h (holdTableLoad_ok hv hd hz)
  case query => exact fun s b j h hf => jobRow_ok h (holdQuery_ok hf)
  case timer => exact fun s h => congrArg Host.Outcome.next (masterTimeout_runs h)
  case sampled =>
    exact fun s k u v q t hk hq ht hu hv => congrArg Host.Outcome.next (holdSecond_locked hk.1 hk.2 hq ht hu hv)
  case steered => exact fun s k u hk hu => congrArg Host.Outcome.next (holdSecond_holdover hk.1 hk.2 hu)
  case other => exact fun s k hk => congrArg Host.Outcome.next (holdSecond_other hk.1 hk.2.1 hk.2.2)
  case faulty => exact fun s y u v x t h hu hv => congrArg Host.Outcome.next (tsense_outOfRange h.1 hu h.2 hv)
  case good =>
    exact fun s y u v w x t run h hu hn hv hw =>
      congrArg Host.Outcome.next (tsense_inRange h.1 hu h.2.1 h.2.2 hn hv hw)

end Sys2Proof.Machine
end

section
/-!
PROOFS. Host links and functions (ch. 14), then the obligation on them.
-/
namespace Sys2Proof.Machine

/-! ### Links (R406, R423, R425, R426, R625) -/

section
variable {s : State} {j : Nat}

/-- A link that trains and that nothing holds enters L0 with its rate, its width and its mode (R406, R407, R433). -/
theorem pcieUp_trained {rate width : Nat} {flit : Bool}
    (h : s.linkPresent j = true ∧ (s.link j).training = true ∧ (s.link j).perst = false)
    (h' : (s.link j).up = false ∧ s.devState ≠ 0 ∧ s.trainable j rate width flit = true) :
    s.pcieUp j rate width flit = (((((s.setLink j { s.link j with
      up := true, dlActive := true, training := false }).wr (wHif + 16 * j) Reg.HIF_LINK_STATUS_RATE rate).wr
        (wHif + 16 * j) Reg.HIF_LINK_STATUS_WIDTH width).wr (wHif + 16 * j) Reg.HIF_LINK_STATUS_FLIT (b2n flit)).setL0 j
          true).event Ev.HOST_LINK_UP j j rate width := by
  obtain ⟨hp, ht, hr⟩ := h
  obtain ⟨hu, hd, hm⟩ := h'
  exact if_neg (by simp [hp, ht, hr, hu, hd, hm])

/-- The recovery of a link that is up is counted and recorded (R423, R426). -/
theorem linkRecovery_up {u : State} {us : Nat} (hu : (s.link j).up = true)
    (h : u = ((s.setLink j { s.link j with l1 := false }).inc (wHif + 16 * j) Reg.HIF_LINK_STATUS_RECOVERIES 1).setL0 j
      true) : s.linkRecovery j us = u.event Ev.LINK_RECOVERY j j us (u.linkTag j) := by
  subst h
  exact if_neg (by simp [hu])

/-- A link that gives up records it, fires its held timers and goes down (R423, R425, R612). -/
theorem linkGiveUp_up {tag : Nat} (h : (s.link j).up = true ∧ (s.link j).dlActive = true) (ht : tag = s.linkTag j) :
    s.linkGiveUp j = (forEach (s.link j).heldTimers (fun e t => t.fireTimer e.1 e.2.1 e.2.2 tag)
      ((s.event Ev.HOST_LINK_DOWN j j 1 tag).fault .hif 9 tag)).linkDown j 2 := by
  subst ht
  exact if_neg (by simp [h.1, h.2])

/-- A hot reset, or the host's taking it down, takes a link down that is up (R412, R433). -/
theorem hotReset_up {hot : Bool} (hu : (s.link j).up = true) : s.hotReset j hot =
    (s.event Ev.HOST_LINK_DOWN j j (if hot then 2 else 0) 0).linkDown j (if hot then 1 else 2) :=
  if_neg (by simp [hu])

/-- PERST_N takes a link of a device with power down (R625). -/
theorem perstAssert_live {u : State} (h : s.linkPresent j = true ∧ s.devState ≠ 0)
    (hu : u = s.setLink j { s.link j with perst := true, training := false }) :
    s.perstAssert j =
      (if (s.link j).up then u.event Ev.HOST_LINK_DOWN j j 0 0 else u).linkDown j 2 := by
  subst hu
  exact if_neg (by simp [h.1, h.2])

/-- The release of PERST_N begins training from FUSED on (R625, R636). -/
theorem perstRelease_held (h : (s.link j).perst = true) : s.perstRelease j =
    s.setLink j { s.link j with perst := false, training := s.linkPresent j && decide (s.devState ≠ 0) } :=
  if_neg (by simp [h])

end

/-! ### Function resets (R412) -/

section
variable {s : State} {f : Nat}

/-- A reset of a function begins: its queues end, its interrupts are masked, its latches, its held timers and its held
enable are dropped (R412). -/
theorem resetOne_begins {u w : State} {c : Nat} (he : s.fnExists f = true) (hr : (s.fn f).resetting = none)
    (hu : u = ((((s.setFn f { resetting := some c, quota := (s.fn f).quota }).destroyAll f true).abortBatches f).maskAll
      f).dropLatches f)
    (hw : w = u.setLink (u.fnLink f) { u.link (u.fnLink f) with
      heldTimers := (u.link (u.fnLink f)).heldTimers.filter (fun t => decide (t.1 ≠ f)) }) :
    s.resetOne f c = State.updateInt { w with dev := { w.dev with
      heldEnable := w.dev.heldEnable.filter (fun g => decide (g ≠ f)) } } := by
  subst hw hu
  exact if_neg (by simp [he, hr])

/-- A reset of a function that is no PF resets it alone (R412). -/
theorem resetFn_vf {c : Nat} (h : 4 ≤ f) : s.resetFn f c = s.resetOne f c := by
  unfold State.resetFn
  rw [if_neg (Nat.not_lt.2 h)]
  rfl

/-- A reset of a PF by function-level reset resets its VFs with the cause of their PF (R412, R433). -/
theorem resetFn_pf (h : f < 4) : s.resetFn f 0 =
    (forEach (rangeFrom (s.vfBase f) (s.vfCount f)) (fun v s => s.resetOne v 3) s).resetOne f 0 := by
  unfold State.resetFn
  rw [if_pos h]
  rfl

/-- The end of a reset puts the function's registers back and is recorded (R412). -/
theorem resetDone_resetting {f : Fin 256} {u v : State} {c : Nat} (hc : (s.fn f.val).resetting = some c)
    (hu : u = (s.setFn f.val { s.fn f.val with resetting := none }).clearRegs (s.fnBase f.val) 0x1000 0x8000)
    (hv : v = (if f.val = s.owner then u else u.clearRegs (s.fnBase f.val) 0xF008 0xF014).updateWin (.fn f)) :
    s.resetDone f.val = (v.updateCpl (v.fnLink f.val)).event Ev.FUNCTION_RESET (v.fnLink f.val) f.val c 0 := by
  have isPf : (f.val = s.owner ∨ 256 ≤ f.val) ↔ f.val = s.owner := or_iff_left (Nat.not_le.2 f.isLt)
  subst hv hu
  unfold State.resetDone
  rw [hc]
  simp only [isPf, dif_pos f.isLt, Fin.eta]

end

/-! ### Completions and messages (R420, R424, R425) -/

section
variable {s : State} {f t : Nat}

/-- A completion of a request of a function that exists is discarded where its timer has fired, and else ends it (R425). -/
theorem completionArrival_exists (he : s.fnExists f = true) : s.completionArrival f t =
    if s.host.expired.contains (s.fnLink f * 2 ^ 14 + t) then
      { s with host := { s.host with expired := s.host.expired.erase (s.fnLink f * 2 ^ 14 + t) } }
    else s.dropTimer (s.fnLink f) t :=
  if_neg (by simp [he])

/-- A completion timer that expires on a link that is up and holds none: in L0 it fires, outside it is held (R424, R425). -/
theorem cplExpiry_up {k : ReqKind} {outside : Bool}
    (h : s.fnExists f = true ∧ (s.fn f).ctoDis = false ∧ (s.link (s.fnLink f)).up = true)
    (h' : (s.link (s.fnLink f)).heldTimers = [] ∧ s.inL0 (s.fnLink f) = true) : s.cplExpiry f k t outside =
      if outside then (s.setL0 (s.fnLink f) false).setLink (s.fnLink f)
        { (s.setL0 (s.fnLink f) false).link (s.fnLink f) with
          heldTimers := ((s.setL0 (s.fnLink f) false).link (s.fnLink f)).heldTimers ++ [(f, k, t)] }
      else (s.dropTimer (s.fnLink f) t).fireTimer f k t 0 := by
  obtain ⟨he, hc, hu⟩ := h
  obtain ⟨hn, hl⟩ := h'
  unfold State.cplExpiry
  dsimp only
  rw [if_neg (by simp [he, hc, hu]), hn, hl]
  cases outside <;> rfl

/-- A message that waits is sent once it may be (R420). -/
theorem sendPending_sends {i : Nat} (hp : s.msixPending f i = true) (hs : s.canSend f i = true) :
    s.sendPending f i = (s.setPendingBit f i false).sendMessage f i :=
  if_pos (by rw [hp, hs]; rfl)

end

/-- Settles O20: each clause is its row's operation in the case that the clause describes. -/
theorem hostLinks : Obligations.HostLinks := by
  refine ⟨?up, ?recovery, ?giveUp, ?hotReset, ?reset, ?pfReset, ?resetDone, ?arrival, ?expiry, ?message, ?perst, ?release⟩
  case up => exact fun s j rate width flit h h' => congrArg Host.Outcome.next (pcieUp_trained h h')
  case recovery => exact fun s u j us hu h => congrArg Host.Outcome.next (linkRecovery_up hu h)
  case giveUp => exact fun s j tag h ht => congrArg Host.Outcome.next (linkGiveUp_up h ht)
  case hotReset => exact fun s j hot hu => congrArg Host.Outcome.next (hotReset_up hu)
  case reset =>
    exact fun s u w f h hu hw =>
      congrArg Host.Outcome.next ((resetFn_vf h.2.2).trans (resetOne_begins h.1 h.2.1 hu hw))
  case pfReset => exact fun s f h => congrArg Host.Outcome.next (resetFn_pf h)
  case resetDone => exact fun s u v f c hc hu hv => congrArg Host.Outcome.next (resetDone_resetting hc hu hv)
  case arrival => exact fun s f tag he => congrArg Host.Outcome.next (completionArrival_exists he)
  case expiry =>
    exact fun s f k tag h h' =>
      ⟨congrArg Host.Outcome.next (cplExpiry_up h h'), congrArg Host.Outcome.next (cplExpiry_up h h')⟩
  case message => exact fun s f i hp hs => congrArg Host.Outcome.next (sendPending_sends hp hs)
  case perst => exact fun s u j h hu _ => congrArg Host.Outcome.next (perstAssert_live h hu)
  case release => exact fun s j h => congrArg Host.Outcome.next (perstRelease_held h)

end Sys2Proof.Machine
end

section
/-!
PROOFS. Peg's buffer pools (ch. 16), then the obligation on them.
-/
namespace Sys2Proof.Machine

/-! ### Commands on pools (R474 to R491) -/

section
variable {b : State} {j : Job} {x : Nat}

/-- PEG_POOL_CREATE of valid fields: the pool is created empty, with an account of its own (R475, R477, R491). -/
theorem pegCreate_ok {shift base count : Nat} {u : State}
    (hx : x = j.byte 0 4 ∧ x < 64 ∧ b.jobFn j = b.poolHolder x ∧ decide (b.poolState x ≠ 0) = false ∧
      j.only [(4, 1), (5, 1), (6, 1), (8, 8), (16, 4)] = true)
    (hv : shift = j.byte 0 6 ∧ base = j.le 8 8 ∧ count = j.le 16 4)
    (hr : j.byte 0 5 < 2 ∧ 8 ≤ shift ∧ shift ≤ 16 ∧ count ≤ 2 ^ 20 ∧ base % 2 ^ shift = 0 ∧
      base + count * 2 ^ shift ≤ 2 ^ 64)
    (hc : j.bit 5 0 = true → b.poolClash x base (count * 2 ^ shift) = false)
    (hu : u = (((b.setReg (poolBase x + 0x1000)
      (2 ^ 30 + b2n (j.bit 5 0) * 2 ^ 29 + shift * 2 ^ 16 + b.jobFn j)).wr (poolBase x) Reg.PEG_BASE base).wr
        (poolBase x) Reg.PEG_POOL_COUNT_COUNT count).wr (poolBase x) Reg.PEG_POOL_FRESH_FRESH 0) :
    pegCreate j b = okRes (((u.setPool x {}).setReg (acctBase x 0 + 0x4000) (2 ^ 31)).poolReport x) [] := by
  subst hu
  obtain ⟨rfl, rfl, rfl⟩ := hv
  obtain ⟨h5, hlo, hhi, hn, ha, hm⟩ := hr
  refine (pegGate_ok hx _).trans (if_neg ?_)
  rintro (g | g | g | g | g | g | g)
  · exact Nat.not_le.2 h5 g
  · exact Nat.not_lt.2 hlo g
  · exact Nat.not_lt.2 hhi g
  · exact Nat.not_lt.2 hn g
  · exact g ha
  · exact Nat.not_lt.2 hm g
  · obtain ⟨hd, hclash⟩ := Bool.and_eq_true_iff.1 g
    exact Bool.false_ne_true ((hc hd).symm.trans hclash)

/-- PEG_POOL_DESTROY of a pool that no queue and no audit uses, and that nothing is held of or that is forced (R476). -/
theorem pegDestroy_ok
    (hx : x = j.byte 0 4 ∧ x < 64 ∧ b.jobFn j = b.poolHolder x ∧ decide (b.poolState x ≠ 0) = true ∧
      j.only [(4, 1), (5, 1)] = true)
    (hr : j.byte 0 5 < 2 ∧ b.puntNames x none = false ∧ b.poolState x ≠ 2)
    (hf : j.bit 5 0 = true ∨ accounts.any (fun a => b.acctUsed x a && decide (b.acctHeld x a ≠ 0)) = false) :
    pegDestroy j b = okRes (b.poolDrop x) [] := by
  obtain ⟨h5, hp, ha⟩ := hr
  refine (pegGate_ok hx _).trans ((if_neg (Nat.not_le.2 h5)).trans (if_neg ?_))
  rw [hp, decide_eq_false ha]
  rcases hf with hf | hf <;> rw [hf] <;> simp

/-- PEG_RESERVE of a reserve that the pool has room for (R482). -/
theorem pegReserve_ok {c v a : Nat} {u w : State}
    (hx : x = j.byte 0 4 ∧ x < 64 ∧ b.jobFn j = b.poolHolder x ∧ decide (b.poolState x ≠ 0) = true ∧
      j.only [(4, 1), (6, 2), (8, 4)] = true)
    (hc : c = j.le 6 2 ∧ v = j.le 8 4 ∧ c < 512)
    (hl : b.acctSum x (b.acctRsv x) - (b.acctOf x c).elim 0 (b.acctRsv x) + v ≤ b.poolCount x)
    (hn : v ≠ 0 ∨ b.acctOf x c ≠ none) (ha : b.acctMake x c = some (a, u))
    (hw : w = ((u.wr (acctBase x a) Reg.PEG_ACCT_RSV_RESERVE v).acctTidy x).poolReport x) :
    pegReserve j b = okRes w (leBytes 4 (w.poolShared x)) := by
  obtain ⟨rfl, rfl, hc⟩ := hc
  subst hw
  refine (pegGate_ok hx _).trans ((if_neg (Nat.not_le.2 hc)).trans ((if_neg ?room).trans ((if_neg ?named).trans ?_)))
  case room => cases h : b.acctOf x (j.le 6 2) <;> rw [h] at hl <;> exact Nat.not_lt.2 hl
  case named => exact fun g => hn.elim (fun h => h g.1) (fun h => h g.2)
  rw [ha]

/-- PEG_ALLOC that is served whole (R484). -/
theorem pegAlloc_ok {n : Nat} {got : List Nat} {u : State}
    (hx : x = j.byte 0 4 ∧ x < 64 ∧ b.jobFn j = b.poolHolder x ∧ decide (b.poolState x ≠ 0) = true ∧
      j.only [(4, 1), (8, 4), (16, 8)] = true)
    (hn : n = j.le 8 4 ∧ n ≤ 1024 ∧ j.hostAddr % 8 = 0) (hg : (b.grantAll x).allocN x n [] = (0, got, u)) :
    pegAlloc j b = okRes (u.jobWrite j j.hostAddr (got.reverse.flatMap (leBytes 8))) (leBytes 4 n) := by
  obtain ⟨rfl, hn, ha⟩ := hn
  refine (pegGate_ok hx _).trans ((if_neg ?_).trans ?_)
  · exact fun g => g.elim (Nat.not_lt.2 hn) (fun g => g ha)
  · dsimp only
    rw [hg]
    rfl

/-- PEG_FREE of buffers of the pool that the account holds (R485). -/
theorem pegFree_ok {n a : Nat} {l : List Nat}
    (hx : x = j.byte 0 4 ∧ x < 64 ∧ b.jobFn j = b.poolHolder x ∧ decide (b.poolState x ≠ 0) = true ∧
      j.only [(4, 1), (6, 2), (8, 4), (16, 8)] = true)
    (hn : n = j.le 8 4 ∧ n ≤ 1024 ∧ j.le 6 2 < 512) (hl : l = hostAddrs b j n)
    (hr : (rangeFrom 0 n).find? (fun k => !b.bufferOk x (l.getD k 0)) = none)
    (ha : b.acctOf x (j.le 6 2) = some a ∧ n ≤ b.acctHeld x a) :
    pegFree j b = okRes (((forEach l (fun y s => s.release x y)
      ((b.countMoved 30 (8 * n)).addHeld x a (-(n : Int)))).acctTidy x).poolReport x) [] := by
  obtain ⟨rfl, hn, hc⟩ := hn
  obtain ⟨ha, hh⟩ := ha
  subst hl
  refine (pegGate_ok hx _).trans ((if_neg ?_).trans ?_)
  · exact fun g => g.elim (Nat.not_le.2 hc) (Nat.not_lt.2 hn)
  · dsimp only
    rw [hr]
    dsimp only
    rw [ha]
    exact if_neg (Nat.not_lt.2 hh)

/-- PEG_AUDIT while none runs and every stack is online: the free list goes offline and the audit map is set (R487). -/
theorem pegAudit_ok {u v : State}
    (hx : x = j.byte 0 4 ∧ x < 64 ∧ b.jobFn j = b.poolHolder x ∧ decide (b.poolState x ≠ 0) = true ∧
      j.only [(4, 1), (16, 8)] = true)
    (hr : b.peg.audit = none ∧ b.anyOffline = false)
    (hu : u = ((b.setPool x { b.pool x with
      head := listEnd, len := 0, offHead := (b.pool x).head, offLen := (b.pool x).len }).wr (poolBase x)
        Reg.PEG_POOL_A_STATE 2).wr (poolBase x) Reg.PEG_POOL_A_CORRUPT 0)
    (hv : v = u.dramWr auditArea (bitMap (b.poolCount x) (fun k =>
      decide (k < b.poolFresh x) && !(b.pool x).cache.contains (b.poolAddr x + k * 2 ^ b.poolShift x)))) :
    pegAudit j b = laterA { v with
      peg := { v.peg with audit := some { pool := x, job := j, held := b.acctSum x (b.acctHeld x) } } } := by
  subst hv hu
  exact (pegGate_ok hx _).trans ((if_neg (not_not_intro hr.1)).trans (if_neg (by simp [hr.2])))

/-- PEG_QUERY writes the pool's registers and its accounts' (R490, R492). -/
theorem pegQuery_ok
    (hx : x = j.byte 0 4 ∧ x < 64 ∧ b.jobFn j = b.poolHolder x ∧ decide (b.poolState x ≠ 0) = true ∧
      j.only [(4, 1), (16, 8)] = true) :
    pegQuery j b = okRes (b.jobWrite j j.hostAddr (b.regBytes (poolBase x + 0x1000) 7 ++ leBytes 4 0 ++
      accounts.flatMap (fun a => b.regBytes (acctBase x a + 0x4000) 3))) (leBytes 4 224) :=
  pegGate_ok hx _

end

/-! ### The end of an audit, and the grant of a buffer (R481, R487, R489) -/

/-- The end of an audit: the walked list is put back, the map is written, and the findings are reported (R487, R489). -/
theorem auditDone_eq {s u v : State} {au : AuditSt} {x : Nat} {m : List Byte} {w : Walk} {free : Nat → Bool} {out : Nat}
    {bad : Bool} (hx : x = au.pool) (hm : m = s.dramRd auditArea ((s.poolCount x + 7) / 8))
    (hw : w = s.walkList x (mapMarked m) (s.poolCount x) (s.pool x).offHead {})
    (hf : ∀ k, free k = (mapMarked m k || w.seen.contains (s.poolAddr x + k * 2 ^ s.poolShift x)))
    (ho : out = ((rangeFrom 0 (s.poolCount x)).filter (fun k => !free k)).length)
    (hb : bad = (decide (w.seen.length ≠ (s.pool x).offLen ∨ 0 < w.dups ∨ out ≠ au.held) || w.bad))
    (hu : u = if (s.pool x).offHead = listEnd then s
      else if (s.pool x).head = listEnd then s.setPool x { s.pool x with head := (s.pool x).offHead }
      else s.poolWrite x (s.listLast x (s.pool x).len (s.pool x).head) (leBytes 8 (s.pool x).offHead))
    (hv : v = ((u.setPool x { u.pool x with
      len := (s.pool x).len + w.seen.length, offHead := listEnd, offLen := 0 }).topUp x).dramWr auditArea
        (bitMap (s.poolCount x) (fun k => !free k))) :
    s.auditDone au = State.complete ((fun y : State => { y with peg := { y.peg with audit := none } })
      (((fun y : State => if bad then
          (y.event Ev.POOL_MISMATCH 0 x (s.pool x).offLen (w.dups * 2 + b2n w.bad)).fault .peg 1 x else y)
        ((if au.job.hostAddr = 0 then v
          else v.jobWrite au.job au.job.hostAddr (bitMap (s.poolCount x) (fun k => !free k))).event Ev.POOL_AUDIT 0 x
            w.seen.length out)).wr (poolBase x) Reg.PEG_POOL_A_STATE 1 |>.poolReport x)) au.job St.SUCCESS
      (leBytes 4 w.seen.length ++ leBytes 2 (min w.dups 65535) ++ [BitVec.ofNat 8 (b2n bad + 2 * b2n w.bad)]) := by
  obtain rfl := funext hf
  subst hv hu hb ho hw hm hx
  rfl

/-- The request that is next is served when a buffer can be had (R481, R483). -/
theorem grantOne_served {s u : State} {x q a : Nat} (hq : s.nextWaiter x = some q)
    (ha : s.serve x (s.queue q).idx = .buffer a u) : s.grantOne x =
      (u.setPool x { u.pool x with waiting := (u.pool x).waiting.erase q }).setQueue q
        { u.queue q with drawn := some a } := by
  unfold State.grantOne
  rw [hq]
  dsimp only
  rw [ha]

/-- Settles O49: each clause is its command's body, or its row's operation, in the case that the clause describes. -/
theorem pools : Obligations.Pools := by
  refine ⟨?create, ?destroy, ?reserve, ?alloc, ?free, ?audit, ?query, ?auditDone, ?grant⟩
  case create =>
    exact fun s b j x shift base count u h hx hv hr hc hu => jobRow_ok h (pegCreate_ok hx hv hr hc hu)
  case destroy => exact fun s b j x h hx hr hf => jobRow_ok h (pegDestroy_ok hx hr hf)
  case reserve =>
    exact fun s b j x c v a u w h hx hc hl hn ha hw => jobRow_ok h (pegReserve_ok hx hc hl hn ha hw)
  case alloc => exact fun s b j x n got u h hx hn hg => jobRow_ok h (pegAlloc_ok hx hn hg)
  case free => exact fun s b j x n a l h hx hn hl hr ha => jobRow_ok h (pegFree_ok hx hn hl hr ha)
  case audit => exact fun s b j x u v h hx hr hu hv => jobRow_later h (pegAudit_ok hx hr hu hv)
  case query => exact fun s b j x h hx => jobRow_ok h (pegQuery_ok hx)
  case auditDone =>
    intro s u v au x m w free out bad ha hm hf ho hu hv
    refine congrArg Host.Outcome.next ?_
    rw [ha.1]
    exact auditDone_eq ha.2 hm.1 hm.2 hf ho.1 ho.2 hu hv
  case grant => exact fun s u x q a hq ha => congrArg Host.Outcome.next (grantOne_served hq ha)

end Sys2Proof.Machine
end

section
/-!
PROOFS. Purlin's transfers and channels (ch. 17), then the obligations on them.
-/
namespace Sys2Proof.Machine

/-! ### Transfers (R496 to R511) -/

section
variable {s b : State} {j : Job} {ch : Nat}
  (h : s.chanOf j.q = some ch ∧ s.chanState ch = 1 ∧ (s.chan ch).running = none ∧
    (s.chanHeld ch).head? = some j ∧ j.opcode = 0x78)
  (hb : b = (s.startJob j).chanReport ch) (hg : b.gate { op := 0x78, owner := false } j = none)
include h hb hg

/-- The oldest descriptor of an idle running channel starts its copy where its checks pass (R496, R500). -/
theorem dmaStart_copies (hc : b.dmaCheck j = none) : s.dmaStart j =
    (b.setChan ch { b.chan ch with
      running := some j, issued := 0, buffer := b.dmaRead (b.jobLink j) (dmaSide j 0) }).wr (chanBase ch)
        Reg.PURLIN_CHAN_C_COUNT (dmaSide j 0).total := by
  obtain ⟨ho, hs, hr, hj, hop⟩ := h
  have next : s.chanNext ch j = true := decide_eq_true ⟨hs, hr, hj⟩
  subst hb
  unfold State.dmaStart
  rw [ho]
  refine (if_neg (by simp [next, hop])).trans ?_
  dsimp only
  rw [hg]
  dsimp only
  rw [hc]

/-- A descriptor that fails a check completes at once with its status; an offline stack halts the channel (R500, R503,
R511). -/
theorem dmaStart_refused {u : State} {code : Nat} {v : BitVec 32} (hc : b.dmaCheck j = some code)
    (hv : b.draw 32 = (v, u)) : s.dmaStart j =
      if code = St.PURLIN_OFFLINE then (u.dmaComplete j code 0 v.toNat []).dmaHalt ch code 0 j.tag ch
      else u.dmaComplete j code 0 v.toNat [] := by
  obtain ⟨ho, hs, hr, hj, hop⟩ := h
  have next : s.chanNext ch j = true := decide_eq_true ⟨hs, hr, hj⟩
  subst hb
  unfold State.dmaStart
  rw [ho]
  refine (if_neg (by simp [next, hop])).trans ?_
  dsimp only
  rw [hg]
  dsimp only
  rw [hc]
  dsimp only
  rw [hv]

end

section
variable {s u : State} {ch : Nat} {j : Job} {d : Side}

/-- The job in progress ends with every line written and SUCCESS (R503, R505). -/
theorem dmaFinish_running (hj : (s.chan ch).running = some j) (hd : d = dmaSide j 1)
    (hu : u = (s.dmaWrite (s.jobLink j) d (s.chan ch).buffer d.lines).count 157 ch d.total) : s.dmaFinish ch =
      (((if (j.bit 1 2 && !d.dram) = true then u.count 157 48 1 else u).chanClear ch).dmaComplete j St.SUCCESS 0 0
        []) := by
  subst hu hd
  unfold State.dmaFinish
  rw [hj]

/-- A failed beat ends the job in progress: the lines before it are written and its line is left open, and the channel
follows its policy (R507 to R509, R511). -/
theorem dmaFail_running {v : State} {cause pos line left tag : Nat} {late whole : Bool}
    (hj : (s.chan ch).running = some j) (hd : d = dmaSide j 1) (hl : line = min pos (d.total - 1) / d.len)
    (hw : whole = (late || decide (cause = 7))) (hleft : left = if whole then 0 else d.total - min pos (d.total - 1))
    (hu : u = ((s.dmaWrite (s.jobLink j) d (s.chan ch).buffer (if whole then d.lines else line)).dmaScramble
      (s.jobLink j) d line).count 157 ch (d.total - left))
    (hv : v = if cause = 7 then u.count 157 48 1 else u) : s.dmaFail ch cause pos late tag =
      ((v.chanClear ch).dmaComplete j (if whole then St.BEAT_ERROR else St.TRANSFER_ERROR) cause left
        (if cause = 3 then leBytes 2 tag else [])).dmaHalt ch (if whole then St.BEAT_ERROR else St.TRANSFER_ERROR) cause
          j.tag (if cause = 3 then tag else ch) := by
  subst hv hu hleft hw hl hd
  unfold State.dmaFail
  rw [hj]

/-- A beat of the job in progress fails; a timer that fires is reported first (R425, R507, R508). -/
theorem dmaBeat_running {b : State} {cause pos tag : Nat} {late : Bool} (hj : (s.chan ch).running = some j)
    (ht : tag = s.linkTag (s.jobLink j)) (hb : b = if cause = 3 then s.timeoutReport (s.jobFn j) tag else s) :
    s.dmaBeat ch cause pos late = b.dmaFail ch cause pos late tag := by
  subst hb ht
  unfold State.dmaBeat
  rw [hj]

end

/-- Settles O50: each clause is its row's operation in the case that the clause describes. -/
theorem dmaTransfers : Obligations.DmaTransfers := by
  refine ⟨?starts, ?refused, ?finish, ?beat, fun _ _ _ => rfl⟩
  case starts => exact fun s b j ch h hb hg hc => congrArg Host.Outcome.next (dmaStart_copies h hb hg hc)
  case refused => exact fun s b u j ch code v h hb hg hc hv => congrArg Host.Outcome.next (dmaStart_refused h hb hg hc hv)
  case finish => exact fun s u ch j d hj hd hu => congrArg Host.Outcome.next (dmaFinish_running hj hd hu)
  case beat =>
    rintro s b u v ch cause pos late whole j d line left tag ⟨hs, hj, ht, hb⟩ hd hl hw hleft hu hv
    exact congrArg Host.Outcome.next ((dmaBeat_running hs ht hb).trans (dmaFail_running hj hd hl hw hleft hu hv))

/-! ### Commands on channels (R512, R513) -/

section
variable {b : State} {j : Job} {ch : Nat}

/-- PURLIN_CHANNEL_SET of an IDLE channel that no queue binds, to a function or to none (R513). -/
theorem chanSet_ok (hc : ch = j.byte 0 4 ∧ ch ≤ 27 ∧ (j.le 6 2 < 256 ∨ j.le 6 2 = 0xFFFF) ∧
      j.only [(4, 1), (6, 2)] = true) (hi : b.chanState ch = 0 ∧ b.chanBound ch = false) :
    chanSet j b = okRes (b.wr (chanBase ch) Reg.PURLIN_CHAN_B_CHAN_FUNC (j.le 6 2)) [] := by
  obtain ⟨rfl, h27, hf, ho⟩ := hc
  refine (if_neg ?_).trans (if_neg (by simp [hi.1, hi.2]))
  rintro (g | g | g)
  · exact Nat.not_lt.2 h27 g
  · exact hf.elim (Nat.not_lt.2 g.1) g.2
  · exact Bool.false_ne_true (g.symm.trans ho)

section
variable (hc : ch = j.byte 0 4 ∧ ch ≤ 27 ∧ j.byte 0 5 ≤ 3 ∧ j.byte 0 6 ≤ 1 ∧ (j.byte 0 5 = 3 ∨ j.byte 0 6 = 0) ∧
    j.only [(4, 3)] = true)
  (hf : b.jobFn j = b.owner ∨ (b.chanState ch ≠ 0 ∧ (b.queue (b.chanQ ch)).fn = b.jobFn j))
include hc hf

/-- STOP of a channel that runs or stops already waits for the job in progress (R512). -/
theorem chanStop_waits (hs : b.chanState ch = 1 ∨ b.chanState ch = 2) : chanStop j b =
    laterA ((b.setChanState ch 2).setChan ch { b.chan ch with stops := (b.chan ch).stops ++ [j] }) := by
  refine (ctlGate_ok hc hf _).trans ?_
  rcases hs with hs | hs <;> (rw [hs]; rfl)

/-- STOP of a STOPPED or HALTED channel completes at once (R512). -/
theorem chanStop_stopped (hs : b.chanState ch = 3 ∨ b.chanState ch = 4) :
    chanStop j b = okRes b (leBytes 1 (b.chanState ch)) := by
  refine (ctlGate_ok hc hf _).trans ?_
  rcases hs with hs | hs <;> (rw [hs]; exact congrArg (fun n => okRes b (leBytes 1 n)) hs)

/-- RESUME of a STOPPED or HALTED channel: its held jobs run (R512). -/
theorem chanResume_ok (hs : b.chanState ch = 3 ∨ b.chanState ch = 4) : chanResume j b =
    ctlOk (((b.setChanState ch 1).setChan ch { b.chan ch with resuming := true }).chanReport ch) ch :=
  (ctlGate_ok hc hf _).trans (if_pos hs)

/-- FLUSH of a STOPPED or HALTED channel: its held jobs are cancelled (R512). -/
theorem chanFlush_ok (hs : b.chanState ch = 3 ∨ b.chanState ch = 4) : chanFlush j b =
    ctlOk ((forEach (b.chanHeld ch) (fun k s => s.dmaCancel (dmaSide k 0).total k) b).chanReport ch) ch :=
  (ctlGate_ok hc hf _).trans (if_pos hs)

/-- POLICY (R511, R512). -/
theorem chanPolicy_ok :
    chanPolicy j b = ctlOk (b.wr (chanBase ch) Reg.PURLIN_CHAN_A_ON_ERROR (j.byte 0 6)) ch :=
  ctlGate_ok hc hf _

end

/-- PURLIN_QUERY of a channel of the function's, or by the owner, writes its registers (R513, R514). -/
theorem purlinQuery_ok (hc : ch = j.byte 0 4 ∧ ch ≤ 27 ∧ j.only [(4, 1), (16, 8)] = true)
    (hf : b.jobFn j = b.owner ∨ (b.chanState ch ≠ 0 ∧ (b.queue (b.chanQ ch)).fn = b.jobFn j)) :
    purlinQuery j b = okRes (b.jobWrite j j.hostAddr (b.regBytes (chanBase ch + 0x1000) 4)) (leBytes 4 16) := by
  obtain ⟨rfl, h27, ho⟩ := hc
  refine (if_neg (by simp [ho, Nat.not_lt.2 h27])).trans (if_neg ?_)
  rintro ⟨g, g'⟩
  exact hf.elim g (fun h => g'.elim h.1 (fun g => g h.2))

end

/-- Settles O51: each command's body, or the row's operation, in the case that the clause describes. -/
theorem channels : Obligations.Channels := by
  refine ⟨?set, ?stop, ?stopped, ?resume, ?flush, ?policy, ?ended, ?query⟩
  case set => exact fun s b j ch h hc hi => jobRow_ok h (chanSet_ok hc hi)
  case stop =>
    exact fun s b j ch h0 h hc hf hs => (opRow_eq (by simp [h0])).trans (jobRow_later h (chanStop_waits hc hf hs))
  case stopped => exact fun s b j ch h0 h hc hf hs => opRow_ok (by simp [h0]) h (chanStop_stopped hc hf hs)
  case resume => exact fun s b j ch h0 h hc hf hs => opRow_ok (decide_eq_true h0) h (chanResume_ok hc hf hs)
  case flush => exact fun s b j ch h0 h hc hf hs => opRow_ok (decide_eq_true h0) h (chanFlush_ok hc hf hs)
  case policy => exact fun s b j ch h0 h hc hf => opRow_ok (decide_eq_true h0) h (chanPolicy_ok hc hf)
  case ended => exact fun s ch h => congrArg Host.Outcome.next (if_pos h)
  case query => exact fun s b j ch h hc hf => jobRow_ok h (purlinQuery_ok hc hf)

end Sys2Proof.Machine
end

section
/-!
PROOFS. The controller of the stacked DRAM (ch. 18), then the obligations on it.
-/
namespace Sys2Proof.Machine

/-! ### Requests (R522 to R526) -/

/-- A request to an online stack joins its pseudo-channel with its port's target, and the demand since the channel was last
idle grows by it (R522, R523, R526). -/
theorem dmcArrive_online {s : State} {port a len x c : Nat} {write : Bool} {r : DmcReq} {y : PCh}
    (hx : x = stackOf a ∧ c = pchOf a) (ho : s.stackOffline x = false)
    (hr : r = {
      port := port, addr := a, len := max 1 len, write := write, arrival := s.clock.up, target := s.portTarget port
      excused := decide (s.stackState x = 3) || s.pcTraining x c || s.repaying x c || decide (0 < (s.pch x c).urgent) })
    (hy : y = if (s.pch x c).queue = [] ∧ (s.pch x c).waiting = [] ∧ (s.pch x c).flight = [] then
        { s.pch x c with busyFrom := s.clock.up, demand := r.len }
      else { s.pch x c with demand := (s.pch x c).demand + r.len }) :
    s.dmcArrive port a len write =
      ((s.putPch x c (y.join r)).dmcCount x port r.len).dmcCount x (16 + port) 1 := by
  obtain ⟨rfl, rfl⟩ := hx
  have joined : y = { s.pch (stackOf a) (pchOf a) with
      busyFrom := if decide ((s.pch (stackOf a) (pchOf a)).queue = [] ∧ (s.pch (stackOf a) (pchOf a)).waiting = [] ∧
        (s.pch (stackOf a) (pchOf a)).flight = []) then s.clock.up else (s.pch (stackOf a) (pchOf a)).busyFrom
      demand := (if decide ((s.pch (stackOf a) (pchOf a)).queue = [] ∧ (s.pch (stackOf a) (pchOf a)).waiting = [] ∧
        (s.pch (stackOf a) (pchOf a)).flight = []) then 0 else (s.pch (stackOf a) (pchOf a)).demand) + r.len } := by
    rw [hy]
    split
    · next idle => simp [idle]
    · next busy => simp [busy]
  rw [joined, hr]
  exact if_neg (by simp [ho])

section
variable {s u : State} {x c : Nat} {y : PCh} (hs : s.stackState x = 2 ∧ s.pcTraining x c = false)
  (hu : u = s.finishWrites x c) (hy : y = u.pch x c)
include hs hu hy

/-- An urgent refresh goes before everything else (R524, R530). -/
theorem dmcIssue_urgent (h : 0 < y.urgent) : s.dmcIssue x c =
    ((u.setPch x c { y with urgent := y.urgent - 1 }).refresh x c).dmcCount x 59 1 := by
  subst hy hu
  exact (if_neg (by simp [hs])).trans (if_pos h)

/-- Then the earliest request at level 3 (R524). -/
theorem dmcIssue_level3 {r : DmcReq} (h : y.urgent = 0)
    (hr : earliest (y.ready.filter (fun r => decide (r.level u.clock.up = 3))) = some r) :
    s.dmcIssue x c = u.issueReq x c r := by
  subst hy hu
  refine (if_neg (by simp [hs])).trans ((if_neg (by simp [h])).trans ?_)
  rw [hr]

variable (h0 : y.urgent = 0 ∧ earliest (y.ready.filter (fun r => decide (r.level u.clock.up = 3))) = none)
include h0

/-- Then an owed refresh, while debt is repaid or nothing of level 1 waits (R524, R528 to R530). -/
theorem dmcIssue_owed (h : 0 < u.debt x c ∧ (u.repaying x c = true ∨ y.holds 1 u.clock.up = false)) :
    s.dmcIssue x c = u.repay x c := by
  subst hy hu
  refine (if_neg (by simp [hs])).trans ((if_neg (by simp [h0.1])).trans ?_)
  rw [h0.2]
  refine if_pos ?_
  rw [decide_eq_true h.1]
  rcases h.2 with h | h <;> simp [h]

/-- Then a request to an open row, and else the first that may issue (R524, R525). -/
theorem dmcIssue_first {r : DmcReq} (hd : u.debt x c = 0)
    (hr : (y.ready.find? (fun r => decide (tabGet (fun _ => none) y.rows (bankOf r.addr) = some (rowOf r.addr)))).or
      y.ready.head? = some r) : s.dmcIssue x c = u.issueReq x c r := by
  subst hy hu
  refine (if_neg (by simp [hs])).trans ((if_neg (by simp [h0.1])).trans ?_)
  rw [h0.2]
  refine (if_neg (by simp [hd])).trans ?_
  revert hr
  cases (((s.finishWrites x c).pch x c).ready.find? _) with
  | some z => rintro ⟨⟩; rfl
  | none =>
    cases ((s.finishWrites x c).pch x c).ready with
    | nil => rintro ⟨⟩
    | cons z t => rintro ⟨⟩; rfl

end

/-- The oldest read in flight returns; an error that ECC corrects or does not is handled first (R526, R532). -/
theorem readReturn_flight {s u v : State} {x c ecc : Nat} {r : DmcReq} {t : List DmcReq} (hu : u = s.finishWrites x c)
    (hf : (u.pch x c).flight = r :: t) (hv : v = u.putPch x c { u.pch x c with flight := t }) :
    s.readReturn x c ecc = (if ecc = 1 then v.eccFixed x r.addr
      else if ecc = 2 then v.eccLost x r.addr r.port 0 else v).judge x r 0 := by
  subst hv hu
  unfold State.readReturn
  dsimp only
  rw [hf]

section
variable {s : State} {x c w : Nat} {r r1 : DmcReq} {t : List DmcReq} (hf : (s.pch x c).flight = r :: t)
  (hw : w = s.dmcCfg Reg.DMC_CFG2_CRC_WINDOW_NS)
  (hr : r1 = { r with
    tries := r.tries + 1, firstErr := if r.tries = 0 then s.clock.up else r.firstErr, excused := true })
include hf hw hr

/-- A burst with a CRC error is retried within its tries and its window (R533). -/
theorem crcError_retried
    (h : r1.tries ≤ s.dmcCfg Reg.DMC_CFG_CRC_RETRIES ∧ w ≠ 0 ∧ s.clock.up - r1.firstErr ≤ w) :
    s.crcError x c = (s.setPch x c { s.pch x c with flight := r1 :: t }).dmcCount x 63 1 := by
  subst hr hw
  unfold State.crcError
  dsimp only
  rw [hf]
  exact if_pos h

/-- Beyond them it is given up: the error is reported, the request is judged, and the pseudo-channel trains (R533, R541). -/
theorem crcError_givenUp {u v : State} {n tag : Nat}
    (h : s.stackState x = 2 ∧ (s.dmcCfg Reg.DMC_CFG_CRC_RETRIES < r1.tries ∨ w = 0 ∨ w < s.clock.up - r1.firstErr))
    (hn : n = (s.rd (wPch x c) Reg.DMC_PC_GIVE_UPS + 1) % 65536) (ht : tag = corrTag 0x0F (pchKey x c) n)
    (hu : u = ((s.setPch x c { ({ s.pch x c with flight := t } : PCh).excuse with afterGiveUp := true }).wr
      (wPch x c) Reg.DMC_PC_GIVE_UPS n).dmcCount x 64 1)
    (hv : v = (u.event Ev.CRC_RETRY_FAILED x (pchKey x c) (b2n r.write) tag).faultDmc x 2 tag) :
    s.crcError x c = (((if r.write then v else v.eccLost x r.addr r.port tag).judge x r1 tag).wr (wPch x c)
      Reg.DMC_PC_TRAINING 1).wr (wDmc x) Reg.DMC_STATUS_RETRAIN_PC c := by
  obtain ⟨hs, hl⟩ := h
  have past : ¬(r1.tries ≤ s.dmcCfg Reg.DMC_CFG_CRC_RETRIES ∧ w ≠ 0 ∧ s.clock.up - r1.firstErr ≤ w) := by
    rintro ⟨htries, hzero, hwindow⟩
    exact hl.elim (Nat.not_lt.2 htries) (fun h => h.elim hzero (Nat.not_lt.2 hwindow))
  subst hv hu ht hn hr hw
  unfold State.crcError
  dsimp only
  rw [hf]
  refine (if_neg past).trans ((if_pos hs).trans ?_)
  rw [decide_eq_true hs]

end

/-- A refresh that falls due on an ONLINE stack is owed under load, urgent once 8 are owed, and else done (R528 to R530). -/
theorem refreshDue_online {s : State} {x c : Nat} (h : s.stackState x = 2) : s.refreshDue x c =
    if s.pcTraining x c = true ∨ s.repaying x c = true ∨ (s.pch x c).holds 1 s.clock.up = true then
      (if 8 ≤ s.debt x c then s.setPch x c { s.pch x c with urgent := (s.pch x c).urgent + 1 }
        else (s.setDebt x c (s.debt x c + 1)).dmcCount x 58 1)
    else s.refresh x c :=
  if_neg (not_not_intro h)

/-- An idle pseudo-channel powers down (R531). -/
theorem powerDown_idle {s u : State} {x c : Nat} (hs : s.stackState x = 2 ∧ s.pcTraining x c = false)
    (hu : u = s.finishWrites x c) (hi : s.rdb (wPch x c) Reg.DMC_PC_POWER_DOWN = false ∧ (u.pch x c).queue = [] ∧
      (u.pch x c).flight = []) :
    s.powerDown x c = (u.setPch x c { u.pch x c with pdSince := s.clock.up }).wr (wPch x c)
      Reg.DMC_PC_POWER_DOWN 1 := by
  subst hu
  obtain ⟨hp, hq, hf⟩ := hi
  exact if_neg (by simp [hs, hp, hq, hf])

/-- Settles O52: each clause is its row's operation in the case that the clause describes. -/
theorem dramRequests : Obligations.DramRequests := by
  refine ⟨?arrival, ?urgent, ?level3, ?owed, ?first, ?returned, ?retried, ?givenUp, ?refresh, ?powerDown⟩
  case arrival =>
    exact fun s n a len write x c r y hx ho hr hy => congrArg Host.Outcome.next (dmcArrive_online hx ho hr hy)
  case urgent => exact fun s u x c y hs hu hy h => congrArg Host.Outcome.next (dmcIssue_urgent hs hu hy h)
  case level3 => exact fun s u x c y r hs hu hy h hr => congrArg Host.Outcome.next (dmcIssue_level3 hs hu hy h hr)
  case owed => exact fun s u x c y hs hu hy h0 h => congrArg Host.Outcome.next (dmcIssue_owed hs hu hy h0 h)
  case first =>
    exact fun s u x c y r hs hu hy h hr =>
      congrArg Host.Outcome.next (dmcIssue_first hs hu hy ⟨h.1, h.2.1⟩ h.2.2 hr)
  case returned => exact fun s u v x c ecc r t hu hf hv => congrArg Host.Outcome.next (readReturn_flight hu hf hv)
  case retried => exact fun s x c r t w r1 hf hw hr h => congrArg Host.Outcome.next (crcError_retried hf hw hr h)
  case givenUp =>
    exact fun s u v x c r t w n tag r1 hf hw hr h hn ht hu hv =>
      congrArg Host.Outcome.next (crcError_givenUp hf hw hr h hn ht hu hv)
  case refresh => exact fun s x c h => congrArg Host.Outcome.next (refreshDue_online h)
  case powerDown => exact fun s u x c hs hu hi => congrArg Host.Outcome.next (powerDown_idle hs hu hi)

end Sys2Proof.Machine
end

section
/-!
PROOFS. The stacks' temperature, training and frequency, and the DMC's commands (ch. 18), then the obligations on them.
-/
namespace Sys2Proof.Machine

/-! ### Stacks (R527, R534 to R543) -/

/-- A temperature sample is kept, the first and each new maximum too; a stack that is too hot goes HOT, and loses its
contents when hotter still, and an ONLINE one changes its refresh rate (R527, R540, R541). -/
theorem dmcTemp_sampled {s u v w : State} {x : Nat} {t : BitVec 16}
    (hu : u = (fun y : State => if s.dmc.sampled.contains x = false ∨
        sInt 16 (s.rd (wDmc x) Reg.DMC_TEMP_MAX_TEMP) < t.toInt then y.wr (wDmc x) Reg.DMC_TEMP_MAX_TEMP t.toNat else y)
      (s.wr (wDmc x) Reg.DMC_TEMP_TEMP t.toNat))
    (hv : v = if s.dmc.sampled.contains x = false then
      { u with dmc := { u.dmc with sampled := x :: u.dmc.sampled } } else u)
    (hw : w = if 2000 < t.toInt ∧ (s.stackState x = 2 ∨ s.stackState x = 3) then
      (((v.setStack x 4).wr (wDmc x) Reg.DMC_STATUS_RATE 3).goOffline x).levelDmc x 3 true else v) :
    s.dmcTemp x t = if w.stackState x = 4 then
        (if 2160 < t.toInt ∧ w.rdb (wDmc x) Reg.DMC_STATUS_CONTENTS_LOST = false then
          (w.wr (wDmc x) Reg.DMC_STATUS_CONTENTS_LOST 1).levelDmc x 5 true else w)
      else if s.stackState x = 2 then w.changeRate x (rateFor (s.rd (wDmc x) Reg.DMC_STATUS_RATE) t.toInt) else w := by
  subst hw hv hu
  unfold State.dmcTemp
  cases s.dmc.sampled.contains x <;> simp

/-- A scrubbed word of a stack that is online, outside SAFE and Mint's deferral, is corrected or reported (R534, R543). -/
theorem patrol_runs {s u : State} {x off ecc : Nat}
    (h : s.stackOffline x = false ∧ s.devState ≠ 5 ∧ s.rdb wMint Reg.MINT_STATUS_DEFERRING = false)
    (hu : u = s.wr (wDmc x) Reg.DMC_STATUS_SCRUB_DEFERRED 0) : s.patrol x off ecc =
      if ecc = 1 then u.eccFixed x (x * 2 ^ 34 + off)
      else if ecc = 2 then u.eccLost x (x * 2 ^ 34 + off) ownPort 0 else u := by
  obtain ⟨ho, hs, hd⟩ := h
  subst hu
  exact (if_neg (by simp [ho, hs])).trans (if_neg (by simp [hd]))

/-- The next step of a running round trains its pseudo-channel (R526, R537). -/
theorem stepStart_next {s u : State} {x c : Nat}
    (h : s.stackState x = 2 ∧ s.dutyRuns 12 = true ∧ s.rdb (wDmc x) Reg.DMC_STATUS_RETRAIN_ACTIVE = true)
    (hc : c = tabGet (fun _ => 0) s.dmc.nextPc x ∧ c < 32 ∧ s.roundHeld x = false ∧
      (rangeFrom 0 32).any (s.pcTraining x) = false)
    (hu : u = (s.leavePd x c).setPch x c ((s.leavePd x c).pch x c).excuse) : s.stepStart x =
      (u.wr (wPch x c) Reg.DMC_PC_TRAINING 1).wr (wDmc x) Reg.DMC_STATUS_RETRAIN_PC c := by
  obtain ⟨hs, hd, ha⟩ := h
  obtain ⟨rfl, hl, hh, ht⟩ := hc
  subst hu
  exact if_neg (by rw [hs, hd, ha, hh, ht]; simp [hl])

/-- The end of a training step: a discarded one counts for nothing, one after a give-up may fail the stack, and another
takes its round on to the next pseudo-channel (R537, R540, R541). -/
theorem stepDone_training {s u v : State} {x c : Nat} {ok : Bool} {y : PCh}
    (h : s.pcTraining x c = true ∧ y = s.pch x c)
    (hu : u = (s.setPch x c { y with afterGiveUp := false }).wr (wPch x c) Reg.DMC_PC_TRAINING 0)
    (hv : v = { u with dmc := { u.dmc with nextPc := tabSet (fun _ => 0) u.dmc.nextPc x (c + 1) } }) :
    s.stepDone x c ok = if s.dmc.discard.contains x = true then
        (if y.afterGiveUp then { u with dmc := { u.dmc with discard := u.dmc.discard.erase x } } else u)
      else if y.afterGiveUp then (if ok then u else ((u.setStack x 5).goOffline x).levelDmc x 4 true)
      else if c = 31 then v.wr (wDmc x) Reg.DMC_STATUS_RETRAIN_ACTIVE 0 else v := by
  obtain ⟨ht, rfl⟩ := h
  subst hv hu
  exact if_neg (by simp [ht])

/-- The first stack that must change its step stops service (R538, R539, R541, R543). -/
theorem freqStart_first {s u v : State} {x : Nat}
    (h : s.dmc.changing.head? = some x ∧ s.stackState x = 2 ∧ s.halting = false)
    (h' : (rangeFrom 0 32).any (s.pcTraining x) = false ∧
      (rangeFrom 0 4).any (fun z => decide (s.stackState z = 3)) = false)
    (hu : u = forEach (rangeFrom 0 32) (fun c s => ((s.flightOver x c (fun _ => true)).refresh x c).putPch x c
      ((((s.flightOver x c (fun _ => true)).refresh x c).pch x c).excuse)) s)
    (hv : v = ((u.setStack x 3).wr (wDmc x) Reg.DMC_STATUS_RATE 3).freshRefresh x) :
    s.freqStart x = { v with dmc := { v.dmc with
      target := tabSet (fun _ => 0) v.dmc.target x (s.dmcCfg Reg.DMC_FREQ_EFFECTIVE_STEP) } } := by
  obtain ⟨hc, hs, hh⟩ := h
  obtain ⟨ht, hn⟩ := h'
  subst hv hu
  exact if_neg (by rw [hc, hs, hh, ht, hn]; simp)

/-- A stack that changed its step comes back at it; a later change of step keeps it among those to change (R539, R540). -/
theorem freqDone_changing {s u v : State} {x step : Nat}
    (h : s.stackState x = 3 ∧ step = tabGet (fun _ => 0) s.dmc.target x)
    (hu : u = ((s.setStack x 2).wr (wDmc x) Reg.DMC_STATUS_STEP step).wr (wDmc x) Reg.DMC_STATUS_RATE
      (rateFor 0 (s.stackTemp x)))
    (hv : v = { u with dmc := { u.dmc with
      changing := if step = s.dmcCfg Reg.DMC_FREQ_EFFECTIVE_STEP then u.dmc.changing.erase x else u.dmc.changing
      discard := u.dmc.discard.erase x } }) :
    s.freqDone x = (if s.dmc.discard.contains x then v else v.dueRound x).freqNext := by
  obtain ⟨hs, rfl⟩ := h
  subst hv hu
  refine (if_neg (not_not_intro hs)).trans ?_
  simp only [ne_eq, ite_not]

/-- A stack that has cooled comes ONLINE again, and a round and a pending change of step follow (R541). -/
theorem hotExit_cool {s : State} {x : Nat} (h : s.stackState x = 4 ∧ s.stackTemp x ≤ 1920) :
    s.hotExit x = (((s.levelDmc x 3 false).goOnline x).dueRound x).freqNext :=
  if_pos h

/-- Settles O53: each clause is its row's operation in the case that the clause describes. -/
theorem dramStacks : Obligations.DramStacks := by
  refine ⟨?temp, ?scrub, fun _ => rfl, ?stepStart, ?stepDone, ?freqStart, ?freqDone, ?hotExit⟩
  case temp => exact fun s u v w x t hu hv hw => congrArg Host.Outcome.next (dmcTemp_sampled hu hv hw)
  case scrub => exact fun s u x off ecc h hu => congrArg Host.Outcome.next (patrol_runs h hu)
  case stepStart => exact fun s u x c h hc hu => congrArg Host.Outcome.next (stepStart_next h hc hu)
  case stepDone => exact fun s u v x c ok y h hu hv => congrArg Host.Outcome.next (stepDone_training h hu hv)
  case freqStart => exact fun s u v x h h' hu hv => congrArg Host.Outcome.next (freqStart_first h h' hu hv)
  case freqDone => exact fun s u v x step h hu hv => congrArg Host.Outcome.next (freqDone_changing h hu hv)
  case hotExit => exact fun s x h => congrArg Host.Outcome.next (hotExit_cool h)

/-! ### Commands (R544, R545) -/

section
variable {b : State} {j : Job}

/-- DMC_SETUP of valid fields whose retry window leaves room in every target (R531, R533, R534, R537). -/
theorem dmcSetup_ok {w : Nat} (h : w = j.le 12 2 ∧ j.only [(8, 3), (12, 4)] = true ∧ j.byte 0 10 < 8 ∧
      4 * w ≤ b.leastTarget 13 0) :
    dmcSetup j b = okRes (((((b.wr (wDmc 0) Reg.DMC_CFG_PD_TIMER (j.le 8 2)).wr (wDmc 0) Reg.DMC_CFG_CRC_RETRIES
      (j.byte 0 10)).wr (wDmc 0) Reg.DMC_CFG2_CRC_WINDOW_NS w).wr (wDmc 0) Reg.DMC_CFG2_RETRAIN_MIN (j.byte 0 14)).wr
        (wDmc 0) Reg.DMC_CFG2_SCRUB_HOURS (j.byte 0 15)) [] := by
  obtain ⟨rfl, hf, h8, hw⟩ := h
  exact if_neg (by simp [hf, Nat.not_le.2 h8, Nat.not_lt.2 hw])

/-- DMC_PORT_SET of a target that leaves room for the retry window (R522, R533). -/
theorem dmcPortSet_ok {x t : Nat} (h : x = j.byte 0 4 ∧ t = j.le 8 2 ∧ j.only [(4, 1), (8, 2)] = true ∧ x ≤ 12 ∧
      4 * b.dmcCfg Reg.DMC_CFG2_CRC_WINDOW_NS ≤ b.leastTarget x t) :
    dmcPortSet j b = okRes (b.wr (wDmc 0 + 4 * x) Reg.DMC_PORT_TARGET_TARGET_NS t) [] := by
  obtain ⟨rfl, rfl, hf, hx, hw⟩ := h
  exact if_neg (by simp [hf, Nat.not_lt.2 hx, Nat.not_lt.2 hw])

/-- DMC_MAP_SET of stacks whose new spill areas nothing uses (R518, R545). -/
theorem dmcMapSet_ok {g : Nat} {l : List Nat}
    (h : g = j.byte 0 5 ∧ j.only [(4, 2)] = true ∧ j.byte 0 4 < 16 ∧ g < 16)
    (hl : l = (rangeFrom 0 4).filter (fun x => (j.byte 0 4).testBit x))
    (hu : l.any (fun x => b.deepHolds x || b.inUse ((x + 1) * 2 ^ 34 - g * 2 ^ 30) (g * 2 ^ 30)) = false) :
    dmcMapSet j b = okRes (forEach l (fun x s => s.wr (wDmc x) Reg.DMC_MAP_SPILL_GIB g) b) [] := by
  obtain ⟨rfl, hf, hm, hg⟩ := h
  subst hl
  exact (if_neg (by simp [hf, Nat.not_le.2 hm, Nat.not_le.2 hg])).trans
    (if_neg (fun g => Bool.false_ne_true (hu.symm.trans g)))

/-- DMC_FREQ_SET: a host step that changes nothing is answered at once, and one that changes the effective step waits for
the stacks or is deferred (R538, R540). -/
theorem dmcFreqSet_ok {r : Bool × State} {eff : Nat} {u : State} (h : j.only [(4, 1)] = true ∧ j.byte 0 4 ≤ 2)
    (hr : r = (b.wr (wDmc 0) Reg.DMC_FREQ_HOST_STEP (j.byte 0 4)).changeStep 0)
    (he : eff = r.2.dmcCfg Reg.DMC_FREQ_EFFECTIVE_STEP)
    (hu : u = { r.2 with dmc := { r.2.dmc with freqJobs := r.2.dmc.freqJobs ++ (if r.1 then [] else [j]) } }) :
    dmcFreqSet j b = if eff = b.dmcCfg Reg.DMC_FREQ_EFFECTIVE_STEP then okRes r.2 [BitVec.ofNat 8 eff]
      else if r.1 then (u.freqNext, some (St.DEFERRED, [BitVec.ofNat 8 eff])) else laterA u.freqNext := by
  subst hu he hr
  exact if_neg (by simp [h.1, Nat.not_lt.2 h.2])

/-- DMC_RETRAIN of ONLINE stacks starts their rounds (R537, R545). -/
theorem dmcRetrain_ok {l : List Nat} (h : j.only [(4, 1)] = true ∧ j.byte 0 4 < 16)
    (hl : l = (rangeFrom 0 4).filter (fun x => (j.byte 0 4).testBit x))
    (hs : l.any (fun x => decide (b.stackState x ≠ 2)) = false) :
    dmcRetrain j b = okRes (forEach l (fun x s => s.startRound x) b) [] := by
  subst hl
  exact (if_neg (by simp [h.1, Nat.not_le.2 h.2])).trans (if_neg (fun g => Bool.false_ne_true (hs.symm.trans g)))

end

/-- Settles O54: each command's body in the case that the clause describes. -/
theorem dmcCommands : Obligations.DmcCommands := by
  refine ⟨?setup, ?port, ?map, ?freq, ?retrain⟩
  case setup => exact fun s b j w h hv => jobRow_ok h (dmcSetup_ok hv)
  case port => exact fun s b j x t h hv => jobRow_ok h (dmcPortSet_ok hv)
  case map => exact fun s b j g l h hv hl hu => jobRow_ok h (dmcMapSet_ok hv hl hu)
  case freq =>
    intro s b j r eff u h hv hr he hu
    have body := dmcFreqSet_ok hv hr he hu
    refine ⟨fun hs => jobRow_ok h (body.trans (if_pos hs)), fun hs hn => ?waits, fun hs hd => ?deferred⟩
    case waits => exact jobRow_later h (body.trans ((if_neg hs).trans (if_neg (by simp [hn]))))
    case deferred =>
      exact congrArg Host.Outcome.next (runJob_code h (body.trans ((if_neg hs).trans (if_pos hd))))
  case retrain => exact fun s b j l h hv hl hs => jobRow_ok h (dmcRetrain_ok hv hl hs)

end Sys2Proof.Machine
end

section
/-!
PROOFS. Mint: the evaluation, the core clock with its voltage, THERMTRIP and the Mint commands (ch. 19), then the
obligations on them.
-/
namespace Sys2Proof.Machine

/-! ### Evaluation, clock and voltage (R550 to R566, R655, R656) -/

/-- From BOOTED on, an evaluation takes its readings, derives the state, applies its actions in order and completes the
commands that waited for it (R550, R554). -/
theorem mintEvaluate_booted {s u v : State} {r : MintReading} (h : 2 ≤ s.devState)
    (hu : u = ((s.mintSense r).mintRuns).mintNext)
    (hv : v = (((u.clockAction.avsNow.parkAction).setDefer
      (actDefer (u.actWord u.mintState 0))).stepAction).heatReload.mintCounts) :
    s.mintEvaluate r = forEach v.mint.holds (fun j t => t.complete j St.SUCCESS [BitVec.ofNat 8 t.mintState])
      (v.setMint { v.mint with holds := [] }) := by
  subst hv hu
  exact if_neg (Nat.not_lt.2 h)

/-- The clock leaves its rate for the wanted one: a fall at once, a rise once its setpoint has settled (R561, R655). -/
theorem clockSwitch_wanted {s v u : State} {want : Bool}
    (hw : want = s.mint.wantLow) (hl : s.rdb wMint Reg.MINT_STATUS_CLOCK_LOW = !want)
    (hs : want = true ∨ (s.dev.avs = s.avsWanted s.tjNow ∧ s.dev.avsPending = none ∧ s.since s.dev.avsAckAt (10 ^ 4) = true))
    (hv : v = (s.wr wMint Reg.MINT_STATUS_CLOCK_LOW (b2n want)).setMint
      { s.mint with switchedAt := s.clock.up, ccBase := s.ccNow })
    (hu : u = { v with dev := { v.dev with avsClock := want } }) :
    s.clockSwitch = (u.event Ev.CLOCK_CHANGED 0 (if want then 1200 else 1600) u.mintState 0).count 152 4 1 := by
  subst hu hv hw
  refine if_neg ?_
  rw [hl]
  obtain hw | ⟨ha, hp, ht⟩ := hs
  · simp [hw]
  · simp [ha, hp, ht, -Nat.reducePow]

/-- An acknowledged setpoint is the device's; a change of clock goes on to its next setpoint (R655, R656). -/
theorem avsAck_pending {s u : State} {v : Nat} (h : s.dev.avsPending = some v)
    (hu : u = { s with dev := { s.dev with avs := v, avsPending := none, avsAckAt := some s.clock.up } }) :
    s.avsAck = if (u.dev.avsClock && decide (u.avsWanted u.tjNow ≠ v)) = true then u.avsNow
      else if (u.rdb wMint Reg.MINT_STATUS_CLOCK_LOW && u.since (some u.mint.switchedAt) (10 ^ 6)) = true then
        { u with dev := { u.dev with avsClock := false } }
      else u := by
  subst hu
  unfold State.avsAck
  rw [h]

/-- A setpoint that was never acknowledged is written again (R656). -/
theorem avsTimeout_pending {s : State} (h : s.dev.avsPending.isSome = true) :
    s.avsTimeout = { s with dev := { s.dev with avsPending := none, avsRetry := true } } :=
  if_pos h

/-- THERMTRIP's pin follows its latch when that changes (R566, R630). -/
theorem thermtrip_changed {s : State} {on : Bool} (h : s.dev.thermtrip = !on) :
    s.thermtrip on = State.emit { s with dev := { s.dev with thermtrip := on } } (.pin 11 (b2n on)) :=
  if_neg (by simp [h])

/-- Settles O56: each clause is its row's operation in the case that the clause describes. -/
theorem heatSteps : Obligations.HeatSteps := by
  refine ⟨?evaluate, ?clock, ?ack, ?timeout, ?trip, ?clear⟩
  case evaluate => exact fun s u v r h hu hv => congrArg Host.Outcome.next (mintEvaluate_booted h hu hv)
  case clock => exact fun s v u want hw hl hs hv hu => congrArg Host.Outcome.next (clockSwitch_wanted hw hl hs hv hu)
  case ack => exact fun s u v h hu => congrArg Host.Outcome.next (avsAck_pending h hu)
  case timeout => exact fun s h => congrArg Host.Outcome.next (avsTimeout_pending h)
  case trip => exact fun s h => congrArg Host.Outcome.next (thermtrip_changed h)
  case clear => exact fun s h => congrArg Host.Outcome.next (thermtrip_changed h)

/-! ### Commands (R559, R568, R569) -/

section
variable {b : State} {j : Job}

/-- MINT_SETUP of limits in rising order (R552, R568). -/
theorem mintSetup_ok (h : j.only [(8, 3), (12, 3), (16, 5)] = true ∧ j.le 8 2 ≤ 4800 ∧ j.byte 0 10 ≠ 0 ∧
      j.byte 0 10 ≤ 16 ∧ j.byte 0 14 ≤ 15)
    (hl : j.byte 0 16 < j.byte 0 17 ∧ j.byte 0 17 < j.byte 0 18 ∧ j.byte 0 18 ≤ 150 ∧ j.byte 0 19 < j.byte 0 20 ∧
      j.byte 0 20 ≤ 125) :
    mintSetup j b = okRes (((((((((b.wr wMint Reg.MINT_POWER_CAP (j.le 8 2)).wr wMint Reg.MINT_CFG_P_AVG
      (j.byte 0 10)).wr wMint Reg.MINT_CFG_HOLD_MS (j.le 12 2)).wr wMint Reg.MINT_CFG_HYST (j.byte 0 14)).wr wMint
      Reg.MINT_TLIM_T_WARM (j.byte 0 16)).wr wMint Reg.MINT_TLIM_T_HOT (j.byte 0 17)).wr wMint
      Reg.MINT_TLIM_T_CRIT (j.byte 0 18)).wr wMint Reg.MINT_SLIM_STACK_S1 (j.byte 0 19)).wr wMint
      Reg.MINT_SLIM_STACK_S2 (j.byte 0 20)) [] := by
  obtain ⟨hf, hc, ha, ha', hh⟩ := h
  obtain ⟨hwt, htc, hc', hs, hs'⟩ := hl
  refine if_neg ?_
  simp only [hf, Bool.not_true, Bool.false_or, decide_eq_true_eq]
  omega

/-- MINT_ACT_SET of an image that is not refused (R556, R559). -/
theorem mintActSet_ok {d : List Byte} (h : j.only [(4, 1), (8, 8)] = true ∧ j.byte 0 4 ≤ 3)
    (hd : d = b.hostRd (b.jobLink j) (j.le 8 8) 32) (hb : b.actBad d = false) :
    mintActSet j b = okRes (forEach (rangeFrom 0 8) (fun w s => s.setReg (wMint + 0x100 + 0x20 * j.byte 0 4 + 4 * w)
      (imW d (4 * w))) (b.countMoved 30 32)) [] := by
  subst hd
  exact (if_neg (by simp [h.1, Nat.not_lt.2 h.2])).trans (if_neg (Bool.eq_false_iff.1 hb))

/-- MINT_FLOOR_SET of floors that no limited budget is below (R569). -/
theorem mintFloorSet_ok (h : j.only [(8, 12)] = true)
    (hf : (rangeFrom 1 3).any (fun h => (rangeFrom 0 4).any (fun st => (actLimit (b.actWord st 0)).testBit (h - 1) &&
      decide (b.actWord st h < j.le (4 + 4 * h) 4))) = false) :
    mintFloorSet j b = okRes (forEach (rangeFrom 1 3) (fun h s => s.setReg (wMint + 0x200 + 4 * (h - 1))
      (j.le (4 + 4 * h) 4)) b) [] :=
  if_neg (by rw [h, hf]; simp)

/-- MINT_HOLD waits for the next evaluation (R568). -/
theorem mintHold_waits {u : State} (h : j.only [(4, 1)] = true ∧ j.byte 0 4 ≤ 3)
    (hu : u = b.wr wMint Reg.MINT_STATUS_MIN_STATE (j.byte 0 4)) :
    mintHold j b = laterA (u.setMint { u.mint with holds := u.mint.holds ++ [j] }) := by
  subst hu
  exact if_neg (by simp [h.1, Nat.not_lt.2 h.2])

/-- MINT_QUERY writes Mint's registers (R568). -/
theorem mintQuery_ok (h : j.only [(16, 8)] = true) :
    mintQuery j b = okRes (b.jobWrite j j.hostAddr (b.regBytes (wMint + 0x1000) 64 ++ b.regBytes (wMint + 0x1100) 8 ++
      b.regBytes wMint 64)) (leBytes 4 544) :=
  if_neg (by simp [h])

end

/-- Settles O57: each command's body in the case that the clause describes. -/
theorem mintCommands : Obligations.MintCommands := by
  refine ⟨?setup, ?actions, ?floors, ?hold, ?query⟩
  case setup => exact fun s b j h hv hl => jobRow_ok h (mintSetup_ok hv hl)
  case actions => exact fun s b j d h hv hd hb => jobRow_ok h (mintActSet_ok hv hd hb)
  case floors => exact fun s b j h hv hf => jobRow_ok h (mintFloorSet_ok hv hf)
  case hold => exact fun s b j u h hv hu => jobRow_later h (mintHold_waits hv hu)
  case query => exact fun s b j h hv => jobRow_ok h (mintQuery_ok hv)

end Sys2Proof.Machine
end

section
/-!
PROOFS. Gauge's counters, windows, dumps and samples, and the recorders' events and commands (ch. 20), then the
obligations on them.
-/
namespace Sys2Proof.Machine

/-! ### Sub-windows and dumps (R585 to R589) -/

/-- A sub-window of a measured port ends: it starts afresh when the window was set anew, and else fills both rate slots
(R585). -/
theorem bwEnd_measured {s : State} {n w : Nat} (h : w = s.bwWindow n ∧ w ≠ 0) :
    s.bwEnd n = if tabGet (fun _ => 1000) s.gauge.bwUsed n ≠ w then s.bwStart n w else (s.bwSlot n 0 w).bwSlot n 1 w := by
  obtain ⟨rfl, hw⟩ := h
  exact if_neg hw

/-- A due dump is skipped, and counted, while one is being written (R589). -/
theorem dumpDue_skipped {s : State} {x : Dump} (h : s.rd wGauge Reg.GAUGE_DUMP_PERIOD_MS ≠ 0 ∧ s.dutyRuns 13 = true)
    (hx : s.gauge.dumping = some x) :
    s.dumpDue = { s with gauge := { s.gauge with skipped := min (s.gauge.skipped + 1) 65535 } } := by
  refine (if_neg (by simp [h.1, h.2])).trans ?_
  dsimp only
  rw [hx]

/-- A dump one of whose writes failed is abandoned with a fault (R589). -/
theorem dumpDone_failed {s u : State} {x : Dump} (h : s.gauge.dumping = some x)
    (hu : u = { s with gauge := { s.gauge with dumping := none } }) : s.dumpDone false = u.fault .gauge 0 x.seq := by
  subst hu
  unfold State.dumpDone
  rw [h]
  rfl

/-- A dump that ends writes its pages, then its header, and at last its sequence number (R587, R588). -/
theorem dumpDone_written {s u v : State} {x : Dump} {l : Nat} {pages : List Nat} (h : s.gauge.dumping = some x)
    (hu : u = { s with gauge := { s.gauge with dumping := none } })
    (hl : l = u.fnLink u.owner ∧ pages = maskPages x.mask)
    (hv : v = (((u.hostWr l (x.addr + 128) (pages.flatMap u.pageBytes)).hostWr l x.addr (leBytes 4 0x47554147)).hostWr l
      (x.addr + 8) (leBytes 8 (gaugeTime s) ++ leBytes 8 (gaugeTime s) ++ leBytes 2 pages.length ++ leBytes 2 x.skipped ++
        List.replicate 36 0 ++ leBytes 64 x.mask))) :
    s.dumpDone true = (((v.hostWr l (x.addr + 4) (leBytes 4 x.seq)).wr wGauge Reg.GAUGE_DUMP_SEQ_LAST_SEQ x.seq).count
      157 29 (128 + 4096 * pages.length)).strobe 36 := by
  obtain ⟨rfl, rfl⟩ := hl
  subst hv hu
  unfold State.dumpDone
  rw [h]
  exact if_neg Bool.noConfusion

/-! ### Gauge's commands (R575, R579 to R586) -/

section
variable {b : State} {j : Job}

/-- GAUGE_PC_SET arms a counter with a source that it may count (R579, R581). -/
theorem gaugePcSet_arms {k sel : Nat}
    (h : k = j.le 4 2 ∧ sel = j.le 8 4 ∧ k < 576 ∧ j.byte 0 6 < 16 ∧ j.only [(4, 3), (8, 14)] = true)
    (hs : (j.byte 0 6).testBit 0 = true ∧ ((j.byte 0 6).testBit 2 = true → k < 512) ∧
      pcSourceOk k (b2n ((j.byte 0 6).testBit 3)) sel (j.le 12 4) = true) :
    gaugePcSet j b = okRes (b.pcArm k (j.byte 0 6) sel (j.le 12 4) (j.le 16 6)) [] := by
  obtain ⟨rfl, rfl, hk, hfl, hf⟩ := h
  obtain ⟨he, hp, hs⟩ := hs
  have sample : ¬((j.byte 0 6).testBit 2 = true ∧ 512 ≤ j.le 4 2) := fun g => Nat.not_le.2 (hp g.1) g.2
  refine (if_neg (by simp [hf, Nat.not_le.2 hk, Nat.not_le.2 hfl])).trans ((if_neg (by simp [he])).trans (if_neg ?_))
  rw [hs]
  simpa using sample

/-- GAUGE_PC_SET without ENABLE stops a counter (R579). -/
theorem gaugePcSet_stops (h : j.le 4 2 < 576 ∧ j.byte 0 6 < 16 ∧ j.only [(4, 3), (8, 14)] = true ∧
      (j.byte 0 6).testBit 0 = false) :
    gaugePcSet j b = okRes (b.wr (pcBase (j.le 4 2)) Reg.GAUGE_PC_A_ENABLE 0) [] := by
  obtain ⟨hk, hfl, hf, he⟩ := h
  exact (if_neg (by simp [hf, Nat.not_le.2 hk, Nat.not_le.2 hfl])).trans (if_pos he)

/-- GAUGE_CLEAR of a page that exists (R575). -/
theorem gaugeClear_ok (h : j.le 4 2 < 512 ∧ j.only [(4, 2)] = true) :
    gaugeClear j b = okRes (b.clearPage (j.le 4 2)) [] :=
  if_neg (by simp [h.2, Nat.not_le.2 h.1])

/-- GAUGE_BW_SET: a window of 0 stops measurement and a first one starts it at once (R584). -/
theorem gaugeBwSet_ok {n w : Nat}
    (h : n = j.le 4 2 ∧ w = j.le 8 4 ∧ n < 128 ∧ w ≤ 1000000 ∧ j.only [(4, 2), (8, 4)] = true) :
    gaugeBwSet j b = okRes (if w = 0 ∨ b.bwWindow n = 0 then (b.wr (wGauge + 4 * n) Reg.GAUGE_BW_BW_WINDOW_US w).bwStart n w
      else b.wr (wGauge + 4 * n) Reg.GAUGE_BW_BW_WINDOW_US w) [] := by
  obtain ⟨rfl, rfl, hn, hw, hf⟩ := h
  exact if_neg (by simp [hf, Nat.not_le.2 hn, Nat.not_lt.2 hw])

/-- GAUGE_DUMP_SET of valid fields restarts the dumps with its mask and buffers (R586). -/
theorem gaugeDumpSet_ok {u : State}
    (h : j.le 4 2 ≤ 10000 ∧ 1 ≤ j.byte 0 6 ∧ j.byte 0 6 ≤ 64 ∧ j.le 8 8 % 64 = 0 ∧ j.only [(4, 3), (8, 16)] = true)
    (hu : u = ((b.countMoved 30 64).wr wGauge Reg.GAUGE_DUMP_PERIOD_MS (j.le 4 2)).wr wGauge Reg.GAUGE_DUMP_BUFFERS
      (j.byte 0 6)) :
    gaugeDumpSet j b = okRes { u with gauge := { u.gauge with
      dumpMask := leNat (b.hostRd (b.jobLink j) j.hostAddr 64), dumpBase := j.le 8 8, dumpNext := 1, skipped := 0 } } [] := by
  obtain ⟨hm, hn, hn', ha, hf⟩ := h
  subst hu
  exact if_neg (by simp [hf, ha, Nat.not_lt.2 hm, Nat.pos_iff_ne_zero.1 hn, Nat.not_lt.2 hn'])

/-- GAUGE_SAMPLE_READ moves the oldest samples to the host (R582). -/
theorem gaugeSampleRead_ok {p n : Nat} {l : List (List Byte)} {u : State}
    (h : p = j.byte 0 4 ∧ p < 8 ∧ j.le 8 4 ≤ 4096 ∧ j.only [(4, 1), (8, 4), (16, 8)] = true)
    (hl : l = tabGet (fun _ => []) b.gauge.samples p) (hn : n = min (j.le 8 4) l.length)
    (hu : u = { b with gauge := { b.gauge with samples := tabSet (fun _ => []) b.gauge.samples p (l.drop n) } }) :
    gaugeSampleRead j b = okRes (((u.wr (wGauge + 4 * p) Reg.GAUGE_SAMPLE_SAMPLES_LOST 0).wr (wGauge + 4 * p)
        Reg.GAUGE_SAMPLE_HELD (l.length - n)).jobWrite j j.hostAddr (l.take n).flatten)
      (leBytes 4 n ++ leBytes 3 (b.rd (wGauge + 4 * p) Reg.GAUGE_SAMPLE_SAMPLES_LOST)) := by
  obtain ⟨rfl, hp, hc, hf⟩ := h
  subst hu hn hl
  exact if_neg (by simp [hf, Nat.not_le.2 hp, Nat.not_lt.2 hc])

end

/-- Settles O58: each clause is its row's operation, or its command's body, in the case that the clause describes. -/
theorem gaugeRows : Obligations.GaugeRows := by
  refine ⟨?arms, ?stops, ?clear, ?bw, ?dumpSet, ?samples, ?bwEnd, ?skipped, ?begun, ?failed, ?written⟩
  case arms => exact fun s b j k sel h hv hs => jobRow_ok h (gaugePcSet_arms hv hs)
  case stops => exact fun s b j h hv => jobRow_ok h (gaugePcSet_stops hv)
  case clear => exact fun s b j h hv => jobRow_ok h (gaugeClear_ok hv)
  case bw => exact fun s b j n w h hv => jobRow_ok h (gaugeBwSet_ok hv)
  case dumpSet => exact fun s b j h hv => jobRow_ok h (gaugeDumpSet_ok hv rfl)
  case samples => exact fun s b j p n l u h hv hl hn hu => jobRow_ok h (gaugeSampleRead_ok hv hl hn hu)
  case bwEnd => exact fun s n w h => congrArg Host.Outcome.next (bwEnd_measured h)
  case skipped => exact fun s x h hx => congrArg Host.Outcome.next (dumpDue_skipped h hx)
  case begun =>
    intro s u x h hn hx hu
    subst hu hx
    exact dumpDue_starts ⟨h.1, h.2, hn⟩
  case failed => exact fun s u x h hu => congrArg Host.Outcome.next (dumpDone_failed h hu)
  case written => exact fun s u v x l pages h hu hl hv => congrArg Host.Outcome.next (dumpDone_written h hu hl hv)

/-! ### Recorders (R593 to R597) -/

/-- A folded record is reposted once 100 ms have passed since the last repost (R597). -/
theorem mirrorRepost_timed {s : State} {r : Nat} {e : Rec} (h : (s.recorder r).folded = some e)
    (ht : s.since (s.recorder r).repostAt (10 ^ 8) = true) :
    s.mirrorRepostW wh2 r true = (s.setRecorder r { s.recorder r with
      folded := none, repostAt := some s.clock.up }).mirrorPostW wh2 r e true := by
  unfold State.mirrorRepostW
  dsimp only
  rw [h]
  exact if_neg (by rw [ht]; decide)

section
variable {b : State} {j : Job}

/-- SCRIBE_READ of slots that its recorder has; an empty slot reads as zeros (R596). -/
theorem scribeRead_ok {r first n : Nat} (h : r = j.byte 0 4 ∧ first = j.le 8 4 ∧ n = j.le 12 4 ∧ r < 9 ∧
      first + n ≤ recorderSize r ∧ j.only [(4, 1), (8, 8), (16, 8)] = true) :
    scribeRead j b = okRes (b.jobWrite j j.hostAddr ((rangeFrom first n).flatMap (fun k =>
      ((b.recorder r).log.reverse[k]?).elim (List.replicate 32 0) (fun e => e.bytes false)))) (leBytes 4 n) := by
  obtain ⟨rfl, rfl, rfl, hr, hn, hf⟩ := h
  refine (if_neg (by simp [hf, Nat.not_le.2 hr, Nat.not_lt.2 hn])).trans ?_
  refine congrArg (fun g => okRes (b.jobWrite j j.hostAddr ((rangeFrom (j.le 8 4) (j.le 12 4)).flatMap g))
    (leBytes 4 (j.le 12 4))) (funext fun k => ?_)
  cases (b.recorder (j.byte 0 4)).log.reverse[k]? <;> rfl

/-- SCRIBE_CLEAR empties a log, unless it is conditional and the last record is not the one that it names (R596). -/
theorem scribeClear_ok (h : j.byte 0 4 < 9 ∧ j.byte 0 5 < 2 ∧ j.only [(4, 2), (8, 4)] = true)
    (hs : j.bit 5 0 = false ∨ (b.recorder (j.byte 0 4)).log = [] ∨
      ((b.recorder (j.byte 0 4)).log.head?.map Rec.seq) = some (j.le 8 4)) :
    scribeClear j b = okRes (b.clearLog (j.byte 0 4)) [] := by
  obtain ⟨hr, hb, hf⟩ := h
  refine (if_neg (by simp [hf, Nat.not_le.2 hr, Nat.not_le.2 hb])).trans (if_neg ?_)
  cases hl : (b.recorder (j.byte 0 4)).log with
  | nil => exact Bool.false_ne_true
  | cons e l =>
    rw [hl] at hs
    simpa [or_iff_not_imp_left] using hs

/-- A conditional SCRIBE_CLEAR whose sequence number is old is refused (R596). -/
theorem scribeClear_stale {e : Rec} {l : List Rec} (h : j.byte 0 4 < 9 ∧ j.byte 0 5 < 2 ∧ j.only [(4, 2), (8, 4)] = true)
    (hs : j.bit 5 0 = true ∧ (b.recorder (j.byte 0 4)).log = e :: l ∧ e.seq ≠ j.le 8 4) :
    scribeClear j b = failA b St.SCRIBE_STALE := by
  obtain ⟨hr, hb, hf⟩ := h
  obtain ⟨hc, hl, he⟩ := hs
  refine (if_neg (by simp [hf, Nat.not_le.2 hr, Nat.not_le.2 hb])).trans (if_pos ?_)
  rw [hl]
  simp [hc, he]

/-- SCRIBE_RATE_SET of an entry that exists (R594). -/
theorem scribeRateSet_ok (h : j.byte 0 4 ≤ 40 ∧ j.only [(4, 1), (8, 2)] = true) :
    scribeRateSet j b = okRes (b.wr (wScribe + 4 * j.byte 0 4) Reg.SCRIBE_RATE_LIMIT (j.le 8 2)) [] :=
  if_neg (by simp [h.2, Nat.not_lt.2 h.1])

/-- SCRIBE_MIRROR_SET to no queue ends the mirror (R597). -/
theorem scribeMirrorSet_off {r : Nat} (h : r = j.byte 0 4 ∧ r < 9 ∧ j.only [(4, 1), (6, 2)] = true ∧ j.le 6 2 = 0xFFFF) :
    scribeMirrorSet j b = okRes ((b.wr (recBase r) Reg.SCRIBE_REC_D_MIRROR_Q 0xFFFF).wr (recBase r)
      Reg.SCRIBE_REC_A_MIRROR_EN 0) [] := by
  obtain ⟨rfl, hr, hf, hi⟩ := h
  refine (if_neg (by simp [hf, Nat.not_le.2 hr, hi])).trans ?_
  rw [hi]
  rfl

/-- SCRIBE_MIRROR_SET to an EVENT queue of the owner function starts the mirror (R597). -/
theorem scribeMirrorSet_on {r i q : Nat} (h : r = j.byte 0 4 ∧ i = j.le 6 2 ∧ r < 9 ∧ j.only [(4, 1), (6, 2)] = true)
    (hq : i < 512 ∧ b.findQ b.owner i = some q ∧ (b.queue q).typ = .event) :
    scribeMirrorSet j b = okRes ((b.wr (recBase r) Reg.SCRIBE_REC_D_MIRROR_Q i).wr (recBase r)
      Reg.SCRIBE_REC_A_MIRROR_EN 1) [] := by
  obtain ⟨rfl, rfl, hr, hf⟩ := h
  obtain ⟨hi, hq, ht⟩ := hq
  have named : j.le 6 2 ≠ 0xFFFF := by omega
  refine (if_neg (by simp [hf, Nat.not_le.2 hr, hi, hq, ht])).trans ?_
  rw [decide_eq_true named]
  rfl

/-- SCRIBE_SETUP of a watermark within the log (R595). -/
theorem scribeSetup_ok (h : j.byte 0 4 < 9 ∧ j.le 8 4 ≤ recorderSize (j.byte 0 4) ∧ j.only [(4, 1), (8, 4)] = true) :
    scribeSetup j b = okRes ((b.wr (recBase (j.byte 0 4)) Reg.SCRIBE_REC_D_WATERMARK (j.le 8 4)).scribeRiseW wh2
      (j.byte 0 4)) [] :=
  if_neg (by simp [h.2.2, Nat.not_le.2 h.1, Nat.not_lt.2 h.2.1])

end

/-- Settles O59: each clause is its row's operation, or its command's body, in the case that the clause describes. -/
theorem scribeRows : Obligations.ScribeRows := by
  refine ⟨?arrival, fun _ => rfl, ?repost, ?read, ?clear, ?stale, ?rate, ?mirrorOff, ?mirrorOn, ?setup⟩
  case arrival => exact fun s code source fw p0 p1 p2 h => congrArg Host.Outcome.next (if_pos h)
  case repost => exact fun s r e h => congrArg Host.Outcome.next (mirrorRepost_timed h.1 h.2)
  case read => exact fun s b j r first n h hv => jobRow_ok h (scribeRead_ok hv)
  case clear => exact fun s b j h hv hs => jobRow_ok h (scribeClear_ok hv hs)
  case stale => exact fun s b j e l h hv hs => jobRow_fail h (scribeClear_stale hv hs)
  case rate => exact fun s b j h hv => jobRow_ok h (scribeRateSet_ok hv)
  case mirrorOff => exact fun s b j r h hv => jobRow_ok h (scribeMirrorSet_off hv)
  case mirrorOn => exact fun s b j r i q h hv hq => jobRow_ok h (scribeMirrorSet_on hv hq)
  case setup => exact fun s b j h hv => jobRow_ok h (scribeSetup_ok hv)

end Sys2Proof.Machine
end

section
/-!
PROOFS. The reset pins, the boot flash and the device states up to READY (ch. 22), then the obligation on them.
-/
namespace Sys2Proof.Machine

/-! ### Reset pins (R625 to R629) -/

/-- POR_N's release samples the straps, and takes the device to FUSED unless WARM_RST_N holds it (R626, R631). -/
theorem porRelease_cold {s u : State} {x : Straps} {good : Bool} (h : s.dev.cold = true)
    (hu : u = State.strapped { s with dev := { s.dev with cold := false } } x) :
    s.porRelease x good = if u.dev.warmPin then u.oscLevel good else u.enterFused 0 good := by
  subst hu
  exact if_neg (by simp [h])

/-- WARM_RST_N low resets a running device warm (R625, R628). -/
theorem warmAssert_running {s u : State} (h : s.dev.warmPin = false ∧ s.devState ≠ 0)
    (hu : u = (s.warmReset 1).oscLevel s.counting) :
    s.warmAssert = { u with dev := { u.dev with warmPin := true, prior := s.devState } } := by
  subst hu
  exact (if_neg (Bool.eq_false_iff.1 h.1)).trans (if_neg h.2)

/-- WARM_RST_N low in COLD only holds the device there (R625). -/
theorem warmAssert_cold {s : State} (h : s.dev.warmPin = false ∧ s.devState = 0) :
    s.warmAssert = { s with dev := { s.dev with warmPin := true } } :=
  (if_neg (Bool.eq_false_iff.1 h.1)).trans (if_pos h.2)

/-- WARM_RST_N's release takes the device to FUSED, unless POR_N holds it (R629). -/
theorem warmRelease_held {s u : State} (h : s.dev.warmPin = true)
    (hu : u = { s with dev := { s.dev with warmPin := false, prior := 0 } }) :
    s.warmRelease = if s.dev.cold then u
      else (u.wr wThyme (Reg.FLT_LIVE_I 0) 0).enterFused s.dev.prior s.counting := by
  subst hu
  exact if_neg (by simp [h])

/-! ### Boot (R631 to R635) -/

/-- In FUSED a good copy is booted; a bad one is recorded and the other copy is tried, or boot ends (R635). -/
theorem flashChecked_reading {s u : State} {g : List Byte} {retries ph k : Nat}
    (h : s.devState = 1 ∧ ph = s.rd wBoot Reg.BOOT_STATUS_PHASE ∧ (ph = 1 ∨ ph = 3))
    (hk : k = if noData g then 3 else retries)
    (hu : u = forEach (rangeFrom 0 k) (fun _ s => (s.inc wBoot Reg.BOOT_RETRIES_RETRIES 1).fault .boot 0 0) s) :
    s.flashChecked g retries = (s.fwFail g).elim (u.enterBooted g (decide (ph = 3))) (fun f =>
      (((u.event Ev.FW_REJECTED 0 (imB g 12 % 4) f.2 (imW g 8)).fault .boot 1 0).wr wBoot
        (if ph = 1 then Reg.BOOT_STATUS_PRIMARY_FAIL else Reg.BOOT_STATUS_FALLBACK_FAIL) (1 + f.1)).wr wBoot
          Reg.BOOT_STATUS_PHASE (if ph = 1 then 3 else 6)) := by
  obtain ⟨hs, rfl, hp⟩ := h
  subst hu hk
  refine (if_neg (by rw [hs]; omega)).trans ?_
  cases s.fwFail g <;> rfl

/-- Filling the reserves of head cells leaves the device's own fields alone (R270). -/
theorem fillHeads_dev (s : State) : s.fillHeads.dev = s.dev := by
  unfold State.fillHeads State.addFree
  rw [State.wr_dev]
  refine (forEach_same State.dev ?heads _ _).trans (forEach_same State.dev ?banks _ _)
  all_goals exact fun _ _ => rfl

/-- In BOOTED the memories report (R632). -/
theorem memInitDone_booted {s u : State} (h : s.devState = 2 ∧ s.dev.memInit = false) (hu : u = s.fillHeads) :
    s.memInitDone = State.maybeTrained { u with dev := { u.dev with memInit := true } } := by
  subst hu
  rw [fillHeads_dev]
  exact if_neg (by simp [h.1, h.2])

/-- In BOOTED the lanes report, each failed one to the ports that use it (R42, R632). -/
theorem serdesDone_booted {s u : State} {failed : Nat} {bad : List Nat} (h : s.devState = 2 ∧ s.dev.serdes = false)
    (hb : bad = (rangeFrom 0 128).filter (fun n => failed.testBit n))
    (hu : u = { s with dev := { s.dev with serdes := true, laneBad := bad } }) :
    s.serdesDone failed = (forEach bad (fun n s => forEach (lanePorts n) (fun k s => s.levelPort k 2 n true) s)
      u).maybeTrained := by
  subst hu hb
  exact if_neg (by simp [h.1, h.2])

/-- In BOOTED or in SAFE the stacks report (R536, R632). -/
theorem dramDone_training {s u : State} {good : Nat} (h : (s.devState = 2 ∨ s.devState = 5) ∧ s.dev.dramTrained = false)
    (hu : u = s.stacksTrained good) :
    s.dramDone good = State.maybeTrained { u with dev := { u.dev with dramTrained := true } } := by
  subst hu
  refine if_neg ?_
  simp only [h.2, Bool.false_eq_true, or_false]
  omega

/-- In TRAINED the cleared EM areas lead to READY (R631, R632). -/
theorem emClearDone_trained {s : State} (h : s.devState = 3) :
    s.emClearDone = ((s.wr wGlobal Reg.GLOBAL_DEV_STATE_STACK_OK ((rangeFrom 0 4).foldl (fun a x =>
      if s.stackState x = 2 then a + 2 ^ x else a) 0)).wr wGlobal Reg.GLOBAL_DEV_STATE_BOOT_MS
        (min 65535 s.sinceReset)).changeState 3 4 :=
  if_neg (not_not_intro h)

/-- Settles O55: each clause is its row's operation in the case that the clause describes. -/
theorem resetAndBoot : Obligations.ResetAndBoot := by
  refine ⟨fun _ => rfl, ?porRise, ?warmFall, ?warmFallCold, ?warmRise, ?flash, ?memories, ?lanes, ?dram, ?cleared⟩
  case porRise => exact fun s u bifur owner osc smb good h hu => congrArg Host.Outcome.next (porRelease_cold h hu)
  case warmFall => exact fun s h => congrArg Host.Outcome.next (warmAssert_running h rfl)
  case warmFallCold => exact fun s h => congrArg Host.Outcome.next (warmAssert_cold h)
  case warmRise => exact fun s u h hu => congrArg Host.Outcome.next (warmRelease_held h hu)
  case flash => exact fun s u g retries ph k h hk hu => congrArg Host.Outcome.next (flashChecked_reading h hk hu)
  case memories => exact fun s h => congrArg Host.Outcome.next (memInitDone_booted h rfl)
  case lanes => exact fun s u failed bad h hb hu => congrArg Host.Outcome.next (serdesDone_booted h hb hu)
  case dram => exact fun s good h => congrArg Host.Outcome.next (dramDone_training h rfl)
  case cleared => exact fun s h => congrArg Host.Outcome.next (emClearDone_trained h)

end Sys2Proof.Machine
end
